-- ==== Sys2Proof/Word.lean ====
section
/-! DEFINITION. The words of the block (R2, R4, R70): the 32-bit register word, the byte, a named bit field of a register, and the shape of a register's description. -/

namespace Sys2Proof

/-- A register word (R69: register pages take 32-bit accesses only). -/
abbrev Word := BitVec 32

/-- A byte of a memory region. -/
abbrev Byte := BitVec 8

namespace Machine

/-- A named field of a register: the register's address and the field's bits `[hi:lo]`. -/
structure Field where
  addr : Nat
  hi : Nat
  lo : Nat
  deriving DecidableEq, Repr

/-- The access codes of R4; `rwlw1s` is "RWL, W1S" of the APPLY registers. -/
inductive Access where
  | ro | rw | wo | w1c | w1s | rwl | rwk | stk | rwlw1s
  deriving DecidableEq, Repr

/-- A field in a register's description: its bits, its access code and its reset value. -/
structure FieldRow where
  hi : Nat
  lo : Nat
  acc : Access
  rst : Nat
  deriving DecidableEq, Repr

/-- A register's description: its offset in the page, the stride and the number of its repetitions, its key (0: none) and its fields. -/
structure RegRow where
  off : Nat
  stride : Nat
  count : Nat
  key : Nat
  fields : List FieldRow
  deriving DecidableEq, Repr

/-- The kinds of register page (R70). -/
inductive PageKind where
  | sys | clk | pwr | intc | split | bist | upd | sec | tamp | rtc | eye | cap | dram | flash | mram | gpio | heat | ugrp | frame | pacer | lane | uch | harm | pqe | bill | tariff | prepay | disc | pulse | disp | plcphy | plcmac | mesh | eth | uart | spih | dbg
  deriving DecidableEq, Repr

end Machine

/-! ### What a command's operands measure -/

/-- One lane's two decimator outputs for a frame (R90, R118): low gain and high gain in LSB of the word, each with its modulator's overload mark. -/
structure LaneIn where
  lg : Int := 0
  hg : Int := 0
  clpLg : Bool := false
  clpHg : Bool := false
  deriving DecidableEq, Repr

/-- One voltage channel's decimator output for a frame (R118). -/
structure UIn where
  v : Int := 0
  clp : Bool := false
  deriving DecidableEq, Repr

/-- Where the boundary of a group is measured (R153): the crossing found, and the tracker's own phase. -/
structure Crossing where
  found : Int := 0
  own : Int := 0
  deriving DecidableEq, Repr

/-- A level of CASEn that it has held for the filter time (R322). -/
structure CaseIn where
  n : Nat
  high : Bool := true
  deriving DecidableEq, Repr

/-- What of a transaction had been done when HSS_N rose (R426): the words of a write that were sent, or how many words of a read were issued. -/
structure SpiCut where
  data : List Word := []
  words : Nat := 0
  deriving DecidableEq, Repr

/-- How an Ethernet transmission ended (R437, R438): aborted, run dry, and the collisions met. -/
structure TxEnd where
  abort : Bool := false
  under : Bool := false
  colls : Nat := 0
  deriving DecidableEq, Repr

/-- How a powerline frame was received (R377, R382): frame control and payload decoded, the mean SNR of each phase's pilots in 0.25 dB, and the delay spread in ns. -/
structure RxInfo where
  fcOk : Bool := true
  decoded : Bool := true
  snrA : Int := 0
  snrB : Int := 0
  snrC : Int := 0
  spreadNs : Nat := 0
  /-- Samples blanked and symbols erased (R390). -/
  blanked : Nat := 0
  erased : Nat := 0
  /-- Bit p: phase p's inputs saturated, which leaves the phase out of the frame (R377). -/
  sat : Nat := 0
  deriving DecidableEq, Repr

/-- A pod that answers on a wire in a scan (R246–R250): its ID, its memory, how its READs and WRITEs went, and where its placement's windows lie in the ring. -/
structure PodIn where
  id : Nat
  mem : List Byte
  /-- Of each READ that the scan makes of it, in their order: 0 read, 1 read on the one retry, 2 failed twice (R244); READs not listed are read. -/
  fault : List Nat := []
  /-- 0 written, 1 written on the one retry, 2 refused twice. -/
  wfault : Nat := 0
  /-- The ID sampled in each search of the scan in which its CLASS or CHECK failed (R246). -/
  badIds : List Nat := []
  /-- The placement's windows as made (R250): the SEQs at which the silent window and the one with the tone begin. -/
  wins : List (Nat × Nat) := []
  deriving DecidableEq, Repr

end Sys2Proof
end

