-- ==== Sys2Proof/Syntax.lean ====
section
/-! DEFINITION. The commands of the block: one constructor per row of the spec's command table, in its order. Operands are what the outside gives with the command: the master and the word of a register write, a measured value, an edge's level, or a received frame. -/

namespace Sys2Proof

/-- A command. `m` is the master (R81), `v` the word written, and the other operands carry what the environment measures or sends. -/
inductive Instr where
  /-- R55: VSUP rises above 5.9 V and the device leaves BACKUP ONLY and runs the start sequence: buck, regulators, crystal, PLL, straps, boot ROM, engine loading, billing recovery, heat enable, optional full self-test, GUN and first stride. -/
  | vsupRiseStart (boot1 : Bool) (boot0 : Bool) (testN : Bool) (vsupMv : Nat) (bad : Nat)
  /-- R53: VSUP falls below the undervoltage lockout, the main domain stops and the device enters BACKUP ONLY. -/
  | undervoltageLockout
  /-- R30: A supply comparator condition holds and the backup switch moves VBKP between V3V3 and VBAT, raising BKP_SWITCH once main power is present. -/
  | backupSwitchTransition (v3v3Mv : Nat) (vbatMv : Nat)
  /-- R31: VBKP falls below 2.0 V and all backup-domain state, including sticky flags and the owner key, is lost. -/
  | backupDomainLoss
  /-- R350: The backup domain powers up from loss: backup registers take their reset values, OSF is set and BKPLOSS is reported at the next start. -/
  | backupDomainPowerUp (seed : Nat)
  /-- R33: A write to PWR.PF_CFG is checked against the measured VSUP and, if valid, takes effect at once and arms the power-fail warning. -/
  | pfCfgWrite (m : Nat) (v : Word) (vsupMv : Nat)
  /-- R57: VSUP stays below the threshold for the filter time: the device enters HOLDUP, sheds load, discards unconfirmed strides, closes partial records and posts them to billing. -/
  | powerFailWarning (vsupMv : Nat)
  /-- R57: Once the billing engine has published its staging image after the warning, the MRAM controller writes and verifies it and sets COMMIT_DONE. -/
  | powerFailCommit (ok1 : Bool) (ok2 : Bool)
  /-- R58: The warning clears within 500 ms and the device rides through, passing holdup cycles to billing and restarting the powerline and harmonic windows. -/
  | powerFailWarningClear (vsupMv : Nat)
  /-- R58: The warning is still active 500 ms after it was raised: holdup cycles are discarded and the power-fail timeout reset follows. -/
  | powerFailTimeout
  /-- R53: Deferred work is done and every enabled group has committed a normal cycle, and the device returns from RIDE-THROUGH to RUN or QUIET. -/
  | rideThroughComplete
  /-- R29: A sensor stays at 140 °C for 10 ms and the device runs the power-fail sequence, then holds itself in reset. -/
  | overtempShutdown (block : Nat)
  /-- R29: Every sensor reads below 120 °C and the device held in reset after an over-temperature shutdown is released to START. -/
  | overtempRelease (boot1 : Bool) (boot0 : Bool) (testN : Bool) (vsupMv : Nat) (bad : Nat)
  /-- R43: The crystal monitor finds a window count off by more than 3 % or PLL lock lost for 10 µs: islands stop, CORE and IO move to the RC clock and a billing commit is made. -/
  | clockFailure
  /-- R45: RESET_N is driven low and a pre-reset commit starts, with the device held in reset while the pin stays low. -/
  | pinReset
  /-- R51: The watchdog count reaches half its timeout and WDT_PRE is raised. -/
  | watchdogHalf
  /-- R51: The watchdog count reaches its timeout and a watchdog reset with pre-reset commit follows. -/
  | watchdogTimeout
  /-- R51: A keyed write to SYS.WDT changes the enable or the timeout, with range checks. -/
  | wdtConfigWrite (m : Nat) (v : Word) (bootRom : Bool)
  /-- R51: A keyed write to SYS.WDT_KICK restarts the watchdog count. -/
  | wdtKick (m : Nat) (v : Word)
  /-- R50: A keyed write of SYS.RESET.GO starts the pre-reset commit and the software reset. -/
  | softwareReset (m : Nat) (v : Word)
  /-- R46: The pre-reset commit of the staging image completes and the internal reset asserts, setting COMMIT_OK. -/
  | preResetCommitDone (ok1 : Bool) (ok2 : Bool)
  /-- R46: The pre-reset commit has not completed 5 ms (15 ms for clock fail) after the cause, so the internal reset asserts and COMMIT_MISSED is set. -/
  | preResetCommitTimeout
  /-- R53: The internal reset is released and the device enters START, sampling the straps and checking TEST_N. -/
  | internalResetRelease (boot1 : Bool) (boot0 : Bool) (testN : Bool) (vsupMv : Nat) (bad : Nat)
  /-- R48: A write of PG_CTRL.SRST re-initialises one page's block and returns its block registers to reset values, except locked and sticky fields. -/
  | pageSoftReset (m : Nat) (page : Nat)
  /-- R54: A write of 1 to PWR.CTRL.QUIET in RUN stops communication and display blocks and enters QUIET. -/
  | enterQuiet (m : Nat) (v : Word)
  /-- R53: A wake source enabled in PWR.WAKE occurs and the device returns from QUIET to RUN. -/
  | wakeFromQuiet (src : Nat)
  /-- R64: An accepted keyed write of SYS.SHUTDOWN.GO enters SHUTDOWN TEST, stops Pacers at the next confirmed boundary, commits billing and, if TEST is set, runs the slices. -/
  | shutdown (m : Nat) (v : Word)
  /-- R75: A write to PG_CTRL sets the block enable or FREEZE, starting a stopped island or refusing disables that R104 forbids. -/
  | pageEnableWrite (m : Nat) (page : Nat) (v : Word)
  /-- R73: PG_CTRL.FREEZE is cleared by hardware 1 ms after it was set. -/
  | freezeTimeout (page : Nat)
  /-- R74: A W1C write to PG_IRQ_STS clears event bits without losing an event that occurs during the clear. -/
  | irqStatusClear (m : Nat) (page : Nat) (v : Word)
  /-- R77: A write to PG_INJ arms, re-arms or disarms injection into a page's detector, subject to key, seal and session checks. -/
  | injectionWrite (m : Nat) (page : Nat) (v : Word)
  /-- R76: A keyed write of 1 to PG_LOCK.LOCK freezes the page's RWL fields until the next reset. -/
  | pageLock (m : Nat) (page : Nat) (v : Word)
  /-- R79: A posted write to a register with no row of its own is accepted by the interconnect and lands in its island, applying field checks, locks and refusals. -/
  | registerWrite (m : Nat) (addr : Nat) (size : Nat) (v : Word)
  /-- R80: A posted write to a stopped or isolated island is discarded after 50 µs and logged as a bus error. -/
  | postedWriteDiscard (m : Nat) (addr : Nat)
  /-- R80: A read of a block register in a stopped island ends after 50 µs, or after up to 800 ms for an isolated island on B1, in a TIMEOUT bus error. -/
  | readTimeout (m : Nat) (addr : Nat)
  /-- R81: A read of SYS.FENCE returns only after all earlier writes of the reading master have landed or been discarded, and reports and clears DISCARD. -/
  | fenceRead (m : Nat)
  /-- R3: A read of the low word of a 64-bit register pair latches the high word for the next read by the same master. -/
  | latchedPairRead (m : Nat) (addr : Nat)
  /-- R135: A read of DRAM.RING_SEQ returns the newest complete frame and latches RING_SLOT for the same master. -/
  | ringSeqRead (m : Nat)
  /-- R205: A write of UCH.TT_LOAD.GO loads and checks the chip temperature table image at TT_SRC. -/
  | temperatureTableLoad (m : Nat) (v : Word)
  /-- R285: A write of TARIFF.LOAD.GO loads and checks the tariff image, which takes effect at the start of the next whole second. -/
  | tariffTableLoad (m : Nat) (v : Word)
  /-- R304: A write of DISC.LOAD.GO loads and checks the disconnect-sequence image. -/
  | sequenceTableLoad (m : Nat) (v : Word)
  /-- R312: A write of DISP.LOAD.GO loads and checks the display image. -/
  | displayTableLoad (m : Nat) (v : Word)
  /-- R374: A write of PLCPHY.BP_LOAD.GO loads and checks a band plan, which takes effect at the end of the frame in flight and discards every tone map. -/
  | bandPlanLoad (m : Nat) (v : Word)
  /-- R92: A write to HEATn.RSEL sets the range-selector thresholds for all 16 lanes at one sample boundary, or is refused. -/
  | rselWrite (m : Nat) (heat : Nat) (v : Word)
  /-- R102: A write to HEATn.ISO or UGRP.ISO changes the input isolation mode or stimulus amplitude and starts a fresh settle. -/
  | isoWrite (m : Nat) (block : Nat) (v : Word)
  /-- R105: A write of HEATn.APPLY or UGRP.APPLY pushes channel records from the CORE shadows to the heat or U block. -/
  | applyPush (m : Nat) (block : Nat) (v : Word)
  /-- R105: A pushed record takes effect at the next sample, a settle starts, APPLY_BUSY clears and event 4 is raised. -/
  | applyDone (block : Nat)
  /-- R104: A write to HEATn.LANE_EN or UGRP.CH_EN enables or disables channels, refused for bound channels, and may start or stop a frame tracker. -/
  | laneEnableWrite (m : Nat) (block : Nat) (v : Word)
  /-- R99: Every 1 ms a reference is checked against its ±1 % window. -/
  | referenceCheck (ref : Nat) (dev : Int)
  /-- R99: 1 ms after a failed check the reference is checked again and the fault is classed transient or lasting, with REF_OK and UNS marking as a result. -/
  | referenceRecheck (ref : Nat) (dev : Int)
  /-- R98: A reference comes within 10 ppm of its settled value, or back into its window after a lasting fault, and REF_OK sets. -/
  | referenceSettled (ref : Nat)
  /-- R98: Once per second each reference is compared with the median of the four and the difference is published in REF_DEV. -/
  | referenceCompare (ppm10 : List Int)
  /-- R100: Every 1 ms each heat measures IRETh against AGND and sets IRETERR beyond ±150 mV. -/
  | iretCheck (heat : Nat) (mv : Int)
  /-- R101: Every 10 ms a block temperature sensor updates and the chip temperature table corrections are re-evaluated. -/
  | tempReading (block : Nat) (t : Int)
  /-- R119: Every 32 ksps period the merged lane and voltage words are released and written as one frame into the raw ring. -/
  | sampleRelease (lanes : List LaneIn) (us : List UIn)
  /-- R198: A write of UCH.CALM_CTRL.GO starts a MEAN or MATCH calibration measurement. -/
  | calMeasureStart (m : Nat) (v : Word)
  /-- R198: The calibration measurement window ends and means, RATIO, DELAY and VOID are written and DONE set. -/
  | calMeasureDone
  /-- R123: A rising edge on GUN_IN with IN_EN set resets modulator dividers, decimators, selectors, integrators and Last accumulators at the third clock edge. -/
  | gunInput
  /-- R124: A keyed write of SYS.GUN.FIRE fires a GUN and drives a 1 µs pulse on GUN_OUT. -/
  | gunFire (m : Nat) (v : Word)
  /-- R152: The Last reaches the start of a cycle and the tracker issues a stride with the predicted period and step. -/
  | strideIssue (g : Nat)
  /-- R149: The Last has formed all N outputs of a cycle and the Pacer publishes the cycle's record, flagged SPEC, to the live buffer. -/
  | speculativePublish (g : Nat)
  /-- R154: Frames covering a quarter cycle past the measured crossing are released and the tracker accepts the stride or declares a false start. -/
  | boundaryDecision (g : Nat) (crossing : Crossing)
  /-- R159: A replay attempt finishes and its boundary re-check passes, committing the record as FALSE_STARTED, or fails and starts a second replay or substitutes. -/
  | replayComplete (pacer : Nat) (fault : Nat) (bMeas : Int)
  /-- R158: A Pacer that was working from the ring catches up and returns to the live stream. -/
  | liveCatchUp (pacer : Nat)
  /-- R137: At a cycle end the tracker evaluates the lock condition and moves between ACQUIRE, LOCK, COAST and FREE. -/
  | trackerCycleEnd (g : Nat) (phaseOk : Bool) (amp : Nat) (uhz : Nat) (pos : Int)
  /-- R138: A 10 s RTC interval ends and the tracker publishes the 10 s frequency and checks it against FLIM. -/
  | freq10Interval (g : Nat)
  /-- R145: A fixed-rate block of 640 frames ends and commits directly. -/
  | fixedBlockEnd (g : Nat)
  /-- R139: A write to FRAME.VGg_CFG or VGg_AMIN changes tracker settings, dropping cycles in progress and restarting acquisition when mode, source, FNOM or N changes. -/
  | frameConfigWrite (m : Nat) (g : Nat) (amin : Bool) (v : Word)
  /-- R211: Every 31.25 µs each pulse output moves pending energy to its accumulator and the emitter starts a pulse when backlog allows. -/
  | pulseTick
  /-- R211: A pulse of width W ends and the output is released. -/
  | pulseEnd (ch : Nat)
  /-- R213: A keyed write of PULSE.CTRL with a non-zero CAL_MASK enters calibration mode on the named outputs. -/
  | pulseCalEnter (m : Nat) (v : Word)
  /-- R213: A keyed write of PULSE.CTRL with CAL_MASK 0 leaves calibration mode. -/
  | pulseCalExit (m : Nat) (v : Word)
  /-- R213: CAL_LEFT reaches 0 and calibration mode ends. -/
  | pulseCalTimeout
  /-- R214: A write to CHn_CFG or CHn_CONST while enabled clears the output's accumulators and backlog. -/
  | pulseConfigWrite (m : Nat) (ch : Nat) (konst : Bool) (v : Word)
  /-- R220: Every Pacer of the group has written its window records after the window's last cycle committed and HARM event 0 is raised. -/
  | harmonicWindowWrite (g : Nat)
  /-- R224: The RTC 10-minute tick closes the 10-minute interval and the short interval in progress. -/
  | aggTenminClose
  /-- R239: A capture has copied its last row and its NROWS, DCRC and HCRC are written and COMPLETE set. -/
  | captureComplete
  /-- R240: A write of CAP.CTRL.CLEAR evicts every unlocked record. -/
  | captureClear (m : Nat) (v : Word)
  /-- R240: A keyed CAP.RECCTL write with LOCK locks a directory slot's record. -/
  | captureRecordLock (m : Nat) (v : Word)
  /-- R240: A keyed CAP.RECCTL write with UNLOCK unlocks a record. -/
  | captureRecordUnlock (m : Nat) (v : Word)
  /-- R240: A keyed CAP.RECCTL write with DELETE evicts an unlocked, complete record. -/
  | captureRecordDelete (m : Nat) (v : Word)
  /-- R255: The scan period expires and every enabled Eyelet wire is enumerated, pods read, placed, bound or unbound, and life records written. -/
  | eyeletScan (wire : Nat) (found : List PodIn)
  /-- R255: A keyed EYE.CMD with OP RESCAN starts a scan. -/
  | eyeletRescan (m : Nat) (v : Word)
  /-- R257: A keyed EYE.CMD with OP XFER reads or writes a bound pod's user area through XDATA. -/
  | eyeletXfer (m : Nat) (v : Word) (data : List Byte) (fail : Nat)
  /-- R242: An Eyelet wire stays low for more than 2 ms while released and a wire fault is set. -/
  | eyeletWireFault (wire : Nat)
  /-- R259: A write to BILL.BPb_CFG checks the binding and schedules it to take effect at the group's next boundary of record. -/
  | bindingWrite (m : Nat) (b : Nat) (v : Word)
  /-- R261: The billing engine has the committed record of a cycle from every bound lane and applies them to registers, demand, credit, pulses and meter tamper. -/
  | billingApplyCycle (b : Nat)
  /-- R274: The time boundaries of a second execute in photo-finish order once groups have committed past the tick or 100 ms after it. -/
  | timeBoundaries (late : Bool)
  /-- R271: An accepted write of BILL.DEMAND closes the running interval as a clock change does and starts the new scheme. -/
  | demandSchemeWrite (m : Nat) (v : Word)
  /-- R279: A keyed BILL.CMD with OP 1 requests an immediate MRAM commit. -/
  | billCommitNow (m : Nat) (v : Word)
  /-- R273: A keyed BILL.CMD with OP 2 takes a manual snapshot. -/
  | billManualSnapshot (m : Nat) (v : Word)
  /-- R279: CPER seconds expire and the staging image is committed to a live buffer. -/
  | periodicCommit (ok1 : Bool) (ok2 : Bool)
  /-- R283: A write to BILL.RSEL latches the register, remainder, display and demand values of the selected point, quantity and tariff. -/
  | registerSelect (m : Nat) (v : Word)
  /-- R290: A keyed write of PREPAY.TCMD.GO checks the token in TOKEN0–7 and reports the result. -/
  | tokenCheck (m : Nat) (v : Word)
  /-- R290: The billing engine applies an accepted ADD, SET or ARM token between two cycles. -/
  | tokenApply
  /-- R295: A keyed PREPAY.CMD with OP ARM arms reconnection of a billing point. -/
  | prepayArm (m : Nat) (v : Word)
  /-- R295: A keyed PREPAY.CMD with OP ACCEPT_EC accepts emergency credit and arms reconnection. -/
  | prepayAcceptEc (m : Nat) (v : Word)
  /-- R315: A keyed PREPAY.CMD with OP DISARM disarms reconnection of a billing point. -/
  | prepayDisarm (m : Nat) (v : Word)
  /-- R302: A keyed DISC.CMD with OP OPEN queues an open of a position or billing point's positions. -/
  | discOpen (m : Nat) (v : Word)
  /-- R303: A keyed DISC.CMD with OP CLOSE queues a close, or arms a local or prepayment-opened position. -/
  | discClose (m : Nat) (v : Word)
  /-- R317: A keyed DISC.CMD with OP DISARM disarms a position or billing point. -/
  | discDisarm (m : Nat) (v : Word)
  /-- R306: An event named by an enabled trip slot is raised and the position opens in a batch of its own within 1 ms. -/
  | tripBatch (slot : Nat)
  /-- R304: The gap after a rank of a batch expires and the next rank switches. -/
  | rankGapExpiry
  /-- R299: Every PER ms a 48-bit chain frame rewrites all chained outputs and captures feedback. -/
  | chainRefresh (fb : Nat)
  /-- R307: SETTLE ms after an execution a position's feedback is checked. -/
  | feedbackCheck (n : Nat) (fb : Bool)
  /-- R307: 200 ms after a disagreement the feedback is checked again and the fault classed transient or lasting. -/
  | feedbackRecheck (n : Nat) (fb : Bool)
  /-- R298: Every 1 ms direct feedback is sampled and a change without an operation starts a check. -/
  | feedbackSample (fb : Nat)
  /-- R301: A write to DPn_CFG configures a position and, after main power-on, a direct position takes its commanded level from the recovered image. -/
  | dpConfigWrite (m : Nat) (n : Nat) (v : Word)
  /-- R314: A debounced BTN0 press shows the next page and holds scrolling. -/
  | btn0Press
  /-- R314: BTN1 released before 2 s selects the billing point of the page shown or clears the selection. -/
  | btn1ShortPress
  /-- R305: BTN1 held for 2 s is recognised as a long press and reconnects or accepts emergency credit for the selected point at the next step 7. -/
  | btn1LongPress
  /-- R310: A display bitmap frame is sent after a change or at least every 1 s. -/
  | displayFrame
  /-- R310: Every 60 s and at start the INIT entries are sent to the display controller. -/
  | displayInit
  /-- R311: A page's DWELL time expires and the display scrolls to the next page. -/
  | pageDwellExpiry
  /-- R314: The HOLD time after a BTN0 press expires and scrolling resumes. -/
  | scrollHoldExpiry
  /-- R314: SELTO seconds pass without a press and the billing point selection clears. -/
  | selectionTimeout
  /-- R319: A keyed DISP.CMD with OP NEXT shows the next page. -/
  | dispNext (m : Nat) (v : Word)
  /-- R319: A keyed DISP.CMD with OP SELECT selects a billing point. -/
  | dispSelect (m : Nat) (v : Word)
  /-- R319: A keyed DISP.CMD with OP RESUME resumes scrolling. -/
  | dispResume (m : Nat) (v : Word)
  /-- R322: A case switch holds its tamper level for the filter time and qualifies, setting its sticky flag and stamp and erasing keys if selected. -/
  | caseTamper (level : CaseIn)
  /-- R323: A lace loop's burst period expires and a 16-bit burst is driven and compared. -/
  | laceBurst (n : Nat) (bits : Nat)
  /-- R323: 2 ms after a failed burst a retry burst runs and the failure is classed transient or lasting, qualifying the loop as tamper. -/
  | laceRetry (n : Nat) (bits : Nat)
  /-- R325: An owner-authenticated W1C write to TAMP.STICKY clears flags and stamps whose condition is absent. -/
  | stickyClear (m : Nat) (v : Word) (present : Nat)
  /-- R329: A read of SEC.NONCE0 draws a fresh 128-bit nonce. -/
  | nonceDraw (m : Nat)
  /-- R329: A keyed SEC.CMD with OP AUTH checks the MAC and opens an owner-authenticated session or counts a failure. -/
  | secAuth (m : Nat) (v : Word)
  /-- R329: A keyed SEC.CMD with OP CLOSE closes the session held by the issuing master. -/
  | secClose (m : Nat) (v : Word)
  /-- R332: A keyed SEC.CMD with OP INSTALL installs the owner key, with a session or a ticket. -/
  | secInstall (m : Nat) (v : Word)
  /-- R333: A keyed SEC.CMD with OP SEAL writes a sealed seal record and applies the metrology seal. -/
  | secSeal (m : Nat) (v : Word)
  /-- R333: A keyed SEC.CMD with OP UNSEAL writes an unsealed seal record and flags every billing point UNSEALED. -/
  | secUnseal (m : Nat) (v : Word)
  /-- R328: A keyed SEC.CMD with OP LOAD_TOKEN loads and wraps the token key. -/
  | secLoadToken (m : Nat) (v : Word)
  /-- R328: A keyed SEC.CMD with OP LOAD_LINK loads and wraps the network key. -/
  | secLoadLink (m : Nat) (v : Word)
  /-- R336: A keyed SEC.CMD with OP FUSE programs the bits named in SEC.FUSE. -/
  | secFuse (m : Nat) (v : Word) (failAt : Nat)
  /-- R337: A keyed SEC.CMD with OP ERASE_TEST allows one live injected qualification to erase. -/
  | secEraseTest (m : Nat) (v : Word)
  /-- R329: SEC.TTL seconds pass since the last privileged operation and the session closes. -/
  | sessionExpiry
  /-- R358: The RTC enters a new second: alarms are matched and fire, TICKSEL events raised, the calendar wraps if due. -/
  | rtcSecondTick
  /-- R360: The ALARM_N pulse width expires and the pin is released unless a level request holds it. -/
  | alarmPulseEnd (k : Nat)
  /-- R346: A read of RTC.TIME_LO freezes a copy of the time for the reading master. -/
  | timeFreezeRead (m : Nat) (sub : Nat)
  /-- R346: A read of RTC.TIME_HI releases the reading master's frozen copy. -/
  | timeReleaseRead (m : Nat)
  /-- R346: A frozen RTC copy is released 1 ms after it was frozen. -/
  | freezeCopyExpiry (m : Nat)
  /-- R347: A keyed RTC.CMD with OP SET lands in the BKP island and loads the new time or rejects the set whole. -/
  | rtcSet (m : Nat) (v : Word) (sub : Nat)
  /-- R352: A keyed RTC.CMD with OP SHIFT starts a sub-second shift of the clock. -/
  | rtcShift (m : Nat) (v : Word) (sub : Nat)
  /-- R352: SHIFT_LEFT reaches 0 and RTC event 6 is raised. -/
  | shiftComplete
  /-- R356: A keyed RTC.CMD with OP RATE starts a rate measurement against mains or network time. -/
  | rateStart (m : Nat) (v : Word)
  /-- R356: A keyed RTC.CMD with OP RATE_STOP ends the measurement early with VOID. -/
  | rateStop (m : Nat) (v : Word)
  /-- R356: The reference completes HOURS hours and ERR is written, and added to TRIM when AUTO is set. -/
  | rateMeasurementEnd (sub : Nat)
  /-- R354: A keyed write of RTC.TRIM sets the trim from the next tick, discarding a running shift on B1. -/
  | trimWrite (m : Nat) (v : Word)
  /-- R355: Every 10 s with TC_EN set the effective trim is recomputed from the U-block temperature. -/
  | trimTempUpdate
  /-- R351: A W1C of RTC.STAT.OSF is accepted only after a set and is processed as a clock change. -/
  | osfClear (m : Nat) (v : Word)
  /-- R350: The backup crystal gives no edge for 4 ms: OSF is set and the BKP island moves to its RC oscillator. -/
  | crystalStop
  /-- R350: The backup crystal has run steadily for 1 s and the BKP island returns to it. -/
  | crystalResume
  /-- R364: A selected EVIN edge holds for the filter time and is stamped and counted. -/
  | evinEdge (n : Nat) (rising : Bool) (sub : Nat)
  /-- R365: Every 1 s on main power VBAT is measured and LOW set or cleared. -/
  | vbatMeasure (mv : Nat)
  /-- R383: After DIFS and a random backoff with no preamble detected, a queued frame is transmitted. -/
  | frameTransmit (slots : Nat)
  /-- R384: No ACK arrives within 369.444 µs of a frame's end and the attempt fails, with retransmission or a lasting failure. -/
  | ackTimeout
  /-- R383: An ACK frame is received and the frame it acknowledges counts as delivered, or a NAK with REFRESH starts a tone-map negotiation. -/
  | ackFrame (rx : RxInfo) (fc : List Byte)
  /-- R382: A DATA frame is received, checked, acknowledged and decrypted, and its mesh body is delivered or forwarded. -/
  | dataFrame (rx : RxInfo) (fc : List Byte) (payload : List Byte)
  /-- R387: A SOUND frame is received and the receiver builds a tone map from the measured SNR and sends it. -/
  | soundFrame (rx : RxInfo) (fc : List Byte) (snrs : List (List Int))
  /-- R387: A TONEMAP frame is received and installed as the transmit map for its sender, or refused. -/
  | tonemapFrame (rx : RxInfo) (fc : List Byte) (payload : List Byte)
  /-- R401: A BEACON frame is received and verified and updates parent candidates and network time. -/
  | beaconFrame (rx : RxInfo) (fc : List Byte) (payload : List Byte)
  /-- R387: 100 ms after a new receive map is installed the previous receive map is released. -/
  | rxMapHoldExpiry (idx : Nat)
  /-- R388: A link's map lifetime expires and a refresh starts with a SOUND frame. -/
  | tonemapRefreshPeriod (idx : Nat)
  /-- R401: Every BCN × 100 ms a joined node sends a beacon. -/
  | beaconTimer
  /-- R407: Every ADV seconds a node broadcasts a full route advertisement. -/
  | advertisementTimer
  /-- R407: Route changes are advertised within 1 s, at most once per second. -/
  | triggeredAdvertisement
  /-- R407: A route advertisement is received and its entries installed or refused. -/
  | advMsg (nbr : Nat) (body : List Byte)
  /-- R404: A join request reaches the root, which checks JMAC and allocates an address, or a parent relays it. -/
  | joinReq (nbr : Nat) (body : List Byte)
  /-- R402: A join response is received; the joiner verifies RMAC, takes its address and starts beaconing. -/
  | joinResp (nbr : Nat) (body : List Byte)
  /-- R415: A LEAVE message reaches the root, which frees the address and keeps the DEVID mapping. -/
  | leaveMsg (osrc : Nat)
  /-- R409: A TIME body is delivered to the Starter. -/
  | timeMsg (osrc : Nat) (body : List Byte)
  /-- R402: Three beacon periods of listening end and the node chooses a parent and sends a join request. -/
  | joinListenEnd
  /-- R402: The 10 s join timer expires and the node returns to LISTEN after a random delay. -/
  | joinTimeout
  /-- R408: A route not refreshed, or an unreachable route held, for 3 × ADV seconds is removed. -/
  | routeExpiry (dest : Nat)
  /-- R414: No frame from the parent for 10 s puts network time into HOLDOVER. -/
  | ntHoldover
  /-- R414: No frame from the parent for NTLOSS seconds puts network time into UNSYNC. -/
  | ntLoss
  /-- R414: A write of MESH.NT_SET at the root loads network time. -/
  | ntSet (m : Nat) (v : Word)
  /-- R417: A keyed MESH.CMD with OP JOIN starts joining now. -/
  | meshJoin (m : Nat) (v : Word)
  /-- R415: A keyed MESH.CMD with OP LEAVE sends LEAVE to the root and stops beacons and advertisements. -/
  | meshLeave (m : Nat) (v : Word)
  /-- R417: A keyed MESH.CMD with OP ADVERTISE sends an advertisement now. -/
  | meshAdvertise (m : Nat) (v : Word)
  /-- R415: A write to MESH.CFG enables the mesh or, clearing EN, leaves the network. -/
  | meshConfigWrite (m : Nat) (v : Word)
  /-- R417: A write to MESH.RQ latches the route result for DEST. -/
  | routeQuery (m : Nat) (v : Word)
  /-- R456: An update OFFER is received and the node starts taking the bundle or declines. -/
  | offerMsg (src : Nat) (body : List Byte)
  /-- R457: An update NEED is received and the requested blocks are served from staging or the slot. -/
  | needMsg (src : Nat) (body : List Byte)
  /-- R456: An update BLOCK is received, verified, staged and written to the inactive slot. -/
  | blockMsg (src : Nat) (body : List Byte)
  /-- R457: An update HAVE is received and staged blocks confirmed by the child may be released. -/
  | haveMsg (src : Nat) (body : List Byte)
  /-- R455: Every 60 s a node holding a verified block 0 broadcasts an OFFER. -/
  | updateOfferTimer
  /-- R457: 2 s without an answer to a NEED, the request is sent again. -/
  | needRetryTimer
  /-- R459: A keyed UPD.CMD with OP ACTIVATE checks the conditions and, if accepted, writes the boot record as TRIAL and resets into the new slot. -/
  | updActivate (m : Nat) (v : Word) (bad : Nat)
  /-- R465: A keyed UPD.CMD with OP DISCARD discards the reception in progress. -/
  | updDiscard (m : Nat) (v : Word)
  /-- R462: A keyed write of UPD.CONFIRM during a trial with SELFOK confirms the bundle and blows floor fuses. -/
  | updConfirm (m : Nat) (v : Word)
  /-- R463: WLEFT reaches 0 and a fallback reset follows, deferred past nearby billing boundaries. -/
  | trialWindowExpiry
  /-- R445: A keyed write of UPD.BATON_CTL by the Starter holds or releases the Batons. -/
  | batonRelease (m : Nat) (v : Word)
  /-- R470: A self-test slice finishes, is judged against its criteria, re-run once if failed, and its entry is written. -/
  | sliceEnd (ok : Bool) (detail : Word) (dur : Nat) (peak : Nat)
  /-- R469: A slice exceeds its time budget and ends with result FAIL, TIMEOUT. -/
  | sliceTimeout
  /-- R472: 120 s pass waiting for the die to cool and the remaining slices are recorded SKIPPED_HOT. -/
  | coolingTimeout
  /-- R481: A keyed FLASH.PCMD with OP 1 erases a 4 KB sector of the table area. -/
  | flashErase (m : Nat) (v : Word)
  /-- R481: A keyed FLASH.PCMD with OP 2 programs a 256-byte page and reads it back. -/
  | flashProgram (m : Nat) (v : Word)
  /-- R481: A flash erase or program completes and DONE or FAIL is set. -/
  | flashOpDone (ok1 : Bool) (ok2 : Bool)
  /-- R483: A write to SPLIT.SELn selects an event code and filter and clears the counter and snapshot. -/
  | splitSelect (m : Nat) (n : Nat) (v : Word)
  /-- R484: A write to SPLIT.LATCH snapshots the named counters and MT at one edge, clearing them with CLR. -/
  | splitLatch (m : Nat) (v : Word)
  /-- R423: A host SPI WRITE transaction writes one word, after CRC if used. -/
  | spiWrite (crc : Bool) (addr : Nat) (data : Word) (crcOk : Bool)
  /-- R421: A host SPI READ transaction reads one word and returns it after WAIT and TOKEN. -/
  | spiRead (crc : Bool) (addr : Nat) (crcOk : Bool)
  /-- R422: A host SPI BURST WRITE writes up to 256 consecutive words. -/
  | spiBurstWrite (crc : Bool) (addr : Nat) (data : List Word) (crcOk : Bool)
  /-- R422: A host SPI BURST READ gathers up to 256 consecutive words and returns them. -/
  | spiBurstRead (crc : Bool) (addr : Nat) (len : Nat) (crcOk : Bool)
  /-- R420: A host SPI STATUS transaction returns INTC.PEND_HI and PEND_LO at once. -/
  | spiStatus (crc : Bool)
  /-- R426: HSS_N rises before a transaction completes; the rest is discarded and ABORT set. -/
  | spiAbort (addr : Nat) (cut : SpiCut) (crc : Bool)
  /-- R432: A write to INTC.DBELL_SET sets doorbell bits and makes source 63 pending. -/
  | doorbellSet (m : Nat) (v : Word)
  /-- R434: A write to a UART DATA register pushes a byte into the transmit FIFO. -/
  | uartDataWrite (m : Nat) (u : Nat) (v : Word)
  /-- R434: A read of a UART DATA register pops a byte from the receive FIFO. -/
  | uartDataRead (m : Nat) (u : Nat)
  /-- R434: A byte arrives on a UART receiver and is stored or lost with framing, parity, break or overrun status. -/
  | uartRxByte (u : Nat) (byte : Byte) (frErr : Bool) (parErr : Bool) (brk : Bool)
  /-- R435: A chain frame arrives on UART1 in chain mode and is buffered for Baton 1, forwarded, or dropped on CRC failure. -/
  | chainFrameReceive (frame : List Byte)
  /-- R439: A write of ETH.TXKICK.GO makes the MAC scan the transmit ring. -/
  | ethTxKick (m : Nat) (v : Word)
  /-- R438: The MAC finishes sending a frame and returns its descriptor. -/
  | ethTxDone (sent : TxEnd)
  /-- R437: An Ethernet frame arrives, is filtered and checked, and is stored in a receive descriptor or dropped. -/
  | ethFrameReceive (frame : List Byte) (fcsOk : Bool)
  /-- R439: A write of ETH.MDIO.GO starts an MDIO read or write. -/
  | mdioAccess (m : Nat) (v : Word)
  /-- R439: An MDIO access completes and ETH event 4 is raised. -/
  | mdioDone (data : Nat)
  /-- R440: A debug-port read request reads a Debug Module Interface register. -/
  | debugRead (addr : Nat) (crcOk : Bool)
  /-- R441: A debug-port write request writes a Debug Module Interface register, with halts of Pacers and the billing engine denied unless permitted. -/
  | debugWrite (addr : Nat) (v : Word) (crcOk : Bool)
  /-- R440: A debug-port status request returns the port's state word. -/
  | debugStatus (crcOk : Bool)
  /-- R440: DBGEN falls; halted harts are resumed and the port disconnects. -/
  | debugDisconnect
  /-- R440: DBGIO held low for 64 or more cycles then high resets the port's framing. -/
  | debugFramingReset
  /-- R442: A selected edge on a GPIO input raises that pin's GPIO event. -/
  | gpioEdge (pin : Nat) (level : Bool)
  /-- R43: After a main clock failure the main crystal becomes valid again, and the start sequence that waited for XTAL_OK proceeds while MT resumes counting. -/
  | xtalOk
  /-- R395: A neighbour entry silent for longer than NBCFG.AGE is dropped, PLCMAC event 7 is raised and routes through it become unreachable. -/
  | neighbourAgedOut (idx : Nat)
  /-- R440: DBGEN rises, the debug port becomes active and DBG event 0 is raised. -/
  | debuggerConnected
  /-- R341: A SEC operation that ran for up to 50 ms, or 2 ms per fuse bit, ends: RESULT is written, BUSY clears and SEC event 9 is raised. -/
  | secOperationEnded
  /-- R434: A UART transmitter finishes shifting out a byte, freeing FIFO space, raising the transmit-threshold event or setting TXIDLE. -/
  | uartByteTransmitted (u : Nat)
  deriving DecidableEq, Repr

end Sys2Proof
end

