-- ==== Sys2Proof/Machine/RegMap.lean ====
section
/-! DEFINITION. The register map: the address of every register of every page and the bit span of every named field, by the register tables of the spec (R73, R81 and the table of each page). A page kind with several instances takes the instance number, and so does an array of registers. -/

namespace Sys2Proof.Machine

/-! ### SYS -/
def Reg.SYS_FENCE : Nat := 0x40000044
def Fld.SYS_FENCE_DISCARD : Field := ⟨Reg.SYS_FENCE, 0, 0⟩
def Reg.SYS_BUSERR_ADDR : Nat := 0x40000048
def Fld.SYS_BUSERR_ADDR_ADDR : Field := ⟨Reg.SYS_BUSERR_ADDR, 31, 0⟩
def Reg.SYS_BUSERR_INFO : Nat := 0x4000004C
def Fld.SYS_BUSERR_INFO_VALID : Field := ⟨Reg.SYS_BUSERR_INFO, 31, 31⟩
def Fld.SYS_BUSERR_INFO_OVF : Field := ⟨Reg.SYS_BUSERR_INFO, 30, 30⟩
def Fld.SYS_BUSERR_INFO_KIND : Field := ⟨Reg.SYS_BUSERR_INFO, 17, 16⟩
def Fld.SYS_BUSERR_INFO_MASTER : Field := ⟨Reg.SYS_BUSERR_INFO, 12, 8⟩
def Fld.SYS_BUSERR_INFO_WRITE : Field := ⟨Reg.SYS_BUSERR_INFO, 0, 0⟩
def Reg.SYS_GUN : Nat := 0x40000078
def Fld.SYS_GUN_REPEAT : Field := ⟨Reg.SYS_GUN, 9, 9⟩
def Fld.SYS_GUN_IN_EN : Field := ⟨Reg.SYS_GUN, 8, 8⟩
def Fld.SYS_GUN_FIRE : Field := ⟨Reg.SYS_GUN, 0, 0⟩
def Reg.SYS_GUN_MT_LO : Nat := 0x40000050
def Fld.SYS_GUN_MT_LO_MT : Field := ⟨Reg.SYS_GUN_MT_LO, 31, 0⟩
def Reg.SYS_GUN_MT_HI : Nat := 0x40000054
def Fld.SYS_GUN_MT_HI_MT : Field := ⟨Reg.SYS_GUN_MT_HI, 31, 0⟩
def Reg.SYS_GUN_CNT : Nat := 0x40000058
def Fld.SYS_GUN_CNT_COUNT : Field := ⟨Reg.SYS_GUN_CNT, 15, 0⟩
def Reg.SYS_CHIP_ID : Nat := 0x40000040
def Fld.SYS_CHIP_ID_PART : Field := ⟨Reg.SYS_CHIP_ID, 31, 16⟩
def Fld.SYS_CHIP_ID_VARIANT : Field := ⟨Reg.SYS_CHIP_ID, 15, 8⟩
def Fld.SYS_CHIP_ID_MAJOR : Field := ⟨Reg.SYS_CHIP_ID, 7, 4⟩
def Fld.SYS_CHIP_ID_MINOR : Field := ⟨Reg.SYS_CHIP_ID, 3, 0⟩
def Reg.SYS_RST_CAUSE : Nat := 0x40000060
def Fld.SYS_RST_CAUSE_COMMIT_MISSED : Field := ⟨Reg.SYS_RST_CAUSE, 17, 17⟩
def Fld.SYS_RST_CAUSE_COMMIT_OK : Field := ⟨Reg.SYS_RST_CAUSE, 16, 16⟩
def Fld.SYS_RST_CAUSE_BKPLOSS : Field := ⟨Reg.SYS_RST_CAUSE, 8, 8⟩
def Fld.SYS_RST_CAUSE_OVERTEMP : Field := ⟨Reg.SYS_RST_CAUSE, 7, 7⟩
def Fld.SYS_RST_CAUSE_PFTIMEOUT : Field := ⟨Reg.SYS_RST_CAUSE, 6, 6⟩
def Fld.SYS_RST_CAUSE_CLKFAIL : Field := ⟨Reg.SYS_RST_CAUSE, 5, 5⟩
def Fld.SYS_RST_CAUSE_FALLBACK : Field := ⟨Reg.SYS_RST_CAUSE, 4, 4⟩
def Fld.SYS_RST_CAUSE_SW : Field := ⟨Reg.SYS_RST_CAUSE, 3, 3⟩
def Fld.SYS_RST_CAUSE_WDT : Field := ⟨Reg.SYS_RST_CAUSE, 2, 2⟩
def Fld.SYS_RST_CAUSE_PIN : Field := ⟨Reg.SYS_RST_CAUSE, 1, 1⟩
def Fld.SYS_RST_CAUSE_MAINPOR : Field := ⟨Reg.SYS_RST_CAUSE, 0, 0⟩
def Reg.SYS_RESET : Nat := 0x40000064
def Fld.SYS_RESET_GO : Field := ⟨Reg.SYS_RESET, 0, 0⟩
def Reg.SYS_SHUTDOWN : Nat := 0x40000068
def Fld.SYS_SHUTDOWN_EXIT : Field := ⟨Reg.SYS_SHUTDOWN, 2, 2⟩
def Fld.SYS_SHUTDOWN_TEST : Field := ⟨Reg.SYS_SHUTDOWN, 1, 1⟩
def Fld.SYS_SHUTDOWN_GO : Field := ⟨Reg.SYS_SHUTDOWN, 0, 0⟩
def Reg.SYS_WDT : Nat := 0x40000070
def Fld.SYS_WDT_EN : Field := ⟨Reg.SYS_WDT, 16, 16⟩
def Fld.SYS_WDT_TIMEOUT : Field := ⟨Reg.SYS_WDT, 15, 0⟩
def Reg.SYS_WDT_KICK : Nat := 0x40000074
def Fld.SYS_WDT_KICK_GO : Field := ⟨Reg.SYS_WDT_KICK, 0, 0⟩
/-! ### CLK -/
def Reg.CLK_STAT : Nat := 0x40001040
def Fld.CLK_STAT_FAIL : Field := ⟨Reg.CLK_STAT, 8, 8⟩
def Fld.CLK_STAT_X32_OK : Field := ⟨Reg.CLK_STAT, 3, 3⟩
def Fld.CLK_STAT_BUCK_SYNC : Field := ⟨Reg.CLK_STAT, 2, 2⟩
def Fld.CLK_STAT_PLL_LOCK : Field := ⟨Reg.CLK_STAT, 1, 1⟩
def Fld.CLK_STAT_XTAL_OK : Field := ⟨Reg.CLK_STAT, 0, 0⟩
def Reg.CLK_ISL_RUN : Nat := 0x40001044
def Fld.CLK_ISL_RUN_ISL : Field := ⟨Reg.CLK_ISL_RUN, 31, 0⟩
def Reg.CLK_ISL_ISO : Nat := 0x40001048
def Fld.CLK_ISL_ISO_ISL : Field := ⟨Reg.CLK_ISL_ISO, 31, 0⟩
/-! ### PWR -/
def Reg.PWR_STATE : Nat := 0x40002048
def Fld.PWR_STATE_STATE : Field := ⟨Reg.PWR_STATE, 2, 0⟩
def Reg.PWR_PF_STAT : Nat := 0x40002054
def Fld.PWR_PF_STAT_COUNT : Field := ⟨Reg.PWR_PF_STAT, 31, 16⟩
def Fld.PWR_PF_STAT_LATE : Field := ⟨Reg.PWR_PF_STAT, 4, 4⟩
def Fld.PWR_PF_STAT_RT : Field := ⟨Reg.PWR_PF_STAT, 3, 3⟩
def Fld.PWR_PF_STAT_COMMIT_DONE : Field := ⟨Reg.PWR_PF_STAT, 2, 2⟩
def Fld.PWR_PF_STAT_WARN : Field := ⟨Reg.PWR_PF_STAT, 0, 0⟩
def Reg.PWR_PF_MT_LO : Nat := 0x40002058
def Fld.PWR_PF_MT_LO_MT : Field := ⟨Reg.PWR_PF_MT_LO, 31, 0⟩
def Reg.PWR_PF_MT_HI : Nat := 0x4000205C
def Fld.PWR_PF_MT_HI_MT : Field := ⟨Reg.PWR_PF_MT_HI, 31, 0⟩
def Reg.PWR_PF_TIMES : Nat := 0x40002060
def Fld.PWR_PF_TIMES_HOLD_MS : Field := ⟨Reg.PWR_PF_TIMES, 31, 16⟩
def Fld.PWR_PF_TIMES_COMMIT_US : Field := ⟨Reg.PWR_PF_TIMES, 15, 0⟩
def Reg.PWR_PF_CFG : Nat := 0x40002040
def Fld.PWR_PF_CFG_ARMED : Field := ⟨Reg.PWR_PF_CFG, 16, 16⟩
def Fld.PWR_PF_CFG_FILT : Field := ⟨Reg.PWR_PF_CFG, 9, 8⟩
def Fld.PWR_PF_CFG_THR : Field := ⟨Reg.PWR_PF_CFG, 7, 0⟩
def Reg.PWR_VSUP_MEAS : Nat := 0x40002044
def Fld.PWR_VSUP_MEAS_MV : Field := ⟨Reg.PWR_VSUP_MEAS, 15, 0⟩
def Reg.PWR_CTRL : Nat := 0x4000204C
def Fld.PWR_CTRL_QUIET : Field := ⟨Reg.PWR_CTRL, 0, 0⟩
def Reg.PWR_WAKE : Nat := 0x40002050
def Fld.PWR_WAKE_DOORBELL : Field := ⟨Reg.PWR_WAKE, 7, 7⟩
def Fld.PWR_WAKE_TAMPER : Field := ⟨Reg.PWR_WAKE, 6, 6⟩
def Fld.PWR_WAKE_PQE : Field := ⟨Reg.PWR_WAKE, 5, 5⟩
def Fld.PWR_WAKE_GPIO : Field := ⟨Reg.PWR_WAKE, 4, 4⟩
def Fld.PWR_WAKE_HOST : Field := ⟨Reg.PWR_WAKE, 3, 3⟩
def Fld.PWR_WAKE_BTN1 : Field := ⟨Reg.PWR_WAKE, 2, 2⟩
def Fld.PWR_WAKE_BTN0 : Field := ⟨Reg.PWR_WAKE, 1, 1⟩
def Fld.PWR_WAKE_ALM : Field := ⟨Reg.PWR_WAKE, 0, 0⟩
/-! ### INTC -/
def Reg.INTC_TOP : Nat := 0x40003040
def Fld.INTC_TOP_VALID : Field := ⟨Reg.INTC_TOP, 31, 31⟩
def Fld.INTC_TOP_PRIO : Field := ⟨Reg.INTC_TOP, 11, 8⟩
def Fld.INTC_TOP_SRC : Field := ⟨Reg.INTC_TOP, 5, 0⟩
def Reg.INTC_THR : Nat := 0x40003044
def Fld.INTC_THR_IRQN : Field := ⟨Reg.INTC_THR, 11, 8⟩
def Fld.INTC_THR_STARTER : Field := ⟨Reg.INTC_THR, 3, 0⟩
def Reg.INTC_PEND_LO : Nat := 0x40003048
def Fld.INTC_PEND_LO_PEND : Field := ⟨Reg.INTC_PEND_LO, 31, 0⟩
def Reg.INTC_PEND_HI : Nat := 0x4000304C
def Fld.INTC_PEND_HI_PEND : Field := ⟨Reg.INTC_PEND_HI, 31, 0⟩
def Reg.INTC_DBELL_SET : Nat := 0x40003050
def Fld.INTC_DBELL_SET_SET : Field := ⟨Reg.INTC_DBELL_SET, 15, 0⟩
def Reg.INTC_DBELL : Nat := 0x40003054
def Fld.INTC_DBELL_BITS : Field := ⟨Reg.INTC_DBELL, 15, 0⟩
def Reg.INTC_IRQN : Nat := 0x40003058
def Fld.INTC_IRQN_LOW : Field := ⟨Reg.INTC_IRQN, 0, 0⟩
def Reg.INTC_SRC_CFG (i : Nat) : Nat := 0x40003100 + i * 0x4
def Fld.INTC_SRC_CFG_IRQN (i : Nat) : Field := ⟨(Reg.INTC_SRC_CFG i), 9, 9⟩
def Fld.INTC_SRC_CFG_STARTER (i : Nat) : Field := ⟨(Reg.INTC_SRC_CFG i), 8, 8⟩
def Fld.INTC_SRC_CFG_PRIO (i : Nat) : Field := ⟨(Reg.INTC_SRC_CFG i), 3, 0⟩
/-! ### SPLIT -/
def Reg.SPLIT_LATCH : Nat := 0x40004040
def Fld.SPLIT_LATCH_MASK : Field := ⟨Reg.SPLIT_LATCH, 31, 0⟩
def Reg.SPLIT_LCTRL : Nat := 0x40004044
def Fld.SPLIT_LCTRL_CLR : Field := ⟨Reg.SPLIT_LCTRL, 0, 0⟩
def Reg.SPLIT_LMT_LO : Nat := 0x40004048
def Fld.SPLIT_LMT_LO_MT : Field := ⟨Reg.SPLIT_LMT_LO, 31, 0⟩
def Reg.SPLIT_LMT_HI : Nat := 0x4000404C
def Fld.SPLIT_LMT_HI_MT : Field := ⟨Reg.SPLIT_LMT_HI, 31, 0⟩
def Reg.SPLIT_OVF : Nat := 0x40004050
def Fld.SPLIT_OVF_CNT : Field := ⟨Reg.SPLIT_OVF, 31, 0⟩
def Reg.SPLIT_NLATCH : Nat := 0x40004054
def Fld.SPLIT_NLATCH_N : Field := ⟨Reg.SPLIT_NLATCH, 31, 0⟩
def Reg.SPLIT_SEL (i : Nat) : Nat := 0x40004100 + i * 0x20
def Fld.SPLIT_SEL_EN (i : Nat) : Field := ⟨(Reg.SPLIT_SEL i), 31, 31⟩
def Fld.SPLIT_SEL_FILT (i : Nat) : Field := ⟨(Reg.SPLIT_SEL i), 13, 12⟩
def Fld.SPLIT_SEL_CODE (i : Nat) : Field := ⟨(Reg.SPLIT_SEL i), 11, 0⟩
def Reg.SPLIT_CNT_LO (i : Nat) : Nat := 0x40004104 + i * 0x20
def Fld.SPLIT_CNT_LO_N (i : Nat) : Field := ⟨(Reg.SPLIT_CNT_LO i), 31, 0⟩
def Reg.SPLIT_CNT_HI (i : Nat) : Nat := 0x40004108 + i * 0x20
def Fld.SPLIT_CNT_HI_N (i : Nat) : Field := ⟨(Reg.SPLIT_CNT_HI i), 15, 0⟩
def Reg.SPLIT_SNAP_LO (i : Nat) : Nat := 0x4000410C + i * 0x20
def Fld.SPLIT_SNAP_LO_N (i : Nat) : Field := ⟨(Reg.SPLIT_SNAP_LO i), 31, 0⟩
def Reg.SPLIT_SNAP_HI (i : Nat) : Nat := 0x40004110 + i * 0x20
def Fld.SPLIT_SNAP_HI_N (i : Nat) : Field := ⟨(Reg.SPLIT_SNAP_HI i), 15, 0⟩
/-! ### BIST -/
def Reg.BIST_CTRL : Nat := 0x40005040
def Fld.BIST_CTRL_FORCE : Field := ⟨Reg.BIST_CTRL, 8, 8⟩
def Fld.BIST_CTRL_MAXAGE : Field := ⟨Reg.BIST_CTRL, 7, 0⟩
def Reg.BIST_STAT : Nat := 0x40005044
def Fld.BIST_STAT_SLICE : Field := ⟨Reg.BIST_STAT, 31, 24⟩
def Fld.BIST_STAT_RUNNING : Field := ⟨Reg.BIST_STAT, 3, 3⟩
def Fld.BIST_STAT_HOT : Field := ⟨Reg.BIST_STAT, 2, 2⟩
def Fld.BIST_STAT_FULLPATH : Field := ⟨Reg.BIST_STAT, 1, 1⟩
def Fld.BIST_STAT_VALID : Field := ⟨Reg.BIST_STAT, 0, 0⟩
def Reg.BIST_SUM : Nat := 0x40005048
def Fld.BIST_SUM_NFAIL : Field := ⟨Reg.BIST_SUM, 31, 24⟩
def Fld.BIST_SUM_NTRANS : Field := ⟨Reg.BIST_SUM, 23, 16⟩
def Fld.BIST_SUM_TOTAL_MS : Field := ⟨Reg.BIST_SUM, 15, 0⟩
def Reg.BIST_REC : Nat := 0x4000504C
def Fld.BIST_REC_ADDR : Field := ⟨Reg.BIST_REC, 31, 0⟩
def Reg.BIST_AGE : Nat := 0x40005050
def Fld.BIST_AGE_H : Field := ⟨Reg.BIST_AGE, 15, 0⟩
def Reg.BIST_FLAGS : Nat := 0x40005054
def Fld.BIST_FLAGS_F : Field := ⟨Reg.BIST_FLAGS, 7, 0⟩
/-! ### UPD -/
def Reg.UPD_STAT : Nat := 0x40006040
def Fld.UPD_STAT_LASTFB : Field := ⟨Reg.UPD_STAT, 27, 24⟩
def Fld.UPD_STAT_REASON : Field := ⟨Reg.UPD_STAT, 23, 20⟩
def Fld.UPD_STAT_FLOORPEND : Field := ⟨Reg.UPD_STAT, 15, 15⟩
def Fld.UPD_STAT_NOMETRO : Field := ⟨Reg.UPD_STAT, 14, 14⟩
def Fld.UPD_STAT_SELFOK : Field := ⟨Reg.UPD_STAT, 13, 13⟩
def Fld.UPD_STAT_TRIAL : Field := ⟨Reg.UPD_STAT, 12, 12⟩
def Fld.UPD_STAT_RXACT : Field := ⟨Reg.UPD_STAT, 11, 11⟩
def Fld.UPD_STAT_READY : Field := ⟨Reg.UPD_STAT, 10, 10⟩
def Fld.UPD_STAT_SLOTBAD : Field := ⟨Reg.UPD_STAT, 9, 9⟩
def Fld.UPD_STAT_ACTIVE : Field := ⟨Reg.UPD_STAT, 8, 8⟩
def Reg.UPD_GEN : Nat := 0x40006044
def Fld.UPD_GEN_HELD : Field := ⟨Reg.UPD_GEN, 31, 16⟩
def Fld.UPD_GEN_RUN : Field := ⟨Reg.UPD_GEN, 15, 0⟩
def Reg.UPD_FLOOR : Nat := 0x40006048
def Fld.UPD_FLOOR_TARGET : Field := ⟨Reg.UPD_FLOOR, 14, 8⟩
def Fld.UPD_FLOOR_N : Field := ⟨Reg.UPD_FLOOR, 6, 0⟩
def Reg.UPD_BID_LO : Nat := 0x4000604C
def Fld.UPD_BID_LO_BID : Field := ⟨Reg.UPD_BID_LO, 31, 0⟩
def Reg.UPD_BID_HI : Nat := 0x40006050
def Fld.UPD_BID_HI_BID : Field := ⟨Reg.UPD_BID_HI, 31, 0⟩
def Reg.UPD_RX : Nat := 0x40006054
def Fld.UPD_RX_HELD : Field := ⟨Reg.UPD_RX, 31, 16⟩
def Fld.UPD_RX_NTOT : Field := ⟨Reg.UPD_RX, 15, 0⟩
def Reg.UPD_WINDOW : Nat := 0x40006058
def Fld.UPD_WINDOW_MIN : Field := ⟨Reg.UPD_WINDOW, 12, 0⟩
def Reg.UPD_WLEFT : Nat := 0x4000605C
def Fld.UPD_WLEFT_S : Field := ⟨Reg.UPD_WLEFT, 31, 0⟩
def Reg.UPD_CMD : Nat := 0x40006060
def Fld.UPD_CMD_DOWNGRADE : Field := ⟨Reg.UPD_CMD, 8, 8⟩
def Fld.UPD_CMD_OP : Field := ⟨Reg.UPD_CMD, 1, 0⟩
def Reg.UPD_CONFIRM : Nat := 0x40006064
def Fld.UPD_CONFIRM_GO : Field := ⟨Reg.UPD_CONFIRM, 0, 0⟩
def Reg.UPD_LOCK : Nat := 0x40006068
def Fld.UPD_LOCK_OWNER : Field := ⟨Reg.UPD_LOCK, 0, 0⟩
def Reg.UPD_CNT : Nat := 0x4000606C
def Fld.UPD_CNT_LASTING : Field := ⟨Reg.UPD_CNT, 31, 16⟩
def Fld.UPD_CNT_TRANS : Field := ⟨Reg.UPD_CNT, 15, 0⟩
def Reg.UPD_ENG : Nat := 0x40006070
def Fld.UPD_ENG_RUN : Field := ⟨Reg.UPD_ENG, 15, 0⟩
def Reg.UPD_BATON_CTL : Nat := 0x40006074
def Fld.UPD_BATON_CTL_HOLD : Field := ⟨Reg.UPD_BATON_CTL, 1, 0⟩
def Reg.UPD_SRC : Nat := 0x40006078
def Fld.UPD_SRC_CHAIN : Field := ⟨Reg.UPD_SRC, 1, 1⟩
def Fld.UPD_SRC_MESH : Field := ⟨Reg.UPD_SRC, 0, 0⟩
/-! ### SEC -/
def Reg.SEC_DEVID_LO : Nat := 0x40007040
def Fld.SEC_DEVID_LO_ID : Field := ⟨Reg.SEC_DEVID_LO, 31, 0⟩
def Reg.SEC_DEVID_HI : Nat := 0x40007044
def Fld.SEC_DEVID_HI_ID : Field := ⟨Reg.SEC_DEVID_HI, 31, 0⟩
def Reg.SEC_STAT : Nat := 0x40007048
def Fld.SEC_STAT_FAILS : Field := ⟨Reg.SEC_STAT, 23, 16⟩
def Fld.SEC_STAT_MASTER : Field := ⟨Reg.SEC_STAT, 12, 8⟩
def Fld.SEC_STAT_LOCKOUT : Field := ⟨Reg.SEC_STAT, 6, 6⟩
def Fld.SEC_STAT_SEALREC_BAD : Field := ⟨Reg.SEC_STAT, 5, 5⟩
def Fld.SEC_STAT_TOKKEY : Field := ⟨Reg.SEC_STAT, 4, 4⟩
def Fld.SEC_STAT_NETKEY : Field := ⟨Reg.SEC_STAT, 3, 3⟩
def Fld.SEC_STAT_SESSION : Field := ⟨Reg.SEC_STAT, 2, 2⟩
def Fld.SEC_STAT_OROOT : Field := ⟨Reg.SEC_STAT, 1, 1⟩
def Fld.SEC_STAT_OKEY : Field := ⟨Reg.SEC_STAT, 0, 0⟩
def Reg.SEC_SEAL : Nat := 0x4000704C
def Fld.SEC_SEAL_PERM : Field := ⟨Reg.SEC_SEAL, 1, 1⟩
def Fld.SEC_SEAL_SEAL : Field := ⟨Reg.SEC_SEAL, 0, 0⟩
def Reg.SEC_NONCE (i : Nat) : Nat := 0x40007054 + i * 0x4
def Fld.SEC_NONCE_N (i : Nat) : Field := ⟨(Reg.SEC_NONCE i), 31, 0⟩
def Reg.SEC_TTL : Nat := 0x40007064
def Fld.SEC_TTL_S : Field := ⟨Reg.SEC_TTL, 11, 0⟩
def Reg.SEC_CMD : Nat := 0x40007068
def Fld.SEC_CMD_OP : Field := ⟨Reg.SEC_CMD, 3, 0⟩
def Reg.SEC_RESULT : Nat := 0x4000706C
def Fld.SEC_RESULT_BUSY : Field := ⟨Reg.SEC_RESULT, 17, 17⟩
def Fld.SEC_RESULT_DONE : Field := ⟨Reg.SEC_RESULT, 16, 16⟩
def Fld.SEC_RESULT_REASON : Field := ⟨Reg.SEC_RESULT, 11, 8⟩
def Fld.SEC_RESULT_OP : Field := ⟨Reg.SEC_RESULT, 3, 0⟩
def Reg.SEC_FUSE : Nat := 0x40007070
def Fld.SEC_FUSE_OROOT : Field := ⟨Reg.SEC_FUSE, 17, 17⟩
def Fld.SEC_FUSE_SEAL_PERM : Field := ⟨Reg.SEC_FUSE, 16, 16⟩
def Fld.SEC_FUSE_SRC : Field := ⟨Reg.SEC_FUSE, 10, 0⟩
def Reg.SEC_AUTH (i : Nat) : Nat := 0x40007080 + i * 0x4
def Fld.SEC_AUTH_MAC (i : Nat) : Field := ⟨(Reg.SEC_AUTH i), 31, 0⟩
def Reg.SEC_KEYIN (i : Nat) : Nat := 0x400070A0 + i * 0x4
def Fld.SEC_KEYIN_KEY (i : Nat) : Field := ⟨(Reg.SEC_KEYIN i), 31, 0⟩
def Reg.SEC_TICKET (i : Nat) : Nat := 0x400070C0 + i * 0x4
def Fld.SEC_TICKET_SIG (i : Nat) : Field := ⟨(Reg.SEC_TICKET i), 31, 0⟩
def Reg.SEC_PUB (i : Nat) : Nat := 0x40007100 + i * 0x4
def Fld.SEC_PUB_PUB (i : Nat) : Field := ⟨(Reg.SEC_PUB i), 31, 0⟩
/-! ### TAMP -/
def Reg.TAMP_EN : Nat := 0x40008040
def Fld.TAMP_EN_SRC : Field := ⟨Reg.TAMP_EN, 10, 0⟩
def Reg.TAMP_CFG : Nat := 0x40008044
def Fld.TAMP_CFG_ALARMN : Field := ⟨Reg.TAMP_CFG, 16, 16⟩
def Fld.TAMP_CFG_LACE_PER : Field := ⟨Reg.TAMP_CFG, 10, 8⟩
def Fld.TAMP_CFG_CASE_FILT : Field := ⟨Reg.TAMP_CFG, 5, 4⟩
def Fld.TAMP_CFG_CASE_POL : Field := ⟨Reg.TAMP_CFG, 3, 0⟩
def Reg.TAMP_ERASE : Nat := 0x40008048
def Fld.TAMP_ERASE_SRC : Field := ⟨Reg.TAMP_ERASE, 7, 0⟩
def Reg.TAMP_STICKY : Nat := 0x4000804C
def Fld.TAMP_STICKY_INJ : Field := ⟨Reg.TAMP_STICKY, 17, 17⟩
def Fld.TAMP_STICKY_ERASED : Field := ⟨Reg.TAMP_STICKY, 16, 16⟩
def Fld.TAMP_STICKY_SRC : Field := ⟨Reg.TAMP_STICKY, 10, 0⟩
def Reg.TAMP_LIVE : Nat := 0x40008050
def Fld.TAMP_LIVE_SRC : Field := ⟨Reg.TAMP_LIVE, 10, 0⟩
def Reg.TAMP_FUSED : Nat := 0x40008054
def Fld.TAMP_FUSED_SRC : Field := ⟨Reg.TAMP_FUSED, 10, 0⟩
def Reg.TAMP_LACE_STAT : Nat := 0x40008058
def Fld.TAMP_LACE_STAT_LOOPS : Field := ⟨Reg.TAMP_LACE_STAT, 31, 0⟩
def Reg.TAMP_LACE_TRANS : Nat := 0x4000805C
def Fld.TAMP_LACE_TRANS_LOOPS : Field := ⟨Reg.TAMP_LACE_TRANS, 31, 0⟩
def Reg.TAMP_MCYC : Nat := 0x40008060
def Fld.TAMP_MCYC_BYPCYC : Field := ⟨Reg.TAMP_MCYC, 31, 16⟩
def Fld.TAMP_MCYC_REVCYC : Field := ⟨Reg.TAMP_MCYC, 15, 0⟩
def Reg.TAMP_BYP : Nat := 0x40008064
def Fld.TAMP_BYP_PCT : Field := ⟨Reg.TAMP_BYP, 31, 16⟩
def Fld.TAMP_BYP_MIN : Field := ⟨Reg.TAMP_BYP, 15, 0⟩
def Reg.TAMP_NEUT : Nat := 0x40008068
def Fld.TAMP_NEUT_NPE : Field := ⟨Reg.TAMP_NEUT, 31, 16⟩
def Fld.TAMP_NEUT_V0 : Field := ⟨Reg.TAMP_NEUT, 15, 0⟩
def Reg.TAMP_NCYC : Nat := 0x4000806C
def Fld.TAMP_NCYC_N : Field := ⟨Reg.TAMP_NCYC, 15, 0⟩
def Reg.TAMP_REV_BP_LO : Nat := 0x40008070
def Fld.TAMP_REV_BP_LO_BP : Field := ⟨Reg.TAMP_REV_BP_LO, 31, 0⟩
def Reg.TAMP_REV_BP_HI : Nat := 0x40008074
def Fld.TAMP_REV_BP_HI_BP : Field := ⟨Reg.TAMP_REV_BP_HI, 31, 0⟩
def Reg.TAMP_BYP_BP_LO : Nat := 0x40008078
def Fld.TAMP_BYP_BP_LO_BP : Field := ⟨Reg.TAMP_BYP_BP_LO, 31, 0⟩
def Reg.TAMP_BYP_BP_HI : Nat := 0x4000807C
def Fld.TAMP_BYP_BP_HI_BP : Field := ⟨Reg.TAMP_BYP_BP_HI, 31, 0⟩
def Reg.TAMP_NEUT_VG : Nat := 0x40008080
def Fld.TAMP_NEUT_VG_VG : Field := ⟨Reg.TAMP_NEUT_VG, 3, 0⟩
def Reg.TAMP_STAMP (i : Nat) : Nat := 0x400080A0 + i * 0x4
def Fld.TAMP_STAMP_T (i : Nat) : Field := ⟨(Reg.TAMP_STAMP i), 31, 0⟩
def Reg.TAMP_STAMP_OSF : Nat := 0x400080CC
def Fld.TAMP_STAMP_OSF_SRC : Field := ⟨Reg.TAMP_STAMP_OSF, 10, 0⟩
def Reg.TAMP_LACE_NOISE : Nat := 0x400080D0
def Fld.TAMP_LACE_NOISE_LOOPS : Field := ⟨Reg.TAMP_LACE_NOISE, 31, 0⟩
/-! ### RTC -/
def Reg.RTC_TIME_LO : Nat := 0x40009040
def Fld.RTC_TIME_LO_MIN : Field := ⟨Reg.RTC_TIME_LO, 26, 21⟩
def Fld.RTC_TIME_LO_SEC : Field := ⟨Reg.RTC_TIME_LO, 20, 15⟩
def Fld.RTC_TIME_LO_SUB : Field := ⟨Reg.RTC_TIME_LO, 14, 0⟩
def Reg.RTC_TIME_HI : Nat := 0x40009044
def Fld.RTC_TIME_HI_YEAR : Field := ⟨Reg.RTC_TIME_HI, 31, 24⟩
def Fld.RTC_TIME_HI_MONTH : Field := ⟨Reg.RTC_TIME_HI, 23, 20⟩
def Fld.RTC_TIME_HI_DAY : Field := ⟨Reg.RTC_TIME_HI, 19, 15⟩
def Fld.RTC_TIME_HI_WDAY : Field := ⟨Reg.RTC_TIME_HI, 14, 12⟩
def Fld.RTC_TIME_HI_HOUR : Field := ⟨Reg.RTC_TIME_HI, 4, 0⟩
def Reg.RTC_LIN_LO : Nat := 0x40009048
def Fld.RTC_LIN_LO_LIN : Field := ⟨Reg.RTC_LIN_LO, 31, 0⟩
def Reg.RTC_LIN_HI : Nat := 0x4000904C
def Fld.RTC_LIN_HI_LIN : Field := ⟨Reg.RTC_LIN_HI, 31, 0⟩
def Reg.RTC_STAT : Nat := 0x40009050
def Fld.RTC_STAT_ALM1_BKP : Field := ⟨Reg.RTC_STAT, 10, 10⟩
def Fld.RTC_STAT_ALM0_BKP : Field := ⟨Reg.RTC_STAT, 9, 9⟩
def Fld.RTC_STAT_ALM1 : Field := ⟨Reg.RTC_STAT, 8, 8⟩
def Fld.RTC_STAT_ALM0 : Field := ⟨Reg.RTC_STAT, 7, 7⟩
def Fld.RTC_STAT_ON_RC : Field := ⟨Reg.RTC_STAT, 6, 6⟩
def Fld.RTC_STAT_SETSINCE : Field := ⟨Reg.RTC_STAT, 5, 5⟩
def Fld.RTC_STAT_SHIFT_BUSY : Field := ⟨Reg.RTC_STAT, 4, 4⟩
def Fld.RTC_STAT_DATEERR : Field := ⟨Reg.RTC_STAT, 3, 3⟩
def Fld.RTC_STAT_RANGE : Field := ⟨Reg.RTC_STAT, 2, 2⟩
def Fld.RTC_STAT_OSF : Field := ⟨Reg.RTC_STAT, 0, 0⟩
def Reg.RTC_CTRL : Nat := 0x40009054
def Fld.RTC_CTRL_TICKSEL : Field := ⟨Reg.RTC_CTRL, 9, 8⟩
def Fld.RTC_CTRL_TC_EN : Field := ⟨Reg.RTC_CTRL, 0, 0⟩
def Reg.RTC_CMD : Nat := 0x40009058
def Fld.RTC_CMD_OP : Field := ⟨Reg.RTC_CMD, 2, 0⟩
def Reg.RTC_SET_LO : Nat := 0x4000905C
def Fld.RTC_SET_LO_ALL : Field := ⟨Reg.RTC_SET_LO, 31, 0⟩
def Reg.RTC_SET_HI : Nat := 0x40009060
def Fld.RTC_SET_HI_ALL : Field := ⟨Reg.RTC_SET_HI, 31, 0⟩
def Reg.RTC_SHIFT : Nat := 0x40009064
def Fld.RTC_SHIFT_VAL : Field := ⟨Reg.RTC_SHIFT, 16, 0⟩
def Reg.RTC_SHIFT_LEFT : Nat := 0x40009068
def Fld.RTC_SHIFT_LEFT_N : Field := ⟨Reg.RTC_SHIFT_LEFT, 15, 0⟩
def Reg.RTC_TRIM : Nat := 0x4000906C
def Fld.RTC_TRIM_VAL : Field := ⟨Reg.RTC_TRIM, 15, 0⟩
def Reg.RTC_TCOMP : Nat := 0x40009070
def Fld.RTC_TCOMP_K : Field := ⟨Reg.RTC_TCOMP, 31, 16⟩
def Fld.RTC_TCOMP_T0 : Field := ⟨Reg.RTC_TCOMP, 15, 0⟩
def Reg.RTC_RATE_CFG : Nat := 0x40009074
def Fld.RTC_RATE_CFG_AUTO : Field := ⟨Reg.RTC_RATE_CFG, 16, 16⟩
def Fld.RTC_RATE_CFG_HOURS : Field := ⟨Reg.RTC_RATE_CFG, 13, 8⟩
def Fld.RTC_RATE_CFG_GRP : Field := ⟨Reg.RTC_RATE_CFG, 2, 1⟩
def Fld.RTC_RATE_CFG_SRC : Field := ⟨Reg.RTC_RATE_CFG, 0, 0⟩
def Reg.RTC_RATE_RES : Nat := 0x40009078
def Fld.RTC_RATE_RES_BUSY : Field := ⟨Reg.RTC_RATE_RES, 31, 31⟩
def Fld.RTC_RATE_RES_DONE : Field := ⟨Reg.RTC_RATE_RES, 30, 30⟩
def Fld.RTC_RATE_RES_VOID : Field := ⟨Reg.RTC_RATE_RES, 29, 29⟩
def Fld.RTC_RATE_RES_ERR : Field := ⟨Reg.RTC_RATE_RES, 15, 0⟩
def Reg.RTC_VBAT : Nat := 0x4000907C
def Fld.RTC_VBAT_SWITCHES : Field := ⟨Reg.RTC_VBAT, 31, 24⟩
def Fld.RTC_VBAT_ON_VBAT : Field := ⟨Reg.RTC_VBAT, 17, 17⟩
def Fld.RTC_VBAT_LOW : Field := ⟨Reg.RTC_VBAT, 16, 16⟩
def Fld.RTC_VBAT_MV : Field := ⟨Reg.RTC_VBAT, 15, 0⟩
def Reg.RTC_ALM_VAL_LO (i : Nat) : Nat := 0x40009080 + i * 0x20
def Fld.RTC_ALM_VAL_LO_ALL (i : Nat) : Field := ⟨(Reg.RTC_ALM_VAL_LO i), 31, 0⟩
def Reg.RTC_ALM_VAL_HI (i : Nat) : Nat := 0x40009084 + i * 0x20
def Fld.RTC_ALM_VAL_HI_ALL (i : Nat) : Field := ⟨(Reg.RTC_ALM_VAL_HI i), 31, 0⟩
def Reg.RTC_ALM_CFG (i : Nat) : Nat := 0x40009088 + i * 0x20
def Fld.RTC_ALM_CFG_EN (i : Nat) : Field := ⟨(Reg.RTC_ALM_CFG i), 31, 31⟩
def Fld.RTC_ALM_CFG_ONESHOT (i : Nat) : Field := ⟨(Reg.RTC_ALM_CFG i), 30, 30⟩
def Fld.RTC_ALM_CFG_CATCHUP (i : Nat) : Field := ⟨(Reg.RTC_ALM_CFG i), 29, 29⟩
def Fld.RTC_ALM_CFG_MASK (i : Nat) : Field := ⟨(Reg.RTC_ALM_CFG i), 22, 16⟩
def Fld.RTC_ALM_CFG_WAKE (i : Nat) : Field := ⟨(Reg.RTC_ALM_CFG i), 14, 14⟩
def Fld.RTC_ALM_CFG_SNAP (i : Nat) : Field := ⟨(Reg.RTC_ALM_CFG i), 13, 13⟩
def Fld.RTC_ALM_CFG_PW (i : Nat) : Field := ⟨(Reg.RTC_ALM_CFG i), 12, 11⟩
def Fld.RTC_ALM_CFG_LEVEL (i : Nat) : Field := ⟨(Reg.RTC_ALM_CFG i), 10, 10⟩
def Fld.RTC_ALM_CFG_PIN (i : Nat) : Field := ⟨(Reg.RTC_ALM_CFG i), 9, 9⟩
def Reg.RTC_ALM_STAMP_LO (i : Nat) : Nat := 0x4000908C + i * 0x20
def Fld.RTC_ALM_STAMP_LO_LIN (i : Nat) : Field := ⟨(Reg.RTC_ALM_STAMP_LO i), 31, 0⟩
def Reg.RTC_ALM_STAMP_HI (i : Nat) : Nat := 0x40009090 + i * 0x20
def Fld.RTC_ALM_STAMP_HI_LIN (i : Nat) : Field := ⟨(Reg.RTC_ALM_STAMP_HI i), 31, 0⟩
def Reg.RTC_ALM_SFLAGS (i : Nat) : Nat := 0x40009094 + i * 0x20
def Fld.RTC_ALM_SFLAGS_CATCHUP (i : Nat) : Field := ⟨(Reg.RTC_ALM_SFLAGS i), 2, 2⟩
def Fld.RTC_ALM_SFLAGS_BKP (i : Nat) : Field := ⟨(Reg.RTC_ALM_SFLAGS i), 1, 1⟩
def Fld.RTC_ALM_SFLAGS_OSF (i : Nat) : Field := ⟨(Reg.RTC_ALM_SFLAGS i), 0, 0⟩
def Reg.RTC_EVIN_CFG (i : Nat) : Nat := 0x400090C0 + i * 0x10
def Fld.RTC_EVIN_CFG_FILT (i : Nat) : Field := ⟨(Reg.RTC_EVIN_CFG i), 5, 4⟩
def Fld.RTC_EVIN_CFG_EDGE (i : Nat) : Field := ⟨(Reg.RTC_EVIN_CFG i), 2, 1⟩
def Fld.RTC_EVIN_CFG_EN (i : Nat) : Field := ⟨(Reg.RTC_EVIN_CFG i), 0, 0⟩
def Reg.RTC_EVIN_STAMP_LO (i : Nat) : Nat := 0x400090C4 + i * 0x10
def Fld.RTC_EVIN_STAMP_LO_LIN (i : Nat) : Field := ⟨(Reg.RTC_EVIN_STAMP_LO i), 31, 0⟩
def Reg.RTC_EVIN_STAMP_HI (i : Nat) : Nat := 0x400090C8 + i * 0x10
def Fld.RTC_EVIN_STAMP_HI_LIN (i : Nat) : Field := ⟨(Reg.RTC_EVIN_STAMP_HI i), 31, 0⟩
def Reg.RTC_EVIN_CNT (i : Nat) : Nat := 0x400090CC + i * 0x10
def Fld.RTC_EVIN_CNT_OSF (i : Nat) : Field := ⟨(Reg.RTC_EVIN_CNT i), 31, 31⟩
def Fld.RTC_EVIN_CNT_N (i : Nat) : Field := ⟨(Reg.RTC_EVIN_CNT i), 15, 0⟩
def Reg.RTC_OLD_LO : Nat := 0x400090E0
def Fld.RTC_OLD_LO_LIN : Field := ⟨Reg.RTC_OLD_LO, 31, 0⟩
def Reg.RTC_OLD_HI : Nat := 0x400090E4
def Fld.RTC_OLD_HI_LIN : Field := ⟨Reg.RTC_OLD_HI, 31, 0⟩
def Reg.RTC_BKPMEM (i : Nat) : Nat := 0x40009100 + i * 0x4
def Fld.RTC_BKPMEM_DATA (i : Nat) : Field := ⟨(Reg.RTC_BKPMEM i), 31, 0⟩
/-! ### EYE -/
def Reg.EYE_CTRL : Nat := 0x4000A040
def Fld.EYE_CTRL_PERIOD : Field := ⟨Reg.EYE_CTRL, 23, 16⟩
def Fld.EYE_CTRL_HEATS : Field := ⟨Reg.EYE_CTRL, 11, 0⟩
def Reg.EYE_CMD : Nat := 0x4000A044
def Fld.EYE_CMD_OP : Field := ⟨Reg.EYE_CMD, 1, 0⟩
def Reg.EYE_STAT : Nat := 0x4000A048
def Fld.EYE_STAT_SCANS : Field := ⟨Reg.EYE_STAT, 31, 16⟩
def Fld.EYE_STAT_XERR : Field := ⟨Reg.EYE_STAT, 2, 2⟩
def Fld.EYE_STAT_DONE : Field := ⟨Reg.EYE_STAT, 1, 1⟩
def Fld.EYE_STAT_BUSY : Field := ⟨Reg.EYE_STAT, 0, 0⟩
def Reg.EYE_WIRE : Nat := 0x4000A04C
def Fld.EYE_WIRE_FAULT : Field := ⟨Reg.EYE_WIRE, 11, 0⟩
def Reg.EYE_XADDR : Nat := 0x4000A050
def Fld.EYE_XADDR_WRITE : Field := ⟨Reg.EYE_XADDR, 31, 31⟩
def Fld.EYE_XADDR_LEN : Field := ⟨Reg.EYE_XADDR, 30, 24⟩
def Fld.EYE_XADDR_LANE : Field := ⟨Reg.EYE_XADDR, 23, 16⟩
def Fld.EYE_XADDR_ADDR : Field := ⟨Reg.EYE_XADDR, 10, 0⟩
def Reg.EYE_EXP_SEL : Nat := 0x4000A054
def Fld.EYE_EXP_SEL_LANE : Field := ⟨Reg.EYE_EXP_SEL, 7, 0⟩
def Reg.EYE_EXP_PCT : Nat := 0x4000A058
def Fld.EYE_EXP_PCT_PCT : Field := ⟨Reg.EYE_EXP_PCT, 15, 0⟩
def Reg.EYE_XDATA (i : Nat) : Nat := 0x4000A080 + i * 0x4
def Fld.EYE_XDATA_DATA (i : Nat) : Field := ⟨(Reg.EYE_XDATA i), 31, 0⟩
def Reg.EYE_H_STAT (i : Nat) : Nat := 0x4000A100 + i * 0x10
def Fld.EYE_H_STAT_EXCESS (i : Nat) : Field := ⟨(Reg.EYE_H_STAT i), 31, 31⟩
def Fld.EYE_H_STAT_UNBOUND (i : Nat) : Field := ⟨(Reg.EYE_H_STAT i), 12, 8⟩
def Fld.EYE_H_STAT_NPODS (i : Nat) : Field := ⟨(Reg.EYE_H_STAT i), 4, 0⟩
def Reg.EYE_H_LANES (i : Nat) : Nat := 0x4000A104 + i * 0x10
def Fld.EYE_H_LANES_UNVER (i : Nat) : Field := ⟨(Reg.EYE_H_LANES i), 31, 16⟩
def Fld.EYE_H_LANES_BOUND (i : Nat) : Field := ⟨(Reg.EYE_H_LANES i), 15, 0⟩
def Reg.EYE_H_CRC (i : Nat) : Nat := 0x4000A108 + i * 0x10
def Fld.EYE_H_CRC_LASTING (i : Nat) : Field := ⟨(Reg.EYE_H_CRC i), 31, 16⟩
def Fld.EYE_H_CRC_TRANS (i : Nat) : Field := ⟨(Reg.EYE_H_CRC i), 15, 0⟩
/-! ### CAP -/
def Reg.CAP_CTRL : Nat := 0x4000B040
def Fld.CAP_CTRL_CLEAR : Field := ⟨Reg.CAP_CTRL, 1, 1⟩
def Fld.CAP_CTRL_EN : Field := ⟨Reg.CAP_CTRL, 0, 0⟩
def Reg.CAP_STAT : Nat := 0x4000B044
def Fld.CAP_STAT_NREC : Field := ⟨Reg.CAP_STAT, 31, 24⟩
def Fld.CAP_STAT_NLOCK : Field := ⟨Reg.CAP_STAT, 23, 16⟩
def Fld.CAP_STAT_FREE : Field := ⟨Reg.CAP_STAT, 15, 4⟩
def Fld.CAP_STAT_ACTIVE : Field := ⟨Reg.CAP_STAT, 3, 2⟩
def Reg.CAP_REFUSED : Nat := 0x4000B048
def Fld.CAP_REFUSED_BUSY : Field := ⟨Reg.CAP_REFUSED, 31, 16⟩
def Fld.CAP_REFUSED_FULL : Field := ⟨Reg.CAP_REFUSED, 15, 0⟩
def Reg.CAP_LAST : Nat := 0x4000B04C
def Fld.CAP_LAST_VALID : Field := ⟨Reg.CAP_LAST, 8, 8⟩
def Fld.CAP_LAST_SLOT : Field := ⟨Reg.CAP_LAST, 7, 0⟩
def Reg.CAP_RECCTL : Nat := 0x4000B050
def Fld.CAP_RECCTL_SLOT : Field := ⟨Reg.CAP_RECCTL, 15, 8⟩
def Fld.CAP_RECCTL_DELETE : Field := ⟨Reg.CAP_RECCTL, 2, 2⟩
def Fld.CAP_RECCTL_UNLOCK : Field := ⟨Reg.CAP_RECCTL, 1, 1⟩
def Fld.CAP_RECCTL_LOCK : Field := ⟨Reg.CAP_RECCTL, 0, 0⟩
def Reg.CAP_EVICT : Nat := 0x4000B054
def Fld.CAP_EVICT_N : Field := ⟨Reg.CAP_EVICT, 31, 0⟩
def Reg.CAP_TRIG_EV (i : Nat) : Nat := 0x4000B080 + i * 0x8
def Fld.CAP_TRIG_EV_EN (i : Nat) : Field := ⟨(Reg.CAP_TRIG_EV i), 31, 31⟩
def Fld.CAP_TRIG_EV_AUTOLOCK (i : Nat) : Field := ⟨(Reg.CAP_TRIG_EV i), 30, 30⟩
def Fld.CAP_TRIG_EV_BLK (i : Nat) : Field := ⟨(Reg.CAP_TRIG_EV i), 28, 16⟩
def Fld.CAP_TRIG_EV_CODE (i : Nat) : Field := ⟨(Reg.CAP_TRIG_EV i), 11, 0⟩
def Reg.CAP_TRIG_LEN (i : Nat) : Nat := 0x4000B084 + i * 0x8
def Fld.CAP_TRIG_LEN_POST (i : Nat) : Field := ⟨(Reg.CAP_TRIG_LEN i), 26, 16⟩
def Fld.CAP_TRIG_LEN_PRE (i : Nat) : Field := ⟨(Reg.CAP_TRIG_LEN i), 9, 0⟩
/-! ### DRAM -/
def Reg.DRAM_RING_SEQ : Nat := 0x4000C080
def Fld.DRAM_RING_SEQ_SEQ : Field := ⟨Reg.DRAM_RING_SEQ, 31, 0⟩
def Reg.DRAM_RING_SLOT : Nat := 0x4000C084
def Fld.DRAM_RING_SLOT_SLOT : Field := ⟨Reg.DRAM_RING_SLOT, 15, 0⟩
def Reg.DRAM_RING_GUNSEQ : Nat := 0x4000C088
def Fld.DRAM_RING_GUNSEQ_SEQ : Field := ⟨Reg.DRAM_RING_GUNSEQ, 31, 0⟩
def Reg.DRAM_ECC_CE : Nat := 0x4000C040
def Fld.DRAM_ECC_CE_CE_STUCK : Field := ⟨Reg.DRAM_ECC_CE, 31, 16⟩
def Fld.DRAM_ECC_CE_CE : Field := ⟨Reg.DRAM_ECC_CE, 15, 0⟩
def Reg.DRAM_ECC_UE : Nat := 0x4000C044
def Fld.DRAM_ECC_UE_UE_LAST : Field := ⟨Reg.DRAM_ECC_UE, 31, 16⟩
def Fld.DRAM_ECC_UE_UE_TRANS : Field := ⟨Reg.DRAM_ECC_UE, 15, 0⟩
def Reg.DRAM_ECC_ADDR : Nat := 0x4000C048
def Fld.DRAM_ECC_ADDR_ADDR : Field := ⟨Reg.DRAM_ECC_ADDR, 31, 0⟩
def Reg.DRAM_ECC_INFO : Nat := 0x4000C04C
def Fld.DRAM_ECC_INFO_VALID : Field := ⟨Reg.DRAM_ECC_INFO, 31, 31⟩
def Fld.DRAM_ECC_INFO_OVF : Field := ⟨Reg.DRAM_ECC_INFO, 30, 30⟩
def Fld.DRAM_ECC_INFO_UE : Field := ⟨Reg.DRAM_ECC_INFO, 8, 8⟩
def Fld.DRAM_ECC_INFO_MASTER : Field := ⟨Reg.DRAM_ECC_INFO, 4, 0⟩
/-! ### FLASH -/
def Reg.FLASH_ECC_CE : Nat := 0x4000D040
def Fld.FLASH_ECC_CE_CE_STUCK : Field := ⟨Reg.FLASH_ECC_CE, 31, 16⟩
def Fld.FLASH_ECC_CE_CE : Field := ⟨Reg.FLASH_ECC_CE, 15, 0⟩
def Reg.FLASH_ECC_UE : Nat := 0x4000D044
def Fld.FLASH_ECC_UE_UE_LAST : Field := ⟨Reg.FLASH_ECC_UE, 31, 16⟩
def Fld.FLASH_ECC_UE_UE_TRANS : Field := ⟨Reg.FLASH_ECC_UE, 15, 0⟩
def Reg.FLASH_ECC_ADDR : Nat := 0x4000D048
def Fld.FLASH_ECC_ADDR_ADDR : Field := ⟨Reg.FLASH_ECC_ADDR, 31, 0⟩
def Reg.FLASH_ECC_INFO : Nat := 0x4000D04C
def Fld.FLASH_ECC_INFO_VALID : Field := ⟨Reg.FLASH_ECC_INFO, 31, 31⟩
def Fld.FLASH_ECC_INFO_OVF : Field := ⟨Reg.FLASH_ECC_INFO, 30, 30⟩
def Fld.FLASH_ECC_INFO_UE : Field := ⟨Reg.FLASH_ECC_INFO, 8, 8⟩
def Fld.FLASH_ECC_INFO_MASTER : Field := ⟨Reg.FLASH_ECC_INFO, 4, 0⟩
def Reg.FLASH_PADDR : Nat := 0x4000D060
def Fld.FLASH_PADDR_ADDR : Field := ⟨Reg.FLASH_PADDR, 31, 0⟩
def Reg.FLASH_PCMD : Nat := 0x4000D064
def Fld.FLASH_PCMD_OP : Field := ⟨Reg.FLASH_PCMD, 1, 0⟩
def Reg.FLASH_PSTAT : Nat := 0x4000D068
def Fld.FLASH_PSTAT_FAIL : Field := ⟨Reg.FLASH_PSTAT, 2, 2⟩
def Fld.FLASH_PSTAT_DONE : Field := ⟨Reg.FLASH_PSTAT, 1, 1⟩
def Fld.FLASH_PSTAT_BUSY : Field := ⟨Reg.FLASH_PSTAT, 0, 0⟩
def Reg.FLASH_PDATA (i : Nat) : Nat := 0x4000D100 + i * 0x4
def Fld.FLASH_PDATA_DATA (i : Nat) : Field := ⟨(Reg.FLASH_PDATA i), 31, 0⟩
/-! ### MRAM -/
def Reg.MRAM_ECC_CE : Nat := 0x4000E040
def Fld.MRAM_ECC_CE_CE_STUCK : Field := ⟨Reg.MRAM_ECC_CE, 31, 16⟩
def Fld.MRAM_ECC_CE_CE : Field := ⟨Reg.MRAM_ECC_CE, 15, 0⟩
def Reg.MRAM_ECC_UE : Nat := 0x4000E044
def Fld.MRAM_ECC_UE_UE_LAST : Field := ⟨Reg.MRAM_ECC_UE, 31, 16⟩
def Fld.MRAM_ECC_UE_UE_TRANS : Field := ⟨Reg.MRAM_ECC_UE, 15, 0⟩
def Reg.MRAM_ECC_ADDR : Nat := 0x4000E048
def Fld.MRAM_ECC_ADDR_ADDR : Field := ⟨Reg.MRAM_ECC_ADDR, 31, 0⟩
def Reg.MRAM_ECC_INFO : Nat := 0x4000E04C
def Fld.MRAM_ECC_INFO_VALID : Field := ⟨Reg.MRAM_ECC_INFO, 31, 31⟩
def Fld.MRAM_ECC_INFO_OVF : Field := ⟨Reg.MRAM_ECC_INFO, 30, 30⟩
def Fld.MRAM_ECC_INFO_UE : Field := ⟨Reg.MRAM_ECC_INFO, 8, 8⟩
def Fld.MRAM_ECC_INFO_MASTER : Field := ⟨Reg.MRAM_ECC_INFO, 4, 0⟩
/-! ### GPIO -/
def Reg.GPIO_DIR : Nat := 0x4000F040
def Fld.GPIO_DIR_OUT : Field := ⟨Reg.GPIO_DIR, 15, 0⟩
def Reg.GPIO_OUT : Nat := 0x4000F044
def Fld.GPIO_OUT_LVL : Field := ⟨Reg.GPIO_OUT, 15, 0⟩
def Reg.GPIO_OD : Nat := 0x4000F048
def Fld.GPIO_OD_OD : Field := ⟨Reg.GPIO_OD, 15, 0⟩
def Reg.GPIO_IN : Nat := 0x4000F04C
def Fld.GPIO_IN_LVL : Field := ⟨Reg.GPIO_IN, 15, 0⟩
def Reg.GPIO_PD : Nat := 0x4000F050
def Fld.GPIO_PD_PD : Field := ⟨Reg.GPIO_PD, 15, 0⟩
def Reg.GPIO_EDGE : Nat := 0x4000F054
def Fld.GPIO_EDGE_MODE : Field := ⟨Reg.GPIO_EDGE, 31, 0⟩
def Reg.GPIO_OWNED : Nat := 0x4000F058
def Fld.GPIO_OWNED_DISC : Field := ⟨Reg.GPIO_OWNED, 15, 0⟩
/-! ### HEAT -/
def Reg.HEAT_CTRL (n : Nat) : Nat := 0x40010040 + n * 0x1000
def Fld.HEAT_CTRL_VGSEL (n : Nat) : Field := ⟨(Reg.HEAT_CTRL n), 1, 0⟩
def Reg.HEAT_LANE_EN (n : Nat) : Nat := 0x40010044 + n * 0x1000
def Fld.HEAT_LANE_EN_EN (n : Nat) : Field := ⟨(Reg.HEAT_LANE_EN n), 15, 0⟩
def Reg.HEAT_RSEL (n : Nat) : Nat := 0x40010048 + n * 0x1000
def Fld.HEAT_RSEL_DN (n : Nat) : Field := ⟨(Reg.HEAT_RSEL n), 24, 16⟩
def Fld.HEAT_RSEL_UP (n : Nat) : Field := ⟨(Reg.HEAT_RSEL n), 8, 0⟩
def Reg.HEAT_ISO (n : Nat) : Nat := 0x4001004C + n * 0x1000
def Fld.HEAT_ISO_AMP (n : Nat) : Field := ⟨(Reg.HEAT_ISO n), 11, 8⟩
def Fld.HEAT_ISO_MODE (n : Nat) : Field := ⟨(Reg.HEAT_ISO n), 1, 0⟩
def Reg.HEAT_APPLY (n : Nat) : Nat := 0x40010050 + n * 0x1000
def Fld.HEAT_APPLY_LANES (n : Nat) : Field := ⟨(Reg.HEAT_APPLY n), 15, 0⟩
def Reg.HEAT_STAT (n : Nat) : Nat := 0x40010054 + n * 0x1000
def Fld.HEAT_STAT_APPLY_BUSY (n : Nat) : Field := ⟨(Reg.HEAT_STAT n), 8, 8⟩
def Fld.HEAT_STAT_IRETERR (n : Nat) : Field := ⟨(Reg.HEAT_STAT n), 5, 5⟩
def Fld.HEAT_STAT_ISO_ACTIVE (n : Nat) : Field := ⟨(Reg.HEAT_STAT n), 4, 4⟩
def Fld.HEAT_STAT_TEMP_VALID (n : Nat) : Field := ⟨(Reg.HEAT_STAT n), 3, 3⟩
def Fld.HEAT_STAT_REFERR (n : Nat) : Field := ⟨(Reg.HEAT_STAT n), 2, 2⟩
def Fld.HEAT_STAT_REF_OK (n : Nat) : Field := ⟨(Reg.HEAT_STAT n), 1, 1⟩
def Fld.HEAT_STAT_REF_ON (n : Nat) : Field := ⟨(Reg.HEAT_STAT n), 0, 0⟩
def Reg.HEAT_PATH_NOW (n : Nat) : Nat := 0x40010058 + n * 0x1000
def Fld.HEAT_PATH_NOW_HG (n : Nat) : Field := ⟨(Reg.HEAT_PATH_NOW n), 15, 0⟩
def Reg.HEAT_UNS (n : Nat) : Nat := 0x4001005C + n * 0x1000
def Fld.HEAT_UNS_UNS (n : Nat) : Field := ⟨(Reg.HEAT_UNS n), 15, 0⟩
def Reg.HEAT_CLIP (n : Nat) : Nat := 0x40010060 + n * 0x1000
def Fld.HEAT_CLIP_CLP (n : Nat) : Field := ⟨(Reg.HEAT_CLIP n), 15, 0⟩
def Reg.HEAT_TEMP (n : Nat) : Nat := 0x40010064 + n * 0x1000
def Fld.HEAT_TEMP_VALID (n : Nat) : Field := ⟨(Reg.HEAT_TEMP n), 16, 16⟩
def Fld.HEAT_TEMP_T (n : Nat) : Field := ⟨(Reg.HEAT_TEMP n), 15, 0⟩
def Reg.HEAT_REF_DEV (n : Nat) : Nat := 0x40010068 + n * 0x1000
def Fld.HEAT_REF_DEV_PPM (n : Nat) : Field := ⟨(Reg.HEAT_REF_DEV n), 15, 0⟩
def Reg.HEAT_DEC_STAT (n : Nat) : Nat := 0x40010100 + n * 0x1000
def Fld.HEAT_DEC_STAT_GUNS (n : Nat) : Field := ⟨(Reg.HEAT_DEC_STAT n), 31, 16⟩
def Fld.HEAT_DEC_STAT_SETTLE (n : Nat) : Field := ⟨(Reg.HEAT_DEC_STAT n), 5, 0⟩
def Reg.HEAT_CMP_HI (n : Nat) : Nat := 0x40010104 + n * 0x1000
def Fld.HEAT_CMP_HI_CNT (n : Nat) : Field := ⟨(Reg.HEAT_CMP_HI n), 19, 16⟩
def Fld.HEAT_CMP_HI_THR (n : Nat) : Field := ⟨(Reg.HEAT_CMP_HI n), 14, 0⟩
def Reg.HEAT_CMP_LO (n : Nat) : Nat := 0x40010108 + n * 0x1000
def Fld.HEAT_CMP_LO_CNT (n : Nat) : Field := ⟨(Reg.HEAT_CMP_LO n), 23, 16⟩
def Fld.HEAT_CMP_LO_THR (n : Nat) : Field := ⟨(Reg.HEAT_CMP_LO n), 14, 0⟩
def Reg.HEAT_CMP_ENV (n : Nat) : Nat := 0x4001010C + n * 0x1000
def Fld.HEAT_CMP_ENV_HI (n : Nat) : Field := ⟨(Reg.HEAT_CMP_ENV n), 30, 16⟩
def Fld.HEAT_CMP_ENV_LO (n : Nat) : Field := ⟨(Reg.HEAT_CMP_ENV n), 14, 0⟩
def Reg.HEAT_CMP_EN (n : Nat) : Nat := 0x40010110 + n * 0x1000
def Fld.HEAT_CMP_EN_LO (n : Nat) : Field := ⟨(Reg.HEAT_CMP_EN n), 31, 16⟩
def Fld.HEAT_CMP_EN_HI (n : Nat) : Field := ⟨(Reg.HEAT_CMP_EN n), 15, 0⟩
def Reg.HEAT_CMP_ENV_EN (n : Nat) : Nat := 0x40010114 + n * 0x1000
def Fld.HEAT_CMP_ENV_EN_ENV (n : Nat) : Field := ⟨(Reg.HEAT_CMP_ENV_EN n), 15, 0⟩
def Reg.HEAT_CMP_HIT (n : Nat) : Nat := 0x40010118 + n * 0x1000
def Fld.HEAT_CMP_HIT_LO (n : Nat) : Field := ⟨(Reg.HEAT_CMP_HIT n), 31, 16⟩
def Fld.HEAT_CMP_HIT_HI (n : Nat) : Field := ⟨(Reg.HEAT_CMP_HIT n), 15, 0⟩
def Reg.HEAT_CMP_ENV_HIT (n : Nat) : Nat := 0x4001011C + n * 0x1000
def Fld.HEAT_CMP_ENV_HIT_BELOW (n : Nat) : Field := ⟨(Reg.HEAT_CMP_ENV_HIT n), 31, 16⟩
def Fld.HEAT_CMP_ENV_HIT_ABOVE (n : Nat) : Field := ⟨(Reg.HEAT_CMP_ENV_HIT n), 15, 0⟩
/-! ### UGRP -/
def Reg.UGRP_CH_EN : Nat := 0x4001C040
def Fld.UGRP_CH_EN_EN : Field := ⟨Reg.UGRP_CH_EN, 15, 0⟩
def Reg.UGRP_ISO : Nat := 0x4001C044
def Fld.UGRP_ISO_AMP : Field := ⟨Reg.UGRP_ISO, 11, 8⟩
def Fld.UGRP_ISO_MODE : Field := ⟨Reg.UGRP_ISO, 1, 0⟩
def Reg.UGRP_APPLY : Nat := 0x4001C048
def Fld.UGRP_APPLY_CH : Field := ⟨Reg.UGRP_APPLY, 15, 0⟩
def Reg.UGRP_STAT : Nat := 0x4001C04C
def Fld.UGRP_STAT_APPLY_BUSY : Field := ⟨Reg.UGRP_STAT, 8, 8⟩
def Fld.UGRP_STAT_ISO_ACTIVE : Field := ⟨Reg.UGRP_STAT, 4, 4⟩
def Fld.UGRP_STAT_TEMP_VALID : Field := ⟨Reg.UGRP_STAT, 3, 3⟩
def Fld.UGRP_STAT_REFERR : Field := ⟨Reg.UGRP_STAT, 2, 2⟩
def Fld.UGRP_STAT_REF_OK : Field := ⟨Reg.UGRP_STAT, 1, 1⟩
def Fld.UGRP_STAT_REF_ON : Field := ⟨Reg.UGRP_STAT, 0, 0⟩
def Reg.UGRP_UNS : Nat := 0x4001C050
def Fld.UGRP_UNS_UNS : Field := ⟨Reg.UGRP_UNS, 15, 0⟩
def Reg.UGRP_CLIP : Nat := 0x4001C054
def Fld.UGRP_CLIP_CLP : Field := ⟨Reg.UGRP_CLIP, 15, 0⟩
def Reg.UGRP_TEMP : Nat := 0x4001C058
def Fld.UGRP_TEMP_VALID : Field := ⟨Reg.UGRP_TEMP, 16, 16⟩
def Fld.UGRP_TEMP_T : Field := ⟨Reg.UGRP_TEMP, 15, 0⟩
def Reg.UGRP_REF_DEV : Nat := 0x4001C05C
def Fld.UGRP_REF_DEV_PPM : Field := ⟨Reg.UGRP_REF_DEV, 15, 0⟩
def Reg.UGRP_CMP_HI (i : Nat) : Nat := 0x4001C100 + i * 0x20
def Fld.UGRP_CMP_HI_CNT (i : Nat) : Field := ⟨(Reg.UGRP_CMP_HI i), 19, 16⟩
def Fld.UGRP_CMP_HI_THR (i : Nat) : Field := ⟨(Reg.UGRP_CMP_HI i), 14, 0⟩
def Reg.UGRP_CMP_LO (i : Nat) : Nat := 0x4001C104 + i * 0x20
def Fld.UGRP_CMP_LO_CNT (i : Nat) : Field := ⟨(Reg.UGRP_CMP_LO i), 23, 16⟩
def Fld.UGRP_CMP_LO_THR (i : Nat) : Field := ⟨(Reg.UGRP_CMP_LO i), 14, 0⟩
def Reg.UGRP_CMP_ENV (i : Nat) : Nat := 0x4001C108 + i * 0x20
def Fld.UGRP_CMP_ENV_HI (i : Nat) : Field := ⟨(Reg.UGRP_CMP_ENV i), 30, 16⟩
def Fld.UGRP_CMP_ENV_LO (i : Nat) : Field := ⟨(Reg.UGRP_CMP_ENV i), 14, 0⟩
def Reg.UGRP_CMP_EN (i : Nat) : Nat := 0x4001C10C + i * 0x20
def Fld.UGRP_CMP_EN_ENV (i : Nat) : Field := ⟨(Reg.UGRP_CMP_EN i), 11, 8⟩
def Fld.UGRP_CMP_EN_LO (i : Nat) : Field := ⟨(Reg.UGRP_CMP_EN i), 7, 4⟩
def Fld.UGRP_CMP_EN_HI (i : Nat) : Field := ⟨(Reg.UGRP_CMP_EN i), 3, 0⟩
def Reg.UGRP_CMP_HIT (i : Nat) : Nat := 0x4001C110 + i * 0x20
def Fld.UGRP_CMP_HIT_BELOW (i : Nat) : Field := ⟨(Reg.UGRP_CMP_HIT i), 15, 12⟩
def Fld.UGRP_CMP_HIT_ABOVE (i : Nat) : Field := ⟨(Reg.UGRP_CMP_HIT i), 11, 8⟩
def Fld.UGRP_CMP_HIT_LO (i : Nat) : Field := ⟨(Reg.UGRP_CMP_HIT i), 7, 4⟩
def Fld.UGRP_CMP_HIT_HI (i : Nat) : Field := ⟨(Reg.UGRP_CMP_HIT i), 3, 0⟩
def Reg.UGRP_DEC_STAT : Nat := 0x4001C180
def Fld.UGRP_DEC_STAT_GUNS : Field := ⟨Reg.UGRP_DEC_STAT, 31, 16⟩
def Fld.UGRP_DEC_STAT_SETTLE : Field := ⟨Reg.UGRP_DEC_STAT, 5, 0⟩
/-! ### FRAME -/
def Reg.FRAME_VG_CFG (i : Nat) : Nat := 0x4001D040 + i * 0x20
def Fld.FRAME_VG_CFG_COAST (i : Nat) : Field := ⟨(Reg.FRAME_VG_CFG i), 23, 16⟩
def Fld.FRAME_VG_CFG_FNOM (i : Nat) : Field := ⟨(Reg.FRAME_VG_CFG i), 9, 9⟩
def Fld.FRAME_VG_CFG_SRC (i : Nat) : Field := ⟨(Reg.FRAME_VG_CFG i), 8, 8⟩
def Fld.FRAME_VG_CFG_NSEL (i : Nat) : Field := ⟨(Reg.FRAME_VG_CFG i), 5, 4⟩
def Fld.FRAME_VG_CFG_MODE (i : Nat) : Field := ⟨(Reg.FRAME_VG_CFG i), 1, 0⟩
def Reg.FRAME_VG_AMIN (i : Nat) : Nat := 0x4001D044 + i * 0x20
def Fld.FRAME_VG_AMIN_AMIN (i : Nat) : Field := ⟨(Reg.FRAME_VG_AMIN i), 14, 0⟩
def Reg.FRAME_VG_STAT (i : Nat) : Nat := 0x4001D048 + i * 0x20
def Fld.FRAME_VG_STAT_LOWAMP (i : Nat) : Field := ⟨(Reg.FRAME_VG_STAT i), 4, 4⟩
def Fld.FRAME_VG_STAT_RANGE (i : Nat) : Field := ⟨(Reg.FRAME_VG_STAT i), 3, 3⟩
def Fld.FRAME_VG_STAT_STATE (i : Nat) : Field := ⟨(Reg.FRAME_VG_STAT i), 2, 0⟩
def Reg.FRAME_VG_FREQ (i : Nat) : Nat := 0x4001D04C + i * 0x20
def Fld.FRAME_VG_FREQ_UHZ (i : Nat) : Field := ⟨(Reg.FRAME_VG_FREQ i), 31, 0⟩
def Reg.FRAME_VG_FREQ10 (i : Nat) : Nat := 0x4001D050 + i * 0x20
def Fld.FRAME_VG_FREQ10_UHZ (i : Nat) : Field := ⟨(Reg.FRAME_VG_FREQ10 i), 31, 0⟩
def Reg.FRAME_VG_FLIM (i : Nat) : Nat := 0x4001D054 + i * 0x20
def Fld.FRAME_VG_FLIM_FHI (i : Nat) : Field := ⟨(Reg.FRAME_VG_FLIM i), 31, 16⟩
def Fld.FRAME_VG_FLIM_FLO (i : Nat) : Field := ⟨(Reg.FRAME_VG_FLIM i), 15, 0⟩
def Reg.FRAME_VG_AMP (i : Nat) : Nat := 0x4001D058 + i * 0x20
def Fld.FRAME_VG_AMP_AMP (i : Nat) : Field := ⟨(Reg.FRAME_VG_AMP i), 14, 0⟩
def Reg.FRAME_TOL : Nat := 0x4001D0C0
def Fld.FRAME_TOL_VAL : Field := ⟨Reg.FRAME_TOL, 7, 0⟩
def Reg.FRAME_PRED : Nat := 0x4001D0C4
def Fld.FRAME_PRED_STEP : Field := ⟨Reg.FRAME_PRED, 15, 12⟩
def Fld.FRAME_PRED_KB : Field := ⟨Reg.FRAME_PRED, 11, 8⟩
def Fld.FRAME_PRED_KA : Field := ⟨Reg.FRAME_PRED, 3, 0⟩
def Reg.FRAME_SPEC_CTRL : Nat := 0x4001D0C8
def Fld.FRAME_SPEC_CTRL_TRIP_SPEC : Field := ⟨Reg.FRAME_SPEC_CTRL, 2, 2⟩
def Fld.FRAME_SPEC_CTRL_CAP_SPEC : Field := ⟨Reg.FRAME_SPEC_CTRL, 1, 1⟩
def Fld.FRAME_SPEC_CTRL_HOLD : Field := ⟨Reg.FRAME_SPEC_CTRL, 0, 0⟩
def Reg.FRAME_RB_CYC (i : Nat) : Nat := 0x4001D100 + i * 0x20
def Fld.FRAME_RB_CYC_CYCLE (i : Nat) : Field := ⟨(Reg.FRAME_RB_CYC i), 31, 0⟩
def Reg.FRAME_RB_ERR (i : Nat) : Nat := 0x4001D104 + i * 0x20
def Fld.FRAME_RB_ERR_ERR (i : Nat) : Field := ⟨(Reg.FRAME_RB_ERR i), 31, 0⟩
def Reg.FRAME_RB_PER (i : Nat) : Nat := 0x4001D108 + i * 0x20
def Fld.FRAME_RB_PER_PER (i : Nat) : Field := ⟨(Reg.FRAME_RB_PER i), 31, 0⟩
def Reg.FRAME_RB_FS (i : Nat) : Nat := 0x4001D10C + i * 0x20
def Fld.FRAME_RB_FS_SUBST (i : Nat) : Field := ⟨(Reg.FRAME_RB_FS i), 31, 16⟩
def Fld.FRAME_RB_FS_FS (i : Nat) : Field := ⟨(Reg.FRAME_RB_FS i), 15, 0⟩
def Reg.FRAME_RB_REC (i : Nat) : Nat := 0x4001D110 + i * 0x20
def Fld.FRAME_RB_REC_REPLAY2 (i : Nat) : Field := ⟨(Reg.FRAME_RB_REC i), 31, 16⟩
def Fld.FRAME_RB_REC_CAUSE (i : Nat) : Field := ⟨(Reg.FRAME_RB_REC i), 7, 4⟩
def Fld.FRAME_RB_REC_ACTIVE (i : Nat) : Field := ⟨(Reg.FRAME_RB_REC i), 2, 2⟩
def Fld.FRAME_RB_REC_ATTEMPT (i : Nat) : Field := ⟨(Reg.FRAME_RB_REC i), 1, 0⟩
def Reg.FRAME_RB_SB_MT_LO (i : Nat) : Nat := 0x4001D114 + i * 0x20
def Fld.FRAME_RB_SB_MT_LO_MT (i : Nat) : Field := ⟨(Reg.FRAME_RB_SB_MT_LO i), 31, 0⟩
def Reg.FRAME_RB_SB_MT_HI (i : Nat) : Nat := 0x4001D118 + i * 0x20
def Fld.FRAME_RB_SB_MT_HI_MT (i : Nat) : Field := ⟨(Reg.FRAME_RB_SB_MT_HI i), 31, 0⟩
/-! ### PACER -/
def Reg.PACER_LAST_STAT (n : Nat) : Nat := 0x4001E040 + n * 0x1000
def Fld.PACER_LAST_STAT_NSEL (n : Nat) : Field := ⟨(Reg.PACER_LAST_STAT n), 5, 4⟩
def Fld.PACER_LAST_STAT_MODE (n : Nat) : Field := ⟨(Reg.PACER_LAST_STAT n), 3, 2⟩
def Fld.PACER_LAST_STAT_REPLAY (n : Nat) : Field := ⟨(Reg.PACER_LAST_STAT n), 1, 1⟩
def Fld.PACER_LAST_STAT_RUN (n : Nat) : Field := ⟨(Reg.PACER_LAST_STAT n), 0, 0⟩
def Reg.PACER_LAST_POS_LO (n : Nat) : Nat := 0x4001E044 + n * 0x1000
def Fld.PACER_LAST_POS_LO_POS (n : Nat) : Field := ⟨(Reg.PACER_LAST_POS_LO n), 31, 0⟩
def Reg.PACER_LAST_POS_HI (n : Nat) : Nat := 0x4001E048 + n * 0x1000
def Fld.PACER_LAST_POS_HI_POS (n : Nat) : Field := ⟨(Reg.PACER_LAST_POS_HI n), 31, 0⟩
def Reg.PACER_LAST_STEP_LO (n : Nat) : Nat := 0x4001E04C + n * 0x1000
def Fld.PACER_LAST_STEP_LO_D (n : Nat) : Field := ⟨(Reg.PACER_LAST_STEP_LO n), 31, 0⟩
def Reg.PACER_LAST_STEP_HI (n : Nat) : Nat := 0x4001E050 + n * 0x1000
def Fld.PACER_LAST_STEP_HI_D (n : Nat) : Field := ⟨(Reg.PACER_LAST_STEP_HI n), 31, 0⟩
def Reg.PACER_CYC (n : Nat) : Nat := 0x4001E080 + n * 0x1000
def Fld.PACER_CYC_CYCLE (n : Nat) : Field := ⟨(Reg.PACER_CYC n), 31, 0⟩
def Reg.PACER_SPEC (n : Nat) : Nat := 0x4001E084 + n * 0x1000
def Fld.PACER_SPEC_CYCLE (n : Nat) : Field := ⟨(Reg.PACER_SPEC n), 31, 0⟩
def Reg.PACER_REC_STAT (n : Nat) : Nat := 0x4001E088 + n * 0x1000
def Fld.PACER_REC_STAT_REPLAY_US (n : Nat) : Field := ⟨(Reg.PACER_REC_STAT n), 31, 16⟩
def Fld.PACER_REC_STAT_CAUSE (n : Nat) : Field := ⟨(Reg.PACER_REC_STAT n), 11, 8⟩
def Fld.PACER_REC_STAT_ATTEMPT (n : Nat) : Field := ⟨(Reg.PACER_REC_STAT n), 3, 2⟩
def Fld.PACER_REC_STAT_BEHIND (n : Nat) : Field := ⟨(Reg.PACER_REC_STAT n), 1, 1⟩
def Fld.PACER_REC_STAT_PENDING (n : Nat) : Field := ⟨(Reg.PACER_REC_STAT n), 0, 0⟩
def Reg.PACER_FS (n : Nat) : Nat := 0x4001E08C + n * 0x1000
def Fld.PACER_FS_SUBST (n : Nat) : Field := ⟨(Reg.PACER_FS n), 31, 16⟩
def Fld.PACER_FS_FS (n : Nat) : Field := ⟨(Reg.PACER_FS n), 15, 0⟩
def Reg.PACER_WDRAW (n : Nat) : Nat := 0x4001E090 + n * 0x1000
def Fld.PACER_WDRAW_COUNT (n : Nat) : Field := ⟨(Reg.PACER_WDRAW n), 15, 0⟩
/-! ### LANE -/
/-! ### UCH -/
def Reg.UCH_CALM_CTRL : Nat := 0x4002D440
def Fld.UCH_CALM_CTRL_CYC : Field := ⟨Reg.UCH_CALM_CTRL, 23, 16⟩
def Fld.UCH_CALM_CTRL_SEL : Field := ⟨Reg.UCH_CALM_CTRL, 15, 8⟩
def Fld.UCH_CALM_CTRL_MODE : Field := ⟨Reg.UCH_CALM_CTRL, 5, 4⟩
def Fld.UCH_CALM_CTRL_GO : Field := ⟨Reg.UCH_CALM_CTRL, 0, 0⟩
def Reg.UCH_CALM_STAT : Nat := 0x4002D444
def Fld.UCH_CALM_STAT_NOLOCK : Field := ⟨Reg.UCH_CALM_STAT, 3, 3⟩
def Fld.UCH_CALM_STAT_VOID : Field := ⟨Reg.UCH_CALM_STAT, 2, 2⟩
def Fld.UCH_CALM_STAT_DONE : Field := ⟨Reg.UCH_CALM_STAT, 1, 1⟩
def Fld.UCH_CALM_STAT_BUSY : Field := ⟨Reg.UCH_CALM_STAT, 0, 0⟩
def Reg.UCH_CALM_N : Nat := 0x4002D448
def Fld.UCH_CALM_N_N : Field := ⟨Reg.UCH_CALM_N, 31, 0⟩
def Reg.UCH_CALM_MEAN_LG (i : Nat) : Nat := 0x4002D480 + i * 0x8
def Fld.UCH_CALM_MEAN_LG_MEAN (i : Nat) : Field := ⟨(Reg.UCH_CALM_MEAN_LG i), 31, 0⟩
def Reg.UCH_CALM_MEAN_HG (i : Nat) : Nat := 0x4002D484 + i * 0x8
def Fld.UCH_CALM_MEAN_HG_MEAN (i : Nat) : Field := ⟨(Reg.UCH_CALM_MEAN_HG i), 31, 0⟩
def Reg.UCH_CALM_RATIO : Nat := 0x4002D500
def Fld.UCH_CALM_RATIO_RATIO : Field := ⟨Reg.UCH_CALM_RATIO, 31, 0⟩
def Reg.UCH_CALM_DELAY : Nat := 0x4002D504
def Fld.UCH_CALM_DELAY_DELAY : Field := ⟨Reg.UCH_CALM_DELAY, 10, 0⟩
def Reg.UCH_CALM_LGRMS : Nat := 0x4002D508
def Fld.UCH_CALM_LGRMS_RMS : Field := ⟨Reg.UCH_CALM_LGRMS, 31, 0⟩
def Reg.UCH_CALM_HGRMS : Nat := 0x4002D50C
def Fld.UCH_CALM_HGRMS_RMS : Field := ⟨Reg.UCH_CALM_HGRMS, 31, 0⟩
def Reg.UCH_TT_SRC : Nat := 0x4002D540
def Fld.UCH_TT_SRC_ADDR : Field := ⟨Reg.UCH_TT_SRC, 31, 0⟩
def Reg.UCH_TT_LOAD : Nat := 0x4002D544
def Fld.UCH_TT_LOAD_GO : Field := ⟨Reg.UCH_TT_LOAD, 0, 0⟩
def Reg.UCH_TBL_STAT : Nat := 0x4002D548
def Fld.UCH_TBL_STAT_COUNT : Field := ⟨Reg.UCH_TBL_STAT, 31, 16⟩
def Fld.UCH_TBL_STAT_VERSION : Field := ⟨Reg.UCH_TBL_STAT, 15, 8⟩
def Fld.UCH_TBL_STAT_REASON : Field := ⟨Reg.UCH_TBL_STAT, 7, 4⟩
def Fld.UCH_TBL_STAT_ERR : Field := ⟨Reg.UCH_TBL_STAT, 3, 3⟩
def Fld.UCH_TBL_STAT_LOADING : Field := ⟨Reg.UCH_TBL_STAT, 2, 2⟩
def Reg.UCH_TC_CLAMP (i : Nat) : Nat := 0x4002D560 + i * 0x4
def Fld.UCH_TC_CLAMP_CH (i : Nat) : Field := ⟨(Reg.UCH_TC_CLAMP i), 31, 0⟩
/-! ### HARM -/
def Reg.HARM_CTRL : Nat := 0x4002E040
def Fld.HARM_CTRL_AGG : Field := ⟨Reg.HARM_CTRL, 4, 4⟩
def Fld.HARM_CTRL_GEN : Field := ⟨Reg.HARM_CTRL, 3, 0⟩
def Reg.HARM_THD_LIM : Nat := 0x4002E044
def Fld.HARM_THD_LIM_LIM : Field := ⟨Reg.HARM_THD_LIM, 15, 0⟩
def Reg.HARM_GRP_WIN (i : Nat) : Nat := 0x4002E050 + i * 0x10
def Fld.HARM_GRP_WIN_WIN (i : Nat) : Field := ⟨(Reg.HARM_GRP_WIN i), 31, 0⟩
def Reg.HARM_GRP_STAT (i : Nat) : Nat := 0x4002E054 + i * 0x10
def Fld.HARM_GRP_STAT_DISC (i : Nat) : Field := ⟨(Reg.HARM_GRP_STAT i), 31, 16⟩
def Fld.HARM_GRP_STAT_NCYC (i : Nat) : Field := ⟨(Reg.HARM_GRP_STAT i), 11, 8⟩
def Fld.HARM_GRP_STAT_ACTIVE (i : Nat) : Field := ⟨(Reg.HARM_GRP_STAT i), 1, 1⟩
def Fld.HARM_GRP_STAT_BUF (i : Nat) : Field := ⟨(Reg.HARM_GRP_STAT i), 0, 0⟩
def Reg.HARM_GRP_SHORT (i : Nat) : Nat := 0x4002E058 + i * 0x10
def Fld.HARM_GRP_SHORT_IDX (i : Nat) : Field := ⟨(Reg.HARM_GRP_SHORT i), 31, 0⟩
def Reg.HARM_GRP_TENMIN (i : Nat) : Nat := 0x4002E05C + i * 0x10
def Fld.HARM_GRP_TENMIN_IDX (i : Nat) : Field := ⟨(Reg.HARM_GRP_TENMIN i), 31, 0⟩
/-! ### PQE -/
def Reg.PQE_VG_CFG (i : Nat) : Nat := 0x4002F040 + i * 0x20
def Fld.PQE_VG_CFG_CHMASK (i : Nat) : Field := ⟨(Reg.PQE_VG_CFG i), 6, 4⟩
def Fld.PQE_VG_CFG_EN (i : Nat) : Field := ⟨(Reg.PQE_VG_CFG i), 0, 0⟩
def Reg.PQE_VG_UDIN (i : Nat) : Nat := 0x4002F044 + i * 0x20
def Fld.PQE_VG_UDIN_MV (i : Nat) : Field := ⟨(Reg.PQE_VG_UDIN i), 31, 0⟩
def Reg.PQE_VG_THR1 (i : Nat) : Nat := 0x4002F048 + i * 0x20
def Fld.PQE_VG_THR1_SWELL (i : Nat) : Field := ⟨(Reg.PQE_VG_THR1 i), 31, 16⟩
def Fld.PQE_VG_THR1_SAG (i : Nat) : Field := ⟨(Reg.PQE_VG_THR1 i), 15, 0⟩
def Reg.PQE_VG_THR2 (i : Nat) : Nat := 0x4002F04C + i * 0x20
def Fld.PQE_VG_THR2_HYST (i : Nat) : Field := ⟨(Reg.PQE_VG_THR2 i), 31, 16⟩
def Fld.PQE_VG_THR2_INTR (i : Nat) : Field := ⟨(Reg.PQE_VG_THR2 i), 15, 0⟩
def Reg.PQE_VG_NOW (i : Nat) : Nat := 0x4002F050 + i * 0x20
def Fld.PQE_VG_NOW_INTR (i : Nat) : Field := ⟨(Reg.PQE_VG_NOW i), 2, 2⟩
def Fld.PQE_VG_NOW_SWELL (i : Nat) : Field := ⟨(Reg.PQE_VG_NOW i), 1, 1⟩
def Fld.PQE_VG_NOW_SAG (i : Nat) : Field := ⟨(Reg.PQE_VG_NOW i), 0, 0⟩
def Reg.PQE_VG_EXT (i : Nat) : Nat := 0x4002F054 + i * 0x20
def Fld.PQE_VG_EXT_MV (i : Nat) : Field := ⟨(Reg.PQE_VG_EXT i), 31, 0⟩
def Reg.PQE_VG_CNT (i : Nat) : Nat := 0x4002F058 + i * 0x20
def Fld.PQE_VG_CNT_INTR (i : Nat) : Field := ⟨(Reg.PQE_VG_CNT i), 31, 24⟩
def Fld.PQE_VG_CNT_SWELL (i : Nat) : Field := ⟨(Reg.PQE_VG_CNT i), 23, 16⟩
def Fld.PQE_VG_CNT_SAG (i : Nat) : Field := ⟨(Reg.PQE_VG_CNT i), 15, 0⟩
def Reg.PQE_LIST_HEAD : Nat := 0x4002F0C0
def Fld.PQE_LIST_HEAD_TOTAL : Field := ⟨Reg.PQE_LIST_HEAD, 31, 8⟩
def Fld.PQE_LIST_HEAD_NEXT : Field := ⟨Reg.PQE_LIST_HEAD, 7, 0⟩
def Reg.PQE_CTRL : Nat := 0x4002F0C8
def Fld.PQE_CTRL_JRNL : Field := ⟨Reg.PQE_CTRL, 0, 0⟩
/-! ### BILL -/
def Reg.BILL_CFG : Nat := 0x40030040
def Fld.BILL_CFG_QK : Field := ⟨Reg.BILL_CFG, 18, 16⟩
def Fld.BILL_CFG_CPER : Field := ⟨Reg.BILL_CFG, 11, 0⟩
def Reg.BILL_PERIOD : Nat := 0x40030044
def Fld.BILL_PERIOD_KIND : Field := ⟨Reg.BILL_PERIOD, 31, 30⟩
def Fld.BILL_PERIOD_DAY : Field := ⟨Reg.BILL_PERIOD, 28, 24⟩
def Fld.BILL_PERIOD_HOUR : Field := ⟨Reg.BILL_PERIOD, 20, 16⟩
def Fld.BILL_PERIOD_MIN : Field := ⟨Reg.BILL_PERIOD, 5, 0⟩
def Reg.BILL_DEMAND : Nat := 0x40030048
def Fld.BILL_DEMAND_MODE : Field := ⟨Reg.BILL_DEMAND, 9, 8⟩
def Fld.BILL_DEMAND_NSUB : Field := ⟨Reg.BILL_DEMAND, 7, 4⟩
def Fld.BILL_DEMAND_LEN : Field := ⟨Reg.BILL_DEMAND, 2, 0⟩
def Reg.BILL_LAST_BOUNDARY : Nat := 0x4003004C
def Fld.BILL_LAST_BOUNDARY_MIN : Field := ⟨Reg.BILL_LAST_BOUNDARY, 31, 0⟩
def Reg.BILL_STAT : Nat := 0x40030050
def Fld.BILL_STAT_SNAP_NEXT : Field := ⟨Reg.BILL_STAT, 31, 24⟩
def Fld.BILL_STAT_RESTORED : Field := ⟨Reg.BILL_STAT, 5, 5⟩
def Fld.BILL_STAT_NOIMAGE : Field := ⟨Reg.BILL_STAT, 4, 4⟩
def Fld.BILL_STAT_BAD1 : Field := ⟨Reg.BILL_STAT, 3, 3⟩
def Fld.BILL_STAT_BAD0 : Field := ⟨Reg.BILL_STAT, 2, 2⟩
def Fld.BILL_STAT_BUSY : Field := ⟨Reg.BILL_STAT, 1, 1⟩
def Fld.BILL_STAT_BUF : Field := ⟨Reg.BILL_STAT, 0, 0⟩
def Reg.BILL_SEQ : Nat := 0x40030054
def Fld.BILL_SEQ_SEQ : Field := ⟨Reg.BILL_SEQ, 31, 0⟩
def Reg.BILL_CMD : Nat := 0x40030058
def Fld.BILL_CMD_OP : Field := ⟨Reg.BILL_CMD, 1, 0⟩
def Reg.BILL_JHEAD : Nat := 0x4003005C
def Fld.BILL_JHEAD_SEQ : Field := ⟨Reg.BILL_JHEAD, 31, 0⟩
def Reg.BILL_RSEL : Nat := 0x40030060
def Fld.BILL_RSEL_SNAP : Field := ⟨Reg.BILL_RSEL, 31, 31⟩
def Fld.BILL_RSEL_SLOT : Field := ⟨Reg.BILL_RSEL, 30, 26⟩
def Fld.BILL_RSEL_BP : Field := ⟨Reg.BILL_RSEL, 25, 20⟩
def Fld.BILL_RSEL_Q : Field := ⟨Reg.BILL_RSEL, 19, 16⟩
def Fld.BILL_RSEL_T : Field := ⟨Reg.BILL_RSEL, 15, 12⟩
def Reg.BILL_RVAL_LO : Nat := 0x40030064
def Fld.BILL_RVAL_LO_VAL : Field := ⟨Reg.BILL_RVAL_LO, 31, 0⟩
def Reg.BILL_RVAL_HI : Nat := 0x40030068
def Fld.BILL_RVAL_HI_VAL : Field := ⟨Reg.BILL_RVAL_HI, 31, 0⟩
def Reg.BILL_RREM_LO : Nat := 0x4003006C
def Fld.BILL_RREM_LO_REM : Field := ⟨Reg.BILL_RREM_LO, 31, 0⟩
def Reg.BILL_RREM_HI : Nat := 0x40030070
def Fld.BILL_RREM_HI_REM : Field := ⟨Reg.BILL_RREM_HI, 31, 0⟩
def Reg.BILL_RDISP_LO : Nat := 0x40030074
def Fld.BILL_RDISP_LO_WH : Field := ⟨Reg.BILL_RDISP_LO, 31, 0⟩
def Reg.BILL_RDISP_HI : Nat := 0x40030078
def Fld.BILL_RDISP_HI_WH : Field := ⟨Reg.BILL_RDISP_HI, 31, 0⟩
def Reg.BILL_RROLL : Nat := 0x4003007C
def Fld.BILL_RROLL_ROLL : Field := ⟨Reg.BILL_RROLL, 31, 0⟩
def Reg.BILL_DEM_NOW : Nat := 0x40030080
def Fld.BILL_DEM_NOW_W : Field := ⟨Reg.BILL_DEM_NOW, 31, 0⟩
def Reg.BILL_DEM_LAST : Nat := 0x40030084
def Fld.BILL_DEM_LAST_W : Field := ⟨Reg.BILL_DEM_LAST, 31, 0⟩
def Reg.BILL_DEM_MAX : Nat := 0x40030088
def Fld.BILL_DEM_MAX_W : Field := ⟨Reg.BILL_DEM_MAX, 31, 0⟩
def Reg.BILL_DEM_MAXT : Nat := 0x4003008C
def Fld.BILL_DEM_MAXT_MIN : Field := ⟨Reg.BILL_DEM_MAXT, 31, 0⟩
def Reg.BILL_JSEL (i : Nat) : Nat := 0x400300A0 + i * 0x4
def Fld.BILL_JSEL_EN (i : Nat) : Field := ⟨(Reg.BILL_JSEL i), 31, 31⟩
def Fld.BILL_JSEL_CODE (i : Nat) : Field := ⟨(Reg.BILL_JSEL i), 11, 0⟩
def Reg.BILL_BP_LANE (i : Nat) : Nat := 0x40030100 + i * 0x10
def Fld.BILL_BP_LANE_SLOTS (i : Nat) : Field := ⟨(Reg.BILL_BP_LANE i), 31, 0⟩
def Reg.BILL_BP_ROLE (i : Nat) : Nat := 0x40030104 + i * 0x10
def Fld.BILL_BP_ROLE_INV (i : Nat) : Field := ⟨(Reg.BILL_BP_ROLE i), 11, 8⟩
def Fld.BILL_BP_ROLE_ROLE (i : Nat) : Field := ⟨(Reg.BILL_BP_ROLE i), 7, 0⟩
def Reg.BILL_BP_CFG (i : Nat) : Nat := 0x40030108 + i * 0x10
def Fld.BILL_BP_CFG_EN (i : Nat) : Field := ⟨(Reg.BILL_BP_CFG i), 31, 31⟩
def Fld.BILL_BP_CFG_DIRPH (i : Nat) : Field := ⟨(Reg.BILL_BP_CFG i), 30, 30⟩
def Fld.BILL_BP_CFG_QSRC (i : Nat) : Field := ⟨(Reg.BILL_BP_CFG i), 29, 29⟩
def Fld.BILL_BP_CFG_VG (i : Nat) : Field := ⟨(Reg.BILL_BP_CFG i), 27, 26⟩
def Fld.BILL_BP_CFG_SCHED (i : Nat) : Field := ⟨(Reg.BILL_BP_CFG i), 25, 24⟩
def Fld.BILL_BP_CFG_DEMSRC (i : Nat) : Field := ⟨(Reg.BILL_BP_CFG i), 22, 20⟩
def Reg.BILL_BP_STAT (i : Nat) : Nat := 0x4003010C + i * 0x10
def Fld.BILL_BP_STAT_PENDING (i : Nat) : Field := ⟨(Reg.BILL_BP_STAT i), 11, 11⟩
def Fld.BILL_BP_STAT_RESTORED (i : Nat) : Field := ⟨(Reg.BILL_BP_STAT i), 10, 10⟩
def Fld.BILL_BP_STAT_ISOLATED (i : Nat) : Field := ⟨(Reg.BILL_BP_STAT i), 9, 9⟩
def Fld.BILL_BP_STAT_UNSEALED (i : Nat) : Field := ⟨(Reg.BILL_BP_STAT i), 8, 8⟩
def Fld.BILL_BP_STAT_LATE (i : Nat) : Field := ⟨(Reg.BILL_BP_STAT i), 7, 7⟩
def Fld.BILL_BP_STAT_CLOCK (i : Nat) : Field := ⟨(Reg.BILL_BP_STAT i), 6, 6⟩
def Fld.BILL_BP_STAT_PF (i : Nat) : Field := ⟨(Reg.BILL_BP_STAT i), 5, 5⟩
def Fld.BILL_BP_STAT_CLP (i : Nat) : Field := ⟨(Reg.BILL_BP_STAT i), 4, 4⟩
def Fld.BILL_BP_STAT_INJ (i : Nat) : Field := ⟨(Reg.BILL_BP_STAT i), 3, 3⟩
def Fld.BILL_BP_STAT_SUBST (i : Nat) : Field := ⟨(Reg.BILL_BP_STAT i), 2, 2⟩
def Fld.BILL_BP_STAT_UNVERIFIED (i : Nat) : Field := ⟨(Reg.BILL_BP_STAT i), 1, 1⟩
def Fld.BILL_BP_STAT_ACTIVE (i : Nat) : Field := ⟨(Reg.BILL_BP_STAT i), 0, 0⟩
/-! ### TARIFF -/
def Reg.TARIFF_SRC : Nat := 0x40031040
def Fld.TARIFF_SRC_ADDR : Field := ⟨Reg.TARIFF_SRC, 31, 0⟩
def Reg.TARIFF_LOAD : Nat := 0x40031044
def Fld.TARIFF_LOAD_GO : Field := ⟨Reg.TARIFF_LOAD, 0, 0⟩
def Reg.TARIFF_TBL_STAT : Nat := 0x40031048
def Fld.TARIFF_TBL_STAT_COUNT : Field := ⟨Reg.TARIFF_TBL_STAT, 31, 16⟩
def Fld.TARIFF_TBL_STAT_VERSION : Field := ⟨Reg.TARIFF_TBL_STAT, 15, 8⟩
def Fld.TARIFF_TBL_STAT_REASON : Field := ⟨Reg.TARIFF_TBL_STAT, 7, 4⟩
def Fld.TARIFF_TBL_STAT_ERR : Field := ⟨Reg.TARIFF_TBL_STAT, 3, 3⟩
def Fld.TARIFF_TBL_STAT_LOADING : Field := ⟨Reg.TARIFF_TBL_STAT, 2, 2⟩
def Reg.TARIFF_NOW (i : Nat) : Nat := 0x40031050 + i * 0x4
def Fld.TARIFF_NOW_HELD (i : Nat) : Field := ⟨(Reg.TARIFF_NOW i), 13, 13⟩
def Fld.TARIFF_NOW_SPECIAL (i : Nat) : Field := ⟨(Reg.TARIFF_NOW i), 12, 12⟩
def Fld.TARIFF_NOW_DAYTYPE (i : Nat) : Field := ⟨(Reg.TARIFF_NOW i), 10, 8⟩
def Fld.TARIFF_NOW_SEASON (i : Nat) : Field := ⟨(Reg.TARIFF_NOW i), 6, 4⟩
def Fld.TARIFF_NOW_TAR (i : Nat) : Field := ⟨(Reg.TARIFF_NOW i), 2, 0⟩
def Reg.TARIFF_NEXT (i : Nat) : Nat := 0x40031060 + i * 0x4
def Fld.TARIFF_NEXT_MIN (i : Nat) : Field := ⟨(Reg.TARIFF_NEXT i), 31, 0⟩
/-! ### PREPAY -/
def Reg.PREPAY_TOKEN (i : Nat) : Nat := 0x40032040 + i * 0x4
def Fld.PREPAY_TOKEN_DATA (i : Nat) : Field := ⟨(Reg.PREPAY_TOKEN i), 31, 0⟩
def Reg.PREPAY_TCMD : Nat := 0x40032060
def Fld.PREPAY_TCMD_COMMIT : Field := ⟨Reg.PREPAY_TCMD, 1, 1⟩
def Fld.PREPAY_TCMD_GO : Field := ⟨Reg.PREPAY_TCMD, 0, 0⟩
def Reg.PREPAY_TSTAT : Nat := 0x40032064
def Fld.PREPAY_TSTAT_REASON : Field := ⟨Reg.PREPAY_TSTAT, 31, 28⟩
def Fld.PREPAY_TSTAT_BP : Field := ⟨Reg.PREPAY_TSTAT, 27, 22⟩
def Fld.PREPAY_TSTAT_DONE : Field := ⟨Reg.PREPAY_TSTAT, 1, 1⟩
def Fld.PREPAY_TSTAT_BUSY : Field := ⟨Reg.PREPAY_TSTAT, 0, 0⟩
def Reg.PREPAY_TID_LAST : Nat := 0x40032068
def Fld.PREPAY_TID_LAST_H : Field := ⟨Reg.PREPAY_TID_LAST, 31, 0⟩
def Reg.PREPAY_CMD : Nat := 0x4003206C
def Fld.PREPAY_CMD_BP : Field := ⟨Reg.PREPAY_CMD, 21, 16⟩
def Fld.PREPAY_CMD_OP : Field := ⟨Reg.PREPAY_CMD, 1, 0⟩
def Reg.PREPAY_STAT : Nat := 0x40032070
def Fld.PREPAY_STAT_TOKENS : Field := ⟨Reg.PREPAY_STAT, 31, 16⟩
def Fld.PREPAY_STAT_NOPRICE : Field := ⟨Reg.PREPAY_STAT, 1, 1⟩
def Fld.PREPAY_STAT_NOKEY : Field := ⟨Reg.PREPAY_STAT, 0, 0⟩
def Reg.PREPAY_BP_CFG (i : Nat) : Nat := 0x40032100 + i * 0x10
def Fld.PREPAY_BP_CFG_EN (i : Nat) : Field := ⟨(Reg.PREPAY_BP_CFG i), 31, 31⟩
def Fld.PREPAY_BP_CFG_UNIT (i : Nat) : Field := ⟨(Reg.PREPAY_BP_CFG i), 30, 30⟩
def Fld.PREPAY_BP_CFG_AUTOARM (i : Nat) : Field := ⟨(Reg.PREPAY_BP_CFG i), 29, 29⟩
def Fld.PREPAY_BP_CFG_EXPCR (i : Nat) : Field := ⟨(Reg.PREPAY_BP_CFG i), 28, 28⟩
def Reg.PREPAY_BP_CREDIT_LO (i : Nat) : Nat := 0x40032104 + i * 0x10
def Fld.PREPAY_BP_CREDIT_LO_C (i : Nat) : Field := ⟨(Reg.PREPAY_BP_CREDIT_LO i), 31, 0⟩
def Reg.PREPAY_BP_CREDIT_HI (i : Nat) : Nat := 0x40032108 + i * 0x10
def Fld.PREPAY_BP_CREDIT_HI_C (i : Nat) : Field := ⟨(Reg.PREPAY_BP_CREDIT_HI i), 31, 0⟩
def Reg.PREPAY_BP_STATE (i : Nat) : Nat := 0x4003210C + i * 0x10
def Fld.PREPAY_BP_STATE_NOPRICE (i : Nat) : Field := ⟨(Reg.PREPAY_BP_STATE i), 5, 5⟩
def Fld.PREPAY_BP_STATE_DEFER (i : Nat) : Field := ⟨(Reg.PREPAY_BP_STATE i), 4, 4⟩
def Fld.PREPAY_BP_STATE_ECACC (i : Nat) : Field := ⟨(Reg.PREPAY_BP_STATE i), 3, 3⟩
def Fld.PREPAY_BP_STATE_STATE (i : Nat) : Field := ⟨(Reg.PREPAY_BP_STATE i), 2, 0⟩
/-! ### DISC -/
def Reg.DISC_CTRL : Nat := 0x40033040
def Fld.DISC_CTRL_DEFGAP : Field := ⟨Reg.DISC_CTRL, 23, 16⟩
def Fld.DISC_CTRL_SETTLE : Field := ⟨Reg.DISC_CTRL, 15, 8⟩
def Reg.DISC_CHAIN : Nat := 0x40033044
def Fld.DISC_CHAIN_CEN : Field := ⟨Reg.DISC_CHAIN, 31, 31⟩
def Fld.DISC_CHAIN_OEG : Field := ⟨Reg.DISC_CHAIN, 28, 24⟩
def Fld.DISC_CHAIN_OE_EN : Field := ⟨Reg.DISC_CHAIN, 23, 23⟩
def Fld.DISC_CHAIN_OE_POL : Field := ⟨Reg.DISC_CHAIN, 22, 22⟩
def Fld.DISC_CHAIN_DIV : Field := ⟨Reg.DISC_CHAIN, 15, 8⟩
def Fld.DISC_CHAIN_PER : Field := ⟨Reg.DISC_CHAIN, 7, 0⟩
def Reg.DISC_CMD : Nat := 0x40033048
def Fld.DISC_CMD_BYBP : Field := ⟨Reg.DISC_CMD, 15, 15⟩
def Fld.DISC_CMD_TARGET : Field := ⟨Reg.DISC_CMD, 13, 8⟩
def Fld.DISC_CMD_OP : Field := ⟨Reg.DISC_CMD, 2, 0⟩
def Reg.DISC_STAT : Nat := 0x4003304C
def Fld.DISC_STAT_QUEUED : Field := ⟨Reg.DISC_STAT, 31, 24⟩
def Fld.DISC_STAT_CHAIN_OK : Field := ⟨Reg.DISC_STAT, 1, 1⟩
def Fld.DISC_STAT_BUSY : Field := ⟨Reg.DISC_STAT, 0, 0⟩
def Reg.DISC_OPEN_LO : Nat := 0x40033050
def Fld.DISC_OPEN_LO_OPEN : Field := ⟨Reg.DISC_OPEN_LO, 31, 0⟩
def Reg.DISC_OPEN_HI : Nat := 0x40033054
def Fld.DISC_OPEN_HI_OPEN : Field := ⟨Reg.DISC_OPEN_HI, 31, 0⟩
def Reg.DISC_FB_LO : Nat := 0x40033058
def Fld.DISC_FB_LO_FB : Field := ⟨Reg.DISC_FB_LO, 31, 0⟩
def Reg.DISC_FB_HI : Nat := 0x4003305C
def Fld.DISC_FB_HI_FB : Field := ⟨Reg.DISC_FB_HI, 31, 0⟩
def Reg.DISC_FAULT_LO : Nat := 0x40033060
def Fld.DISC_FAULT_LO_FAULT : Field := ⟨Reg.DISC_FAULT_LO, 31, 0⟩
def Reg.DISC_FAULT_HI : Nat := 0x40033064
def Fld.DISC_FAULT_HI_FAULT : Field := ⟨Reg.DISC_FAULT_HI, 31, 0⟩
def Reg.DISC_WEAR_LIM : Nat := 0x40033068
def Fld.DISC_WEAR_LIM_OPS_K : Field := ⟨Reg.DISC_WEAR_LIM, 31, 16⟩
def Fld.DISC_WEAR_LIM_IBRK_KA : Field := ⟨Reg.DISC_WEAR_LIM, 15, 0⟩
def Reg.DISC_SRC : Nat := 0x40033070
def Fld.DISC_SRC_ADDR : Field := ⟨Reg.DISC_SRC, 31, 0⟩
def Reg.DISC_LOAD : Nat := 0x40033074
def Fld.DISC_LOAD_GO : Field := ⟨Reg.DISC_LOAD, 0, 0⟩
def Reg.DISC_TBL_STAT : Nat := 0x40033078
def Fld.DISC_TBL_STAT_COUNT : Field := ⟨Reg.DISC_TBL_STAT, 31, 16⟩
def Fld.DISC_TBL_STAT_VERSION : Field := ⟨Reg.DISC_TBL_STAT, 15, 8⟩
def Fld.DISC_TBL_STAT_REASON : Field := ⟨Reg.DISC_TBL_STAT, 7, 4⟩
def Fld.DISC_TBL_STAT_ERR : Field := ⟨Reg.DISC_TBL_STAT, 3, 3⟩
def Fld.DISC_TBL_STAT_LOADING : Field := ⟨Reg.DISC_TBL_STAT, 2, 2⟩
def Reg.DISC_TRIP (i : Nat) : Nat := 0x40033080 + i * 0x4
def Fld.DISC_TRIP_EN (i : Nat) : Field := ⟨(Reg.DISC_TRIP i), 31, 31⟩
def Fld.DISC_TRIP_DP (i : Nat) : Field := ⟨(Reg.DISC_TRIP i), 29, 24⟩
def Fld.DISC_TRIP_CODE (i : Nat) : Field := ⟨(Reg.DISC_TRIP i), 11, 0⟩
def Reg.DISC_DP_CFG (i : Nat) : Nat := 0x40033100 + i * 0x10
def Fld.DISC_DP_CFG_EN (i : Nat) : Field := ⟨(Reg.DISC_DP_CFG i), 31, 31⟩
def Fld.DISC_DP_CFG_POL (i : Nat) : Field := ⟨(Reg.DISC_DP_CFG i), 30, 30⟩
def Fld.DISC_DP_CFG_LOCAL (i : Nat) : Field := ⟨(Reg.DISC_DP_CFG i), 29, 29⟩
def Fld.DISC_DP_CFG_BPEN (i : Nat) : Field := ⟨(Reg.DISC_DP_CFG i), 28, 28⟩
def Fld.DISC_DP_CFG_BP (i : Nat) : Field := ⟨(Reg.DISC_DP_CFG i), 27, 22⟩
def Fld.DISC_DP_CFG_FBEN (i : Nat) : Field := ⟨(Reg.DISC_DP_CFG i), 21, 21⟩
def Fld.DISC_DP_CFG_FBPOL (i : Nat) : Field := ⟨(Reg.DISC_DP_CFG i), 20, 20⟩
def Fld.DISC_DP_CFG_LANE (i : Nat) : Field := ⟨(Reg.DISC_DP_CFG i), 15, 8⟩
def Reg.DISC_DP_STAT (i : Nat) : Nat := 0x40033104 + i * 0x10
def Fld.DISC_DP_STAT_TRANS (i : Nat) : Field := ⟨(Reg.DISC_DP_STAT i), 31, 16⟩
def Fld.DISC_DP_STAT_FCODE (i : Nat) : Field := ⟨(Reg.DISC_DP_STAT i), 11, 8⟩
def Fld.DISC_DP_STAT_CAUSE (i : Nat) : Field := ⟨(Reg.DISC_DP_STAT i), 7, 4⟩
def Fld.DISC_DP_STAT_STATE (i : Nat) : Field := ⟨(Reg.DISC_DP_STAT i), 2, 0⟩
def Reg.DISC_DP_OPS (i : Nat) : Nat := 0x40033108 + i * 0x10
def Fld.DISC_DP_OPS_N (i : Nat) : Field := ⟨(Reg.DISC_DP_OPS i), 31, 0⟩
def Reg.DISC_DP_IBRK (i : Nat) : Nat := 0x4003310C + i * 0x10
def Fld.DISC_DP_IBRK_DA (i : Nat) : Field := ⟨(Reg.DISC_DP_IBRK i), 31, 0⟩
/-! ### PULSE -/
def Reg.PULSE_CTRL : Nat := 0x40034040
def Fld.PULSE_CTRL_CAL_MIN : Field := ⟨Reg.PULSE_CTRL, 23, 16⟩
def Fld.PULSE_CTRL_CAL_MASK : Field := ⟨Reg.PULSE_CTRL, 15, 8⟩
def Reg.PULSE_STAT : Nat := 0x40034044
def Fld.PULSE_STAT_CAL_LEFT : Field := ⟨Reg.PULSE_STAT, 31, 16⟩
def Fld.PULSE_STAT_OVR : Field := ⟨Reg.PULSE_STAT, 15, 8⟩
def Fld.PULSE_STAT_ON : Field := ⟨Reg.PULSE_STAT, 7, 0⟩
def Reg.PULSE_CH_CFG (i : Nat) : Nat := 0x40034080 + i * 0x10
def Fld.PULSE_CH_CFG_EN (i : Nat) : Field := ⟨(Reg.PULSE_CH_CFG i), 31, 31⟩
def Fld.PULSE_CH_CFG_KIND (i : Nat) : Field := ⟨(Reg.PULSE_CH_CFG i), 30, 29⟩
def Fld.PULSE_CH_CFG_QTY (i : Nat) : Field := ⟨(Reg.PULSE_CH_CFG i), 28, 24⟩
def Fld.PULSE_CH_CFG_SEL (i : Nat) : Field := ⟨(Reg.PULSE_CH_CFG i), 23, 16⟩
def Fld.PULSE_CH_CFG_WIDTH (i : Nat) : Field := ⟨(Reg.PULSE_CH_CFG i), 15, 8⟩
def Reg.PULSE_CH_CONST (i : Nat) : Nat := 0x40034084 + i * 0x10
def Fld.PULSE_CH_CONST_IMP (i : Nat) : Field := ⟨(Reg.PULSE_CH_CONST i), 31, 0⟩
def Reg.PULSE_CH_BACKLOG (i : Nat) : Nat := 0x40034088 + i * 0x10
def Fld.PULSE_CH_BACKLOG_N (i : Nat) : Field := ⟨(Reg.PULSE_CH_BACKLOG i), 15, 0⟩
def Reg.PULSE_CH_COUNT (i : Nat) : Nat := 0x4003408C + i * 0x10
def Fld.PULSE_CH_COUNT_N (i : Nat) : Field := ⟨(Reg.PULSE_CH_COUNT i), 31, 0⟩
/-! ### DISP -/
def Reg.DISP_CTRL : Nat := 0x40035040
def Fld.DISP_CTRL_HOLD : Field := ⟨Reg.DISP_CTRL, 31, 24⟩
def Fld.DISP_CTRL_SELTO : Field := ⟨Reg.DISP_CTRL, 23, 16⟩
def Fld.DISP_CTRL_DIV : Field := ⟨Reg.DISP_CTRL, 15, 8⟩
def Fld.DISP_CTRL_CSPOL : Field := ⟨Reg.DISP_CTRL, 0, 0⟩
def Reg.DISP_SRC : Nat := 0x40035044
def Fld.DISP_SRC_ADDR : Field := ⟨Reg.DISP_SRC, 31, 0⟩
def Reg.DISP_LOAD : Nat := 0x40035048
def Fld.DISP_LOAD_GO : Field := ⟨Reg.DISP_LOAD, 0, 0⟩
def Reg.DISP_TBL_STAT : Nat := 0x4003504C
def Fld.DISP_TBL_STAT_COUNT : Field := ⟨Reg.DISP_TBL_STAT, 31, 16⟩
def Fld.DISP_TBL_STAT_VERSION : Field := ⟨Reg.DISP_TBL_STAT, 15, 8⟩
def Fld.DISP_TBL_STAT_REASON : Field := ⟨Reg.DISP_TBL_STAT, 7, 4⟩
def Fld.DISP_TBL_STAT_ERR : Field := ⟨Reg.DISP_TBL_STAT, 3, 3⟩
def Fld.DISP_TBL_STAT_LOADING : Field := ⟨Reg.DISP_TBL_STAT, 2, 2⟩
def Reg.DISP_STAT : Nat := 0x40035050
def Fld.DISP_STAT_PAGE : Field := ⟨Reg.DISP_STAT, 31, 24⟩
def Fld.DISP_STAT_SELBP : Field := ⟨Reg.DISP_STAT, 23, 16⟩
def Fld.DISP_STAT_FROZEN : Field := ⟨Reg.DISP_STAT, 2, 2⟩
def Fld.DISP_STAT_BTN1 : Field := ⟨Reg.DISP_STAT, 1, 1⟩
def Fld.DISP_STAT_BTN0 : Field := ⟨Reg.DISP_STAT, 0, 0⟩
def Reg.DISP_CMD : Nat := 0x40035054
def Fld.DISP_CMD_BP : Field := ⟨Reg.DISP_CMD, 21, 16⟩
def Fld.DISP_CMD_OP : Field := ⟨Reg.DISP_CMD, 1, 0⟩
/-! ### PLCPHY -/
def Reg.PLCPHY_CTRL : Nat := 0x40036040
def Fld.PLCPHY_CTRL_LAG : Field := ⟨Reg.PLCPHY_CTRL, 31, 24⟩
def Fld.PLCPHY_CTRL_LEAD : Field := ⟨Reg.PLCPHY_CTRL, 23, 16⟩
def Fld.PLCPHY_CTRL_RXMASK : Field := ⟨Reg.PLCPHY_CTRL, 10, 8⟩
def Fld.PLCPHY_CTRL_COUPLE : Field := ⟨Reg.PLCPHY_CTRL, 5, 4⟩
def Fld.PLCPHY_CTRL_TXEN : Field := ⟨Reg.PLCPHY_CTRL, 0, 0⟩
def Reg.PLCPHY_TXLVL : Nat := 0x40036044
def Fld.PLCPHY_TXLVL_ATTEN : Field := ⟨Reg.PLCPHY_TXLVL, 4, 0⟩
def Reg.PLCPHY_BP_SRC : Nat := 0x40036048
def Fld.PLCPHY_BP_SRC_ADDR : Field := ⟨Reg.PLCPHY_BP_SRC, 31, 0⟩
def Reg.PLCPHY_BP_LOAD : Nat := 0x4003604C
def Fld.PLCPHY_BP_LOAD_OVERRIDE : Field := ⟨Reg.PLCPHY_BP_LOAD, 1, 1⟩
def Fld.PLCPHY_BP_LOAD_GO : Field := ⟨Reg.PLCPHY_BP_LOAD, 0, 0⟩
def Reg.PLCPHY_TBL_STAT : Nat := 0x40036050
def Fld.PLCPHY_TBL_STAT_COUNT : Field := ⟨Reg.PLCPHY_TBL_STAT, 31, 16⟩
def Fld.PLCPHY_TBL_STAT_VERSION : Field := ⟨Reg.PLCPHY_TBL_STAT, 15, 8⟩
def Fld.PLCPHY_TBL_STAT_REASON : Field := ⟨Reg.PLCPHY_TBL_STAT, 7, 4⟩
def Fld.PLCPHY_TBL_STAT_ERR : Field := ⟨Reg.PLCPHY_TBL_STAT, 3, 3⟩
def Fld.PLCPHY_TBL_STAT_LOADING : Field := ⟨Reg.PLCPHY_TBL_STAT, 2, 2⟩
def Reg.PLCPHY_BP_INFO : Nat := 0x40036054
def Fld.PLCPHY_BP_INFO_PLAN_ID : Field := ⟨Reg.PLCPHY_BP_INFO, 31, 16⟩
def Fld.PLCPHY_BP_INFO_NDATA : Field := ⟨Reg.PLCPHY_BP_INFO, 10, 0⟩
def Reg.PLCPHY_STAT : Nat := 0x40036058
def Fld.PLCPHY_STAT_NOPLAN : Field := ⟨Reg.PLCPHY_STAT, 5, 5⟩
def Fld.PLCPHY_STAT_BLOCKED : Field := ⟨Reg.PLCPHY_STAT, 4, 4⟩
def Fld.PLCPHY_STAT_PLDEN : Field := ⟨Reg.PLCPHY_STAT, 3, 3⟩
def Fld.PLCPHY_STAT_AGC_SAT : Field := ⟨Reg.PLCPHY_STAT, 2, 2⟩
def Fld.PLCPHY_STAT_RX : Field := ⟨Reg.PLCPHY_STAT, 1, 1⟩
def Fld.PLCPHY_STAT_TX : Field := ⟨Reg.PLCPHY_STAT, 0, 0⟩
def Reg.PLCPHY_SNRA : Nat := 0x4003605C
def Fld.PLCPHY_SNRA_SNR : Field := ⟨Reg.PLCPHY_SNRA, 15, 0⟩
def Reg.PLCPHY_SNRB : Nat := 0x40036060
def Fld.PLCPHY_SNRB_SNR : Field := ⟨Reg.PLCPHY_SNRB, 15, 0⟩
def Reg.PLCPHY_SNRC : Nat := 0x40036064
def Fld.PLCPHY_SNRC_SNR : Field := ⟨Reg.PLCPHY_SNRC, 15, 0⟩
def Reg.PLCPHY_BLANKED : Nat := 0x40036068
def Fld.PLCPHY_BLANKED_N : Field := ⟨Reg.PLCPHY_BLANKED, 31, 0⟩
def Reg.PLCPHY_ERASED : Nat := 0x4003606C
def Fld.PLCPHY_ERASED_N : Field := ⟨Reg.PLCPHY_ERASED, 31, 0⟩
def Reg.PLCPHY_CNT_ERR : Nat := 0x40036070
def Fld.PLCPHY_CNT_ERR_FCERR : Field := ⟨Reg.PLCPHY_CNT_ERR, 31, 16⟩
def Fld.PLCPHY_CNT_ERR_LENERR : Field := ⟨Reg.PLCPHY_CNT_ERR, 15, 0⟩
def Reg.PLCPHY_CNT_CRC : Nat := 0x40036074
def Fld.PLCPHY_CNT_CRC_PLANERR : Field := ⟨Reg.PLCPHY_CNT_CRC, 31, 16⟩
def Fld.PLCPHY_CNT_CRC_CRCERR : Field := ⟨Reg.PLCPHY_CNT_CRC, 15, 0⟩
/-! ### PLCMAC -/
def Reg.PLCMAC_CFG : Nat := 0x40037040
def Fld.PLCMAC_CFG_PHEN : Field := ⟨Reg.PLCMAC_CFG, 14, 14⟩
def Fld.PLCMAC_CFG_PHREF : Field := ⟨Reg.PLCMAC_CFG, 13, 12⟩
def Fld.PLCMAC_CFG_ADDR : Field := ⟨Reg.PLCMAC_CFG, 11, 0⟩
def Reg.PLCMAC_TM_CFG : Nat := 0x40037044
def Fld.PLCMAC_TM_CFG_GILONG : Field := ⟨Reg.PLCMAC_TM_CFG, 20, 20⟩
def Fld.PLCMAC_TM_CFG_MARGIN : Field := ⟨Reg.PLCMAC_TM_CFG, 19, 16⟩
def Fld.PLCMAC_TM_CFG_SPAN : Field := ⟨Reg.PLCMAC_TM_CFG, 12, 8⟩
def Fld.PLCMAC_TM_CFG_KB : Field := ⟨Reg.PLCMAC_TM_CFG, 7, 3⟩
def Fld.PLCMAC_TM_CFG_NOISE : Field := ⟨Reg.PLCMAC_TM_CFG, 2, 2⟩
def Fld.PLCMAC_TM_CFG_RATE : Field := ⟨Reg.PLCMAC_TM_CFG, 1, 0⟩
def Reg.PLCMAC_REFRESH : Nat := 0x40037048
def Fld.PLCMAC_REFRESH_FERPCT : Field := ⟨Reg.PLCMAC_REFRESH, 31, 24⟩
def Fld.PLCMAC_REFRESH_DROP : Field := ⟨Reg.PLCMAC_REFRESH, 23, 16⟩
def Fld.PLCMAC_REFRESH_PERIOD : Field := ⟨Reg.PLCMAC_REFRESH, 15, 0⟩
def Reg.PLCMAC_NBCFG : Nat := 0x4003704C
def Fld.PLCMAC_NBCFG_AGE : Field := ⟨Reg.PLCMAC_NBCFG, 15, 0⟩
def Reg.PLCMAC_CNT_TX : Nat := 0x40037050
def Fld.PLCMAC_CNT_TX_N : Field := ⟨Reg.PLCMAC_CNT_TX, 31, 0⟩
def Reg.PLCMAC_CNT_RETX : Nat := 0x40037054
def Fld.PLCMAC_CNT_RETX_LASTING : Field := ⟨Reg.PLCMAC_CNT_RETX, 31, 16⟩
def Fld.PLCMAC_CNT_RETX_TRANS : Field := ⟨Reg.PLCMAC_CNT_RETX, 15, 0⟩
def Reg.PLCMAC_CNT_B4 : Nat := 0x40037058
def Fld.PLCMAC_CNT_B4_N : Field := ⟨Reg.PLCMAC_CNT_B4, 15, 0⟩
def Reg.PLCMAC_NB_FULL : Nat := 0x4003705C
def Fld.PLCMAC_NB_FULL_N : Field := ⟨Reg.PLCMAC_NB_FULL, 15, 0⟩
def Reg.PLCMAC_NB_INFO (i : Nat) : Nat := 0x40037100 + i * 0x20
def Fld.PLCMAC_NB_INFO_VALID (i : Nat) : Field := ⟨(Reg.PLCMAC_NB_INFO i), 31, 31⟩
def Fld.PLCMAC_NB_INFO_PHASE (i : Nat) : Field := ⟨(Reg.PLCMAC_NB_INFO i), 30, 28⟩
def Fld.PLCMAC_NB_INFO_ADDR (i : Nat) : Field := ⟨(Reg.PLCMAC_NB_INFO i), 27, 16⟩
def Fld.PLCMAC_NB_INFO_NPH (i : Nat) : Field := ⟨(Reg.PLCMAC_NB_INFO i), 15, 8⟩
def Reg.PLCMAC_NB_ANG (i : Nat) : Nat := 0x40037104 + i * 0x20
def Fld.PLCMAC_NB_ANG_ANG (i : Nat) : Field := ⟨(Reg.PLCMAC_NB_ANG i), 15, 0⟩
def Reg.PLCMAC_NB_TM (i : Nat) : Nat := 0x40037108 + i * 0x20
def Fld.PLCMAC_NB_TM_RXTMI (i : Nat) : Field := ⟨(Reg.PLCMAC_NB_TM i), 23, 20⟩
def Fld.PLCMAC_NB_TM_TXTMI (i : Nat) : Field := ⟨(Reg.PLCMAC_NB_TM i), 19, 16⟩
def Fld.PLCMAC_NB_TM_NBITS (i : Nat) : Field := ⟨(Reg.PLCMAC_NB_TM i), 15, 0⟩
def Reg.PLCMAC_NB_RATE (i : Nat) : Nat := 0x4003710C + i * 0x20
def Fld.PLCMAC_NB_RATE_KBPS (i : Nat) : Field := ⟨(Reg.PLCMAC_NB_RATE i), 31, 0⟩
def Reg.PLCMAC_NB_LINK (i : Nat) : Nat := 0x40037110 + i * 0x20
def Fld.PLCMAC_NB_LINK_FER (i : Nat) : Field := ⟨(Reg.PLCMAC_NB_LINK i), 31, 24⟩
def Fld.PLCMAC_NB_LINK_SNR (i : Nat) : Field := ⟨(Reg.PLCMAC_NB_LINK i), 15, 0⟩
def Reg.PLCMAC_NB_HEARD (i : Nat) : Nat := 0x40037114 + i * 0x20
def Fld.PLCMAC_NB_HEARD_S (i : Nat) : Field := ⟨(Reg.PLCMAC_NB_HEARD i), 31, 0⟩
/-! ### MESH -/
def Reg.MESH_CFG : Nat := 0x40038040
def Fld.MESH_CFG_EN : Field := ⟨Reg.MESH_CFG, 31, 31⟩
def Fld.MESH_CFG_ROOT : Field := ⟨Reg.MESH_CFG, 30, 30⟩
def Fld.MESH_CFG_STATIC : Field := ⟨Reg.MESH_CFG, 29, 29⟩
def Fld.MESH_CFG_HOPLIM : Field := ⟨Reg.MESH_CFG, 23, 16⟩
def Fld.MESH_CFG_EPOCH : Field := ⟨Reg.MESH_CFG, 15, 8⟩
def Reg.MESH_NETID : Nat := 0x40038044
def Fld.MESH_NETID_ID : Field := ⟨Reg.MESH_NETID, 15, 0⟩
def Reg.MESH_TIMERS : Nat := 0x40038048
def Fld.MESH_TIMERS_ADV : Field := ⟨Reg.MESH_TIMERS, 31, 20⟩
def Fld.MESH_TIMERS_BCN : Field := ⟨Reg.MESH_TIMERS, 19, 12⟩
def Fld.MESH_TIMERS_NTLOSS : Field := ⟨Reg.MESH_TIMERS, 7, 0⟩
def Reg.MESH_STAT : Nat := 0x4003804C
def Fld.MESH_STAT_PARENT : Field := ⟨Reg.MESH_STAT, 27, 16⟩
def Fld.MESH_STAT_NOKEY : Field := ⟨Reg.MESH_STAT, 5, 5⟩
def Fld.MESH_STAT_ADDRCONF : Field := ⟨Reg.MESH_STAT, 4, 4⟩
def Fld.MESH_STAT_DEMOTED : Field := ⟨Reg.MESH_STAT, 3, 3⟩
def Fld.MESH_STAT_JOIN : Field := ⟨Reg.MESH_STAT, 2, 0⟩
def Reg.MESH_ROOTMET : Nat := 0x40038050
def Fld.MESH_ROOTMET_HOPS : Field := ⟨Reg.MESH_ROOTMET, 31, 24⟩
def Fld.MESH_ROOTMET_METRIC : Field := ⟨Reg.MESH_ROOTMET, 23, 0⟩
def Reg.MESH_ROUTES : Nat := 0x40038054
def Fld.MESH_ROUTES_SEQ : Field := ⟨Reg.MESH_ROUTES, 31, 16⟩
def Fld.MESH_ROUTES_N : Field := ⟨Reg.MESH_ROUTES, 12, 0⟩
def Reg.MESH_RQ : Nat := 0x40038058
def Fld.MESH_RQ_DEST : Field := ⟨Reg.MESH_RQ, 11, 0⟩
def Reg.MESH_RQ_RES : Nat := 0x4003805C
def Fld.MESH_RQ_RES_VALID : Field := ⟨Reg.MESH_RQ_RES, 31, 31⟩
def Fld.MESH_RQ_RES_NEXT : Field := ⟨Reg.MESH_RQ_RES, 27, 16⟩
def Fld.MESH_RQ_RES_HOPS : Field := ⟨Reg.MESH_RQ_RES, 15, 8⟩
def Reg.MESH_RQ_MET : Nat := 0x40038060
def Fld.MESH_RQ_MET_SEQ : Field := ⟨Reg.MESH_RQ_MET, 31, 16⟩
def Reg.MESH_NT_LO : Nat := 0x40038064
def Fld.MESH_NT_LO_NT : Field := ⟨Reg.MESH_NT_LO, 31, 0⟩
def Reg.MESH_NT_HI : Nat := 0x40038068
def Fld.MESH_NT_HI_WRAPS : Field := ⟨Reg.MESH_NT_HI, 31, 0⟩
def Reg.MESH_NT_STAT : Nat := 0x4003806C
def Fld.MESH_NT_STAT_OFS : Field := ⟨Reg.MESH_NT_STAT, 31, 16⟩
def Fld.MESH_NT_STAT_STATE : Field := ⟨Reg.MESH_NT_STAT, 2, 0⟩
def Reg.MESH_NT_RATE : Nat := 0x40038070
def Fld.MESH_NT_RATE_RATE : Field := ⟨Reg.MESH_NT_RATE, 31, 0⟩
def Reg.MESH_NT_SET : Nat := 0x40038074
def Fld.MESH_NT_SET_VAL : Field := ⟨Reg.MESH_NT_SET, 31, 0⟩
def Reg.MESH_CNT_FWD : Nat := 0x40038078
def Fld.MESH_CNT_FWD_N : Field := ⟨Reg.MESH_CNT_FWD, 31, 0⟩
def Reg.MESH_CNT_DROP : Nat := 0x4003807C
def Fld.MESH_CNT_DROP_NOROUTE : Field := ⟨Reg.MESH_CNT_DROP, 31, 16⟩
def Fld.MESH_CNT_DROP_HOPLIM : Field := ⟨Reg.MESH_CNT_DROP, 15, 0⟩
def Reg.MESH_CNT_SEC : Nat := 0x40038080
def Fld.MESH_CNT_SEC_REPLAY : Field := ⟨Reg.MESH_CNT_SEC, 31, 16⟩
def Fld.MESH_CNT_SEC_AUTHFAIL : Field := ⟨Reg.MESH_CNT_SEC, 15, 0⟩
def Reg.MESH_CNT_BUF : Nat := 0x40038084
def Fld.MESH_CNT_BUF_NOBUF : Field := ⟨Reg.MESH_CNT_BUF, 15, 0⟩
def Reg.MESH_CMD : Nat := 0x40038088
def Fld.MESH_CMD_OP : Field := ⟨Reg.MESH_CMD, 1, 0⟩
/-! ### ETH -/
def Reg.ETH_CTRL : Nat := 0x40039040
def Fld.ETH_CTRL_BCAST : Field := ⟨Reg.ETH_CTRL, 6, 6⟩
def Fld.ETH_CTRL_PAUSE : Field := ⟨Reg.ETH_CTRL, 5, 5⟩
def Fld.ETH_CTRL_PROMISC : Field := ⟨Reg.ETH_CTRL, 4, 4⟩
def Fld.ETH_CTRL_FDX : Field := ⟨Reg.ETH_CTRL, 3, 3⟩
def Fld.ETH_CTRL_SPEED100 : Field := ⟨Reg.ETH_CTRL, 2, 2⟩
def Fld.ETH_CTRL_TXEN : Field := ⟨Reg.ETH_CTRL, 1, 1⟩
def Fld.ETH_CTRL_RXEN : Field := ⟨Reg.ETH_CTRL, 0, 0⟩
def Reg.ETH_MAC_LO : Nat := 0x40039044
def Fld.ETH_MAC_LO_ADDR : Field := ⟨Reg.ETH_MAC_LO, 31, 0⟩
def Reg.ETH_MAC_HI : Nat := 0x40039048
def Fld.ETH_MAC_HI_ADDR : Field := ⟨Reg.ETH_MAC_HI, 15, 0⟩
def Reg.ETH_HASH_LO : Nat := 0x4003904C
def Fld.ETH_HASH_LO_HASH : Field := ⟨Reg.ETH_HASH_LO, 31, 0⟩
def Reg.ETH_HASH_HI : Nat := 0x40039050
def Fld.ETH_HASH_HI_HASH : Field := ⟨Reg.ETH_HASH_HI, 31, 0⟩
def Reg.ETH_TXRING : Nat := 0x40039054
def Fld.ETH_TXRING_N : Field := ⟨Reg.ETH_TXRING, 31, 24⟩
def Fld.ETH_TXRING_BASE : Field := ⟨Reg.ETH_TXRING, 16, 0⟩
def Reg.ETH_RXRING : Nat := 0x40039058
def Fld.ETH_RXRING_ALL : Field := ⟨Reg.ETH_RXRING, 31, 0⟩
def Reg.ETH_TXKICK : Nat := 0x4003905C
def Fld.ETH_TXKICK_GO : Field := ⟨Reg.ETH_TXKICK, 0, 0⟩
def Reg.ETH_STAT : Nat := 0x40039060
def Fld.ETH_STAT_RXNOBUF : Field := ⟨Reg.ETH_STAT, 3, 3⟩
def Fld.ETH_STAT_TXUNDER : Field := ⟨Reg.ETH_STAT, 2, 2⟩
def Fld.ETH_STAT_RXACT : Field := ⟨Reg.ETH_STAT, 1, 1⟩
def Fld.ETH_STAT_TXACT : Field := ⟨Reg.ETH_STAT, 0, 0⟩
def Reg.ETH_MDIO : Nat := 0x40039064
def Fld.ETH_MDIO_GO : Field := ⟨Reg.ETH_MDIO, 31, 31⟩
def Fld.ETH_MDIO_WRITE : Field := ⟨Reg.ETH_MDIO, 30, 30⟩
def Fld.ETH_MDIO_PHY : Field := ⟨Reg.ETH_MDIO, 25, 21⟩
def Fld.ETH_MDIO_REG : Field := ⟨Reg.ETH_MDIO, 20, 16⟩
def Fld.ETH_MDIO_DATA : Field := ⟨Reg.ETH_MDIO, 15, 0⟩
def Reg.ETH_CNT_RX : Nat := 0x40039068
def Fld.ETH_CNT_RX_CRCERR : Field := ⟨Reg.ETH_CNT_RX, 31, 16⟩
def Fld.ETH_CNT_RX_DROP : Field := ⟨Reg.ETH_CNT_RX, 15, 0⟩
def Reg.ETH_CNT_TX : Nat := 0x4003906C
def Fld.ETH_CNT_TX_COLL : Field := ⟨Reg.ETH_CNT_TX, 31, 16⟩
def Fld.ETH_CNT_TX_SENT : Field := ⟨Reg.ETH_CNT_TX, 15, 0⟩
/-! ### UART -/
def Reg.UART_CTRL (n : Nat) : Nat := 0x4003A040 + n * 0x1000
def Fld.UART_CTRL_CHAIN (n : Nat) : Field := ⟨(Reg.UART_CTRL n), 25, 25⟩
def Fld.UART_CTRL_RXEN (n : Nat) : Field := ⟨(Reg.UART_CTRL n), 24, 24⟩
def Fld.UART_CTRL_TXEN (n : Nat) : Field := ⟨(Reg.UART_CTRL n), 23, 23⟩
def Fld.UART_CTRL_STOP2 (n : Nat) : Field := ⟨(Reg.UART_CTRL n), 22, 22⟩
def Fld.UART_CTRL_ODD (n : Nat) : Field := ⟨(Reg.UART_CTRL n), 21, 21⟩
def Fld.UART_CTRL_PAR (n : Nat) : Field := ⟨(Reg.UART_CTRL n), 20, 20⟩
def Fld.UART_CTRL_DIVX (n : Nat) : Field := ⟨(Reg.UART_CTRL n), 19, 0⟩
def Reg.UART_STAT (n : Nat) : Nat := 0x4003A044 + n * 0x1000
def Fld.UART_STAT_RXCNT (n : Nat) : Field := ⟨(Reg.UART_STAT n), 31, 24⟩
def Fld.UART_STAT_TXFREE (n : Nat) : Field := ⟨(Reg.UART_STAT n), 23, 16⟩
def Fld.UART_STAT_BREAK (n : Nat) : Field := ⟨(Reg.UART_STAT n), 4, 4⟩
def Fld.UART_STAT_OVR (n : Nat) : Field := ⟨(Reg.UART_STAT n), 3, 3⟩
def Fld.UART_STAT_PARERR (n : Nat) : Field := ⟨(Reg.UART_STAT n), 2, 2⟩
def Fld.UART_STAT_FRERR (n : Nat) : Field := ⟨(Reg.UART_STAT n), 1, 1⟩
def Fld.UART_STAT_TXIDLE (n : Nat) : Field := ⟨(Reg.UART_STAT n), 0, 0⟩
def Reg.UART_DATA (n : Nat) : Nat := 0x4003A048 + n * 0x1000
def Fld.UART_DATA_EMPTY (n : Nat) : Field := ⟨(Reg.UART_DATA n), 8, 8⟩
def Fld.UART_DATA_BYTE (n : Nat) : Field := ⟨(Reg.UART_DATA n), 7, 0⟩
def Reg.UART_THR (n : Nat) : Nat := 0x4003A04C + n * 0x1000
def Fld.UART_THR_RX (n : Nat) : Field := ⟨(Reg.UART_THR n), 15, 8⟩
def Fld.UART_THR_TX (n : Nat) : Field := ⟨(Reg.UART_THR n), 7, 0⟩
def Reg.UART_CADDR (n : Nat) : Nat := 0x4003A050 + n * 0x1000
def Fld.UART_CADDR_ADDR (n : Nat) : Field := ⟨(Reg.UART_CADDR n), 15, 0⟩
def Reg.UART_CHCNT (n : Nat) : Nat := 0x4003A054 + n * 0x1000
def Fld.UART_CHCNT_FWD (n : Nat) : Field := ⟨(Reg.UART_CHCNT n), 31, 16⟩
def Fld.UART_CHCNT_CRCERR (n : Nat) : Field := ⟨(Reg.UART_CHCNT n), 15, 0⟩
/-! ### SPIH -/
def Reg.SPIH_CFG : Nat := 0x4003C040
def Fld.SPIH_CFG_CRCREQ : Field := ⟨Reg.SPIH_CFG, 0, 0⟩
def Reg.SPIH_STAT : Nat := 0x4003C044
def Fld.SPIH_STAT_BUSERR : Field := ⟨Reg.SPIH_STAT, 4, 4⟩
def Fld.SPIH_STAT_CRCERR : Field := ⟨Reg.SPIH_STAT, 3, 3⟩
def Fld.SPIH_STAT_ABORT : Field := ⟨Reg.SPIH_STAT, 2, 2⟩
def Fld.SPIH_STAT_PROTO : Field := ⟨Reg.SPIH_STAT, 1, 1⟩
def Reg.SPIH_CNT : Nat := 0x4003C048
def Fld.SPIH_CNT_LASTING : Field := ⟨Reg.SPIH_CNT, 31, 16⟩
def Fld.SPIH_CNT_TRANS : Field := ⟨Reg.SPIH_CNT, 15, 0⟩
def Reg.SPIH_NTRANS : Nat := 0x4003C04C
def Fld.SPIH_NTRANS_N : Field := ⟨Reg.SPIH_NTRANS, 31, 0⟩
/-! ### DBG -/
def Reg.DBG_CTRL : Nat := 0x4003D040
def Fld.DBG_CTRL_ACTIVE : Field := ⟨Reg.DBG_CTRL, 1, 1⟩
def Fld.DBG_CTRL_WDT_HOLD : Field := ⟨Reg.DBG_CTRL, 0, 0⟩
def Reg.DBG_HALTED : Nat := 0x4003D044
def Fld.DBG_HALTED_HART : Field := ⟨Reg.DBG_HALTED, 15, 0⟩
/-! ### Channel records: `r` is the address of the record (R72, R111, R112) -/
def Reg.REC_CFG (r : Nat) : Nat := r + 0x0
def Fld.REC_CFG_SENSOR (r : Nat) : Field := ⟨Reg.REC_CFG r, 15, 12⟩
def Fld.REC_CFG_FREF (r : Nat) : Field := ⟨Reg.REC_CFG r, 8, 8⟩
def Fld.REC_CFG_LEAK (r : Nat) : Field := ⟨Reg.REC_CFG r, 6, 5⟩
def Fld.REC_CFG_INTEG (r : Nat) : Field := ⟨Reg.REC_CFG r, 4, 4⟩
def Fld.REC_CFG_PATH (r : Nat) : Field := ⟨Reg.REC_CFG r, 1, 0⟩
def Reg.REC_ISCALE (r : Nat) : Nat := r + 0x4
def Fld.REC_ISCALE_MAPK (r : Nat) : Field := ⟨Reg.REC_ISCALE r, 31, 0⟩
def Reg.REC_OFFS_LG (r : Nat) : Nat := r + 0x8
def Fld.REC_OFFS_LG_VAL (r : Nat) : Field := ⟨Reg.REC_OFFS_LG r, 23, 0⟩
def Reg.REC_OFFS_HG (r : Nat) : Nat := r + 0xC
def Fld.REC_OFFS_HG_VAL (r : Nat) : Field := ⟨Reg.REC_OFFS_HG r, 23, 0⟩
def Reg.REC_MATCH_G (r : Nat) : Nat := r + 0x10
def Fld.REC_MATCH_G_VAL (r : Nat) : Field := ⟨Reg.REC_MATCH_G r, 31, 0⟩
def Reg.REC_MATCH_D (r : Nat) : Nat := r + 0x14
def Fld.REC_MATCH_D_VAL (r : Nat) : Field := ⟨Reg.REC_MATCH_D r, 10, 0⟩
def Reg.REC_GAIN (r : Nat) : Nat := r + 0x18
def Fld.REC_GAIN_VAL (r : Nat) : Field := ⟨Reg.REC_GAIN r, 31, 0⟩
def Reg.REC_PHASE (r : Nat) : Nat := r + 0x1C
def Fld.REC_PHASE_VAL (r : Nat) : Field := ⟨Reg.REC_PHASE r, 31, 0⟩
def Reg.REC_NOLOAD (r : Nat) : Nat := r + 0x20
def Fld.REC_NOLOAD_NV (r : Nat) : Field := ⟨Reg.REC_NOLOAD r, 16, 0⟩
def Reg.REC_TCOMP (r : Nat) : Nat := r + 0x24
def Fld.REC_TCOMP_TOFS (r : Nat) : Field := ⟨Reg.REC_TCOMP r, 15, 8⟩
def Fld.REC_TCOMP_POD_OFF (r : Nat) : Field := ⟨Reg.REC_TCOMP r, 1, 1⟩
def Fld.REC_TCOMP_CHIP_OFF (r : Nat) : Field := ⟨Reg.REC_TCOMP r, 0, 0⟩
def Reg.REC_STATUS (r : Nat) : Nat := r + 0x28
def Fld.REC_STATUS_UNVERIFIED (r : Nat) : Field := ⟨Reg.REC_STATUS r, 3, 3⟩
def Fld.REC_STATUS_POD (r : Nat) : Field := ⟨Reg.REC_STATUS r, 2, 2⟩
def Fld.REC_STATUS_UNS (r : Nat) : Field := ⟨Reg.REC_STATUS r, 1, 1⟩
def Fld.REC_STATUS_HG (r : Nat) : Field := ⟨Reg.REC_STATUS r, 0, 0⟩
def Reg.REC_POD_ID_LO (r : Nat) : Nat := r + 0x2C
def Fld.REC_POD_ID_LO_ID (r : Nat) : Field := ⟨Reg.REC_POD_ID_LO r, 31, 0⟩
def Reg.REC_POD_ID_HI (r : Nat) : Nat := r + 0x30
def Fld.REC_POD_ID_HI_ID (r : Nat) : Field := ⟨Reg.REC_POD_ID_HI r, 31, 0⟩

end Sys2Proof.Machine
end

