-- ==== Sys2Proof/Machine/RegTable.lean ====
section
/-! DEFINITION. The description of every register: its offset in its page, how often it repeats, its key, and for every field the bits, the access code (R4) and the reset value (R5), by the register tables of the spec. A reset value that the spec leaves open stands as 0 here (assumption log 3). -/

namespace Sys2Proof.Machine

def RegTable.sys0 : List RegRow := [
  ⟨0x044, 0x4, 1, 0x00, [⟨0, 0, .ro, 0⟩]⟩,
  ⟨0x048, 0x4, 1, 0x00, [⟨31, 0, .ro, 0⟩]⟩,
  ⟨0x04C, 0x4, 1, 0x00, [⟨31, 31, .w1c, 0⟩, ⟨30, 30, .w1c, 0⟩, ⟨17, 16, .ro, 0⟩, ⟨12, 8, .ro, 0⟩, ⟨0, 0, .ro, 0⟩]⟩,
  ⟨0x078, 0x4, 1, 0x47, [⟨31, 24, .rwk, 0⟩, ⟨9, 9, .rwk, 0⟩, ⟨8, 8, .rwk, 0⟩, ⟨0, 0, .wo, 0⟩]⟩,
  ⟨0x050, 0x4, 1, 0x00, [⟨31, 0, .ro, 0⟩]⟩,
  ⟨0x054, 0x4, 1, 0x00, [⟨31, 0, .ro, 0⟩]⟩,
  ⟨0x058, 0x4, 1, 0x00, [⟨15, 0, .ro, 0⟩]⟩,
  ⟨0x040, 0x4, 1, 0x00, [⟨31, 16, .ro, 402⟩, ⟨15, 8, .ro, 0⟩, ⟨7, 4, .ro, 11⟩, ⟨3, 0, .ro, 1⟩]⟩,
  ⟨0x060, 0x4, 1, 0x00, [⟨17, 17, .w1c, 0⟩, ⟨16, 16, .w1c, 0⟩, ⟨8, 8, .w1c, 0⟩, ⟨7, 7, .w1c, 0⟩, ⟨6, 6, .w1c, 0⟩, ⟨5, 5, .w1c, 0⟩, ⟨4, 4, .w1c, 0⟩, ⟨3, 3, .w1c, 0⟩, ⟨2, 2, .w1c, 0⟩, ⟨1, 1, .w1c, 0⟩, ⟨0, 0, .w1c, 1⟩]⟩,
  ⟨0x064, 0x4, 1, 0xC3, [⟨31, 24, .rwk, 0⟩, ⟨0, 0, .wo, 0⟩]⟩,
  ⟨0x068, 0x4, 1, 0x96, [⟨31, 24, .rwk, 0⟩, ⟨2, 2, .rw, 0⟩, ⟨1, 1, .rw, 1⟩, ⟨0, 0, .wo, 0⟩]⟩,
  ⟨0x070, 0x4, 1, 0x3C, [⟨31, 24, .rwk, 0⟩, ⟨16, 16, .rwk, 1⟩, ⟨15, 0, .rwk, 8000⟩]⟩,
  ⟨0x074, 0x4, 1, 0xE1, [⟨31, 24, .rwk, 0⟩, ⟨0, 0, .wo, 0⟩]⟩]
def RegTable.sys : List RegRow := RegTable.sys0
def RegTable.clk0 : List RegRow := [
  ⟨0x040, 0x4, 1, 0x00, [⟨8, 8, .w1c, 0⟩, ⟨3, 3, .ro, 0⟩, ⟨2, 2, .ro, 0⟩, ⟨1, 1, .ro, 0⟩, ⟨0, 0, .ro, 0⟩]⟩,
  ⟨0x044, 0x4, 1, 0x00, [⟨31, 0, .ro, 0⟩]⟩,
  ⟨0x048, 0x4, 1, 0x00, [⟨31, 0, .ro, 0⟩]⟩]
def RegTable.clk : List RegRow := RegTable.clk0
def RegTable.pwr0 : List RegRow := [
  ⟨0x048, 0x4, 1, 0x00, [⟨2, 0, .ro, 0⟩]⟩,
  ⟨0x054, 0x4, 1, 0x00, [⟨31, 16, .ro, 0⟩, ⟨4, 4, .w1c, 0⟩, ⟨3, 3, .w1c, 0⟩, ⟨2, 2, .ro, 0⟩, ⟨0, 0, .ro, 0⟩]⟩,
  ⟨0x058, 0x4, 1, 0x00, [⟨31, 0, .ro, 0⟩]⟩,
  ⟨0x05C, 0x4, 1, 0x00, [⟨31, 0, .ro, 0⟩]⟩,
  ⟨0x060, 0x4, 1, 0x00, [⟨31, 16, .ro, 0⟩, ⟨15, 0, .ro, 0⟩]⟩,
  ⟨0x040, 0x4, 1, 0x00, [⟨16, 16, .ro, 0⟩, ⟨9, 8, .rw, 1⟩, ⟨7, 0, .rw, 25⟩]⟩,
  ⟨0x044, 0x4, 1, 0x00, [⟨15, 0, .ro, 0⟩]⟩,
  ⟨0x04C, 0x4, 1, 0x00, [⟨0, 0, .rw, 0⟩]⟩,
  ⟨0x050, 0x4, 1, 0x00, [⟨7, 7, .rw, 0⟩, ⟨6, 6, .ro, 1⟩, ⟨5, 5, .rw, 0⟩, ⟨4, 4, .rw, 0⟩, ⟨3, 3, .rw, 1⟩, ⟨2, 2, .rw, 1⟩, ⟨1, 1, .rw, 1⟩, ⟨0, 0, .rw, 1⟩]⟩]
def RegTable.pwr : List RegRow := RegTable.pwr0
def RegTable.intc0 : List RegRow := [
  ⟨0x040, 0x4, 1, 0x00, [⟨31, 31, .ro, 0⟩, ⟨11, 8, .ro, 0⟩, ⟨5, 0, .ro, 0⟩]⟩,
  ⟨0x044, 0x4, 1, 0x00, [⟨11, 8, .rw, 0⟩, ⟨3, 0, .rw, 0⟩]⟩,
  ⟨0x048, 0x4, 1, 0x00, [⟨31, 0, .ro, 0⟩]⟩,
  ⟨0x04C, 0x4, 1, 0x00, [⟨31, 0, .ro, 0⟩]⟩,
  ⟨0x050, 0x4, 1, 0x00, [⟨15, 0, .w1s, 0⟩]⟩,
  ⟨0x054, 0x4, 1, 0x00, [⟨15, 0, .w1c, 0⟩]⟩,
  ⟨0x058, 0x4, 1, 0x00, [⟨0, 0, .ro, 0⟩]⟩,
  ⟨0x100, 0x4, 64, 0x00, [⟨9, 9, .rw, 0⟩, ⟨8, 8, .rw, 0⟩, ⟨3, 0, .rw, 0⟩]⟩]
def RegTable.intc : List RegRow := RegTable.intc0
def RegTable.split0 : List RegRow := [
  ⟨0x040, 0x4, 1, 0x00, [⟨31, 0, .w1s, 0⟩]⟩,
  ⟨0x044, 0x4, 1, 0x00, [⟨0, 0, .rw, 0⟩]⟩,
  ⟨0x048, 0x4, 1, 0x00, [⟨31, 0, .ro, 0⟩]⟩,
  ⟨0x04C, 0x4, 1, 0x00, [⟨31, 0, .ro, 0⟩]⟩,
  ⟨0x050, 0x4, 1, 0x00, [⟨31, 0, .w1c, 0⟩]⟩,
  ⟨0x054, 0x4, 1, 0x00, [⟨31, 0, .ro, 0⟩]⟩,
  ⟨0x100, 0x20, 32, 0x00, [⟨31, 31, .rw, 0⟩, ⟨13, 12, .rw, 0⟩, ⟨11, 0, .rw, 0⟩]⟩,
  ⟨0x104, 0x20, 32, 0x00, [⟨31, 0, .ro, 0⟩]⟩,
  ⟨0x108, 0x20, 32, 0x00, [⟨15, 0, .ro, 0⟩]⟩,
  ⟨0x10C, 0x20, 32, 0x00, [⟨31, 0, .ro, 0⟩]⟩,
  ⟨0x110, 0x20, 32, 0x00, [⟨15, 0, .ro, 0⟩]⟩]
def RegTable.split : List RegRow := RegTable.split0
def RegTable.bist0 : List RegRow := [
  ⟨0x040, 0x4, 1, 0xB5, [⟨31, 24, .rwk, 0⟩, ⟨8, 8, .rwk, 0⟩, ⟨7, 0, .rwk, 7⟩]⟩,
  ⟨0x044, 0x4, 1, 0x00, [⟨31, 24, .ro, 0⟩, ⟨3, 3, .ro, 0⟩, ⟨2, 2, .ro, 0⟩, ⟨1, 1, .ro, 0⟩, ⟨0, 0, .ro, 0⟩]⟩,
  ⟨0x048, 0x4, 1, 0x00, [⟨31, 24, .ro, 0⟩, ⟨23, 16, .ro, 0⟩, ⟨15, 0, .ro, 0⟩]⟩,
  ⟨0x04C, 0x4, 1, 0x00, [⟨31, 0, .ro, 0⟩]⟩,
  ⟨0x050, 0x4, 1, 0x00, [⟨15, 0, .ro, 65535⟩]⟩,
  ⟨0x054, 0x4, 1, 0x00, [⟨7, 0, .ro, 0⟩]⟩]
def RegTable.bist : List RegRow := RegTable.bist0
def RegTable.upd0 : List RegRow := [
  ⟨0x040, 0x4, 1, 0x00, [⟨27, 24, .ro, 0⟩, ⟨23, 20, .ro, 0⟩, ⟨15, 15, .ro, 0⟩, ⟨14, 14, .ro, 0⟩, ⟨13, 13, .ro, 0⟩, ⟨12, 12, .ro, 0⟩, ⟨11, 11, .ro, 0⟩, ⟨10, 10, .ro, 0⟩, ⟨9, 9, .w1c, 0⟩, ⟨8, 8, .ro, 0⟩]⟩,
  ⟨0x044, 0x4, 1, 0x00, [⟨31, 16, .ro, 0⟩, ⟨15, 0, .ro, 0⟩]⟩,
  ⟨0x048, 0x4, 1, 0x00, [⟨14, 8, .ro, 0⟩, ⟨6, 0, .ro, 0⟩]⟩,
  ⟨0x04C, 0x4, 1, 0x00, [⟨31, 0, .ro, 0⟩]⟩,
  ⟨0x050, 0x4, 1, 0x00, [⟨31, 0, .ro, 0⟩]⟩,
  ⟨0x054, 0x4, 1, 0x00, [⟨31, 16, .ro, 0⟩, ⟨15, 0, .ro, 0⟩]⟩,
  ⟨0x058, 0x4, 1, 0x00, [⟨12, 0, .rw, 60⟩]⟩,
  ⟨0x05C, 0x4, 1, 0x00, [⟨31, 0, .ro, 0⟩]⟩,
  ⟨0x060, 0x4, 1, 0x75, [⟨31, 24, .rwk, 0⟩, ⟨8, 8, .wo, 0⟩, ⟨1, 0, .wo, 0⟩]⟩,
  ⟨0x064, 0x4, 1, 0xC5, [⟨31, 24, .rwk, 0⟩, ⟨0, 0, .wo, 0⟩]⟩,
  ⟨0x068, 0x4, 1, 0x1D, [⟨31, 24, .rwk, 0⟩, ⟨0, 0, .rwk, 0⟩]⟩,
  ⟨0x06C, 0x4, 1, 0x00, [⟨31, 16, .ro, 0⟩, ⟨15, 0, .ro, 0⟩]⟩,
  ⟨0x070, 0x4, 1, 0x00, [⟨15, 0, .ro, 0⟩]⟩,
  ⟨0x074, 0x4, 1, 0x3B, [⟨31, 24, .rwk, 0⟩, ⟨1, 0, .rwk, 3⟩]⟩,
  ⟨0x078, 0x4, 1, 0x00, [⟨1, 1, .rw, 0⟩, ⟨0, 0, .rw, 1⟩]⟩]
def RegTable.upd : List RegRow := RegTable.upd0
def RegTable.sec0 : List RegRow := [
  ⟨0x040, 0x4, 1, 0x00, [⟨31, 0, .ro, 0⟩]⟩,
  ⟨0x044, 0x4, 1, 0x00, [⟨31, 0, .ro, 0⟩]⟩,
  ⟨0x048, 0x4, 1, 0x00, [⟨23, 16, .ro, 0⟩, ⟨12, 8, .ro, 0⟩, ⟨6, 6, .ro, 0⟩, ⟨5, 5, .w1c, 0⟩, ⟨4, 4, .ro, 0⟩, ⟨3, 3, .ro, 0⟩, ⟨2, 2, .ro, 0⟩, ⟨1, 1, .ro, 0⟩, ⟨0, 0, .ro, 0⟩]⟩,
  ⟨0x04C, 0x4, 1, 0x00, [⟨1, 1, .ro, 0⟩, ⟨0, 0, .ro, 0⟩]⟩,
  ⟨0x054, 0x4, 4, 0x00, [⟨31, 0, .ro, 0⟩]⟩,
  ⟨0x064, 0x4, 1, 0x00, [⟨11, 0, .rw, 300⟩]⟩,
  ⟨0x068, 0x4, 1, 0xA9, [⟨31, 24, .rwk, 0⟩, ⟨3, 0, .wo, 0⟩]⟩,
  ⟨0x06C, 0x4, 1, 0x00, [⟨17, 17, .ro, 0⟩, ⟨16, 16, .w1c, 0⟩, ⟨11, 8, .ro, 0⟩, ⟨3, 0, .ro, 0⟩]⟩,
  ⟨0x070, 0x4, 1, 0xF5, [⟨31, 24, .rwk, 0⟩, ⟨17, 17, .rwk, 0⟩, ⟨16, 16, .rwk, 0⟩, ⟨10, 0, .rwk, 0⟩]⟩,
  ⟨0x080, 0x4, 8, 0x00, [⟨31, 0, .wo, 0⟩]⟩,
  ⟨0x0A0, 0x4, 8, 0x00, [⟨31, 0, .wo, 0⟩]⟩,
  ⟨0x0C0, 0x4, 16, 0x00, [⟨31, 0, .wo, 0⟩]⟩,
  ⟨0x100, 0x4, 16, 0x00, [⟨31, 0, .wo, 0⟩]⟩]
def RegTable.sec : List RegRow := RegTable.sec0
def RegTable.tamp0 : List RegRow := [
  ⟨0x040, 0x4, 1, 0xE7, [⟨31, 24, .rwk, 0⟩, ⟨10, 0, .rwk, 1807⟩]⟩,
  ⟨0x044, 0x4, 1, 0xE7, [⟨31, 24, .rwk, 0⟩, ⟨16, 16, .rwk, 0⟩, ⟨10, 8, .rwk, 2⟩, ⟨5, 4, .rwk, 1⟩, ⟨3, 0, .rwk, 0⟩]⟩,
  ⟨0x048, 0x4, 1, 0xE7, [⟨31, 24, .rwk, 0⟩, ⟨7, 0, .rwk, 255⟩]⟩,
  ⟨0x04C, 0x4, 1, 0x00, [⟨17, 17, .stk, 0⟩, ⟨16, 16, .stk, 0⟩, ⟨10, 0, .stk, 0⟩]⟩,
  ⟨0x050, 0x4, 1, 0x00, [⟨10, 0, .ro, 0⟩]⟩,
  ⟨0x054, 0x4, 1, 0x00, [⟨10, 0, .ro, 0⟩]⟩,
  ⟨0x058, 0x4, 1, 0x00, [⟨31, 0, .ro, 0⟩]⟩,
  ⟨0x05C, 0x4, 1, 0x00, [⟨31, 0, .ro, 0⟩]⟩,
  ⟨0x060, 0x4, 1, 0x00, [⟨31, 16, .rw, 50⟩, ⟨15, 0, .rw, 50⟩]⟩,
  ⟨0x064, 0x4, 1, 0x00, [⟨31, 16, .rw, 100⟩, ⟨15, 0, .rw, 500⟩]⟩,
  ⟨0x068, 0x4, 1, 0x00, [⟨31, 16, .rw, 100⟩, ⟨15, 0, .rw, 100⟩]⟩,
  ⟨0x06C, 0x4, 1, 0x00, [⟨15, 0, .rw, 50⟩]⟩,
  ⟨0x070, 0x4, 1, 0x00, [⟨31, 0, .ro, 0⟩]⟩,
  ⟨0x074, 0x4, 1, 0x00, [⟨31, 0, .ro, 0⟩]⟩,
  ⟨0x078, 0x4, 1, 0x00, [⟨31, 0, .ro, 0⟩]⟩,
  ⟨0x07C, 0x4, 1, 0x00, [⟨31, 0, .ro, 0⟩]⟩,
  ⟨0x080, 0x4, 1, 0x00, [⟨3, 0, .ro, 0⟩]⟩,
  ⟨0x0A0, 0x4, 11, 0x00, [⟨31, 0, .stk, 0⟩]⟩,
  ⟨0x0CC, 0x4, 1, 0x00, [⟨10, 0, .stk, 0⟩]⟩,
  ⟨0x0D0, 0x4, 1, 0x00, [⟨31, 0, .ro, 0⟩]⟩]
def RegTable.tamp : List RegRow := RegTable.tamp0
def RegTable.rtc0 : List RegRow := [
  ⟨0x040, 0x4, 1, 0x00, [⟨26, 21, .ro, 0⟩, ⟨20, 15, .ro, 0⟩, ⟨14, 0, .ro, 0⟩]⟩,
  ⟨0x044, 0x4, 1, 0x00, [⟨31, 24, .ro, 0⟩, ⟨23, 20, .ro, 1⟩, ⟨19, 15, .ro, 1⟩, ⟨14, 12, .ro, 5⟩, ⟨4, 0, .ro, 0⟩]⟩,
  ⟨0x048, 0x4, 1, 0x00, [⟨31, 0, .ro, 0⟩]⟩,
  ⟨0x04C, 0x4, 1, 0x00, [⟨31, 0, .ro, 0⟩]⟩,
  ⟨0x050, 0x4, 1, 0x00, [⟨10, 10, .w1c, 0⟩, ⟨9, 9, .w1c, 0⟩, ⟨8, 8, .w1c, 0⟩, ⟨7, 7, .w1c, 0⟩, ⟨6, 6, .ro, 0⟩, ⟨5, 5, .ro, 0⟩, ⟨4, 4, .ro, 0⟩, ⟨3, 3, .w1c, 0⟩, ⟨2, 2, .w1c, 0⟩, ⟨0, 0, .w1c, 1⟩]⟩,
  ⟨0x054, 0x4, 1, 0x2B, [⟨31, 24, .rwk, 0⟩, ⟨9, 8, .rwk, 0⟩, ⟨0, 0, .rwk, 0⟩]⟩,
  ⟨0x058, 0x4, 1, 0x2B, [⟨31, 24, .rwk, 0⟩, ⟨2, 0, .wo, 0⟩]⟩,
  ⟨0x05C, 0x4, 1, 0x00, [⟨26, 21, .rw, 0⟩, ⟨20, 15, .rw, 0⟩, ⟨14, 0, .rw, 0⟩]⟩,
  ⟨0x060, 0x4, 1, 0x00, [⟨31, 24, .rw, 0⟩, ⟨23, 20, .rw, 0⟩, ⟨19, 15, .rw, 0⟩, ⟨14, 12, .rw, 0⟩, ⟨4, 0, .rw, 0⟩]⟩,
  ⟨0x064, 0x4, 1, 0x00, [⟨16, 0, .rw, 0⟩]⟩,
  ⟨0x068, 0x4, 1, 0x00, [⟨15, 0, .ro, 0⟩]⟩,
  ⟨0x06C, 0x4, 1, 0x2B, [⟨31, 24, .rwk, 0⟩, ⟨15, 0, .rwk, 0⟩]⟩,
  ⟨0x070, 0x4, 1, 0x00, [⟨31, 16, .rw, 0⟩, ⟨15, 0, .rw, 400⟩]⟩,
  ⟨0x074, 0x4, 1, 0x00, [⟨16, 16, .rw, 0⟩, ⟨13, 8, .rw, 24⟩, ⟨2, 1, .rw, 0⟩, ⟨0, 0, .rw, 0⟩]⟩,
  ⟨0x078, 0x4, 1, 0x00, [⟨31, 31, .ro, 0⟩, ⟨30, 30, .w1c, 0⟩, ⟨29, 29, .w1c, 0⟩, ⟨15, 0, .ro, 0⟩]⟩,
  ⟨0x07C, 0x4, 1, 0x00, [⟨31, 24, .ro, 0⟩, ⟨17, 17, .ro, 1⟩, ⟨16, 16, .ro, 0⟩, ⟨15, 0, .ro, 0⟩]⟩,
  ⟨0x080, 0x20, 2, 0x00, [⟨26, 21, .rw, 0⟩, ⟨20, 15, .rw, 0⟩, ⟨14, 0, .rw, 0⟩]⟩,
  ⟨0x084, 0x20, 2, 0x00, [⟨31, 24, .rw, 0⟩, ⟨23, 20, .rw, 0⟩, ⟨19, 15, .rw, 0⟩, ⟨14, 12, .rw, 0⟩, ⟨4, 0, .rw, 0⟩]⟩,
  ⟨0x088, 0x20, 2, 0x00, [⟨31, 31, .rw, 0⟩, ⟨30, 30, .rw, 0⟩, ⟨29, 29, .rw, 0⟩, ⟨22, 16, .rw, 127⟩, ⟨14, 14, .rw, 0⟩, ⟨13, 13, .rw, 0⟩, ⟨12, 11, .rw, 0⟩, ⟨10, 10, .rw, 0⟩, ⟨9, 9, .rw, 0⟩]⟩,
  ⟨0x08C, 0x20, 2, 0x00, [⟨31, 0, .ro, 0⟩]⟩,
  ⟨0x090, 0x20, 2, 0x00, [⟨31, 0, .ro, 0⟩]⟩,
  ⟨0x094, 0x20, 2, 0x00, [⟨2, 2, .ro, 0⟩, ⟨1, 1, .ro, 0⟩, ⟨0, 0, .ro, 0⟩]⟩,
  ⟨0x0C0, 0x10, 2, 0x00, [⟨5, 4, .rw, 1⟩, ⟨2, 1, .rw, 0⟩, ⟨0, 0, .rw, 0⟩]⟩,
  ⟨0x0C4, 0x10, 2, 0x00, [⟨31, 0, .ro, 0⟩]⟩]
def RegTable.rtc1 : List RegRow := [
  ⟨0x0C8, 0x10, 2, 0x00, [⟨31, 0, .ro, 0⟩]⟩,
  ⟨0x0CC, 0x10, 2, 0x00, [⟨31, 31, .ro, 0⟩, ⟨15, 0, .w1c, 0⟩]⟩,
  ⟨0x0E0, 0x4, 1, 0x00, [⟨31, 0, .ro, 0⟩]⟩,
  ⟨0x0E4, 0x4, 1, 0x00, [⟨31, 0, .ro, 0⟩]⟩,
  ⟨0x100, 0x4, 16, 0x00, [⟨31, 0, .rw, 0⟩]⟩]
def RegTable.rtc : List RegRow := RegTable.rtc0 ++ RegTable.rtc1
def RegTable.eye0 : List RegRow := [
  ⟨0x040, 0x4, 1, 0x00, [⟨23, 16, .rw, 10⟩, ⟨11, 0, .rw, 4095⟩]⟩,
  ⟨0x044, 0x4, 1, 0x6E, [⟨31, 24, .rwk, 0⟩, ⟨1, 0, .wo, 0⟩]⟩,
  ⟨0x048, 0x4, 1, 0x00, [⟨31, 16, .ro, 0⟩, ⟨2, 2, .w1c, 0⟩, ⟨1, 1, .w1c, 0⟩, ⟨0, 0, .ro, 0⟩]⟩,
  ⟨0x04C, 0x4, 1, 0x00, [⟨11, 0, .w1c, 0⟩]⟩,
  ⟨0x050, 0x4, 1, 0x00, [⟨31, 31, .rw, 0⟩, ⟨30, 24, .rw, 0⟩, ⟨23, 16, .rw, 0⟩, ⟨10, 0, .rw, 0⟩]⟩,
  ⟨0x054, 0x4, 1, 0x00, [⟨7, 0, .rw, 0⟩]⟩,
  ⟨0x058, 0x4, 1, 0x00, [⟨15, 0, .ro, 0⟩]⟩,
  ⟨0x080, 0x4, 8, 0x00, [⟨31, 0, .rw, 0⟩]⟩,
  ⟨0x100, 0x10, 12, 0x00, [⟨31, 31, .w1c, 0⟩, ⟨12, 8, .ro, 0⟩, ⟨4, 0, .ro, 0⟩]⟩,
  ⟨0x104, 0x10, 12, 0x00, [⟨31, 16, .ro, 0⟩, ⟨15, 0, .ro, 0⟩]⟩,
  ⟨0x108, 0x10, 12, 0x00, [⟨31, 16, .ro, 0⟩, ⟨15, 0, .ro, 0⟩]⟩]
def RegTable.eye : List RegRow := RegTable.eye0
def RegTable.cap0 : List RegRow := [
  ⟨0x040, 0x4, 1, 0x00, [⟨1, 1, .w1s, 0⟩, ⟨0, 0, .rw, 1⟩]⟩,
  ⟨0x044, 0x4, 1, 0x00, [⟨31, 24, .ro, 0⟩, ⟨23, 16, .ro, 0⟩, ⟨15, 4, .ro, 4092⟩, ⟨3, 2, .ro, 0⟩]⟩,
  ⟨0x048, 0x4, 1, 0x00, [⟨31, 16, .ro, 0⟩, ⟨15, 0, .ro, 0⟩]⟩,
  ⟨0x04C, 0x4, 1, 0x00, [⟨8, 8, .ro, 0⟩, ⟨7, 0, .ro, 0⟩]⟩,
  ⟨0x050, 0x4, 1, 0x3A, [⟨31, 24, .rwk, 0⟩, ⟨15, 8, .rw, 0⟩, ⟨2, 2, .w1s, 0⟩, ⟨1, 1, .w1s, 0⟩, ⟨0, 0, .w1s, 0⟩]⟩,
  ⟨0x054, 0x4, 1, 0x00, [⟨31, 0, .ro, 0⟩]⟩,
  ⟨0x080, 0x8, 16, 0x00, [⟨31, 31, .rw, 0⟩, ⟨30, 30, .rw, 0⟩, ⟨28, 16, .rw, 4096⟩, ⟨11, 0, .rw, 0⟩]⟩,
  ⟨0x084, 0x8, 16, 0x00, [⟨26, 16, .rw, 100⟩, ⟨9, 0, .rw, 100⟩]⟩]
def RegTable.cap : List RegRow := RegTable.cap0
def RegTable.dram0 : List RegRow := [
  ⟨0x080, 0x4, 1, 0x00, [⟨31, 0, .ro, 0⟩]⟩,
  ⟨0x084, 0x4, 1, 0x00, [⟨15, 0, .ro, 0⟩]⟩,
  ⟨0x088, 0x4, 1, 0x00, [⟨31, 0, .ro, 0⟩]⟩,
  ⟨0x040, 0x4, 1, 0x00, [⟨31, 16, .ro, 0⟩, ⟨15, 0, .ro, 0⟩]⟩,
  ⟨0x044, 0x4, 1, 0x00, [⟨31, 16, .ro, 0⟩, ⟨15, 0, .ro, 0⟩]⟩,
  ⟨0x048, 0x4, 1, 0x00, [⟨31, 0, .ro, 0⟩]⟩,
  ⟨0x04C, 0x4, 1, 0x00, [⟨31, 31, .w1c, 0⟩, ⟨30, 30, .w1c, 0⟩, ⟨8, 8, .ro, 0⟩, ⟨4, 0, .ro, 0⟩]⟩]
def RegTable.dram : List RegRow := RegTable.dram0
def RegTable.flash0 : List RegRow := [
  ⟨0x040, 0x4, 1, 0x00, [⟨31, 16, .ro, 0⟩, ⟨15, 0, .ro, 0⟩]⟩,
  ⟨0x044, 0x4, 1, 0x00, [⟨31, 16, .ro, 0⟩, ⟨15, 0, .ro, 0⟩]⟩,
  ⟨0x048, 0x4, 1, 0x00, [⟨31, 0, .ro, 0⟩]⟩,
  ⟨0x04C, 0x4, 1, 0x00, [⟨31, 31, .w1c, 0⟩, ⟨30, 30, .w1c, 0⟩, ⟨8, 8, .ro, 0⟩, ⟨4, 0, .ro, 0⟩]⟩,
  ⟨0x060, 0x4, 1, 0x00, [⟨31, 0, .rw, 0⟩]⟩,
  ⟨0x064, 0x4, 1, 0x8F, [⟨31, 24, .rwk, 0⟩, ⟨1, 0, .wo, 0⟩]⟩,
  ⟨0x068, 0x4, 1, 0x00, [⟨2, 2, .w1c, 0⟩, ⟨1, 1, .w1c, 0⟩, ⟨0, 0, .ro, 0⟩]⟩,
  ⟨0x100, 0x4, 64, 0x00, [⟨31, 0, .wo, 0⟩]⟩]
def RegTable.flash : List RegRow := RegTable.flash0
def RegTable.mram0 : List RegRow := [
  ⟨0x040, 0x4, 1, 0x00, [⟨31, 16, .ro, 0⟩, ⟨15, 0, .ro, 0⟩]⟩,
  ⟨0x044, 0x4, 1, 0x00, [⟨31, 16, .ro, 0⟩, ⟨15, 0, .ro, 0⟩]⟩,
  ⟨0x048, 0x4, 1, 0x00, [⟨31, 0, .ro, 0⟩]⟩,
  ⟨0x04C, 0x4, 1, 0x00, [⟨31, 31, .w1c, 0⟩, ⟨30, 30, .w1c, 0⟩, ⟨8, 8, .ro, 0⟩, ⟨4, 0, .ro, 0⟩]⟩]
def RegTable.mram : List RegRow := RegTable.mram0
def RegTable.gpio0 : List RegRow := [
  ⟨0x040, 0x4, 1, 0x00, [⟨15, 0, .rw, 0⟩]⟩,
  ⟨0x044, 0x4, 1, 0x00, [⟨15, 0, .rw, 0⟩]⟩,
  ⟨0x048, 0x4, 1, 0x00, [⟨15, 0, .rw, 0⟩]⟩,
  ⟨0x04C, 0x4, 1, 0x00, [⟨15, 0, .ro, 0⟩]⟩,
  ⟨0x050, 0x4, 1, 0x00, [⟨15, 0, .rw, 65535⟩]⟩,
  ⟨0x054, 0x4, 1, 0x00, [⟨31, 0, .rw, 0⟩]⟩,
  ⟨0x058, 0x4, 1, 0x00, [⟨15, 0, .ro, 0⟩]⟩]
def RegTable.gpio : List RegRow := RegTable.gpio0
def RegTable.heat0 : List RegRow := [
  ⟨0x040, 0x4, 1, 0x00, [⟨1, 0, .rwl, 0⟩]⟩,
  ⟨0x044, 0x4, 1, 0x00, [⟨15, 0, .rw, 0⟩]⟩,
  ⟨0x048, 0x4, 1, 0x00, [⟨24, 16, .rwl, 320⟩, ⟨8, 0, .rwl, 400⟩]⟩,
  ⟨0x04C, 0x4, 1, 0x00, [⟨11, 8, .rwl, 0⟩, ⟨1, 0, .rwl, 0⟩]⟩,
  ⟨0x050, 0x4, 1, 0x00, [⟨15, 0, .rwlw1s, 0⟩]⟩,
  ⟨0x054, 0x4, 1, 0x00, [⟨8, 8, .ro, 0⟩, ⟨5, 5, .w1c, 0⟩, ⟨4, 4, .ro, 0⟩, ⟨3, 3, .ro, 0⟩, ⟨2, 2, .w1c, 0⟩, ⟨1, 1, .ro, 0⟩, ⟨0, 0, .ro, 0⟩]⟩,
  ⟨0x058, 0x4, 1, 0x00, [⟨15, 0, .ro, 0⟩]⟩,
  ⟨0x05C, 0x4, 1, 0x00, [⟨15, 0, .ro, 65535⟩]⟩,
  ⟨0x060, 0x4, 1, 0x00, [⟨15, 0, .w1c, 0⟩]⟩,
  ⟨0x064, 0x4, 1, 0x00, [⟨16, 16, .ro, 0⟩, ⟨15, 0, .ro, 0⟩]⟩,
  ⟨0x068, 0x4, 1, 0x00, [⟨15, 0, .ro, 0⟩]⟩,
  ⟨0x100, 0x4, 1, 0x00, [⟨31, 16, .ro, 0⟩, ⟨5, 0, .ro, 48⟩]⟩,
  ⟨0x104, 0x4, 1, 0x00, [⟨19, 16, .rw, 0⟩, ⟨14, 0, .rw, 32767⟩]⟩,
  ⟨0x108, 0x4, 1, 0x00, [⟨23, 16, .rw, 40⟩, ⟨14, 0, .rw, 0⟩]⟩,
  ⟨0x10C, 0x4, 1, 0x00, [⟨30, 16, .rw, 32767⟩, ⟨14, 0, .rw, 0⟩]⟩,
  ⟨0x110, 0x4, 1, 0x00, [⟨31, 16, .rw, 0⟩, ⟨15, 0, .rw, 0⟩]⟩,
  ⟨0x114, 0x4, 1, 0x00, [⟨15, 0, .rw, 0⟩]⟩,
  ⟨0x118, 0x4, 1, 0x00, [⟨31, 16, .w1c, 0⟩, ⟨15, 0, .w1c, 0⟩]⟩,
  ⟨0x11C, 0x4, 1, 0x00, [⟨31, 16, .w1c, 0⟩, ⟨15, 0, .w1c, 0⟩]⟩]
def RegTable.heat : List RegRow := RegTable.heat0
def RegTable.ugrp0 : List RegRow := [
  ⟨0x040, 0x4, 1, 0x00, [⟨15, 0, .rw, 0⟩]⟩,
  ⟨0x044, 0x4, 1, 0x00, [⟨11, 8, .rwl, 0⟩, ⟨1, 0, .rwl, 0⟩]⟩,
  ⟨0x048, 0x4, 1, 0x00, [⟨15, 0, .rwlw1s, 0⟩]⟩,
  ⟨0x04C, 0x4, 1, 0x00, [⟨8, 8, .ro, 0⟩, ⟨4, 4, .ro, 0⟩, ⟨3, 3, .ro, 0⟩, ⟨2, 2, .w1c, 0⟩, ⟨1, 1, .ro, 0⟩, ⟨0, 0, .ro, 0⟩]⟩,
  ⟨0x050, 0x4, 1, 0x00, [⟨15, 0, .ro, 65535⟩]⟩,
  ⟨0x054, 0x4, 1, 0x00, [⟨15, 0, .w1c, 0⟩]⟩,
  ⟨0x058, 0x4, 1, 0x00, [⟨16, 16, .ro, 0⟩, ⟨15, 0, .ro, 0⟩]⟩,
  ⟨0x05C, 0x4, 1, 0x00, [⟨15, 0, .ro, 0⟩]⟩,
  ⟨0x100, 0x20, 4, 0x00, [⟨19, 16, .rw, 0⟩, ⟨14, 0, .rw, 32767⟩]⟩,
  ⟨0x104, 0x20, 4, 0x00, [⟨23, 16, .rw, 40⟩, ⟨14, 0, .rw, 0⟩]⟩,
  ⟨0x108, 0x20, 4, 0x00, [⟨30, 16, .rw, 32767⟩, ⟨14, 0, .rw, 0⟩]⟩,
  ⟨0x10C, 0x20, 4, 0x00, [⟨11, 8, .rw, 0⟩, ⟨7, 4, .rw, 0⟩, ⟨3, 0, .rw, 0⟩]⟩,
  ⟨0x110, 0x20, 4, 0x00, [⟨15, 12, .w1c, 0⟩, ⟨11, 8, .w1c, 0⟩, ⟨7, 4, .w1c, 0⟩, ⟨3, 0, .w1c, 0⟩]⟩,
  ⟨0x180, 0x4, 1, 0x00, [⟨31, 16, .ro, 0⟩, ⟨5, 0, .ro, 48⟩]⟩]
def RegTable.ugrp : List RegRow := RegTable.ugrp0
def RegTable.frame0 : List RegRow := [
  ⟨0x040, 0x20, 4, 0x00, [⟨23, 16, .rwl, 25⟩, ⟨9, 9, .rwl, 0⟩, ⟨8, 8, .rwl, 0⟩, ⟨5, 4, .rwl, 0⟩, ⟨1, 0, .rwl, 0⟩]⟩,
  ⟨0x044, 0x20, 4, 0x00, [⟨14, 0, .rwl, 3244⟩]⟩,
  ⟨0x048, 0x20, 4, 0x00, [⟨4, 4, .ro, 0⟩, ⟨3, 3, .ro, 0⟩, ⟨2, 0, .ro, 0⟩]⟩,
  ⟨0x04C, 0x20, 4, 0x00, [⟨31, 0, .ro, 0⟩]⟩,
  ⟨0x050, 0x20, 4, 0x00, [⟨31, 0, .ro, 0⟩]⟩,
  ⟨0x054, 0x20, 4, 0x00, [⟨31, 16, .rw, 5050⟩, ⟨15, 0, .rw, 4950⟩]⟩,
  ⟨0x058, 0x20, 4, 0x00, [⟨14, 0, .ro, 0⟩]⟩,
  ⟨0x0C0, 0x4, 1, 0x00, [⟨7, 0, .rwl, 16⟩]⟩,
  ⟨0x0C4, 0x4, 1, 0x00, [⟨15, 12, .rwl, 8⟩, ⟨11, 8, .rwl, 3⟩, ⟨3, 0, .rwl, 1⟩]⟩,
  ⟨0x0C8, 0x4, 1, 0x00, [⟨2, 2, .rwl, 0⟩, ⟨1, 1, .rw, 1⟩, ⟨0, 0, .rwl, 0⟩]⟩,
  ⟨0x100, 0x20, 4, 0x00, [⟨31, 0, .ro, 0⟩]⟩,
  ⟨0x104, 0x20, 4, 0x00, [⟨31, 0, .ro, 0⟩]⟩,
  ⟨0x108, 0x20, 4, 0x00, [⟨31, 0, .ro, 0⟩]⟩,
  ⟨0x10C, 0x20, 4, 0x00, [⟨31, 16, .ro, 0⟩, ⟨15, 0, .ro, 0⟩]⟩,
  ⟨0x110, 0x20, 4, 0x00, [⟨31, 16, .ro, 0⟩, ⟨7, 4, .ro, 0⟩, ⟨2, 2, .ro, 0⟩, ⟨1, 0, .ro, 0⟩]⟩,
  ⟨0x114, 0x20, 4, 0x00, [⟨31, 0, .ro, 0⟩]⟩,
  ⟨0x118, 0x20, 4, 0x00, [⟨31, 0, .ro, 0⟩]⟩]
def RegTable.frame : List RegRow := RegTable.frame0
def RegTable.pacer0 : List RegRow := [
  ⟨0x040, 0x4, 1, 0x00, [⟨5, 4, .ro, 0⟩, ⟨3, 2, .ro, 0⟩, ⟨1, 1, .ro, 0⟩, ⟨0, 0, .ro, 0⟩]⟩,
  ⟨0x044, 0x4, 1, 0x00, [⟨31, 0, .ro, 0⟩]⟩,
  ⟨0x048, 0x4, 1, 0x00, [⟨31, 0, .ro, 0⟩]⟩,
  ⟨0x04C, 0x4, 1, 0x00, [⟨31, 0, .ro, 0⟩]⟩,
  ⟨0x050, 0x4, 1, 0x00, [⟨31, 0, .ro, 0⟩]⟩,
  ⟨0x080, 0x4, 1, 0x00, [⟨31, 0, .ro, 0⟩]⟩,
  ⟨0x084, 0x4, 1, 0x00, [⟨31, 0, .ro, 0⟩]⟩,
  ⟨0x088, 0x4, 1, 0x00, [⟨31, 16, .ro, 0⟩, ⟨11, 8, .ro, 0⟩, ⟨3, 2, .ro, 0⟩, ⟨1, 1, .ro, 0⟩, ⟨0, 0, .ro, 0⟩]⟩,
  ⟨0x08C, 0x4, 1, 0x00, [⟨31, 16, .ro, 0⟩, ⟨15, 0, .ro, 0⟩]⟩,
  ⟨0x090, 0x4, 1, 0x00, [⟨15, 0, .ro, 0⟩]⟩]
def RegTable.pacer : List RegRow := RegTable.pacer0
def RegTable.lane0 : List RegRow := [
  ⟨0x040, 0x40, 63, 0x00, [⟨15, 12, .rwl, 0⟩, ⟨8, 8, .rwl, 0⟩, ⟨6, 5, .rwl, 2⟩, ⟨4, 4, .rwl, 0⟩, ⟨1, 0, .rwl, 0⟩]⟩,
  ⟨0x044, 0x40, 63, 0x00, [⟨31, 0, .rwl, 0⟩]⟩,
  ⟨0x048, 0x40, 63, 0x00, [⟨23, 0, .rwl, 0⟩]⟩,
  ⟨0x04C, 0x40, 63, 0x00, [⟨23, 0, .rwl, 0⟩]⟩,
  ⟨0x050, 0x40, 63, 0x00, [⟨31, 0, .rwl, 67108864⟩]⟩,
  ⟨0x054, 0x40, 63, 0x00, [⟨10, 0, .rwl, 0⟩]⟩,
  ⟨0x058, 0x40, 63, 0x00, [⟨31, 0, .rwl, 1073741824⟩]⟩,
  ⟨0x05C, 0x40, 63, 0x00, [⟨31, 0, .rwl, 0⟩]⟩,
  ⟨0x060, 0x40, 63, 0x00, [⟨16, 0, .rwl, 4375⟩]⟩,
  ⟨0x064, 0x40, 63, 0x00, [⟨15, 8, .rwl, 0⟩, ⟨1, 1, .rwl, 0⟩, ⟨0, 0, .rwl, 0⟩]⟩,
  ⟨0x068, 0x40, 63, 0x00, [⟨3, 3, .ro, 0⟩, ⟨2, 2, .ro, 0⟩, ⟨1, 1, .ro, 1⟩, ⟨0, 0, .ro, 0⟩]⟩,
  ⟨0x06C, 0x40, 63, 0x00, [⟨31, 0, .ro, 0⟩]⟩,
  ⟨0x070, 0x40, 63, 0x00, [⟨31, 0, .ro, 0⟩]⟩]
def RegTable.lane : List RegRow := RegTable.lane0
def RegTable.uch0 : List RegRow := [
  ⟨0x440, 0x4, 1, 0x00, [⟨23, 16, .rw, 50⟩, ⟨15, 8, .rw, 0⟩, ⟨5, 4, .rw, 0⟩, ⟨0, 0, .w1s, 0⟩]⟩,
  ⟨0x444, 0x4, 1, 0x00, [⟨3, 3, .ro, 0⟩, ⟨2, 2, .ro, 0⟩, ⟨1, 1, .w1c, 0⟩, ⟨0, 0, .ro, 0⟩]⟩,
  ⟨0x448, 0x4, 1, 0x00, [⟨31, 0, .ro, 0⟩]⟩,
  ⟨0x480, 0x8, 16, 0x00, [⟨31, 0, .ro, 0⟩]⟩,
  ⟨0x484, 0x8, 16, 0x00, [⟨31, 0, .ro, 0⟩]⟩,
  ⟨0x500, 0x4, 1, 0x00, [⟨31, 0, .ro, 0⟩]⟩,
  ⟨0x504, 0x4, 1, 0x00, [⟨10, 0, .ro, 0⟩]⟩,
  ⟨0x508, 0x4, 1, 0x00, [⟨31, 0, .ro, 0⟩]⟩,
  ⟨0x50C, 0x4, 1, 0x00, [⟨31, 0, .ro, 0⟩]⟩,
  ⟨0x540, 0x4, 1, 0x00, [⟨31, 0, .rwl, 1623195648⟩]⟩,
  ⟨0x544, 0x4, 1, 0x00, [⟨0, 0, .w1s, 0⟩]⟩,
  ⟨0x548, 0x4, 1, 0x00, [⟨31, 16, .ro, 0⟩, ⟨15, 8, .ro, 0⟩, ⟨7, 4, .ro, 0⟩, ⟨3, 3, .w1c, 0⟩, ⟨2, 2, .ro, 0⟩]⟩,
  ⟨0x560, 0x4, 7, 0x00, [⟨31, 0, .w1c, 0⟩]⟩,
  ⟨0xF40, 0x40, 3, 0x00, [⟨15, 12, .rwl, 0⟩, ⟨8, 8, .rwl, 0⟩, ⟨6, 5, .rwl, 2⟩, ⟨4, 4, .rwl, 0⟩, ⟨1, 0, .rwl, 0⟩]⟩,
  ⟨0xF44, 0x40, 3, 0x00, [⟨31, 0, .rwl, 0⟩]⟩,
  ⟨0x044, 0x40, 16, 0x00, [⟨31, 0, .rwl, 0⟩]⟩,
  ⟨0xF48, 0x40, 3, 0x00, [⟨23, 0, .rwl, 0⟩]⟩,
  ⟨0x048, 0x40, 16, 0x00, [⟨23, 0, .rwl, 0⟩]⟩,
  ⟨0xF4C, 0x40, 3, 0x00, [⟨23, 0, .rwl, 0⟩]⟩,
  ⟨0xF50, 0x40, 3, 0x00, [⟨31, 0, .rwl, 67108864⟩]⟩,
  ⟨0xF54, 0x40, 3, 0x00, [⟨10, 0, .rwl, 0⟩]⟩,
  ⟨0xF58, 0x40, 3, 0x00, [⟨31, 0, .rwl, 1073741824⟩]⟩,
  ⟨0x058, 0x40, 16, 0x00, [⟨31, 0, .rwl, 1073741824⟩]⟩,
  ⟨0xF5C, 0x40, 3, 0x00, [⟨31, 0, .rwl, 0⟩]⟩]
def RegTable.uch1 : List RegRow := [
  ⟨0x05C, 0x40, 16, 0x00, [⟨31, 0, .rwl, 0⟩]⟩,
  ⟨0xF60, 0x40, 3, 0x00, [⟨16, 0, .rwl, 4375⟩]⟩,
  ⟨0xF64, 0x40, 3, 0x00, [⟨15, 8, .rwl, 0⟩, ⟨1, 1, .rwl, 0⟩, ⟨0, 0, .rwl, 0⟩]⟩,
  ⟨0x064, 0x40, 16, 0x00, [⟨15, 8, .rwl, 0⟩, ⟨0, 0, .rwl, 0⟩]⟩,
  ⟨0xF68, 0x40, 3, 0x00, [⟨3, 3, .ro, 0⟩, ⟨2, 2, .ro, 0⟩, ⟨1, 1, .ro, 1⟩, ⟨0, 0, .ro, 0⟩]⟩,
  ⟨0x068, 0x40, 16, 0x00, [⟨1, 1, .ro, 1⟩]⟩,
  ⟨0xF6C, 0x40, 3, 0x00, [⟨31, 0, .ro, 0⟩]⟩,
  ⟨0xF70, 0x40, 3, 0x00, [⟨31, 0, .ro, 0⟩]⟩]
def RegTable.uch : List RegRow := RegTable.uch0 ++ RegTable.uch1
def RegTable.harm0 : List RegRow := [
  ⟨0x040, 0x4, 1, 0x00, [⟨4, 4, .rw, 1⟩, ⟨3, 0, .rw, 15⟩]⟩,
  ⟨0x044, 0x4, 1, 0x00, [⟨15, 0, .rw, 800⟩]⟩,
  ⟨0x050, 0x10, 4, 0x00, [⟨31, 0, .ro, 0⟩]⟩,
  ⟨0x054, 0x10, 4, 0x00, [⟨31, 16, .ro, 0⟩, ⟨11, 8, .ro, 0⟩, ⟨1, 1, .ro, 0⟩, ⟨0, 0, .ro, 0⟩]⟩,
  ⟨0x058, 0x10, 4, 0x00, [⟨31, 0, .ro, 0⟩]⟩,
  ⟨0x05C, 0x10, 4, 0x00, [⟨31, 0, .ro, 0⟩]⟩]
def RegTable.harm : List RegRow := RegTable.harm0
def RegTable.pqe0 : List RegRow := [
  ⟨0x040, 0x20, 4, 0x00, [⟨6, 4, .rw, 7⟩, ⟨0, 0, .rw, 1⟩]⟩,
  ⟨0x044, 0x20, 4, 0x00, [⟨31, 0, .rw, 230000⟩]⟩,
  ⟨0x048, 0x20, 4, 0x00, [⟨31, 16, .rw, 11000⟩, ⟨15, 0, .rw, 9000⟩]⟩,
  ⟨0x04C, 0x20, 4, 0x00, [⟨31, 16, .rw, 200⟩, ⟨15, 0, .rw, 500⟩]⟩,
  ⟨0x050, 0x20, 4, 0x00, [⟨2, 2, .ro, 0⟩, ⟨1, 1, .ro, 0⟩, ⟨0, 0, .ro, 0⟩]⟩,
  ⟨0x054, 0x20, 4, 0x00, [⟨31, 0, .ro, 0⟩]⟩,
  ⟨0x058, 0x20, 4, 0x00, [⟨31, 24, .ro, 0⟩, ⟨23, 16, .ro, 0⟩, ⟨15, 0, .ro, 0⟩]⟩,
  ⟨0x0C0, 0x4, 1, 0x00, [⟨31, 8, .ro, 0⟩, ⟨7, 0, .ro, 0⟩]⟩,
  ⟨0x0C8, 0x4, 1, 0x00, [⟨0, 0, .rw, 1⟩]⟩]
def RegTable.pqe : List RegRow := RegTable.pqe0
def RegTable.bill0 : List RegRow := [
  ⟨0x040, 0x4, 1, 0x00, [⟨18, 16, .rwl, 0⟩, ⟨11, 0, .rw, 10⟩]⟩,
  ⟨0x044, 0x4, 1, 0x00, [⟨31, 30, .rwl, 0⟩, ⟨28, 24, .rwl, 1⟩, ⟨20, 16, .rwl, 0⟩, ⟨5, 0, .rwl, 0⟩]⟩,
  ⟨0x048, 0x4, 1, 0x00, [⟨9, 8, .rwl, 0⟩, ⟨7, 4, .rwl, 3⟩, ⟨2, 0, .rwl, 2⟩]⟩,
  ⟨0x04C, 0x4, 1, 0x00, [⟨31, 0, .ro, 0⟩]⟩,
  ⟨0x050, 0x4, 1, 0x00, [⟨31, 24, .ro, 0⟩, ⟨5, 5, .w1c, 0⟩, ⟨4, 4, .w1c, 0⟩, ⟨3, 3, .ro, 0⟩, ⟨2, 2, .ro, 0⟩, ⟨1, 1, .ro, 0⟩, ⟨0, 0, .ro, 0⟩]⟩,
  ⟨0x054, 0x4, 1, 0x00, [⟨31, 0, .ro, 0⟩]⟩,
  ⟨0x058, 0x4, 1, 0x5B, [⟨31, 24, .rwk, 0⟩, ⟨1, 0, .wo, 0⟩]⟩,
  ⟨0x05C, 0x4, 1, 0x00, [⟨31, 0, .ro, 0⟩]⟩,
  ⟨0x060, 0x4, 1, 0x00, [⟨31, 31, .rw, 0⟩, ⟨30, 26, .rw, 0⟩, ⟨25, 20, .rw, 0⟩, ⟨19, 16, .rw, 0⟩, ⟨15, 12, .rw, 0⟩]⟩,
  ⟨0x064, 0x4, 1, 0x00, [⟨31, 0, .ro, 0⟩]⟩,
  ⟨0x068, 0x4, 1, 0x00, [⟨31, 0, .ro, 0⟩]⟩,
  ⟨0x06C, 0x4, 1, 0x00, [⟨31, 0, .ro, 0⟩]⟩,
  ⟨0x070, 0x4, 1, 0x00, [⟨31, 0, .ro, 0⟩]⟩,
  ⟨0x074, 0x4, 1, 0x00, [⟨31, 0, .ro, 0⟩]⟩,
  ⟨0x078, 0x4, 1, 0x00, [⟨31, 0, .ro, 0⟩]⟩,
  ⟨0x07C, 0x4, 1, 0x00, [⟨31, 0, .ro, 0⟩]⟩,
  ⟨0x080, 0x4, 1, 0x00, [⟨31, 0, .ro, 0⟩]⟩,
  ⟨0x084, 0x4, 1, 0x00, [⟨31, 0, .ro, 0⟩]⟩,
  ⟨0x088, 0x4, 1, 0x00, [⟨31, 0, .ro, 0⟩]⟩,
  ⟨0x08C, 0x4, 1, 0x00, [⟨31, 0, .ro, 0⟩]⟩,
  ⟨0x0A0, 0x4, 8, 0x00, [⟨31, 31, .rw, 0⟩, ⟨11, 0, .rw, 0⟩]⟩,
  ⟨0x100, 0x10, 64, 0x00, [⟨31, 0, .rwl, 4294967295⟩]⟩,
  ⟨0x104, 0x10, 64, 0x00, [⟨11, 8, .rwl, 0⟩, ⟨7, 0, .rwl, 0⟩]⟩,
  ⟨0x108, 0x10, 64, 0x00, [⟨31, 31, .rwl, 0⟩, ⟨30, 30, .rwl, 0⟩, ⟨29, 29, .rwl, 0⟩, ⟨27, 26, .rwl, 0⟩, ⟨25, 24, .rwl, 0⟩, ⟨22, 20, .rwl, 0⟩]⟩]
def RegTable.bill1 : List RegRow := [
  ⟨0x10C, 0x10, 64, 0x00, [⟨11, 11, .ro, 0⟩, ⟨10, 10, .ro, 0⟩, ⟨9, 9, .ro, 0⟩, ⟨8, 8, .ro, 0⟩, ⟨7, 7, .ro, 0⟩, ⟨6, 6, .ro, 0⟩, ⟨5, 5, .ro, 0⟩, ⟨4, 4, .ro, 0⟩, ⟨3, 3, .ro, 0⟩, ⟨2, 2, .ro, 0⟩, ⟨1, 1, .ro, 0⟩, ⟨0, 0, .ro, 0⟩]⟩]
def RegTable.bill : List RegRow := RegTable.bill0 ++ RegTable.bill1
def RegTable.tariff0 : List RegRow := [
  ⟨0x040, 0x4, 1, 0x00, [⟨31, 0, .rwl, 1623199744⟩]⟩,
  ⟨0x044, 0x4, 1, 0x00, [⟨0, 0, .w1s, 0⟩]⟩,
  ⟨0x048, 0x4, 1, 0x00, [⟨31, 16, .ro, 0⟩, ⟨15, 8, .ro, 0⟩, ⟨7, 4, .ro, 0⟩, ⟨3, 3, .w1c, 0⟩, ⟨2, 2, .ro, 0⟩]⟩,
  ⟨0x050, 0x4, 4, 0x00, [⟨13, 13, .ro, 0⟩, ⟨12, 12, .ro, 0⟩, ⟨10, 8, .ro, 0⟩, ⟨6, 4, .ro, 0⟩, ⟨2, 0, .ro, 0⟩]⟩,
  ⟨0x060, 0x4, 4, 0x00, [⟨31, 0, .ro, 4294967295⟩]⟩]
def RegTable.tariff : List RegRow := RegTable.tariff0
def RegTable.prepay0 : List RegRow := [
  ⟨0x040, 0x4, 8, 0x00, [⟨31, 0, .rw, 0⟩]⟩,
  ⟨0x060, 0x4, 1, 0x9D, [⟨31, 24, .rwk, 0⟩, ⟨1, 1, .rw, 0⟩, ⟨0, 0, .wo, 0⟩]⟩,
  ⟨0x064, 0x4, 1, 0x00, [⟨31, 28, .ro, 0⟩, ⟨27, 22, .ro, 0⟩, ⟨1, 1, .w1c, 0⟩, ⟨0, 0, .ro, 0⟩]⟩,
  ⟨0x068, 0x4, 1, 0x00, [⟨31, 0, .ro, 0⟩]⟩,
  ⟨0x06C, 0x4, 1, 0x9E, [⟨31, 24, .rwk, 0⟩, ⟨21, 16, .wo, 0⟩, ⟨1, 0, .wo, 0⟩]⟩,
  ⟨0x070, 0x4, 1, 0x00, [⟨31, 16, .ro, 0⟩, ⟨1, 1, .w1c, 0⟩, ⟨0, 0, .ro, 1⟩]⟩,
  ⟨0x100, 0x10, 64, 0x00, [⟨31, 31, .rwl, 0⟩, ⟨30, 30, .rwl, 0⟩, ⟨29, 29, .rwl, 0⟩, ⟨28, 28, .rwl, 0⟩]⟩,
  ⟨0x104, 0x10, 64, 0x00, [⟨31, 0, .ro, 0⟩]⟩,
  ⟨0x108, 0x10, 64, 0x00, [⟨31, 0, .ro, 0⟩]⟩,
  ⟨0x10C, 0x10, 64, 0x00, [⟨5, 5, .ro, 0⟩, ⟨4, 4, .ro, 0⟩, ⟨3, 3, .ro, 0⟩, ⟨2, 0, .ro, 0⟩]⟩]
def RegTable.prepay : List RegRow := RegTable.prepay0
def RegTable.disc0 : List RegRow := [
  ⟨0x040, 0x4, 1, 0x00, [⟨23, 16, .rw, 5⟩, ⟨15, 8, .rw, 100⟩]⟩,
  ⟨0x044, 0x4, 1, 0x00, [⟨31, 31, .rw, 0⟩, ⟨28, 24, .rw, 0⟩, ⟨23, 23, .rw, 0⟩, ⟨22, 22, .rw, 0⟩, ⟨15, 8, .rw, 62⟩, ⟨7, 0, .rw, 10⟩]⟩,
  ⟨0x048, 0x4, 1, 0xD5, [⟨31, 24, .rwk, 0⟩, ⟨15, 15, .wo, 0⟩, ⟨13, 8, .wo, 0⟩, ⟨2, 0, .wo, 0⟩]⟩,
  ⟨0x04C, 0x4, 1, 0x00, [⟨31, 24, .ro, 0⟩, ⟨1, 1, .ro, 0⟩, ⟨0, 0, .ro, 0⟩]⟩,
  ⟨0x050, 0x4, 1, 0x00, [⟨31, 0, .ro, 0⟩]⟩,
  ⟨0x054, 0x4, 1, 0x00, [⟨31, 0, .ro, 0⟩]⟩,
  ⟨0x058, 0x4, 1, 0x00, [⟨31, 0, .ro, 0⟩]⟩,
  ⟨0x05C, 0x4, 1, 0x00, [⟨31, 0, .ro, 0⟩]⟩,
  ⟨0x060, 0x4, 1, 0x00, [⟨31, 0, .w1c, 0⟩]⟩,
  ⟨0x064, 0x4, 1, 0x00, [⟨31, 0, .w1c, 0⟩]⟩,
  ⟨0x068, 0x4, 1, 0x00, [⟨31, 16, .rw, 10⟩, ⟨15, 0, .rw, 100⟩]⟩,
  ⟨0x070, 0x4, 1, 0x00, [⟨31, 0, .rw, 1623224320⟩]⟩,
  ⟨0x074, 0x4, 1, 0x00, [⟨0, 0, .w1s, 0⟩]⟩,
  ⟨0x078, 0x4, 1, 0x00, [⟨31, 16, .ro, 0⟩, ⟨15, 8, .ro, 0⟩, ⟨7, 4, .ro, 0⟩, ⟨3, 3, .w1c, 0⟩, ⟨2, 2, .ro, 0⟩]⟩,
  ⟨0x080, 0x4, 8, 0x00, [⟨31, 31, .rw, 0⟩, ⟨29, 24, .rw, 0⟩, ⟨11, 0, .rw, 0⟩]⟩,
  ⟨0x100, 0x10, 64, 0x00, [⟨31, 31, .rw, 0⟩, ⟨30, 30, .rw, 0⟩, ⟨29, 29, .rw, 0⟩, ⟨28, 28, .rw, 0⟩, ⟨27, 22, .rw, 0⟩, ⟨21, 21, .rw, 0⟩, ⟨20, 20, .rw, 0⟩, ⟨15, 8, .rw, 255⟩]⟩,
  ⟨0x104, 0x10, 64, 0x00, [⟨31, 16, .ro, 0⟩, ⟨11, 8, .ro, 0⟩, ⟨7, 4, .ro, 0⟩, ⟨2, 0, .ro, 0⟩]⟩,
  ⟨0x108, 0x10, 64, 0x00, [⟨31, 0, .rw, 0⟩]⟩,
  ⟨0x10C, 0x10, 64, 0x00, [⟨31, 0, .rw, 0⟩]⟩]
def RegTable.disc : List RegRow := RegTable.disc0
def RegTable.pulse0 : List RegRow := [
  ⟨0x040, 0x4, 1, 0x7C, [⟨31, 24, .rwk, 0⟩, ⟨23, 16, .rwk, 15⟩, ⟨15, 8, .rwk, 0⟩]⟩,
  ⟨0x044, 0x4, 1, 0x00, [⟨31, 16, .ro, 0⟩, ⟨15, 8, .w1c, 0⟩, ⟨7, 0, .ro, 0⟩]⟩,
  ⟨0x080, 0x10, 8, 0x00, [⟨31, 31, .rwl, 0⟩, ⟨30, 29, .rwl, 0⟩, ⟨28, 24, .rwl, 0⟩, ⟨23, 16, .rwl, 0⟩, ⟨15, 8, .rwl, 30⟩]⟩,
  ⟨0x084, 0x10, 8, 0x00, [⟨31, 0, .rwl, 1000⟩]⟩,
  ⟨0x088, 0x10, 8, 0x00, [⟨15, 0, .ro, 0⟩]⟩,
  ⟨0x08C, 0x10, 8, 0x00, [⟨31, 0, .ro, 0⟩]⟩]
def RegTable.pulse : List RegRow := RegTable.pulse0
def RegTable.disp0 : List RegRow := [
  ⟨0x040, 0x4, 1, 0x00, [⟨31, 24, .rw, 30⟩, ⟨23, 16, .rw, 60⟩, ⟨15, 8, .rw, 123⟩, ⟨0, 0, .rw, 0⟩]⟩,
  ⟨0x044, 0x4, 1, 0x00, [⟨31, 0, .rw, 1623216128⟩]⟩,
  ⟨0x048, 0x4, 1, 0x00, [⟨0, 0, .w1s, 0⟩]⟩,
  ⟨0x04C, 0x4, 1, 0x00, [⟨31, 16, .ro, 0⟩, ⟨15, 8, .ro, 0⟩, ⟨7, 4, .ro, 0⟩, ⟨3, 3, .w1c, 0⟩, ⟨2, 2, .ro, 0⟩]⟩,
  ⟨0x050, 0x4, 1, 0x00, [⟨31, 24, .ro, 0⟩, ⟨23, 16, .ro, 255⟩, ⟨2, 2, .ro, 0⟩, ⟨1, 1, .ro, 0⟩, ⟨0, 0, .ro, 0⟩]⟩,
  ⟨0x054, 0x4, 1, 0x4D, [⟨31, 24, .rwk, 0⟩, ⟨21, 16, .wo, 0⟩, ⟨1, 0, .wo, 0⟩]⟩]
def RegTable.disp : List RegRow := RegTable.disp0
def RegTable.plcphy0 : List RegRow := [
  ⟨0x040, 0x4, 1, 0x00, [⟨31, 24, .rw, 10⟩, ⟨23, 16, .rw, 20⟩, ⟨10, 8, .rw, 7⟩, ⟨5, 4, .rw, 3⟩, ⟨0, 0, .rw, 0⟩]⟩,
  ⟨0x044, 0x4, 1, 0x00, [⟨4, 0, .rw, 6⟩]⟩,
  ⟨0x048, 0x4, 1, 0x00, [⟨31, 0, .rw, 1623228416⟩]⟩,
  ⟨0x04C, 0x4, 1, 0x00, [⟨1, 1, .rw, 0⟩, ⟨0, 0, .w1s, 0⟩]⟩,
  ⟨0x050, 0x4, 1, 0x00, [⟨31, 16, .ro, 0⟩, ⟨15, 8, .ro, 0⟩, ⟨7, 4, .ro, 0⟩, ⟨3, 3, .w1c, 0⟩, ⟨2, 2, .ro, 0⟩]⟩,
  ⟨0x054, 0x4, 1, 0x00, [⟨31, 16, .ro, 0⟩, ⟨10, 0, .ro, 0⟩]⟩,
  ⟨0x058, 0x4, 1, 0x00, [⟨5, 5, .ro, 1⟩, ⟨4, 4, .ro, 0⟩, ⟨3, 3, .ro, 0⟩, ⟨2, 2, .w1c, 0⟩, ⟨1, 1, .ro, 0⟩, ⟨0, 0, .ro, 0⟩]⟩,
  ⟨0x05C, 0x4, 1, 0x00, [⟨15, 0, .ro, 32768⟩]⟩,
  ⟨0x060, 0x4, 1, 0x00, [⟨15, 0, .ro, 32768⟩]⟩,
  ⟨0x064, 0x4, 1, 0x00, [⟨15, 0, .ro, 32768⟩]⟩,
  ⟨0x068, 0x4, 1, 0x00, [⟨31, 0, .ro, 0⟩]⟩,
  ⟨0x06C, 0x4, 1, 0x00, [⟨31, 0, .ro, 0⟩]⟩,
  ⟨0x070, 0x4, 1, 0x00, [⟨31, 16, .ro, 0⟩, ⟨15, 0, .ro, 0⟩]⟩,
  ⟨0x074, 0x4, 1, 0x00, [⟨31, 16, .ro, 0⟩, ⟨15, 0, .ro, 0⟩]⟩]
def RegTable.plcphy : List RegRow := RegTable.plcphy0
def RegTable.plcmac0 : List RegRow := [
  ⟨0x040, 0x4, 1, 0x00, [⟨14, 14, .rw, 1⟩, ⟨13, 12, .rw, 0⟩, ⟨11, 0, .rw, 0⟩]⟩,
  ⟨0x044, 0x4, 1, 0x00, [⟨20, 20, .rw, 0⟩, ⟨19, 16, .rw, 3⟩, ⟨12, 8, .rw, 10⟩, ⟨7, 3, .rw, 12⟩, ⟨2, 2, .rw, 0⟩, ⟨1, 0, .rw, 3⟩]⟩,
  ⟨0x048, 0x4, 1, 0x00, [⟨31, 24, .rw, 10⟩, ⟨23, 16, .rw, 12⟩, ⟨15, 0, .rw, 30⟩]⟩,
  ⟨0x04C, 0x4, 1, 0x00, [⟨15, 0, .rw, 120⟩]⟩,
  ⟨0x050, 0x4, 1, 0x00, [⟨31, 0, .ro, 0⟩]⟩,
  ⟨0x054, 0x4, 1, 0x00, [⟨31, 16, .ro, 0⟩, ⟨15, 0, .ro, 0⟩]⟩,
  ⟨0x058, 0x4, 1, 0x00, [⟨15, 0, .ro, 0⟩]⟩,
  ⟨0x05C, 0x4, 1, 0x00, [⟨15, 0, .ro, 0⟩]⟩,
  ⟨0x100, 0x20, 64, 0x00, [⟨31, 31, .ro, 0⟩, ⟨30, 28, .ro, 0⟩, ⟨27, 16, .ro, 0⟩, ⟨15, 8, .ro, 0⟩]⟩,
  ⟨0x104, 0x20, 64, 0x00, [⟨15, 0, .ro, 0⟩]⟩,
  ⟨0x108, 0x20, 64, 0x00, [⟨23, 20, .ro, 0⟩, ⟨19, 16, .ro, 0⟩, ⟨15, 0, .ro, 0⟩]⟩,
  ⟨0x10C, 0x20, 64, 0x00, [⟨31, 0, .ro, 0⟩]⟩,
  ⟨0x110, 0x20, 64, 0x00, [⟨31, 24, .ro, 0⟩, ⟨15, 0, .ro, 32768⟩]⟩,
  ⟨0x114, 0x20, 64, 0x00, [⟨31, 0, .ro, 0⟩]⟩]
def RegTable.plcmac : List RegRow := RegTable.plcmac0
def RegTable.mesh0 : List RegRow := [
  ⟨0x040, 0x4, 1, 0x00, [⟨31, 31, .rw, 0⟩, ⟨30, 30, .rw, 0⟩, ⟨29, 29, .rw, 0⟩, ⟨23, 16, .rw, 32⟩, ⟨15, 8, .rw, 0⟩]⟩,
  ⟨0x044, 0x4, 1, 0x00, [⟨15, 0, .rw, 0⟩]⟩,
  ⟨0x048, 0x4, 1, 0x00, [⟨31, 20, .rw, 60⟩, ⟨19, 12, .rw, 10⟩, ⟨7, 0, .rw, 60⟩]⟩,
  ⟨0x04C, 0x4, 1, 0x00, [⟨27, 16, .ro, 0⟩, ⟨5, 5, .ro, 1⟩, ⟨4, 4, .w1c, 0⟩, ⟨3, 3, .w1c, 0⟩, ⟨2, 0, .ro, 0⟩]⟩,
  ⟨0x050, 0x4, 1, 0x00, [⟨31, 24, .ro, 0⟩, ⟨23, 0, .ro, 16777215⟩]⟩,
  ⟨0x054, 0x4, 1, 0x00, [⟨31, 16, .ro, 0⟩, ⟨12, 0, .ro, 0⟩]⟩,
  ⟨0x058, 0x4, 1, 0x00, [⟨11, 0, .rw, 0⟩]⟩,
  ⟨0x05C, 0x4, 1, 0x00, [⟨31, 31, .ro, 0⟩, ⟨27, 16, .ro, 0⟩, ⟨15, 8, .ro, 0⟩]⟩,
  ⟨0x060, 0x4, 1, 0x00, [⟨31, 16, .ro, 0⟩]⟩,
  ⟨0x064, 0x4, 1, 0x00, [⟨31, 0, .ro, 0⟩]⟩,
  ⟨0x068, 0x4, 1, 0x00, [⟨31, 0, .ro, 0⟩]⟩,
  ⟨0x06C, 0x4, 1, 0x00, [⟨31, 16, .ro, 0⟩, ⟨2, 0, .ro, 0⟩]⟩,
  ⟨0x070, 0x4, 1, 0x00, [⟨31, 0, .ro, 0⟩]⟩,
  ⟨0x074, 0x4, 1, 0x00, [⟨31, 0, .wo, 0⟩]⟩,
  ⟨0x078, 0x4, 1, 0x00, [⟨31, 0, .ro, 0⟩]⟩,
  ⟨0x07C, 0x4, 1, 0x00, [⟨31, 16, .ro, 0⟩, ⟨15, 0, .ro, 0⟩]⟩,
  ⟨0x080, 0x4, 1, 0x00, [⟨31, 16, .ro, 0⟩, ⟨15, 0, .ro, 0⟩]⟩,
  ⟨0x084, 0x4, 1, 0x00, [⟨15, 0, .ro, 0⟩]⟩,
  ⟨0x088, 0x4, 1, 0x4E, [⟨31, 24, .rwk, 0⟩, ⟨1, 0, .wo, 0⟩]⟩]
def RegTable.mesh : List RegRow := RegTable.mesh0
def RegTable.eth0 : List RegRow := [
  ⟨0x040, 0x4, 1, 0x00, [⟨6, 6, .rw, 0⟩, ⟨5, 5, .rw, 0⟩, ⟨4, 4, .rw, 0⟩, ⟨3, 3, .rw, 0⟩, ⟨2, 2, .rw, 0⟩, ⟨1, 1, .rw, 0⟩, ⟨0, 0, .rw, 0⟩]⟩,
  ⟨0x044, 0x4, 1, 0x00, [⟨31, 0, .rw, 0⟩]⟩,
  ⟨0x048, 0x4, 1, 0x00, [⟨15, 0, .rw, 0⟩]⟩,
  ⟨0x04C, 0x4, 1, 0x00, [⟨31, 0, .rw, 0⟩]⟩,
  ⟨0x050, 0x4, 1, 0x00, [⟨31, 0, .rw, 0⟩]⟩,
  ⟨0x054, 0x4, 1, 0x00, [⟨31, 24, .rw, 0⟩, ⟨16, 0, .rw, 0⟩]⟩,
  ⟨0x058, 0x4, 1, 0x00, [⟨31, 0, .rw, 0⟩]⟩,
  ⟨0x05C, 0x4, 1, 0x00, [⟨0, 0, .w1s, 0⟩]⟩,
  ⟨0x060, 0x4, 1, 0x00, [⟨3, 3, .w1c, 0⟩, ⟨2, 2, .w1c, 0⟩, ⟨1, 1, .ro, 0⟩, ⟨0, 0, .ro, 0⟩]⟩,
  ⟨0x064, 0x4, 1, 0x00, [⟨31, 31, .w1s, 0⟩, ⟨30, 30, .rw, 0⟩, ⟨25, 21, .rw, 0⟩, ⟨20, 16, .rw, 0⟩, ⟨15, 0, .rw, 0⟩]⟩,
  ⟨0x068, 0x4, 1, 0x00, [⟨31, 16, .ro, 0⟩, ⟨15, 0, .ro, 0⟩]⟩,
  ⟨0x06C, 0x4, 1, 0x00, [⟨31, 16, .ro, 0⟩, ⟨15, 0, .ro, 0⟩]⟩]
def RegTable.eth : List RegRow := RegTable.eth0
def RegTable.uart0 : List RegRow := [
  ⟨0x040, 0x4, 1, 0x00, [⟨25, 25, .rw, 0⟩, ⟨24, 24, .rw, 0⟩, ⟨23, 23, .rw, 0⟩, ⟨22, 22, .rw, 0⟩, ⟨21, 21, .rw, 0⟩, ⟨20, 20, .rw, 0⟩, ⟨19, 0, .rw, 17067⟩]⟩,
  ⟨0x044, 0x4, 1, 0x00, [⟨31, 24, .ro, 0⟩, ⟨23, 16, .ro, 64⟩, ⟨4, 4, .w1c, 0⟩, ⟨3, 3, .w1c, 0⟩, ⟨2, 2, .w1c, 0⟩, ⟨1, 1, .w1c, 0⟩, ⟨0, 0, .ro, 1⟩]⟩,
  ⟨0x048, 0x4, 1, 0x00, [⟨8, 8, .ro, 1⟩, ⟨7, 0, .rw, 0⟩]⟩,
  ⟨0x04C, 0x4, 1, 0x00, [⟨15, 8, .rw, 1⟩, ⟨7, 0, .rw, 16⟩]⟩,
  ⟨0x050, 0x4, 1, 0x00, [⟨15, 0, .rw, 0⟩]⟩,
  ⟨0x054, 0x4, 1, 0x00, [⟨31, 16, .ro, 0⟩, ⟨15, 0, .ro, 0⟩]⟩]
def RegTable.uart : List RegRow := RegTable.uart0
def RegTable.spih0 : List RegRow := [
  ⟨0x040, 0x4, 1, 0x00, [⟨0, 0, .rwl, 0⟩]⟩,
  ⟨0x044, 0x4, 1, 0x00, [⟨4, 4, .w1c, 0⟩, ⟨3, 3, .w1c, 0⟩, ⟨2, 2, .w1c, 0⟩, ⟨1, 1, .w1c, 0⟩]⟩,
  ⟨0x048, 0x4, 1, 0x00, [⟨31, 16, .ro, 0⟩, ⟨15, 0, .ro, 0⟩]⟩,
  ⟨0x04C, 0x4, 1, 0x00, [⟨31, 0, .ro, 0⟩]⟩]
def RegTable.spih : List RegRow := RegTable.spih0
def RegTable.dbg0 : List RegRow := [
  ⟨0x040, 0x4, 1, 0x00, [⟨1, 1, .ro, 0⟩, ⟨0, 0, .rw, 0⟩]⟩,
  ⟨0x044, 0x4, 1, 0x00, [⟨15, 0, .ro, 0⟩]⟩]
def RegTable.dbg : List RegRow := RegTable.dbg0

/-- The rows of a page kind (R70). -/
def PageKind.rows : PageKind → List RegRow
  | .sys => RegTable.sys
  | .clk => RegTable.clk
  | .pwr => RegTable.pwr
  | .intc => RegTable.intc
  | .split => RegTable.split
  | .bist => RegTable.bist
  | .upd => RegTable.upd
  | .sec => RegTable.sec
  | .tamp => RegTable.tamp
  | .rtc => RegTable.rtc
  | .eye => RegTable.eye
  | .cap => RegTable.cap
  | .dram => RegTable.dram
  | .flash => RegTable.flash
  | .mram => RegTable.mram
  | .gpio => RegTable.gpio
  | .heat => RegTable.heat
  | .ugrp => RegTable.ugrp
  | .frame => RegTable.frame
  | .pacer => RegTable.pacer
  | .lane => RegTable.lane
  | .uch => RegTable.uch
  | .harm => RegTable.harm
  | .pqe => RegTable.pqe
  | .bill => RegTable.bill
  | .tariff => RegTable.tariff
  | .prepay => RegTable.prepay
  | .disc => RegTable.disc
  | .pulse => RegTable.pulse
  | .disp => RegTable.disp
  | .plcphy => RegTable.plcphy
  | .plcmac => RegTable.plcmac
  | .mesh => RegTable.mesh
  | .eth => RegTable.eth
  | .uart => RegTable.uart
  | .spih => RegTable.spih
  | .dbg => RegTable.dbg

/-- PG_CAP.NEV: how many events the page defines (R73, R83, and each page). -/
def PageKind.nev : PageKind → Nat
  | .sys => 3
  | .clk => 1
  | .pwr => 9
  | .intc => 0
  | .split => 2
  | .bist => 5
  | .upd => 10
  | .sec => 10
  | .tamp => 9
  | .rtc => 16
  | .eye => 12
  | .cap => 8
  | .dram => 4
  | .flash => 4
  | .mram => 4
  | .gpio => 16
  | .heat => 15
  | .ugrp => 15
  | .frame => 14
  | .pacer => 8
  | .lane => 0
  | .uch => 0
  | .harm => 6
  | .pqe => 7
  | .bill => 13
  | .tariff => 4
  | .prepay => 10
  | .disc => 12
  | .pulse => 4
  | .disp => 5
  | .plcphy => 8
  | .plcmac => 10
  | .mesh => 12
  | .eth => 5
  | .uart => 6
  | .spih => 4
  | .dbg => 3

/-- PG_CAP.ISL: the serving island's kind (R70, R73). -/
def PageKind.isl : PageKind → Nat
  | .sys => 0
  | .clk => 0
  | .pwr => 0
  | .intc => 0
  | .split => 0
  | .bist => 0
  | .upd => 0
  | .sec => 0
  | .tamp => 0
  | .rtc => 7
  | .eye => 1
  | .cap => 0
  | .dram => 2
  | .flash => 0
  | .mram => 0
  | .gpio => 1
  | .heat => 5
  | .ugrp => 6
  | .frame => 0
  | .pacer => 4
  | .lane => 0
  | .uch => 0
  | .harm => 0
  | .pqe => 0
  | .bill => 0
  | .tariff => 0
  | .prepay => 0
  | .disc => 1
  | .pulse => 1
  | .disp => 1
  | .plcphy => 3
  | .plcmac => 3
  | .mesh => 3
  | .eth => 1
  | .uart => 1
  | .spih => 1
  | .dbg => 1

/-- PG_CAP.SEALCTL: the seal acts on this page (R76). -/
def PageKind.sealctl : PageKind → Bool
  | .sys => false
  | .clk => false
  | .pwr => false
  | .intc => false
  | .split => false
  | .bist => false
  | .upd => false
  | .sec => false
  | .tamp => false
  | .rtc => false
  | .eye => false
  | .cap => false
  | .dram => false
  | .flash => false
  | .mram => false
  | .gpio => false
  | .heat => true
  | .ugrp => true
  | .frame => true
  | .pacer => true
  | .lane => true
  | .uch => true
  | .harm => false
  | .pqe => false
  | .bill => true
  | .tariff => true
  | .prepay => true
  | .disc => false
  | .pulse => false
  | .disp => false
  | .plcphy => false
  | .plcmac => false
  | .mesh => false
  | .eth => false
  | .uart => false
  | .spih => false
  | .dbg => false

/-- PG_CAP.NINST (R73). -/
def PageKind.ninst : PageKind → Nat
  | .sys => 0
  | .clk => 0
  | .pwr => 0
  | .intc => 0
  | .split => 0
  | .bist => 0
  | .upd => 0
  | .sec => 0
  | .tamp => 0
  | .rtc => 0
  | .eye => 0
  | .cap => 0
  | .dram => 0
  | .flash => 0
  | .mram => 0
  | .gpio => 0
  | .heat => 16
  | .ugrp => 0
  | .frame => 0
  | .pacer => 0
  | .lane => 64
  | .uch => 16
  | .harm => 0
  | .pqe => 0
  | .bill => 0
  | .tariff => 0
  | .prepay => 0
  | .disc => 0
  | .pulse => 0
  | .disp => 0
  | .plcphy => 0
  | .plcmac => 0
  | .mesh => 0
  | .eth => 0
  | .uart => 0
  | .spih => 0
  | .dbg => 0

/-- The injection detectors of the page, as inclusive ranges of DET (R77, and each page). -/
def PageKind.dets : PageKind → List (Nat × Nat)
  | .sys => []
  | .clk => []
  | .pwr => []
  | .intc => []
  | .split => []
  | .bist => [(0, 45)]
  | .upd => [(0, 0)]
  | .sec => []
  | .tamp => [(0, 10)]
  | .rtc => [(0, 2)]
  | .eye => [(0, 11)]
  | .cap => [(0, 15)]
  | .dram => [(0, 1)]
  | .flash => [(0, 1)]
  | .mram => [(0, 1)]
  | .gpio => []
  | .heat => [(0, 16), (32, 47)]
  | .ugrp => [(0, 16), (32, 47)]
  | .frame => [(0, 3)]
  | .pacer => [(0, 0)]
  | .lane => []
  | .uch => []
  | .harm => [(0, 3)]
  | .pqe => [(0, 3)]
  | .bill => [(0, 0)]
  | .tariff => []
  | .prepay => [(0, 0)]
  | .disc => [(0, 63)]
  | .pulse => [(0, 7)]
  | .disp => []
  | .plcphy => [(0, 0)]
  | .plcmac => [(0, 0)]
  | .mesh => [(0, 0)]
  | .eth => []
  | .uart => []
  | .spih => [(0, 0)]
  | .dbg => []

/-- PG_CTRL.EN at reset (R73 "per page"; assumption log 4 for the pages where the spec gives none). -/
def PageKind.enReset : PageKind → Nat
  | .sys => 1
  | .clk => 1
  | .pwr => 1
  | .intc => 1
  | .split => 1
  | .bist => 1
  | .upd => 1
  | .sec => 1
  | .tamp => 1
  | .rtc => 1
  | .eye => 1
  | .cap => 1
  | .dram => 1
  | .flash => 1
  | .mram => 1
  | .gpio => 1
  | .heat => 0
  | .ugrp => 0
  | .frame => 1
  | .pacer => 1
  | .lane => 1
  | .uch => 1
  | .harm => 1
  | .pqe => 1
  | .bill => 1
  | .tariff => 1
  | .prepay => 1
  | .disc => 1
  | .pulse => 1
  | .disp => 1
  | .plcphy => 1
  | .plcmac => 1
  | .mesh => 1
  | .eth => 1
  | .uart => 1
  | .spih => 1
  | .dbg => 1

end Sys2Proof.Machine
end

