-- ==== Sys2Proof/Machine/State.lean ====
section
/-! DEFINITION. The state of the G192: every register, memory, queue, record and engine the spec gives the block, as plain data, and the state right after reset. A register lives in `regs` (one home; an address that is not listed reads its reset value); what a block keeps besides its registers lives in that block's own structure. -/

namespace Sys2Proof.Machine

/-- Why a step may stop with a fault. No meaning of this model raises one: the spec gives every command an effect. -/
inductive Fault where
  /-- Raised by no command; kept so that the type is not empty. Safe: it adds no behaviour. -/
  | unreachable
  deriving DecidableEq, Repr

/-- Why a command may be refused. -/
inductive Refusal where
  /-- Raised by an arm of `exec` whose command has no meaning yet. Safe: the model stops where the hardware goes on. -/
  | notModelled (mnemonic : String)
  deriving DecidableEq, Repr

/-! ### Events and the journal -/

/-- An event as it is raised (R83, R77, R164): its code, its marks, the frame SEQ it carries and the channel or item it names. -/
structure Event where
  code : Nat
  inj : Bool := false
  spec : Bool := false
  seq : Nat := 0
  item : Nat := 0
  /-- Its own rule journals it, whatever the filters say (R282). -/
  own : Bool := false
  /-- Raised by a replay (R165). -/
  replayed : Bool := false
  /-- The cycle in which its word falls (R128). -/
  cyc : Option Nat := none
  /-- The billing point that it names, or 0xFF (R281). -/
  bp : Nat := 0xFF
  deriving DecidableEq, Repr

/-- A journal entry (R281); the CRC is computed when the entry is read. -/
structure JEntry where
  seq : Nat
  code : Nat
  bp : Nat
  inj : Bool
  late : Bool
  time : Nat
  mt : Nat
  data : List Byte
  deriving DecidableEq, Repr

/-! ### Power, clocks and pins -/

/-- The power states (R52); `reset` is the asserted internal reset (R53). -/
inductive PState where
  | start | run | quiet | holdup | rideThrough | shutdownTest | reset | backupOnly
  deriving DecidableEq, Repr

/-- The kinds of reset of R45 that have a pre-reset commit or assert by themselves. -/
inductive ResetKind where
  | mainPor | pin | wdt | sw | fallback | clkFail | pfTimeout | overtemp | shutdownExit
  deriving DecidableEq, Repr

/-- Why the device is held in reset (R21, R29, R46, R58, R64). -/
inductive Hold where
  | none | overtemp | vsup | shutdown | pin | testN
  deriving DecidableEq, Repr

/-- The supplies, the power state and the power-fail sequence (R29–R33, R46, R52–R64). -/
structure Power where
  st : PState := .reset
  /-- The start step reached or paused at (R55, R56), 1–15. -/
  startStep : Nat := 4
  /-- The state held before the warning (R53). -/
  before : PState := .start
  byOvertemp : Bool := false
  /-- MT at the last warning edge (R57), at its close sample, and at its clearing. -/
  edgeMt : Nat := 0
  closeMt : Nat := 0
  clearMt : Nat := 0
  /-- The reset loses the capture memory and the update staging (R47). -/
  lost : Bool := true
  /-- The reset is a main power-on, whose end samples the straps (R22). -/
  por : Bool := true
  /-- MT at the start of the interval that the next start journals (R59): the assertion of the reset. -/
  offMt : Nat := 0
  /-- The reset whose pre-reset commit runs, with the MT of its cause (R46). -/
  pending : Option ResetKind := none
  causeMt : Nat := 0
  /-- Causes that came while that commit ran: they are recorded and take effect with its reset (R45, R49). -/
  also : List ResetKind := []
  hold : Hold := .none
  vsupMv : Nat := 0
  v3v3Mv : Nat := 0
  vbatMv : Nat := 0
  /-- Backup switch transitions whose BKP_SWITCH waits for main power (R30). -/
  swOwed : Nat := 0
  /-- VBKP is high enough to keep the backup domain (R31). -/
  bkpAlive : Bool := true
  /-- The backup domain powered up from loss since BKPLOSS was last reported (R49). -/
  bkpLost : Bool := true
  /-- The staged image was already committed at the warning, so no commit is made (R56, R60). -/
  commitSkipped : Bool := false
  /-- The stage of an accepted shutdown (R64): 0 none, 1 stopping, 2 stopped and committed, 3 slices done. -/
  shutStage : Nat := 0
  /-- RESET_N fell since the straps were last sampled: its rise samples them (R22). -/
  pinLow : Bool := false
  /-- The interval without metering that the start sequence will journal at its first counted energy: its start's MT (R59). -/
  startFrom : Option Nat := none
  /-- The reset was a clock-fail one: the outage that the start applies is flagged so (R43). -/
  clkOutage : Bool := false
  /-- BOOT0 and BOOT1 as sampled (R22). -/
  boot0 : Bool := false
  boot1 : Bool := false
  testN : Bool := true
  deriving DecidableEq, Repr

/-- An image whose check runs (R85, R87): the TBL_STAT register of its table, its address, the MT at which the check ends, what a failed authentication at GO left for step 9, and whether COUNT 0 is allowed. -/
structure TblLoad where
  stat : Nat
  src : Nat
  endMt : Nat := 0
  locked : Bool := false
  emptyOk : Bool := true
  deriving DecidableEq, Repr

/-- The clock monitor and the watchdog (R43, R51). -/
structure Clk where
  /-- CORE and IO run on the RC oscillator (R43). -/
  onRc : Bool := false
  xtal : Bool := true
  /-- The watchdog count in ms (R51). -/
  wdtMs : Nat := 0
  /-- Islands that an EN write is starting, by their bit of ISL_RUN, with the MT from which they answer (R75). -/
  starting : List (Nat × Nat) := []
  /-- The images being checked (R87). -/
  loading : List TblLoad := []
  deriving DecidableEq, Repr

/-- The level on a pin that the device may leave undriven (R19). -/
inductive Level where
  | z | low | high
  deriving DecidableEq, Repr

/-- Levels on the pins that a block drives or samples (R19). A pin that moves only while a frame, a byte or a transaction is on it stands here at the level it rests at. -/
structure Pins where
  /-- Pulses driven on GUN_OUT (R123, R124). -/
  gunOut : Nat := 0
  /-- BTN0 and BTN1 are pressed, until an MT (R319). -/
  btn0 : Bool := false
  btn1 : Bool := false
  btn0End : Nat := 0
  btn1End : Nat := 0
  alarmN : Bool := true
  /-- DDRV0–15, the direct relay outputs (R297). -/
  ddrv : Nat := 0
  pulse : Nat := 0
  plden : Bool := false
  /-- The pairs PTXP/PTXN of phases A–C that are driven; the others are at high impedance (R376). -/
  ptx : Nat := 0
  gunLevel : Bool := false
  /-- DCLK, DDOUT, DLAT at rest (R299). -/
  dclk : Bool := false
  ddout : Bool := false
  dlat : Bool := false
  /-- DSCK, DSDA, DSCS: high impedance until the display interface is enabled (R310). -/
  dsck : Level := .z
  dsda : Level := .z
  dscs : Level := .z
  /-- Eyelet wires the device pulls low; the others are released. -/
  eyeLow : Nat := 0
  /-- UART0_TX and UART1_TX idle high. -/
  uartTx : Nat := 3
  /-- TXEN, TXD0–1 and MDC. -/
  txen : Bool := false
  txd : Nat := 0
  mdc : Bool := false
  /-- HMISO: high impedance while HSS_N is high. -/
  hmiso : Level := .z
  gpioIn : Nat := 0
  case : Nat := 0
  laceO : Nat := 0
  deriving DecidableEq, Repr

/-! ### The interconnect -/

/-- A posted write that has been accepted and has not landed (R79, R80). -/
structure Posted where
  master : Nat
  addr : Nat
  val : Word
  deriving DecidableEq, Repr

/-- A latched high word of a 64-bit pair, per master (R3): the address of the high word. -/
structure Latch where
  master : Nat
  addr : Nat
  val : Word
  deriving DecidableEq, Repr

/-- The answer of a read: its word, or the bus error's kind (R80, R81). -/
inductive Answer where
  | word (v : Word)
  | timeout
  | decode
  | refused
  | stalled
  deriving DecidableEq, Repr

/-- The interconnect (R3, R73, R79–R81). -/
structure Bus where
  posted : List Posted := []
  latches : List Latch := []
  /-- Masters one of whose posted writes was discarded since their last FENCE read (R81). -/
  discard : List Nat := []
  /-- The RO words of a frozen page at the instant of the freeze (R73): page index and the page's register list. -/
  frozen : List (Nat × List (Nat × Word)) := []
  /-- Frozen pages' release time: page and MT of the freeze. -/
  frozenMt : List (Nat × Nat) := []
  /-- The last answer to each master's read: master, address, answer. -/
  answers : List (Nat × Nat × Answer) := []
  /-- Reads that stand still at an isolated island: master and address, oldest first (R80, B-2). -/
  stalled : List (Nat × Nat) := []
  /-- Words whose last read was corrected, by memory page and address (R478). -/
  corrected : List (Nat × Nat) := []
  deriving DecidableEq, Repr

/-! ### Capture (R235–R241) -/

/-- A capture record: its directory slot's header (R237). -/
structure CapRec where
  id : Nat
  complete : Bool := false
  locked : Bool := false
  truncated : Bool := false
  withdrawn : Bool := false
  reconfirmed : Bool := false
  spec : Bool := false
  inj : Bool := false
  pf : Bool := false
  gun : Bool := false
  blk : Nat
  slot : Nat
  code : Nat
  item : Nat := 0
  ntrig : Nat := 0
  trigSeq : Nat
  trigMt : Nat := 0
  firstSeq : Nat
  rows : Nat
  nrows : Nat := 0
  /-- Rows copied so far, of which NROWS shows whole 1024s until the end (R237). -/
  copied : Nat := 0
  /-- The next row failed the read rule (R134, R239). -/
  lost : Bool := false
  block : Nat
  blocks : Nat
  dcrc : Word := 0
  deriving DecidableEq, Repr

/-- The capture store: the directory of 256 slots and the log's head (R236, R238). -/
structure Capture where
  dir : List (Option CapRec) := List.replicate 256 none
  nextId : Nat := 0
  /-- The block after the newest record (R238). -/
  head : Nat := 0
  /-- Speculative events whose triggers wait for their cycle's commit (R235, CAP_SPEC = 0). -/
  held : List Event := []
  /-- While a frame is released: triggers wait, so that those of one frame fire in slot order (R235). -/
  gather : Bool := false
  due : List Event := []
  /-- Copied rows of the store as bytes: address and byte, canonical. -/
  data : List Host.Cell := []
  deriving DecidableEq, Repr

/-- A binding: its slots' lanes, role and configuration words (R259). -/
structure Binding where
  lanes : Nat := 0xFFFFFFFF
  roles : Nat := 0
  cfg : Nat := 0
  deriving DecidableEq, Repr

/-! ### Front end (R91–R105, R121–R132) -/

/-- Calibration values in force on a channel: those the last APPLY pushed (R105, R111). -/
structure Cal where
  path : Nat := 0
  integ : Bool := false
  leak : Nat := 2
  fref : Bool := false
  offsLg : Int := 0
  offsHg : Int := 0
  matchG : Nat := 0x04000000
  matchD : Int := 0
  gain : Nat := 0x40000000
  phase : Int := 0
  tofs : Nat := 0
  podOff : Bool := false
  chipOff : Bool := false
  deriving DecidableEq, Repr

/-- A threshold comparator's state on one channel (R127). -/
structure Cmp where
  hiCnt : Nat := 0
  hiQuiet : Nat := 0
  hiArmed : Bool := true
  loCnt : Nat := 0
  loArmed : Bool := true
  /-- Magnitudes in the sliding half-cycle window, newest first. -/
  win : List Nat := []
  aboveArmed : Bool := true
  belowArmed : Bool := true
  deriving DecidableEq, Repr

/-- A lane or voltage channel in the front end. -/
structure Chan where
  cal : Cal := {}
  /-- What APPLY replaced, newest first: the frame SEQ from which the next values act, and the values before it (R105, R157, R171). -/
  calPrev : List (Nat × Cal) := []
  /-- High gain selected (R91). -/
  hg : Bool := false
  /-- Words of the present settle still to come (R93, R122). -/
  settle : Nat := 48
  /-- The last four FIR outputs with their offsets off, newest first: low gain, high gain, and their clips. The word released is of the third (R91, R119); MATCH_D reaches the ones beside it. -/
  look : List (Int × Int × Bool × Bool) := []
  /-- Rogowski integrator state y in 2^-32 LSB, and previous input x (R97). -/
  y : Int := 0
  x : Int := 0
  cmp : Cmp := {}
  deriving DecidableEq, Repr

/-- A heat or the U block (R98–R105). -/
structure Block where
  /-- Channels whose APPLY waits for the next sample. -/
  applying : Nat := 0
  /-- The values each of them takes: its record as the APPLY found it (R105). -/
  applyCal : List (Nat × Cal) := []
  /-- MT of the last HEAT event 0 and of events 8–11, for the once-per-millisecond limits (R94, R130). -/
  lastClip : Option Nat := none
  lastHi : Option Nat := none
  lastLo : Option Nat := none
  lastAbove : Option Nat := none
  lastBelow : Option Nat := none
  /-- The sensor's reading in 1/16 °C and whether it is at 140 °C (R29, R101). -/
  temp : Int := 0
  /-- The last valid reading, held when the sensor loses VALID (R204); none before the first. -/
  lastT : Option Int := none
  /-- The path-matching corrections since the last reading (R197 rows 2 and 3): G_HG, and D_HG in 1/4096 sample; none before the first. -/
  corr : Option (Int × Int) := none
  deriving DecidableEq, Repr

/-- A reference (R98, R99). -/
structure VRef where
  on : Bool := false
  ok : Bool := false
  /-- The first check of a fault failed and the re-check is due. -/
  suspect : Bool := false
  lasting : Bool := false
  /-- The first check was an injected one; and whether its injection was LIVE (R77, R115). -/
  injected : Option Bool := none
  /-- Samples still marked after a restoration (R99). -/
  tail : Nat := 0
  deriving DecidableEq, Repr

/-- A frame of the raw ring (R133). -/
structure Frame where
  seq : Nat
  mt : Nat
  gun : Bool
  pfw : Bool
  holdup : Bool
  /-- The blocks that were isolated, heats 0–11 and the U block as bits. -/
  iso : Nat
  /-- The block that a calibration measurement was taking (R250). -/
  calm : Option Nat := none
  /-- The channels whose integrator was cleared before this frame, an event of R93 having come (R97), as bits. -/
  cleared : Nat := 0
  lanes : List Word
  us : List Word
  deriving DecidableEq, Repr

/-- The front end and the raw ring. -/
structure Fe where
  lanes : List Chan := List.replicate 192 {}
  us : List Chan := List.replicate 16 {}
  /-- Heats 0–11, then the U block. -/
  blocks : List Block := List.replicate 13 {}
  refs : List VRef := List.replicate 4 {}
  /-- Frames, newest first; at most 49 461 (R133). -/
  ring : List Frame := []
  /-- HEAT.PATH_NOW at the last 1 ms snapshot, by heat. -/
  pathNow : List Nat := List.replicate 12 0
  /-- SEQ of the next frame. -/
  nextSeq : Nat := 0
  /-- Ring slot the next frame takes (R133). -/
  slot : Nat := 0
  /-- The next frame is the first after a GUN (R125). -/
  gunNext : Bool := false
  /-- The calibration measurement unit (R198): running, its mode and selection, words gathered. -/
  calm : Option (Nat × Nat × Nat) := none
  /-- Words gathered per path. -/
  calmN : Nat := 0
  /-- MEAN: the running sums per input and path. -/
  calmLg : List Int := []
  calmHg : List Int := []
  calmVoid : Bool := false
  /-- MATCH: the words gathered, newest first: frame, both paths, and whether a mark of R198 voids it. -/
  calmWords : List (Nat × Int × Int × Bool) := []
  /-- MATCH: the group's boundaries of record since GO, oldest first; the window runs from the first over CYC cycles. -/
  calmBounds : List Int := []
  deriving DecidableEq, Repr

/-! ### Trackers, strides and records (R136–R196) -/

/-- What a cycle latches for one channel at its start (R157, R197): ISCALE, NOLOAD, the fractional corrections to GAIN and the correction to PHASE in 2^-16 sample, as quotients of whole numbers (R207), role and invert of its binding. -/
structure Scale where
  iscale : Nat := 0
  noload : Nat := 0
  g : List (Int × Nat) := []
  ph : Int × Nat := (0, 1)
  /-- The voltage channel it pairs with (R178). -/
  pair : Option Nat := none
  inv : Bool := false
  deriving DecidableEq, Repr

/-- A stride: a predicted cycle with the values it was issued with (R152, R171). Positions and periods are Q32.32 frames. -/
structure Stride where
  cyc : Nat
  start : Int
  /-- Predicted length; the period but for a second GUN partial record. -/
  len : Int
  period : Int
  step : Int
  tol : Int
  stepThr : Int
  /-- KA and KB as the stride was issued (R171). -/
  ka : Nat := 1
  kb : Nat := 3
  n : Nat
  published : Bool := false
  /-- The cycle is the second partial record after a GUN (R125). -/
  gunPart : Bool := false
  /-- No delay line in its record (R183). -/
  fresh : Bool := false
  /-- It ends at the first true boundary after a relock (R137). -/
  relock : Bool := false
  /-- HOLD as the group read it at the cycle's start (R168). -/
  hold : Bool := false
  /-- The tracker's state at the decision on the cycle's end boundary (R170); none before it. -/
  endState : Option Nat := none
  /-- The Pacers (and 12 + g, the voltage Last) that were given the stride. -/
  who : List Nat := []
  /-- Scales and corrections latched at the cycle's start, by channel (R197 rows 5 to 7). -/
  sc : List Scale := []
  /-- The bindings in force at the cycle's start (R178, R260). -/
  bd : List Binding := []
  /-- N of the group. -/
  nNom : Nat := 256
  deriving DecidableEq, Repr

/-- What a partial record of a group takes from the strides it closes: its number, period and N, the last predicted boundary, and what the oldest of them had latched; `fresh` where it has no delay line (R183). -/
structure ClosePlan where
  cyc : Nat
  period : Int
  bound : Int := 0
  sc : List Scale := []
  bd : List Binding := []
  nNom : Nat := 256
  fresh : Bool := false
  deriving DecidableEq, Repr

/-- A partial record that a power-fail warning closes, until the frames its filter needs are in the ring (R57 step 4, R142): the close sample, the plan, and for each Pacer whose replay the warning abandoned the number of the cycle it had still to commit and whether that cycle had no delay line (R60, R151). -/
structure CloseJob where
  pos : Int
  plan : ClosePlan
  nums : List (Nat × Nat × Bool) := []
  deriving DecidableEq, Repr

/-- What waits for a Pacer's replay (R125, R160): a decision that came while the cycle before was still uncommitted, with its boundary and whether it is a false start; a GUN's frame, which closes the record in progress; and where the Pacer takes part again after the GUN's settle. -/
inductive PacerTask where
  | decision (st : Stride) (b : Int) (fs : Bool)
  | gun (pos : Int) (plan : ClosePlan)
  | join (pos : Int)
  deriving DecidableEq, Repr

/-- A tracker and its group's strides (R136–R141, R150–R155). -/
structure Tracker where
  /-- Consecutive cycles that met the lock condition. -/
  lockCnt : Nat := 0
  coastCnt : Nat := 0
  missing : Nat := 0
  /-- More than 48 samples in a row were missing since the last cycle end (R140). -/
  lost : Bool := false
  ts : Int := 0
  r : Int := 0
  /-- The next cycle (or block) number (R151). -/
  next : Nat := 0
  /-- Strides issued and not decided, oldest first. -/
  strides : List Stride := []
  /-- The boundary of record that the next cycle starts from. -/
  boundary : Int := 0
  /-- The crossing measured at the last decision (R152). -/
  lastMeas : Option Int := none
  /-- The last locked period (R137). -/
  locked : Int := 0
  /-- The first record after LOCK has no delay line (R183). -/
  fresh : Bool := true
  /-- Whole cycles and their total length, for the 10 s frequency (R138). -/
  f10Cycles : Nat := 0
  f10Frames : Int := 0
  f10Ok : Bool := false
  /-- Where the 10 s interval in progress began: cycles begun before it are not counted (R138). -/
  f10From : Int := 0
  /-- The end of an interval whose last cycles are still undecided. -/
  f10Due : Option Int := none
  /-- A relock is due at the next decision (R137). -/
  relock : Bool := false
  /-- Framing restarts at this position: the end of a GUN's settle (true, R125) or a close sample (false, R57). -/
  restartAt : Option (Int × Bool) := none
  /-- A committed normal cycle since ride-through began or start (R53). -/
  committed : Bool := false
  /-- B-1: the first false start after a GUN counts twice. -/
  b1 : Bool := false
  /-- The fixed-rate block in progress starts here (R145). -/
  blockStart : Option Int := none
  /-- Scales and corrections latched at its start (R157, R197). -/
  blockSc : List Scale := []
  /-- The partial record of the warning in progress (R57). -/
  job : Option CloseJob := none
  /-- Stopped by an orderly shutdown (R64). -/
  stopped : Bool := false
  /-- Its confirmed boundary came while a replay was running; it stops when the replay has committed (R64). -/
  stopping : Bool := false
  deriving DecidableEq, Repr

/-- A record of result RAM (R192–R194), lane or voltage; unused fields are 0. -/
structure Rec where
  cyc : Nat := 0
  mt : Nat := 0
  ep : Int := 0
  eq : Int := 0
  es : Int := 0
  ep1 : Int := 0
  eq1 : Int := 0
  rms : Nat := 0
  rmsMid : Nat := 0
  /-- RMS and RMS_MID had valid words and contiguous halves (R229). -/
  rmsOk : Bool := false
  midOk : Bool := false
  len : Nat := 0
  /-- The fundamental of a voltage channel (R190); of a lane, its current phasor that is posted to billing. -/
  uf : Nat := 0
  ufAng : Int := 0
  peak : Nat := 0
  dc : Int := 0
  spec : Bool := false
  falseStarted : Bool := false
  replay2 : Bool := false
  subst : Bool := false
  resync : Bool := false
  uns : Bool := false
  inj : Bool := false
  /-- The INJ comes from isolation (R103). -/
  iso : Bool := false
  clp : Bool := false
  gun : Bool := false
  pfPartial : Bool := false
  pf : Bool := false
  coast : Bool := false
  free : Bool := false
  relock : Bool := false
  noload : Bool := false
  unverified : Bool := false
  quad : Nat := 0
  fixed : Bool := false
  unsCnt : Nat := 0
  hgf : Nat := 0
  /-- Span of the record in 2^-16 frame, for every channel (R190's LEN for voltage channels). -/
  span : Nat := 0
  deriving DecidableEq, Repr

/-- What a starting block keeps for one channel (R157). -/
structure ChanBlock where
  /-- Remainders of EP, EQ, ES, EP1, EQ1 (R181). -/
  rem : List Int := [0, 0, 0, 0, 0]
  /-- Sum of squares, sum and count of the second half's valid words (R186). -/
  half : Int × Int × Nat := (0, 0, 0)
  halfOk : Bool := false
  /-- Last N/4 line-locked words, oldest first, with their UNS bit (R157; voltage channels). -/
  delay : List (Int × Bool) := []
  noload : Bool := false
  y : Int := 0
  x : Int := 0
  cmp : Cmp := {}
  /-- The output words of the Last for the record that led here, in the layout of R147. -/
  words : List Word := []
  /-- The Pacer inverts them (R178). -/
  inv : Bool := false
  deriving DecidableEq, Repr

/-- The records of one cycle in one Pacer, with the channel blocks they lead to; and, for a heat, the blocks of the group's voltage channels. -/
structure Work where
  recs : List (Nat × Rec × ChanBlock) := []
  volt : List (Nat × ChanBlock) := []
  deriving DecidableEq, Repr

/-- A Pacer (R150–R163), or the voltage Last of a group. -/
structure Pacer where
  /-- It has a starting block: it took part in the stride before. -/
  joined : Bool := false
  /-- The starting block's boundary of record (R157), and the voltage channels' blocks there as this Pacer holds them. -/
  sb : Int := 0
  volt : List (Nat × ChanBlock) := []
  /-- The records of the cycle that awaits its decision. -/
  spec : Option Work := none
  /-- The discarded speculative records of the cycle under recovery (R161). -/
  saved : Option Work := none
  /-- The cycle under replay: its stride with the new step, and B_meas. -/
  replay : Option (Stride × Int) := none
  attempt : Nat := 0
  /-- MT of the false start, for REPLAY_US. -/
  fsMt : Nat := 0
  /-- The next cycle starts at a substituted boundary (R162). -/
  resync : Bool := false
  /-- Working from the ring, not the live stream (R158). -/
  behind : Bool := false
  /-- What waits for the replay in progress, in order. -/
  todo : List PacerTask := []
  deriving DecidableEq, Repr

/-- A speculative event that its cycle's decision settles (R164–R166): group and event. -/
structure SpecEvent where
  grp : Nat
  ev : Event
  /-- Held back until its cycle commits (R168). -/
  held : Bool := false
  /-- A fast trip was made on it while it was speculative (R167). -/
  trip : Bool := false
  /-- An injected one may move a relay (R77). -/
  live : Bool := true
  deriving DecidableEq, Repr

/-- The metering engines and result RAM. -/
structure Meter where
  /-- Bytes of result RAM that a Pacer wrote over the bus since the record they lie in was last put there, by offset (R65). -/
  overlay : List (Nat × Byte) := []
  trk : List Tracker := List.replicate 4 {}
  /-- Pacers 0–11, then the voltage Last of groups 0–3. -/
  pacers : List Pacer := List.replicate 16 {}
  /-- Starting blocks of channels 0–207 (R157). -/
  sb : List ChanBlock := List.replicate 208 {}
  live : List (Option Rec) := List.replicate 208 none
  committed : List (Option Rec) := List.replicate 208 none
  /-- Holdup slots: per slot, the records by channel (R196). -/
  holdup : List (List (Nat × Rec)) := []
  /-- The number of holdup cycles of the present run already passed to billing. -/
  holdupPassed : Nat := 0
  specEvents : List SpecEvent := []
  deriving DecidableEq, Repr

/-! ### Pulse outputs (R210–R216), tables in force (R84–R87, R202) -/

/-- A pulse output (R211). -/
structure PulseOut where
  pend : Nat := 0
  acc : Nat := 0
  step : Nat := 0
  lost : Nat := 0
  /-- MT at which the output was last released. -/
  offAt : Option Nat := none
  deriving DecidableEq, Repr

/-- An entry of the temperature table (R202). -/
structure TempEntry where
  block : Nat
  t : Int
  gLg : Int
  gHg : Int
  dHg : Int
  ph : Int
  deriving DecidableEq, Repr

/-! ### Harmonics, aggregation and power-quality events (R217–R234) -/

/-- A window record (R222). -/
structure WinRec where
  win : Nat := 0
  hflags : Nat := 0
  mt : Nat := 0
  cycle : Nat := 0
  len : Nat := 0
  rms : Nat := 0
  thd50 : Nat := 0
  thd63 : Nat := 0
  phSum : Int := 0
  p1 : Int := 0
  g : List Nat := []
  sg : List Nat := []
  ang : List Int := []
  hp : List Int := []
  deriving DecidableEq, Repr

/-- An aggregation interval in progress for one channel: sums over its windows (R224). -/
structure AggSum where
  nwin : Nat := 0
  hflags : Nat := 0
  rms2 : Nat := 0
  thd50 : Nat := 0
  thd63 : Nat := 0
  ph : Int := 0
  p1 : Int := 0
  sg2 : List Nat := []
  g2 : List Nat := []
  deriving DecidableEq, Repr

/-- An aggregate record (R226). -/
structure AggRec where
  idx : Nat := 0
  hflags : Nat := 0
  mt : Nat := 0
  nwin : Nat := 0
  nmiss : Nat := 0
  rms : Nat := 0
  thd50 : Nat := 0
  thd63 : Nat := 0
  ph : Int := 0
  p1 : Int := 0
  sg : List Nat := []
  /-- Groups, aggregated as SG is (R224); the record's layout holds none. -/
  g : List Nat := []
  deriving DecidableEq, Repr

/-- A committed cycle of one channel, as a window gathers it (R217): number, MT, span in 2^-16 frame, the flags it adds and its words. -/
structure HCyc where
  cyc : Nat
  mt : Nat
  span : Nat
  hflags : Nat
  words : List (Int × Bool)
  deriving DecidableEq, Repr

/-- A voltage group's window and intervals (R217–R225). -/
structure HarmGrp where
  /-- Cycles gathered for the window in progress and after it, by channel, oldest first. -/
  chans : List (Nat × List HCyc) := []
  /-- The window in progress: the number of its first cycle, and the channels it covers (R217). -/
  window : Option (Nat × List Nat) := none
  /-- A complete window whose Pacers still write, by channel. -/
  done : Option (List (Nat × List HCyc)) := none
  /-- Windows produced since main power-on. -/
  win : Nat := 0
  short : List (Nat × AggSum) := []
  shortSlots : Nat := 0
  shortMiss : Nat := 0
  shortIdx : Nat := 0
  shortMt : Nat := 0
  ten : List (Nat × AggSum) := []
  tenMiss : Nat := 0
  tenIdx : Nat := 0
  tenMt : Nat := 0
  /-- Flags to add when the 10-minute interval closes: PF, SHORT, CLOCK. -/
  tenFlags : Nat := 0x00400000
  /-- A 10-minute tick whose interval waits for a window still in progress: the tick's MT and its slot of the day (R224). -/
  tenDue : Option (Nat × Nat) := none
  deriving DecidableEq, Repr

/-- An open power-quality event (R230–R232). -/
structure PqOpen where
  startMt : Nat
  nhalf : Nat := 0
  ext : Nat := 0
  ch : Nat := 0
  subst : Bool := false
  unsync : Bool := false
  pf : Bool := false
  replayed : Bool := false
  intrWithin : Bool := false
  inj : Bool := false
  deriving DecidableEq, Repr

/-- The detectors of one group: sag, swell, interruption (R230). -/
structure PqGrp where
  sag : Option PqOpen := none
  swell : Option PqOpen := none
  intr : Option PqOpen := none
  /-- A sag raised by injection, which ends at the next value (R234). -/
  fake : Option PqOpen := none
  deriving DecidableEq, Repr

/-- A record of the power-quality list (R232). -/
structure PqRec where
  seq : Nat
  type : Nat
  grp : Nat
  ch : Nat
  flags : Nat
  startMt : Nat
  durUs : Nat
  nhalf : Nat
  ext : Nat
  extPct : Nat
  deriving DecidableEq, Repr

/-- Harmonics, aggregates and the power-quality list. -/
structure Harm where
  grp : List HarmGrp := List.replicate 4 {}
  /-- Window buffers 0 and 1, by channel. -/
  buf0 : List (Nat × WinRec) := []
  buf1 : List (Nat × WinRec) := []
  shortRec : List (Nat × AggRec) := []
  tenRec : List (Nat × AggRec) := []
  pq : List PqGrp := List.replicate 4 {}
  /-- The detectors as the speculative records leave them. -/
  pqSpec : List PqGrp := List.replicate 4 {}
  /-- Events that ended in speculative records, whose list records wait for the commit (R231). -/
  pqDone : List (List PqRec) := List.replicate 4 []
  /-- The list's slots (R232) and the next event number. -/
  list : List (Nat × PqRec) := []
  listSeq : Nat := 0
  deriving DecidableEq, Repr

/-! ### Eyelet (R242–R258) -/

/-- A pod's life record values (R247). -/
structure PodLife where
  seq : Nat := 0
  installs : Nat := 0
  exposure : Nat := 0
  lastDev : Nat := 0
  lastLane : Nat := 0
  deriving DecidableEq, Repr

/-- A bound (or pending) pod: its identity, lane, header and tables (R247, R251). -/
structure Pod where
  id : Nat
  lane : Nat
  mapk : Nat
  irated : Nat
  budget : Nat
  expiry : Nat
  sensor : Nat := 0
  curTab : List (Nat × Int × Int) := []
  tmpTab : List (Int × Int × Int) := []
  /-- The life record in force, with the chip's newer values, and the slot that holds it: 0 A, 1 B (R249). -/
  life : PodLife := {}
  slot : Nat := 1
  /-- In force since a boundary of record (R251). -/
  inForce : Bool := false
  /-- To be unbound at the next boundary of record (R255). -/
  leaving : Bool := false
  /-- Its binding clears the lane's UNVERIFIED (R254). -/
  clears : Bool := false
  /-- EYE event 11 has been raised (R254). -/
  warned : Bool := false
  /-- Events 5 and 6 raised for this pod (R254). -/
  causes : List Nat := []
  /-- Bound from the cache and not yet checked against the wire (R252). -/
  unchecked : Bool := false
  /-- Its life record could not be read so far (R244). -/
  unread : Bool := false
  deriving DecidableEq, Repr

/-- A pod found and not yet placed: its wire and ID, and whether it is one that moved (R252, R255). -/
structure PodWait where
  wire : Nat
  id : Nat
  moved : Bool := false
  deriving DecidableEq, Repr

/-- A transaction on a wire after its attendance cell: the bytes the chip sent, and those that came back (R243). -/
structure EyeTx where
  wire : Nat
  sent : List Byte
  back : List Byte := []
  deriving DecidableEq, Repr

/-- The Eyelet controller: pods by lane, the pod cache, UNVERIFIED lanes due, the transfer in progress. -/
structure Eye where
  pods : List Pod := []
  cache : List Pod := []
  /-- Lanes that become UNVERIFIED at their next boundary of record (R254). -/
  unverDue : List Nat := []
  /-- Wires still to be searched in the scan in progress; 0 between scans (R255, R256). -/
  left : Nat := 0
  /-- Wires scanned since the start (R252). -/
  seen : Nat := 0
  waiting : List PodWait := []
  /-- The transactions of the newest operation, oldest first (R243). -/
  txs : List EyeTx := []
  /-- An XFER queued behind the scan: its pod data and failure (R256). -/
  xfer : Option (List Byte × Nat) := none
  deriving DecidableEq, Repr

/-! ### Billing (R259–R286), prepayment (R287–R296) -/

/-- A billing point's part of the image (R278, SUBH of R277, the PREPAY area of R296). -/
structure Bp where
  /-- mwh[q][t] at index q × 8 + t. -/
  mwh : List Nat := List.replicate 80 0
  rem : List Nat := List.replicate 10 0
  dacc : Nat := 0
  md : Nat := 0
  mdt : Nat := 0
  isoS : Nat := 0
  isoFrac : Nat := 0
  /-- BPb_STAT [15:0] as stored (R278). -/
  flags : Nat := 0
  /-- The last three subinterval powers, newest first. -/
  subh : List Nat := [0, 0, 0]
  credit : Int := 0
  acc : Int := 0
  /-- BPb_STATE.STATE. -/
  state : Nat := 0
  ecacc : Bool := false
  defer : Bool := false
  armed : Bool := false
  /-- The configuration bits of PREPAY.BPb_CFG, [31:28]. -/
  pcfg : Nat := 0
  deriving DecidableEq, Repr

/-- The billing image (R277, R296). -/
structure Image where
  kind : Nat := 0
  snapf : Nat := 0
  seq : Nat := 0
  cyc : List Nat := [0, 0, 0, 0]
  qk : Nat := 0
  mt : Nat := 0
  time : Nat := 0
  lastb : Nat := 0
  dstart : Nat := 0
  jseq : Nat := 0
  bp : List Bp := List.replicate 64 {}
  podx : List Nat := List.replicate 192 0
  tidH : Nat := 0
  tidMask : Nat := 0
  tidAny : Bool := false
  openMask : Nat := 0
  armMask : Nat := 0
  causeMask : Nat := 0
  jpend : Option JEntry := none
  deriving DecidableEq, Repr

/-- A committed lane record posted to the billing engine (R195, R261): lane, group, its record, and the billing point and binding that it was posted for. -/
structure Posting where
  lane : Nat
  grp : Nat
  rcd : Rec
  bp : Nat
  key : Binding
  deriving DecidableEq, Repr

/-- A tariff table in force (R267): the image's entries as bytes. -/
abbrev Entry := List Byte

/-- The tariff a schedule is at (R269): tariff, day type, season, special day. -/
structure TarNow where
  tar : Nat := 0
  day : Nat := 0
  season : Nat := 0
  special : Bool := false
  deriving DecidableEq, Repr

/-- The billing engine. -/
structure Bill where
  /-- The image: the working state that a commit writes (R46, R279). -/
  img : Image := {}
  /-- Bindings in force and bindings that wait for their boundary (R260). -/
  bound : List Binding := List.replicate 64 {}
  pendingB : List (Nat × Binding) := []
  posts : List Posting := []
  /-- Committed voltage records posted with them, newest last: channel and record (R324). -/
  volts : List (Nat × Rec) := []
  /-- The last closed demand per point. -/
  demLast : List Nat := List.replicate 64 0
  /-- BPb_STAT bits that the running interval carries to its close: CLOCK, PF (R275, R276, R58). -/
  demFlags : Nat := 0
  /-- MT at the start of the running (sub)interval, and the holdups ridden through that may touch it: their warnings and clearings (R58). -/
  demMt : Nat := 0
  holdups : List (Nat × Nat) := []
  /-- Seconds whose boundaries have not run: the second and the MT of its tick, oldest first (R274, R60). -/
  due : List (Nat × Nat) := []
  /-- The second whose boundaries ran last, and the MT of its tick. -/
  done : Nat × Nat := (0, 0)
  /-- The last second that has had a snapshot (R360, R361). -/
  snapped : Option Nat := none
  /-- The tariff table in force and one accepted for the next second (R85). -/
  tariff : List Entry := []
  tariffNext : Option (List Entry) := none
  /-- Tariff in force per schedule (R269, R270). -/
  now : List TarNow := List.replicate 4 {}
  /-- Journal entries newest first (R281, R282). -/
  journal : List JEntry := []
  jnext : Nat := 0
  /-- The power-fail commit or the final commit of a shutdown was made: nothing is applied after it (R57, R64). -/
  frozen : Bool := false
  /-- Event 9 of PREPAY was raised for this table (R288). -/
  noPriceTold : Bool := false
  deriving DecidableEq, Repr

/-- MRAM as structured records (R66, R67, R277): live buffers, snapshots. Their bytes are computed on a read. -/
structure Mram where
  live0 : Option Image := none
  live1 : Option Image := none
  snaps : List (Option Image) := List.replicate 24 none
  /-- The persistent controls (R67) have been written since the device left the factory (R496). -/
  controls : Bool := false
  deriving DecidableEq, Repr

/-- Prepayment's token check in progress (R290): the verdict waits for the billing engine. -/
structure Prepay where
  /-- The accepted token to apply between two cycles: bytes of the token. -/
  todo : Option (List Byte) := none
  commit : Bool := false
  deriving DecidableEq, Repr

/-! ### Disconnects and the display (R297–R320) -/

/-- An operation of a position (R302): open or close, and its cause (1 COMMAND, 2 PREPAY, 3 TRIP, 4 LOCAL, 5 restore). -/
structure DOp where
  dp : Nat
  isOpen : Bool
  cause : Nat
  deriving DecidableEq, Repr

/-- A disconnect position's state beyond its registers. -/
structure Dp where
  /-- Commanded open. -/
  isOpen : Bool := false
  /-- Level on the output, DDRV or chain (R297). -/
  level : Bool := false
  pending : Bool := false
  /-- The last check found agreement (R307). -/
  verified : Bool := false
  /-- A first disagreement waits for its re-check; the FCODE it would take. -/
  recheck : Option Nat := none
  /-- Committed records out of no-load in a row while open (R307). -/
  curRun : Nat := 0
  opsWarned : Bool := false
  ibrkWarned : Bool := false
  deriving DecidableEq, Repr

/-- An entry of the disconnect-sequence table (R304). -/
structure SeqEntry where
  dp : Nat
  openRank : Nat
  closeRank : Nat
  gap : Nat
  deriving DecidableEq, Repr

/-- A rank of a batch still to run (R304): its operations, the gap after it in ms, and whether it ends its batch. -/
structure Rank where
  ops : List DOp
  gap : Nat
  last : Bool
  deriving DecidableEq, Repr

/-- The disconnect block. -/
structure Disc where
  dps : List Dp := List.replicate 64 {}
  /-- Operations accepted for the next step 7, oldest first (R302). -/
  queue : List DOp := []
  /-- Ranks of the batches in progress still to run. -/
  ranks : List Rank := []
  table : List SeqEntry := []
  /-- Events that an enabled trip slot names: slot and whether the event was speculative (R306). -/
  trips : List (Nat × Bool) := []
  armMask : Nat := 0
  causeMask : Nat := 0
  /-- Chain outputs as latched, bit k for DP(16 + k), and whether the first frame has latched (R299, R300). -/
  chain : Nat := 0
  chainLatched : Bool := false
  /-- The GPIO of OEG is driven (R300). -/
  oe : Bool := false
  /-- Long presses accepted: billing points (R305). -/
  presses : List Nat := []
  /-- Positions whose trip waits for the operation that runs (R302). -/
  tripWait : List Nat := []
  /-- Points whose open requests are made again at an evaluation (R309), and points whose reconnection waits for OSF to clear (R295). -/
  redo : List Nat := []
  reconn : List Nat := []
  deriving DecidableEq, Repr

/-- The display (R310–R314): the table in force, the page shown, the selected billing point, scrolling held, what was sent last. -/
structure Disp where
  table : List Entry := []
  page : Nat := 0
  sel : Option Nat := none
  holding : Bool := false
  /-- The bits of the last frame in the order sent, and frames sent. -/
  bits : List Bool := []
  frames : Nat := 0
  /-- The phase of flashing icons. -/
  flash : Bool := false
  deriving DecidableEq, Repr


/-! ### Tamper and the key store (R321–R342) -/

/-- A meter-tamper condition on a lane, a billing point or a group: active, and the consecutive cycles towards a change (R324). -/
structure Cond where
  on : Bool := false
  cnt : Nat := 0
  deriving DecidableEq, Repr

/-- The tamper block beyond its registers. -/
structure Tamp where
  rev : List Cond := List.replicate 192 {}
  byp : List Cond := List.replicate 64 {}
  neut : List Cond := List.replicate 4 {}
  /-- The lace loops' 15-bit registers, and loops whose burst failed and is due its retry (R323). -/
  lfsr : List Nat := [1, 1, 1, 1]
  retry : List Bool := [false, false, false, false]
  /-- Events made from flags that were set on VBAT alone, raised when main power returns (R338). -/
  owed : List Event := []
  /-- Physical tampers told at this start and still to be journalled once billing has recovered (R335). -/
  owedJ : List Event := []
  deriving DecidableEq, Repr

/-- A seal record whose MAC is valid (R334). -/
structure SealRec where
  isSealed : Bool
  seq : Nat
  tt : Nat
  tariff : Nat
  deriving DecidableEq, Repr

/-- A SEC operation that runs (R341): its number, the reason it will report, and its events. -/
structure SecOp where
  op : Nat
  reason : Nat
  deriving DecidableEq, Repr

/-- The key store (R327–R336). `okey`, `fails`, `lockEnd` live in the backup domain. -/
structure Sec where
  okey : Option (List Byte) := none
  /-- Consecutive failed AUTHs (R330; backup domain). -/
  fails : Nat := 0
  /-- The end of the lockout, in 1/32 768 s from the start of the present RTC second (R330; backup domain). -/
  lockEnd : Nat := 0
  tok : Option (List Byte) := none
  net : Option (List Byte) := none
  /-- Wrapped records in MRAM configuration, 64 bytes each (R328). -/
  wrapTok : List Byte := List.replicate 64 0
  wrapNet : List Byte := List.replicate 64 0
  seal0 : Option SealRec := some ⟨false, 1, 0x60C00000, 0x60C01000⟩
  seal1 : Option SealRec := none
  nonce : Option (List Byte) := none
  running : Option SecOp := none
  /-- Fuses that the FUSE in progress has still to program (R336). -/
  fusing : List Nat := []
  /-- ERASE_TEST was accepted in the open session and not used (R337). -/
  eraseTest : Bool := false
  deriving DecidableEq, Repr

/-- One-time programmable memory (R327, R336, R454). -/
structure Otp where
  seed : List Byte := List.replicate 16 0
  fused : Nat := 0
  sealPerm : Bool := false
  oroot : Option (List Byte) := none
  floor : Nat := 0
  deriving DecidableEq, Repr

/-! ### RTC (R343–R368) -/

/-- A rate measurement in progress (R356): the first capture, of RTC linear time and with SRC 1 of NT in µs, once made. -/
structure RateM where
  src : Nat
  grp : Nat
  hours : Nat
  lin0 : Option Nat := none
  count : Nat := 0
  /-- Cycles since the first boundary, and linear time at the boundary that completes the reference (R356). -/
  cycles : Nat := 0
  lin1 : Option Nat := none
  deriving DecidableEq, Repr

/-- The responses of a fired alarm that need main power and have still to be made, latched at its firing (R60, R274, R360, R368). -/
structure AlmDue where
  alm : Nat
  sec : Nat
  inj : Bool := false
  live : Bool := true
  caught : Bool := false
  snap : Bool := false
  wake : Bool := false
  /-- It fired in HOLDUP (R362). -/
  held : Bool := false
  deriving DecidableEq, Repr

/-- The RTC beyond its registers. `lin` is linear time: seconds × 32768 + sub-second (R343). -/
structure Rtc where
  lin : Nat := 0
  /-- Frozen copies, per master (R346). -/
  frozen : List (Nat × Nat) := []
  /-- TRIM as it last took effect (R354), and the term of the correction as last evaluated, times 65 536 (R355). -/
  trim : Int := 0
  corr : Int := 0
  /-- The trim accumulator (R354). -/
  acc : Int := 0
  shiftNeg : Bool := false
  /-- BKP periods since the shift in progress last added or skipped a count (R352). -/
  shiftPer : Nat := 0
  rate : Option RateM := none
  /-- A rate result waits for SHIFT_BUSY to clear (R356). -/
  autoDue : Option Int := none
  /-- A TRIM written and not yet in effect (R354). -/
  trimNew : Bool := false
  /-- MT at which `lin` was last brought up to date. -/
  linMt : Nat := 0
  /-- ALARM_N pulses in progress, as the second and sub-second count at which each alarm's pulse ends. -/
  pulse : List Nat := [0, 0]
  /-- Level requests on ALARM_N, per alarm, from its firing until its flag is cleared (R360). -/
  level : List Bool := [false, false]
  /-- Fired alarms whose responses wait for step 5 of their second or for ride-through (R274, R362). -/
  due : List AlmDue := []
  deriving DecidableEq, Repr

/-! ### Wilola powerline (R369–R399) -/

/-- A tone map (R386); `codes` are carriers 100 to 1666 in order. -/
structure TMap where
  tmi : Nat
  rate : Nat
  gi : Bool
  noise : Bool
  kb : Nat
  span : Nat
  plan : Nat
  nbits : Nat
  codes : List Nat
  deriving DecidableEq, Repr

/-- What the MAC keeps for a neighbour besides its NBi registers (R387, R388, R394, R412). -/
structure Nb where
  /-- The last leads, in 0.01°, newest first (R394). -/
  leads : List Nat := []
  /-- The last attempts with ACKREQ, newest first: true acknowledged (R388). -/
  acks : List Bool := []
  tx : Option TMap := none
  rx : Option TMap := none
  rxOld : Option TMap := none
  nextTmi : Nat := 1
  /-- SNR of its frames of the last second, 0.25 dB, with the MT of each, newest first (R388). -/
  snrs : List (Nat × Int) := []
  /-- Mean SNR at the receive map's installation, as a sum and a number of frames (R388). -/
  refSnr : Option (Int × Nat) := none
  /-- A negotiation begun here runs, until this MT at most if its SOUND has gone out and nothing answers (R387, R395). -/
  negEnd : Option Nat := none
  /-- REFRESH is due in the next ACK to it (R388). -/
  askRefresh : Bool := false
  fcHigh : Nat := 0
  fcMask : Nat := 0
  fcAny : Bool := false
  /-- MT when it was last heard (NBi_HEARD). -/
  heardMt : Nat := 0
  /-- MT when the transmit map, be it the map of zeros, was installed (R388). -/
  txMt : Option Nat := none
  deriving DecidableEq, Repr

/-- A frame waiting for or in transmission (R380, R384). -/
structure TxFrame where
  type : Nat
  src : Nat
  dst : Nat
  enc : Bool
  ackreq : Bool
  retx : Nat := 0
  seq : Nat := 0
  /-- The clear mesh payload: header and body; for other types the payload without its CRC. -/
  payload : List Byte := []
  deriving DecidableEq, Repr

/-- A frame under span interleaving that is still arriving (R389): how it is received, its bytes, the MT of its end, and whether its receive map is gone. -/
structure Arriving where
  rx : RxInfo
  fc : List Byte
  payload : List Byte
  endMt : Nat
  lost : Bool := false
  deriving DecidableEq, Repr

/-- Wilola beyond its registers. -/
structure Plc where
  /-- Notched ranges of the band plan in force, and a plan accepted while a frame is in flight (R374). -/
  plan : Option (List (Nat × Nat)) := none
  planNext : Option (List (Nat × Nat) × Nat) := none
  nbs : List Nb := List.replicate 64 {}
  queue : List TxFrame := []
  inflight : Option TxFrame := none
  seq : Nat := 0
  /-- The last frame put on the line: frame control and payload bytes. -/
  sent : List Byte × List Byte := ([], [])
  /-- Payload symbols of that frame (R381). -/
  sentSyms : Nat := 0
  /-- The tone map of that frame's payload, none in robust mode, the band plan it goes out under, and COUPLE and ATTEN (R374, R376). -/
  sentMap : Option TMap := none
  sentPlan : List (Nat × Nat) := []
  sentDrive : Nat × Nat := (0, 0)
  /-- MT of the first and the last preamble, control or payload sample of the frame or ACK that went out last, 0 for none, and of the end of the frame last received. -/
  txFrom : Nat := 0
  txTo : Nat := 0
  rxTo : Nat := 0
  /-- Frames handed back to the MAC software as undelivered, newest first (R384). -/
  undelivered : List TxFrame := []
  arriving : List Arriving := []
  /-- SRC and SEQ of the frame last accepted from each sender (R384). -/
  lastSeq : List (Nat × Nat) := []
  /-- The last ACK sent: destination, SEQ, OK, REFRESH (R383). -/
  ackSent : Option (Nat × Nat × Bool × Bool) := none
  /-- Its frame control (R380, R383). -/
  ackFc : List Byte := []
  /-- Tone maps refused, wrapping at 2^32 (R386). -/
  mapRefused : Nat := 0
  deriving DecidableEq, Repr

/-! ### Mesh and network time (R400–R418) -/

/-- A route (R407); METRIC 0xFFFFFF is unreachable. -/
structure Route where
  dest : Nat
  next : Nat
  metric : Nat
  hops : Nat
  seq : Nat
  /-- Changed and not yet advertised (R407). -/
  changed : Bool := true
  deriving DecidableEq, Repr

/-- A parent candidate heard in LISTEN (R402). -/
structure Cand where
  addr : Nat
  metric : Nat
  bnonce : List Byte
  deriving DecidableEq, Repr

/-- The mesh beyond its registers. -/
structure Mesh where
  routes : List Route := []
  cands : List Cand := []
  /-- Parent and BNONCE of the request in progress, and failures in a row (R402). -/
  asked : Option Cand := none
  /-- The join in progress asks for any address, after a conflict (R405). -/
  wantAny : Bool := false
  fails : Nat := 0
  /-- The root's table of DEVID, address and whether it is in use (R404, R415). -/
  table : List (List Byte × Nat × Bool) := []
  /-- START of R411 and frames encrypted since. -/
  start : Nat := 0
  n : Nat := 0
  /-- NT in µs, wraps included, at MT `ntMt` (R413). -/
  nt : Nat := 0
  ntMt : Nat := 0
  /-- Consecutive frames within 4 µs (R414). -/
  within : Nat := 0
  /-- Bodies handed to the Starter or a Baton: KIND, originator, body, newest first. -/
  rx : List (Nat × Nat × List Byte) := []
  /-- Bodies a relay carries for a joiner at address 0, by DEVID (R402). -/
  relays : List (List Byte) := []
  /-- MT of the last triggered advertisement (R407). -/
  advMt : Option Nat := none
  deriving DecidableEq, Repr

/-! ### Engines and update (R444–R466) -/

/-- A boot record whose MAC is valid (R448): ACTIVE 0 slot A, STATE 0 CONFIRMED, 1 TRIAL, 2 FALLEN_BACK. -/
structure BootRec where
  seq : Nat
  active : Nat
  state : Nat
  valid : Nat
  fbcause : Nat
  genA : Nat
  genB : Nat
  bidA : List Byte
  bidB : List Byte
  deriving DecidableEq, Repr

/-- A reception (R456, R458): its bundle, the blocks held and those recorded in MRAM. -/
structure Recep where
  bid : List Byte
  gen : Nat
  ntot : Nat
  slot : Nat
  /-- Indices of the blocks verified, those in staging (oldest first) and those written to the slot. -/
  held : List Nat := []
  staged : List Nat := []
  /-- Table blocks held whose TABLE_HASH has passed. -/
  tableOk : Bool := false
  /-- Indices recorded in MRAM: every block of the slot up to the last multiple of 64 (R458). -/
  recorded : List Nat := []
  /-- Blocks whose last copy failed: index and whether by injection. -/
  failedOnce : List (Nat × Bool) := []
  nometro : Bool := false
  complete : Bool := false
  deriving DecidableEq, Repr

/-- The update hardware and Baton 1's update service. -/
structure Upd where
  boot0 : Option BootRec := none
  boot1 : Option BootRec := none
  recep : Option Recep := none
  /-- Blocks a child asked for and has not confirmed: child, index. -/
  asked : List (Nat × Nat) := []
  /-- Neighbours that offered the bundle in reception. -/
  offers : List Nat := []
  /-- Known-answer tests passed: bit k Pacer k, bit 12 the billing engine (R462). -/
  kat : Nat := 0
  /-- Groups that had a cycle committed and applied since start. -/
  applied : Nat := 0
  /-- Faults of the activation in progress (R461). -/
  faults : Nat := 0
  /-- The trial window has expired (R463); the fallback reset may be deferred. -/
  expired : Bool := false
  /-- The next start is the trial itself: the window timer was loaded and no start has followed (R460). -/
  trialDue : Bool := false
  /-- A fallback that the next start reports once its engines run (R463). -/
  fell : Bool := false
  /-- Floor fuses are being blown: MT at which the one in progress is (R454). -/
  floorGo : Option Nat := none
  /-- Harts released by their loaders that a soft reset took out of UPD.ENG alone (R48). -/
  engKept : Nat := 0
  deriving DecidableEq, Repr

/-! ### Self-test (R467–R488) -/

/-- A slice entry (R474). -/
structure SliceEnt where
  result : Nat := 0
  cov : Nat := 0
  dur : Nat := 0
  peak : Nat := 0
  detail : Nat := 0
  tmax : Nat := 0
  deriving DecidableEq, Repr

/-- A self-test record (R473). -/
structure BistRec where
  complete : Bool := false
  origin : Nat := 0
  interrupted : Bool := false
  hot : Bool := false
  failed : Bool := false
  seq : Nat := 0
  time : Nat := 0
  mt : Nat := 0
  totalMs : Nat := 0
  nfail : Nat := 0
  ntrans : Nat := 0
  timeosf : Bool := false
  ents : List SliceEnt := List.replicate 46 {}
  deriving DecidableEq, Repr

/-- The sequencer: both record copies, and the test in progress. -/
structure Bist where
  rec0 : Option BistRec := none
  rec1 : Option BistRec := none
  running : Bool := false
  slice : Nat := 0
  /-- The slice's second run is in progress (R470). -/
  second : Bool := false
  /-- Waiting to cool before `slice` (R472). -/
  cooling : Bool := false
  /-- The highest sensor reading of the slice that runs, in 1/16 °C (R474). -/
  tmax : Int := 0
  /-- When the slice that runs goes from SHORT to the STIM loopback (R468). -/
  stimMt : Option Nat := none
  /-- An abandoned test's BIST event 4 is raised at the next start (R487). -/
  owed : Bool := false
  deriving DecidableEq, Repr

/-! ### Host interfaces (R419–R443) -/

/-- A UART: FIFOs, oldest byte first (R434). -/
structure Uart where
  tx : List Byte := []
  rx : List Byte := []
  /-- The byte in the shifter. -/
  shift : Option Byte := none
  deriving DecidableEq, Repr

/-- The host interfaces beyond their registers. -/
structure HostIf where
  /-- A host read that stands in WAIT at an isolated island (B-2): the address of the word it waits for, the words that remain, and those gathered. -/
  held : Option (Nat × Nat × List Word) := none
  /-- Status bits [4:1] of the previous transaction (R425), and whether the last CRC check failed: by injection or not (R424). -/
  prev : Nat := 0
  crcBad : Option Bool := none
  /-- Bytes the device returned in the last transaction: the words of a read. -/
  reply : List Word := []
  token : Nat := 0
  /-- The status byte of the last transaction (R425). -/
  status : Nat := 0
  uarts : List Uart := [{}, {}]
  /-- Chain frames buffered for Baton 1, and forwarded to the next node (R435). -/
  chainBuf : List (List Byte) := []
  chainOut : List (List Byte) := []
  /-- SEQ of this node's own chain frames. -/
  chainSeq : Nat := 0
  /-- Ring positions of the Ethernet MAC and the frame being sent (R438). -/
  txIdx : Nat := 0
  rxIdx : Nat := 0
  ethOut : Option (List Byte) := none
  /-- End of a pause, in meter time, and a transmission that waits for it (R437). -/
  ethPause : Option Nat := none
  ethHeld : Bool := false
  mdio : Bool := false
  /-- Debug Module registers the port has written: address and word, last written last (R440). -/
  dmi : List (Nat × Word) := []
  /-- The port's last answer: response and data, and whether data follow (R440). -/
  dbgReply : Nat × Word := (0, 0)
  dbgData : Bool := false
  dbgen : Bool := false
  /-- FLASH operation in progress: OP, address and the page to program (R481). -/
  flashOp : Option (Nat × Nat × List Byte) := none
  /-- Halted harts that are uncounted, with the MT of the halt; harts resumed by request (R440, R441). -/
  haltMt : List (Nat × Nat) := []
  resumed : Nat := 0
  /-- Pacers and billing engine that a tamper erase found halted: they stay so until DBGEN falls (R443). -/
  pinned : Nat := 0
  deriving DecidableEq, Repr

/-! ### The whole machine -/

/-- Everything the spec gives the block but the byte memory and the command queue. -/
structure Dev where
  /-- The registers: address and word, strictly rising, none equal to its reset value (RegTable). -/
  regs : List (Nat × Word) := []
  /-- Meter time MT, 64 bits, in ticks of 1/24.576 MHz (R41). -/
  mt : Nat := 0
  /-- The model's own counter of the free values it has used (assumption log 2). -/
  free : Nat := 0
  power : Power := {}
  clk : Clk := {}
  pins : Pins := {}
  bus : Bus := {}
  cap : Capture := {}
  fe : Fe := {}
  /-- The temperature table in force (R205). -/
  temps : List TempEntry := []
  meter : Meter := {}
  pulse : List PulseOut := List.replicate 8 {}
  /-- MT at which calibration mode ends (R213). -/
  pulseCal : Nat := 0
  harm : Harm := {}
  eye : Eye := {}
  bill : Bill := {}
  mram : Mram := {}
  prepay : Prepay := {}
  disc : Disc := {}
  disp : Disp := {}
  tamp : Tamp := {}
  sec : Sec := {}
  otp : Otp := {}
  rtc : Rtc := {}
  plc : Plc := {}
  mesh : Mesh := {}
  upd : Upd := {}
  bist : Bist := {}
  host : HostIf := {}
  deriving DecidableEq, Repr

/-- The state of the block: the device, its byte memory (RAM, flash, buffers; canonical) and the commands that wait, first in first out. -/
structure State extends Dev where
  mem : List Host.Cell := []
  pending : List Instr := []
  deriving DecidableEq, Repr

/-- The block right after main power came up for the first time: the internal reset asserted, every register at its reset value, the backup domain just powered up from loss, MRAM as it left the factory (R496). -/
def State.reset : State := {}

end Sys2Proof.Machine
end

