-- ==== Sys2Proof/Machine/Ops.lean ====
section
/-! DEFINITION. The named operations over registers and memory: the canonical store both use, the reset value of every register, reading and writing a register or a field, the errors a page reports, and the small queries every meaning makes of the state. -/

namespace Sys2Proof.Machine

/-! ### A sparse store in canonical form -/

/-- The value at `a`: the listed one, or what an unlisted address reads as. -/
def Store.read {w : Nat} (d : Nat → BitVec w) (m : List (Nat × BitVec w)) (a : Nat) : BitVec w :=
  match m.find? (fun c => c.1 == a) with
  | some c => c.2
  | none => d a

/-- The store without `a`. -/
def Store.erase {w : Nat} (m : List (Nat × BitVec w)) (a : Nat) : List (Nat × BitVec w) :=
  m.filter (fun c => c.1 != a)

/-- The store with `a` put before the first higher address. -/
def Store.insert {w : Nat} : List (Nat × BitVec w) → Nat → BitVec w → List (Nat × BitVec w)
  | [], a, v => [(a, v)]
  | c :: r, a, v => if a < c.1 then (a, v) :: c :: r else c :: Store.insert r a v

/-- A write: the default value removes the entry, any other is listed in order. -/
def Store.write {w : Nat} (d : Nat → BitVec w) (m : List (Nat × BitVec w)) (a : Nat) (v : BitVec w) : List (Nat × BitVec w) :=
  if v = d a then Store.erase m a else Store.insert (Store.erase m a) a v

/-- The canonical form: addresses strictly rising, no entry equal to what its address reads as unlisted. -/
def Store.wf {w : Nat} (d : Nat → BitVec w) : List (Nat × BitVec w) → Bool
  | [] => true
  | [c] => c.2 != d c.1
  | c :: c' :: r => c.2 != d c.1 && decide (c.1 < c'.1) && Store.wf d (c' :: r)

/-! ### Pages and reset values (R70–R73) -/

/-- The base of page `p` (R70). -/
def pageBase (p : Nat) : Nat := 0x40000000 + p * 0x1000

/-- The page of a register address. -/
def pageOf (a : Nat) : Nat := (a - 0x40000000) / 0x1000

/-- The kind, instance and first index of the page's kind (R70, R73). -/
def pageKind (p : Nat) : Option (PageKind × Nat × Nat) :=
  if p = 0x00 then some (.sys, 0, 0x00) else if p = 0x01 then some (.clk, 0, 0x01)
  else if p = 0x02 then some (.pwr, 0, 0x02) else if p = 0x03 then some (.intc, 0, 0x03)
  else if p = 0x04 then some (.split, 0, 0x04) else if p = 0x05 then some (.bist, 0, 0x05)
  else if p = 0x06 then some (.upd, 0, 0x06) else if p = 0x07 then some (.sec, 0, 0x07)
  else if p = 0x08 then some (.tamp, 0, 0x08) else if p = 0x09 then some (.rtc, 0, 0x09)
  else if p = 0x0A then some (.eye, 0, 0x0A) else if p = 0x0B then some (.cap, 0, 0x0B)
  else if p = 0x0C then some (.dram, 0, 0x0C) else if p = 0x0D then some (.flash, 0, 0x0D)
  else if p = 0x0E then some (.mram, 0, 0x0E) else if p = 0x0F then some (.gpio, 0, 0x0F)
  else if p < 0x1C then some (.heat, p - 0x10, 0x10) else if p = 0x1C then some (.ugrp, 0, 0x1C)
  else if p = 0x1D then some (.frame, 0, 0x1D) else if p < 0x2A then some (.pacer, p - 0x1E, 0x1E)
  else if p < 0x2D then some (.lane, p - 0x2A, 0x2A) else if p = 0x2D then some (.uch, 0, 0x2D)
  else if p = 0x2E then some (.harm, 0, 0x2E) else if p = 0x2F then some (.pqe, 0, 0x2F)
  else if p = 0x30 then some (.bill, 0, 0x30) else if p = 0x31 then some (.tariff, 0, 0x31)
  else if p = 0x32 then some (.prepay, 0, 0x32) else if p = 0x33 then some (.disc, 0, 0x33)
  else if p = 0x34 then some (.pulse, 0, 0x34) else if p = 0x35 then some (.disp, 0, 0x35)
  else if p = 0x36 then some (.plcphy, 0, 0x36) else if p = 0x37 then some (.plcmac, 0, 0x37)
  else if p = 0x38 then some (.mesh, 0, 0x38) else if p = 0x39 then some (.eth, 0, 0x39)
  else if p < 0x3C then some (.uart, p - 0x3A, 0x3A) else if p = 0x3C then some (.spih, 0, 0x3C)
  else if p = 0x3D then some (.dbg, 0, 0x3D) else none

/-- The description row that offset `off` of a page kind lies on. -/
def findRow (rows : List RegRow) (off : Nat) : Option RegRow :=
  rows.find? fun r => decide (r.off ≤ off) && decide ((off - r.off) % r.stride = 0) && decide ((off - r.off) / r.stride < r.count)

/-- The reset value of a register row: its fields' reset values in place. -/
def RegRow.rst (r : RegRow) : Nat := (r.fields.map fun f => f.rst * 2 ^ f.lo).sum

/-- The reset value of the header word at `off` (R73). -/
def headerReset (k : PageKind) (first off : Nat) : Nat :=
  if off = 0x00 then first * 65536 + 0x0100
  else if off = 0x04 then
    k.isl * 2 ^ 24 + k.nev * 2 ^ 16 + (if k.sealctl then 1024 else 0)
      + (if k.rows.any (fun r => r.fields.any fun f => f.acc == .rwl || f.acc == .rwlw1s) then 512 else 0)
      + (if k.dets.isEmpty then 0 else 256) + k.ninst
  else if off = 0x08 then k.enReset
  else 0

/-- What the register at address `a` holds after reset; 0 where no register stands (R71). -/
def regReset (a : Nat) : Word :=
  if a < 0x40000000 then 0
  else match pageKind (pageOf a) with
    | none => 0
    | some (k, _, first) =>
      let off := (a - 0x40000000) % 0x1000
      if off < 0x40 then BitVec.ofNat 32 (headerReset k first off)
      else match findRow k.rows off with
        | some r => BitVec.ofNat 32 r.rst
        | none => 0

/-! ### Bits of a word -/

/-- Bits [hi:lo] of a word as a number. -/
def bitsOf (w : Word) (hi lo : Nat) : Nat := w.toNat / 2 ^ lo % 2 ^ (hi + 1 - lo)

/-- The word with bits [hi:lo] replaced by `v`. -/
def putBits (w : Word) (hi lo v : Nat) : Word :=
  BitVec.ofNat 32 (w.toNat % 2 ^ lo + v % 2 ^ (hi + 1 - lo) * 2 ^ lo + w.toNat / 2 ^ (hi + 1) * 2 ^ (hi + 1))

/-- A field's value as a signed number. -/
def signedOf (n width : Nat) : Int := if n < 2 ^ (width - 1) then (n : Int) else (n : Int) - (2 ^ width : Nat)

/-- A signed number in `width` bits, two's complement. -/
def unsignedOf (i : Int) (width : Nat) : Nat := (i % (2 ^ width : Nat)).toNat

/-! ### Registers -/

/-- The register file. -/
abbrev Regs := List (Nat × Word)

def Regs.rd (m : Regs) (a : Nat) : Word := Store.read regReset m a
def Regs.wr (m : Regs) (a : Nat) (v : Word) : Regs := Store.write regReset m a v
def Regs.get (m : Regs) (f : Field) : Nat := bitsOf (Regs.rd m f.addr) f.hi f.lo
def Regs.set (m : Regs) (f : Field) (v : Nat) : Regs := Regs.wr m f.addr (putBits (Regs.rd m f.addr) f.hi f.lo v)

/-- The word of the register at an address. -/
def Dev.rd (s : Dev) (a : Nat) : Word := Regs.rd s.regs a
/-- Put a whole word into the register at an address. -/
def Dev.wr (s : Dev) (a : Nat) (v : Word) : Dev := { s with regs := Regs.wr s.regs a v }
/-- The value of a field. -/
def Dev.get (s : Dev) (f : Field) : Nat := Regs.get s.regs f
/-- The value of a signed field. -/
def Dev.getI (s : Dev) (f : Field) : Int := signedOf (s.get f) (f.hi + 1 - f.lo)
/-- A one-bit field read as a truth value. -/
def Dev.on (s : Dev) (f : Field) : Bool := s.get f == 1
/-- Replace a field. -/
def Dev.set (s : Dev) (f : Field) (v : Nat) : Dev := { s with regs := Regs.set s.regs f v }
/-- Replace a signed field. -/
def Dev.setI (s : Dev) (f : Field) (v : Int) : Dev := s.set f (unsignedOf v (f.hi + 1 - f.lo))
/-- Set a one-bit field from a truth value. -/
def Dev.setB (s : Dev) (f : Field) (b : Bool) : Dev := s.set f b.toNat
/-- Count up, staying at the field's greatest value ("saturating"). -/
def Dev.bump (s : Dev) (f : Field) : Dev :=
  if s.get f + 1 < 2 ^ (f.hi + 1 - f.lo) then s.set f (s.get f + 1) else s
/-- Count up, wrapping to 0 ("wrapping"). -/
def Dev.count (s : Dev) (f : Field) : Dev := s.set f ((s.get f + 1) % 2 ^ (f.hi + 1 - f.lo))
/-- A 64-bit value in a pair of whole registers, low word at `lo`. -/
def Dev.set64 (s : Dev) (lo hi : Nat) (v : Nat) : Dev :=
  (s.wr lo (BitVec.ofNat 32 v)).wr hi (BitVec.ofNat 32 (v / 2 ^ 32))
/-- The 64-bit value of a pair. -/
def Dev.get64 (s : Dev) (lo hi : Nat) : Nat := (s.rd lo).toNat + (s.rd hi).toNat * 2 ^ 32

/-! ### The page header (R73) -/

def Hdr.EN (p : Nat) : Field := ⟨pageBase p + 0x8, 0, 0⟩
def Hdr.FREEZE (p : Nat) : Field := ⟨pageBase p + 0x8, 2, 2⟩
def Hdr.CFGERR (p : Nat) : Field := ⟨pageBase p + 0xC, 3, 3⟩
def Hdr.LOCKERR (p : Nat) : Field := ⟨pageBase p + 0xC, 2, 2⟩
def Hdr.PEND (p : Nat) : Field := ⟨pageBase p + 0xC, 1, 1⟩
def Hdr.BUSY (p : Nat) : Field := ⟨pageBase p + 0xC, 0, 0⟩
def Hdr.RAW (p : Nat) : Field := ⟨pageBase p + 0x10, 31, 0⟩
def Hdr.IRQ_EN (p : Nat) : Field := ⟨pageBase p + 0x14, 31, 0⟩
def Hdr.INJ_DET (p : Nat) : Field := ⟨pageBase p + 0x1C, 23, 16⟩
def Hdr.INJ_COUNT (p : Nat) : Field := ⟨pageBase p + 0x1C, 15, 8⟩
def Hdr.INJ_LIVE (p : Nat) : Field := ⟨pageBase p + 0x1C, 1, 1⟩
def Hdr.INJ_ARM (p : Nat) : Field := ⟨pageBase p + 0x1C, 0, 0⟩
def Hdr.LOCK (p : Nat) : Field := ⟨pageBase p + 0x20, 0, 0⟩

/-- A write refused for its value or for the state of the block. -/
def Dev.cfgErr (s : Dev) (p : Nat) : Dev := s.set (Hdr.CFGERR p) 1
/-- A write refused by a lock, the seal, a missing key or missing authentication. -/
def Dev.lockErr (s : Dev) (p : Nat) : Dev := s.set (Hdr.LOCKERR p) 1

/-- Pages by the names the meanings use. -/
def Pg.SYS : Nat := 0x00
def Pg.CLK : Nat := 0x01
def Pg.PWR : Nat := 0x02
def Pg.INTC : Nat := 0x03
def Pg.SPLIT : Nat := 0x04
def Pg.BIST : Nat := 0x05
def Pg.UPD : Nat := 0x06
def Pg.SEC : Nat := 0x07
def Pg.TAMP : Nat := 0x08
def Pg.RTC : Nat := 0x09
def Pg.EYE : Nat := 0x0A
def Pg.CAP : Nat := 0x0B
def Pg.DRAM : Nat := 0x0C
def Pg.FLASH : Nat := 0x0D
def Pg.MRAM : Nat := 0x0E
def Pg.GPIO : Nat := 0x0F
def Pg.HEAT (h : Nat) : Nat := 0x10 + h
def Pg.UGRP : Nat := 0x1C
def Pg.FRAME : Nat := 0x1D
def Pg.PACER (k : Nat) : Nat := 0x1E + k
def Pg.LANE (l : Nat) : Nat := 0x2A + l / 64
def Pg.UCH : Nat := 0x2D
def Pg.HARM : Nat := 0x2E
def Pg.PQE : Nat := 0x2F
def Pg.BILL : Nat := 0x30
def Pg.TARIFF : Nat := 0x31
def Pg.PREPAY : Nat := 0x32
def Pg.DISC : Nat := 0x33
def Pg.PULSE : Nat := 0x34
def Pg.DISP : Nat := 0x35
def Pg.PLCPHY : Nat := 0x36
def Pg.PLCMAC : Nat := 0x37
def Pg.MESH : Nat := 0x38
def Pg.ETH : Nat := 0x39
def Pg.UART (u : Nat) : Nat := 0x3A + u
def Pg.SPIH : Nat := 0x3C
def Pg.DBG : Nat := 0x3D

/-- The record of lane `l` (R72). -/
def laneRec (l : Nat) : Nat :=
  if l % 64 = 0 then 0x4002D000 + 0xF40 + l / 64 * 0x40 else 0x4002A000 + l / 64 * 0x1000 + l % 64 * 0x40
/-- The record of voltage channel `u` (R72). -/
def uRec (u : Nat) : Nat := 0x4002D000 + 0x040 + u * 0x40
/-- The record of channel `c`: lanes 0–191, then voltage channels (R191). -/
def chRec (c : Nat) : Nat := if c < 192 then laneRec c else uRec (c - 192)

/-! ### Queries -/

/-- The main domain is powered and out of the internal reset (R52). -/
def Dev.mainOn (s : Dev) : Bool :=
  match s.power.st with
  | .reset | .backupOnly => false
  | _ => true

/-- Main power is present: every state but BACKUP ONLY. -/
def Dev.mainPower (s : Dev) : Bool := s.power.st != .backupOnly

/-- The metrology seal is in force (R333). -/
def Dev.isSealed (s : Dev) : Bool := s.on Fld.SEC_SEAL_SEAL

/-- Master `m` holds the owner-authenticated session (R329). -/
def Dev.session (s : Dev) (m : Nat) : Bool := s.on Fld.SEC_STAT_SESSION && s.get Fld.SEC_STAT_MASTER == m

/-- Page `p` is a page the seal acts on (R76). -/
def sealPage (p : Nat) : Bool :=
  match pageKind p with
  | some (k, _, _) => k.sealctl
  | none => false

/-- RWL fields of page `p` are frozen (R76). -/
def Dev.frozenRwl (s : Dev) (p : Nat) : Bool := s.on (Hdr.LOCK p) || (sealPage p && s.isSealed)

/-- The bit of CLK.ISL_RUN and CLK.ISL_ISO for the island that serves a page (R42, R70). -/
def islandOf (p : Nat) : Option Nat :=
  match pageKind p with
  | none => none
  | some (k, n, _) =>
    match k.isl with
    | 0 => some 28
    | 1 => some 27
    | 2 => some 26
    | 3 => some 25
    | 4 => some (13 + n)
    | 5 => some n
    | 6 => some 12
    | 7 => some 29
    | _ => none

/-- The island that a self-test slice tests (R468), as its bit of ISL_RUN and ISL_ISO; the memory slices isolate none. -/
def sliceIsland (n : Nat) : Option Nat :=
  if n < 13 then some n else if n = 13 then some 25 else if n < 17 then none
  else if n < 29 then some (n - 17) else if n = 29 then some 12 else if n < 42 then some (13 + (n - 30))
  else if n = 42 then some 25 else if n = 43 then some 26 else if n = 44 then some 27 else some 28

/-- Island `b` is isolated by a test slice (CLK.ISL_ISO, R42). -/
def Dev.isoBit (s : Dev) (b : Nat) : Bool := (s.get Fld.CLK_ISL_ISO_ISL / 2 ^ b) % 2 == 1

/-- An EN write is still starting island `b` (R75). -/
def Dev.islStarting (s : Dev) (b : Nat) : Bool := s.clk.starting.any fun e => e.1 == b && decide (s.mt < e.2)

/-- Island `b` is clocked (CLK.ISL_RUN, R39, R42): CORE and IO whenever the main domain runs; the others while enabled and not under test, and not after a main clock failure (R43); untested islands are gated while a test cools (R472). -/
def Dev.islOn (s : Dev) (b : Nat) : Bool :=
  if b = 29 then s.power.bkpAlive
  else if !s.mainOn then false
  else if b = 27 ∨ b = 28 then true
  else if s.isoBit b || s.clk.onRc || s.islStarting b then false
  else if s.bist.cooling && (List.range 46).any (fun n => decide (s.bist.slice ≤ n) && sliceIsland n == some b) then false
  else if b < 12 then s.on (Hdr.EN (Pg.HEAT b))
  else if b = 12 then s.on (Hdr.EN Pg.UGRP)
  else if b < 25 then s.on (Hdr.EN (Pg.HEAT (b - 13)))
  else if b = 25 then s.on (Hdr.EN Pg.PLCPHY) && s.power.st != .holdup
  else decide (b = 26)

/-- CLK.ISL_RUN. -/
def Dev.islMask (s : Dev) : Nat := ((List.range 30).map fun b => if s.islOn b then 2 ^ b else 0).sum

/-- The page's island takes accesses: it is clocked and not isolated (R80). -/
def Dev.islRun (s : Dev) (p : Nat) : Bool :=
  match islandOf p with
  | some b => s.islOn b && !s.isoBit b
  | none => false

/-- The page's island is isolated by a test slice. -/
def Dev.islIso (s : Dev) (p : Nat) : Bool :=
  match islandOf p with
  | some b => s.isoBit b
  | none => false

/-- Harts released by their loaders (R445): UPD.ENG.RUN, and those that a soft reset of UPD took out of that register alone (R48). -/
def Dev.engMask (s : Dev) : Nat := s.get Fld.UPD_ENG_RUN ||| s.upd.engKept

/-- Hart `h` is released. -/
def Dev.engOn (s : Dev) (h : Nat) : Bool := (s.engMask / 2 ^ h) % 2 == 1

/-- Hart `h` runs its firmware: released and not halted (R441). -/
def Dev.hart (s : Dev) (h : Nat) : Bool := s.engOn h && (s.get Fld.DBG_HALTED_HART / 2 ^ h) % 2 == 0

/-- RTC linear seconds (R343). -/
def Dev.secs (s : Dev) : Nat := s.rtc.lin / 32768

/-! ### Outcomes -/

/-- The outcome of every meaning. -/
abbrev Out := Host.Outcome State Fault Refusal

/-- A command that acts on the device alone: memory and the queue are kept. -/
def act (s : State) (f : Dev → Dev) : Out := .next { s with toDev := f s.toDev }

/-- A command of the main domain: without main power or in reset there is nothing to act on (R52). -/
def mainAct (s : State) (f : Dev → Dev) : Out := act s fun d => if d.mainOn then f d else d

/-- A write reaches its page (R79, R80): with the island clocked it lands; otherwise it waits, accepted by the interconnect, to be discarded. -/
def Dev.landing (s : Dev) (m a : Nat) (v : Word) (f : Dev → Dev) : Dev :=
  if s.islRun (pageOf a) then f s else { s with bus := { s.bus with posted := s.bus.posted ++ [⟨m, a, v⟩] } }

/-- A command that is a write of `v` by master `m` to the register at `a`. -/
def wrAct (m a : Nat) (v : Word) (s : State) (f : Dev → Dev) : Out := mainAct s fun d => d.landing m a v f

/-- As `wrAct`, for a command that reads images in memory. -/
def wrMem (m a : Nat) (v : Word) (s : State) (f : List Host.Cell → Dev → Dev) : Out := wrAct m a v s (f s.mem)

/-- The next free value's index. -/
def Dev.tick (s : Dev) : Dev := { s with free := s.free + 1 }

/-- The block with no command waiting: one tick of meter time passes while main power and the crystal are there (R41, R47; assumption log 1). -/
def State.idle (s : State) : State :=
  { s with toDev := if s.mainPower && s.clk.xtal then { s.toDev with mt := (s.mt + 1) % 2 ^ 64 } else s.toDev }

/-! ### Byte memory (R65, R66) -/

/-- What an unlisted byte reads as: erased flash reads 0xFF (R481), every other 0 (MRAM: R496; RAM: assumption log 12). -/
def memReset (a : Nat) : Byte := if 0x60000000 ≤ a ∧ a < 0x61000000 then 0xFF else 0

/-- The canonical form of the byte memory. -/
def Memory.wf (m : List Host.Cell) : Bool := Store.wf memReset m

def Memory.read (m : List Host.Cell) (a : Nat) : Byte := Store.read memReset m a
def Memory.write (m : List Host.Cell) (a : Nat) (v : Byte) : List Host.Cell := Store.write memReset m a v

/-- Write bytes from an address up. -/
def Memory.writeAll (m : List Host.Cell) (a : Nat) : List Byte → List Host.Cell
  | [] => m
  | b :: r => Memory.writeAll (Memory.write m a b) (a + 1) r

/-- Read `n` bytes from an address up. -/
def Memory.readAll (m : List Host.Cell) (a n : Nat) : List Byte := (List.range n).map fun i => Memory.read m (a + i)

end Sys2Proof.Machine
end

