-- ==== Sys2Proof/Machine/Operands.lean ====
section
/-! DEFINITION. The formats values are carried in: byte order, CRCs, the fields of a written word, serial arithmetic, square roots and rounding, list updates. -/

namespace Sys2Proof.Machine

/-! ### Bytes (R2) -/

/-- `n` bytes of a number, least significant first. -/
def leBytes : Nat → Nat → List Byte
  | 0, _ => []
  | n + 1, v => BitVec.ofNat 8 v :: leBytes n (v / 256)

/-- The number of bytes, least significant first. -/
def ofLe : List Byte → Nat
  | [] => 0
  | b :: r => b.toNat + 256 * ofLe r

/-- The number of bytes, most significant first. -/
def ofBe (l : List Byte) : Nat := ofLe l.reverse

/-- `n` bytes of a number, most significant first. -/
def beBytes (n v : Nat) : List Byte := (leBytes n v).reverse

/-- Bytes `[off, off + n)` of a list, zeros beyond its end. -/
def slice (l : List Byte) (off n : Nat) : List Byte :=
  let t := (l.drop off).take n
  t ++ List.replicate (n - t.length) 0

/-- The little-endian number in bytes `[off, off + n)`. -/
def leAt (l : List Byte) (off n : Nat) : Nat := ofLe (slice l off n)

/-- The list with bytes from `off` on replaced. -/
def putAt (l : List Byte) (off : Nat) (b : List Byte) : List Byte := l.take off ++ b ++ l.drop (off + b.length)

/-- ASCII bytes of a short name. -/
def ascii (s : String) : List Byte := s.toList.map fun c => BitVec.ofNat 8 c.toNat

/-! ### CRCs (R84, R244, R420) -/

/-- `n` steps of the reflected CRC-32 register. -/
def crc32Bits : Nat → Nat → Nat
  | 0, c => c
  | n + 1, c => crc32Bits n (if c % 2 = 1 then (c / 2) ^^^ 0xEDB88320 else c / 2)

/-- CRC-32 of IEEE 802.3: reflected, initial value and final XOR all ones (R84). -/
def crc32 (l : List Byte) : Nat :=
  (l.foldl (fun c b => crc32Bits 8 (c ^^^ b.toNat)) 0xFFFFFFFF) ^^^ 0xFFFFFFFF

/-- `n` steps of a most-significant-first CRC register of `w` bits. -/
def crcMsb (w poly : Nat) : Nat → Nat → Nat
  | 0, c => c
  | n + 1, c => crcMsb w poly n (if c / 2 ^ (w - 1) % 2 = 1 then ((2 * c) ^^^ poly) % 2 ^ w else 2 * c % 2 ^ w)

/-- CRC-8 with polynomial 0x07 and the given initial value (R420, R440). -/
def crc8 (init : Nat) (l : List Byte) : Nat := l.foldl (fun c b => crcMsb 8 0x07 8 (c ^^^ b.toNat)) init

/-- CRC-16 of R244: polynomial 0x1021, initial value 0xFFFF, not reflected, no final XOR. -/
def crc16 (l : List Byte) : Nat := l.foldl (fun c b => crcMsb 16 0x1021 8 (c ^^^ (b.toNat * 256))) 0xFFFF

/-! ### Written words -/

/-- The key byte of a keyed write. -/
def keyOf (v : Word) : Nat := bitsOf v 31 24

/-- Bit `n` of a written word. -/
def bitAt (v : Word) (n : Nat) : Bool := bitsOf v n n == 1

/-- Bit `n` of a number. -/
def natBit (v n : Nat) : Bool := v / 2 ^ n % 2 == 1

/-- The number with bit `n` set or cleared. -/
def putBit (v n : Nat) (b : Bool) : Nat := if b then v ||| 2 ^ n else v - (v &&& 2 ^ n)

/-- How many of bits 0 to n−1 are set. -/
def popCount (n v : Nat) : Nat := ((List.range n).filter fun i => natBit v i).length

/-! ### Serial arithmetic (R133, R151; RFC 1982) -/

/-- `a` is newer than `b` in `w`-bit serial arithmetic. -/
def newer (w a b : Nat) : Bool :=
  let d := (a + 2 ^ w - b % 2 ^ w) % 2 ^ w
  decide (0 < d) && decide (d < 2 ^ (w - 1))

/-- The signed difference a − b in `w` bits. -/
def serialDiff (w a b : Nat) : Int := signedOf ((a % 2 ^ w + 2 ^ w - b % 2 ^ w) % 2 ^ w) w

/-! ### Arithmetic -/

/-- Bits of an integer square root still to find, highest first. -/
def isqrtGo (n : Nat) : Nat → Nat → Nat
  | 0, r => r
  | k + 1, r => isqrtGo n k (if (r + 2 ^ k) * (r + 2 ^ k) ≤ n then r + 2 ^ k else r)

/-- The integer square root, rounded down. -/
def isqrt (n : Nat) : Nat := isqrtGo n (Nat.log2 n / 2 + 1) 0

/-- The square root rounded to nearest. -/
def isqrtNear (n : Nat) : Nat :=
  let r := isqrt n
  if r * r + r < n then r + 1 else r

/-- n / d rounded to nearest, halves up. -/
def roundDiv (n d : Nat) : Nat := (2 * n + d) / (2 * d)

/-- n / d rounded to nearest, halves away from zero. -/
def roundDivI (n : Int) (d : Nat) : Int :=
  if 0 ≤ n then (roundDiv n.toNat d : Int) else -((roundDiv (-n).toNat d : Nat) : Int)

/-- A value held inside a range. -/
def clampI (lo hi v : Int) : Int := if v < lo then lo else if hi < v then hi else v

/-- A value held at most `hi`. -/
def satN (hi v : Nat) : Nat := if hi < v then hi else v

/-! ### Lists as arrays -/

/-- Element `n`, or a value for none. -/
def nth {α : Type} (l : List α) (n : Nat) (d : α) : α := l.getD n d

/-- The list with element `n` changed. -/
def updAt {α : Type} (l : List α) (n : Nat) (f : α → α) : List α :=
  match l, n with
  | [], _ => []
  | x :: r, 0 => f x :: r
  | x :: r, n + 1 => x :: updAt r n f

/-- The list with element `n` replaced. -/
def setAt {α : Type} (l : List α) (n : Nat) (v : α) : List α := updAt l n fun _ => v

/-- The value kept under a key. -/
def lookup {α : Type} (l : List (Nat × α)) (k : Nat) : Option α := (l.find? fun c => c.1 == k).map fun c => c.2

/-- The list with a key's value replaced or added at the end. -/
def assign {α : Type} (l : List (Nat × α)) (k : Nat) (v : α) : List (Nat × α) :=
  l.filter (fun c => c.1 != k) ++ [(k, v)]

/-- Do `f` for every number below `n`, in order. -/
def forN {σ : Type} (n : Nat) (s : σ) (f : σ → Nat → σ) : σ := (List.range n).foldl f s

/-! ### Calendar (R343, R344) -/

/-- Days of a month of year 2000 + y. -/
def monthDays (y m : Nat) : Nat :=
  if m = 2 then (if y % 4 = 0 ∧ y ≠ 100 then 29 else 28)
  else if m = 4 ∨ m = 6 ∨ m = 9 ∨ m = 11 then 30 else 31

/-- Days of year 2000 + y. -/
def yearDays (y : Nat) : Nat := if y % 4 = 0 ∧ y ≠ 100 then 366 else 365

/-- Days from 2000-01-01 to the first of January of year 2000 + y. -/
def daysToYear (y : Nat) : Nat := ((List.range y).map yearDays).sum

/-- Days in the year before month m. -/
def daysToMonth (y m : Nat) : Nat := ((List.range (m - 1)).map fun i => monthDays y (i + 1)).sum

/-- A date and time of day. -/
structure Date where
  year : Nat := 0
  month : Nat := 1
  day : Nat := 1
  hour : Nat := 0
  min : Nat := 0
  sec : Nat := 0
  deriving DecidableEq, Repr

/-- Seconds since 2000-01-01. -/
def Date.toSecs (d : Date) : Nat :=
  (daysToYear d.year + daysToMonth d.year d.month + (d.day - 1)) * 86400 + d.hour * 3600 + d.min * 60 + d.sec

/-- Take whole years off a day count. -/
def yearGo : Nat → Nat → Nat → Nat × Nat
  | 0, y, d => (y, d)
  | n + 1, y, d => if d < yearDays y then (y, d) else yearGo n (y + 1) (d - yearDays y)

/-- Take whole months off a day count. -/
def monthGo (y : Nat) : Nat → Nat → Nat → Nat × Nat
  | 0, m, d => (m, d)
  | n + 1, m, d => if d < monthDays y m then (m, d) else monthGo y n (m + 1) (d - monthDays y m)

/-- The date of a count of seconds since 2000-01-01 (below 200 years). -/
def Date.ofSecs (t : Nat) : Date :=
  let days := t / 86400
  let yd := yearGo 200 0 days
  let md := monthGo yd.1 12 1 yd.2
  { year := yd.1, month := md.1, day := md.2 + 1, hour := t / 3600 % 24, min := t / 60 % 60, sec := t % 60 }

/-- The weekday, Monday 0 (R344): 2000-01-01 was a Saturday. -/
def weekday (t : Nat) : Nat := (t / 86400 + 5) % 7

/-- The calendar's range in seconds (R343). -/
def calendarEnd : Nat := 73049 * 86400

/-- Positions of a predicate as a mask. -/
def maskOf (n : Nat) (f : Nat → Bool) : Nat := ((List.range n).map fun i => if f i then 2 ^ i else 0).sum

end Sys2Proof.Machine
end

