-- ==== Sys2Proof/Machine/Flags.lean ====
section
/-! DEFINITION. What a raised event does (R73, R74, R82, R83): the page's RAW bit, the split counters (R483), the journal filters (R282), the fast-trip slots (R306) and the capture triggers (R235, R238); injection (R77); and what is computed from the flags: PG_IRQ_STS, the interrupt sources and the delivered source (R428–R430). -/

namespace Sys2Proof.Machine

/-- The event code of event `no` of page `p` (R83). -/
def evCode (p no : Nat) : Nat := p * 64 + no

/-- Whether a page defines the event a code names (R83). -/
def codeDefined (c : Nat) : Bool :=
  match pageKind (c / 64) with
  | some (k, _, _) => decide (c % 64 < k.nev)
  | none => false

/-! ### RAW bits and split counters -/

/-- Event `no` sets bit `no` of its page's RAW; events 32 to 63 have no bit (R73). -/
def Regs.raw (m : Regs) (code : Nat) : Regs :=
  if code % 64 < 32 then Regs.set m (Hdr.RAW (code / 64)) (Regs.get m (Hdr.RAW (code / 64)) ||| 2 ^ (code % 64)) else m

/-- A split counter's 48-bit count. -/
def Regs.splitCount (m : Regs) (n : Nat) : Nat :=
  Regs.get m (Fld.SPLIT_CNT_LO_N n) + Regs.get m (Fld.SPLIT_CNT_HI_N n) * 2 ^ 32

/-- Counter `n` counts this raising: enabled, its code, its filter (R483). -/
def Regs.splitHits (m : Regs) (n : Nat) (e : Event) : Bool :=
  Regs.get m (Fld.SPLIT_SEL_EN n) == 1 && Regs.get m (Fld.SPLIT_SEL_CODE n) == e.code &&
    (match Regs.get m (Fld.SPLIT_SEL_FILT n) with
     | 0 => true
     | 1 => !e.inj
     | 2 => e.inj
     | _ => false)

/-- One counter's step on a raising; a wrap sets OVF and the RAW bit of SPLIT event 0. -/
def Regs.splitOne (e : Event) (m : Regs) (n : Nat) : Regs :=
  if Regs.splitHits m n e then
    let c := (Regs.splitCount m n + 1) % 2 ^ 48
    let m1 := Regs.set (Regs.set m (Fld.SPLIT_CNT_LO_N n) (c % 2 ^ 32)) (Fld.SPLIT_CNT_HI_N n) (c / 2 ^ 32)
    if c = 0 then
      Regs.raw (Regs.set m1 Fld.SPLIT_OVF_CNT (Regs.get m1 Fld.SPLIT_OVF_CNT ||| 2 ^ n)) (evCode Pg.SPLIT 0)
    else m1
  else m

/-- The counters whose count wraps on this raising. -/
def Regs.splitWraps (m : Regs) (e : Event) : Bool :=
  (List.range 32).any fun n => Regs.splitHits m n e && Regs.splitCount m n + 1 == 2 ^ 48

/-- All counters on one raising, if the SPLIT page is enabled. -/
def Regs.splitAll (m : Regs) (e : Event) : Regs :=
  if Regs.get m (Hdr.EN Pg.SPLIT) = 1 then (List.range 32).foldl (Regs.splitOne e) m else m

/-- RAW and counters on one raising; a wrap raises SPLIT event 0, which counters may count in turn. -/
def Regs.event (m : Regs) (e : Event) : Regs :=
  let m1 := Regs.splitAll (Regs.raw m e.code) e
  if Regs.get m (Hdr.EN Pg.SPLIT) = 1 && Regs.splitWraps m e then Regs.splitAll m1 { code := evCode Pg.SPLIT 0 } else m1

/-! ### Linear time within a second (R352, R354, R355) -/

def Dev.rtcUpd (s : Dev) (f : Rtc → Rtc) : Dev := { s with rtc := f s.rtc }

/-- The effective trim (R355). -/
def Dev.trimEff (s : Dev) : Int :=
  if s.on Fld.RTC_CTRL_TC_EN then clampI (-32767) 32767 (roundDivI (s.rtc.trim * 65536 - s.rtc.corr) 65536) else s.rtc.trim

/-- Counts that the trim adds (negative: skips) in `n` BKP periods (R354). -/
def Dev.trimExtra (s : Dev) (n : Nat) : Int := (s.rtc.acc + n * s.trimEff).tdiv (2 ^ 23)

/-- Counts that the shift in progress applies in `n` BKP periods: one in 16 (R352). -/
def Dev.shiftDone (s : Dev) (n : Nat) : Nat :=
  if s.on Fld.RTC_STAT_SHIFT_BUSY then min (s.get Fld.RTC_SHIFT_LEFT_N) ((s.rtc.shiftPer + n) / 16) else 0

/-- Counts beyond one a period in `n` BKP periods. -/
def Dev.clockExtra (s : Dev) (n : Nat) : Int := s.trimExtra n + if s.rtc.shiftNeg then -(s.shiftDone n : Int) else s.shiftDone n

/-- Linear time at an MT of the present second: a BKP period is 750 ticks of MT (R39). -/
def Dev.linAt (s : Dev) (mt : Nat) : Nat :=
  let n := (mt - s.rtc.linMt) / 750
  min (s.secs * 32768 + 32767) (max s.rtc.lin ((s.rtc.lin : Int) + n + s.clockExtra n).toNat)

/-- The BKP periods in which the clock counts `d`. -/
def Dev.periodsFor (s : Dev) (d : Nat) : Nat := (List.range 6).foldl (fun n _ => ((d : Int) - s.clockExtra n).toNat) d

/-- Linear time becomes `lin` now. -/
def Dev.linTo (s : Dev) (lin : Nat) : Dev := s.rtcUpd fun (r : Rtc) => { r with lin := lin, linMt := s.mt }

/-- The clock counts on to `lin`: the accumulator and the shift take part; the last count of a shift is left to its completion. -/
def Dev.linRun (s : Dev) (lin : Nat) : Dev :=
  if lin ≤ s.rtc.lin then s.linTo lin
  else
    let n := s.periodsFor (lin - s.rtc.lin)
    let s1 := s.rtcUpd fun (r : Rtc) => { r with acc := (r.acc + n * s.trimEff).tmod (2 ^ 23), shiftPer := (r.shiftPer + n) % 16 }
    (if s.on Fld.RTC_STAT_SHIFT_BUSY then s1.set Fld.RTC_SHIFT_LEFT_N (max 1 (s.get Fld.RTC_SHIFT_LEFT_N - s.shiftDone n)) else s1).linTo lin

/-- The sub-second count that a command gives is the clock's at that moment. -/
def Dev.linSub (s : Dev) (sub : Nat) : Dev := s.linRun (s.secs * 32768 + sub % 32768)

/-- Linear time now. -/
def Dev.linNow (s : Dev) : Nat := s.linAt s.mt

/-- The clock is brought up to now. -/
def Dev.linSync (s : Dev) : Dev := s.linRun s.linNow

/-! ### Journal and trips -/

/-- A BILL.JSEL filter names the code (R282). -/
def Regs.jselHits (m : Regs) (code : Nat) : Bool :=
  (List.range 8).any fun k => Regs.get m (Fld.BILL_JSEL_EN k) == 1 && Regs.get m (Fld.BILL_JSEL_CODE k) == code

/-- Append a journal entry (R281): 8192 slots, the oldest overwritten. -/
def Dev.journal (s : Dev) (code bp : Nat) (inj late : Bool) (data : List Byte) : Dev :=
  { s with
    bill := { s.bill with
      journal := (⟨s.bill.jnext, code, bp, inj, late, s.linNow, s.mt, data⟩ :: s.bill.journal).take 8192
      jnext := (s.bill.jnext + 1) % 2 ^ 32
      img := { s.bill.img with jseq := s.bill.jnext } }
    regs := Regs.set s.regs Fld.BILL_JHEAD_SEQ s.bill.jnext }

/-- The fast-trip slots a raising names (R306, R167): committed events, speculative ones only with TRIP_SPEC; an injected event without LIVE moves no relay (R77). -/
def Dev.tripHits (s : Dev) (e : Event) (live : Bool) : List (Nat × Bool) :=
  if e.spec && !s.on Fld.FRAME_SPEC_CTRL_TRIP_SPEC then []
  else if e.inj && !live then []
  else ((List.range 8).filter fun k => s.on (Fld.DISC_TRIP_EN k) && s.get (Fld.DISC_TRIP_CODE k) == e.code).map fun k => (k, e.spec)

/-- The newest complete frame's SEQ: what an event carries that names no frame of its own (log 90). -/
def Dev.newestSeq (s : Dev) : Nat := (s.fe.nextSeq + 2 ^ 32 - 1) % 2 ^ 32

/-- The trips and the journal filters of a raising; the filters take committed events only (R282, R306). -/
def Dev.raiseOut (s : Dev) (e : Event) (live : Bool) : Dev :=
  let s1 := { s with disc := { s.disc with trips := s.disc.trips ++ Dev.tripHits s e live } }
  if !e.spec && !e.own && Regs.jselHits s.regs e.code then Dev.journal s1 e.code e.bp e.inj false [] else s1

/-- The raising makes a split counter wrap, which raises SPLIT event 0 (R483). -/
def Dev.splitWrap (s : Dev) (e : Event) : Bool := s.on (Hdr.EN Pg.SPLIT) && Regs.splitWraps s.regs e

/-- SPLIT event 0. -/
def Dev.splitEvent (s : Dev) : Event := { code := evCode Pg.SPLIT 0, seq := s.newestSeq }

/-- What every raising does but start captures: RAW, counters, journal filters and trips. Without a running main domain nothing is raised. -/
def Dev.raise0 (s : Dev) (e : Event) (live : Bool) : Dev :=
  if s.mainOn then
    let s1 := Dev.raiseOut { s with regs := Regs.event s.regs e } e live
    if s.splitWrap e then s1.raiseOut s.splitEvent true else s1
  else s

/-! ### Capture triggers (R235–R238) -/

/-- Bytes of a row: SEQ, FLAGS and the selected blocks (R236). -/
def capRowSize (blk : Nat) : Nat := 8 + 64 * popCount 13 blk

/-- 4 KB blocks a record needs (R236). -/
def capBlocks (rows blk : Nat) : Nat := (64 + rows * capRowSize blk + 4095) / 4096

/-- The blocks a record occupies meet the `n` blocks from `at`. -/
def CapRec.meets (r : CapRec) (start n : Nat) : Bool := decide (r.block < start + n) && decide (start < r.block + r.blocks)

/-- DCRC over the first `n` rows of a record in the store (R237). -/
def Capture.rowsCrc (c : Capture) (r : CapRec) (n : Nat) : Word :=
  BitVec.ofNat 32 (crc32 ((List.range (n * capRowSize r.blk)).map fun i => Store.read (fun _ => (0 : Byte)) c.data (0x82804040 + 4096 * r.block + i)))

/-- Records left incomplete are closed at their last NROWS (R239). -/
def Capture.cut (c : Capture) : Capture :=
  { c with held := [], due := [], gather := false, dir := c.dir.map fun (o : Option CapRec) => o.map fun (r : CapRec) => if r.complete then r else { r with complete := true, truncated := true, dcrc := c.rowsCrc r r.nrows } }

/-- The store at a warm reset: record numbers go on from the highest in the directory (R237). -/
def Capture.warm (c : Capture) : Capture :=
  { c.cut with nextId := match (c.dir.filterMap id).foldl (fun (b : Option Nat) r => match b with | none => some r.id | some x => some (if newer 32 r.id x then r.id else x)) none with | some x => (x + 1) % 2 ^ 32 | none => 0 }

/-- Records that block a placement: locked, or still being captured. -/
def CapRec.holds (r : CapRec) : Bool := r.locked || !r.complete

/-- Where `n` blocks can start from `head` on, stepping over records that may not be evicted (R238): up to as many steps as there are records, twice round. -/
def capPlace (dir : List (Option CapRec)) (n : Nat) : Nat → Nat → Bool → Option Nat
  | 0, _, _ => none
  | k + 1, start, wrapped =>
    if start + n > 4092 then (if wrapped then none else capPlace dir n k 0 true)
    else
      match dir.findSome? (fun o => match o with
        | some r => if r.holds && r.meets start n then some (r.block + r.blocks) else none
        | none => none) with
      | some next => capPlace dir n k next wrapped
      | none => some start

/-- Captures in progress. -/
def Capture.active (c : Capture) : Nat := (c.dir.filter fun o => match o with | some r => !r.complete | none => false).length

/-- The newest complete record and its slot (R240). -/
def Capture.newest (c : Capture) : Option (Nat × CapRec) :=
  (List.range c.dir.length).foldl (fun b k => match nth c.dir k none, b with
    | some r, none => if r.complete then some (k, r) else none
    | some r, some x => if r.complete && newer 32 r.id x.2.id then some (k, r) else b
    | none, _ => b) none

/-- CAP.LAST. -/
def Dev.capLast (s : Dev) : Dev :=
  match s.cap.newest with
  | some x => (s.set Fld.CAP_LAST_VALID 1).set Fld.CAP_LAST_SLOT x.1
  | none => (s.set Fld.CAP_LAST_VALID 0).set Fld.CAP_LAST_SLOT 0

/-- Recount the store's status registers (R240). DESIGN CHOICE (log 111): NREC and NLOCK saturate at 255. -/
def Dev.capStat (s : Dev) : Dev :=
  let rs := s.cap.dir.filterMap id
  let used := (rs.map (·.blocks)).sum
  (((s.set Fld.CAP_STAT_NREC (satN 255 rs.length)).set Fld.CAP_STAT_NLOCK (satN 255 (rs.filter (·.locked)).length)).set
    Fld.CAP_STAT_FREE (4092 - used)).set Fld.CAP_STAT_ACTIVE s.cap.active |>.capLast

/-- Evict the records a predicate names: each raises CAP event 4 and counts. -/
def Dev.capEvict (s : Dev) (p : CapRec → Bool) : Dev :=
  let out := s.cap.dir.filterMap fun o => match o with | some r => if p r then some r else none | none => none
  let s1 := { s with cap := { s.cap with dir := s.cap.dir.map fun o => match o with | some r => if p r then none else some r | none => none } }
  out.foldl (fun t _ => (t.bump Fld.CAP_EVICT_N).raise0 { code := evCode Pg.CAP 4 } true) s1

/-- The first free directory slot. -/
def freeSlot (dir : List (Option CapRec)) : Option Nat := dir.findIdx? (fun o => o.isNone)

/-- A trigger of slot `k` by event `e` (R235, R238): absorbed, refused BUSY or FULL, or a capture starts. DESIGN CHOICE (log 111): blocks without a free directory slot are FULL too. -/
def Dev.capTrigger (s : Dev) (e : Event) (k : Nat) : Dev :=
  let blk := s.get (Fld.CAP_TRIG_EV_BLK k)
  let rows := 32 * (s.get (Fld.CAP_TRIG_LEN_PRE k) + s.get (Fld.CAP_TRIG_LEN_POST k))
  let first := (e.seq + 2 ^ 32 - 32 * s.get (Fld.CAP_TRIG_LEN_PRE k) % 2 ^ 32) % 2 ^ 32
  let inside : CapRec → Bool := fun r => !r.complete && decide ((e.seq + 2 ^ 32 - r.firstSeq) % 2 ^ 32 < r.rows) && (blk &&& r.blk) == blk
  if s.cap.dir.any (fun o => match o with | some r => inside r | none => false) then
    { s with cap := { s.cap with dir := s.cap.dir.map fun o => o.map fun r => if inside r then { r with ntrig := satN 0xFFFF (r.ntrig + 1) } else r } }
  else if 2 ≤ s.cap.active then (s.bump Fld.CAP_REFUSED_BUSY).raise0 { code := evCode Pg.CAP 3, inj := e.inj } true
  else
    match capPlace s.cap.dir (capBlocks rows blk) 520 s.cap.head false with
    | none => (s.bump Fld.CAP_REFUSED_FULL).raise0 { code := evCode Pg.CAP 2, inj := e.inj } true
    | some start =>
      let n := capBlocks rows blk
      let s1 := s.capEvict fun r => r.meets start n
      match freeSlot s1.cap.dir with
      | none => (s1.bump Fld.CAP_REFUSED_FULL).raise0 { code := evCode Pg.CAP 2, inj := e.inj } true
      | some slot =>
        let mt := match s.fe.ring.find? (fun f => f.seq == e.seq) with | some f => f.mt | none => s.mt
        let r : CapRec := { id := s1.cap.nextId, spec := e.spec, inj := e.inj, locked := s.on (Fld.CAP_TRIG_EV_AUTOLOCK k), blk := blk, slot := k, code := e.code, item := e.item, trigSeq := e.seq, trigMt := mt, firstSeq := first, rows := rows, block := start, blocks := n }
        let s2 := { s1 with cap := { s1.cap with dir := setAt s1.cap.dir slot (some r), nextId := (s1.cap.nextId + 1) % 2 ^ 32, head := start + n } }
        (s2.capStat).raise0 { code := evCode Pg.CAP 0, inj := e.inj, seq := e.seq } true

/-- The trigger slots an event fires, in slot order (R235). -/
def Dev.capSlots (s : Dev) (e : Event) : List Nat :=
  (List.range 16).filter fun k => s.on (Fld.CAP_TRIG_EV_EN k) && s.get (Fld.CAP_TRIG_EV_CODE k) == e.code

/-- Capture triggers of a raising: at once, or held with CAP_SPEC = 0 while the event is speculative. -/
def Dev.capture (s : Dev) (e : Event) : Dev :=
  if s.on Fld.CAP_CTRL_EN && s.power.st != .shutdownTest && !(Dev.capSlots s e).isEmpty then
    if e.spec && !s.on Fld.FRAME_SPEC_CTRL_CAP_SPEC then { s with cap := { s.cap with held := s.cap.held ++ [e] } }
    else if s.cap.gather then { s with cap := { s.cap with due := s.cap.due ++ [e] } }
    else (Dev.capSlots s e).foldl (fun t k => t.capTrigger e k) s
  else s

/-- The triggers gathered from the events `l` of one frame fire in slot order (R235). -/
def Dev.capFrame (s : Dev) (l : List Event) : Dev :=
  (List.range 16).foldl (fun (t : Dev) k => (l.filter fun e => (s.capSlots e).contains k).foldl (fun (u : Dev) e => u.capTrigger e k) t) s

/-- The triggers gathered while a command of the metering engines ran fire, frame by frame. -/
def Dev.capFlush (s : Dev) : Dev :=
  let seqs := s.cap.due.foldl (fun (l : List Nat) e => if l.contains e.seq then l else l ++ [e.seq]) []
  seqs.foldl (fun (t : Dev) q => t.capFrame (s.cap.due.filter fun e => e.seq == q)) { s with cap := { s.cap with due := [], gather := false } }

/-- The triggers of what `f` raises are gathered and fire at its end, frame by frame in slot order (R235). -/
def Dev.gathered (s : Dev) (f : Dev → Dev) : Dev := (f { s with cap := { s.cap with gather := true } }).capFlush

/-- Raise an event with its marks; `live` says whether an injected event may move a relay (R77, R337). -/
def Dev.raiseEv (s : Dev) (e : Event) (live : Bool := true) : Dev :=
  if s.mainOn then
    let s1 := (s.raise0 e live).capture e
    if s.splitWrap e then s1.capture s.splitEvent else s1
  else s

/-- Raise event `no` of page `p`. -/
def Dev.raise (s : Dev) (p no : Nat) : Dev := s.raiseEv { code := evCode p no, seq := s.newestSeq }

/-- Raise event `no` of page `p` that is journalled by its own rule (R282), with its DATA. -/
def Dev.raiseJ (s : Dev) (p no bp : Nat) (inj : Bool) (data : List Byte) : Dev :=
  if s.mainOn then (s.raiseEv { code := evCode p no, inj := inj, own := true, seq := s.newestSeq } true).journal (evCode p no) bp inj false data else s

/-- Raise event `no` of page `p`, marked injected or not. -/
def Dev.raiseInj (s : Dev) (p no : Nat) (inj live : Bool) : Dev := s.raiseEv { code := evCode p no, inj := inj, seq := s.newestSeq } live

/-- Raise event `no` of page `p` naming an item. -/
def Dev.raiseItem (s : Dev) (p no item : Nat) : Dev := s.raiseEv { code := evCode p no, seq := s.newestSeq, item := item }

/-- Raise event `no` of page `p` naming a billing point. -/
def Dev.raiseBp (s : Dev) (p no b : Nat) : Dev := s.raiseEv { code := evCode p no, seq := s.newestSeq, item := b, bp := b }

/-- Raise an event naming a frame and an item. -/
def Dev.raiseAt (s : Dev) (p no seq item : Nat) (spec inj : Bool) : Dev :=
  s.raiseEv { code := evCode p no, inj := inj, spec := spec, seq := seq, item := item }

/-! ### Captures of withdrawn events (R166) -/

/-- A capture whose trigger is withdrawn (R166, R239): the mark and event 6. -/
def Dev.capWithdraw (s : Dev) (e : Event) : Dev :=
  let hit := fun (r : CapRec) => r.spec && r.code == e.code && r.trigSeq == e.seq && r.item == e.item && !r.withdrawn
  if s.cap.dir.any (fun o => match o with | some r => hit r | none => false) then
    ({ s with cap := { s.cap with dir := s.cap.dir.map fun (o : Option CapRec) => o.map fun (r : CapRec) => if hit r then { r with withdrawn := true, reconfirmed := false } else r } }).raise Pg.CAP 6
  else { s with cap := { s.cap with held := s.cap.held.filter fun h => h != e } }

/-- The record a replay's re-raised event names: marked RECONFIRMED, event 7, and no second capture (R166). -/
def Dev.capReconfirm (s : Dev) (e : Event) : Option Dev :=
  let hit := fun (r : CapRec) => r.withdrawn && r.code == e.code && r.trigSeq == e.seq && r.item == e.item
  if s.cap.dir.any (fun o => match o with | some r => hit r | none => false) then
    some (({ s with cap := { s.cap with dir := s.cap.dir.map fun (o : Option CapRec) => o.map fun (r : CapRec) => if hit r then { r with withdrawn := false, reconfirmed := true } else r } }).raise Pg.CAP 7)
  else none

/-! ### Keyed writes (R4) -/

/-- A keyed write: without its key it is ignored and sets LOCKERR. -/
def Dev.keyed (s : Dev) (p key : Nat) (v : Word) (f : Dev → Dev) : Dev :=
  if keyOf v = key then f s else s.lockErr p

/-- A keyed command write whose OP field must name this operation; a word with another OP is not this command and is left to that command. -/
def Dev.keyedOp (s : Dev) (p key : Nat) (v : Word) (f : Field) (op : Nat) (g : Dev → Dev) : Dev :=
  s.keyed p key v fun t => if bitsOf v f.hi f.lo = op then g t else t

/-! ### Injection (R77) -/

/-- Detector `det` of page `p` is armed. -/
def Dev.injArmed (s : Dev) (p det : Nat) : Bool := s.on (Hdr.INJ_ARM p) && s.get (Hdr.INJ_DET p) == det

/-- The armed injection is LIVE. -/
def Dev.injLive (s : Dev) (p : Nat) : Bool := s.on (Hdr.INJ_LIVE p)

/-- Raise event `no` of page `p`, marked injected where its detector was; without LIVE it moves no relay (R77). -/
def Dev.raiseMark (s : Dev) (p no : Nat) (inj : Bool) : Dev := s.raiseInj p no inj (!inj || s.injLive p)

/-- One evaluation made with an injected fault: COUNT goes down, ARM clears at 0. -/
def Dev.injUse (s : Dev) (p : Nat) : Dev :=
  let c := s.get (Hdr.INJ_COUNT p) - 1
  let s1 := s.set (Hdr.INJ_COUNT p) c
  if c = 0 then s1.set (Hdr.INJ_ARM p) 0 else s1

/-! ### Shared endings -/

/-- A rate measurement ends without result (R356): VOID and RTC event 8. -/
def Dev.rateVoid (s : Dev) : Dev :=
  match s.rtc.rate with
  | none => s
  | some _ => (({ s with rtc := { s.rtc with rate := none } }.set Fld.RTC_RATE_RES_BUSY 0).set Fld.RTC_RATE_RES_VOID 1).raise Pg.RTC 8

/-- Group `g` leaves LOCK: a measurement against its cycles is void (R356). -/
def Dev.rateLeave (s : Dev) (g : Nat) : Dev := if s.rtc.rate.any fun r => r.src == 0 && r.grp == g then s.rateVoid else s

/-- The MAC runs (R52): off in QUIET, stopped in HOLDUP and SHUTDOWN TEST. -/
def Dev.ethOn (s : Dev) : Bool := s.power.st != .quiet && s.power.st != .holdup && s.power.st != .shutdownTest

/-- The Ethernet MAC stops (R52, R57): the frame in transmission is not finished. -/
def Dev.ethStop (s : Dev) : Dev := { s.set Fld.ETH_STAT_TXACT 0 with host := { s.host with ethOut := none, ethPause := none, ethHeld := false } }

/-- A replay window (R291, R412): a number above the highest, or one of the 64 below it not yet seen, is accepted; the new highest and mask, or none. -/
def windowAccept (any : Bool) (high mask n : Nat) : Option (Nat × Nat) :=
  if !any then some (n, 1)
  else if high < n then some (n, (mask * 2 ^ (n - high) + 1) % 2 ^ 64)
  else if high - n < 64 ∧ ¬ natBit mask (high - n) then some (high, mask ||| 2 ^ (high - n))
  else none

/-! ### Interrupts (R428–R432) -/

/-- PG_IRQ_STS: RAW AND EN (R73). -/
def Dev.sts (s : Dev) (p : Nat) : Nat := s.get (Hdr.RAW p) &&& s.get (Hdr.IRQ_EN p)

/-- Any STS bit of page `p` in the mask. -/
def Dev.stsIn (s : Dev) (p mask : Nat) : Bool := (s.sts p &&& mask) != 0

/-- Source `n` is pending (R429): the pages and events that drive it. -/
def Dev.srcPending (s : Dev) (n : Nat) : Bool :=
  match n with
  | 0 => s.stsIn Pg.SYS 0x5
  | 1 => s.stsIn Pg.PWR 0x11
  | 2 => s.stsIn Pg.PWR 0x6
  | 3 => s.stsIn Pg.CLK 0x1
  | 4 => s.stsIn Pg.PWR 0x180
  | 5 => s.stsIn Pg.SYS 0x2
  | 18 => s.stsIn Pg.UGRP 0xFFFFFFFF
  | 19 => s.stsIn Pg.FRAME 0x1F
  | 20 => s.stsIn Pg.FRAME 0x2700
  | 21 => s.stsIn Pg.FRAME 0x1800
  | 22 => s.stsIn Pg.HARM 0x3F || s.stsIn Pg.PQE 0x7F
  | 23 => s.stsIn Pg.CAP 0xF2
  | 24 => s.stsIn Pg.CAP 0x0D
  | 25 => s.stsIn Pg.BILL 0x7
  | 26 => s.stsIn Pg.BILL 0x1FD8
  | 27 => s.stsIn Pg.BILL 0x20
  | 28 => s.stsIn Pg.TARIFF 0xF
  | 29 => s.stsIn Pg.PREPAY 0x3D7
  | 30 => s.stsIn Pg.PREPAY 0x28
  | 31 => s.stsIn Pg.DISC 0x16C
  | 32 => s.stsIn Pg.DISC 0xE93
  | 33 => s.stsIn Pg.TAMP 0x138
  | 34 => s.stsIn Pg.TAMP 0xC7
  | 35 => s.stsIn Pg.EYE 0xFFF
  | 36 => s.stsIn Pg.RTC 0x1
  | 37 => s.stsIn Pg.RTC 0x2
  | 38 => s.stsIn Pg.RTC 0x1804
  | 39 => s.stsIn Pg.RTC 0x2008
  | 40 => s.stsIn Pg.RTC 0x3C0
  | 41 => s.stsIn Pg.RTC 0x400
  | 42 => s.stsIn Pg.PLCPHY 0x1F
  | 43 => s.stsIn Pg.PLCMAC 0x7
  | 44 => s.stsIn Pg.PLCMAC 0x238
  | 45 => s.stsIn Pg.PLCPHY 0xE0 || s.stsIn Pg.PLCMAC 0x1C0
  | 46 => s.stsIn Pg.MESH 0xFFF
  | 47 => s.stsIn Pg.UPD 0x7
  | 48 => s.stsIn Pg.UPD 0x258
  | 49 => s.stsIn Pg.UPD 0x120
  | 50 => s.stsIn Pg.UPD 0x80
  | 51 => s.stsIn Pg.BIST 0x1F
  | 52 => s.stsIn Pg.SEC 0x3FF
  | 53 => s.stsIn Pg.SPLIT 0x3
  | 54 => s.stsIn Pg.DRAM 0xF
  | 55 => s.stsIn Pg.FLASH 0xF
  | 56 => s.stsIn Pg.MRAM 0xF
  | 57 => s.stsIn Pg.ETH 0x1F
  | 58 => s.stsIn (Pg.UART 0) 0x3F
  | 59 => s.stsIn (Pg.UART 1) 0x3F
  | 60 => s.stsIn Pg.SPIH 0xF
  | 61 => s.stsIn Pg.DISP 0x1F
  | 62 => s.stsIn Pg.GPIO 0xFFFF
  | 63 => s.get Fld.INTC_DBELL_BITS != 0
  | n => if 6 ≤ n ∧ n < 18 then s.stsIn (Pg.HEAT (n - 6)) 0xFFFFFFFF else false

/-- PEND_LO (base 0) or PEND_HI (base 32). -/
def Dev.pendWord (s : Dev) (base : Nat) : Nat :=
  ((List.range 32).map fun i => if s.srcPending (base + i) then 2 ^ i else 0).sum

/-- INTC.TOP (R430): the pending source routed to the Starter with the highest priority above THR.STARTER, the lower number in a tie. -/
def Dev.topWord (s : Dev) : Nat :=
  let best := (List.range 64).foldl (fun (b : Option (Nat × Nat)) n =>
    let p := s.get (Fld.INTC_SRC_CFG_PRIO n)
    if s.srcPending n && s.on (Fld.INTC_SRC_CFG_STARTER n) && decide (s.get Fld.INTC_THR_STARTER < p) then
      match b with
      | some (q, m) => if q < p then some (p, n) else some (q, m)
      | none => some (p, n)
    else b) none
  match best with
  | some (p, n) => 2 ^ 31 + p * 256 + n
  | none => 0

/-- INTC.IRQN (R430): a pending source routed to IRQ_N above THR.IRQN drives the pin low. -/
def Dev.irqnLow (s : Dev) : Bool :=
  (List.range 64).any fun n => s.srcPending n && s.on (Fld.INTC_SRC_CFG_IRQN n) && decide (s.get Fld.INTC_THR_IRQN < s.get (Fld.INTC_SRC_CFG_PRIO n))

end Sys2Proof.Machine
end

