-- ==== Sys2Proof/Config.lean ====
section
/-! DEFINITION. What the spec leaves open, as constants that nothing can evaluate: free values of an instruction's result, random draws and unpublished coefficients (each named in the assumption log). A free value takes a plain counter of the state, so two draws are not the same value. -/

namespace Sys2Proof.Config

/-- Which neighbour a result takes whose rounding the spec leaves open: the rule (its site), the numerator, the denominator; log 89. -/
opaque roundUp : Nat → Int → Nat → Bool
/-- A high-gain sample delayed by a part of a sample, MATCH_D (R91): from the next, the present and the previous one. How the delay is interpolated is not given; log 5. -/
opaque matchDelay : Int → Int → Int → Int → Int
/-- The unpublished coefficients of R143 (R497), in 2^-30: the set, the filter phase, the tap; log 5. -/
opaque lastCoef : Nat → Nat → Nat → Int
/-- The angle of a vector of length 0, in 2^-64 turn (R190, R219): it has none; log 6. -/
opaque argZero : Int
/-- A pod's correction below its second point where its first is at 0 mA, whose logarithm does not exist (R207): the current, the second point's, and both corrections; log 7. -/
opaque podLogZero : Nat → Nat → Int → Int → Int
/-- RATIO where the high-gain sum is 0 or the quotient is outside Q2.30: R198 states none; log 7. -/
opaque calNoRatio : Nat → Nat
/-- Bits of the random source (R323, R328, R329, R401); log 8. -/
opaque randByte : Nat → BitVec 8
opaque randNat : Nat → Nat
/-- How long one floor fuse takes (R454), in ticks of MT; log 8. -/
opaque fuseTicks : Nat → Nat
/-- How many fuses of a FUSE are programmed when it is stopped (R336); log 104. -/
opaque fuseBits : Nat → Nat
/-- NT's rate correction after a frame (R414): the loop's gains are not given; log 9. -/
opaque ntRate : Nat → Int → Int → Int
/-- The DEVID of another root heard by its beacon, which the beacon does not carry (R405); log 9. -/
opaque peerDevid : Nat → Nat
/-- Public keys in ROM (R327, R452): x then y. -/
opaque imageKey : List (BitVec 8)
opaque metroKey : List (BitVec 8)
/-- The generation and bundle ID of the firmware the device left the factory with (R444, R448); log 10. -/
opaque factoryGen : Nat
opaque factoryBid : List (BitVec 8)
/-- A displayed quotient whose divisor is 0 (R313); log 11. -/
opaque dispNone : Int → Int
/-- Whether a verification passes of a commit that no command's operand decides (R279); log 113. -/
opaque commitOk : Nat → Bool
/-- DEM_NOW where no time has elapsed in the running interval (R283); log 14. -/
opaque demNow : Nat → Nat

/-- How long an island takes to start after its EN write (R75: at most 2 ms for a heat or the U block), and a loading block to check an image (R87), in MT ticks; log 85. -/
opaque startTicks : Nat → Nat
opaque checkTicks : Nat → Nat
/-- How long an analogue slice measures in SHORT before its STIM loopback (R468), in MT ticks; log 98. -/
opaque stimTicks : Nat → Nat
/-- How long a button stays pressed after the command that tells of its press, in ticks of MT: no command tells of its release (R319); log 102. -/
opaque pressTicks : Nat → Nat
/-- How long, in ticks of MT, a sender waits at most for the map that answers its SOUND (R387: no time is given); log 106. -/
opaque negTicks : Nat → Nat
/-- A bit of a SOUND's known pattern, which is not given (R380): symbol, carrier and bit; log 106. -/
opaque soundBit : Nat → Nat → Nat → Bool
/-- Codes of journal entries whose code no rule states: 0 the start interval, 1 the shutdown entry and its interval (R59, R64), 2 the loss of the backup domain (R326), 3 a position executed again at start (R301), 4 a halt of the billing engine or a Pacer (R441), 5 a trip made on an event withdrawn since (R167); log 15. -/
opaque journalCode : Nat → Nat

/-- A pod's answer to a WRITE that no command carries (R249): 0 done, 1 done on the retry, 2 refused twice; log 16. -/
opaque podAnswer : Nat → Nat
/-- The codes of the reasons in EYE event 4's entry (R248, R250): 0 REJECTED, 1 UNPLACED, 2 AMBIGUOUS; log 15. -/
opaque reasonCode : Nat → Nat
/-- The address of a frame that a replay found uncorrectable (R479): the command does not name it; log 16. -/
opaque eccAddr : Nat → Nat

/-- The chain address of the head controller, to which a chain node sends NEED (R455): not given; log 17. -/
opaque headAddr : Nat

/-- The byte at an address of a record whose content the spec lists and whose layout it does not give, from that content: the reception record, the pod cache, the persistent controls and the root's table (R67, R252, R404, R458); log 19. -/
opaque layoutByte : Nat → List Nat → BitVec 8
/-- Bytes of the boot ROM, of the firmware the device was delivered with, and of a pod that a bus write addresses; log 20. -/
opaque romByte : Nat → BitVec 8
opaque factoryByte : Nat → BitVec 8
opaque podByte : Nat → BitVec 8

/-- What a flash page holds after a programming whose read-back disagreed twice (R481): address and draw; log 21. -/
opaque flashByte : Nat → Nat → BitVec 8
/-- Debug Module registers that the RISC-V Debug Specification leaves to the implementation, by address, and what an abstract command leaves in the data registers, by draw (R440); log 22. -/
opaque dmWord : Nat → BitVec 32
opaque dmData : Nat → Nat → BitVec 32

end Sys2Proof.Config
end

