-- ==== Sys2Proof/Machine/Trig.lean ====
section
/-! DEFINITION. Quotients, square roots and real functions whose rounding the spec leaves open (R97, R180, R190, R197, R207, R219): the value is one of the two representable neighbours of the exact one, which of them a free bit says; an exact result is itself. -/

namespace Sys2Proof.Machine

/-! ### Free rounding -/

/-- The site of a free rounding, so that two rules do not share one (log 89). -/
def siteMatchG : Nat := 0
def siteMatch : Nat := 1
def siteInteg : Nat := 2
def siteIntegOut : Nat := 3
def siteDot : Nat := 4
def siteGain : Nat := 5
def sitePhase : Nat := 6
def siteTrig : Nat := 7
def siteUf : Nat := 8
def siteAngle : Nat := 9
def siteArg : Nat := 10
def siteCalm : Nat := 11
def siteCos : Nat := 12
def siteKbps : Nat := 13
def siteDisp : Nat := 14
def siteMean : Nat := 15

/-- n / d with its rounding left free: exact where it divides, else either neighbour. -/
def freeDiv (site : Nat) (n : Int) (d : Nat) : Int :=
  if n % (d : Int) = 0 then n / d else n / d + (Config.roundUp site n d).toNat

/-- √(n / d) with its rounding left free. -/
def freeSqrt (site n d : Nat) : Nat :=
  let r := isqrt (n / d)
  if r * r * d = n then r else r + (Config.roundUp site n d).toNat

/-! ### Sine, cosine and the angle of a vector, in 2^-80 -/

/-- 2π in 2^-80. -/
def twoPi80 : Int := 7595904947272677161575987

/-- Taylor terms from the `k`-th on, `t` being the term, `x2` the square of the argument. -/
def taylor (x2 : Int) : Nat → Nat → Int → Int
  | 0, _, _ => 0
  | f + 1, k, t => t + taylor x2 f (k + 2) (-(t * x2 / 2 ^ 80) / (((k + 1) * (k + 2) : Nat) : Int))

/-- The sine of an angle of at most an eighth turn, `n` / `d` turn. -/
def sin80 (n d : Nat) : Int := let x := twoPi80 * n / d; taylor (x * x / 2 ^ 80) 15 1 x
/-- The cosine of one. -/
def cos80 (n d : Nat) : Int := let x := twoPi80 * n / d; taylor (x * x / 2 ^ 80) 15 0 (2 ^ 80)

/-- The cosine of `n` / `d` turn. -/
def cosTurn (n d : Nat) : Int :=
  let r := n % d
  let h := if d < 2 * r then d - r else r
  let neg := decide (d < 4 * h)
  let q := if neg then 2 * d - 4 * h else 4 * h
  let v := if 2 * q ≤ d then cos80 q (4 * d) else sin80 (d - q) (4 * d)
  if neg then -v else v

/-- The sine of `n` / `d` turn. -/
def sinTurn (n d : Nat) : Int := cosTurn (4 * n + 3 * d) (4 * d)

/-- The cosine of `n` / `d` turn in 2^-30, a table's entry (R180): exact at 0, 60, 90, 120 and 180 degrees and their mirrors, the only angles of whole turns' fractions where it is a binary fraction. -/
def cosTab (n d : Nat) : Int :=
  let v := cosTurn n d
  if (12 * n) % d = 0 ∧ [0, 2, 3, 4, 6, 8, 9, 10].contains (12 * n / d % 12) then (v + 2 ^ 49) / 2 ^ 50
  else v / 2 ^ 50 + (Config.roundUp siteTrig n d).toNat

/-- The sine of `n` / `d` turn in 2^-30. -/
def sinTab (n d : Nat) : Int := cosTab (4 * n + 3 * d) (4 * d)

/-- Terms of the arctangent series from the `k`-th power on. -/
def atanGo (t2 : Int) : Nat → Nat → Int → Int
  | 0, _, _ => 0
  | f + 1, k, p => p / (k : Int) + atanGo t2 f (k + 2) (-(p * t2 / 2 ^ 80))

/-- The arctangent of y / x for 0 ≤ y < x, in 2^-80 radian: from the nearest of 1/8, 3/8, 5/8 and 7/8. -/
def atan80 (y x : Nat) : Int :=
  let q := 4 * y / x
  let c := 2 * q + 1
  let base : Int := match q with | 0 => 150335963705616309311762 | 1 => 433727126610541394117969 | 2 => 675305135137886920465539 | _ => 869012146456155984743213
  let t := ((8 * (y : Int) - c * x) * 2 ^ 80) / ((8 * x + c * y : Nat) : Int)
  base + atanGo (t * t / 2 ^ 80) 15 1 t

/-- The angle of a vector in 2^-64 turn, from 0; a vector of length 0 has none and takes a free value. -/
def arg64 (x y : Int) : Int :=
  let a := x.natAbs
  let b := y.natAbs
  let e := 2 ^ 61
  let oct : Int := if b = 0 then 0 else if a = 0 then 2 * e else if a = b then e
    else if b < a then atan80 b a * 2 ^ 64 / twoPi80 else 2 * e - atan80 a b * 2 ^ 64 / twoPi80
  if a = 0 ∧ b = 0 then Config.argZero
  else if 0 ≤ x then (if 0 ≤ y then oct else (8 * e - oct) % (8 * e))
  else if 0 ≤ y then 4 * e - oct else 4 * e + oct

/-! ### Logarithms -/

/-- Binary digits of the logarithm of a mantissa in [1, 2), in 2^-62. -/
def log2Go : Nat → Nat → Nat → Nat
  | 0, _, acc => acc
  | f + 1, m, acc =>
    let s := m * m / 2 ^ 62
    if s < 2 ^ 63 then log2Go f s (2 * acc) else log2Go f (s / 2) (2 * acc + 1)

/-- log2 (a / b) in 2^-40, for 0 < b ≤ a. -/
def log2Ratio (a b : Nat) : Nat :=
  let e := Nat.log2 (a / b)
  e * 2 ^ 40 + log2Go 40 (a * 2 ^ 62 / (b * 2 ^ e)) 0

end Sys2Proof.Machine
end

