-- ==== Sys2Proof/Machine/FrontEnd.lean ====
section
/-! DEFINITION. The front end (R88–R135, R197–R208): the range selector, references, isolation, APPLY, chip temperature corrections, the comparators, GUN, the raw ring, and the calibration measurement unit. -/

namespace Sys2Proof.Machine

/-! ### Channels and blocks -/

/-- The page of a block: heats 0–11, 12 the U block. -/
def blkPage (b : Nat) : Nat := if b < 12 then Pg.HEAT b else Pg.UGRP
/-- The block of a channel (R191 numbering). -/
def chBlk (c : Nat) : Nat := c / 16
/-- A channel's bit in its block's registers. -/
def chBit (c : Nat) : Nat := c % 16
/-- A block's enable field. -/
def Fld.BLK_EN (b : Nat) : Field := if b < 12 then Fld.HEAT_LANE_EN_EN b else Fld.UGRP_CH_EN_EN
def Fld.BLK_ISO_MODE (b : Nat) : Field := if b < 12 then Fld.HEAT_ISO_MODE b else Fld.UGRP_ISO_MODE
def Fld.BLK_CLIP (b : Nat) : Field := if b < 12 then Fld.HEAT_CLIP_CLP b else Fld.UGRP_CLIP_CLP
def Fld.BLK_BUSY (b : Nat) : Field := if b < 12 then Fld.HEAT_STAT_APPLY_BUSY b else Fld.UGRP_STAT_APPLY_BUSY
def Fld.BLK_ISOACT (b : Nat) : Field := if b < 12 then Fld.HEAT_STAT_ISO_ACTIVE b else Fld.UGRP_STAT_ISO_ACTIVE
def Fld.BLK_REFERR (b : Nat) : Field := if b < 12 then Fld.HEAT_STAT_REFERR b else Fld.UGRP_STAT_REFERR
def Fld.BLK_REFOK (b : Nat) : Field := if b < 12 then Fld.HEAT_STAT_REF_OK b else Fld.UGRP_STAT_REF_OK
def Fld.BLK_REFON (b : Nat) : Field := if b < 12 then Fld.HEAT_STAT_REF_ON b else Fld.UGRP_STAT_REF_ON
def Fld.BLK_REFDEV (b : Nat) : Field := if b < 12 then Fld.HEAT_REF_DEV_PPM b else Fld.UGRP_REF_DEV_PPM
def Fld.BLK_TVALID (b : Nat) : Field := if b < 12 then Fld.HEAT_TEMP_VALID b else Fld.UGRP_TEMP_VALID
def Fld.BLK_T (b : Nat) : Field := if b < 12 then Fld.HEAT_TEMP_T b else Fld.UGRP_TEMP_T
def Fld.BLK_STVALID (b : Nat) : Field := if b < 12 then Fld.HEAT_STAT_TEMP_VALID b else Fld.UGRP_STAT_TEMP_VALID
def Fld.BLK_GUNS (b : Nat) : Field := if b < 12 then Fld.HEAT_DEC_STAT_GUNS b else Fld.UGRP_DEC_STAT_GUNS

/-- A channel's front-end state. -/
def Dev.chan (s : Dev) (c : Nat) : Chan := if c < 192 then nth s.fe.lanes c {} else nth s.fe.us (c - 192) {}
/-- Change a channel's front-end state. -/
def Dev.chanUpd (s : Dev) (c : Nat) (f : Chan → Chan) : Dev :=
  if c < 192 then { s with fe := { s.fe with lanes := updAt s.fe.lanes c f } } else { s with fe := { s.fe with us := updAt s.fe.us (c - 192) f } }
/-- A block's state. -/
def Dev.blk (s : Dev) (b : Nat) : Block := nth s.fe.blocks b {}
/-- Change a block's state. -/
def Dev.blkUpd (s : Dev) (b : Nat) (f : Block → Block) : Dev := { s with fe := { s.fe with blocks := updAt s.fe.blocks b f } }
/-- Channels of a block. -/
def blkChans (b : Nat) : List Nat := (List.range 16).map fun j => 16 * b + j
/-- The block is enabled. -/
def Dev.blkOn (s : Dev) (b : Nat) : Bool := s.on (Hdr.EN (blkPage b))
/-- The channel samples (R104). -/
def Dev.chOn (s : Dev) (c : Nat) : Bool := s.blkOn (chBlk c) && natBit (s.get (Fld.BLK_EN (chBlk c))) (chBit c)
/-- The voltage group of a channel. -/
def Dev.chGrp (s : Dev) (c : Nat) : Nat := if c < 192 then s.get (Fld.HEAT_CTRL_VGSEL (chBlk c)) else (c - 192) / 4
/-- The reference that serves a block: VREF3 the U block. -/
def refOf (b : Nat) : Nat := b / 4
/-- Blocks a reference serves. -/
def refBlocks (r : Nat) : List Nat := if r = 3 then [12] else (List.range 4).map (· + 4 * r)
/-- Raise event `no` of every page a reference serves. -/
def Dev.raiseRef (s : Dev) (r no : Nat) (inj live : Bool) : Dev := (refBlocks r).foldl (fun t b => t.raiseInj (blkPage b) no inj live) s

/-! ### Settling and restarts (R93, R122) -/

/-- A channel restarts its range selector and its settle; `full` also clears the decimator (R122). -/
def Chan.restart (c : Chan) (full : Bool) : Chan :=
  { c with hg := false, settle := 48, y := 0, x := 0, look := if full then [] else c.look }

/-- Every channel of a block restarts. -/
def Dev.blkRestart (s : Dev) (b : Nat) : Dev := (blkChans b).foldl (fun t c => t.chanUpd c fun k => k.restart true) s

/-- A block's channels start afresh, their comparators with them (R48). -/
def Dev.blkFresh (s : Dev) (b : Nat) : Dev := (blkChans b).foldl (fun (t : Dev) c => t.chanUpd c fun k => { k.restart true with cmp := {} }) s

/-- DEC_STAT.SETTLE: the longest settle of any enabled channel; 48 while the block is disabled (R129). -/
def Dev.settleOf (s : Dev) (b : Nat) : Nat :=
  if !s.blkOn b then 48 else ((blkChans b).map fun c => if s.chOn c then (s.chan c).settle else 0).foldl max 0

/-! ### References (R98, R99) -/

/-- A reference's state. -/
def Dev.vref (s : Dev) (r : Nat) : VRef := nth s.fe.refs r {}
def Dev.vrefUpd (s : Dev) (r : Nat) (f : VRef → VRef) : Dev := { s with fe := { s.fe with refs := updAt s.fe.refs r f } }

/-- The samples of a reference's blocks carry UNS (R98, R99); an injected fault without LIVE only simulates that, its words carrying INJ (R77). -/
def VRef.uns (v : VRef) : Bool := !v.ok || (v.suspect && v.injected != some false) || decide (0 < v.tail)

/-- They carry INJ: an injected fault stands (R77, R115). -/
def VRef.inj (v : VRef) : Bool := v.injected.isSome

/-- Publish REF_ON and REF_OK of the pages a reference serves. -/
def Dev.refShow (s : Dev) (r : Nat) : Dev :=
  (refBlocks r).foldl (fun t b => (t.setB (Fld.BLK_REFON b) (s.vref r).on).setB (Fld.BLK_REFOK b) (s.vref r).ok) s

/-- A reference turns on with the first of its blocks and off with the last (R98). -/
def Dev.refPower (s : Dev) (r : Nat) : Dev :=
  let want := (refBlocks r).any fun b => s.blkOn b
  if want = (s.vref r).on then s else (s.vrefUpd r fun _ => { on := want }).refShow r

/-- The window check of R99 by its injection or by the measured deviation in ppm. -/
def Dev.refBad (s : Dev) (r : Nat) (dev : Int) : Bool × Option Nat :=
  match (refBlocks r).find? fun b => s.injArmed (blkPage b) 16 with
  | some b => (true, some b)
  | none => (decide (dev < -10000) || decide (10000 < dev), none)

/-- REFERENCE_CHECK: the 1 ms check; a reference outside its window is marked from now and re-checked. DESIGN CHOICE (log 73): no check is made before REF_OK is first reached, nor while a lasting fault stands. -/
def Dev.refCheck (s : Dev) (r : Nat) (dev : Int) : Dev :=
  if (s.vref r).on && (s.vref r).ok && !(s.vref r).suspect then
    let b := s.refBad r dev
    if b.1 then
      let s1 := s.vrefUpd r fun v => { v with suspect := true, injected := b.2.map fun k => s.injLive (blkPage k) }
      match b.2 with | some k => s1.injUse (blkPage k) | none => s1
    else s
  else s

def execReferenceCheck (ref : Nat) (dev : Int) (s : State) : Out := mainAct s fun d => if ref < 4 then d.refCheck ref dev else d

/-- REFERENCE_RECHECK: transient (event 2) or lasting (event 1, REFERR, REF_OK clears). An injected fault with LIVE = 0 keeps the reference's real state. -/
def Dev.refRecheck (s : Dev) (r : Nat) (dev : Int) : Dev :=
  if (s.vref r).suspect then
    let b := s.refBad r dev
    let was := (s.vref r).injected
    let inj := b.2.isSome || was.isSome
    let live := match b.2 with | some k => s.injLive (blkPage k) | none => was.getD true
    let s0 := match b.2 with | some k => s.injUse (blkPage k) | none => s
    if b.1 || was.isSome then
      let s1 := s0.vrefUpd r fun v => { v with suspect := false, injected := if live && inj then some true else none, ok := !live, lasting := live, tail := if live then 0 else v.tail }
      let s2 := (refBlocks r).foldl (fun (t : Dev) k => t.set (Fld.BLK_REFERR k) 1) s1
      (s2.refShow r).raiseRef r 1 inj live
    else (s0.vrefUpd r fun v => { v with suspect := false }).raiseRef r 2 false true
  else s

def execReferenceRecheck (ref : Nat) (dev : Int) (s : State) : Out := mainAct s fun d => if ref < 4 then d.refRecheck ref dev else d

/-- REFERENCE_SETTLED: REF_OK sets; after a lasting fault, event 3 and 48 more marked samples. -/
def Dev.refSettled (s : Dev) (r : Nat) : Dev :=
  if (s.vref r).on && !(s.vref r).ok then
    let was := (s.vref r).lasting
    let s1 := (s.vrefUpd r fun v => { v with ok := true, lasting := false, injected := none, tail := if was then 48 else 0 }).refShow r
    if was then s1.raiseRef r 3 false true else s1
  else s

def execReferenceSettled (ref : Nat) (s : State) : Out := mainAct s fun d => if ref < 4 then d.refSettled ref else d

/-- The median of four. -/
def median4 (l : List Int) : Int :=
  let t := l.mergeSort (fun a b => decide (a ≤ b))
  (t.getD 1 0 + t.getD 2 0).tdiv 2

/-- REFERENCE_COMPARE: REF_DEV, each reference minus the median of the four in ppm (tenths of a ppm from nominal). DESIGN CHOICE (log 110): the median is the mean of the middle two, truncated to a tenth of a ppm, and REF_DEV is rounded to the nearest ppm. -/
def Dev.refCompare (s : Dev) (p : List Int) : Dev :=
  let med := median4 ((List.range 4).map fun r => p.getD r 0)
  (List.range 13).foldl (fun t b => t.setI (Fld.BLK_REFDEV b) (clampI (-32768) 32767 (roundDivI (p.getD (refOf b) 0 - med) 10))) s

def execReferenceCompare (ppm10 : List Int) (s : State) : Out := mainAct s fun d => d.refCompare ppm10

/-- IRET_CHECK: IRETh against AGND in mV (R100). -/
def execIretCheck (heat : Nat) (mv : Int) (s : State) : Out :=
  mainAct s fun d =>
    if heat < 12 && d.blkOn heat && (decide (mv < -150) || decide (150 < mv)) then
      (d.set (Fld.HEAT_STAT_IRETERR heat) 1).raise (Pg.HEAT heat) 6
    else d

/-! ### Chip temperature corrections (R202–R208) -/

/-- One field's correction between two points, rounded to nearest (R204). -/
def tcBetween (t t0 t1 f0 f1 : Int) : Int := f0 + roundDivI ((f1 - f0) * (t - t0)) (t1 - t0).toNat

/-- The correction of one field at temperature t from the block's points in rising T (R204). -/
def tcField (f : TempEntry → Int) (t : Int) : List TempEntry → Int
  | [] => 0
  | [p] => f p
  | p :: q :: r =>
    if t ≤ p.t then f p
    else if t < q.t then tcBetween t p.t q.t (f p) (f q)
    else tcField f t (q :: r)

/-- A block's corrections at t: G_LG, G_HG, D_HG, PH. -/
def tcBlock (tab : List TempEntry) (b : Nat) (t : Int) : Int × Int × Int × Int :=
  let p := tab.filter fun e => e.block == b
  (tcField (·.gLg) t p, tcField (·.gHg) t p, tcField (·.dHg) t p, tcField (·.ph) t p)

/-- The temperature the corrections of a block use: its last valid reading, 25 °C until its sensor first reads (R204). -/
def Dev.tcTemp (s : Dev) (b : Nat) : Int := (s.blk b).lastT.getD 400

/-- The corrections of rows 5 and 6 of R197 for a block, by the table in force: G_LG and PH. -/
def Dev.tcNow (s : Dev) (b : Nat) : Int × Int := let c := tcBlock s.temps b (s.tcTemp b); (c.1, c.2.2.2)

/-- Those of rows 2 and 3: of the table as the last reading found it (R205); before the first, at 25 °C. -/
def Dev.tcMatch (s : Dev) (b : Nat) : Int × Int := (s.blk b).corr.getD (let c := tcBlock s.temps b 400; (c.2.1, c.2.2.1))

/-- MATCH_G and MATCH_D in force on a lane, and whether either was clamped (R197 rows 2 and 3, R208). DESIGN CHOICE (log 110): a half rounds away from zero. -/
def Dev.matchNow (s : Dev) (c : Nat) : Nat × Int × Bool :=
  let k := (s.chan c).cal
  let cr := if k.chipOff then (0, 0) else s.tcMatch (chBlk c)
  let g := freeDiv siteMatchG (k.matchG * (2 ^ 30 + cr.1)) (2 ^ 30)
  let d := k.matchD + roundDivI cr.2 4
  let g' := clampI 0x03C00000 0x04400000 g
  let d' := clampI (-1024) 1023 d
  (g'.toNat, d', g' != g || d' != d)

/-- Set a channel's TC_CLAMP bit (R208). -/
def Dev.tcClamp (s : Dev) (c : Nat) : Dev :=
  s.set (Fld.UCH_TC_CLAMP_CH (c / 32)) (s.get (Fld.UCH_TC_CLAMP_CH (c / 32)) ||| 2 ^ (c % 32))

/-- Note a clamp of the matching corrections of a lane. -/
def Dev.matchClamp (s : Dev) (c : Nat) : Dev := if decide (c < 192) && (s.matchNow c).2.2 then s.tcClamp c else s

/-- A sensor reading: TEMP, its validity, and the block's corrections (R101, R204). -/
def Dev.tempReading (s : Dev) (b : Nat) (t : Int) : Dev :=
  if s.blkOn b then
    let s1 := ((s.setI (Fld.BLK_T b) t).set (Fld.BLK_TVALID b) 1).set (Fld.BLK_STVALID b) 1
    let c := tcBlock s.temps b t
    let s2 := s1.blkUpd b fun k => { k with temp := t, lastT := some t, corr := some (c.2.1, c.2.2.1) }
    (blkChans b).foldl Dev.matchClamp s2
  else s.blkUpd b fun k => { k with temp := t }

/-! ### Isolation, range thresholds, APPLY (R92, R102, R105) -/

/-- The frozen fields of a whole-word write to a register whose every field is RWL: refused with LOCKERR where a value differs. -/
def Dev.rwlGate (s : Dev) (p a : Nat) (v : Word) (f : Dev → Dev) : Dev :=
  if s.frozenRwl p then (if s.rd a = v then s else s.lockErr p) else f s

/-- RSEL_WRITE (R92). -/
def Dev.rselWrite (s : Dev) (h : Nat) (v : Word) : Dev :=
  let dn := bitsOf v 24 16
  let up := bitsOf v 8 0
  let w := putBits (putBits 0 24 16 dn) 8 0 up
  s.rwlGate (Pg.HEAT h) (Reg.HEAT_RSEL h) w fun t =>
    if 160 ≤ dn ∧ dn + 16 ≤ up ∧ up ≤ 480 then t.wr (Reg.HEAT_RSEL h) w else t.cfgErr (Pg.HEAT h)

def execRselWrite (m : Nat) (heat : Nat) (v : Word) (s : State) : Out := wrAct m (Reg.HEAT_RSEL heat) v s fun d => if heat < 12 then d.rselWrite heat v else d

/-- ISO_WRITE (R102): a change of MODE or AMP restarts the block; event 5 on a change of MODE. -/
def Dev.isoSet (s : Dev) (b mode amp : Nat) : Dev :=
  let a := if b < 12 then Reg.HEAT_ISO b else Reg.UGRP_ISO
  let old := s.rd a
  let w := putBits (putBits 0 11 8 amp) 1 0 mode
  if w = old then s
  else
    let s1 := ((s.wr a w).setB (Fld.BLK_ISOACT b) (mode != 0)).blkRestart b
    if bitsOf old 1 0 = mode then s1 else s1.raise (blkPage b) 5

def Dev.isoWrite (s : Dev) (b : Nat) (v : Word) : Dev :=
  let mode := bitsOf v 1 0
  let amp := bitsOf v 11 8
  s.rwlGate (blkPage b) (if b < 12 then Reg.HEAT_ISO b else Reg.UGRP_ISO) (putBits (putBits 0 11 8 amp) 1 0 mode) fun t =>
    if mode = 3 then t.cfgErr (blkPage b) else t.isoSet b mode amp

def execIsoWrite (m : Nat) (block : Nat) (v : Word) (s : State) : Out := wrAct m (if block < 12 then Reg.HEAT_ISO block else Reg.UGRP_ISO) v s fun d => if block < 13 then d.isoWrite block v else d

/-- APPLY (R105): the named channels wait for the next sample; records written from now on wait for the next APPLY. -/
def Dev.calOf (s : Dev) (c : Nat) : Cal :=
  let r := chRec c
  { path := s.get (Fld.REC_CFG_PATH r), integ := s.on (Fld.REC_CFG_INTEG r), leak := s.get (Fld.REC_CFG_LEAK r), fref := s.on (Fld.REC_CFG_FREF r), offsLg := s.getI (Fld.REC_OFFS_LG_VAL r), offsHg := s.getI (Fld.REC_OFFS_HG_VAL r), matchG := s.get (Fld.REC_MATCH_G_VAL r), matchD := s.getI (Fld.REC_MATCH_D_VAL r), gain := s.get (Fld.REC_GAIN_VAL r), phase := s.getI (Fld.REC_PHASE_VAL r), tofs := s.get (Fld.REC_TCOMP_TOFS r), podOff := s.on (Fld.REC_TCOMP_POD_OFF r), chipOff := s.on (Fld.REC_TCOMP_CHIP_OFF r) }

/-- A push takes effect in a channel: the new values from the next frame, and a fresh settle. -/
def Dev.applyChan (s : Dev) (c : Nat) (k : Cal) : Dev :=
  (s.chanUpd c fun o => { o.restart false with cal := k, calPrev := (s.fe.nextSeq, o.cal) :: o.calPrev.filter fun (e : Nat × Cal) => decide (serialDiff 32 s.fe.nextSeq e.1 < 49461) }).matchClamp c

/-- A write of APPLY: RWL, W1S. -/
def Dev.applyWrite (s : Dev) (b : Nat) (v : Word) : Dev :=
  let n := bitsOf v 15 0
  if n = 0 then s
  else if s.frozenRwl (blkPage b) then s.lockErr (blkPage b)
  else
    let take := (blkChans b).filter fun c => natBit n (chBit c)
    let s1 := s.blkUpd b fun k => { k with applying := k.applying ||| n, applyCal := take.foldl (fun l c => assign l c (s.calOf c)) k.applyCal }
    (s1.set (Fld.BLK_BUSY b) 1).set (Hdr.BUSY (blkPage b)) 1

def execApplyPush (m : Nat) (block : Nat) (v : Word) (s : State) : Out := wrAct m (if block < 12 then Reg.HEAT_APPLY block else Reg.UGRP_APPLY) v s fun d => if block < 13 then d.applyWrite block v else d

/-- APPLY_DONE: the pushed records take effect at a sample; event 4. -/
def Dev.applyDone (s : Dev) (b : Nat) : Dev :=
  let n := (s.blk b).applying
  if n = 0 then s
  else
    let s1 := (s.blk b).applyCal.foldl (fun (t : Dev) e => t.applyChan e.1 e.2) s
    (((s1.blkUpd b fun k => { k with applying := 0, applyCal := [] }).set (Fld.BLK_BUSY b) 0).set (Hdr.BUSY (blkPage b)) 0).raise (blkPage b) 4

def execApplyDone (block : Nat) (s : State) : Out := mainAct s fun d => if block < 13 then d.applyDone block else d

/-! ### Bindings as the front end sees them (R104, R259) -/

/-- Lanes of a binding's slots. -/
def Binding.lane (b : Binding) (i : Nat) : Nat := b.lanes / 2 ^ (8 * i) % 256
/-- Role of a slot: 0 L1, 1 L2, 2 L3, 3 N. -/
def Binding.role (b : Binding) (i : Nat) : Nat := b.roles / 2 ^ (2 * i) % 4
def Binding.inv (b : Binding) (i : Nat) : Bool := natBit b.roles (8 + i)
def Binding.en (b : Binding) : Bool := natBit b.cfg 31
def Binding.vg (b : Binding) : Nat := b.cfg / 2 ^ 26 % 4
/-- Slots in use. -/
def Binding.slots (b : Binding) : List Nat := (List.range 4).filter fun i => b.lane i != 255
/-- The binding, enabled, names the lane. -/
def Binding.has (b : Binding) (l : Nat) : Bool := b.en && b.slots.any fun i => b.lane i == l

/-- A lane is bound, or its binding waits for its boundary. -/
def Dev.laneBound (s : Dev) (l : Nat) : Bool := s.bill.bound.any (·.has l) || s.bill.pendingB.any fun p => p.2.has l
/-- A voltage group is bound. -/
def Dev.grpBound (s : Dev) (g : Nat) : Bool :=
  s.bill.bound.any (fun b => b.en && b.vg == g) || s.bill.pendingB.any fun p => p.2.en && p.2.vg == g

/-- The binding that holds a lane: its point and slot. -/
def slotIn (bd : List Binding) (l : Nat) : Option (Nat × Nat) :=
  (List.range 64).findSome? fun b =>
    let k := nth bd b {}
    if k.en then (k.slots.find? fun i => k.lane i == l).map fun i => (b, i) else none

/-- The binding in force that holds a lane. -/
def Dev.slotOf (s : Dev) (l : Nat) : Option (Nat × Nat) := slotIn s.bill.bound l

/-! ### The selector and the sample word (R91, R93, R94, R121) -/

/-- The greatest and least data of a 24-bit word. -/
def sat24 (v : Int) : Int := clampI (-8388608) 8388607 v

/-- What one released word carries. -/
structure WordBits where
  uns : Bool
  hg : Bool
  clp : Bool
  inj : Bool
  data : Int
  deriving DecidableEq, Repr

/-- The 32-bit word of R121. -/
def WordBits.word (w : WordBits) (seq : Nat) : Word :=
  BitVec.ofNat 32 (w.uns.toNat * 2 ^ 31 + w.hg.toNat * 2 ^ 30 + w.clp.toNat * 2 ^ 29 + w.inj.toNat * 2 ^ 28 + seq % 16 * 2 ^ 24 + unsignedOf w.data 24)

/-- Fields of a word. -/
def wUns (w : Word) : Bool := bitAt w 31
def wHg (w : Word) : Bool := bitAt w 30
def wClp (w : Word) : Bool := bitAt w 29
def wInj (w : Word) : Bool := bitAt w 28
def wData (w : Word) : Int := signedOf (bitsOf w 23 0) 24

/-- |lg| reaches a threshold in 62.5 µV units (R91): 1 unit is 1048.576 LSB. -/
def overUnits (lg : Int) (t : Nat) : Bool := decide (t * 131072 ≤ lg.natAbs * 125)

/-- The selector's decision over the released sample and its two look-ahead samples (R91). -/
def rangeSelect (hg : Bool) (up dn : Nat) (w : List (Int × Int × Bool × Bool)) : Bool :=
  let leave := w.any fun e => overUnits e.1 up || e.2.2.2
  let back := w.all fun e => !overUnits e.1 dn
  if hg then !leave else back

/-- The look-ahead entry of a pair of decimator outputs, their offsets off (R197 row 1). -/
def Chan.front (k : Chan) (i : LaneIn) : Int × Int × Bool × Bool :=
  let lg := i.lg - k.cal.offsLg
  let clip := i.clpLg || sat24 lg != lg
  let lgv := if i.clpLg then (if i.lg < 0 then -8388608 else 8388607) else sat24 lg
  (lgv, i.hg - k.cal.offsHg, clip, i.clpHg)

/-- A high-gain sample delayed by MATCH_D, in 1/1024 sample, from the next, its own and the previous one; exact at whole samples (R91). -/
def matchDelayed (d next now prev : Int) : Int :=
  if d = 0 then now else if d = -1024 then next else Config.matchDelay d next now prev

/-- A high-gain sample in low-gain units (R88, R91): delayed by MATCH_D, scaled by MATCH_G. -/
def matched (g : Nat) (d next now prev : Int) : Int := freeDiv siteMatch (matchDelayed d next now prev * g) (2 ^ 30)

/-- One channel's step of a frame: its state after, and the word released. -/
def Chan.release (k : Chan) (up dn : Nat) (g : Nat) (d : Int) (e : Int × Int × Bool × Bool) : Chan × WordBits :=
  let look := (e :: k.look).take 4
  let w := (List.range 3).map fun i => nth look (2 - i) (0, 0, false, false)
  let out := nth w 0 (0, 0, false, false)
  let sel := if k.cal.path = 2 then true else if k.cal.path = 1 ∨ 0 < k.settle then false else rangeSelect k.hg up dn w
  ({ k with look := look, hg := sel, settle := k.settle - 1 },
   { uns := decide (0 < k.settle), hg := sel, clp := if sel then out.2.2.2 else out.2.2.1, inj := false, data := if sel then sat24 (matched g d (nth w 1 (0, 0, false, false)).2.1 out.2.1 (nth look 3 (0, 0, false, false)).2.1) else out.1 })

/-! ### Comparators (R127, R130) -/

/-- A channel's comparator settings: thresholds in low-gain LSB, counts, the half period in samples, and enables. -/
structure CmpCfg where
  hiThr : Nat
  hiCnt : Nat
  loThr : Nat
  loCnt : Nat
  envHi : Nat
  envLo : Nat
  p : Nat
  hiEn : Bool
  loEn : Bool
  envEn : Bool
  deriving DecidableEq, Repr

/-- P of R127: half the predicted period of the lane's group, 320 in a fixed-rate group; half the nominal period before the first stride. -/
def Dev.halfPeriod (s : Dev) (g : Nat) : Nat :=
  if s.get (Fld.FRAME_VG_CFG_MODE g) ≠ 0 then 320
  else match (nth s.meter.trk g {}).strides.getLast? with
    | some k => ((k.period + 2 ^ 32).toNat) / 2 ^ 33
    | none => if s.on (Fld.FRAME_VG_CFG_FNOM g) then 267 else 320

def Dev.cmpCfg (s : Dev) (c : Nat) : CmpCfg :=
  let b := chBlk c
  let j := chBit c
  let g := s.chGrp c
  if c < 192 then
    { hiThr := 256 * s.get (Fld.HEAT_CMP_HI_THR b), hiCnt := s.get (Fld.HEAT_CMP_HI_CNT b) + 1, loThr := 256 * s.get (Fld.HEAT_CMP_LO_THR b), loCnt := 8 * s.get (Fld.HEAT_CMP_LO_CNT b), envHi := 256 * s.get (Fld.HEAT_CMP_ENV_HI b), envLo := 256 * s.get (Fld.HEAT_CMP_ENV_LO b), p := s.halfPeriod g, hiEn := natBit (s.get (Fld.HEAT_CMP_EN_HI b)) j, loEn := natBit (s.get (Fld.HEAT_CMP_EN_LO b)) j, envEn := natBit (s.get (Fld.HEAT_CMP_ENV_EN_ENV b)) j }
  else
    { hiThr := 256 * s.get (Fld.UGRP_CMP_HI_THR g), hiCnt := s.get (Fld.UGRP_CMP_HI_CNT g) + 1, loThr := 256 * s.get (Fld.UGRP_CMP_LO_THR g), loCnt := 8 * s.get (Fld.UGRP_CMP_LO_CNT g), envHi := 256 * s.get (Fld.UGRP_CMP_ENV_HI g), envLo := 256 * s.get (Fld.UGRP_CMP_ENV_LO g), p := s.halfPeriod g, hiEn := natBit (s.get (Fld.UGRP_CMP_EN_HI g)) (j % 4), loEn := natBit (s.get (Fld.UGRP_CMP_EN_LO g)) (j % 4), envEn := natBit (s.get (Fld.UGRP_CMP_EN_ENV g)) (j % 4) }

/-- One settled sample of magnitude `a` through the comparators: the state after, and the kinds that fired (0 HI, 1 LO, 2 above, 3 below). -/
def Cmp.step (k : Cmp) (f : CmpCfg) (a : Nat) : Cmp × List Nat :=
  let hiOver := decide (f.hiThr ≤ a)
  let hiCnt := if hiOver then satN 65535 (k.hiCnt + 1) else 0
  let hiQuiet := if hiOver then 0 else satN 65535 (k.hiQuiet + 1)
  let hiFire := f.hiEn && k.hiArmed && decide (f.hiCnt ≤ hiCnt)
  let hiArmed := if hiFire then false else k.hiArmed || decide (32 ≤ hiQuiet)
  let loUnder := decide (a < f.loThr)
  let loCnt := if loUnder then satN 65535 (k.loCnt + 1) else 0
  let loFire := f.loEn && k.loArmed && decide (f.loCnt ≤ loCnt) && loUnder
  let loArmed := if loFire then false else k.loArmed || !loUnder
  let win := (a :: k.win).take f.p
  let env := win.foldl max 0
  let full := decide (f.p ≤ win.length)
  let abFire := f.envEn && k.aboveArmed && decide (f.envHi ≤ env)
  let abArmed := if abFire then false else k.aboveArmed || decide (16 * env < 15 * f.envHi)
  let beFire := f.envEn && full && k.belowArmed && decide (env < f.envLo)
  let beArmed := if beFire then false else k.belowArmed || decide (17 * f.envLo ≤ 16 * env)
  ({ hiCnt := hiCnt, hiQuiet := hiQuiet, hiArmed := hiArmed, loCnt := loCnt, loArmed := loArmed, win := win, aboveArmed := abArmed, belowArmed := beArmed },
   (if hiFire then [0] else []) ++ (if loFire then [1] else []) ++ (if abFire then [2] else []) ++ (if beFire then [3] else []))

/-- K of R97 in 2^-64: 2π F_REF / 32000. -/
def integK (fref : Bool) : Int := if fref then 217320583742313685 else 181100486451928071

/-- One step of the leaky trapezoidal integrator (R97) in 2^-32 LSB: y after x, from y and the x before. -/
def integStep (k : Cal) (y x x0 : Int) : Int :=
  let l := 14 + 2 * k.leak
  freeDiv siteInteg (y * (2 ^ l - 1) * 2 ^ 33 + integK k.fref * (x + x0) * 2 ^ l) (2 ^ (33 + l))

/-- The integrator's output as a sample. -/
def integOut (y : Int) : Int := freeDiv siteIntegOut y (2 ^ 32)

/-- The integrated sample of an INTEG lane (R97), or the sample itself: the channel after, and the value. -/
def Chan.integ (k : Chan) (x : Int) : Chan × Int :=
  if k.cal.integ then
    let y := integStep k.cal k.y x k.x
    ({ k with y := y, x := x }, integOut y)
  else (k, x)

/-- The group frames cycles, so what falls in its cycle in progress is speculative (R150, R164). -/
def Dev.specNow (s : Dev) (g : Nat) : Bool := decide (2 ≤ s.get (Fld.FRAME_VG_STAT_STATE g)) && !(nth s.meter.trk g {}).stopped && s.get (Fld.FRAME_VG_CFG_MODE g) == 0

/-- One frame, in the Q32.32 positions of the SEQ scale. -/
def q32 : Int := 2 ^ 32

/-- A position modulo the SEQ scale. -/
def posWrap (p : Int) : Int := p % 2 ^ 64

/-- The signed distance a − b on the SEQ scale. -/
def posDiff (a b : Int) : Int := signedOf ((a - b) % 2 ^ 64).toNat 64

/-- The undecided stride of a group whose cycle holds frame `q`. -/
def Dev.strideAt (s : Dev) (g q : Nat) : Option Stride :=
  (nth s.meter.trk g {}).strides.find? fun k => decide (0 ≤ posDiff ((q : Int) * q32) k.start) && decide (posDiff ((q : Int) * q32) (k.start + k.len) < 0)

/-- The number of the cycle in which frame `q` falls (R128): of the stride that holds it; past the last one, the next number. -/
def Dev.cycAt (s : Dev) (g q : Nat) : Nat := match s.strideAt g q with | some k => k.cyc | none => (nth s.meter.trk g {}).next

/-- HOLD as it stands for the cycle of frame `q` (R168): latched at the cycle's start. -/
def Dev.holdAt (s : Dev) (g q : Nat) : Bool := match s.strideAt g q with | some k => k.hold | none => s.on Fld.FRAME_SPEC_CTRL_HOLD

/-- An event of a group's words is raised. A speculative one leaves at once, or with HOLD waits for its cycle (R164, R168). One that a replay raises again carries REPLAYED, confirms the capture the withdrawn one had started and starts no second one (R165, R166). -/
def Dev.raiseSpec (s : Dev) (g : Nat) (e : Event) (live : Bool) : Dev :=
  let hold := e.spec && s.holdAt g e.seq
  let s1 := if e.spec then { s with meter := { s.meter with specEvents := s.meter.specEvents ++ [{ grp := g, ev := e, held := hold, trip := !hold && !(s.tripHits e live).isEmpty, live := live }] } } else s
  if hold then s1
  else
    match (if e.replayed then s1.capReconfirm e else none) with
    | some t => t.raise0 e live
    | none => s1.raiseEv e live

/-- The HIT bit of a kind on a channel. -/
def Dev.cmpHit (s : Dev) (c kind : Nat) : Dev :=
  let b := chBlk c
  let f : Field :=
    if c < 192 then (if kind = 0 then Fld.HEAT_CMP_HIT_HI b else if kind = 1 then Fld.HEAT_CMP_HIT_LO b else if kind = 2 then Fld.HEAT_CMP_ENV_HIT_ABOVE b else Fld.HEAT_CMP_ENV_HIT_BELOW b)
    else
      let g := (c - 192) / 4
      if kind = 0 then Fld.UGRP_CMP_HIT_HI g else if kind = 1 then Fld.UGRP_CMP_HIT_LO g else if kind = 2 then Fld.UGRP_CMP_HIT_ABOVE g else Fld.UGRP_CMP_HIT_BELOW g
  s.set f (s.get f ||| 2 ^ (if c < 192 then chBit c else (c - 192) % 4))

/-- A millisecond has passed since an event of this kind (R94, R130). -/
def Dev.msPassed (s : Dev) (last : Option Nat) : Bool :=
  match last with
  | none => true
  | some t => decide (24576 ≤ s.mt - t)

/-- The last raising of a kind in a block. -/
def Block.last (k : Block) (kind : Nat) : Option Nat := if kind = 0 then k.lastHi else if kind = 1 then k.lastLo else if kind = 2 then k.lastAbove else k.lastBelow

def Block.mark (k : Block) (kind t : Nat) : Block :=
  if kind = 0 then { k with lastHi := some t } else if kind = 1 then { k with lastLo := some t } else if kind = 2 then { k with lastAbove := some t } else { k with lastBelow := some t }

/-- A comparator fires on a channel: HIT, and its event at most once per millisecond per block (R128, R130). -/
def Dev.cmpFire (s : Dev) (seq c kind : Nat) (inj live : Bool) : Dev :=
  let b := chBlk c
  let s1 := s.cmpHit c kind
  if s1.msPassed ((s1.blk b).last kind) then
    (s1.blkUpd b fun k => k.mark kind s.mt).raiseSpec (s.chGrp c) { code := evCode (blkPage b) (8 + kind), inj := inj, spec := s.specNow (s.chGrp c), seq := seq, item := c, cyc := some (s.cycAt (s.chGrp c) seq) } live
  else s1

/-- A clipped word (R94): the CLIP bit, and event 0 at most once per millisecond per block. -/
def Dev.clipWord (s : Dev) (seq c : Nat) (inj live : Bool) : Dev :=
  let b := chBlk c
  let s1 := s.set (Fld.BLK_CLIP b) (s.get (Fld.BLK_CLIP b) ||| 2 ^ chBit c)
  if s1.msPassed (s1.blk b).lastClip then
    (s1.blkUpd b fun k => { k with lastClip := some s.mt }).raiseEv { code := evCode (blkPage b) 0, inj := inj, seq := seq, item := c } live
  else s1

/-! ### One frame (R119, R133) -/

/-- One channel in a frame: the selector or the voltage path, marks, comparators and the clip; the state after and its word. DESIGN CHOICE (log 74): a word with UNS leaves the comparators as they are, so it neither adds to nor restarts a count of consecutive samples. -/
def Dev.chanFrame (s : Dev) (seq c : Nat) (i : LaneIn) : Dev × Word :=
  let b := chBlk c
  let k := s.chan c
  let iso := s.get (Fld.BLK_ISO_MODE b) != 0
  if !s.chOn c then (s.chanUpd c fun k => k.restart true, ({ uns := true, hg := false, clp := false, inj := iso, data := 0 } : WordBits).word seq)
  else
    let m := s.matchNow c
    let r := if c < 192 then k.release (s.get (Fld.HEAT_RSEL_UP b)) (s.get (Fld.HEAT_RSEL_DN b)) m.1 m.2.1 (k.front i)
      else ({ k with cal := { k.cal with path := 1 } }).release 0 0 m.1 m.2.1 (k.front i)
    let injC := s.injArmed (blkPage b) (chBit c)
    let w : WordBits := { r.2 with uns := r.2.uns || (s.vref (refOf b)).uns, inj := iso || injC || (s.vref (refOf b)).inj, clp := r.2.clp || injC }
    let g := r.1.integ w.data
    let cs := if w.uns then (g.1.cmp, []) else g.1.cmp.step (s.cmpCfg c) g.2.natAbs
    let live := s.injLive (blkPage b)
    let s1 := s.chanUpd c fun _ => { g.1 with cmp := cs.1 }
    let s2 := if injC then s1.injUse (blkPage b) else s1
    let s3 := if w.clp then s2.clipWord seq c injC (!injC || live) else s2
    let s4 := cs.2.foldl (fun t kind => t.cmpFire seq c kind false true) s3
    let injH := s4.injArmed (blkPage b) (32 + chBit c)
    let s5 := if injH then (s4.injUse (blkPage b)).cmpFire seq c 0 true live else s4
    (s5, w.word seq)

/-- The inputs of channel `c`. -/
def chanIn (lanes : List LaneIn) (us : List UIn) (c : Nat) : LaneIn :=
  if c < 192 then lanes.getD c {} else { lg := (us.getD (c - 192) {}).v, clpLg := (us.getD (c - 192) {}).clp }

/-- All 208 channels of a frame. -/
def Dev.frameWords (s : Dev) (seq : Nat) (lanes : List LaneIn) (us : List UIn) : Dev × List Word :=
  (List.range 208).foldl (fun (a : Dev × List Word) c =>
    let r := a.1.chanFrame seq c (chanIn lanes us c)
    (r.1, a.2 ++ [r.2])) (s, [])

/-- The power-fail warning is active. -/
def Dev.warned (s : Dev) : Bool := s.on Fld.PWR_PF_STAT_WARN

/-- The frame of R133 with its words. A channel's first word after an event of R93 finds its whole settle still to come. -/
def Dev.mkFrame (s : Dev) (ws : List Word) : Frame :=
  { seq := s.fe.nextSeq, mt := s.mt, cleared := maskOf 208 fun c => (s.chan c).settle == 48, calm := s.fe.calm.map (fun (c : Nat × Nat × Nat) => c.2.1 / 16), gun := s.fe.gunNext, pfw := s.warned, holdup := s.power.st == .holdup, iso := ((List.range 13).map fun b => if s.get (Fld.BLK_ISO_MODE b) != 0 then 2 ^ b else 0).sum, lanes := ws.take 192, us := ws.drop 192 }

/-- Blocks whose settle reached 0 with this frame raise event 13 (R130). -/
def Dev.settleEvents (s : Dev) (before : Dev) : Dev :=
  (List.range 13).foldl (fun t b => if before.settleOf b ≠ 0 ∧ s.settleOf b = 0 ∧ s.blkOn b then t.raise (blkPage b) 13 else t) s

/-- The 1 ms snapshot that PATH_NOW and the lane records' STATUS.HG show (R111, R113). -/
def Dev.snapPaths (s : Dev) : Dev :=
  if s.fe.nextSeq % 32 = 0 then
    { s with fe := { s.fe with pathNow := (List.range 12).map fun h => ((List.range 16).map fun j => if (s.chan (16 * h + j)).hg then 2 ^ j else 0).sum } }
  else s

/-- References count their marked samples after a restoration down (R99). -/
def Dev.refTails (s : Dev) : Dev := { s with fe := { s.fe with refs := s.fe.refs.map fun v => { v with tail := v.tail - 1 } } }

/-- A word the measurement unit takes voids the window (R198): UNS, or a clip on either path. -/
def Dev.calmBad (s : Dev) (c : Nat) (i : LaneIn) : Bool :=
  !s.chOn c || decide (0 < (s.chan c).settle) || (s.vref (refOf (chBlk c))).uns || i.clpLg || i.clpHg

/-- The measurement unit takes both paths of its inputs after offset subtraction (R198): MEAN its CYC × 640 words, MATCH every word with its frame until the window is known. -/
def Dev.calmTake (s : Dev) (seq : Nat) (lanes : List LaneIn) (us : List UIn) : Dev :=
  match s.fe.calm with
  | none => s
  | some (mode, sel, cyc) =>
    let lg := fun c => (chanIn lanes us c).lg - (s.chan c).cal.offsLg
    let hg := fun c => (chanIn lanes us c).hg - (s.chan c).cal.offsHg
    if mode = 1 then
      if s.fe.calmBounds.length ≤ cyc then { s with fe := { s.fe with calmWords := (seq, lg sel, hg sel, s.calmBad sel (chanIn lanes us sel)) :: s.fe.calmWords } } else s
    else if 640 * cyc ≤ s.fe.calmN then s
    else
      let cs := if sel < 192 then blkChans (sel / 16) else blkChans 12
      let add := fun (acc v : List Int) => (List.range 16).map fun j => nth acc j 0 + nth v j 0
      { s with fe := { s.fe with calmN := s.fe.calmN + 1, calmLg := add s.fe.calmLg (cs.map lg), calmHg := add s.fe.calmHg (cs.map hg), calmVoid := s.fe.calmVoid || cs.any fun c => s.calmBad c (chanIn lanes us c) } }

/-- The unit had taken its words before a position. -/
def Dev.calmHas (s : Dev) (pos : Int) : Bool := match s.fe.calmWords.getLast? with | some w => decide (posDiff (((w.1 : Int) - 1) * q32) pos < 0) | none => false

/-- A boundary of record of group `g`, at which a MATCH window starts, goes on or ends: one after GO (R198). -/
def Dev.calmBound (s : Dev) (g : Nat) (pos : Int) : Dev :=
  match s.fe.calm with
  | some (1, sel, cyc) => if s.chGrp sel = g ∧ s.fe.calmBounds.length ≤ cyc ∧ s.calmHas pos = true then { s with fe := { s.fe with calmBounds := s.fe.calmBounds ++ [pos] } } else s
  | _ => s

/-- One 32 ksps period: the frame is written to the ring (R119, R133, R135). In SHUTDOWN TEST the ring stops once every group has stopped at its boundary (R64). -/
def Dev.sampleRelease (s : Dev) (lanes : List LaneIn) (us : List UIn) : Dev :=
  if s.power.st = .shutdownTest ∧ 2 ≤ s.power.shutStage then s
  else
    let seq := s.fe.nextSeq
    let r := (s.calmTake seq lanes us).frameWords seq lanes us
    let fr := s.mkFrame r.2
    let s1 := { r.1 with fe := { r.1.fe with ring := (fr :: r.1.fe.ring).take 49461, nextSeq := (seq + 1) % 2 ^ 32, slot := (s.fe.slot + 1) % 49461, gunNext := false } }
    let s2 := if fr.gun then s1.set Fld.DRAM_RING_GUNSEQ_SEQ seq else s1
    ((s2.refTails).settleEvents s).snapPaths

/-! ### GUN (R123–R126) -/

/-- What a GUN does at its clock edge. -/
def Dev.gun (s : Dev) : Dev :=
  let s1 := (s.set64 Reg.SYS_GUN_MT_LO Reg.SYS_GUN_MT_HI ((s.mt + 3) % 2 ^ 64)).bump Fld.SYS_GUN_CNT_COUNT
  let s2 := (List.range 13).foldl (fun t b => if t.blkOn b then ((t.blkRestart b).bump (Fld.BLK_GUNS b)).raise (blkPage b) 12 else t) s1
  { s2 with fe := { s2.fe with gunNext := true }, meter := { s2.meter with trk := s2.meter.trk.map fun (k : Tracker) => { k with b1 := true } } }

/-- States that refuse a GUN (R126). -/
def Dev.gunBarred (s : Dev) : Bool :=
  match s.power.st with
  | .holdup | .rideThrough | .shutdownTest => true
  | _ => false

/-- A pulse on GUN_OUT. -/
def Dev.gunOut (s : Dev) : Dev := { s with pins := { s.pins with gunOut := s.pins.gunOut + 1 } }

/-- GUN_INPUT: a rising edge on GUN_IN, repeated on GUN_OUT with REPEAT (R123, R126). -/
def execGunInput (s : State) : Out :=
  mainAct s fun d =>
    let d1 := if d.on Fld.SYS_GUN_REPEAT then d.gunOut else d
    if d.on Fld.SYS_GUN_IN_EN && !d.gunBarred then d1.gun else d1

/-- GUN_FIRE: a keyed write of SYS.GUN with its fields; FIRE drives GUN_OUT and fires (R124). -/
def Dev.gunWrite (s : Dev) (v : Word) : Dev :=
  s.keyed Pg.SYS 0x47 v fun t =>
    if bitAt v 0 && t.gunBarred then t.cfgErr Pg.SYS
    else
      let t1 := (t.setB Fld.SYS_GUN_REPEAT (bitAt v 9)).setB Fld.SYS_GUN_IN_EN (bitAt v 8)
      if bitAt v 0 then t1.gunOut.gun else t1

def execGunFire (m : Nat) (v : Word) (s : State) : Out := wrAct m Reg.SYS_GUN v s fun d => d.gunWrite v

/-! ### The calibration measurement unit (R198, R199) -/

/-- CAL_MEASURE_START: a write of CALM_CTRL. -/
def Dev.calmWrite (s : Dev) (v : Word) : Dev :=
  let cyc := bitsOf v 23 16
  let sel := bitsOf v 15 8
  let mode := bitsOf v 5 4
  if cyc = 0 ∨ 207 < sel ∨ 1 < mode ∨ (bitAt v 0 ∧ (s.on Fld.UCH_CALM_STAT_BUSY ∨ (mode = 1 ∧ 192 ≤ sel))) then s.cfgErr Pg.UCH
  else
    let s1 := ((s.set Fld.UCH_CALM_CTRL_CYC cyc).set Fld.UCH_CALM_CTRL_SEL sel).set Fld.UCH_CALM_CTRL_MODE mode
    if !bitAt v 0 then s1
    else if mode = 1 ∧ s.get (Fld.FRAME_VG_STAT_STATE (s.chGrp sel)) ≠ 2 then (s1.set Fld.UCH_CALM_STAT_NOLOCK 1).set Fld.UCH_CALM_STAT_DONE 1
    else
      { ((s1.set Fld.UCH_CALM_STAT_BUSY 1).set Fld.UCH_CALM_STAT_NOLOCK 0).set Fld.UCH_CALM_STAT_VOID 0 with
        fe := { s1.fe with calm := some (mode, sel, cyc), calmN := 0, calmLg := [], calmHg := [], calmVoid := false, calmWords := [], calmBounds := [] } }

def execCalMeasureStart (m : Nat) (v : Word) (s : State) : Out := wrAct m Reg.UCH_CALM_CTRL v s fun d => d.calmWrite v

/-- RATIO in Q2.30 (R198); a free value where the sum of hg² is 0 or the quotient is outside the format. -/
def calmRatio (free : Nat) (w : List (Int × Int)) : Nat :=
  let num := ((w.map fun (e : Int × Int) => e.1 * e.2).foldl (· + ·) 0) * 2 ^ 30
  let den := ((w.map fun (e : Int × Int) => e.2 * e.2).foldl (· + ·) 0).toNat
  let q := freeDiv siteCalm num den
  if den = 0 ∨ q < 0 ∨ 2 ^ 32 ≤ q then Config.calNoRatio free else q.toNat

/-- RMS in 1/256 LSB. -/
def calmRms (l : List Int) : Nat :=
  if l.isEmpty then 0 else satN 0xFFFFFFFF (freeSqrt siteCalm (65536 * ((l.map fun b => b * b).foldl (· + ·) 0).toNat) l.length)

/-- The boundaries of a MATCH window, first to last, once it has its CYC cycles. -/
def Dev.calmSpan (s : Dev) (cyc : Nat) : Option (List Int) := if cyc < s.fe.calmBounds.length then some (s.fe.calmBounds.take (cyc + 1)) else none

/-- The tracker's phase at a frame in 2^-64 turn (R198): how far the frame lies into its cycle. -/
def calmPhase : List Int → Nat → Nat
  | a :: b :: r, q =>
    let d := posDiff ((q : Int) * q32) a
    if d < posDiff b a then (d * 2 ^ 64 / posDiff b a).toNat else calmPhase (b :: r) q
  | _, _ => 0

/-- The fundamental of one path over the window, by the tracker's phase: its angle in 2^-64 turn. -/
def calmAngle (w : List (Nat × Int)) : Int :=
  arg64 ((w.map fun e => e.2 * cosTurn e.1 (2 ^ 64)).foldl (· + ·) 0) (-(w.map fun e => e.2 * sinTurn e.1 (2 ^ 64)).foldl (· + ·) 0)

/-- DELAY of R198: the high-gain path's lead over the low-gain path at the measured frequency, in 1/1024 sample, rounded to nearest. -/
def calmDelay (cyc : Nat) (bounds : List Int) (w : List (Nat × Int × Int)) : Int :=
  let ph := w.map fun e => (calmPhase bounds e.1, e.2)
  let lead := calmAngle (ph.map fun e => (e.1, e.2.2)) - calmAngle (ph.map fun e => (e.1, e.2.1))
  let turn := (lead + 2 ^ 63) % 2 ^ 64 - 2 ^ 63
  roundDivI (turn * posDiff (bounds.getLastD 0) (bounds.headD 0) * 1024) (cyc * 2 ^ 96)

/-- MEAN's results. -/
def Dev.calmMean (s : Dev) (sel : Nat) : Dev :=
  let n := s.fe.calmN
  (List.range 16).foldl (fun (t : Dev) j =>
    (t.setI (Fld.UCH_CALM_MEAN_LG_MEAN j) (freeDiv siteCalm (256 * nth s.fe.calmLg j 0) n)).setI (Fld.UCH_CALM_MEAN_HG_MEAN j)
      (if sel < 192 then freeDiv siteCalm (256 * nth s.fe.calmHg j 0) n else 0)) ((s.setB Fld.UCH_CALM_STAT_VOID s.fe.calmVoid).set Fld.UCH_CALM_N_N n)

/-- MATCH's results over the words whose frames lie in the window. -/
def Dev.calmMatch (s : Dev) (cyc : Nat) (bounds : List Int) : Dev :=
  let w := (s.fe.calmWords.filter fun e => decide (0 ≤ posDiff ((e.1 : Int) * q32) (bounds.headD 0)) && decide (posDiff ((e.1 : Int) * q32) (bounds.getLastD 0) < 0)).reverse
  let p := w.map fun e => (e.2.1, e.2.2.1)
  let s1 := (s.setB Fld.UCH_CALM_STAT_VOID (w.any fun e => e.2.2.2)).set Fld.UCH_CALM_N_N w.length
  ((((s1.set Fld.UCH_CALM_RATIO_RATIO (calmRatio s.free p)).setI Fld.UCH_CALM_DELAY_DELAY (calmDelay cyc bounds (w.map fun e => (e.1, e.2.1, e.2.2.1)))).set Fld.UCH_CALM_LGRMS_RMS (calmRms (p.map (·.1)))).set
    Fld.UCH_CALM_HGRMS_RMS (calmRms (p.map (·.2)))).tick

/-- CAL_MEASURE_DONE: the window is complete, its results and DONE. Where the group of a MATCH has left LOCK meanwhile, it ends with NOLOCK instead (R199). -/
def Dev.calmDone (s : Dev) : Dev :=
  let off := (({ s with fe := { s.fe with calm := none } }).set Fld.UCH_CALM_STAT_BUSY 0).set Fld.UCH_CALM_STAT_DONE 1
  match s.fe.calm with
  | none => s
  | some (0, sel, cyc) => if 640 * cyc ≤ s.fe.calmN then off.calmMean sel else s
  | some (_, sel, cyc) =>
    match s.calmSpan cyc with
    | some b => off.calmMatch cyc b
    | none => if s.get (Fld.FRAME_VG_STAT_STATE (s.chGrp sel)) ≠ 2 then off.set Fld.UCH_CALM_STAT_NOLOCK 1 else s

def execCalMeasureDone (s : State) : Out := mainAct s Dev.calmDone

end Sys2Proof.Machine
end

