-- ==== Sys2Proof/Machine/Last.lean ====
section
/-! DEFINITION. The Last resampler and the per-cycle computation (R142–R147, R169, R178–R190): scales latched at a cycle's start, line-locked words from the raw ring, and the record of a lane or a voltage channel with the channel block it leads to. -/

namespace Sys2Proof.Machine

/-! ### Result RAM (R65) -/

/-- A record of `n` bytes at an offset of result RAM replaces what a Pacer had written there over the bus (R65). -/
def Meter.cover (m : Meter) (o n : Nat) : Meter := { m with overlay := m.overlay.filter fun e => !(decide (o ≤ e.1) && decide (e.1 < o + n)) }

/-- As `Meter.cover`, for a list of offsets. -/
def Dev.coverAll (s : Dev) (l : List Nat) (n : Nat) : Dev := { s with meter := l.foldl (fun m o => m.cover o n) s.meter }

/-! ### Positions, Q32.32 frames on the SEQ scale -/

/-- The frame SEQ a position lies in. -/
def posSeq (p : Int) : Nat := (p / q32 % 2 ^ 32).toNat

/-- A frame of the ring by SEQ. -/
def Dev.frame (s : Dev) (q : Nat) : Option Frame := s.fe.ring.find? fun f => f.seq == q % 2 ^ 32

/-- Delay from the balls to the release of a word, in MT ticks (R118, R119). -/
def ballsDelay : Nat := 19956

/-- MT at the balls of a position, in 2^-32 tick (R119, R157). -/
def Dev.posTicks (s : Dev) (p : Int) : Int :=
  let base : Int := match s.frame (posSeq p) with
    | some f => f.mt
    | none => (s.mt : Int) + serialDiff 32 (posSeq p) s.newestSeq * 768
  (base - ballsDelay) * q32 + (p % q32) * 768

/-- MT at the balls of a position (R157): the whole ticks: its frame's release less the delay of R119, plus its fraction. -/
def Dev.posMt (s : Dev) (p : Int) : Nat :=
  (s.posTicks p / q32).toNat

/-! ### Scales (R146, R157, R178, R179, R197, R207) -/

/-- The value between two points, `a` / `b` of the way, as a quotient. -/
def between (f0 f1 a : Int) (b : Nat) : Int × Nat := (f0 * b + (f1 - f0) * a, b)

/-- A pod's table value at a current in µA (R207): linear in log2 between points, clamped outside. -/
def podAtI (f : Nat × Int × Int → Int) (i : Nat) : List (Nat × Int × Int) → Int × Nat
  | [] => (0, 1)
  | [p] => (f p, 1)
  | p :: q :: r =>
    if i ≤ 1000 * p.1 then (f p, 1)
    else if i < 1000 * q.1 then
      (if p.1 = 0 then (Config.podLogZero i q.1 (f p) (f q), 1) else between (f p) (f q) (log2Ratio i (1000 * p.1)) (log2Ratio q.1 p.1))
    else podAtI f i (q :: r)

/-- A pod's table value at a temperature in 1/16 °C: linear, clamped outside. -/
def podAtT (f : Int × Int × Int → Int) (t : Int) : List (Int × Int × Int) → Int × Nat
  | [] => (0, 1)
  | [p] => (f p, 1)
  | p :: q :: r =>
    if t ≤ p.1 then (f p, 1)
    else if t < q.1 then between (f p) (f q) (t - p.1) (q.1 - p.1).toNat
    else podAtT f t (q :: r)

/-- A fractional correction in 2^-30 as the factor 1 + x (R207). -/
def gainFactor (x : Int × Nat) : Int × Nat := ((x.2 : Int) * 2 ^ 30 + x.1, x.2 * 2 ^ 30)

/-- The sum of two quotients. -/
def fracAdd (x y : Int × Nat) : Int × Nat := (x.1 * y.2 + y.1 * x.2, x.2 * y.2)

/-- An angle in 10^-5 degree as a delay in 2^-16 sample at a frequency: angle / 360 / FNOM × 32000 × 65536 (R207). -/
def podDelay (x : Int × Nat) (fnom : Nat) : Int × Nat := (x.1 * (32000 * 65536), x.2 * (36000000 * fnom))

/-- FNOM of a group in Hz. -/
def Dev.fnom (s : Dev) (g : Nat) : Nat := if s.on (Fld.FRAME_VG_CFG_FNOM g) then 60 else 50

/-- The pod in force on a lane. -/
def Dev.podOn (s : Dev) (l : Nat) : Option Pod := s.eye.pods.find? fun p => p.lane == l && p.inForce

/-- The corrections a cycle latches for a channel: the chip's and a pod's gain factors, and the phase they add in 2^-16 sample (R197 rows 5 and 6, R207). -/
def Dev.corrections (s : Dev) (c : Nat) : List (Int × Nat) × (Int × Nat) :=
  let b := chBlk c
  let k := (s.chan c).cal
  let cr := if k.chipOff then (0, 0) else s.tcNow b
  match (if c < 192 && !k.podOff then s.podOn c else none) with
  | none => ([gainFactor (cr.1, 1)], (cr.2, 1))
  | some p =>
    let i := match nth s.meter.committed c none with | some r => r.rms | none => 0
    let tp := s.tcTemp b + signedOf k.tofs 8 * 8
    let fn := s.fnom (s.chGrp c)
    ([gainFactor (cr.1, 1), gainFactor (podAtI (·.2.1) i p.curTab), gainFactor (podAtT (·.2.1) tp p.tmpTab)],
     fracAdd (cr.2, 1) (fracAdd (podDelay (podAtI (·.2.2) i p.curTab) fn) (podDelay (podAtT (·.2.2) tp p.tmpTab) fn)))

/-- What a cycle latches for a channel at its start; a pod's MAPK replaces ISCALE's (R251). -/
def Dev.scaleOf (s : Dev) (c : Nat) : Scale :=
  let r := chRec c
  let k := s.corrections c
  let mapk := match (if c < 192 && !(s.chan c).cal.podOff then s.podOn c else none) with | some p => p.mapk | none => s.get (Fld.REC_ISCALE_MAPK r)
  let base : Scale := { iscale := mapk, noload := if c < 192 then s.get (Fld.REC_NOLOAD_NV r) else 0, g := k.1, ph := k.2 }
  if c < 192 then
    match s.slotOf c with
    | some (b, i) =>
      let bd := nth s.bill.bound b {}
      { base with pair := if bd.role i < 3 then some (192 + 4 * s.chGrp c + bd.role i) else none, inv := bd.inv i }
    | none => base
  else base

/-- The calibration values that APPLY had put in force at a frame (R105, R157, R171). -/
def Chan.calAt (k : Chan) (q : Nat) : Cal :=
  match (k.calPrev.filter fun (e : Nat × Cal) => newer 32 e.1 q).getLast? with
  | some e => e.2
  | none => k.cal

/-- GAIN with the cycle's correction factors, before its clamp (R197 row 5). -/
def Scale.gain (sc : Scale) (gain : Nat) : Int := freeDiv siteGain (sc.g.foldl (fun a e => a * e.1) (gain : Int)) (sc.g.foldl (fun a e => a * e.2) 1)

/-- PHASE with the cycle's corrections, before its clamp (R197 row 6). -/
def Scale.phase (sc : Scale) (phase : Int) : Int := freeDiv sitePhase (phase * sc.ph.2 + sc.ph.1) sc.ph.2

/-- GAIN and PHASE of a channel at a frame, with the cycle's corrections (R142, R157, R207, R208). -/
def Dev.gainAt (s : Dev) (c : Nat) (q : Nat) (sc : Scale) : Nat × Int :=
  let k := (s.chan c).calAt q
  ((clampI 0 0xFFFFFFFF (sc.gain k.gain)).toNat, clampI (-131072) 131071 (sc.phase k.phase))

/-- A combined gain or phase that had to be clamped (R208). -/
def Dev.gainClamped (s : Dev) (c : Nat) (sc : Scale) : Bool :=
  let k := (s.chan c).cal
  let g := sc.gain k.gain
  let p := sc.phase k.phase
  decide (g < 0) || decide (0xFFFFFFFF < g) || decide (p < -131072) || decide (131071 < p)

/-! ### The input series (R97, R142) -/

/-- A channel's value and word in one frame; an absent frame counts as unsettled. -/
def Dev.ringWord (s : Dev) (c q : Nat) : Word :=
  match s.frame q with
  | some f => if c < 192 then nth f.lanes c 0x80000000 else nth f.us (c - 192) 0x80000000
  | none => 0x80000000

/-- One word of a channel as replay takes it: the values in force at its frame, whether an event of R93 cleared the integrator before it, and the word. -/
structure SerWord where
  cal : Cal
  cleared : Bool
  w : Word
  deriving DecidableEq, Repr

/-- A run of words of a channel from a saved integrator state: after each word the state y and x, and the word's value, integrated where INTEG was set at its frame (R97). -/
def integRun : Int → Int → List SerWord → List (Int × Int × Int × Word)
  | _, _, [] => []
  | y, x, e :: r =>
    let y0 := if e.cleared then 0 else y
    let x0 := if e.cleared then 0 else x
    if e.cal.integ then
      let y1 := integStep e.cal y0 (wData e.w) x0
      (y1, wData e.w, integOut y1, e.w) :: integRun y1 (wData e.w) r
    else (y0, x0, wData e.w, e.w) :: integRun y0 x0 r

/-- Frames before a boundary from which its starting block's integrator state counts. -/
def seriesLead : Nat := 20

/-- The words of a channel in `n` frames from one on. -/
def Dev.ringWords (s : Dev) (c q0 n : Nat) : List Word := (List.range n).map fun i => s.ringWord c (q0 + i)

/-- A channel's word in frame `q` as replay takes it. -/
def Dev.serWord (s : Dev) (c q : Nat) : SerWord :=
  { cal := (s.chan c).calAt q, cleared := match s.frame q with | some f => natBit f.cleared c | none => false, w := s.ringWord c q }

/-- A channel's words and integrator states over `n` frames from one on, from a block's saved state. -/
def Dev.integSeries (s : Dev) (c : Nat) (sb : ChanBlock) (q0 n : Nat) : List (Int × Int × Int × Word) := integRun sb.y sb.x ((List.range n).map fun i => s.serWord c (q0 + i))

/-- The series of a channel over `n` frames from one on, an INTEG lane's from a saved state. -/
def Dev.series (s : Dev) (c : Nat) (sb : ChanBlock) (q0 n : Nat) : List (Int × Word) := (s.integSeries c sb q0 n).map fun e => e.2.2

/-! ### Line-locked words (R142, R147) -/

/-- A line-locked or fixed-rate word: its data and its marks. -/
structure LWord where
  d : Int
  uns : Bool
  clp : Bool
  inj : Bool
  deriving DecidableEq, Repr

/-- An output as the 32-bit word of R147. -/
def LWord.word (w : LWord) (spec : Bool) (cyc : Nat) : Word :=
  BitVec.ofNat 32 (w.uns.toNat * 2 ^ 31 + spec.toNat * 2 ^ 30 + w.clp.toNat * 2 ^ 29 + w.inj.toNat * 2 ^ 28 + cyc % 16 * 2 ^ 24 + unsignedOf w.d 24)

/-- A word with SPEC cleared: it is committed (R147). -/
def wordCommit (w : Word) : Word := w &&& ~~~ (0x40000000 : Word)

/-- The coefficient set of a mode (R143): L256, L128, L64, F16, F8. -/
def coefSet (mode nsel : Nat) : Nat := if mode = 0 then nsel else 2 + mode

/-- The 32-tap product of a filter phase over the samples from frame i − 15 on (R142). -/
def dot32 (set ph : Nat) (x : List Int) : Int := freeDiv siteDot (((List.range 32).map fun j => Config.lastCoef set ph j * nth x j 0).foldl (· + ·) 0) (2 ^ 30)

/-- y of R142: the products of two neighbouring phases, weighted; phase 1024 is phase 0 of the next frame. `x` holds the 33 samples from frame i − 15 on. -/
def lastMix (set ph w : Nat) (x : List Int) : Int :=
  let y0 := dot32 set ph x
  let y1 := if ph = 1023 then dot32 set 0 (x.drop 1) else dot32 set (ph + 1) x
  y0 + ((y1 - y0) * w).tdiv 64

/-- One output at a position, from a series that starts at frame `q0` (R142). -/
def lastWord (set : Nat) (ser : List (Int × Word)) (q0 : Nat) (pos : Int) (gain : Nat) : LWord :=
  let i := serialDiff 32 (posSeq pos) q0
  let first := (i - 15).toNat
  let win := (ser.drop first).take 33
  let ph := (pos / 2 ^ 22 % 1024).toNat
  let w := (pos / 2 ^ 16 % 64).toNat
  { d := sat24 (roundDivI (lastMix set ph w (win.map (·.1)) * gain) (2 ^ 30)), uns := win.any (fun e => wUns e.2) || decide (win.length < 33), clp := win.any fun e => wClp e.2, inj := win.any fun e => wInj e.2 }

/-- The outputs of a span: start, step, count (R142). -/
def Dev.lastWords (s : Dev) (c set : Nat) (sb : ChanBlock) (sc : Scale) (start step : Int) (n : Nat) : List LWord :=
  let q0 := (posSeq start + 2 ^ 32 - seriesLead) % 2 ^ 32
  let frames := ((step * n / q32).toNat) + 2 * seriesLead + 2
  let ser := s.series c sb q0 frames
  (List.range n).map fun k =>
    let p := posWrap (start + k * step)
    let gp := s.gainAt c (posSeq p) sc
    let w := lastWord set ser q0 (posWrap (p - gp.2 * 2 ^ 16)) gp.1
    if sc.inv then { w with d := -w.d } else w

/-! ### The record (R180–R190) -/

/-- energy(): µJ and the new remainder (R181). -/
def energyDen : Int := 32000 * 2 ^ 78
def energyOf (x : Int) (mapk uscale : Nat) (step rem : Int) : Int × Int :=
  let t := x * mapk * uscale * step + rem
  (t / energyDen, t % energyDen)

/-- Sums of R180. -/
structure Sums where
  si : Int := 0
  sii : Int := 0
  nI : Nat := 0
  nBad : Nat := 0
  sp : Int := 0
  suu : Int := 0
  sip : Int := 0
  sq : Int := 0
  a : Int := 0
  b : Int := 0
  c : Int := 0
  d : Int := 0
  deriving DecidableEq, Repr

/-- One output of R180: lane word, partner word, delayed partner word. -/
def Sums.step (n : Nat) (m : Sums) (k : Nat) (i u ud : LWord) : Sums :=
  let m1 := if i.uns then m else { m with sii := m.sii + i.d * i.d, si := m.si + i.d, nI := m.nI + 1 }
  if i.uns || u.uns then { m1 with nBad := m1.nBad + 1 }
  else
    { m1 with sp := m1.sp + u.d * i.d, suu := m1.suu + u.d * u.d, sip := m1.sip + i.d * i.d, sq := if ud.uns then m1.sq else m1.sq + ud.d * i.d, a := m1.a + u.d * cosTab k n, b := m1.b - u.d * sinTab k n, c := m1.c + i.d * cosTab k n, d := m1.d - i.d * sinTab k n }

/-- Fold R180 over the outputs. -/
def sumsOf (n : Nat) (i u ud : List LWord) : Sums :=
  let z : LWord := ⟨0, true, false, false⟩
  (List.range n).foldl (fun m k => m.step n k (nth i k z) (nth u k z) (nth ud k z)) {}

/-- The sum of the data of words. -/
def sumD (l : List LWord) : Int := (l.map (·.d)).foldl (· + ·) 0

/-- Mean removal of an INTEG lane (R180). -/
def meanOut (l : List LWord) : List LWord :=
  let v := l.filter (!·.uns)
  let m := if v.isEmpty then 0 else (sumD v).tdiv v.length
  l.map fun (w : LWord) => { w with d := w.d - m }

/-- RMS in code units from sums (R180): of an INTEG lane after the mean is subtracted from each word, Σ(x − m)² = Σx² − 2mΣx + nm². -/
def rmsCode (integ : Bool) (sii si : Int) (n : Nat) : Nat :=
  if n = 0 then 0
  else
    let m := if integ then si.tdiv n else 0
    isqrt ((sii - 2 * m * si + n * (m * m)).tdiv n).toNat

/-- Code units to µA or µV, rounded to nearest, saturating (R180, R182). -/
def rmsScaled (code scale : Nat) : Nat := satN 0xFFFFFFFF (roundDiv (code * scale * 1000) (2 ^ 23))

/-- Sum of squares, sum and count of valid words. -/
def halfOf (l : List LWord) : Int × Int × Nat :=
  let v := l.filter (!·.uns)
  (v.foldl (fun a w => a + w.d * w.d) 0, sumD v, v.length)

/-- What every record of a span shares. -/
structure Span where
  cyc : Nat
  start : Int
  step : Int
  n : Nat
  /-- N of the group: its quarter is what the delay line keeps (R157). -/
  nNom : Nat
  set : Nat
  fixed : Bool := false
  /-- No delay line in this record (R183). -/
  fresh : Bool := false
  /-- The halves before and in this record are not contiguous (R186). -/
  broken : Bool := false
  mt : Nat
  flags : Rec
  deriving DecidableEq, Repr

/-- The first frame at or after a position. -/
def ceilSeq (p : Int) : Nat := ((-((-p) / q32)) % 2 ^ 32).toNat

/-- The position at which a span ends. -/
def Span.stop (sp : Span) : Int := posWrap (sp.start + sp.step * sp.n)

/-- The words of a channel whose frames lie in a span, and how many carry HG (R194). -/
def Dev.spanHg (s : Dev) (c : Nat) (sp : Span) : Nat × Nat :=
  let q0 := ceilSeq sp.start
  let n := (serialDiff 32 (ceilSeq sp.stop) q0).toNat
  (((s.ringWords c q0 n).filter wHg).length, n)

/-- A block was isolated in a frame that a span's outputs use (R103). -/
def Dev.spanIso (s : Dev) (b : Nat) (sp : Span) : Bool :=
  let q0 := (posSeq sp.start + 2 ^ 32 - 16) % 2 ^ 32
  (List.range ((serialDiff 32 (posSeq sp.stop) (posSeq sp.start)).toNat + 34)).any fun i => match s.frame (q0 + i) with | some f => natBit f.iso b | none => false

/-- UNSCNT of R194: ceil(31 n_bad / N). -/
def unsCnt (bad n : Nat) : Nat := if n = 0 then 0 else satN 31 ((31 * bad + n - 1) / n)

/-- Comparators run over settled samples of frames from SEQ `q` on (R127, R157): the state after, and what fired where. -/
def cmpRun (f : CmpCfg) : Cmp → Nat → List (Int × Word) → Cmp × List (Nat × Nat)
  | k, _, [] => (k, [])
  | k, q, e :: r =>
    let a := if wUns e.2 then (k, []) else k.step f e.1.natAbs
    let b := cmpRun f a.1 (q + 1) r
    (b.1, a.2.map (fun kind => (q % 2 ^ 32, kind)) ++ b.2)

/-- The samples of a channel in the `n` frames that are the first at or after a position. -/
def Dev.samplesFrom (s : Dev) (c : Nat) (sb : ChanBlock) (start : Int) (n : Nat) : List (Int × Word) :=
  let q0 := (posSeq start + 2 ^ 32 - seriesLead) % 2 ^ 32
  let k := (serialDiff 32 (ceilSeq start) q0).toNat
  (s.series c sb q0 (n + k)).drop k

/-- The last of a line of words. -/
def lastOf {α : Type} (n : Nat) (l : List α) : List α := l.drop (l.length - n)

/-- The block a record leaves (R157): half window, delay line, integrator state at its end. -/
def Dev.nextBlock (s : Dev) (c : Nat) (sb : ChanBlock) (sp : Span) (ws : List LWord) (rem : List Int) (noload inv : Bool) : ChanBlock :=
  let q0 := (posSeq sp.start + 2 ^ 32 - seriesLead) % 2 ^ 32
  let n := (serialDiff 32 (posSeq sp.stop) (posSeq sp.start)).toNat
  let last := (s.integSeries c sb q0 n).getLast?
  let cmp := (cmpRun { s.cmpCfg c with p := ((sp.step * sp.n + 2 ^ 32).toNat) / 2 ^ 33 } sb.cmp (ceilSeq sp.start) (s.samplesFrom c sb sp.start (serialDiff 32 (ceilSeq sp.stop) (ceilSeq sp.start)).toNat)).1
  { rem := rem, half := halfOf (ws.drop (sp.n / 2)), halfOk := true, delay := if c < 192 then [] else lastOf (sp.nNom / 4) ((if sp.fresh then [] else sb.delay) ++ ws.map fun w => (w.d, w.uns)), noload := noload, y := match last with | some e => e.1 | none => sb.y, x := match last with | some e => e.2.1 | none => sb.x, cmp := cmp, words := ws.map fun w => (if inv then { w with d := -w.d } else w).word sp.flags.spec sp.cyc, inv := inv }

/-- The midpoint window of R186, where its halves are contiguous and hold a valid word: sum of squares, sum and count. -/
def midOf (sb : ChanBlock) (sp : Span) (ws : List LWord) : Option (Int × Int × Nat) :=
  let h := halfOf (ws.take (sp.n / 2))
  if sp.fresh || sp.broken || !sb.halfOk || sb.half.2.2 + h.2.2 == 0 then none
  else some (sb.half.1 + h.1, sb.half.2.1 + h.2.1, sb.half.2.2 + h.2.2)

/-- RMS_MID of R186; 0 where the window is not whole. -/
def rmsMidOf (integ : Bool) (sb : ChanBlock) (sp : Span) (ws : List LWord) (scale : Nat) : Nat :=
  match midOf sb sp ws with
  | none => 0
  | some h => rmsScaled (rmsCode integ h.1 h.2.1 h.2.2) scale

/-- An angle held in −1 800 000 to 1 799 999 (R190). -/
def angWrap (a : Int) : Int := (a + 1800000) % 3600000 - 1800000

/-- The angle of a fundamental in 2^-64 turn from its two sums, 0 for a sine crossing upward at the boundary (R190). -/
def fundArg (a b : Int) : Int := arg64 (-b) a

/-- A difference of angles in 10^-4 degree. -/
def angUnits (d : Int) : Int := angWrap (freeDiv siteAngle (d * 3600000) (2 ^ 64))

/-- RMS of the fundamental in primary units from its two sums over n outputs (R190). -/
def fundRms (a b : Int) (n scale : Nat) : Nat := satN 0xFFFFFFFF (freeSqrt siteUf ((2 * (a * a + b * b)).toNat * (scale * 1000) ^ 2) (n * n * 2 ^ 106))

/-- A voltage channel's words and record (R190). `ang0` is the angle of U(4g). DESIGN CHOICE (log 78): PEAK and UF saturate as RMS does, and DC keeps the low 32 bits. -/
def Dev.voltRec (s : Dev) (c : Nat) (sb : ChanBlock) (sc : Scale) (sp : Span) (ws : List LWord) (ang0 : Int) : Rec × ChanBlock :=
  let m := sumsOf sp.n ws ws ws
  let valid := ws.filter (!·.uns)
  let bad := (ws.filter (·.uns)).length
  let zero := sc.iscale = 0
  let peak := (valid.map fun w => w.d.natAbs).foldl max 0
  let mean := if valid.isEmpty then 0 else (sumD valid).tdiv valid.length
  let ang := fundArg m.a m.b
  let r : Rec :=
    { sp.flags with cyc := sp.cyc, mt := sp.mt, fixed := sp.fixed, rms := if zero then 0 else rmsScaled (rmsCode false m.sii m.si m.nI) sc.iscale, rmsMid := if zero then 0 else rmsMidOf false sb sp ws sc.iscale, rmsOk := decide (0 < m.nI), midOk := (midOf sb sp ws).isSome, len := (sp.step * sp.n / 2 ^ 16).toNat, span := (sp.step * sp.n / 2 ^ 16).toNat, uf := if zero ∨ sp.fixed then 0 else fundRms m.a m.b sp.n sc.iscale, ufAng := if zero ∨ sp.fixed ∨ valid.isEmpty then 0 else angUnits (if (c - 192) % 4 = 0 then ang else ang - ang0), peak := if zero then 0 else rmsScaled peak sc.iscale, dc := if zero ∨ sp.fixed then 0 else roundDivI (mean * sc.iscale * 1000) (2 ^ 23), uns := decide (0 < bad), inj := ws.any (·.inj), clp := ws.any (·.clp), unsCnt := unsCnt bad sp.n }
  (r, s.nextBlock c sb sp ws sb.rem false false)

/-- The angle of the fundamental of a channel's words. -/
def angOf (n : Nat) (ws : List LWord) : Int :=
  let m := sumsOf n ws ws ws
  fundArg m.a m.b

/-- A lane's record (R180–R189), from its words, its partner's words and delayed words. DESIGN CHOICE (log 99): the no-load compare's one GAIN.VAL, and whether INTEG removes the mean, are those in force at the record's first frame, where APPLY changes them inside it. -/
def Dev.laneRec (s : Dev) (c : Nat) (sb : ChanBlock) (sc : Scale) (sp : Span) (raw : List LWord) (pu : Option (Nat × List LWord × List LWord)) (ang0 : Int) : Rec × ChanBlock :=
  let integ := ((s.chan c).calAt (posSeq sp.start)).integ
  let ws := if integ then meanOut raw else raw
  let u := match pu with | some p => p.2.1 | none => ws.map fun (w : LWord) => { w with d := 0 }
  let ud := match pu with | some p => p.2.2 | none => u
  let uscale := match pu with | some p => p.1 | none => 0
  let m := sumsOf sp.n ws u ud
  let code := rmsCode false m.sii (if integ then 0 else m.si) m.nI
  let gain := ((s.chan c).calAt (posSeq sp.start)).gain
  let v := code * 64000000000
  let noload := decide (0 < sc.noload) && (if sb.noload then decide (v < sc.noload * gain) else decide (8 * v < 7 * sc.noload * gain))
  let hold := noload || pu.isNone || sc.iscale == 0 || uscale == 0
  let e (x : Int) (q : Nat) : Int × Int := if hold then (0, nth sb.rem q 0) else energyOf x sc.iscale uscale sp.step (nth sb.rem q 0)
  let sp1 := (2 * (m.a * m.c + m.b * m.d)).tdiv (sp.n * 2 ^ 60)
  let sq1 := (2 * (m.b * m.c - m.a * m.d)).tdiv (sp.n * 2 ^ 60)
  let ep := e m.sp 0
  let eq := e (if sp.fixed then 0 else m.sq) 1
  let es := e (isqrt (m.suu * m.sip).toNat) 2
  let ep1 := e (if sp.fixed then 0 else sp1) 3
  let eq1 := e (if sp.fixed then 0 else sq1) 4
  let hg := s.spanHg c sp
  let bad := if pu.isSome then m.nBad else (ws.filter (·.uns)).length
  let inj := ws.any (·.inj) || (pu.isSome && u.any (·.inj))
  let r : Rec :=
    { sp.flags with cyc := sp.cyc, mt := sp.mt, fixed := sp.fixed, ep := ep.1, eq := if sp.fixed then 0 else eq.1, es := es.1, ep1 := if sp.fixed then 0 else ep1.1, eq1 := if sp.fixed then 0 else eq1.1, rms := if sc.iscale = 0 then 0 else rmsScaled code sc.iscale, rmsMid := if sc.iscale = 0 then 0 else rmsMidOf integ sb sp raw sc.iscale, uf := if sp.fixed then 0 else fundRms m.c m.d sp.n sc.iscale, ufAng := if sp.fixed || ws.all (·.uns) then 0 else angUnits (fundArg m.c m.d - ang0), span := (sp.step * sp.n / 2 ^ 16).toNat, uns := decide (0 < bad) || (ws.any (·.uns)) || (sp.fresh && pu.isSome && !sp.fixed), inj := inj, iso := s.spanIso (chBlk c) sp || (pu.isSome && s.spanIso 12 sp), clp := ws.any (·.clp), noload := noload, unverified := s.on (Fld.REC_STATUS_UNVERIFIED (chRec c)), quad := if pu.isNone then 0 else (if 0 ≤ ep.1 then (if 0 ≤ eq1.1 then 0 else 3) else (if 0 ≤ eq1.1 then 1 else 2)), unsCnt := unsCnt bad sp.n, hgf := if hg.2 = 0 then 0 else 255 * hg.1 / hg.2 }
  (r, s.nextBlock c sb sp raw [ep.2, if sp.fixed then nth sb.rem 1 0 else eq.2, es.2, if sp.fixed then nth sb.rem 3 0 else ep1.2, if sp.fixed then nth sb.rem 4 0 else eq1.2] noload sc.inv)

/-- The words of a voltage channel delayed by N/4 outputs: the delay line of the starting block, then the record's own (R180, R183). DESIGN CHOICE (log 79): a line shorter than N/4 is padded with UNS words at its older end. -/
def delayed (sb : ChanBlock) (sp : Span) (ws : List LWord) : List LWord :=
  let q := sp.n / 4
  let d := if sp.fresh then [] else lastOf q sb.delay
  let line : List LWord := List.replicate (q - d.length) ⟨0, true, false, false⟩ ++ d.map fun e => ⟨e.1, e.2, false, false⟩
  line ++ ws.take (sp.n - q)

/-- Records of a group's voltage channels over a span from their blocks `sbs`, with their words. -/
def Dev.groupVolts (s : Dev) (g : Nat) (sc : List Scale) (sp : Span) (sbs : Nat → ChanBlock) : List (Nat × Rec × ChanBlock × List LWord) :=
  let cs := (List.range 4).map fun j => 192 + 4 * g + j
  let ws := cs.map fun c => (c, s.lastWords c sp.set (sbs c) (nth sc c {}) sp.start sp.step sp.n)
  let ang0 := match ws.head? with | some e => angOf sp.n e.2 | none => 0
  ws.map fun e =>
    let r := s.voltRec e.1 (sbs e.1) (nth sc e.1 {}) sp e.2 ang0
    (e.1, r.1, r.2, e.2)

/-- Records of a heat's lanes over a span, paired with the group's voltage words of the same span. -/
def Dev.heatRecs (s : Dev) (h : Nat) (sc : List Scale) (sp : Span) (volts : List (Nat × Rec × ChanBlock × List LWord)) (sbs : Nat → ChanBlock) : List (Nat × Rec × ChanBlock) :=
  let ang0 := match volts.head? with | some v => angOf sp.n v.2.2.2 | none => 0
  (blkChans h).map fun c =>
    let k := nth sc c {}
    let sb := nth s.meter.sb c {}
    let ws := s.lastWords c sp.set sb k sp.start sp.step sp.n
    let pu := match k.pair with
      | some u => (volts.find? fun v => v.1 == u).map fun v => ((nth sc u {}).iscale, v.2.2.2, delayed (sbs u) sp v.2.2.2)
      | none => none
    let r := s.laneRec c sb k sp ws pu ang0
    (c, r.1, r.2)

end Sys2Proof.Machine
end

