-- ==== Sys2Proof/Machine/Harm.lean ====
section
/-! DEFINITION. Consumers of the metering records (R217–R241): power-quality events, harmonic windows, aggregation intervals, and the commands of the capture store. -/

namespace Sys2Proof.Machine

/-! ### Power-quality events (R229–R234) -/

/-- An instant of the half-cycle series: its MT, the frame it lies in, the masked channels' values in µV, and the flags of its record. -/
structure PqInst where
  mt : Nat
  seq : Nat
  vals : List (Nat × Nat)
  subst : Bool := false
  unsync : Bool := false
  pf : Bool := false
  replayed : Bool := false
  deriving DecidableEq, Repr

/-- A group's thresholds in tenths of a µV, so that no rounding enters a comparison (R229). -/
structure PqThr where
  sag : Nat
  sagEnd : Nat
  swell : Nat
  swellEnd : Nat
  intr : Nat
  intrEnd : Nat
  deriving DecidableEq, Repr

def Dev.pqThr (s : Dev) (g : Nat) : PqThr :=
  let u := s.get (Fld.PQE_VG_UDIN_MV g)
  let h := s.get (Fld.PQE_VG_THR2_HYST g)
  { sag := u * s.get (Fld.PQE_VG_THR1_SAG g), sagEnd := u * (s.get (Fld.PQE_VG_THR1_SAG g) + h), swell := u * s.get (Fld.PQE_VG_THR1_SWELL g), swellEnd := u * (s.get (Fld.PQE_VG_THR1_SWELL g) - h), intr := u * s.get (Fld.PQE_VG_THR2_INTR g), intrEnd := u * (s.get (Fld.PQE_VG_THR2_INTR g) + h) }

/-- The lowest (or highest) value of an instant, with its channel. -/
def pqExtreme (high : Bool) (vals : List (Nat × Nat)) : Nat × Nat :=
  match vals with
  | [] => (0, 0)
  | v :: r => r.foldl (fun b e => if (if high then decide (b.2 < e.2) else decide (e.2 < b.2)) then e else b) v

/-- An event that starts at an instant. -/
def PqInst.opened (i : PqInst) (high : Bool) : PqOpen :=
  let x := pqExtreme high i.vals
  { startMt := i.mt, nhalf := 1, ext := x.2, ch := x.1, subst := i.subst, unsync := i.unsync, pf := i.pf, replayed := i.replayed }

/-- An event that runs on through an instant. -/
def PqOpen.more (o : PqOpen) (high : Bool) (i : PqInst) : PqOpen :=
  let x := pqExtreme high i.vals
  let worse := if high then decide (o.ext < x.2) else decide (x.2 < o.ext)
  { o with nhalf := o.nhalf + 1, ext := if worse then x.2 else o.ext, ch := if worse then x.1 else o.ch, subst := o.subst || i.subst, unsync := o.unsync || i.unsync, pf := o.pf || i.pf }

/-- The list record of an event that ends at an instant (R232); SEQ is given when it is written. DESIGN CHOICE (log 110): DUR_US, EXT and EXT_PCT are rounded to nearest. -/
def PqOpen.closed (o : PqOpen) (type grp udin : Nat) (i : PqInst) : PqRec :=
  let mv := roundDiv o.ext 1000
  { seq := 0, type := type, grp := grp, ch := o.ch, flags := o.subst.toNat + o.unsync.toNat * 2 + (o.pf || i.pf).toNat * 4 + (o.replayed || i.replayed).toNat * 8 + o.intrWithin.toNat * 16 + o.inj.toNat * 32, startMt := o.startMt, durUs := satN 0xFFFFFFFF (roundDiv ((i.mt - o.startMt) * 1000) 24576), nhalf := o.nhalf, ext := mv, extPct := satN 0xFFFF (if udin = 0 then 0 else roundDiv (mv * 10000) udin) }

/-- One detector at one instant: the event after it, the event numbers raised, and the record of one that ended. -/
def pqDetect (o : Option PqOpen) (high start stop : Bool) (ev type grp udin : Nat) (i : PqInst) : Option PqOpen × List Nat × List PqRec :=
  match o with
  | none => if start then (some (i.opened high), [ev], []) else (none, [], [])
  | some p => if stop then (none, [ev + 1], [p.closed type grp udin i]) else (some (p.more high i), [], [])

/-- The three detectors at one instant (R230); an interruption marks the sag it lies in. -/
def PqGrp.eval (k : PqGrp) (t : PqThr) (grp udin : Nat) (i : PqInst) : PqGrp × List Nat × List PqRec :=
  if i.vals.isEmpty then (k, [], [])
  else
    let a := pqDetect k.sag false (i.vals.any fun v => decide (10 * v.2 < t.sag)) (i.vals.all fun v => decide (t.sagEnd ≤ 10 * v.2)) 0 1 grp udin i
    let b := pqDetect k.swell true (i.vals.any fun v => decide (t.swell < 10 * v.2)) (i.vals.all fun v => decide (10 * v.2 ≤ t.swellEnd)) 2 2 grp udin i
    let c := pqDetect k.intr false (i.vals.all fun v => decide (10 * v.2 < t.intr)) (i.vals.any fun v => decide (t.intrEnd ≤ 10 * v.2)) 4 3 grp udin i
    ({ k with sag := if c.1.isSome then a.1.map fun (p : PqOpen) => { p with intrWithin := true } else a.1, swell := b.1, intr := c.1 }, a.2.1 ++ b.2.1 ++ c.2.1, a.2.2 ++ b.2.2 ++ c.2.2)

/-- The injected sag at one instant (R234): its end, or its start where the detector is armed. -/
def PqGrp.fakeEval (k : PqGrp) (armed : Bool) (grp udin : Nat) (i : PqInst) : PqGrp × List Nat × List PqRec :=
  match k.fake with
  | some o => ({ k with fake := none }, [1], [o.closed 1 grp udin i])
  | none => if armed then ({ k with fake := some { i.opened false with inj := true } }, [0], []) else (k, [], [])

/-- The instants of a record's two half-cycle values, RMS_MID then RMS (R229), over the masked channels. -/
def Dev.pqInsts (s : Dev) (g : Nat) (start : Int) (recs : List (Nat × Rec)) (replayed : Bool) : List PqInst :=
  let mask := s.get (Fld.PQE_VG_CFG_CHMASK g)
  let rs := recs.filter fun e => decide (192 + 4 * g ≤ e.1) && decide (e.1 < 195 + 4 * g) && natBit mask (e.1 - 192 - 4 * g)
  match rs with
  | [] => []
  | e :: _ =>
    let r := e.2
    let at2 := fun (den : Nat) (vals : List (Nat × Nat)) => ({ mt := r.mt + r.span * 768 / (2 ^ 16 * den), seq := posSeq (start + (r.span : Int) * 2 ^ 16 / den), vals := vals, subst := r.subst, unsync := r.coast || r.free, pf := r.pf || r.pfPartial, replayed := replayed } : PqInst)
    [at2 2 (rs.filterMap fun x => if x.2.midOk then some (x.1 - 192 - 4 * g, x.2.rmsMid) else none), at2 1 (rs.filterMap fun x => if x.2.rmsOk then some (x.1 - 192 - 4 * g, x.2.rms) else none)]

/-- One instant evaluated on the speculative detectors: their events are raised, their records wait for the commit. -/
def Dev.pqStep (s : Dev) (g : Nat) (spec : Bool) (i : PqInst) : Dev :=
  let k := nth s.harm.pqSpec g {}
  let udin := s.get (Fld.PQE_VG_UDIN_MV g)
  let armed := s.injArmed Pg.PQE g && k.fake.isNone && !i.vals.isEmpty
  let live := s.injLive Pg.PQE
  let a := k.eval (s.pqThr g) g udin i
  let b := a.1.fakeEval armed g udin i
  let s1 := if armed then s.injUse Pg.PQE else s
  let s2 := { s1 with harm := { s1.harm with pqSpec := setAt s1.harm.pqSpec g b.1, pqDone := updAt s1.harm.pqDone g (· ++ a.2.2 ++ b.2.2) } }
  let s3 := a.2.1.foldl (fun (t : Dev) no => t.raiseSpec g { code := evCode Pg.PQE no, spec := spec, seq := i.seq, replayed := i.replayed, cyc := some (s.cycAt g i.seq) } true) s2
  b.2.1.foldl (fun (t : Dev) no => t.raiseSpec g { code := evCode Pg.PQE no, inj := true, spec := spec, seq := i.seq, replayed := i.replayed, cyc := some (s.cycAt g i.seq) } live) s3

/-- The voltage records of a cycle are evaluated (R229–R231). -/
def Dev.pqEval (s : Dev) (g : Nat) (start : Int) (recs : List (Nat × Rec)) (spec replayed : Bool) : Dev :=
  if s.on (Fld.PQE_VG_CFG_EN g) then (s.pqInsts g start recs replayed).foldl (fun t i => t.pqStep g spec i) s else s

/-- Discard the speculative evaluation (R231); the withdrawal events are raised with the others (R165). -/
def Dev.pqDrop (s : Dev) (g : Nat) : Dev :=
  { s with harm := { s.harm with pqSpec := setAt s.harm.pqSpec g (nth s.harm.pq g {}), pqDone := setAt s.harm.pqDone g [] } }

/-- A list record as 32 bytes (R232). -/
def PqRec.bytes (r : PqRec) : List Byte :=
  leBytes 4 r.seq ++ leBytes 1 r.type ++ leBytes 1 r.grp ++ leBytes 1 r.ch ++ leBytes 1 r.flags ++ leBytes 8 r.startMt ++ leBytes 4 r.durUs ++ leBytes 4 r.nhalf ++ leBytes 4 r.ext ++ leBytes 2 r.extPct ++ leBytes 2 0

/-- Write a list record (R232, R233) and its journal copy (R231). DESIGN CHOICE (log 111): the copy's code is that of the event's end. -/
def Dev.pqWrite (s : Dev) (r : PqRec) : Dev :=
  let slot := s.get Fld.PQE_LIST_HEAD_NEXT
  let q : PqRec := { r with seq := s.harm.listSeq }
  let s0 := s.coverAll [0xF2000 + 32 * slot] 32
  let s1 := { s0 with harm := { s.harm with list := assign s.harm.list slot q, listSeq := (s.harm.listSeq + 1) % 2 ^ 32 } }
  let s2 := (s1.set Fld.PQE_LIST_HEAD_NEXT ((slot + 1) % 256)).count Fld.PQE_LIST_HEAD_TOTAL
  if s.on Fld.PQE_CTRL_JRNL then s2.journal (evCode Pg.PQE (2 * r.type - 1)) 0xFF (natBit r.flags 5) false q.bytes else s2

/-- The running extreme shown in EXT: the open sag's, else the swell's, else the interruption's; 0 where none is open. -/
def PqGrp.extNow (k : PqGrp) : Nat :=
  match k.sag, k.swell, k.intr with
  | some o, _, _ => roundDiv o.ext 1000
  | none, some o, _ => roundDiv o.ext 1000
  | none, none, some o => roundDiv o.ext 1000
  | none, none, none => 0

/-- What committed detectors show: NOW, EXT and the counts of events that started: each is now open or ended, and was not open before. -/
def Dev.pqShow (s : Dev) (g : Nat) (old new : PqGrp) : Dev :=
  let s1 := ((s.setB (Fld.PQE_VG_NOW_SAG g) (new.sag.isSome || new.fake.isSome)).setB (Fld.PQE_VG_NOW_SWELL g) new.swell.isSome).setB (Fld.PQE_VG_NOW_INTR g) new.intr.isSome
  let s2 := s1.set (Fld.PQE_VG_EXT_MV g) new.extNow
  let dn := fun (type : Nat) => ((nth s.harm.pqDone g []).filter fun r => r.type == type).length
  let n := fun (o : Option PqOpen) => o.isSome.toNat
  let s3 := forN (dn 1 + n new.sag + n new.fake - n old.sag - n old.fake) s2 fun t _ => t.bump (Fld.PQE_VG_CNT_SAG g)
  let s4 := forN (dn 2 + n new.swell - n old.swell) s3 fun t _ => t.bump (Fld.PQE_VG_CNT_SWELL g)
  forN (dn 3 + n new.intr - n old.intr) s4 fun t _ => t.bump (Fld.PQE_VG_CNT_INTR g)

/-- The cycle commits: the speculative detectors are the committed ones, and records whose start and end are both committed are written. -/
def Dev.pqCommit (s : Dev) (g : Nat) : Dev :=
  let old := nth s.harm.pq g {}
  let new := nth s.harm.pqSpec g {}
  let s1 := s.pqShow g old new
  let done := nth s.harm.pqDone g []
  done.foldl (fun t r => t.pqWrite r) { s1 with harm := { s1.harm with pq := setAt s1.harm.pq g new, pqDone := setAt s1.harm.pqDone g [] } }

/-! ### Harmonic windows (R217–R223) -/

/-- Nc of a group (R217). -/
def Dev.harmNc (s : Dev) (g : Nat) : Nat := if s.on (Fld.FRAME_VG_CFG_FNOM g) then 12 else 10

/-- Heats enabled and bound to a group, lowest first. -/
def Dev.grpHeats (s : Dev) (g : Nat) : List Nat := (List.range 12).filter fun h => s.blkOn h && s.get (Fld.HEAT_CTRL_VGSEL h) == g

/-- The group produces windows (R217), in the states that have harmonics (R52). -/
def Dev.harmOn (s : Dev) (g : Nat) : Bool :=
  s.power.st != .quiet && s.power.st != .holdup && s.power.st != .shutdownTest && natBit (s.get Fld.HARM_CTRL_GEN) g && s.get (Fld.FRAME_VG_CFG_MODE g) == 0 && s.get (Fld.FRAME_VG_CFG_NSEL g) == 0 &&
    decide (2 ≤ s.get (Fld.FRAME_VG_STAT_STATE g)) && !(s.grpHeats g).isEmpty

/-- Channels a group's windows cover. -/
def Dev.harmChans (s : Dev) (g : Nat) : List Nat :=
  ((s.grpHeats g).flatMap fun h => (blkChans h).filter fun c => s.chOn c) ++ (List.range 4).map (192 + 4 * g + ·)

/-- A group's harmonics. -/
def Dev.hg (s : Dev) (g : Nat) : HarmGrp := nth s.harm.grp g {}
def Dev.hgUpd (s : Dev) (g : Nat) (f : HarmGrp → HarmGrp) : Dev := { s with harm := { s.harm with grp := updAt s.harm.grp g f } }

/-- ACTIVE. -/
def Dev.harmShow (s : Dev) (g : Nat) : Dev := s.setB (Fld.HARM_GRP_STAT_ACTIVE g) (s.hg g).window.isSome

/-- NCYC (R227): Nc, or 0 while the group makes no windows. -/
def Dev.harmNcyc (s : Dev) (g : Nat) : Nat := if s.harmOn g then s.harmNc g else 0

/-- A discarded window (R218): counted, event 3, and a slot of the intervals (R224). -/
def Dev.harmMiss (s : Dev) (g : Nat) : Dev :=
  if s.on Fld.HARM_CTRL_AGG then s.hgUpd g fun h => { h with shortSlots := h.shortSlots + 1, shortMiss := h.shortMiss + 1, tenMiss := h.tenMiss + 1 } else s

/-! ### Aggregation (R224–R226) -/

/-- One window added to a channel's sums. -/
def AggSum.add (a : AggSum) (w : WinRec) : AggSum :=
  { nwin := a.nwin + 1, hflags := a.hflags ||| w.hflags, rms2 := a.rms2 + w.rms * w.rms, thd50 := a.thd50 + w.thd50 * w.thd50, thd63 := a.thd63 + w.thd63 * w.thd63, ph := a.ph + w.phSum, p1 := a.p1 + w.p1, sg2 := (List.range 64).map fun h => nth a.sg2 h 0 + nth w.sg h 0 * nth w.sg h 0, g2 := (List.range 64).map fun h => nth a.g2 h 0 + nth w.g h 0 * nth w.g h 0 }

/-- The root mean square of a sum of squares over n windows. -/
def rmsMean (sum n : Nat) : Nat := if n = 0 then 0 else isqrtNear (sum / n)

/-- The aggregate record of a channel (R226). DESIGN CHOICE (log 110): means and root means are rounded to nearest. -/
def AggSum.close (a : AggSum) (c idx mt miss flags : Nat) : AggRec :=
  { idx := idx, hflags := a.hflags ||| flags ||| (if miss ≠ 0 ∨ a.nwin = 0 then 0x00100000 else 0), mt := if a.nwin = 0 then 0 else mt, nwin := a.nwin, nmiss := miss, rms := rmsMean a.rms2 a.nwin, thd50 := rmsMean a.thd50 a.nwin, thd63 := rmsMean a.thd63 a.nwin, ph := if c < 192 then roundDivI a.ph a.nwin else 0, p1 := if c < 192 then roundDivI a.p1 a.nwin else 0, sg := if c < 192 then [] else (List.range 64).map fun h => rmsMean (nth a.sg2 h 0) a.nwin, g := (List.range 64).map fun h => rmsMean (nth a.g2 h 0) a.nwin }

/-- Channels an interval records: those with sums, and those the group covers now. -/
def Dev.aggChans (s : Dev) (g : Nat) (l : List (Nat × AggSum)) : List Nat :=
  l.map (·.1) ++ (s.harmChans g).filter fun c => (lookup l c).isNone

/-- Aggregate records take their places in result RAM (R221): the voltage channels' from one offset, the lanes' from another. -/
def Dev.aggCover (s : Dev) (recs : List (Nat × AggRec)) (volts lanes : Nat) : Dev :=
  (s.coverAll ((recs.filter fun e => decide (192 ≤ e.1)).map fun e => volts + 512 * (e.1 - 192)) 512).coverAll ((recs.filter fun e => decide (e.1 < 192)).map fun e => lanes + 64 * e.1) 64

/-- The short interval closes (R224): records, SHORT_IDX, event 1. -/
def Dev.shortClose (s : Dev) (g flags : Nat) : Dev :=
  let h := s.hg g
  let idx := (h.shortIdx + 1) % 2 ^ 32
  let recs := (s.aggChans g h.short).map fun c => (c, ((lookup h.short c).getD {}).close c idx h.shortMt h.shortMiss flags)
  let s1 := s.hgUpd g fun k => { k with short := [], shortSlots := 0, shortMiss := 0, shortIdx := idx, shortMt := 0 }
  let s2 := { s1.aggCover recs 0xE8000 0xEC000 with harm := { s1.harm with shortRec := recs.foldl (fun l (e : Nat × AggRec) => assign l e.1 e.2) s1.harm.shortRec } }
  (s2.set (Fld.HARM_GRP_SHORT_IDX g) idx).raise Pg.HARM 1

/-- The short interval in progress closes early. -/
def Dev.shortCut (s : Dev) (g flags : Nat) : Dev :=
  if s.on Fld.HARM_CTRL_AGG && decide (0 < (s.hg g).shortSlots) then s.shortClose g flags else s

/-- The slot of the day of the 10-minute interval that holds a second (R226). -/
def tenSlot (secs : Nat) : Nat := secs / 600 % 144

/-- That of the interval that the tick at a second ends. -/
def tickSlot (secs : Nat) : Nat := tenSlot (secs + 143 * 600)

/-- The 10-minute interval closes (R224–R226), the next one opening with `next`. -/
def Dev.tenClose (s : Dev) (g flags next slot : Nat) : Dev :=
  if s.on Fld.HARM_CTRL_AGG then
    let h := s.hg g
    let n := (h.tenIdx + 1) % 2 ^ 24
    let idx := n * 256 + slot
    let recs := (s.aggChans g h.ten).map fun c => (c, ((lookup h.ten c).getD {}).close c idx h.tenMt h.tenMiss (h.tenFlags ||| flags))
    let s1 := s.hgUpd g fun k => { k with ten := [], tenMiss := 0, tenIdx := n, tenFlags := next, tenMt := 0 }
    let s2 := { s1.aggCover recs 0xEA000 0xEF000 with harm := { s1.harm with tenRec := recs.foldl (fun l (e : Nat × AggRec) => assign l e.1 e.2) s1.harm.tenRec } }
    (s2.set (Fld.HARM_GRP_TENMIN_IDX g) idx).raise Pg.HARM 2
  else s

/-- The interval that a tick ended closes, where one still waits. -/
def Dev.tenFlush (s : Dev) (g : Nat) : Dev :=
  match (s.hg g).tenDue with
  | some d => (s.hgUpd g fun k => { k with tenDue := none }).tenClose g 0 0 d.2
  | none => s

/-- A window is in progress or still being written. -/
def Dev.harmPending (s : Dev) (g : Nat) : Bool := !(s.hg g).chans.isEmpty || (s.hg g).done.isSome

/-- The 10-minute tick (R224): the interval holds the windows whose last boundary of record falls before it, so it waits for a window in progress. -/
def Dev.tenDueNow (s : Dev) (g : Nat) : Dev :=
  let t := s.tenFlush g
  if t.on Fld.HARM_CTRL_AGG && t.harmPending g then t.hgUpd g fun k => { k with tenDue := some (t.mt, tickSlot t.secs) } else t.tenClose g 0 0 (tickSlot t.secs)

/-- MT of a window's last boundary of record. -/
def WinRec.endMt (w : WinRec) : Nat := w.mt + w.len * 768 / 65536

/-- A produced window enters the intervals (R224), the 10-minute one that its last boundary of record lies in; 15 slots close the short one. -/
def Dev.aggAdd (s : Dev) (g : Nat) (ws : List (Nat × WinRec)) : Dev :=
  if s.on Fld.HARM_CTRL_AGG then
    let mt := match ws.head? with | some e => e.2.mt | none => 0
    let after : Bool := match (s.hg g).tenDue, ws.head? with | some d, some e => decide (d.1 ≤ e.2.endMt) | _, _ => false
    let s0 : Dev := if after then s.tenFlush g else s
    let add := fun (l : List (Nat × AggSum)) => ws.foldl (fun a e => assign a e.1 (((lookup a e.1).getD {}).add e.2)) l
    let s1 : Dev := s0.hgUpd g fun (h : HarmGrp) => { h with short := add h.short, ten := add h.ten, shortSlots := h.shortSlots + 1, shortMt := if h.short.isEmpty then mt else h.shortMt, tenMt := if h.ten.isEmpty then mt else h.tenMt }
    if 15 ≤ (s1.hg g).shortSlots then s1.shortClose g 0 else s1
  else s

/-- A missed slot (R218, R224): counted in DISC, event `ev`; it may be the short interval's last, which closes with `flags`. An interval that waited for this window closes. -/
def Dev.harmMissed (s : Dev) (g : Nat) (inj live : Bool) (ev flags : Nat) : Dev :=
  let s1 : Dev := ((s.bump (Fld.HARM_GRP_STAT_DISC g)).harmMiss g).raiseInj Pg.HARM ev inj live
  let s2 := if 15 ≤ (s1.hg g).shortSlots then s1.shortClose g flags else s1
  if (s2.hg g).done.isNone then s2.tenFlush g else s2

/-- The window in progress is discarded (R218): by a record of the cycle `cyc`, which later cycles do not share, or whole; nothing where none is accumulated. -/
def Dev.harmDrop (s : Dev) (g : Nat) (cyc : Option Nat) (flags : Nat) : Dev :=
  let h := s.hg g
  let later := match cyc with
    | some k => (h.chans.map fun e => (e.1, e.2.filter fun (x : HCyc) => newer 32 x.cyc k)).filter fun e => !e.2.isEmpty
    | none => []
  let before := match cyc, h.window with | some k, some w => newer 32 w.1 k | _, _ => false
  if before then s
  else
    let s1 := s.hgUpd g fun k => { k with chans := later, window := match cyc with | some c => if later.isEmpty then none else some ((c + 1) % 2 ^ 32, s.harmChans g) | none => none }
    (if h.chans.isEmpty then s1 else s1.harmMissed g false true 3 flags).harmShow g

/-- A complete window that is not yet written is discarded with the ones in progress. -/
def Dev.harmLose (s : Dev) (g flags : Nat) : Dev :=
  let s1 := if (s.hg g).done.isSome then (s.hgUpd g fun h => { h with done := none }).harmMissed g false true 3 flags else s
  s1.harmDrop g none flags

/-- The flags a record adds to its window (R218, R223). -/
def Rec.hflags (r : Rec) (lane : Bool) : Nat :=
  (r.subst || r.resync).toNat * 2 ^ 31 + r.inj.toNat * 2 ^ 29 + r.clp.toNat * 2 ^ 28 + (r.coast || r.free || r.relock).toNat * 2 ^ 27 +
    (if lane then r.noload.toNat * 2 ^ 25 + r.unverified.toNat * 2 ^ 24 else 0)

/-- A whole cycle that a window can hold. -/
def Rec.whole (r : Rec) : Bool := !r.gun && !r.pfPartial && !r.pf && !r.fixed

/-- A window's cycles of one channel: those numbered from its first on (R217). -/
def windowCycles (nc first : Nat) (l : List HCyc) : List HCyc := l.filter fun k => decide ((k.cyc + 2 ^ 32 - first) % 2 ^ 32 < nc)

/-- Channels that a window still waits for: those it covers whose Pacer runs and whose heat is enabled. A lane disabled meanwhile goes on with words marked UNS. -/
def Dev.windowChans (s : Dev) (g : Nat) (cover : List Nat) : List Nat :=
  cover.filter fun c => decide (192 ≤ c) || ((s.grpHeats g).contains (chBlk c) && s.hart (4 + chBlk c))

/-- The window's last cycle has committed (R220): it goes to the Pacers' FFT assists, dropping a window not yet written; or an injection discards it (R228). The next window follows without gap and covers the channels enabled now. -/
def Dev.harmClose (s : Dev) (g first : Nat) (cover : List Nat) : Dev :=
  let nc := s.harmNc g
  let chans := (s.hg g).chans
  let next := (first + nc) % 2 ^ 32
  let win := cover.map fun c => (c, windowCycles nc first ((lookup chans c).getD []))
  let rest := (chans.map fun e => (e.1, e.2.filter fun k => !newer 32 next k.cyc)).filter fun e => !e.2.isEmpty
  let s1 := s.hgUpd g fun h => { h with chans := rest, window := some (next, s.harmChans g) }
  if s1.injArmed Pg.HARM g then ((s1.injUse Pg.HARM).harmMissed g true (s1.injLive Pg.HARM) 3 0).harmShow g
  else
    let s2 := if (s1.hg g).done.isSome then s1.harmMissed g false true 5 0 else s1
    (s2.hgUpd g fun h => { h with done := some win }).harmShow g

/-- A committed record of a channel enters the window in progress (R217, R218), its words as the Pacer uses them (R178). -/
def Dev.harmGather (s : Dev) (g c : Nat) (r : Rec) (b : ChanBlock) : Dev :=
  if !s.harmOn g then s.harmDrop g none 0
  else if !r.whole then s.harmDrop g (some r.cyc) 0
  else if (s.harmChans g).contains c || (match (s.hg g).window with | some w => w.2.contains c | none => false) then
    let w := (s.hg g).window.getD (r.cyc, s.harmChans g)
    if newer 32 w.1 r.cyc then s
    else
      let words := b.words.map fun x => (if b.inv then -wData x else wData x, wUns x)
      let k : HCyc := { cyc := r.cyc, mt := r.mt, span := r.span, hflags := r.hflags (decide (c < 192)) ||| (if words.any (·.2) then 2 ^ 30 else 0), words := words }
      let s1 := s.hgUpd g fun h => { h with chans := assign h.chans c (((lookup h.chans c).getD []) ++ [k]), window := some w }
      let need := s1.windowChans g w.2
      if need.all fun x => decide (s1.harmNc g ≤ (windowCycles (s1.harmNc g) w.1 ((lookup (s1.hg g).chans x).getD [])).length) then s1.harmClose g w.1 need else s1.harmShow g
  else s

/-! ### Spectra (R219) -/

/-- One bin of a channel's words, scaled by 2^30 (R180's tables): real and imaginary part. -/
def dftBin (m k : Nat) (x : List Int) : Int × Int :=
  ((List.range m).foldl (fun a i => a + nth x i 0 * cosTab (k * i % m) m) 0, (List.range m).foldl (fun a i => a - nth x i 0 * sinTab (k * i % m) m) 0)

/-- Bins 0 to 63 K + H. -/
def dftAll (nc : Nat) (x : List Int) : List (Int × Int) := (List.range (63 * nc + nc / 2 + 1)).map fun k => dftBin (256 * nc) k x

/-- |X|² of a bin. -/
def bin2 (sp : List (Int × Int)) (k : Nat) : Nat := let b := nth sp k (0, 0); (b.1 * b.1 + b.2 * b.2).toNat

/-- The amplitude of a sum of |X|², RMS in primary units, rounded to nearest (R180, R219); `sum` counts |X|² doubled as C² does for k ≥ 1. -/
def ampOf (sum m scale : Nat) : Nat := satN 0xFFFFFFFF (roundDiv (isqrt (4 * sum * (scale * 1000) ^ 2)) (m * 2 ^ 54))

/-- C[k]² M² 2^60, doubled: C[0] is |X|/M, the others √2 |X|/M. -/
def cSq (sp : List (Int × Int)) (k : Nat) : Nat := if k = 0 then bin2 sp 0 else 2 * bin2 sp k

/-- Harmonic subgroups SG. -/
def subgroup (nc : Nat) (sp : List (Int × Int)) (scale h : Nat) : Nat :=
  ampOf (if h = 0 then cSq sp 0 else cSq sp (h * nc - 1) + cSq sp (h * nc) + cSq sp (h * nc + 1)) (256 * nc) scale

/-- Harmonic groups G: the edge bins at half weight (sums doubled, so the scale is √2 larger). -/
def group (nc : Nat) (sp : List (Int × Int)) (scale h : Nat) : Nat :=
  if h = 0 then ampOf (cSq sp 0) (256 * nc) scale
  else
    let e := h * nc
    let inner := ((List.range (nc - 1)).map fun i => cSq sp (e + i + 1 - nc / 2)).sum
    satN 0xFFFFFFFF (roundDiv (isqrt (2 * (cSq sp (e - nc / 2) + 2 * inner + cSq sp (e + nc / 2)) * (scale * 1000) ^ 2)) (256 * nc * 2 ^ 54))

/-- THD over harmonics 2 to n, in 10^-6. -/
def thdOf (sg : List Nat) (n : Nat) : Nat :=
  let f := nth sg 1 0
  if f = 0 then 0 else satN 0xFFFFFFFF (roundDiv (isqrt (10 ^ 12 * ((List.range (n - 1)).map fun i => nth sg (i + 2) 0 * nth sg (i + 2) 0).sum)) f)

/-- HP[h] in mW before its field saturates: lane spectrum, partner spectrum, their scales. -/
def harmPower (nc : Nat) (il ul : List (Int × Int)) (mapk uscale h : Nat) : Int :=
  let re := fun k => (nth ul k (0, 0)).1 * (nth il k (0, 0)).1 + (nth ul k (0, 0)).2 * (nth il k (0, 0)).2
  let num := if h = 0 then (nth ul 0 (0, 0)).1 * (nth il 0 (0, 0)).1 else 2 * (re (h * nc - 1) + re (h * nc) + re (h * nc + 1))
  roundDivI (num * mapk * uscale) (1000 * 2 ^ 106 * (256 * nc) ^ 2)

/-- The record of one channel's window (R222). -/
def winRec (nc win mapk uscale : Nat) (cycs : List HCyc) (ul xref : Option (List (Int × Int))) : WinRec :=
  let xs := (cycs.flatMap (·.words)).map fun w => if w.2 then 0 else w.1
  let valid := (cycs.flatMap (·.words)).filter (!·.2)
  let sp := dftAll nc xs
  let sg := (List.range 64).map (subgroup nc sp mapk)
  let flags := cycs.foldl (fun a k => a ||| k.hflags) 0
  let hp := match ul with
    | some u => (List.range 64).map (harmPower nc sp u mapk uscale)
    | none => List.replicate 64 0
  let ang := match xref with
    | some x => (List.range 64).map fun h =>
        if h = 0 ∨ nth sg h 0 * 10000 < nth sg 1 0 then 0
        else signedOf (unsignedOf (freeDiv siteArg (arg64 (nth sp (h * nc) (0, 0)).1 (nth sp (h * nc) (0, 0)).2 - h * arg64 (nth x nc (0, 0)).1 (nth x nc (0, 0)).2) (2 ^ 48)) 16) 16
    | none => List.replicate 64 0
  let head : HCyc := cycs.headD ⟨0, 0, 0, 0, []⟩
  let sii := valid.foldl (fun a w => a + w.1 * w.1) 0
  { win := win, hflags := flags ||| (if nth sg 1 0 = 0 then 2 ^ 26 else 0), mt := head.mt, cycle := head.cyc, len := (cycs.map (·.span)).sum, rms := rmsScaled (rmsCode false sii 0 valid.length) mapk, thd50 := thdOf sg 50, thd63 := thdOf sg 63, phSum := ((List.range 62).map fun i => nth hp (i + 2) 0).foldl (· + ·) 0, p1 := nth hp 1 0, g := (List.range 64).map (group nc sp mapk), sg := sg, ang := ang, hp := hp.map (clampI (-2147483648) 2147483647) }

/-- Every channel's record of a complete window. -/
def Dev.winRecs (s : Dev) (g : Nat) (win : List (Nat × List HCyc)) : List (Nat × WinRec) :=
  let nc := s.harmNc g
  let spec := fun (c : Nat) => (lookup win c).map fun cy => dftAll nc ((cy.flatMap (·.words)).map fun w => if w.2 then 0 else w.1)
  let xref := spec (192 + 4 * g)
  let n := ((s.hg g).win + 1) % 2 ^ 32
  win.map fun e =>
    let sc := s.scaleOf e.1
    let pair := sc.pair
    (e.1, winRec nc n sc.iscale (match pair with | some u => s.get (Fld.REC_ISCALE_MAPK (chRec u)) | none => 0) e.2 (match pair with | some u => spec u | none => none) xref)

/-- HARMONIC_WINDOW_WRITE: every Pacer of the group has written; the records are visible (R220). -/
def Dev.harmWrite (s : Dev) (g : Nat) : Dev :=
  match (s.hg g).done with
  | none => s
  | some win =>
    let recs := s.winRecs g win
    let b := 1 - s.get (Fld.HARM_GRP_STAT_BUF g)
    let put := fun (l : List (Nat × WinRec)) => recs.foldl (fun a e => assign a e.1 e.2) l
    let s1 := s.hgUpd g fun h => { h with done := none, win := (h.win + 1) % 2 ^ 32 }
    let s2 := { s1.coverAll (recs.map fun e => 0x80000 + 0x34000 * b + 1024 * e.1) 1024 with harm := if b = 0 then { s1.harm with buf0 := put s1.harm.buf0 } else { s1.harm with buf1 := put s1.harm.buf1 } }
    let s3 := ((s2.set (Fld.HARM_GRP_STAT_BUF g) b).set (Fld.HARM_GRP_WIN_WIN g) (s2.hg g).win).raise Pg.HARM 0
    let lim := s.get Fld.HARM_THD_LIM_LIM
    let s4 := if 0 < lim ∧ (recs.any fun e => decide (192 ≤ e.1) && decide (lim * 100 < e.2.thd50)) then s3.raise Pg.HARM 4 else s3
    s4.aggAdd g recs

def execHarmonicWindowWrite (g : Nat) (s : State) : Out := mainAct s fun d => if g < 4 then d.harmWrite g else d

/-- AGG_TENMIN_CLOSE: the 10-minute tick (R224). -/
def Dev.tenTick (s : Dev) : Dev := forN 4 s fun t g => (t.shortCut g 0x00400000).tenDueNow g

def execAggTenminClose (s : State) : Out := mainAct s Dev.tenTick

/-- A clock set by 1 s or more (R225): the interval that closes keeps the slot of the time it covers, the old one (R226). -/
def Dev.aggClock (s : Dev) (oldSecs : Nat) : Dev := forN 4 s fun t g => ((t.shortCut g 0x00200000).tenFlush g).tenClose g 0x00200000 0x00200000 (tenSlot oldSecs)

/-- A power-fail warning (R218, R225). -/
def Dev.harmWarn (s : Dev) : Dev :=
  forN 4 s fun t g => ((t.harmLose g 0x00C00000).shortCut g 0x00C00000).hgUpd g fun h => { h with tenFlags := h.tenFlags ||| 0x00800000 }

/-- A write of HARM.CTRL: GEN bits that clear discard and close (R218, R225). DESIGN CHOICE (log 111): intervals in progress keep their sums while AGG is 0, and go on when it is set again. -/
def Dev.harmCtrl (s : Dev) (v : Word) : Dev :=
  let old := s.get Fld.HARM_CTRL_GEN
  let s0 := forN 4 s fun t g =>
    if natBit old g && !bitAt v g then (((t.harmLose g 0x00400000).shortCut g 0x00400000).tenFlush g).tenClose g 0x00400000 0x00400000 (tenSlot t.secs) else t
  let s1 := (s0.set Fld.HARM_CTRL_GEN (bitsOf v 3 0)).setB Fld.HARM_CTRL_AGG (bitAt v 4)
  forN 4 s1 fun t g => t.harmShow g

/-- A PQE threshold register with its new word: refused whole unless R233 holds with the others in force. -/
def Dev.pqeWrite (s : Dev) (g off : Nat) (v : Word) : Dev :=
  let t := (Dev.wr s (0x4002F040 + 0x20 * g + off) v)
  let swell := t.get (Fld.PQE_VG_THR1_SWELL g)
  let sag := t.get (Fld.PQE_VG_THR1_SAG g)
  let hyst := t.get (Fld.PQE_VG_THR2_HYST g)
  let intr := t.get (Fld.PQE_VG_THR2_INTR g)
  let udin := t.get (Fld.PQE_VG_UDIN_MV g)
  if 100 ≤ intr ∧ intr + hyst < sag ∧ sag + hyst ≤ 10000 ∧ 10000 + hyst ≤ swell ∧ swell ≤ 20000 ∧ 10 ≤ hyst ∧ hyst ≤ 1000 ∧ 1000 ≤ udin ∧ udin ≤ 1000000 ∧ t.get (Fld.PQE_VG_CFG_CHMASK g) ≠ 0 then t
  else s.cfgErr Pg.PQE

/-! ### The capture store (R235–R241) -/

/-- A record's header as 64 bytes (R237). -/
def CapRec.flags (r : CapRec) : Nat :=
  2 ^ 31 + r.complete.toNat * 2 ^ 30 + r.locked.toNat * 2 ^ 29 + r.truncated.toNat * 2 ^ 28 + r.withdrawn.toNat * 2 ^ 27 + r.reconfirmed.toNat * 2 ^ 26 + r.spec.toNat * 2 ^ 25 + r.inj.toNat * 2 ^ 24 + r.pf.toNat * 2 ^ 23 + r.gun.toNat * 2 ^ 22 + r.blk % 2 ^ 13

def CapRec.header (r : CapRec) : List Byte :=
  let h := leBytes 4 r.id ++ leBytes 4 r.flags ++ leBytes 2 (r.slot * 4096 + r.code % 4096) ++ leBytes 2 r.ntrig ++ leBytes 4 r.trigSeq ++ leBytes 8 r.trigMt ++ leBytes 4 r.firstSeq ++ leBytes 4 r.nrows ++ leBytes 2 (capRowSize r.blk) ++ leBytes 2 r.blocks ++ leBytes 4 (0x82804000 + 4096 * r.block) ++ leBytes 4 r.dcrc.toNat
  h ++ leBytes 4 (crc32 h) ++ List.replicate 16 0

/-- FLAGS of a frame (R133), VALID among them. -/
def Frame.flags (f : Frame) : Nat := 2 ^ 31 + f.gun.toNat + f.pfw.toNat * 2 + f.holdup.toNat * 4 + (f.iso != 0).toNat * 8

/-- A row: SEQ, FLAGS and the selected blocks (R236). -/
def Frame.row (f : Frame) (blk : Nat) : List Byte :=
  leBytes 4 f.seq ++ leBytes 4 f.flags ++
    (List.range 13).flatMap fun b =>
      if natBit blk b then
        if b < 12 then ((f.lanes.drop (16 * b)).take 16).flatMap fun w => leBytes 4 w.toNat else f.us.flatMap fun w => leBytes 4 w.toNat
      else []

/-- Write bytes into the store from an address on. -/
def storePut (m : List Host.Cell) (a : Nat) (l : List Byte) : List Host.Cell := (l.zipIdx).foldl (fun m e => Store.write (fun _ => (0 : Byte)) m (a + e.2) e.1) m

/-- Rows of a record are copied (R239): every frame released since the last one copied, up to the last; a frame gone from the ring is the end (R134). NROWS shows whole 1024s (R237). -/
def Dev.capCopy (s : Dev) (slot : Nat) (r : CapRec) : Dev :=
  let next := (r.firstSeq + r.copied) % 2 ^ 32
  let n := min (r.rows - r.copied) (serialDiff 32 s.newestSeq next + 1).toNat
  let got := (((List.range n).map fun i => s.frame (next + i)).takeWhile (·.isSome)).filterMap id
  let c := r.copied + got.length
  let q : CapRec := { r with copied := c, nrows := c / 1024 * 1024, lost := decide (got.length < n), pf := r.pf || got.any (fun f => f.holdup || f.pfw), gun := r.gun || got.any (·.gun) }
  { s with cap := { s.cap with dir := setAt s.cap.dir slot (some q), data := storePut s.cap.data (0x82804040 + 4096 * r.block + r.copied * capRowSize r.blk) (got.flatMap fun f => f.row r.blk) } }

/-- Every capture in progress copies what it can; all wait while a replay reads the ring (R171, R239). -/
def Dev.capAdvance (s : Dev) : Dev :=
  if s.meter.pacers.any fun p => p.replay.isSome then s
  else (List.range 256).foldl (fun (t : Dev) k => match nth t.cap.dir k none with | some r => if r.complete || r.lost then t else t.capCopy k r | none => t) s

/-- A record ends (R239): NROWS, DCRC, marks; TRUNCATED and event 5 where a row failed; event 1. -/
def Dev.capFinish (s : Dev) (slot : Nat) (r : CapRec) : Dev :=
  let q : CapRec := { r with complete := true, truncated := r.lost, nrows := r.copied, dcrc := s.cap.rowsCrc r r.copied }
  let s1 := ({ s with cap := { s.cap with dir := setAt s.cap.dir slot (some q) } }).capStat
  let s2 := if r.lost then s1.raise Pg.CAP 5 else s1
  s2.raise Pg.CAP 1

/-- A record can end: its last row is copied, or a row is lost. -/
def CapRec.due (r : CapRec) : Bool := !r.complete && (r.lost || r.copied == r.rows)

/-- CAPTURE_COMPLETE: every capture whose last row is released ends. -/
def Dev.capComplete (s : Dev) : Dev :=
  (List.range 256).foldl (fun (t : Dev) k => match nth t.cap.dir k none with | some r => if r.due then t.capFinish k r else t | none => t) s.capAdvance

def execCaptureComplete (s : State) : Out := mainAct s Dev.capComplete

/-- CAPTURE_CLEAR: CAP.CTRL written. -/
def Dev.capCtrl (s : Dev) (v : Word) : Dev :=
  if bitAt v 1 && decide (0 < s.cap.active) then s.cfgErr Pg.CAP
  else
    let s1 := s.setB Fld.CAP_CTRL_EN (bitAt v 0)
    if bitAt v 1 then (s1.capEvict fun r => !r.locked).capStat else s1

def execCaptureClear (m : Nat) (v : Word) (s : State) : Out := wrAct m Reg.CAP_CTRL v s fun d => d.capCtrl v

/-- Change the record of a slot. -/
def Dev.capRec (s : Dev) (slot : Nat) (f : CapRec → CapRec) : Dev :=
  ({ s with cap := { s.cap with dir := updAt s.cap.dir slot fun (o : Option CapRec) => o.map f } }).capStat

/-- LOCK of R240: an empty slot gives CFGERR. -/
def Dev.capLock (s : Dev) (slot : Nat) : Dev :=
  match nth s.cap.dir slot none with
  | some _ => s.capRec slot fun r => { r with locked := true }
  | none => s.cfgErr Pg.CAP

/-- UNLOCK of R240; an empty slot has nothing to unlock. -/
def Dev.capUnlock (s : Dev) (slot : Nat) : Dev := s.capRec slot fun r => { r with locked := false }

/-- DELETE of R240: an unlocked, complete record is evicted; otherwise CFGERR. -/
def Dev.capDelete (s : Dev) (slot : Nat) : Dev :=
  match nth s.cap.dir slot none with
  | some r => if r.complete && !r.locked then (s.capEvict fun q => q.id == r.id && q.block == r.block).capStat else s.cfgErr Pg.CAP
  | none => s.cfgErr Pg.CAP

/-- A write of RECCTL: its operations in the order LOCK, UNLOCK, DELETE. -/
def Dev.recctl (s : Dev) (v : Word) : Dev :=
  s.keyed Pg.CAP 0x3A v fun t =>
    let k := bitsOf v 15 8
    let t0 := t.set Fld.CAP_RECCTL_SLOT k
    let t1 := if bitAt v 0 then t0.capLock k else t0
    let t2 := if bitAt v 1 then t1.capUnlock k else t1
    if bitAt v 2 then t2.capDelete k else t2

def execCaptureRecordLock (m : Nat) (v : Word) (s : State) : Out := wrAct m Reg.CAP_RECCTL v s fun d => d.recctl v
def execCaptureRecordUnlock (m : Nat) (v : Word) (s : State) : Out := wrAct m Reg.CAP_RECCTL v s fun d => d.recctl v
def execCaptureRecordDelete (m : Nat) (v : Word) (s : State) : Out := wrAct m Reg.CAP_RECCTL v s fun d => d.recctl v

/-- A TRIG register with its new word (R240). -/
def Dev.trigWrite (s : Dev) (k : Nat) (len : Bool) (v : Word) : Dev :=
  let t := if len then s.wr (Reg.CAP_TRIG_LEN k) v else s.wr (Reg.CAP_TRIG_EV k) v
  let code := t.get (Fld.CAP_TRIG_EV_CODE k)
  let blk := t.get (Fld.CAP_TRIG_EV_BLK k)
  let pre := t.get (Fld.CAP_TRIG_LEN_PRE k)
  let post := t.get (Fld.CAP_TRIG_LEN_POST k)
  if decide (1000 < pre) || post == 0 || decide (2000 < post) then s.cfgErr Pg.CAP
  else if t.on (Fld.CAP_TRIG_EV_EN k) && (!codeDefined code || code / 64 == Pg.CAP || blk == 0 || decide (4092 < capBlocks (32 * (pre + post)) blk)) then s.cfgErr Pg.CAP
  else t

/-- Injection detectors 0–15: slot DET fires as if its event had occurred (R239), COUNT times. -/
def Dev.capInject (s : Dev) : Dev :=
  let det := s.get (Hdr.INJ_DET Pg.CAP)
  if s.on (Hdr.INJ_ARM Pg.CAP) && decide (det < 16) then
    forN (s.get (Hdr.INJ_COUNT Pg.CAP)) s fun t _ =>
      let u := t.injUse Pg.CAP
      if u.on (Fld.CAP_TRIG_EV_EN det) && u.on Fld.CAP_CTRL_EN && u.power.st != .shutdownTest then u.capTrigger { code := u.get (Fld.CAP_TRIG_EV_CODE det), inj := true, seq := u.newestSeq } det else u
  else s

end Sys2Proof.Machine
end

