-- ==== Sys2Proof/Machine/Crypto.lean ====
section
/-! DEFINITION. The published algorithms the spec names for keys, tokens, images and frames: SHA-256 and HMAC-SHA-256 (FIPS 180-4, 198-1), AES-256-GCM (FIPS 197, SP 800-38D) and ECDSA P-256 verification (FIPS 186-4). The spec names the standards and does not restate them; the text here follows the standards (PRESUMED, assumption log 13). -/

namespace Sys2Proof.Machine

/-! ### SHA-256 -/

/-- The 64 round constants, 32 bits each, the first lowest. -/
def shaK : Nat := 0xc67178f2bef9a3f7a4506ceb90befffa8cc7020884c8781478a5636f748f82ee682e6ff35b9cca4f4ed8aa4a391c0cb334b0bcb52748774c1e376c0819a4c116106aa070f40e3585d6990624d192e819c76c51a3c24b8b70a81a664ba2bfe8a192722c8581c2c92e766a0abb650a735453380d134d2c6dfc2e1b213827b70a851429296706ca6351d5a79147c6e00bf3bf597fc7b00327c8a831c66d983e515276f988da5cb0a9dc4a7484aa2de92c6f240ca1cc0fc19dc6efbe4786e49b69c1c19bf1749bdc06a780deb1fe72be5d74550c7dc3243185be12835b01d807aa98ab1c5ed5923f82a459f111f13956c25be9b5dba5b5c0fbcf71374491428a2f98

def shaH0 : List Nat := [0x6a09e667, 0xbb67ae85, 0x3c6ef372, 0xa54ff53a, 0x510e527f, 0x9b05688c, 0x1f83d9ab, 0x5be0cd19]

def rotr32 (n x : Nat) : Nat := (x / 2 ^ n) ||| (x * 2 ^ (32 - n) % 2 ^ 32)

/-- The message schedule: words newest first, grown to 64. -/
def shaSchedule : Nat → List Nat → List Nat
  | 0, w => w
  | k + 1, w =>
    let a := w.getD 14 0
    let b := w.getD 1 0
    let s0 := rotr32 7 a ^^^ rotr32 18 a ^^^ (a / 8)
    let s1 := rotr32 17 b ^^^ rotr32 19 b ^^^ (b / 1024)
    shaSchedule k ((w.getD 15 0 + s0 + w.getD 6 0 + s1) % 2 ^ 32 :: w)

/-- One round on the eight working words. -/
def shaRound (st : List Nat) (kw : Nat) : List Nat :=
  match st with
  | [a, b, c, d, e, f, g, h] =>
    let s1 := rotr32 6 e ^^^ rotr32 11 e ^^^ rotr32 25 e
    let ch := (e &&& f) ^^^ ((2 ^ 32 - 1 - e) &&& g)
    let t1 := h + s1 + ch + kw
    let s0 := rotr32 2 a ^^^ rotr32 13 a ^^^ rotr32 22 a
    let mj := (a &&& b) ^^^ (a &&& c) ^^^ (b &&& c)
    [(t1 + s0 + mj) % 2 ^ 32, a, b, c, (d + t1) % 2 ^ 32, e, f, g]
  | l => l

/-- The chaining value after one 64-byte block. -/
def shaBlock (h : List Nat) (blk : List Byte) : List Nat :=
  let w0 := (List.range 16).map fun i => ofBe (slice blk (4 * i) 4)
  let w := (shaSchedule 48 w0.reverse).reverse
  let st := (List.range 64).foldl (fun st i => shaRound st (shaK / 2 ^ (32 * i) % 2 ^ 32 + w.getD i 0)) h
  List.zipWith (fun x y => (x + y) % 2 ^ 32) h st

def shaBlocks : Nat → List Nat → List Byte → List Nat
  | 0, h, _ => h
  | n + 1, h, l => shaBlocks n (shaBlock h (l.take 64)) (l.drop 64)

/-- SHA-256 of a byte string, 32 bytes. -/
def sha256 (m : List Byte) : List Byte :=
  let n := m.length
  let z := (119 - n % 64) % 64
  let padded := m ++ [0x80] ++ List.replicate z 0 ++ beBytes 8 (8 * n)
  (shaBlocks (padded.length / 64) shaH0 padded).flatMap (beBytes 4)

/-- HMAC-SHA-256 under a key of at most 64 bytes. -/
def hmac (key m : List Byte) : List Byte :=
  let k := key ++ List.replicate (64 - key.length) 0
  sha256 (k.map (· ^^^ 0x5c) ++ sha256 (k.map (· ^^^ 0x36) ++ m))

/-! ### AES-256 and GCM -/

/-- The S-box, entry 0 lowest. -/
def aesSbox : Nat := 0x16bb54b00f2d99416842e6bf0d89a18cdf2855cee9871e9b948ed9691198f8e19e1dc186b95735610ef6034866b53e708a8bbd4b1f74dde8c6b4a61c2e2578ba08ae7a65eaf4566ca94ed58d6d37c8e779e4959162acd3c25c2406490a3a32e0db0b5ede14b8ee4688902a22dc4f816073195d643d7ea7c41744975fec130ccdd2f3ff1021dab6bcf5389d928f40a351a89f3c507f02f94585334d43fbaaefd0cf584c4a39becb6a5bb1fc20ed00d153842fe329b3d63b52a05a6e1b1a2c830975b227ebe28012079a059618c323c7041531d871f1e5a534ccf73f362693fdb7c072a49cafa2d4adf04759fa7dc982ca76abd7fe2b670130c56f6bf27b777c63

def aesSub (b : Nat) : Nat := aesSbox / 2 ^ (8 * b) % 256

def aesXtime (b : Nat) : Nat := if b < 128 then 2 * b else (2 * b) ^^^ 0x11B

/-- The key schedule's words, newest first, as 4-byte lists. -/
def aesExpand : Nat → Nat → Nat → List (List Nat) → List (List Nat)
  | 0, _, _, w => w
  | k + 1, i, rc, w =>
    let t := w.getD 0 []
    let t1 := if i % 8 = 0 then
        (match t with
         | [a, b, c, d] => [aesSub b ^^^ rc, aesSub c, aesSub d, aesSub a]
         | l => l)
      else if i % 8 = 4 then t.map aesSub else t
    aesExpand k (i + 1) (if i % 8 = 0 then aesXtime rc else rc) (List.zipWith (· ^^^ ·) (w.getD 7 []) t1 :: w)

/-- The 60 round-key words of a 32-byte key, in order, flattened to bytes. -/
def aesKeys (key : List Byte) : List Nat :=
  let w0 := (List.range 8).map fun i => (slice key (4 * i) 4).map (·.toNat)
  ((aesExpand 52 8 1 w0.reverse).reverse).flatten

def aesShift (s : List Nat) : List Nat := (List.range 16).map fun i => s.getD ((i + 4 * (i % 4)) % 16) 0

def aesMixCol (c : List Nat) : List Nat :=
  match c with
  | [a, b, d, e] =>
    let t := a ^^^ b ^^^ d ^^^ e
    [a ^^^ t ^^^ aesXtime (a ^^^ b), b ^^^ t ^^^ aesXtime (b ^^^ d), d ^^^ t ^^^ aesXtime (d ^^^ e), e ^^^ t ^^^ aesXtime (e ^^^ a)]
  | l => l

def aesMix (s : List Nat) : List Nat := (List.range 4).flatMap fun i => aesMixCol ((s.drop (4 * i)).take 4)

/-- One block under expanded keys. -/
def aesBlock (ks : List Nat) (b : List Nat) : List Nat :=
  let key (r : Nat) : List Nat := (ks.drop (16 * r)).take 16
  let s0 := List.zipWith (· ^^^ ·) b (key 0)
  let s := (List.range 13).foldl (fun s r => List.zipWith (· ^^^ ·) (aesMix (aesShift (s.map aesSub))) (key (r + 1))) s0
  List.zipWith (· ^^^ ·) (aesShift (s.map aesSub)) (key 14)

/-- Multiplication in GCM's field, bit 0 of the standard the most significant. -/
def gcmMul : Nat → Nat → Nat → Nat → Nat
  | 0, _, _, z => z
  | k + 1, x, v, z =>
    gcmMul k (x * 2 % 2 ^ 128) (if v % 2 = 1 then (v / 2) ^^^ (0xE1 * 2 ^ 120) else v / 2) (if x / 2 ^ 127 % 2 = 1 then z ^^^ v else z)

def ghashGo (h : Nat) : Nat → Nat → List Byte → Nat
  | 0, y, _ => y
  | n + 1, y, l => ghashGo h n (gcmMul 128 (y ^^^ ofBe (slice l 0 16)) h 0) (l.drop 16)

def pad16 (l : List Byte) : List Byte := l ++ List.replicate ((16 - l.length % 16) % 16) 0

/-- The counter-mode keystream XORed onto a text, counter from 2. -/
def gcmCtr (ks : List Nat) (iv : List Byte) : Nat → Nat → List Byte → List Byte
  | 0, _, _ => []
  | n + 1, c, l =>
    let e := aesBlock ks ((iv ++ beBytes 4 c).map (·.toNat))
    List.zipWith (fun (b : Byte) (k : Nat) => b ^^^ BitVec.ofNat 8 k) (l.take 16) e ++ gcmCtr ks iv n (c + 1) (l.drop 16)

/-- Encrypt or decrypt a text (the same operation) under a 12-byte nonce. -/
def gcmCrypt (key iv text : List Byte) : List Byte := gcmCtr (aesKeys key) iv (text.length / 16 + 1) 2 text

/-- The 16-byte tag over additional data and ciphertext. -/
def gcmTag (key iv aad ct : List Byte) : List Byte :=
  let ks := aesKeys key
  let h := ofBe ((aesBlock ks (List.replicate 16 0)).map (BitVec.ofNat 8))
  let m := pad16 aad ++ pad16 ct ++ beBytes 8 (8 * aad.length) ++ beBytes 8 (8 * ct.length)
  let g := ghashGo h (m.length / 16) 0 m
  let e := aesBlock ks ((iv ++ beBytes 4 1).map (·.toNat))
  List.zipWith (fun (b : Byte) (k : Nat) => b ^^^ BitVec.ofNat 8 k) (beBytes 16 g) e

/-! ### ECDSA P-256 -/

def p256p : Nat := 0xffffffff00000001000000000000000000000000ffffffffffffffffffffffff
def p256n : Nat := 0xffffffff00000000ffffffffffffffffbce6faada7179e84f3b9cac2fc632551
def p256b : Nat := 0x5ac635d8aa3a93e7b3ebbd55769886bc651d06b0cc53b0f63bce3c3e27d2604b
def p256g : Nat × Nat :=
  (0x6b17d1f2e12c4247f8bce6e563a440f277037d812deb33a0f4a13945d898c296, 0x4fe342e2fe1a7f9b8ee7eb4a7c0f9e162bce33576b315ececbb6406837bf51f5)

/-- Euclid's steps: a and b are x and y times the number to invert, modulo m. -/
def invGo (m : Nat) : Nat → Nat → Nat → Nat → Nat → Nat
  | 0, _, _, x, _ => x
  | k + 1, a, b, x, y => if b = 0 then x else invGo m k b (a % b) y ((x + m - a / b * y % m) % m)

/-- The inverse modulo a prime of 256 bits, by Euclid's algorithm. -/
def invMod (m x : Nat) : Nat := invGo m 400 m (x % m) 0 1

/-- Point addition; none is the point at infinity. -/
def ecAdd (a b : Option (Nat × Nat)) : Option (Nat × Nat) :=
  match a, b with
  | none, q => q
  | q, none => q
  | some (x1, y1), some (x2, y2) =>
    if x1 = x2 ∧ (y1 + y2) % p256p = 0 then none
    else
      let l := if x1 = x2 then (3 * x1 * x1 + (p256p - 3)) * invMod p256p (2 * y1) % p256p
        else (y2 + p256p - y1) * invMod p256p (x2 + p256p - x1) % p256p
      let x3 := (l * l + 2 * p256p - x1 - x2) % p256p
      some (x3, (l * (x1 + p256p - x3) + p256p - y1) % p256p)

def ecMul : Nat → Nat → Option (Nat × Nat) → Option (Nat × Nat) → Option (Nat × Nat)
  | 0, _, _, r => r
  | k + 1, e, q, r => ecMul k (e / 2) (ecAdd q q) (if e % 2 = 1 then ecAdd r q else r)

/-- ECDSA P-256 verification: public key x then y, signature r then s, over a 32-byte digest. -/
def ecdsaVerify (pub sig digest : List Byte) : Bool :=
  let x := ofBe (slice pub 0 32)
  let y := ofBe (slice pub 32 32)
  let r := ofBe (slice sig 0 32)
  let s := ofBe (slice sig 32 32)
  let onCurve := decide (x < p256p) && decide (y < p256p) && (y * y % p256p == (x * x * x + (p256p - 3) * x + p256b) % p256p)
  if onCurve && decide (0 < r) && decide (r < p256n) && decide (0 < s) && decide (s < p256n) then
    let w := invMod p256n s
    let u1 := ofBe digest * w % p256n
    let u2 := r * w % p256n
    match ecAdd (ecMul 256 u1 (some p256g) none) (ecMul 256 u2 (some (x, y)) none) with
    | some (px, _) => px % p256n == r
    | none => false
  else false

/-- DEVID: bytes 0–7 of SHA-256 of the device seed (R327). -/
def Otp.devid (o : Otp) : List Byte := (sha256 o.seed).take 8

end Sys2Proof.Machine
end

