-- ==== Sys2Proof/Machine/Pods.lean ====
section
/-! DEFINITION. Transactions on the Eyelet wires (R242–R244), and what a committed record does besides billing: a bound pod's exposure, budget, expiry and life record (R247, R249, R251, R253, R254), and the current through an open disconnect position (R307). -/

namespace Sys2Proof.Machine

/-- The pod bound or pending on a lane. -/
def Dev.podAny (s : Dev) (l : Nat) : Option Pod := s.eye.pods.find? fun p => p.lane == l && !p.leaving

/-- Change the pod of a lane. -/
def Dev.podUpd (s : Dev) (l : Nat) (f : Pod → Pod) : Dev :=
  { s with eye := { s.eye with pods := s.eye.pods.map fun (p : Pod) => if p.lane == l && !p.leaving then f p else p } }

/-- Exposure counted and not yet written to the pod, kept in the billing image (R249, R277). -/
def Dev.podx (s : Dev) (l : Nat) : Nat := nth s.bill.img.podx l 0
def Dev.setPodx (s : Dev) (l v : Nat) : Dev := { s with bill := { s.bill with img := { s.bill.img with podx := setAt s.bill.img.podx l v } } }

/-- A pod's exposure, pending included (R253). -/
def Dev.exposure (s : Dev) (p : Pod) : Nat := p.life.exposure + s.podx p.lane

/-! ### Transactions on a wire (R242–R244) -/

/-- Command bytes of R243. -/
def eyeEnum : Byte := 0x1A
def eyeRelease : Byte := 0x1F
def eyeTarget : Byte := 0x2C
def eyeREAD : Byte := 0x41
def eyeWRITE : Byte := 0x42
def eyeStimOn : Byte := 0x5D
def eyeStimOff : Byte := 0x5E

/-- A command to the pod that TARGET names, whose ID goes most significant byte first. -/
def eyeTo (id : Nat) (code : Byte) (rest : List Byte) : List Byte := eyeTarget :: beBytes 8 id ++ code :: rest

/-- A READ: address, and length, where 256 is sent as 0. -/
def eyeReadTx (id addr len : Nat) : List Byte := eyeTo id eyeREAD (leBytes 2 addr ++ leBytes 1 len)

/-- What a READ returns: the data and its CRC-16 over address, length and data, high byte first (R244). -/
def eyeReply (addr : Nat) (data : List Byte) : List Byte := data ++ beBytes 2 (crc16 (leBytes 2 addr ++ leBytes 1 data.length ++ data))

/-- A WRITE, whose CRC-16 also covers the command code. -/
def eyeWriteTx (id addr : Nat) (data : List Byte) : List Byte :=
  let body := leBytes 2 addr ++ leBytes 1 data.length ++ data
  eyeTo id eyeWRITE (body ++ beBytes 2 (crc16 (eyeWRITE :: body)))

/-- A pod accepts a WRITE there: not below 0x400, not across 0x800. -/
def podTakes (addr len : Nat) : Bool := decide (0x400 ≤ addr) && decide (addr + len ≤ 0x800)

/-- A transaction is made on a wire. -/
def Dev.eyeSend (s : Dev) (wire : Nat) (sent back : List Byte) : Dev := { s with eye := { s.eye with txs := s.eye.txs ++ [⟨wire, sent, back⟩] } }

/-- The wires may be driven: not in HOLDUP or SHUTDOWN TEST (R249, R256). -/
def Dev.eyeMay (s : Dev) : Bool := s.power.st != .holdup && s.power.st != .shutdownTest

/-- One READ attempt on a wire fails: really, or by injection, which is used up (R258). -/
def Dev.eyeTry (s : Dev) (wire : Nat) (bad : Bool) : Dev × Bool × Bool :=
  if s.injArmed Pg.EYE wire then (s.injUse Pg.EYE, true, true) else (s, bad, false)

/-- One READ, with one retry (R244): the state after it and whether the data is used. With LIVE = 0 an injected failure is simulated and the data is used. -/
def Dev.eyeRead1 (s : Dev) (wire id : Nat) (r : Nat × List Byte) (fault : Nat) : Dev × Bool :=
  let live := s.injLive Pg.EYE
  let one := fun (t : Dev) (ok : Bool) => t.eyeSend wire (eyeReadTx id r.1 r.2.length) (if ok then eyeReply r.1 r.2 else [])
  let a := s.eyeTry wire (fault != 0)
  if !a.2.1 then (one a.1 true, true)
  else
    let b := (one a.1 false).eyeTry wire (fault == 2)
    let inj := a.2.2 || b.2.2
    let c := one b.1 (!b.2.1)
    if b.2.1 then ((c.bump (Fld.EYE_H_CRC_LASTING wire)).raiseInj Pg.EYE 8 inj live, inj && !live && fault != 2)
    else ((c.bump (Fld.EYE_H_CRC_TRANS wire)).raiseInj Pg.EYE 7 inj live, true)

/-- A pod is read at addresses, up to the first READ that fails lasting. -/
def Dev.eyeRead (wire id : Nat) : List (Nat × List Byte) → List Nat → Dev → Dev × Bool
  | [], _, s => (s, true)
  | r :: rs, f, s =>
    let a := s.eyeRead1 wire id r (f.headD 0)
    if a.2 then Dev.eyeRead wire id rs f.tail a.1 else (a.1, false)

/-- A pod is written at addresses, with one retry of a refused WRITE in the same way (R243, R244): the state after it and whether the pod has taken it. -/
def Dev.eyeWrite (s : Dev) (wire id : Nat) (ws : List (Nat × List Byte)) (fault : Nat) : Dev × Bool :=
  let takes := ws.all fun w => podTakes w.1 w.2.length
  let one := fun (t : Dev) (w : Nat × List Byte) (ok : Bool) => t.eyeSend wire (eyeWriteTx id w.1 w.2) [if ok then 0x96 else 0x69]
  let last := fun (t : Dev) (ok : Bool) => match ws.getLast? with | some w => one t w ok | none => t
  let s1 := ws.dropLast.foldl (fun (t : Dev) w => one t w true) s
  if fault = 0 ∧ takes then (last s1 true, true)
  else
    let s2 := last s1 false
    if fault = 1 ∧ takes then (((last s2 true).bump (Fld.EYE_H_CRC_TRANS wire)).raise Pg.EYE 7, true)
    else (((last s2 false).bump (Fld.EYE_H_CRC_LASTING wire)).raise Pg.EYE 8, false)

/-! ### Life records (R247, R249, R251, R254) -/

/-- A life record as 64 bytes. -/
def PodLife.bytes (k : PodLife) : List Byte :=
  let b := leBytes 4 k.seq ++ leBytes 4 k.installs ++ leBytes 8 k.exposure ++ leBytes 8 k.lastDev ++ leBytes 1 k.lastLane ++ List.replicate 37 0
  b ++ leBytes 2 (crc16 b)

/-- The chip writes a pod's life record to the slot that does not hold the one in force: the exposure counted goes in, SEQ one higher (R249). Where the wires are released or the pod refuses, the pod keeps its record and the chip its newer values; and so where the record in force is not known. `wire` is where the pod hangs. -/
def Dev.lifeWriteAt (s : Dev) (wire l fault : Nat) : Dev :=
  match s.podAny l with
  | none => s
  | some p =>
    if p.unread || !s.eyeMay && !(s.power.st == .shutdownTest && s.power.shutStage == 1) then s
    else
      let life : PodLife := { p.life with seq := (p.life.seq + 1) % 2 ^ 32, exposure := p.life.exposure + s.podx l }
      let a := 0x400 + 0x40 * (1 - p.slot)
      let r := s.eyeWrite wire p.id [(a, life.bytes.take 32), (a + 32, life.bytes.drop 32)] fault
      if r.2 then (r.1.podUpd l fun q => { q with life := life, slot := 1 - q.slot }).setPodx l 0 else r.1

/-- The life record of the pod on a lane, on its heat's wire. -/
def Dev.lifeWrite (s : Dev) (l fault : Nat) : Dev := s.lifeWriteAt (l / 16) l fault

/-- A life record is written where no command carries the pod's answer: a free value (log 16). -/
def Dev.lifeWriteNow (s : Dev) (l : Nat) : Dev := s.tick.lifeWrite l (Config.podAnswer s.free % 3)

/-- A binding takes effect (R251): in a new place INSTALLS counts, and the life record is written. -/
def Dev.podEnter (s : Dev) (l : Nat) : Dev :=
  match s.podAny l with
  | none => s
  | some p =>
    let me := ofLe s.otp.devid
    if p.unread = true ∨ (p.life.lastDev = me ∧ p.life.lastLane = l) then s
    else (s.podUpd l fun q => { q with life := { q.life with installs := (q.life.installs + 1) % 2 ^ 32, lastDev := me, lastLane := l } }).lifeWriteNow l

/-- A lane becomes UNVERIFIED at its next boundary of record, for expiry (event 5) or budget (event 6), each raised once for a pod (R254). -/
def Dev.unverify (s : Dev) (l no : Nat) : Dev :=
  match s.podAny l with
  | none => s
  | some p =>
    if p.causes.contains no then s
    else
      let s1 := s.podUpd l fun q => { q with causes := q.causes ++ [no] }
      { s1 with eye := { s1.eye with unverDue := if s1.eye.unverDue.contains l || s1.on (Fld.REC_STATUS_UNVERIFIED (chRec l)) then s1.eye.unverDue else s1.eye.unverDue ++ [l] } }.raiseItem Pg.EYE no l

/-- The budget of a pod is spent (R254). -/
def Dev.overBudget (s : Dev) (p : Pod) : Bool := p.budget != 0 && decide (p.budget ≤ s.exposure p)

/-- A record's overload exposure in 10^-3 A²·s (R253), RMS in µA over a span in 2^-16 frames. -/
def overload (irated : Nat) (r : Rec) : Nat :=
  roundDiv ((r.rms * r.rms - (irated * 1000) * (irated * 1000)) * r.span) (1000000000 * 65536 * 32000)

/-- A committed record of a lane counts towards its pod's exposure; a spent budget writes the life record (R253, R254). -/
def Dev.podCount (s : Dev) (l : Nat) (r : Rec) : Dev :=
  match s.podAny l with
  | none => s
  | some p =>
    if r.noload || r.inj || !p.inForce then s
    else
      let was := s.overBudget p
      let s1 := s.setPodx l (s.podx l + overload p.irated r)
      if !was && s1.overBudget p then (s1.lifeWriteNow l).unverify l 6 else s1

/-- The date check of one pod (R254): none while OSF is set; event 11 once within 30 days of EXPIRY. -/
def Dev.podDate (s : Dev) (p : Pod) : Dev :=
  let today := s.secs / 86400
  if s.on Fld.RTC_STAT_OSF || p.expiry == 0xFFFF then s
  else if p.expiry < today then s.unverify p.lane 5
  else if p.expiry ≤ today + 30 ∧ ¬ p.warned then (s.podUpd p.lane fun q => { q with warned := true }).raiseItem Pg.EYE 11 p.lane
  else s

/-- The date check of every pod, at each change of day. -/
def Dev.podDates (s : Dev) : Dev := s.eye.pods.foldl (fun (t : Dev) p => t.podDate p) s

/-! ### The current through a disconnect position (R307) -/

def Dev.dp (s : Dev) (n : Nat) : Dp := nth s.disc.dps n {}
def Dev.dpUpd (s : Dev) (n : Nat) (f : Dp → Dp) : Dev := { s with disc := { s.disc with dps := updAt s.disc.dps n f } }
/-- Position `n` is enabled. -/
def Dev.dpOn (s : Dev) (n : Nat) : Bool := s.on (Fld.DISC_DP_CFG_EN n)

/-- A committed record of a lane through position `n`: ten in a row out of no-load while verified open begin a check (FCODE 3, R307). -/
def Dev.dpCurrent (s : Dev) (lane : Nat) (r : Rec) : Dev :=
  forN 64 s fun t n =>
    if t.dpOn n && t.get (Fld.DISC_DP_CFG_LANE n) == lane then
      let p := t.dp n
      let run := if p.isOpen && p.verified && !p.pending && !r.noload then satN 10 (p.curRun + 1) else 0
      t.dpUpd n fun q => { q with curRun := run, recheck := if run = 10 ∧ p.recheck.isNone then some 3 else p.recheck }
    else t

end Sys2Proof.Machine
end

