-- ==== Sys2Proof/Machine/Pulse.lean ====
section
/-! DEFINITION. The pulse outputs (R210–R216): energy paced into pulses, the emitter, calibration mode and the output's configuration. -/

namespace Sys2Proof.Machine

/-- Output `n`. -/
def Dev.po (s : Dev) (n : Nat) : PulseOut := nth s.pulse n {}
def Dev.poUpd (s : Dev) (n : Nat) (f : PulseOut → PulseOut) : Dev := { s with pulse := updAt s.pulse n f }

/-- Output `n` is in calibration mode. -/
def Dev.pulseCalOn (s : Dev) (n : Nat) : Bool := natBit (s.get Fld.PULSE_CTRL_CAL_MASK) n

/-- K of R211. -/
def Dev.pulseK (s : Dev) (n : Nat) : Nat := (if s.pulseCalOn n then 100 else 1) * s.get (Fld.PULSE_CH_CONST_IMP n)

/-- Q of R211: µJ in a kWh. -/
def pulseQ : Nat := 3600000000000

/-- An increment of `e` µJ from a record of `span` 2^-16 frames (31.25 µs each) reaches output `n` (R211). -/
def Dev.pulseAdd (s : Dev) (n e span : Nat) : Dev :=
  if s.on (Fld.PULSE_CH_CFG_EN n) && s.on (Hdr.EN Pg.PULSE) then
    s.poUpd n fun p =>
      let pend := p.pend + e * s.pulseK n
      { p with pend := pend, step := if span = 0 then pend else (pend * 17 * 65536 + 16 * span - 1) / (16 * span) }
  else s

/-- The quantity of a lane record that an output shows (R210, KIND 1). -/
def Rec.pulseQty (r : Rec) (qty : Nat) : Nat :=
  match qty with
  | 0 => r.ep.toNat
  | 1 => (-r.ep).toNat
  | 2 => r.ep.natAbs
  | 3 => r.eq1.toNat
  | 4 => (-r.eq1).toNat
  | 5 => r.eq.toNat
  | 6 => (-r.eq).toNat
  | 7 => r.es.toNat
  | _ => 0

/-- A committed record of a lane reaches the outputs that show it; records with INJ add nothing (R210). -/
def Dev.pulseLane (s : Dev) (c : Nat) (r : Rec) : Dev :=
  if r.inj || decide (192 ≤ c) then s
  else forN 8 s fun t n => if t.get (Fld.PULSE_CH_CFG_KIND n) = 1 ∧ t.get (Fld.PULSE_CH_CFG_SEL n) = c then t.pulseAdd n (r.pulseQty (t.get (Fld.PULSE_CH_CFG_QTY n))) r.span else t

/-- Quantities of a billing point register that an output shows, by the codes of R263: 0 A+, 1 A−, 2–5 Q1–Q4, 6 S+, 7 S−, 8 A1+, 9 A1−. -/
def pulseShows (qty q : Nat) : Bool :=
  match qty with
  | 0 => q == 0
  | 1 => q == 1
  | 2 => q == 0 || q == 1
  | 3 => q == 2
  | 4 => q == 3
  | 5 => q == 4
  | 6 => q == 5
  | 7 => q == 2 || q == 3
  | 8 => q == 4 || q == 5
  | 9 => q == 6
  | 10 => q == 7
  | 11 => q == 8
  | 12 => q == 9
  | _ => false

/-- The billing engine adds `e` µJ to quantity `q` of point `b` (R210, KIND 0). -/
def Dev.pulseBill (s : Dev) (b q e span : Nat) : Dev :=
  forN 8 s fun t n => if t.get (Fld.PULSE_CH_CFG_KIND n) = 0 ∧ t.get (Fld.PULSE_CH_CFG_SEL n) = b ∧ pulseShows (t.get (Fld.PULSE_CH_CFG_QTY n)) q then t.pulseAdd n e span else t

/-- One more pulse waits, or is lost (R211, R212). -/
def Dev.pulseQueue (s : Dev) (n : Nat) : Dev :=
  let b := s.get (Fld.PULSE_CH_BACKLOG_N n)
  if b < 65535 then
    let s1 := s.set (Fld.PULSE_CH_BACKLOG_N n) (b + 1)
    if b + 1 = 16 then (s1.set Fld.PULSE_STAT_OVR (s1.get Fld.PULSE_STAT_OVR ||| 2 ^ n)).raiseItem Pg.PULSE 0 n else s1
  else (s.poUpd n fun p => { p with lost := p.lost + 1 }).raiseItem Pg.PULSE 1 n

/-- Energy moves from pend to acc, and whole quanta to the backlog. -/
def Dev.pulseMove (s : Dev) (n : Nat) : Dev :=
  let p := s.po n
  let m := if p.step < p.pend then p.step else p.pend
  let acc := p.acc + m
  forN (acc / pulseQ) (s.poUpd n fun _ => { p with pend := p.pend - m, acc := acc % pulseQ }) fun t _ => t.pulseQueue n

/-- Output `n` is sinking. -/
def Dev.pulseOn (s : Dev) (n : Nat) : Bool := natBit (s.get Fld.PULSE_STAT_ON) n

/-- Drive or release output `n`. -/
def Dev.pulseDrive (s : Dev) (n : Nat) (b : Bool) : Dev :=
  let on := putBit (s.get Fld.PULSE_STAT_ON) n b
  { s.set Fld.PULSE_STAT_ON on with pins := { s.pins with pulse := on } }

/-- An output has been off for its width W (R211): WIDTH ms, or a hundredth of that in calibration mode; one that was never on has. -/
def Dev.pulseRested (s : Dev) (n : Nat) : Bool :=
  match (s.po n).offAt with
  | none => true
  | some t => decide (24576 * s.get (Fld.PULSE_CH_CFG_WIDTH n) ≤ (if s.pulseCalOn n then 100 else 1) * (s.mt - t))

/-- The emitter (R211): a pulse starts when one waits and the output has been off for W. -/
def Dev.pulseEmit (s : Dev) (n : Nat) : Dev :=
  let b := s.get (Fld.PULSE_CH_BACKLOG_N n)
  if !s.pulseOn n && s.pulseRested n && decide (0 < b) then ((s.set (Fld.PULSE_CH_BACKLOG_N n) (b - 1)).count (Fld.PULSE_CH_COUNT_N n)).pulseDrive n true else s

/-- The injected backlog check (R216). -/
def Dev.pulseInject (s : Dev) (n : Nat) : Dev :=
  if s.injArmed Pg.PULSE n then
    let live := s.injLive Pg.PULSE
    ((s.injUse Pg.PULSE).set Fld.PULSE_STAT_OVR (s.get Fld.PULSE_STAT_OVR ||| 2 ^ n)).raiseEv { code := evCode Pg.PULSE 0, inj := true, item := n, seq := s.newestSeq } live
  else s

/-- The generator is frozen: a power-fail warning, or a shutdown (R214). -/
def Dev.pulseFrozen (s : Dev) : Bool :=
  s.power.st == .holdup || s.power.st == .shutdownTest || decide (0 < s.power.shutStage)

/-- PULSE_TICK: every 31.25 µs. DESIGN CHOICE (log 112): with EN = 0 on the page the generator stands still, and increments are dropped. -/
def Dev.pulseTick (s : Dev) : Dev :=
  if s.pulseFrozen || !s.on (Hdr.EN Pg.PULSE) then s
  else forN 8 s fun t n => if t.on (Fld.PULSE_CH_CFG_EN n) then ((t.pulseMove n).pulseInject n).pulseEmit n else t

def execPulseTick (s : State) : Out := mainAct s Dev.pulseTick

/-- Output `n` enters calibration mode (R213). -/
def Dev.calEnter (s : Dev) (n : Nat) : Dev := s.poUpd n fun p => { p with acc := p.acc * 100, pend := p.pend * 100 }
/-- Output `n` leaves it: truncating, the backlog cleared. -/
def Dev.calLeave (s : Dev) (n : Nat) : Dev := (s.poUpd n fun p => { p with acc := p.acc / 100, pend := p.pend / 100 }).set (Fld.PULSE_CH_BACKLOG_N n) 0

/-- The outputs in calibration mode become those of a mask; entry and exit are always journalled. DESIGN CHOICE (log 112): another mask that is not 0 raises event 2 again, and outputs that leave then raise no event 3. -/
def Dev.calMask (s : Dev) (mask : Nat) : Dev :=
  let old := s.get Fld.PULSE_CTRL_CAL_MASK
  let s1 := forN 8 (s.set Fld.PULSE_CTRL_CAL_MASK mask) fun t n =>
    if natBit mask n && !natBit old n then t.calEnter n else if natBit old n && !natBit mask n then t.calLeave n else t
  if mask ≠ 0 then s1.raiseJ Pg.PULSE 2 0xFF false [] else if old ≠ 0 then s1.raiseJ Pg.PULSE 3 0xFF false [] else s1

/-- Calibration mode's time is over (R213, R214): its outputs leave it, one in a pulse when that pulse completes. -/
def Dev.calExpire (s : Dev) : Dev :=
  let mask := s.get Fld.PULSE_CTRL_CAL_MASK
  if mask = 0 then s
  else
    let still := mask &&& s.get Fld.PULSE_STAT_ON
    let s1 := forN 8 (s.set Fld.PULSE_CTRL_CAL_MASK still) fun t n => if natBit mask n && !natBit still n then t.calLeave n else t
    if still = 0 then s1.raiseJ Pg.PULSE 3 0xFF false [] else s1

/-- PULSE_END: output `ch` is released. -/
def Dev.pulseEnd (s : Dev) (n : Nat) : Dev :=
  if s.pulseOn n then
    let s1 := (s.pulseDrive n false).poUpd n fun p => { p with offAt := some s.mt }
    if s.pulseCal = 0 then s1.calExpire else s1
  else s

def execPulseEnd (ch : Nat) (s : State) : Out := mainAct s fun d => if ch < 8 then d.pulseEnd ch else d

/-- Every output is released: a power-fail warning or a shutdown (R57, R214). -/
def Dev.pulseRelease (s : Dev) : Dev := forN 8 s fun t n => t.pulseEnd n

/-- A write of PULSE.CTRL (R213, R215). -/
def Dev.pulseCtrl (s : Dev) (v : Word) : Dev :=
  s.keyed Pg.PULSE 0x7C v fun t =>
    let min := bitsOf v 23 16
    if min = 0 ∨ 240 < min then t.cfgErr Pg.PULSE
    else { (t.set Fld.PULSE_CTRL_CAL_MIN min).calMask (bitsOf v 15 8) with pulseCal := if bitsOf v 15 8 = 0 then 0 else t.mt + min * 60 * 24576000 }

def execPulseCalEnter (m : Nat) (v : Word) (s : State) : Out := wrAct m Reg.PULSE_CTRL v s fun d => d.pulseCtrl v
def execPulseCalExit (m : Nat) (v : Word) (s : State) : Out := wrAct m Reg.PULSE_CTRL v s fun d => d.pulseCtrl v

/-- STAT.CAL_LEFT: seconds of calibration mode left. -/
def Dev.calLeft (s : Dev) : Nat := satN 0xFFFF ((s.pulseCal - s.mt + 24575999) / 24576000)

/-- PULSE_CAL_TIMEOUT: the time is over. -/
def execPulseCalTimeout (s : State) : Out := mainAct s fun d => { d.calExpire with pulseCal := 0 }

/-- CHn_CFG (R210, R215). -/
def pulseCfgOk (v : Word) : Bool :=
  let kind := bitsOf v 30 29
  let qty := bitsOf v 28 24
  let sel := bitsOf v 23 16
  let w := bitsOf v 15 8
  (if kind = 0 then decide (qty ≤ 12) && decide (sel ≤ 63) else kind == 1 && decide (qty ≤ 7) && decide (sel ≤ 191)) && decide (10 ≤ w) && decide (w ≤ 80)

/-- A setting written while the output is enabled clears what it holds; COUNT stays (R214). -/
def Dev.pulseClear (s : Dev) (n : Nat) (was : Bool) : Dev :=
  if was then (s.poUpd n fun p => { p with acc := 0, pend := 0, step := 0 }).set (Fld.PULSE_CH_BACKLOG_N n) 0 else s

/-- PULSE_CONFIG_WRITE. -/
def Dev.pulseConfig (s : Dev) (n : Nat) (konst : Bool) (v : Word) : Dev :=
  let a := if konst then Reg.PULSE_CH_CONST n else Reg.PULSE_CH_CFG n
  let w := if konst then v else putBits v 7 0 0
  s.rwlGate Pg.PULSE a w fun t =>
    let ok := if konst then decide (1 ≤ v.toNat) && decide (v.toNat ≤ 1000000) else pulseCfgOk v
    if ok then (t.wr a w).pulseClear n (t.on (Fld.PULSE_CH_CFG_EN n)) else t.cfgErr Pg.PULSE

def execPulseConfigWrite (m : Nat) (ch : Nat) (konst : Bool) (v : Word) (s : State) : Out :=
  wrAct m (if konst then Reg.PULSE_CH_CONST ch else Reg.PULSE_CH_CFG ch) v s fun d => if ch < 8 then d.pulseConfig ch konst v else d

end Sys2Proof.Machine
end

