-- ==== Sys2Proof/Machine/Pacer.lean ====
section
/-! DEFINITION. Pacers and the voltage Last (R142–R177, R195): the work of one cycle, its publication, its commit and its posting to billing; speculative events settled or withdrawn; replays, substitution, resynchronisation; partial records and fixed-rate blocks. -/

namespace Sys2Proof.Machine

/-! ### Trackers, workers, numbers -/

def Dev.trk (s : Dev) (g : Nat) : Tracker := nth s.meter.trk g {}
def Dev.trkUpd (s : Dev) (g : Nat) (f : Tracker → Tracker) : Dev := { s with meter := { s.meter with trk := updAt s.meter.trk g f } }
/-- Pacer `w`, or the voltage Last of group `w` − 12. -/
def Dev.pacer (s : Dev) (w : Nat) : Pacer := nth s.meter.pacers w {}
def Dev.pacerUpd (s : Dev) (w : Nat) (f : Pacer → Pacer) : Dev := { s with meter := { s.meter with pacers := updAt s.meter.pacers w f } }

/-- The group a worker serves. -/
def Dev.workGrp (s : Dev) (w : Nat) : Nat := if w < 12 then s.get (Fld.HEAT_CTRL_VGSEL w) else w - 12

/-- Heats of a group whose Pacer runs, and its voltage Last (R158). -/
def Dev.workers (s : Dev) (g : Nat) : List Nat := ((s.grpHeats g).filter fun h => s.hart (4 + h)) ++ [12 + g]

/-- N of a group (R139). -/
def Dev.nOf (s : Dev) (g : Nat) : Nat := match s.get (Fld.FRAME_VG_CFG_NSEL g) with | 0 => 256 | 1 => 128 | _ => 64

/-- The tracker's state code (R139). -/
def Dev.trkState (s : Dev) (g : Nat) : Nat := s.get (Fld.FRAME_VG_STAT_STATE g)

/-- Channels a worker computes. -/
def workChans (w : Nat) : List Nat := if w < 12 then blkChans w else (List.range 4).map (192 + 4 * (w - 12) + ·)

/-- The PACER page's registers exist for Pacers 0–11 only. -/
def Dev.onPacer (s : Dev) (w : Nat) (f : Dev → Dev) : Dev := if w < 12 then f s else s

/-- The device is in HOLDUP: cycles are holdup cycles (R57). -/
def Dev.inHoldup (s : Dev) : Bool := s.power.st == .holdup

/-! ### Starting blocks (R157) -/

/-- A channel block with nothing contiguous before it: remainders and the no-load state stay. -/
def Dev.freshBlock (s : Dev) (c : Nat) : ChanBlock :=
  let b := nth s.meter.sb c {}
  { rem := b.rem, noload := b.noload, y := (s.chan c).y, x := (s.chan c).x, cmp := (s.chan c).cmp }

/-- Voltage blocks of a group as the voltage Last holds them. -/
def Dev.voltBlocks (s : Dev) (g : Nat) : List (Nat × ChanBlock) := (workChans (12 + g)).map fun c => (c, nth s.meter.sb c {})

/-- A worker starts afresh at a position. -/
def Dev.joinAt (s : Dev) (g w : Nat) (pos : Int) (volts : Bool) : Dev :=
  let s1 := (workChans w).foldl (fun (t : Dev) c => { t with meter := { t.meter with sb := setAt t.meter.sb c (t.freshBlock c) } }) s
  s1.pacerUpd w fun p => { p with joined := true, sb := pos, spec := none, saved := none, replay := none, attempt := 0, resync := false, volt := if volts then (workChans (12 + g)).map (fun c => (c, s.freshBlock c)) else s.voltBlocks g }

/-! ### The work of a cycle (R180–R190) -/

/-- COAST, FREE and RELOCK of a record: the tracker's state at the decision on the cycle's end boundary, or, before it, now (R170). -/
def Dev.stateFlags (s : Dev) (g : Nat) (st : Stride) (r : Rec) : Rec :=
  let k := st.endState.getD (s.trkState g)
  { r with coast := k == 3, free := k == 4, relock := st.relock }

/-- Flags of a record formed now for a stride (R170). -/
def Dev.recFlags (s : Dev) (g w : Nat) (st : Stride) : Rec :=
  s.stateFlags g st { spec := true, gun := st.gunPart, pf := s.inHoldup, resync := (s.pacer w).resync }

/-- Records of a worker over a span (R142, R180, R190), the voltage words being formed from the worker's own copy of their blocks. -/
def Dev.workOf (s : Dev) (g w : Nat) (sc : List Scale) (sp : Span) : Work :=
  if w < 12 then
    let sbs := fun (c : Nat) => (lookup (s.pacer w).volt c).getD {}
    let vs := s.groupVolts g sc sp sbs
    { recs := s.heatRecs w sc sp vs sbs, volt := vs.map fun v => (v.1, v.2.2.1) }
  else { recs := (s.groupVolts g sc sp fun c => nth s.meter.sb c {}).map fun v => (v.1, v.2.1, v.2.2.1) }

/-- NSEL of an N (R139). -/
def nselOf (n : Nat) : Nat := if n = 256 then 0 else if n = 128 then 1 else 2

/-- The span of a worker's cycle from its starting block, with a step and a count of outputs. -/
def Dev.workSpan (s : Dev) (g w : Nat) (st : Stride) (step : Int) : Span :=
  let sb := (s.pacer w).sb
  { cyc := st.cyc, start := sb, step := step, n := st.n, nNom := st.nNom, set := coefSet 0 (nselOf st.nNom), fresh := st.fresh, broken := st.gunPart, mt := s.posMt sb, flags := s.recFlags g w st }

/-- The work of a worker on a stride as issued. -/
def Dev.strideWork (s : Dev) (g w : Nat) (st : Stride) : Work := s.workOf g w st.sc (s.workSpan g w st st.step)

/-- Clamped combinations are noted (R208). -/
def Dev.noteClamps (s : Dev) (w : Nat) (sc : List Scale) : Dev :=
  (workChans w).foldl (fun (t : Dev) c => if t.chOn c && t.gainClamped c (nth sc c {}) then t.tcClamp c else t) s

/-! ### Buffers of result RAM (R191, R195, R196) -/

def Dev.putLive (s : Dev) (c : Nat) (r : Rec) : Dev := { s with meter := { s.meter.cover (64 * c) 64 with live := setAt s.meter.live c (some r) } }
def Dev.putCommitted (s : Dev) (c : Nat) (r : Rec) : Dev := { s with meter := { s.meter.cover (0x4000 + 64 * c) 64 with committed := setAt s.meter.committed c (some r) } }

/-- The first holdup slot after the last that holds the channel. -/
def holdupSlot (slots : List (List (Nat × Rec))) (c : Nat) : Nat :=
  (List.range slots.length).foldl (fun n i => if (lookup (nth slots i []) c).isSome then i + 1 else n) 0

/-- A holdup record: the live buffer and the next holdup slot of its channel, after those already passed on. -/
def Dev.putHoldup (s : Dev) (c : Nat) (r : Rec) : Dev :=
  let k := max s.meter.holdupPassed (holdupSlot s.meter.holdup c)
  let slots := s.meter.holdup ++ List.replicate (k + 1 - s.meter.holdup.length) []
  let s1 := s.putLive c r
  { s1 with meter := { s1.meter.cover (0x8000 + k % 36 * 0x3400 + 64 * c) 64 with holdup := updAt slots k fun l => assign l c r } }

/-- A committed lane record counts towards its pod's exposure (R253), and that of a lane that `bd` binds is posted to billing (R195, R261); a voltage record goes there for meter tamper (R324). -/
def Dev.postRec (s : Dev) (bd : List Binding) (g c : Nat) (r : Rec) : Dev :=
  let s1 := if c < 192 then s.podCount c r else { s with bill := { s.bill with volts := (s.bill.volts ++ [(c, r)]).drop (s.bill.volts.length - 255) } }
  match slotIn bd c with
  | some (b, _) => if decide (c < 192) && s1.hart 1 then { s1 with bill := { s1.bill with posts := s1.bill.posts ++ [⟨c, g, r, b, nth bd b {}⟩] } } else s1
  | none => s1

/-- The next holdup slot is passed to billing (R58, R196). It reads 0 from then on, and after the last one the next holdup starts at slot 0: DESIGN CHOICE (log 80). -/
def Dev.holdupStep (s : Dev) : Dev :=
  let k := s.meter.holdupPassed
  let l := nth s.meter.holdup k []
  let left := if s.meter.holdup.length ≤ k + 1 then [] else setAt s.meter.holdup k []
  l.foldl (fun (u : Dev) e => (u.postRec u.bill.bound (u.chGrp e.1) e.1 e.2).pulseLane e.1 e.2) { s with meter := { s.meter with holdup := left, holdupPassed := if left.isEmpty then 0 else k + 1 } }

/-- Every slot that waits is passed on, before a later cycle commits. -/
def Dev.holdupRest (s : Dev) : Dev := forN s.meter.holdup.length s fun t _ => if t.meter.holdup.isEmpty then t else t.holdupStep

/-- One channel's record commits. -/
def Dev.commitRec (s : Dev) (bd : List Binding) (g c : Nat) (r : Rec) (b : ChanBlock) : Dev :=
  let b := { b with words := b.words.map wordCommit }
  let s1 := { s with meter := { s.meter with sb := setAt s.meter.sb c b } }
  if s.inHoldup && !r.pfPartial then s1.putHoldup c { r with pf := true }
  else (((((s1.putCommitted c r).putLive c r).postRec bd g c r).dpCurrent c r).pulseLane c r).harmGather g c r b

/-- The interval without metering that a start opened ends where the first counted energy begins (R59). -/
def Dev.startCounted (s : Dev) (pos : Int) : Dev :=
  match s.power.startFrom with
  | some mt => if s.inHoldup then s
    else { s with power := { s.power with startFrom := none } }.journal (Config.journalCode 0 % 4096) 0xFF false false (leBytes 8 mt ++ leBytes 8 (s.posMt pos))
  | none => s

/-- A cycle commits in a worker (R157, R195): records, posted by the bindings its cycle had latched, the new starting block at `pos`, and PACER event 0 or the group's committed number and starting block. -/
def Dev.commitWork (s : Dev) (g w : Nat) (bd : List Binding) (cyc : Nat) (work : Work) (pos : Int) (f : Rec → Rec) : Dev :=
  let s0 := if s.inHoldup then s else s.holdupRest
  let s1 := work.recs.foldl (fun (t : Dev) e => t.commitRec bd g e.1 { f e.2.1 with spec := false } e.2.2) (s0.startCounted (s.pacer w).sb)
  let s2 := s1.pacerUpd w fun p => { p with sb := pos, volt := work.volt, spec := none, saved := none, replay := none, attempt := 0, resync := false }
  if w < 12 then
    ((((s2.set (Fld.PACER_CYC_CYCLE w) cyc).set (Fld.PACER_SPEC_CYCLE w) cyc).set (Fld.PACER_REC_STAT_PENDING w) 0).set (Fld.PACER_REC_STAT_ATTEMPT w) 0).raise (Pg.PACER w) 0
  else
    (((s2.set (Fld.FRAME_RB_CYC_CYCLE g) cyc).set64 (Reg.FRAME_RB_SB_MT_LO g) (Reg.FRAME_RB_SB_MT_HI g) (s.posMt pos)).pqCommit g).trkUpd g fun t => { t with committed := t.committed || !s.inHoldup }

/-! ### Speculative events (R164–R168) -/

/-- The withdrawal events of one event's source (R165): the withdrawal names the original's frame. -/
def Dev.withdrawEv (s : Dev) (e : Event) : Dev :=
  let p := e.code / 64
  let s1 :=
    if p = Pg.PQE then s.raiseAt Pg.PQE 6 e.seq e.item false e.inj
    else if p = Pg.UGRP then s.raiseAt Pg.UGRP 14 e.seq e.item false e.inj
    else ((s.raiseAt p 14 e.seq e.item false e.inj).bump (Fld.PACER_WDRAW_COUNT (p - 0x10))).raiseAt (Pg.PACER (p - 0x10)) 5 e.seq e.item false e.inj
  (s1.raiseAt Pg.FRAME 13 e.seq e.item false e.inj).capWithdraw e

/-- The events of a group that a predicate names are withdrawn; a held one never left its Pacer. A trip already made on one is journalled (R167). -/
def Dev.withdraw (s : Dev) (g : Nat) (p : Event → Bool) : Dev :=
  let out := s.meter.specEvents.filter fun e => e.grp == g && p e.ev
  let s1 := { s with meter := { s.meter with specEvents := s.meter.specEvents.filter fun e => !(e.grp == g && p e.ev) } }
  out.foldl (fun (t : Dev) e =>
    if e.held then t
    else if e.trip then (t.withdrawEv e.ev).journal (Config.journalCode 5 % 4096) e.ev.item e.ev.inj false []
    else t.withdrawEv e.ev) s1

/-- A speculative event's cycle commits (R164, R282): a held one is raised now; another reaches the filters, captures and trips that waited for the commit, but no second trip where it made one while speculative (R167). -/
def Dev.settleEv (s : Dev) (e : SpecEvent) : Dev :=
  let c : Event := { e.ev with spec := false }
  if e.held then s.raiseEv c e.live
  else
    let s1 := if !c.own && Regs.jselHits s.regs c.code then s.journal c.code 0xFF c.inj false [] else s
    let s2 := if s1.cap.held.contains e.ev then ({ s1 with cap := { s1.cap with held := s1.cap.held.filter fun h => h != e.ev } }).capture c else s1
    if e.trip then s2 else { s2 with disc := { s2.disc with trips := s2.disc.trips ++ s2.tripHits c e.live } }

/-- The events of a group that a predicate names, in frames before a position, settle. -/
def Dev.settleTo (s : Dev) (g : Nat) (pos : Int) (p : Event → Bool) : Dev :=
  let hit := fun (e : SpecEvent) => e.grp == g && p e.ev && decide (posDiff ((e.ev.seq : Int) * q32) pos < 0)
  let out := s.meter.specEvents.filter hit
  out.foldl (fun (t : Dev) e => t.settleEv e) { s with meter := { s.meter with specEvents := s.meter.specEvents.filter fun e => !hit e } }

/-- The events of a worker's words: of its comparators, and of the voltage Last's half-cycle RMS. -/
def workEvent (w : Nat) (e : Event) : Bool := if w < 12 then e.code / 64 == Pg.HEAT w else e.code / 64 == Pg.UGRP || e.code / 64 == Pg.PQE

/-- A comparator event found by a replay (R165, R166): committed, or speculative where its word lies after the boundary; it carries REPLAYED. -/
def Dev.reRaise (s : Dev) (g : Nat) (bound : Int) (e : Event) : Dev :=
  s.raiseSpec g { e with spec := decide (0 ≤ posDiff ((e.seq : Int) * q32) bound), replayed := true } true

/-- The hits of a worker's comparators over the frames from its starting block on (R127, R158), in frame order, and each channel's state at the newest frame: with the replayed cycle's half period up to its boundary, with the next stride's after it. -/
def Dev.replayHits (s : Dev) (w : Nat) (sb : List (Nat × ChanBlock)) (start bound : Int) (half : Nat) : List (Nat × Nat × Nat) × List (Nat × Cmp) :=
  let q0 := ceilSeq start
  let n := (serialDiff 32 s.fe.nextSeq q0).toNat
  let n1 := (serialDiff 32 (ceilSeq bound) q0).toNat
  let runs := (workChans w).map fun c =>
    let b := (lookup sb c).getD {}
    let x := s.samplesFrom c b start n
    let old := cmpRun { s.cmpCfg c with p := half } b.cmp q0 (x.take n1)
    let new := cmpRun (s.cmpCfg c) old.1 (q0 + n1) (x.drop n1)
    (c, new.1, old.2 ++ new.2)
  let hits := (List.range n).flatMap fun i => runs.flatMap fun r => (r.2.2.filter fun h => h.1 == (q0 + i) % 2 ^ 32).map fun h => (h.1, r.1, h.2)
  (hits, runs.map fun r => (r.1, r.2.1))

/-- Keep at most one hit per kind per millisecond (R130). -/
def limitHits (mt : Nat → Nat) : List (Nat × Nat) → List (Nat × Nat × Nat) → List (Nat × Nat × Nat)
  | _, [] => []
  | last, h :: r =>
    match lookup last h.2.2 with
    | some t => if mt h.1 < t + 24576 then limitHits mt last r else h :: limitHits mt (assign last h.2.2 (mt h.1)) r
    | none => h :: limitHits mt (assign last h.2.2 (mt h.1)) r

/-- The comparators of a worker run again from the starting block of the replayed cycle `cyc`, which ends at `bound`. -/
def Dev.replayEvents (s : Dev) (g w cyc : Nat) (sb : List (Nat × ChanBlock)) (start bound : Int) (half : Nat) : Dev :=
  let r := s.replayHits w sb start bound half
  let mt := fun (q : Nat) => match s.frame q with | some f => f.mt | none => s.mt
  let s1 := r.2.foldl (fun (t : Dev) e => t.chanUpd e.1 fun k => { k with cmp := e.2 }) s
  (limitHits mt [] r.1).foldl (fun (t : Dev) h =>
    (t.cmpHit h.2.1 h.2.2).reRaise g bound { code := evCode (blkPage (chBlk h.2.1)) (8 + h.2.2), seq := h.1, item := h.2.1, cyc := some (if posDiff ((h.1 : Int) * q32) bound < 0 then cyc else s.cycAt g h.1) }) s1

/-! ### What takes effect at a boundary of record (R251, R254, R255, R260) -/

/-- Relatch lanes' scales in the strides and the block in progress. -/
def Dev.relatch (s : Dev) (g : Nat) (lanes : List Nat) : Dev :=
  let new := fun (l : List Scale) => lanes.foldl (fun l c => setAt l c (s.scaleOf c)) l
  s.trkUpd g fun t => { t with strides := t.strides.map fun (k : Stride) => { k with sc := new k.sc, bd := s.bill.bound }, blockSc := new t.blockSc }

/-- The group whose boundary a pending binding waits for (R260). -/
def Dev.bindGrp (s : Dev) (b : Nat) (k : Binding) : Nat := if k.en then k.vg else (nth s.bill.bound b {}).vg

/-- A binding takes effect: BILL event 7 and a journal entry with the three words; the meter-tamper counts of its lanes restart (R338). -/
def Dev.bindNow (s : Dev) (b : Nat) (k : Binding) : Dev :=
  let lanes := ((nth s.bill.bound b {}).slots.map (nth s.bill.bound b {}).lane) ++ k.slots.map k.lane
  let rev := lanes.foldl (fun (l : List Cond) c => updAt l c fun (x : Cond) => { x with cnt := 0 }) s.tamp.rev
  let tamp := { s.tamp with rev := rev, byp := updAt s.tamp.byp b fun (x : Cond) => { x with cnt := 0 } }
  ({ s with tamp := tamp, bill := { s.bill with bound := setAt s.bill.bound b k, pendingB := s.bill.pendingB.filter fun p => p.1 != b } }).raiseJ Pg.BILL 7 b false
    (leBytes 4 k.lanes ++ leBytes 4 k.roles ++ leBytes 4 k.cfg)

/-- Pending bindings of a group take effect. -/
def Dev.bindEffect (s : Dev) (g : Nat) : Dev :=
  let due := s.bill.pendingB.filter fun p => s.bindGrp p.1 p.2 == g
  let lanes := due.flatMap fun p => (p.2.slots.map p.2.lane) ++ ((nth s.bill.bound p.1 {}).slots.map (nth s.bill.bound p.1 {}).lane)
  (due.foldl (fun (t : Dev) p => t.bindNow p.1 p.2) s).relatch g (lanes.filter (· < 192))

/-- STATUS and identity of a lane's pod (R111, R251). -/
def Dev.podShow (s : Dev) (l : Nat) : Dev :=
  let r := chRec l
  match s.podOn l with
  | some p => ((s.set (Fld.REC_STATUS_POD r) 1).set (Fld.REC_POD_ID_LO_ID r) (p.id % 2 ^ 32)).set (Fld.REC_POD_ID_HI_ID r) (p.id / 2 ^ 32)
  | none => ((s.set (Fld.REC_STATUS_POD r) 0).set (Fld.REC_POD_ID_LO_ID r) 0).set (Fld.REC_POD_ID_HI_ID r) 0

/-- Pods of a group's lanes come into force or leave; lanes due become UNVERIFIED. -/
def Dev.podEffect (s : Dev) (g : Nat) : Dev :=
  let mine := fun (l : Nat) => s.chGrp l == g
  let chg := (s.eye.pods.filter fun p => mine p.lane && (p.leaving || !p.inForce)).map (·.lane)
  let due := s.eye.unverDue.filter mine
  let new := (s.eye.pods.filter fun p => mine p.lane && !p.leaving && !p.inForce).map (·.lane)
  let s1 := { s with eye := { s.eye with unverDue := s.eye.unverDue.filter fun l => !mine l, pods := (s.eye.pods.filter fun p => !(mine p.lane && p.leaving)).map fun (p : Pod) => if mine p.lane then { p with inForce := true } else p } }
  let clear := (s.eye.pods.filter fun p => mine p.lane && !p.leaving && !p.inForce && p.clears).map (·.lane)
  let s1 := clear.foldl (fun (t : Dev) l => t.set (Fld.REC_STATUS_UNVERIFIED (chRec l)) 0) s1
  let s2 := due.foldl (fun (t : Dev) l => t.set (Fld.REC_STATUS_UNVERIFIED (chRec l)) 1) s1
  (new.foldl Dev.podEnter (chg.foldl Dev.podShow s2)).relatch g chg

/-- Pods that wait for a boundary of record of the group, once no Pacer of it still replays the cycle before. -/
def Dev.podHooks (s : Dev) (g : Nat) : Dev := if (s.workers g).any fun w => (s.pacer w).replay.isSome then s else s.podEffect g

/-- Everything that waits for a boundary of record of the group. -/
def Dev.boundaryHooks (s : Dev) (g : Nat) : Dev := (s.bindEffect g).podHooks g

/-! ### Publication (R149, R195) -/

/-- The Last shows what it works on: mode, N and step; and, once it has formed a record, the position of its last output (R148). -/
def Dev.lastShow (s : Dev) (g w : Nat) (step : Int) (last : Option Int) : Dev :=
  s.onPacer w fun u =>
    let v := (((u.set (Fld.PACER_LAST_STAT_RUN w) 1).set (Fld.PACER_LAST_STAT_NSEL w) (u.get (Fld.FRAME_VG_CFG_NSEL g))).set (Fld.PACER_LAST_STAT_MODE w) (u.get (Fld.FRAME_VG_CFG_MODE g))).set64
      (Reg.PACER_LAST_STEP_LO w) (Reg.PACER_LAST_STEP_HI w) step.toNat
    match last with
    | some p => v.set64 (Reg.PACER_LAST_POS_LO w) (Reg.PACER_LAST_POS_HI w) (posWrap p).toNat
    | none => v

/-- The last output of a record of `n` outputs. -/
def lastPos (start step : Int) (n : Nat) : Option Int := some (start + ((n : Int) - 1) * step)

/-- One worker publishes its speculative records: to the live buffer unless HOLD keeps them (R168). -/
def Dev.publishOne (s : Dev) (g : Nat) (st : Stride) (w : Nat) : Dev :=
  let work := s.strideWork g w st
  let s1 := (s.noteClamps w st.sc).pacerUpd w fun p => { p with spec := some work }
  let s2 := if st.hold then s1 else work.recs.foldl (fun (t : Dev) e => t.putLive e.1 e.2.1) s1
  let s3 := (s2.lastShow g w st.step (lastPos (s.pacer w).sb st.step st.n)).onPacer w fun t =>
    let u := t.set (Fld.PACER_REC_STAT_PENDING w) 1
    if st.hold then u else u.set (Fld.PACER_SPEC_CYCLE w) st.cyc
  if w < 12 then s3 else s3.pqEval g (s.pacer w).sb (work.recs.map fun e => (e.1, e.2.1)) true false

/-- SPECULATIVE_PUBLISH: every worker on the live stream publishes the oldest undecided cycle. -/
def Dev.publish (s : Dev) (g : Nat) : Dev :=
  match (s.trk g).strides with
  | [] => s
  | st :: r =>
    if st.published then s
    else
      let s1 := s.trkUpd g fun t => { t with strides := { st with published := true } :: r }
      st.who.foldl (fun (t : Dev) w => if (t.pacer w).behind || (t.pacer w).replay.isSome then t else t.publishOne g st w) s1

/-! ### Recovery (R158–R163) -/

/-- VGg_REC shows the recovery of the group. -/
def Dev.recShow (s : Dev) (g : Nat) : Dev :=
  let a := ((s.workers g).map fun w => if (s.pacer w).replay.isSome then (s.pacer w).attempt else 0).foldl max 0
  (s.setB (Fld.FRAME_RB_REC_ACTIVE g) (decide (0 < a))).set (Fld.FRAME_RB_REC_ATTEMPT g) a

/-- No speculative record of a Pacer is pending: SPEC equals CYC (R176). -/
def Dev.specNone (s : Dev) (w : Nat) : Dev := (s.set (Fld.PACER_REC_STAT_PENDING w) 0).set (Fld.PACER_SPEC_CYCLE w) (s.get (Fld.PACER_CYC_CYCLE w))

/-- A worker rewinds to its starting block and replays to `b` (R158). -/
def Dev.startReplay (s : Dev) (g : Nat) (st : Stride) (b : Int) (inj : Bool) (w : Nat) : Dev :=
  let p := s.pacer w
  let work := p.spec.getD (s.strideWork g w st)
  let k : Stride := { st with step := (posDiff b p.sb) / (st.n : Int) }
  let s1 := s.pacerUpd w fun q => { q with spec := none, saved := some work, replay := some (k, b), attempt := 1, fsMt := s.mt, behind := true }
  s1.onPacer w fun t =>
    ((((((t.specNone w).set (Fld.PACER_REC_STAT_ATTEMPT w) 1).set (Fld.PACER_REC_STAT_BEHIND w) 1).set (Fld.PACER_LAST_STAT_REPLAY w) 1).bump (Fld.PACER_FS_FS w)).set64 (Reg.PACER_LAST_STEP_LO w) (Reg.PACER_LAST_STEP_HI w) (k.step.toNat)).raiseInj (Pg.PACER w) 1 inj true

/-- Records as a substituted cycle commits them (R161, R170). -/
def Dev.substRec (s : Dev) (g : Nat) (st : Stride) (r : Rec) : Rec := s.stateFlags g st { r with subst := true }

/-- A partial record from a worker's starting block to a position (R57, R125), closed by a GUN or by a power-fail warning. -/
def Dev.partialOne (s : Dev) (g : Nat) (k : ClosePlan) (pos : Int) (gun : Bool) (w : Nat) : Dev :=
  let p := s.pacer w
  let span := posDiff pos p.sb
  if span ≤ 0 ∨ !p.joined then s.pacerUpd w fun q => { q with sb := pos, spec := none, saved := none, replay := none, attempt := 0, resync := false }
  else
    let n := if k.period ≤ 0 then 1 else (span * k.nNom / k.period).toNat
    let n := if n = 0 then 1 else n
    let st : Stride := { cyc := k.cyc, start := p.sb, len := span, period := k.period, step := span / (n : Int), tol := 0, stepThr := 0, n := n, sc := k.sc, nNom := k.nNom, fresh := k.fresh }
    let sp := { s.workSpan g w st st.step with broken := true, flags := { s.recFlags g w st with gun := gun, pfPartial := !gun, pf := s.inHoldup && gun } }
    let work := s.workOf g w k.sc sp
    let s0 := (s.noteClamps w k.sc).lastShow g w st.step (lastPos p.sb st.step n)
    let s1 := if w < 12 then s0 else (s0.pqDrop g).pqEval g p.sb (work.recs.map fun e => (e.1, e.2.1)) false false
    s1.commitWork g w k.bd k.cyc work pos id

/-- A worker that has resynchronised finds its span at odds with its step at a boundary (R162). -/
def Dev.resyncOff (s : Dev) (st : Stride) (b : Int) (w : Nat) : Bool :=
  let off := posDiff b (s.pacer w).sb - st.len
  (s.pacer w).resync && (decide (st.tol < off) || decide (off < -st.tol))

/-- A worker's own rewind (R162, R165): what its words had raised is withdrawn. -/
def Dev.rewindOwn (s : Dev) (g : Nat) (st : Stride) (b : Int) (w : Nat) : Dev :=
  let t := s.withdraw g (workEvent w)
  (if w < 12 then t else t.pqDrop g).startReplay g st b false w

/-- A worker's cycle that was never published, or that it forms from the ring, commits (R160). -/
def Dev.commitFresh (s : Dev) (g : Nat) (st : Stride) (b : Int) (w : Nat) (f : Rec → Rec) : Dev :=
  let work := s.strideWork g w st
  let s1 := s.noteClamps w st.sc
  let s2 := if w < 12 then s1 else s1.pqEval g (s.pacer w).sb (work.recs.map fun e => (e.1, e.2.1)) false false
  s2.commitWork g w st.bd st.cyc work b f

/-- What had waited for a worker's replay. -/
def Dev.pacerTask (s : Dev) (g w : Nat) (k : PacerTask) : Dev :=
  match k with
  | .gun pos plan => s.partialOne g plan pos true w
  | .join pos => s.joinAt g w pos true
  | .decision st b fs => if fs || s.resyncOff st b w then s.rewindOwn g st b w else (s.settleTo g b (workEvent w)).commitFresh g st b w id

/-- Tasks in their order, up to one that starts a replay. -/
def Dev.pacerTasks (g w : Nat) : List PacerTask → Dev → Dev
  | [], s => s
  | k :: r, s => if (s.pacer w).replay.isSome then s.pacerUpd w fun p => { p with todo := k :: r } else Dev.pacerTasks g w r (s.pacerTask g w k)

/-- A task for a worker whose replay runs. -/
def Dev.taskAdd (s : Dev) (w : Nat) (k : PacerTask) : Dev := s.pacerUpd w fun p => { p with todo := p.todo ++ [k] }

/-- A worker's cycle is settled: it does what had waited, and stands still where its group left LOCK meanwhile (R171). -/
def Dev.afterReplay (s : Dev) (g w : Nat) : Dev :=
  let t := Dev.pacerTasks g w (s.pacer w).todo (s.pacerUpd w fun p => { p with todo := [] })
  if (t.pacer w).joined then t else t.onPacer w fun u => u.set (Fld.PACER_LAST_STAT_RUN w) 0

/-- A replay passes: the record commits as FALSE_STARTED and becomes the starting block (R159, R165). -/
def Dev.replayPass (s : Dev) (g w : Nat) (st : Stride) (b : Int) : Dev :=
  let p := s.pacer w
  let work := s.workOf g w st.sc (s.workSpan g w st st.step)
  let sbs := (workChans w).map fun c => (c, nth s.meter.sb c {})
  let two := p.attempt == 2
  let s9 := (s.noteClamps w st.sc).lastShow g w st.step (lastPos p.sb st.step st.n)
  let s0 := if w < 12 then s9 else s9.pqEval g p.sb (work.recs.map fun e => (e.1, e.2.1)) false true
  let s1 := s0.commitWork g w st.bd st.cyc work b fun r => { r with falseStarted := true, replay2 := two }
  let s2 := s1.onPacer w fun t => (t.set (Fld.PACER_LAST_STAT_REPLAY w) 0).raise (Pg.PACER w) 2
  (((s2.replayEvents g w st.cyc sbs p.sb b ((st.step * st.n + 2 ^ 32).toNat / 2 ^ 33)).afterReplay g w).recShow g).podHooks g

/-- What shows a second replay, or a substitution, in a Pacer of a group (R161, R173–R177): the voltage Last is no Pacer. `inj` and `live` for an injected failure (R77). -/
def Dev.failShow (s : Dev) (g w : Nat) (third inj live : Bool) : Dev :=
  s.onPacer w fun t =>
    if third then
      (((((t.bump (Fld.PACER_FS_SUBST w)).raiseInj (Pg.PACER w) 4 inj live).bump (Fld.FRAME_RB_FS_SUBST g)).raiseEv { code := evCode Pg.FRAME 11, inj := inj, own := true, seq := s.newestSeq } live).journal (evCode Pg.FRAME 11) 0xFF inj false [])
    else ((t.raiseInj (Pg.PACER w) 3 inj live).bump (Fld.FRAME_RB_REC_REPLAY2 g)).raiseInj Pg.FRAME 10 inj live

/-- The second replay failed: the cycle commits from its discarded result, with the predicted end as boundary (R155, R161, R162). DESIGN CHOICE (log 77): the events its false start withdrew stay withdrawn. -/
def Dev.substitute (s : Dev) (g w : Nat) (st : Stride) (inj : Bool) : Dev :=
  let p := s.pacer w
  let work := p.saved.getD {}
  let e := posWrap (st.start + st.len)
  let s0 := if w < 12 then s else s.pqEval g p.sb (work.recs.map fun k => (k.1, s.substRec g st k.2.1)) false false
  let s1 := (s0.commitWork g w st.bd st.cyc work e (s.substRec g st)).pacerUpd w fun q => { q with resync := true }
  let s2 := (s1.onPacer w fun t => t.set (Fld.PACER_LAST_STAT_REPLAY w) 0).failShow g w true inj true
  ((s2.afterReplay g w).recShow g).podHooks g

/-- A replay attempt fails for a cause (R160, R161). -/
def Dev.replayFail (s : Dev) (g w cause : Nat) : Dev :=
  match (s.pacer w).replay with
  | none => s
  | some (st, _) =>
    let s1 := (s.set (Fld.FRAME_RB_REC_CAUSE g) cause).onPacer w fun t => t.set (Fld.PACER_REC_STAT_CAUSE w) cause
    let s2 := if cause = 4 then s1.raise Pg.FRAME 12 else s1
    if (s.pacer w).attempt < 2 then
      let s3 := (s2.pacerUpd w fun p => { p with attempt := 2 }).onPacer w fun t => t.set (Fld.PACER_REC_STAT_ATTEMPT w) 2
      (s3.failShow g w false (cause == 6) true).recShow g
    else s2.substitute g w st (cause == 6)

/-- A frame the span needs is gone from the ring (R134). -/
def Dev.spanLost (s : Dev) (start : Int) (n : Nat) : Bool := (List.range n).any fun i => (s.frame (posSeq start + i)).isNone

/-- REPLAY_COMPLETE: an attempt ends (R159–R161). `fault`: 0 none, 1 transient ECC, 2 lasting ECC, 3 overwritten; `bMeas` the crossing measured again. -/
def Dev.replayEnd (s : Dev) (w fault : Nat) (bMeas : Int) : Dev :=
  let g := s.workGrp w
  match (s.pacer w).replay with
  | none => s
  | some (st, b) =>
    let inj := decide (w < 12) && s.injArmed (Pg.PACER w) 0
    let live := s.injLive (Pg.PACER w)
    let s1 := if inj then s.injUse (Pg.PACER w) else s
    let s2 := if fault = 1 then s1.onPacer w fun t => t.raise (Pg.PACER w) 6 else s1
    let off := posDiff bMeas b
    let lost := s.spanLost (s.pacer w).sb (posDiff b (s.pacer w).sb / q32).toNat
    let cause := if fault = 2 then 2 else if fault = 3 ∨ lost then 3 else if st.tol < off ∨ off < -st.tol then 1 else if inj then 6 else 0
    if cause = 0 then s2.replayPass g w st b
    else if cause = 6 ∧ !live then
      (((s2.set (Fld.FRAME_RB_REC_CAUSE g) 6).set (Fld.PACER_REC_STAT_CAUSE w) 6).failShow g w (decide (2 ≤ (s.pacer w).attempt)) true false).replayPass g w st b
    else if cause = 1 then
      (s.workers g).foldl (fun (t : Dev) v => match (t.pacer v).replay with | some r => if r.1.cyc = st.cyc ∧ r.2 = b then t.replayFail g v 1 else t | none => t) s2
    else if 12 ≤ w ∧ (cause = 2 ∨ cause = 3) then
      (s.workers g).foldl (fun (t : Dev) v => if v = w then t.replayFail g v cause else t.replayFail g v 5) s2
    else s2.replayFail g w cause

/-- LIVE_CATCH_UP: a worker is back on the live stream (R159, R174, R176); the cycle whose publication was late is published. -/
def Dev.catchUp (s : Dev) (w : Nat) : Dev :=
  let g := s.workGrp w
  let p := s.pacer w
  if !p.behind || p.replay.isSome then s
  else
    let s1 := s.pacerUpd w fun q => { q with behind := false }
    let s2 := s1.onPacer w fun t => ((t.set (Fld.PACER_REC_STAT_BEHIND w) 0).set (Fld.PACER_REC_STAT_REPLAY_US w) (satN 0xFFFF ((s.mt - p.fsMt) * 1000 / 24576))).raise (Pg.PACER w) 7
    let s3 := match (s2.trk g).strides with
      | st :: _ => if st.published && st.who.contains w && p.spec.isNone then s2.publishOne g st w else s2
      | [] => s2
    if (s3.workers g).any fun v => (s3.pacer v).behind then s3 else s3.raise Pg.FRAME 9

/-! ### Dropping cycles (R139, R140) -/

/-- A worker stops: no record of it awaits a decision, and it produces nothing (R104, R140, R148). -/
def Dev.pacerStop (s : Dev) (w : Nat) : Dev :=
  (s.pacerUpd w fun _ => {}).onPacer w fun u => ((((u.specNone w).set (Fld.PACER_LAST_STAT_RUN w) 0).set (Fld.PACER_LAST_STAT_REPLAY w) 0).set (Fld.PACER_REC_STAT_ATTEMPT w) 0).set (Fld.PACER_REC_STAT_BEHIND w) 0

/-- Cycles in progress or awaiting a decision are dropped: nothing commits, speculative records stay in the live buffer, their events are withdrawn. A recovery that runs completes (R171). -/
def Dev.dropCycles (s : Dev) (g : Nat) : Dev :=
  let s1 := s.withdraw g fun _ => true
  let s2 := (s1.pqDrop g).trkUpd g fun t => { t with strides := [], restartAt := none, lastMeas := none, relock := false, blockStart := none, blockSc := [] }
  let s3 := (List.range 16).foldl (fun (t : Dev) w =>
    if t.workGrp w = g then
      (if (t.pacer w).replay.isSome then t.pacerUpd w fun p => { p with joined := false } else t.pacerStop w)
    else t) s2
  (s3.recShow g).harmDrop g none 0

/-! ### Partial records of a group -/

/-- The number the group's next direct commit takes: the oldest undecided cycle's, else the next. -/
def Tracker.cycNow (t : Tracker) : Nat := match t.strides with | st :: _ => st.cyc | [] => t.next

def Dev.partialPlan (s : Dev) (g : Nat) : ClosePlan :=
  let t := s.trk g
  let base : ClosePlan := match t.strides with
    | st :: _ => { cyc := st.cyc, period := st.period, sc := st.sc, bd := st.bd, fresh := st.fresh }
    | [] => { cyc := t.next, period := t.ts, sc := (List.range 208).map s.scaleOf, bd := s.bill.bound, fresh := t.fresh }
  { base with
    nNom := s.nOf g
    period := match t.strides.getLast? with | some st => st.period | none => t.ts
    bound := match t.strides.getLast? with | some st => posWrap (st.start + st.len) | none => t.boundary }

/-- A worker commits a partial record that ends at a position now, with the plan's number. -/
def Dev.takesPart (s : Dev) (pos : Int) (w : Nat) : Bool := (s.pacer w).joined && (s.pacer w).replay.isNone && decide (0 < posDiff pos (s.pacer w).sb)

/-- Framing stops at a GUN and restarts when its settle ends (R125): every worker's partial record commits directly, or waits for its replay. -/
def Dev.partialGrp (s : Dev) (g : Nat) (pos restart : Int) : Dev :=
  let p := s.partialPlan g
  let used := (s.workers g).any fun w => s.takesPart pos w || (s.pacer w).replay.isSome
  let s1 := s.trkUpd g fun k => { k with strides := [], next := if used then (p.cyc + 1) % 2 ^ 32 else p.cyc, boundary := p.bound, restartAt := some (restart, true), lastMeas := none }
  (s.workers g).foldl (fun (u : Dev) w =>
    if (u.pacer w).replay.isSome then u.taskAdd w (.gun pos p) else u.partialOne g p pos true w) s1

/-! ### Fixed-rate blocks (R145, R189) -/

/-- The group produces fixed-rate blocks. -/
def Dev.fixedOn (s : Dev) (g : Nat) : Bool := s.get (Fld.FRAME_VG_CFG_MODE g) != 0

/-- The step of a fixed-rate group: 2 or 4 frames. -/
def Dev.fixedStep (s : Dev) (g : Nat) : Int := (if s.get (Fld.FRAME_VG_CFG_MODE g) = 1 then 2 else 4) * q32

/-- A block begins at a position (R145): its scales are latched (R157, R197); `fresh` where nothing contiguous precedes it. -/
def Dev.blockBegin (s : Dev) (g : Nat) (pos : Int) (fresh : Bool) : Dev :=
  let s1 := if fresh then (s.workers g).foldl (fun (t : Dev) w => t.joinAt g w pos true) s else s
  let s2 := s1.trkUpd g fun t => { t with blockStart := some pos, blockSc := (List.range 208).map s.scaleOf, fresh := fresh }
  (s2.workers g).foldl (fun (t : Dev) w => t.lastShow g w (s.fixedStep g) none) s2

/-- A block starts at the next frame. -/
def Dev.blockNext (s : Dev) (g : Nat) : Dev := s.blockBegin g ((s.fe.nextSeq : Int) * q32) true

/-- A block of a fixed-rate group from its start to a position commits directly, and the next one begins there; `short` where a GUN or a warning cuts it. -/
def Dev.blockClose (s : Dev) (g : Nat) (start pos : Int) (short : Bool) (f : Rec → Rec) : Dev :=
  let step := s.fixedStep g
  let n := (posDiff pos start / step).toNat
  let t := s.trk g
  let s1 := (s.workers g).foldl (fun (u : Dev) w => if (u.pacer w).joined then u else u.joinAt g w start false) s
  let s2 := if n = 0 then s1 else s1.trkUpd g fun k => { k with next := (k.next + 1) % 2 ^ 32 }
  let s3 := if n = 0 then s2
    else
      (s.workers g).foldl (fun (u : Dev) w =>
        let sp : Span := { cyc := t.next, start := start, step := step, n := n, nNom := n, set := coefSet (s.get (Fld.FRAME_VG_CFG_MODE g)) 0, fixed := true, fresh := t.fresh, broken := short, mt := u.posMt start, flags := { pf := u.inHoldup } }
        let work := u.workOf g w t.blockSc sp
        let u1 := (u.noteClamps w t.blockSc).lastShow g w step (lastPos start step n)
        let v := if w < 12 then u1 else u1.pqEval g start (work.recs.map fun e => (e.1, f e.2.1)) false false
        v.commitWork g w u.bill.bound t.next work pos f) s2
  s3.blockBegin g pos false

/-- FIXED_BLOCK_END: a block of 640 frames ends; the first block starts at the next frame. -/
def Dev.fixedEnd (s : Dev) (g : Nat) : Dev :=
  if s.fixedOn g && !(s.trk g).stopped && (s.trk g).job.isNone then
    match (s.trk g).blockStart with
    | none => s.blockNext g
    | some p => (s.blockClose g p (posWrap (p + 640 * q32)) false id).boundaryHooks g
  else s

/-! ### GUN in the stream, and the close sample -/

/-- A line-locked group at a GUN's frame (R125): it closes its cycle; one that still waits for the settle of an earlier GUN waits for this one's. -/
def Dev.gunGrp (s : Dev) (g : Nat) (pos : Int) : Dev :=
  let restart := posWrap (pos + 48 * q32)
  match (s.trk g).strides, (s.trk g).restartAt with
  | [], some (_, true) => s.trkUpd g fun k => { k with restartAt := some (restart, true) }
  | _, _ => (((s.withdraw g fun e => e.code / 64 == Pg.PQE).settleTo g pos fun e => !(s.workers g).any fun w => (s.pacer w).replay.isSome && workEvent w e).withdraw g fun _ => true).partialGrp g pos restart

/-- The frame after a GUN reaches the Pacers (R125, R145). -/
def Dev.gunFrame (s : Dev) (seq : Nat) : Dev :=
  let pos : Int := (seq : Int) * q32
  forN 4 s fun t g =>
    if t.fixedOn g then
      match (t.trk g).blockStart with
      | some p => t.blockClose g p pos true fun r => { r with gun := true }
      | none => t
    else if 2 ≤ t.trkState g then t.gunGrp g pos
    else t

/-- The close sample: the first 32 ksps sample at the balls after now (R57 step 4), the newest released frame having been there the delay of R119 ago. -/
def Dev.closePos (s : Dev) : Int :=
  let late := match s.fe.ring with | f :: _ => (s.mt - f.mt + ballsDelay) / 768 + 1 | [] => ballsDelay / 768 + 1
  posWrap ((s.newestSeq + late : Nat) * q32)

/-- A Pacer's replay is abandoned (R60): nothing of it awaits a decision, and it is on the live stream. -/
def Dev.replayDrop (s : Dev) (w : Nat) : Dev :=
  let was := (s.pacer w).replay.isSome
  (s.pacerUpd w fun q => { q with spec := none, saved := none, replay := none, attempt := 0, todo := [], behind := q.behind && !was }).onPacer w fun u =>
    let v := ((u.specNone w).set (Fld.PACER_LAST_STAT_REPLAY w) 0).set (Fld.PACER_REC_STAT_ATTEMPT w) 0
    if was then v.set (Fld.PACER_REC_STAT_BEHIND w) 0 else v

/-- A line-locked group stops framing at the close sample and goes on from it: its undecided strides are discarded, its replays abandoned (R57, R60), and the partial record waits for the frames it needs. A Pacer whose replay is abandoned takes that cycle's number, every other the oldest undecided one (R151). -/
def Dev.pfMarkGrp (s : Dev) (g : Nat) (pos : Int) : Dev :=
  let p := s.partialPlan g
  let nums := (s.workers g).filterMap fun w => (s.pacer w).replay.map fun r => (w, r.1.cyc, r.1.fresh)
  let used := (s.workers g).any (s.takesPart pos)
  let s1 := s.trkUpd g fun k => { k with strides := [], next := if used then (p.cyc + 1) % 2 ^ 32 else p.cyc, boundary := p.bound, restartAt := some (pos, false), lastMeas := none, job := some ⟨pos, p, nums⟩ }
  if (s.trk g).job.isSome then s else ((s.workers g).foldl Dev.replayDrop s1).recShow g

/-- Every group closes at a power-fail warning's close sample (R57 step 4): speculative work is withdrawn. -/
def Dev.pfMark (s : Dev) : Dev :=
  let pos := s.closePos
  forN 4 s fun t g =>
    if (t.trk g).stopped then t
    else if t.fixedOn g then (if (t.trk g).blockStart.isSome then t.trkUpd g fun k => { k with job := some { pos := pos, plan := { cyc := k.next, period := 0 } } } else t)
    else if 2 ≤ t.trkState g then (t.withdraw g fun _ => true).pfMarkGrp g pos
    else t

/-- The partial records that wait are formed and posted: flagged PF_PARTIAL, and no holdup cycles (R57). -/
def Dev.pfForm (s : Dev) : Dev :=
  forN 4 s fun t g =>
    match (t.trk g).job with
    | none => t
    | some j =>
      let t1 := t.trkUpd g fun k => { k with job := none }
      if t1.fixedOn g then
        match (t1.trk g).blockStart with
        | some p => t1.blockClose g p j.pos true fun r => { r with pfPartial := true, pf := false }
        | none => t1
      else (t1.workers g).foldl (fun (u : Dev) w => u.partialOne g (match lookup j.nums w with | some k => { j.plan with cyc := k.1, fresh := k.2 } | none => j.plan) j.pos false w) t1

/-- Frames after a position that the Last's filter reaches from it (R142): 17 beyond the frame, and two for the most negative PHASE. -/
def filterTail : Int := 19

/-- The partial records of a warning are formed once the ring holds the frames they need. -/
def Dev.pfDue (s : Dev) : Dev :=
  if (List.range 4).any fun g => match (s.trk g).job with
    | some j => decide ((filterTail : Int) * q32 ≤ posDiff ((s.fe.nextSeq : Int) * q32) j.pos)
    | none => false
  then s.pfForm else s

end Sys2Proof.Machine
end

