-- ==== Sys2Proof/Machine/Tables.lean ====
section
/-! DEFINITION. Mladtu table images (R84–R87): the checks of a loading block in their order, the status register, and the temperature table's entries (R202, R203, R205). -/

namespace Sys2Proof.Machine

/-- What a load register takes (R85): type, entry size, table area, whether COUNT 0 is allowed, whether the load lacks an authentication it needs, and the content check. -/
structure TblSpec where
  type : Nat
  esize : Nat
  area : Nat
  emptyOk : Bool := true
  locked : Bool := false
  content : List Entry → Bool

/-- An image as it lies in memory: the header's fields and its entries. -/
structure TblImage where
  count : Nat
  version : Nat
  entries : List Entry

/-- The checks of R85 in their order: the reason of the first failure, or 0 and the image. -/
def tblCheck (mem : List Host.Cell) (addr : Nat) (k : TblSpec) : Nat × TblImage :=
  let h := Memory.readAll mem addr 16
  let ver := leAt h 6 2
  let count := leAt h 8 2
  let none : TblImage := ⟨0, 0, []⟩
  if leAt h 0 4 ≠ 0x4C425447 then (1, none)
  else if leAt h 4 2 ≠ k.type then (2, none)
  else if ver / 256 ≠ 1 then (3, none)
  else if leAt h 10 2 ≠ k.esize then (4, none)
  else if k.area < 16 + count * k.esize then (5, none)
  else if count = 0 ∧ ¬ k.emptyOk then (6, none)
  else
    let body := Memory.readAll mem (addr + 16) (count * k.esize)
    if crc32 (h.take 12 ++ body) ≠ leAt h 12 4 then (7, none)
    else
      let es := (List.range count).map fun i => slice body (i * k.esize) k.esize
      if !k.content es then (8, none)
      else if k.locked then (9, none)
      else (0, ⟨count, ver / 256, es⟩)

/-- TBL_STAT at `a` after a rejection: REASON and ERR; COUNT and VERSION stay those of the table in force (R87). -/
def Dev.tblReject (s : Dev) (a reason : Nat) : Dev := (s.set ⟨a, 7, 4⟩ reason).set ⟨a, 3, 3⟩ 1

/-- TBL_STAT at `a` when a table comes into force. -/
def Dev.tblShow (s : Dev) (a : Nat) (i : TblImage) : Dev := (s.set ⟨a, 31, 16⟩ i.count).set ⟨a, 15, 8⟩ i.version

/-- The TBL_STAT registers. -/
def tblStats : List Nat := [Reg.UCH_TBL_STAT, Reg.TARIFF_TBL_STAT, Reg.DISC_TBL_STAT, Reg.DISP_TBL_STAT, Reg.PLCPHY_TBL_STAT]

/-- TBL_STAT.LOADING: an image is being checked (R87). -/
def Dev.tblBusy (s : Dev) (a : Nat) : Bool := s.clk.loading.any fun e => e.stat == a

/-- A GO write of a load register: refused while LOADING (R205), else the check of the image begins. It ends after a free number of ticks, one at least, at the idle step that reaches its end (`State.idleStep`); the address and the authentication count as they are at GO (DESIGN CHOICE, log 95). -/
def Dev.tblGo (s : Dev) (l : TblLoad) : Dev :=
  if s.tblBusy l.stat then s.cfgErr (pageOf l.stat)
  else { s with clk := { s.clk with loading := s.clk.loading ++ [{ l with endMt := s.mt + 1 + Config.checkTicks s.free }] } }.tick

/-- A table address: 4-byte aligned, in the flash window of table images (R205). -/
def tblAddrOk (v : Word) : Bool := v.toNat % 4 == 0 && decide (0x60C00000 ≤ v.toNat) && decide (v.toNat ≤ 0x60FFEFFF)

/-- A load of a sealed page's table by master `m` lacks the owner authentication (R85 step 9). -/
def Dev.tblLocked (s : Dev) (p m : Nat) : Bool := sealPage p && s.isSealed && !s.session m

/-- Bytes at the given offsets are 0. -/
def zeroAt (e : Entry) (offs : List Nat) : Bool := offs.all fun i => leAt e i 1 == 0

/-! ### The temperature table -/

/-- An entry of R202. -/
def tempEntry (e : Entry) : TempEntry :=
  { block := leAt e 0 1, t := signedOf (leAt e 2 2) 16, gLg := signedOf (leAt e 4 4) 32, gHg := signedOf (leAt e 8 4) 32, dHg := signedOf (leAt e 12 2) 16, ph := signedOf (leAt e 14 2) 16 }

/-- Entries in order: BLOCK, then strictly increasing T. -/
def tempOrder : List TempEntry → Bool
  | a :: b :: r => (decide (a.block < b.block) || (a.block == b.block && decide (a.t < b.t))) && tempOrder (b :: r)
  | _ => true

/-- The content check of R203. -/
def tempContent (es : List Entry) : Bool :=
  let l := es.map tempEntry
  es.all (fun e => zeroAt e [1]) && tempOrder l
    && (List.range 13).all (fun b => let n := (l.filter fun e => e.block == b).length; n != 1 && decide (n ≤ 16))
    && l.all fun e => decide (e.block ≤ 12) && decide (e.gLg.natAbs ≤ 2 ^ 26) && decide (e.gHg.natAbs ≤ 2 ^ 26) && decide (e.dHg.natAbs ≤ 4096)
        && decide (e.ph.natAbs ≤ 8192) && (e.block != 12 || (e.gHg == 0 && e.dHg == 0))

/-- The check of the temperature table at `src` ends (R205): UCH raises no event for it. -/
def Dev.tempLoad (s : Dev) (mem : List Host.Cell) (src : Nat) (locked : Bool) : Dev :=
  let r := tblCheck mem src { type := 3, esize := 16, area := 4096, locked := locked, content := tempContent }
  if r.1 = 0 then { s.tblShow Reg.UCH_TBL_STAT r.2 with temps := r.2.entries.map tempEntry } else s.tblReject Reg.UCH_TBL_STAT r.1

/-- A write of UCH.TT_LOAD by master `m`. -/
def Dev.tempGo (s : Dev) (m : Nat) (v : Word) : Dev :=
  if bitAt v 0 then s.tblGo { stat := Reg.UCH_TBL_STAT, src := s.get Fld.UCH_TT_SRC_ADDR, locked := s.tblLocked Pg.UCH m } else s

def execTemperatureTableLoad (m : Nat) (v : Word) (s : State) : Out := wrAct m Reg.UCH_TT_LOAD v s fun d => d.tempGo m v

end Sys2Proof.Machine
end

