-- ==== Sys2Proof/Machine/Ldpc.lean ====
section
/-! DEFINITION. The LDPC code of IEEE 802.11n-2009 with blocks of 1944 bits, which codes frame control and payload on the powerline (R379, R381). PRESUMED (log 93): the spec names the code, and its tables are taken from that standard. -/

namespace Sys2Proof.Machine

/-! ### The tables: the cyclic shift of each 81 × 81 block of the information part, 81 for a block of zeros -/

def ldpcHalf : List (List Nat) :=
  [[57, 81, 81, 81, 50, 81, 11, 81, 50, 81, 79, 81],
   [3, 81, 28, 81, 0, 81, 81, 81, 55, 7, 81, 81],
   [30, 81, 81, 81, 24, 37, 81, 81, 56, 14, 81, 81],
   [62, 53, 81, 81, 53, 81, 81, 3, 35, 81, 81, 81],
   [40, 81, 81, 20, 66, 81, 81, 22, 28, 81, 81, 81],
   [0, 81, 81, 81, 8, 81, 42, 81, 50, 81, 81, 8],
   [69, 79, 79, 81, 81, 81, 56, 81, 52, 81, 81, 81],
   [65, 81, 81, 81, 38, 57, 81, 81, 72, 81, 27, 81],
   [64, 81, 81, 81, 14, 52, 81, 81, 30, 81, 81, 32],
   [81, 45, 81, 70, 0, 81, 81, 81, 77, 9, 81, 81],
   [2, 56, 81, 57, 35, 81, 81, 81, 81, 81, 12, 81],
   [24, 81, 61, 81, 60, 81, 81, 27, 51, 81, 81, 16]]

def ldpcTwoThirds : List (List Nat) :=
  [[61, 75, 4, 63, 56, 81, 81, 81, 81, 81, 81, 8, 81, 2, 17, 25],
   [56, 74, 77, 20, 81, 81, 81, 64, 24, 4, 67, 81, 7, 81, 81, 81],
   [28, 21, 68, 10, 7, 14, 65, 81, 81, 81, 23, 81, 81, 81, 75, 81],
   [48, 38, 43, 78, 76, 81, 81, 81, 81, 5, 36, 81, 15, 72, 81, 81],
   [40, 2, 53, 25, 81, 52, 62, 81, 20, 81, 81, 44, 81, 81, 81, 81],
   [69, 23, 64, 10, 22, 81, 21, 81, 81, 81, 81, 81, 68, 23, 29, 81],
   [12, 0, 68, 20, 55, 61, 81, 40, 81, 81, 81, 52, 81, 81, 81, 44],
   [58, 8, 34, 64, 78, 81, 81, 11, 78, 24, 81, 81, 81, 81, 81, 58]]

def ldpcThreeQuarters : List (List Nat) :=
  [[48, 29, 28, 39, 9, 61, 81, 81, 81, 63, 45, 80, 81, 81, 81, 37, 32, 22],
   [4, 49, 42, 48, 11, 30, 81, 81, 81, 49, 17, 41, 37, 15, 81, 54, 81, 81],
   [35, 76, 78, 51, 37, 35, 21, 81, 17, 64, 81, 81, 81, 59, 7, 81, 81, 32],
   [9, 65, 44, 9, 54, 56, 73, 34, 42, 81, 81, 81, 35, 81, 81, 81, 46, 39],
   [3, 62, 7, 80, 68, 26, 81, 80, 55, 81, 36, 81, 26, 81, 9, 81, 72, 81],
   [26, 75, 33, 21, 69, 59, 3, 38, 81, 81, 81, 35, 81, 62, 36, 26, 81, 81]]

def ldpcFiveSixths : List (List Nat) :=
  [[13, 48, 80, 66, 4, 74, 7, 30, 76, 52, 37, 60, 81, 49, 73, 31, 74, 73, 23, 81],
   [69, 63, 74, 56, 64, 77, 57, 65, 6, 16, 51, 81, 64, 81, 68, 9, 48, 62, 54, 27],
   [51, 15, 0, 80, 24, 25, 42, 54, 44, 71, 71, 9, 67, 35, 81, 58, 81, 29, 81, 53],
   [16, 29, 36, 41, 44, 56, 59, 37, 50, 24, 81, 65, 4, 65, 52, 81, 4, 81, 73, 52]]

/-- The table of a rate code: 0 1/2, 1 2/3, 2 3/4, 3 5/6 (R386). -/
def ldpcTable (rate : Nat) : List (List Nat) :=
  if rate = 0 then ldpcHalf else if rate = 1 then ldpcTwoThirds else if rate = 2 then ldpcThreeQuarters else ldpcFiveSixths

/-! ### Encoding -/

/-- Two runs of bits added bit by bit. -/
def xorBits (a b : List Bool) : List Bool := List.zipWith (fun x y => x != y) a b

/-- A block times the identity shifted cyclically by `n`. -/
def rotBits (n : Nat) (b : List Bool) : List Bool := b.drop n ++ b.take n

/-- A run of bits in blocks of 81. -/
def blocks81 : Nat → List Bool → List (List Bool)
  | 0, _ => []
  | n + 1, l => l.take 81 :: blocks81 n (l.drop 81)

/-- What the information blocks add to the check of one row. -/
def rowSum (row : List Nat) (u : List (List Bool)) : List Bool :=
  (List.zipWith (fun h b => (h, b)) row u).foldl (fun (acc : List Bool) e => if e.1 = 81 then acc else xorBits acc (rotBits e.1 e.2)) (List.replicate 81 false)

/-- Parity blocks after the first two: each is the one before it with its row's sum, and with the first at the middle row. -/
def parityTail (p0 : List Bool) (mid : Nat) : Nat → List Bool → List (List Bool) → List (List Bool)
  | _, _, [] => []
  | r, p, s :: rest =>
    let q := xorBits (xorBits s p) (if r = mid then p0 else List.replicate 81 false)
    q :: parityTail p0 mid (r + 1) q rest

/-- The parity bits of one block of information bits, whose number is that of the rate. -/
def ldpcParity (rate : Nat) (info : List Bool) : List Bool :=
  let t := ldpcTable rate
  let u := blocks81 (24 - t.length) info
  let sums := t.map fun row => rowSum row u
  let p0 := sums.foldl xorBits (List.replicate 81 false)
  match sums with
  | [] => []
  | s0 :: rest =>
    let p1 := xorBits s0 (rotBits 1 p0)
    p0 ++ p1 ++ (parityTail p0 (t.length / 2) 1 p1 rest.dropLast).flatten

/-- A codeword: the information bits, then the parity. -/
def ldpcEncode (rate : Nat) (info : List Bool) : List Bool := info ++ ldpcParity rate info

/-- A code block of a rate holds these information bits (R381). -/
def ldpcInfo (rate : Nat) : Nat := 81 * (24 - (ldpcTable rate).length)

/-- Bits filled with zeros up to a length. -/
def padTo (n : Nat) (l : List Bool) : List Bool := l ++ List.replicate (n - l.length) false

/-- Code blocks of a run of bits, the last filled with zeros, codeword after codeword (R381). -/
def ldpcBlocks (rate : Nat) : Nat → List Bool → List Bool
  | 0, _ => []
  | n + 1, l => ldpcEncode rate (padTo (ldpcInfo rate) (l.take (ldpcInfo rate))) ++ ldpcBlocks rate n (l.drop (ldpcInfo rate))

end Sys2Proof.Machine
end

