-- ==== Sys2Proof/Machine/Plc.lean ====
section
/-! DEFINITION. The Wilola powerline layer (R369–R399): carriers and the band plan, frame control and payload coding, neighbours and their phase, tone maps and their negotiation, the transmit queue. -/

namespace Sys2Proof.Machine

/-! ### Carriers and the code (R369–R374, R379–R381, R392) -/

/-- The carriers of the link, 100 to 1666. -/
def carriers : List Nat := (List.range 1567).map (· + 100)

/-- Pilot carriers: 100 + 32m (R369). -/
def isPilot (c : Nat) : Bool := (c - 100) % 32 == 0 && decide (c ≤ 100 + 32 * 48)

/-- A plan notches the carrier (R373). -/
def notched (plan : List (Nat × Nat)) (c : Nat) : Bool := plan.any fun r => decide (r.1 ≤ c) && decide (c ≤ r.2)

/-- The active data carriers of a plan, in order. -/
def dataCarriers (plan : List (Nat × Nat)) : List Nat := carriers.filter fun c => !isPilot c && !notched plan c

/-- The bits of P, first output first: the register x^7 + x^4 + 1 from a start value (R372). -/
def scramBits : Nat → Nat → List Bool
  | 0, _ => []
  | n + 1, r =>
    let b := natBit r 6 != natBit r 3
    b :: scramBits n ((2 * r + b.toNat) % 128)

/-- The sign of pilot m of symbol n: true is −1 (R372). -/
def pilotNeg (m n : Nat) : Bool := (scramBits 127 0x7F).getD ((m + 49 * n) % 127) false

/-- Payload bits, least significant first, scrambled under the frame's SEQ (R372). -/
def scramble (p : List Byte) (seq : Nat) : List Bool :=
  let bits := p.flatMap fun b => (List.range 8).map fun i => natBit b.toNat i
  List.zipWith (fun x y => x != y) bits (scramBits bits.length (seq % 127 + 1))

/-- Numerator and denominator of a code rate (R386). -/
def rateOf (r : Nat) : Nat × Nat := if r = 0 then (1, 2) else if r = 1 then (2, 3) else if r = 2 then (3, 4) else (5, 6)

/-- Information bits of a 1944-bit block (R381). -/
def rateK (r : Nat) : Nat := 1944 * (rateOf r).1 / (rateOf r).2

/-- Payload symbols of LEN units at a rate and bits per symbol (R381). -/
def payloadSyms (len rate nbits : Nat) : Nat :=
  let blocks := (len * 128 + rateK rate - 1) / rateK rate
  (blocks * 1944 + nbits - 1) / nbits

/-- The symbol and the place in it of coded bit j of a span of s symbols (R392). -/
def interleave (s j : Nat) : Nat × Nat := (j % s, j / s)

/-- Symbols in a span: SPAN ms of symbols of the guard interval's length (R369, R392). -/
def spanSyms (spanMs : Nat) (giLong : Bool) : Nat :=
  let n := if giLong then spanMs * 9000 / 625 else spanMs * 16
  if n = 0 then 1 else n

/-- Bits a code carries (R385). -/
def codeBits (c : Nat) : Nat := if c = 1 then 1 else if c = 2 then 2 else if c = 3 then 4 else if c = 4 then 6 else if c = 5 then 8 else if c = 6 then 10 else 0

/-! ### Frame control (R380) -/

structure FC where
  type : Nat
  tmi : Nat
  gi : Bool
  src : Nat
  dst : Nat
  enc : Bool
  ackreq : Bool
  retx : Nat
  len : Nat
  seq : Nat
  ntTx : Nat
  zcOfs : Nat
  planId : Nat
  deriving DecidableEq, Repr

/-- Read frame control from its 32 bytes. -/
def FC.ofBytes (b : List Byte) : FC :=
  let b0 := leAt b 0 1
  let d := leAt b 3 2
  { type := b0 % 16, tmi := b0 / 16 % 8, gi := natBit b0 7, src := leAt b 1 2 % 4096, dst := d % 4096, enc := natBit d 12, ackreq := natBit d 13, retx := d / 16384, len := leAt b 5 2 % 4096, seq := leAt b 7 1, ntTx := leAt b 8 4, zcOfs := leAt b 12 2, planId := leAt b 14 2 }

/-- Frame control's bytes, the CRC-16 sent high byte first (R244, R380). -/
def FC.bytes (f : FC) : List Byte :=
  let b := leBytes 1 (f.type + f.tmi * 16 + f.gi.toNat * 128) ++ leBytes 2 f.src ++
    leBytes 2 (f.dst + f.enc.toNat * 4096 + f.ackreq.toNat * 8192 + f.retx * 16384) ++ leBytes 2 f.len ++ leBytes 1 f.seq ++
    leBytes 4 f.ntTx ++ leBytes 2 f.zcOfs ++ leBytes 2 f.planId ++ List.replicate 14 0
  b ++ beBytes 2 (crc16 b)

/-! ### What goes on the line (R369–R372, R378, R379, R381, R390–R392) -/

/-- Bits of bytes in order, each byte least significant bit first (R372, R379). -/
def lineBits (l : List Byte) : List Bool := l.flatMap fun b => (List.range 8).map fun i => natBit b.toNat i

/-- The 1228 bits sent for frame control: its 256 bits and the parity of the rate-1/2 block they begin; the known zeros are not sent (R379). -/
def fcSent (fc : List Byte) : List Bool := lineBits fc ++ ldpcParity 0 (padTo 972 (lineBits fc))

/-- Carriers and their bits in one symbol. -/
abbrev Symbol := List (Nat × List Bool)

/-- Symbol `n` of the three of frame control: each active data carrier takes the next of the bits sent, which repeat cyclically (R379). -/
def fcSymbol (plan : List (Nat × Nat)) (fc : List Byte) (n : Nat) : Symbol :=
  let cs := dataCarriers plan
  let bits := fcSent fc
  cs.mapIdx fun i c => (c, [bits.getD ((n * cs.length + i) % bits.length) false])

/-- The pilots of symbol `n`, counted from the first of frame control: those that are active, true for −1 (R370, R372). -/
def pilotSymbol (plan : List (Nat × Nat)) (n : Nat) : Symbol :=
  (((List.range 49).map fun m => (m, 100 + 32 * m)).filter fun e => !notched plan e.2).map fun e => (e.2, [pilotNeg e.1 n])

/-- Carriers loaded in order with as many bits each as its code carries (R370, R385). -/
def fillCarriers : List (Nat × Nat) → List Bool → Symbol
  | [], _ => []
  | (c, k) :: r, l => (c, l.take k) :: fillCarriers r (l.drop k)

/-- One robust symbol: each bit on three active data carriers, a third of them apart (R381). -/
def robustSymbol (plan : List (Nat × Nat)) (l : List Bool) : Symbol :=
  let cs := dataCarriers plan
  let d := cs.length / 3
  (List.range 3).flatMap fun k => List.zipWith (fun c b => (c, [b])) ((cs.drop (k * d)).take d) l

/-- A run of `s` symbols of `nbits` under span interleaving: the bit at each place of each symbol is coded bit j of the span, j mod s the symbol and j / s the place (R392). -/
def spanSymbols (s nbits : Nat) (l : List Bool) : List (List Bool) :=
  (List.range s).map fun k => (List.range nbits).map fun i => l.getD (i * s + k) false

/-- Bits cut into symbols of `nbits`, in spans of `s` symbols; `n` symbols in all. -/
def spansOf (s nbits : Nat) : Nat → Nat → List Bool → List (List Bool)
  | 0, _, _ => []
  | fuel + 1, n, l => if n = 0 then [] else let k := min s n; spanSymbols k nbits l ++ spansOf s nbits fuel (n - k) (l.drop (k * nbits))

/-- The payload's symbols as runs of bits: scrambled, coded block by block, filled with zeros, and in code order under blanking (R372, R381, R392). -/
def payloadRuns (map : Option TMap) (robust seq : Nat) (p : List Byte) : List (List Bool) :=
  let rate := (map.map (·.rate)).getD 0
  let nbits := (map.map (·.nbits)).getD robust
  let blocks := (p.length * 8 + ldpcInfo rate - 1) / ldpcInfo rate
  let coded := ldpcBlocks rate blocks (scramble p seq)
  let n := (blocks * 1944 + nbits - 1) / nbits
  let s := match map with | some m => if m.noise then spanSyms m.span m.gi else 1 | none => 1
  spansOf s nbits n n (padTo (n * nbits) coded)

/-- The payload's symbols (R370, R381). -/
def payloadSymbols (plan : List (Nat × Nat)) (map : Option TMap) (seq : Nat) (p : List Byte) : List Symbol :=
  let runs := payloadRuns map ((dataCarriers plan).length / 3) seq p
  match map with
  | some m => runs.map fun r => fillCarriers ((List.zipWith (fun c k => (c, codeBits k)) carriers m.codes).filter fun e => e.2 != 0) r
  | none => runs.map (robustSymbol plan)

/-- Amplitude of a run of bits on one axis of a Gray-mapped constellation, the first bit the sign: −(2^n − 1) for all zeros (R370). -/
def grayLevel (l : List Bool) : Int :=
  let v := l.foldl (fun (a : Nat × Bool) b => let g := a.2 != b; (2 * a.1 + g.toNat, g)) (0, false)
  2 * (v.1 : Int) - (2 ^ l.length - 1 : Nat)

/-- The constellation point of a carrier's bits: BPSK on the first axis, else half of the bits on each (R370). -/
def qamPoint (l : List Bool) : Int × Int := if l.length = 1 then (grayLevel l, 0) else (grayLevel (l.take (l.length / 2)), grayLevel (l.drop (l.length / 2)))

/-- Phase of a carrier of the preamble's sync symbol, in 1/784 turn; none where it carries 0 (R371). -/
def preamblePhase (plan : List (Nat × Nat)) (c : Nat) : Option Nat :=
  let k := (c - 100) / 4
  if decide (100 ≤ c) && (c - 100) % 4 == 0 && decide (k ≤ 391) && !notched plan c then some (k * (k + 1) % 784) else none

/-- The preamble's eight periods of 1024 samples, each as carriers and their phases in 1/784 turn: six of Z, then two of −Z (R371). -/
def preamble (plan : List (Nat × Nat)) : List (List (Nat × Nat)) :=
  let z := carriers.filterMap fun c => (preamblePhase plan c).map fun f => (c, f)
  List.replicate 6 z ++ List.replicate 2 (z.map fun e => (e.1, (e.2 + 392) % 784))

/-- Symbol `n` of a SOUND's payload: two bits on every active data carrier (R380). The pattern is not given: free values. -/
def soundSymbol (plan : List (Nat × Nat)) (n : Nat) : Symbol := (dataCarriers plan).map fun c => (c, [Config.soundBit n c 0, Config.soundBit n c 1])

/-- Samples of a frame at 73.728 MS/s: preamble, three symbols of frame control, payload (R369, R378). -/
def frameSamples (syms : Nat) (gi : Bool) : Nat := 8192 + 3 * 5120 + syms * (if gi then 5120 else 4608)

/-- MT ticks of a number of samples: three samples each. -/
def sampleTicks (n : Nat) : Nat := (n + 2) / 3

/-- What is on the line for a frame: its preamble, and each symbol after it with its pilots (R378). -/
structure Line where
  preamble : List (List (Nat × Nat))
  symbols : List Symbol

/-- The line of frame control and payload symbols under a plan (R370, R378). -/
def lineOf (plan : List (Nat × Nat)) (fc : List Byte) (body : List Symbol) : Line :=
  { preamble := preamble plan, symbols := ((List.range 3).map (fcSymbol plan fc) ++ body).mapIdx fun n s => s ++ pilotSymbol plan n }

/-- The last frame put on the line (R378, R380, R381). -/
def Plc.line (p : Plc) : Line :=
  let fc := p.sent.1
  lineOf p.sentPlan fc (if (FC.ofBytes fc).type = 2 then (List.range 16).map (soundSymbol p.sentPlan) else payloadSymbols p.sentPlan p.sentMap (leAt fc 7 1) p.sent.2)

/-- The last ACK put on the line: preamble and frame control only (R383). -/
def Plc.ackLine (p : Plc) : Line := lineOf p.sentPlan p.ackFc []

/-- Frame control decodes and its CRC matches (R382 step 1). -/
def fcGood (rx : RxInfo) (b : List Byte) : Bool := rx.fcOk && b.length == 32 && ofBe (slice b 30 2) == crc16 (b.take 30)

/-- A payload padded to 16-byte units, its CRC-32 last (R381). -/
def withCrc (p : List Byte) : List Byte :=
  let n := (p.length + 4 + 15) / 16 * 16
  let q := p ++ List.replicate (n - 4 - p.length) 0
  q ++ leBytes 4 (crc32 q)

/-- The payload's CRC-32 matches. -/
def crcGood (p : List Byte) : Bool := decide (4 ≤ p.length) && crc32 (p.take (p.length - 4)) == ofLe (p.drop (p.length - 4))

/-! ### The line as received and driven (R376, R377, R393) -/

/-- 10^(−d/40) in 2^-32, for d below 40. -/
def snrTab : List Nat := [4294967296, 4054710589, 3827893632, 3613764616, 3411613790, 3220771105, 3040603991, 2870515268, 2709941160, 2558349426,
  2415237601, 2280131326, 2152582778, 2032169183, 1918491420, 1811172691, 1709857278, 1614209360, 1523911903, 1438665606,
  1358187913, 1282212071, 1210486252, 1142772712, 1078847007, 1018497251, 961523408, 907736631, 856958639, 809021124,
  763765191, 721040835, 680706443, 642628321, 606680256, 572743094, 540704347, 510457820, 481903257, 454946011]

/-- 10^((2k+1)/80) in 2^-32: from there on a sum of SNRs is nearer to k + 1 than to k quarters of a dB above the largest. -/
def snrSteps : List Nat := [4420382606, 4682306742, 4959750859, 5253634573, 5564931992, 5894674943, 6243956392, 6613934068, 7005834300, 7420956080,
  7860675372, 8326449670, 8819822831, 9342430189, 9896003980, 10482379080, 11103499089, 11761422772, 12458330885, 13196533399]

/-- The sum of SNRs in 0.25 dB, to the nearest (R377; assumption log 105); 0x8000, none, of no phase. -/
def snrSum : List Int → Int
  | [] => -0x8000
  | x :: r =>
    let top := r.foldl max x
    let sum := ((x :: r).map fun y => let d := (top - y).toNat; nth snrTab (d % 40) 0 / 10 ^ (d / 40)).sum
    top + (snrSteps.filter (· ≤ sum)).length

/-- A phase is received in a frame: RXMASK names it and its inputs did not saturate (R377). -/
def Dev.phaseHeard (s : Dev) (rx : RxInfo) (p : Nat) : Bool := natBit (s.get Fld.PLCPHY_CTRL_RXMASK) p && !natBit rx.sat p

/-- Some phase is received in a frame. -/
def Dev.lineHeard (s : Dev) (rx : RxInfo) : Bool := (List.range 3).any (s.phaseHeard rx)

/-- The combined SNR of the phases that are received, of their own SNRs (R377). -/
def Dev.combined (s : Dev) (rx : RxInfo) (l : List Int) : Int := snrSum (((List.range 3).filter (s.phaseHeard rx)).map fun p => nth l p (-0x8000))

/-- The mean SNR of a frame's pilots. -/
def Dev.pilotSnr (s : Dev) (rx : RxInfo) : Int := s.combined rx [rx.snrA, rx.snrB, rx.snrC]

/-- Ticks of MT in µs, truncated to whole ones. -/
def usTicks (us : Nat) : Nat := us * 3072 / 125

/-- A frame or an ACK is on the line at this instant (R376). -/
def Dev.plcSends (s : Dev) : Bool := decide (s.plc.txFrom ≤ s.mt) && decide (s.mt < s.plc.txTo)

/-- PLDEN is high: from LEAD µs before a frame to LAG µs after it (R376). -/
def Dev.pldenHigh (s : Dev) : Bool :=
  s.plc.txTo != 0 && decide (s.plc.txFrom ≤ s.mt + usTicks (s.get Fld.PLCPHY_CTRL_LEAD)) && decide (s.mt < s.plc.txTo + usTicks (s.get Fld.PLCPHY_CTRL_LAG))

/-- The pairs that COUPLE selects, bits A–C (R376). -/
def couplePairs (couple : Nat) : Nat := if couple = 3 then 7 else 2 ^ couple

/-- PLDEN and the pairs driven take their levels of this instant (R376). -/
def Dev.plcLevels (s : Dev) : Dev :=
  { s with pins := { s.pins with plden := s.pldenHigh, ptx := if s.pldenHigh then couplePairs s.plc.sentDrive.1 else 0 } }

/-- µs since the last crossing of the tracker of group PHREF at an MT, in 2^-32, within its present period; none out of LOCK (R393, R394). -/
def Dev.ownOfs (s : Dev) (mt : Nat) : Option Nat :=
  let g := s.get Fld.PLCMAC_CFG_PHREF
  let t := nth s.meter.trk g {}
  let p := t.ts * 125 / 4
  if s.get (Fld.FRAME_VG_STAT_STATE g) == 2 && decide (0 < p) then some ((((mt : Int) * q32 - s.posTicks (t.lastMeas.getD t.boundary)) * 125 / 3072) % p).toNat else none

/-- ZC_OFS of a frame that starts at an MT: to the nearest µs, 0xFFFF with PHEN 0 or out of LOCK (R393). -/
def Dev.zcAt (s : Dev) (mt : Nat) : Nat :=
  match s.ownOfs mt with
  | some o => if s.on Fld.PLCMAC_CFG_PHEN then satN 0xFFFF (roundDiv o (2 ^ 32)) else 0xFFFF
  | none => 0xFFFF

/-! ### Neighbours (R394, R395, R398) -/

/-- This node's short address. -/
def Dev.plcAddr (s : Dev) : Nat := s.get Fld.PLCMAC_CFG_ADDR

/-- A frame's DST is this node (R382 step 5); a node that waits for its JOIN_RESP is at address 0 as well (R400, R402). -/
def Dev.plcMine (s : Dev) (dst : Nat) : Bool := dst == s.plcAddr || (dst == 0 && s.get Fld.MESH_STAT_JOIN == 2)

/-- The neighbour entry of an address. -/
def Dev.nbFind (s : Dev) (a : Nat) : Option Nat :=
  (List.range 64).find? fun i => s.on (Fld.PLCMAC_NB_INFO_VALID i) && s.get (Fld.PLCMAC_NB_INFO_ADDR i) == a

/-- What the MAC keeps for entry `i`. -/
def Dev.nb (s : Dev) (i : Nat) : Nb := nth s.plc.nbs i {}

/-- Change what the MAC keeps for entry `i`. -/
def Dev.nbUpd (s : Dev) (i : Nat) (f : Nb → Nb) : Dev := { s with plc := { s.plc with nbs := updAt s.plc.nbs i f } }

/-- Seconds since entry `i` was last heard, saturating (NBi_HEARD). -/
def Dev.nbSilent (s : Dev) (i : Nat) : Nat := satN 0xFFFFFFFF ((s.mt - (s.nb i).heardMt) / 24576000)

/-- Bits per symbol in robust mode (R381). -/
def Dev.robustBits (s : Dev) : Nat := s.get Fld.PLCPHY_BP_INFO_NDATA / 3

/-- Acknowledged attempts and attempts of the last 32 (R388). -/
def Nb.acked (n : Nb) : Nat × Nat := ((n.acks.filter id).length, n.acks.length)

/-- Publish NBi_TM, NBi_RATE and the FER of NBi_LINK: the information rate of the transmit map times (1 − FER) (R398). -/
def Dev.nbRate (s : Dev) (i : Nat) : Dev :=
  let n := s.nb i
  let a := n.acked
  let ok := if a.2 = 0 then 1 else a.1
  let total := if a.2 = 0 then 1 else a.2
  let nd : Nat × Nat := match n.tx with
    | some m =>
      let r := rateOf m.rate
      if m.gi then (m.nbits * r.1 * 72 * ok, r.2 * 5 * total) else (m.nbits * r.1 * 16 * ok, r.2 * total)
    | none => (s.robustBits * 72 * ok, 10 * total)
  let kb := (freeDiv siteKbps nd.1 nd.2).toNat
  let s1 := (s.set (Fld.PLCMAC_NB_TM_TXTMI i) (match n.tx with | some m => m.tmi | none => 0)).set (Fld.PLCMAC_NB_TM_NBITS i) (match n.tx with | some m => m.nbits | none => s.robustBits)
  let s2 := s1.set (Fld.PLCMAC_NB_TM_RXTMI i) (match n.rx with | some m => m.tmi | none => 0)
  (s2.set (Fld.PLCMAC_NB_RATE_KBPS i) kb).set (Fld.PLCMAC_NB_LINK_FER i) (if a.2 = 0 then 0 else satN 255 ((a.2 - a.1) * 256 / a.2))

/-- Make entry `i` the entry of address `a`, empty. -/
def Dev.nbEnter (s : Dev) (i a : Nat) : Dev :=
  let s1 := (((s.set (Fld.PLCMAC_NB_INFO_VALID i) 1).set (Fld.PLCMAC_NB_INFO_ADDR i) a).set (Fld.PLCMAC_NB_INFO_PHASE i) 0).set (Fld.PLCMAC_NB_INFO_NPH i) 0
  ((s1.set (Fld.PLCMAC_NB_ANG_ANG i) 0).nbUpd i fun _ => { heardMt := s.mt }).nbRate i

/-! ### Routes (R407, R408) -/

/-- Unreachable (R407). -/
def unreachable : Nat := 0xFFFFFF

/-- The route held to a destination. -/
def Dev.route (s : Dev) (d : Nat) : Option Route := s.mesh.routes.find? fun r => r.dest == d

/-- Publish PARENT, ROOTMET and the number of routes (R417). -/
def Dev.meshPublish (s : Dev) : Dev :=
  let s1 := s.set Fld.MESH_ROUTES_N (satN 8191 s.mesh.routes.length)
  if s.on Fld.MESH_CFG_ROOT then ((s1.set Fld.MESH_STAT_PARENT 0).set Fld.MESH_ROOTMET_HOPS 0).set Fld.MESH_ROOTMET_METRIC 0
  else match s.route 1 with
    | some r => ((s1.set Fld.MESH_STAT_PARENT (if r.metric = unreachable then 0 else r.next)).set Fld.MESH_ROOTMET_HOPS r.hops).set Fld.MESH_ROOTMET_METRIC r.metric
    | none => ((s1.set Fld.MESH_STAT_PARENT 0).set Fld.MESH_ROOTMET_HOPS 0).set Fld.MESH_ROOTMET_METRIC unreachable

/-- Replace the route list and publish. -/
def Dev.setRoutes (s : Dev) (r : List Route) : Dev := { s with mesh := { s.mesh with routes := r } }.meshPublish

/-- The node is joined (R402). -/
def Dev.joined (s : Dev) : Bool := s.on Fld.MESH_CFG_EN && s.get Fld.MESH_STAT_JOIN == 3

/-- Add a frame to the queue. -/
def Dev.plcQueue (s : Dev) (f : TxFrame) : Dev := { s with plc := { s.plc with queue := s.plc.queue ++ [f] } }

/-- The mesh header, 16 bytes (R409). -/
def meshHeader (fdst osrc hops hoplim kind epoch plen fcnt : Nat) : List Byte :=
  leBytes 2 fdst ++ leBytes 2 osrc ++ leBytes 1 hops ++ leBytes 1 hoplim ++ leBytes 1 kind ++ leBytes 1 epoch ++ leBytes 2 plen ++ [0] ++ leBytes 5 fcnt

/-- Bytes queued for a next hop (R410). -/
def Dev.queuedFor (s : Dev) (a : Nat) : Nat := ((s.plc.queue.filter fun f => f.dst == a).map fun f => f.payload.length).sum

/-- A payload would exceed the 256 KB of a neighbour's queue (R410). -/
def Dev.queueFull (s : Dev) (dst : Nat) (payload : List Byte) : Bool := decide (262144 < s.queuedFor dst + payload.length)

/-- Queue a mesh payload for a next hop, encrypted at send time; a full queue drops it (R410, R416). -/
def Dev.meshQueue (s : Dev) (dst : Nat) (enc : Bool) (src : Nat) (payload : List Byte) : Dev :=
  if s.queueFull dst payload then s.bump Fld.MESH_CNT_BUF_NOBUF
  else s.plcQueue { type := 0, src := src, dst := dst, enc := enc, ackreq := dst != 0xFFF, payload := payload }

/-- Send a body to its final destination (R409, R410). -/
def Dev.meshSend (s : Dev) (kind fdst : Nat) (body : List Byte) : Dev :=
  let hdr (lim : Nat) := meshHeader fdst s.plcAddr 0 lim kind (s.get Fld.MESH_CFG_EPOCH) body.length 0
  if fdst = 0xFFF then s.meshQueue 0xFFF true s.plcAddr (hdr (if kind = 1 then 1 else s.get Fld.MESH_CFG_HOPLIM) ++ body)
  else match s.route fdst with
    | some r => if r.metric = unreachable then s.bump Fld.MESH_CNT_DROP_NOROUTE else s.meshQueue r.next true s.plcAddr (hdr (s.get Fld.MESH_CFG_HOPLIM) ++ body)
    | none => s.bump Fld.MESH_CNT_DROP_NOROUTE

/-- Entries as bytes: DEST, SEQ, METRIC, HOPS. -/
def advEntry (dest seq metric hops : Nat) : List Byte := leBytes 2 dest ++ leBytes 2 seq ++ leBytes 3 metric ++ leBytes 1 hops

/-- An advertisement body of entries. -/
def advBody (l : List (List Byte)) : List Byte := leBytes 2 l.length ++ l.flatten

/-- Split a list into runs of `n`. -/
def chunks {α : Type} (n : Nat) : Nat → List α → List (List α)
  | 0, _ => []
  | k + 1, l => if l.isEmpty then [] else l.take n :: chunks n k (l.drop n)

/-- Broadcast entries, over as many frames as they need. -/
def Dev.advSend (s : Dev) (es : List (List Byte)) : Dev :=
  (chunks 4091 (es.length + 1) es).foldl (fun t c => t.meshSend 1 0xFFF (advBody c)) s

/-- A triggered advertisement: the changed entries only, at most once per second (R407). -/
def Dev.advChanged (s : Dev) : Dev :=
  let ch := s.mesh.routes.filter (·.changed)
  if s.joined && !ch.isEmpty && s.mesh.advMt.all fun t => decide (t + usTicks 1000000 ≤ s.mt) then
    let s1 := s.advSend (ch.map fun r => advEntry r.dest r.seq r.metric r.hops)
    let s2 : Dev := { s1 with mesh := { s1.mesh with advMt := some s.mt } }
    s2.setRoutes (s2.mesh.routes.map fun r => { r with changed := false })
  else s

/-- Routes through a lost neighbour become unreachable, their SEQ odd, and are advertised at once; event 2 (R408). -/
def Dev.routesLost (s : Dev) (nbr : Nat) : Dev :=
  let hit : Route → Bool := fun r => r.next == nbr && r.metric != unreachable
  let n := (s.mesh.routes.filter hit).length
  let s1 := s.setRoutes (s.mesh.routes.map fun r => if hit r then { r with metric := unreachable, seq := (r.seq + 1) % 65536, changed := true } else r)
  let s2 := (List.range n).foldl (fun t _ => t.raise Pg.MESH 2) s1
  if n = 0 then s2 else s2.advChanged

/-! ### The neighbour table (R395) -/

/-- The receive map of frames that are arriving is replaced or has gone (R389). -/
def Dev.rxLose (s : Dev) (p : FC → Bool) : Dev :=
  { s with plc := { s.plc with arriving := s.plc.arriving.map fun a => { a with lost := a.lost || p (FC.ofBytes a.fc) } } }

/-- The neighbour of entry `i` leaves the table: event 7, its maps and the routes through it go (R395, R408). -/
def Dev.nbGone (s : Dev) (i : Nat) : Dev :=
  let a := s.get (Fld.PLCMAC_NB_INFO_ADDR i)
  ((((s.rxLose fun f => f.tmi != 0 && f.src == a).wr (Reg.PLCMAC_NB_INFO i) 0).nbUpd i fun _ => {}).raise Pg.PLCMAC 7).routesLost a

/-- The entry heard longest ago. -/
def Dev.nbOldest (s : Dev) : Nat :=
  (List.range 64).foldl (fun b i => if (s.nb i).heardMt < (s.nb b).heardMt then i else b) 0

/-- The sender's entry, entered if need be (R395): into a free entry, or in place of the one heard longest ago if it has been silent longer than AGE; otherwise counted in NB_FULL. -/
def Dev.nbHear (s : Dev) (a : Nat) : Option Nat × Dev :=
  if a = 0 ∨ a = 0xFFF ∨ a = s.plcAddr then (none, s)
  else match s.nbFind a with
    | some i => (some i, s.nbUpd i fun n => { n with heardMt := s.mt })
    | none =>
      match (List.range 64).find? fun i => !s.on (Fld.PLCMAC_NB_INFO_VALID i) with
      | some i => (some i, (s.nbEnter i a).raise Pg.PLCMAC 6)
      | none =>
        let o := s.nbOldest
        if s.get Fld.PLCMAC_NBCFG_AGE < s.nbSilent o then (some o, ((s.nbGone o).nbEnter o a).raise Pg.PLCMAC 6)
        else (none, s.bump Fld.PLCMAC_NB_FULL_N)

/-- NT in µs with its wraps at an MT: kept from MT at the corrected rate (R413). -/
def Dev.ntAt (s : Dev) (mt : Nat) : Nat :=
  let us : Int := ((mt - s.mesh.ntMt) * 125 / 3072 : Nat)
  ((s.mesh.nt : Int) + us * (2 ^ 23 + s.getI Fld.MESH_NT_RATE_RATE) / 2 ^ 23).toNat

/-- NT now. -/
def Dev.ntNow (s : Dev) : Nat := s.ntAt s.mt

/-- PHASE of a mean lead in 0.01° (R394): 1 0°, 2 120°, 3 240°, 4 AMBIG. -/
def phaseOf (ang : Nat) : Nat :=
  if ang ≤ 3000 ∨ 33000 ≤ ang then 1 else if 9000 ≤ ang ∧ ang ≤ 15000 then 2 else if 21000 ≤ ang ∧ ang ≤ 27000 then 3 else 4

/-- The lead of R394 in 0.01°, from the sender's offset in µs, the own one in 2^-32 µs and the period in 2^-32 frame. -/
def leadOf (zc own : Nat) (period : Int) : Nat :=
  let p := (period * 125 / 4).toNat
  if p = 0 then 0 else ((((zc : Int) * 2 ^ 32 - own) % (p : Int)).toNat * 36000) / p

/-- The circular mean of leads in 0.01° (R394). -/
def circMean (l : List Nat) : Nat :=
  (freeDiv siteMean (arg64 ((l.map fun a => cosTurn a 36000).sum) ((l.map fun a => sinTurn a 36000).sum) * 36000) (2 ^ 64) % 36000).toNat

/-- A phase value enters the mean of entry `i` (R394), of a frame that starts now. -/
def Dev.nbPhase (s : Dev) (i zc : Nat) : Dev :=
  match s.ownOfs s.mt with
  | none => s
  | some own =>
    if zc = 0xFFFF then s
    else
    let leads := (leadOf zc own (nth s.meter.trk (s.get Fld.PLCMAC_CFG_PHREF) {}).ts :: (s.nb i).leads).take 16
    let ang := circMean leads
    let ph := if leads.length < 4 then 0 else phaseOf ang
    let s1 := ((s.nbUpd i fun n => { n with leads := leads }).set (Fld.PLCMAC_NB_INFO_NPH i) leads.length).set (Fld.PLCMAC_NB_ANG_ANG i) ang
    if ph = s.get (Fld.PLCMAC_NB_INFO_PHASE i) then s1 else (s1.set (Fld.PLCMAC_NB_INFO_PHASE i) ph).raise Pg.PLCMAC 8

/-- SNRs of the last second (R388). -/
def Nb.recent (n : Nb) (mt : Nat) : List Int := (n.snrs.filter fun e => decide (mt < e.1 + 24576000)).map (·.2)

/-- The mean of the last second is below its value at installation by more than `drop` (R388). -/
def Nb.dropped (n : Nb) (mt drop : Nat) : Bool :=
  let l := n.recent mt
  match n.refSnr with
  | some r => n.rx.isSome && decide ((l.sum + (drop * l.length : Nat)) * r.2 < r.1 * l.length)
  | none => false

/-- The SNR of a frame from entry `i` enters the mean of the last second; a drop puts REFRESH into the next ACK (R388). -/
def Dev.nbSnr (s : Dev) (i : Nat) (snr : Int) : Dev :=
  let s1 := (s.setI (Fld.PLCMAC_NB_LINK_SNR i) snr).nbUpd i fun n => { n with snrs := (s.mt, snr) :: n.snrs.filter fun e => decide (s.mt < e.1 + 24576000) }
  if (s1.nb i).dropped s.mt (s.get Fld.PLCMAC_REFRESH_DROP) then s1.nbUpd i fun n => { n with askRefresh := true } else s1

/-- Frame control that passed step 1 updates the sender's entry: heard, SNR, phase (R382, R394, R398). -/
def Dev.nbFrame (s : Dev) (rx : RxInfo) (f : FC) : Dev :=
  match s.nbHear f.src with
  | (none, s1) => s1
  | (some i, s1) => (s1.nbSnr i (s.pilotSnr rx)).nbPhase i f.zcOfs

/-! ### Tone maps (R385–R388) -/

/-- The threshold of a code at a rate, 0.25 dB (R385). -/
def tmThreshold (code rate : Nat) : Int :=
  let base : Int := if code = 1 then 20 else if code = 2 then 32 else if code = 3 then 58 else if code = 4 then 82 else if code = 5 then 106 else 130
  base - (if rate = 3 then 0 else if rate = 2 then 4 else if rate = 1 then 8 else 14)

/-- The highest code a carrier's SNR allows (R385). -/
def codeFor (snr : Int) (rate margin : Nat) : Nat :=
  if tmThreshold 6 rate + 4 * margin ≤ snr then 6 else if tmThreshold 5 rate + 4 * margin ≤ snr then 5
  else if tmThreshold 4 rate + 4 * margin ≤ snr then 4 else if tmThreshold 3 rate + 4 * margin ≤ snr then 3
  else if tmThreshold 2 rate + 4 * margin ≤ snr then 2 else if tmThreshold 1 rate + 4 * margin ≤ snr then 1 else 0

/-- The map built from SNRs of carriers 100 to 1666 (R385, R386): all zeros if fewer than 32 data carriers load. -/
def Dev.buildMap (s : Dev) (tmi : Nat) (snrs : List Int) (spreadNs : Nat) : TMap :=
  let plan := s.plc.plan.getD []
  let rate := s.get Fld.PLCMAC_TM_CFG_RATE
  let codes := carriers.map fun c => if isPilot c || notched plan c then 0 else codeFor (snrs.getD (c - 100) (-1000)) rate (s.get Fld.PLCMAC_TM_CFG_MARGIN)
  let codes' := if (codes.filter (0 < ·)).length < 32 then List.replicate 1567 0 else codes
  { tmi := tmi, rate := rate, gi := s.on Fld.PLCMAC_TM_CFG_GILONG || decide (4000 < spreadNs), noise := s.on Fld.PLCMAC_TM_CFG_NOISE, kb := s.get Fld.PLCMAC_TM_CFG_KB, span := s.get Fld.PLCMAC_TM_CFG_SPAN, plan := s.get Fld.PLCPHY_BP_INFO_PLAN_ID, nbits := (codes'.map codeBits).sum, codes := codes' }

/-- Pack two codes a byte. -/
def packCodes : List Nat → List Byte
  | [] => []
  | [a] => [BitVec.ofNat 8 a]
  | a :: b :: r => BitVec.ofNat 8 (a + 16 * b) :: packCodes r

/-- A TONEMAP record (R386). -/
def TMap.bytes (m : TMap) : List Byte :=
  leBytes 1 m.tmi ++ leBytes 1 (m.rate + 4 * m.gi.toNat + 8 * m.noise.toNat) ++ leBytes 1 m.kb ++ leBytes 1 m.span ++ leBytes 2 m.plan ++ leBytes 2 m.nbits ++ packCodes m.codes

/-- Read a TONEMAP record. -/
def TMap.ofBytes (b : List Byte) : TMap :=
  let fl := leAt b 1 1
  { tmi := leAt b 0 1, rate := fl % 4, gi := natBit fl 2, noise := natBit fl 3, kb := leAt b 2 1, span := leAt b 3 1, plan := leAt b 4 2, nbits := leAt b 6 2, codes := ((slice b 8 784).flatMap fun x => [x.toNat % 16, x.toNat / 16]).take 1567 }

/-- A received map may be installed (R386): no code on a pilot or a notched carrier, none reserved, this node's plan, every field in range, and the unused high nibble 0. -/
def Dev.mapOk (s : Dev) (m : TMap) (raw : List Byte) : Bool :=
  let plan := s.plc.plan.getD []
  decide (1 ≤ m.tmi) && decide (m.tmi ≤ 7) && decide (8 ≤ m.kb) && decide (m.kb ≤ 31) && decide (1 ≤ m.span) && decide (m.span ≤ 20) &&
  decide (leAt raw 1 1 < 16) && m.plan == s.get Fld.PLCPHY_BP_INFO_PLAN_ID && m.nbits == (m.codes.map codeBits).sum &&
  decide (leAt raw 791 1 < 16) &&
  (List.zipWith (fun c k => decide (k ≤ 6) && (k == 0 || (!isPilot c && !notched plan c))) carriers m.codes).all id

/-! ### Transmission (R374, R376, R383, R384, R393) -/

/-- The power state lets the node transmit (R52, R57, R64): not QUIET, HOLDUP or SHUTDOWN TEST. -/
def Dev.plcStateOk (s : Dev) : Bool :=
  match s.power.st with
  | .start | .run | .rideThrough => true
  | _ => false

/-- The node may transmit now: Baton 0 running, enabled, TXEN, a plan in force. -/
def Dev.plcMayTx (s : Dev) : Bool :=
  s.plcStateOk && s.hart 2 && s.islRun Pg.PLCPHY && s.on (Hdr.EN Pg.PLCPHY) && s.on Fld.PLCPHY_CTRL_TXEN && s.plc.plan.isSome

/-- The node may receive: Baton 0 and the island running and enabled (R374: reception works without a plan). -/
def Dev.plcMayRx (s : Dev) : Bool := s.plcStateOk && s.hart 2 && s.islRun Pg.PLCPHY && s.on (Hdr.EN Pg.PLCPHY)

/-- Send an ACK or NAK of a frame that ends at an MT (R383): SIFS, 30 µs, after it, with no backoff, preamble and frame control only, from the address the frame was sent to; the node's own REFRESH request goes with it. -/
def Dev.plcAck (s : Dev) (f : FC) (endMt : Nat) (ok refresh : Bool) : Dev :=
  if s.plcMayTx then
    let dst := f.src
    let ask := match s.nbFind dst with | some i => (s.nb i).askRefresh | none => false
    let s1 := match s.nbFind dst with | some i => s.nbUpd i fun n => { n with askRefresh := false } | none => s
    let start := endMt + usTicks 30
    let fc : FC := { type := 1, tmi := 0, gi := true, src := if f.dst = 0xFFF then s.plcAddr else f.dst, dst := dst, enc := false, ackreq := false, retx := 0, len := ok.toNat + 2 * (refresh || ask).toNat, seq := f.seq, ntTx := s.ntAt start % 2 ^ 32, zcOfs := s.zcAt start, planId := s.get Fld.PLCPHY_BP_INFO_PLAN_ID }
    { s1 with plc := { s1.plc with ackSent := some (dst, f.seq, ok, refresh || ask), ackFc := fc.bytes, sentPlan := s.plc.plan.getD [], sentDrive := (s.get Fld.PLCPHY_CTRL_COUPLE, s.get Fld.PLCPHY_TXLVL_ATTEN), txFrom := start, txTo := start + sampleTicks (frameSamples 0 true) } }.plcLevels
  else s

/-- A negotiation begun here with entry `i` runs (R395): its SOUND waits, or the map may still come (assumption log 106). -/
def Dev.negotiates (s : Dev) (i : Nat) : Bool :=
  match (s.nb i).negEnd with
  | some e => decide (s.mt < e) || s.plc.queue.any fun f => f.type == 2 && f.dst == s.get (Fld.PLCMAC_NB_INFO_ADDR i)
  | none => false

/-- A refresh of the link to entry `i` starts with a SOUND frame (R387, R388); a second trigger is absorbed. -/
def Dev.refreshStart (s : Dev) (i : Nat) : Dev :=
  if s.negotiates i then s
  else
    let s1 := s.tick.nbUpd i fun n => { n with negEnd := some (s.mt + Config.negTicks s.free) }
    (s1.plcQueue { type := 2, src := s.plcAddr, dst := s.get (Fld.PLCMAC_NB_INFO_ADDR i), enc := false, ackreq := false }).raise Pg.PLCMAC 5

/-- An attempt's result enters the FER of the link, which may trigger a refresh (R388). -/
def Dev.nbAttempt (s : Dev) (dst : Nat) (ok : Bool) : Dev :=
  match s.nbFind dst with
  | none => s
  | some i =>
    let s1 := (s.nbUpd i fun n => { n with acks := (ok :: n.acks).take 32 }).nbRate i
    let a := (s1.nb i).acked
    if a.2 = 32 ∧ s.get Fld.PLCMAC_REFRESH_FERPCT * 32 < (a.2 - a.1) * 100 then s1.refreshStart i else s1

/-- Discard every tone map: links fall back to robust mode until they are refreshed (R374, R395), and the refresh of each link starts (R388). -/
def Dev.mapsDrop (s : Dev) : Dev :=
  let s1 := (List.range 64).foldl (fun (t : Dev) i =>
    (t.nbUpd i fun n => { n with tx := none, rx := none, rxOld := none, refSnr := none, negEnd := none, txMt := none }).nbRate i) (s.rxLose fun f => f.tmi != 0)
  (List.range 64).foldl (fun (t : Dev) i => if t.on (Fld.PLCMAC_NB_INFO_VALID i) then t.refreshStart i else t) s1

/-- A band plan comes into force (R374). -/
def Dev.planApply (s : Dev) (plan : List (Nat × Nat)) (id : Nat) : Dev :=
  let s1 := { s with plc := { s.plc with plan := some plan, planNext := none } }
  (((s1.set Fld.PLCPHY_BP_INFO_PLAN_ID id).set Fld.PLCPHY_BP_INFO_NDATA (dataCarriers plan).length).set Fld.PLCPHY_STAT_NOPLAN 0).mapsDrop

/-- A plan accepted while a frame was in flight takes effect at its end (R374). -/
def Dev.planDue (s : Dev) : Dev :=
  match s.plc.planNext with
  | some (p, id) => if s.mt < s.plc.txTo then s else s.planApply p id
  | none => s

/-- The PLC island restarts (R395): maps discarded, SNR, FER and rate reset, ADDR, PHASE and ANG kept. -/
def Dev.plcRestart (s : Dev) : Dev :=
  ((List.range 64).foldl (fun (t : Dev) i => (t.nbUpd i fun n => { n with acks := [] }).set (Fld.PLCMAC_NB_LINK_SNR i) 0x8000) s).mapsDrop

/-- The link is aborted, as at a power-fail warning (R395): the frame in flight is not counted as an attempt, nothing more is received. -/
def Dev.plcAbort (s : Dev) : Dev :=
  let q := match s.plc.inflight with | some f => f :: s.plc.queue | none => s.plc.queue
  Dev.planDue { (s.set Fld.PLCPHY_STAT_PLDEN 0).set Fld.PLCPHY_STAT_TX 0 with plc := { s.plc with queue := q, inflight := none, txFrom := 0, txTo := 0, rxTo := 0, arriving := [] }, pins := { s.pins with plden := false, ptx := 0 } }

/-! ### Reception shared by every frame type (R382) -/

/-- The outcome of steps 1 to 5: the frame goes on, or it stopped here. -/
inductive RxStep where
  | stop (s : Dev)
  | go (s : Dev)

/-- PLCPHY counters a reception adds to, and the phases' SNR (R390, R396). -/
def Dev.phyStats (s : Dev) (rx : RxInfo) : Dev :=
  let s1 := s.set Fld.PLCPHY_BLANKED_N (satN 0xFFFFFFFF (s.get Fld.PLCPHY_BLANKED_N + rx.blanked))
  let s2 := s1.set Fld.PLCPHY_ERASED_N (satN 0xFFFFFFFF (s1.get Fld.PLCPHY_ERASED_N + rx.erased))
  (List.range rx.erased).foldl (fun t _ => t.raise Pg.PLCPHY 4) s2

/-- A receive map with TMI is held for SRC (R382 step 6, R387 step 5). -/
def Dev.rxMap (s : Dev) (src tmi : Nat) : Option TMap :=
  match s.nbFind src with
  | none => none
  | some i =>
    match (s.nb i).rx, (s.nb i).rxOld with
    | some m, o => if m.tmi = tmi then some m else (match o with | some k => if k.tmi = tmi then some k else none | none => none)
    | none, some k => if k.tmi = tmi then some k else none
    | none, none => none

/-- Payload symbols of a received frame and whether their guard interval is long: the map its TMI names, or robust mode (R380, R381). -/
def Dev.rxSyms (s : Dev) (f : FC) : Nat × Bool :=
  if f.type = 1 then (0, true)
  else if f.type = 2 then (16, true)
  else match if f.tmi = 0 then none else s.rxMap f.src f.tmi with
    | some m => (payloadSyms f.len m.rate m.nbits, m.gi)
    | none => (payloadSyms f.len 0 s.robustBits, true)

/-- A frame arrives: the line is busy until its end, and a phase that saturates shows in AGC_SAT (R377, R396). The command stands for the frame at its start (DEDUCED, log 94). -/
def Dev.rxBegin (s : Dev) (rx : RxInfo) (b : List Byte) : Dev :=
  let k := s.rxSyms (FC.ofBytes b)
  let s1 := { s with plc := { s.plc with rxTo := s.mt + sampleTicks (frameSamples k.1 k.2) } }
  if rx.sat &&& s.get Fld.PLCPHY_CTRL_RXMASK = 0 then s1 else s1.set Fld.PLCPHY_STAT_AGC_SAT 1

/-- Steps 1 to 5 of R382 for a frame of the given type. While the node transmits, its receiver ignores its inputs (R376). -/
def Dev.rxFrame (s0 : Dev) (rx : RxInfo) (b : List Byte) (ntDiscipline : Dev → FC → Dev) : RxStep :=
  if !s0.plcMayRx || s0.plcSends then .stop s0
  else
    let s := s0.rxBegin rx b
    let f := FC.ofBytes b
    if !s.lineHeard rx || !fcGood rx b then .stop ((s.bump Fld.PLCPHY_CNT_ERR_FCERR).raise Pg.PLCPHY 1)
    else
      let s1 := ntDiscipline ((s.raise Pg.PLCPHY 0).nbFrame rx f) f
      if 4 < f.type then .stop ((s1.bump Fld.PLCPHY_CNT_ERR_FCERR).raise Pg.PLCPHY 1)
      else if f.planId ≠ s1.get Fld.PLCPHY_BP_INFO_PLAN_ID then .stop (s1.bump Fld.PLCPHY_CNT_CRC_PLANERR)
      else if (f.type = 0 ∨ f.type = 3 ∨ f.type = 4) ∧ (f.len = 0 ∨ 2048 < f.len) then .stop ((s1.bump Fld.PLCPHY_CNT_ERR_LENERR).raise Pg.PLCPHY 3)
      else if !s1.plcMine f.dst && f.dst != 0xFFF then .stop s1
      else .go s1

/-- A phase's SNR of a good frame (R396). -/
def Dev.phaseSnr (s : Dev) (rx : RxInfo) (p : Nat) (f : Field) (snr : Int) : Dev := if s.phaseHeard rx p then s.setI f snr else s

/-- SNRA–C of a good frame (R396). -/
def Dev.phaseSnrs (s : Dev) (rx : RxInfo) : Dev :=
  ((s.phaseSnr rx 0 Fld.PLCPHY_SNRA_SNR rx.snrA).phaseSnr rx 1 Fld.PLCPHY_SNRB_SNR rx.snrB).phaseSnr rx 2 Fld.PLCPHY_SNRC_SNR rx.snrC

/-- The frame repeats the last one accepted from its sender (R384). -/
def Dev.repeats (s : Dev) (f : FC) : Bool := s.plc.lastSeq.contains (f.src, f.seq)

/-- A frame that ends at an MT is accepted: SNRA–C (R396), its SEQ (R384), and its ACK, if it asks for one (R383). -/
def Dev.accepted (s : Dev) (rx : RxInfo) (f : FC) (endMt : Nat) : Dev :=
  let s1 := s.phaseSnrs rx
  let s2 := { s1 with plc := { s1.plc with lastSeq := (f.src, f.seq) :: s1.plc.lastSeq.filter fun e => e.1 != f.src } }
  if f.ackreq then s2.plcAck f endMt true false else s2

/-- Step 6 of R382: the map that the payload came in is held, or a NAK goes out; the previous map of its sender ends with the first frame under the new one (R387 step 5). Under span interleaving the frame is held until its end (R389). -/
def Dev.rxArrive (s : Dev) (rx : RxInfo) (b p : List Byte) : RxStep :=
  let f := FC.ofBytes b
  if f.tmi = 0 then .go s
  else match s.rxMap f.src f.tmi, s.nbFind f.src with
    | some m, some i =>
      let s1 := if (s.nb i).rx.any fun k => k.tmi == f.tmi then s.nbUpd i fun n => { n with rxOld := none } else s
      if m.noise then .stop { s1 with plc := { s1.plc with arriving := s1.plc.arriving ++ [{ rx := rx, fc := b, payload := p, endMt := s1.plc.rxTo }] } } else .go s1
    | _, _ => .stop (s.plcAck f s.plc.rxTo false true)

/-- Step 7 of R382 for a frame that ends at an MT: the payload is good and accepted, or the frame stopped here. A repeated one is accepted again and not delivered (R384). -/
def Dev.rxPayload (s : Dev) (rx : RxInfo) (f : FC) (p : List Byte) (endMt : Nat) : RxStep :=
  let s0 := s.phyStats rx
  let good := rx.decoded && crcGood p && p.length == 16 * f.len
  let pass := fun (t : Dev) => if s.repeats f then RxStep.stop (t.accepted rx f endMt) else RxStep.go (t.accepted rx f endMt)
  if s0.injArmed Pg.PLCPHY 0 then
    let s1 := ((s0.injUse Pg.PLCPHY).bump Fld.PLCPHY_CNT_CRC_CRCERR).raiseInj Pg.PLCPHY 2 true (s0.injLive Pg.PLCPHY)
    if s0.injLive Pg.PLCPHY || !good then .stop s1 else pass s1
  else if good then pass s0
  else .stop ((s0.bump Fld.PLCPHY_CNT_CRC_CRCERR).raise Pg.PLCPHY 2)

/-- SOUND_FRAME: the receiver builds a map from the combined SNR of each carrier, of its phases' SNRs, and sends it (R377, R387 steps 2, 3). -/
def Dev.sound (s : Dev) (rx : RxInfo) (b : List Byte) (snrs : List (List Int)) (nt : Dev → FC → Dev) : Dev :=
  match s.rxFrame rx b nt with
  | .stop t => t
  | .go t =>
    let f := FC.ofBytes b
    if f.type ≠ 2 then t
    else
      let u := t.accepted rx f t.plc.rxTo
      match u.nbFind f.src with
      | none => u
      | some i =>
        let tmi := (u.nb i).nextTmi
        let m := u.buildMap tmi (snrs.map (u.combined rx)) rx.spreadNs
        (u.nbUpd i fun n => { n with nextTmi := tmi % 7 + 1 }).plcQueue { type := 3, src := u.plcAddr, dst := f.src, enc := false, ackreq := true, payload := m.bytes }

/-- A TONEMAP's payload: installed as the transmit map for its sender, or refused and counted (R386, R387 step 4); either ends the negotiation. -/
def Dev.tonemapPayload (s : Dev) (rx : RxInfo) (f : FC) (p : List Byte) (endMt : Nat) : Dev :=
  match s.rxPayload rx f p endMt with
  | .stop u => u
  | .go u =>
    match u.nbFind f.src with
    | none => u
    | some i =>
      let m := TMap.ofBytes p
      let u1 := u.nbUpd i fun n => { n with negEnd := none }
      if f.len < 50 ∨ ¬ u.mapOk m p then { u1 with plc := { u1.plc with mapRefused := (u1.plc.mapRefused + 1) % 2 ^ 32 } }
      else
        let zero := m.codes.all (· == 0)
        ((u1.nbUpd i fun n => { n with tx := if zero then none else some m, txMt := some u.mt }).nbRate i).raise Pg.PLCMAC 3

/-- TONEMAP_FRAME. -/
def Dev.tonemap (s : Dev) (rx : RxInfo) (b p : List Byte) (nt : Dev → FC → Dev) : Dev :=
  match s.rxFrame rx b nt with
  | .stop t => t
  | .go t =>
    let f := FC.ofBytes b
    if f.type ≠ 3 then t
    else match t.rxArrive rx b p with
      | .stop u => u
      | .go u => u.tonemapPayload rx f p u.plc.rxTo

/-- R installs its map once T has acknowledged it (R387 step 5). -/
def Dev.rxMapInstall (s : Dev) (i : Nat) (m : TMap) : Dev :=
  (((s.rxLose fun f => f.tmi != 0 && f.src == s.get (Fld.PLCMAC_NB_INFO_ADDR i)).nbUpd i fun n =>
    let l := n.recent s.mt
    { n with rx := some m, rxOld := n.rx, refSnr := if l.isEmpty then none else some (l.sum, l.length) }).nbRate i).raise Pg.PLCMAC 4

/-- RX_MAP_HOLD_EXPIRY: 100 ms after a new receive map, the previous one goes (R387 step 5). -/
def execRxMapHoldExpiry (i : Nat) (s : State) : Out :=
  mainAct s fun d =>
    if i < 64 then (d.rxLose fun f => f.src == d.get (Fld.PLCMAC_NB_INFO_ADDR i) && (d.nb i).rxOld.any fun m => m.tmi == f.tmi).nbUpd i fun n => { n with rxOld := none } else d

/-- TONEMAP_REFRESH_PERIOD: PERIOD seconds have passed since the map was installed (R388). -/
def execTonemapRefreshPeriod (i : Nat) (s : State) : Out :=
  mainAct s fun d => if i < 64 && (d.nb i).txMt.isSome then d.refreshStart i else d

end Sys2Proof.Machine
end

