-- ==== Sys2Proof/Machine/Tamper.lean ====
section
/-! DEFINITION. Tamper detection (R321–R326, R335, R337–R340): case switches, lace loops, qualification with its sticky flag and stamp, the erase, injection, and the ALARM_N level. -/

namespace Sys2Proof.Machine

/-- Source `n` is active: enabled and not fused off (R321). -/
def Dev.tampActive (s : Dev) (n : Nat) : Bool := natBit (s.get Fld.TAMP_EN_SRC) n && !natBit s.otp.fused n

/-- ALARM_N is released unless a tamper level (R326), an alarm level or a pulse holds it low (R360, R361). -/
def Dev.alarmLow (s : Dev) : Bool :=
  (s.on Fld.TAMP_CFG_ALARMN && s.get Fld.TAMP_STICKY_SRC % 256 != 0) ||
  s.rtc.level.any id ||
  s.rtc.pulse.any (fun e => decide (s.rtc.lin < e))

/-- Drive ALARM_N. -/
def Dev.driveAlarm (s : Dev) : Dev := { s with pins := { s.pins with alarmN := !s.alarmLow } }

/-- The event of source `n` (R340). -/
def tampEvent (n : Nat) : Nat := if n < 4 then 0 else if n < 8 then 1 else n - 5

/-- An event now, or owed until main power returns (R338). -/
def Dev.raiseOrOwe (s : Dev) (e : Event) (live : Bool) : Dev :=
  if s.mainOn then s.raiseEv { e with seq := s.newestSeq } live else { s with tamp := { s.tamp with owed := s.tamp.owed ++ [e] } }

/-- A physical tamper's event, with its journal entry (R335, R337): now, or from the flags when main power returns. -/
def Dev.tampTell (s : Dev) (e : Event) (live : Bool) : Dev :=
  if s.mainOn then (s.raiseEv { e with own := true, seq := s.newestSeq } live).journal e.code 0xFF e.inj false []
  else { s with tamp := { s.tamp with owed := s.tamp.owed ++ [{ e with own := true }] } }

/-- The session closes (R329): no master holds it. -/
def Dev.closeSession (s : Dev) : Dev :=
  if s.on Fld.SEC_STAT_SESSION then
    let t := ((s.set Fld.SEC_STAT_SESSION 0).set Fld.SEC_STAT_MASTER 0).raise Pg.SEC 2
    { t with sec := { t.sec with eraseTest := false } }
  else s

/-- Blow one fuse. -/
def Otp.blow (o : Otp) (n : Nat) : Otp :=
  if n < 16 then { o with fused := o.fused ||| 2 ^ n }
  else if n = 16 then { o with sealPerm := true }
  else { o with oroot := some (leBytes 32 (ofLe (o.oroot.getD []) ||| 2 ^ (n - 32))) }

/-- `n` of the fuses in progress are blown, and no more. -/
def Dev.fuseBlow (s : Dev) (n : Nat) : Dev := { s with otp := (s.sec.fusing.take n).foldl Otp.blow s.otp, sec := { s.sec with fusing := [] } }

/-- A power-fail warning, a reset or an erase stops programming after the bit in progress: how many bits are programmed by then is free, and the operation ends with STATE where some are not (R336; log 104). -/
def Dev.fuseStop (s : Dev) : Dev :=
  if s.sec.fusing.isEmpty then s
  else
    let n := Config.fuseBits s.free
    let s1 := s.tick.fuseBlow n
    if n < s.sec.fusing.length then { s1 with sec := { s1.sec with running := s1.sec.running.map fun (r : SecOp) => { r with reason := if r.reason = 0 then 9 else r.reason } } } else s1

/-- The erase (R335): owner key and main-domain keys gone, the session closed, a running operation ends with NOKEY, ERASED set, event 6. -/
def Dev.erase (s : Dev) : Dev :=
  let s1 := s.closeSession.fuseStop
  let s2 := { s1 with sec := { s1.sec with okey := none, tok := none, net := none, eraseTest := false, running := s1.sec.running.map fun (r : SecOp) => { r with reason := 4 } } }
  let s3 := { s2 with host := { s2.host with pinned := s2.host.pinned ||| (s2.get Fld.DBG_HALTED_HART &&& 0xFFF2) } }
  (s3.set Fld.TAMP_STICKY_ERASED 1).raiseOrOwe { code := evCode Pg.TAMP 6 } true

/-- A sticky flag and its stamp (R325): the first qualification's time in 2 s units, with its OSF mark. -/
def Dev.stick (s : Dev) (n : Nat) : Dev :=
  let s1 := s.set Fld.TAMP_STICKY_SRC (s.get Fld.TAMP_STICKY_SRC ||| 2 ^ n)
  if s.get (Fld.TAMP_STAMP_T n) = 0 then
    (s1.set (Fld.TAMP_STAMP_T n) (s.secs / 2)).set Fld.TAMP_STAMP_OSF_SRC (putBit (s.get Fld.TAMP_STAMP_OSF_SRC) n (s.on Fld.RTC_STAT_OSF))
  else s1

/-- Source `n` qualifies (R322–R325, R335). -/
def Dev.qualify (s : Dev) (n : Nat) : Dev :=
  let s1 := (s.stick n).driveAlarm.tampTell { code := evCode Pg.TAMP (tampEvent n), item := n } true
  if n < 8 ∧ natBit (s.get Fld.TAMP_ERASE_SRC) n then s1.erase else s1

/-- An injected qualification of source `n` (R337); an accepted ERASE_TEST lasts for one. -/
def Dev.qualifyInj (s : Dev) (n : Nat) (live : Bool) : Dev :=
  let e : Event := { code := evCode Pg.TAMP (tampEvent n), inj := true, item := n }
  let s0 := { s with sec := { s.sec with eraseTest := false } }
  if live then
    let s1 := (((s0.stick n).set Fld.TAMP_STICKY_INJ 1).driveAlarm).tampTell e true
    if s.sec.eraseTest && n < 8 && natBit (s.get Fld.TAMP_ERASE_SRC) n then s1.erase else s1
  else s0.tampTell e false

/-- A condition shown in TAMP.LIVE. -/
def Dev.tampLive (s : Dev) (n : Nat) (b : Bool) : Dev := s.set Fld.TAMP_LIVE_SRC (putBit (s.get Fld.TAMP_LIVE_SRC) n b)

/-- A level of CASEn is its tamper level (R322). -/
def Dev.caseBad (s : Dev) (n : Nat) (high : Bool) : Bool := high == natBit (s.get Fld.TAMP_CFG_CASE_POL) n

/-- CASE_TAMPER: CASEn has held a level for the filter time (R322). The tamper level qualifies; the other ends the condition that TAMP.LIVE shows. -/
def Dev.caseLevel (s : Dev) (n : Nat) (high : Bool) : Dev :=
  let s1 : Dev := { s with pins := { s.pins with case := putBit s.pins.case n high } }
  if !s.tampActive n then s1 else if s.caseBad n high then (s1.tampLive n true).qualify n else s1.tampLive n false

def execCaseTamper (level : CaseIn) (s : State) : Out := act s fun d => if d.power.bkpAlive ∧ level.n < 4 then d.caseLevel level.n level.high else d

/-! ### Lace loops (R323) -/

/-- One step of x^15 + x^14 + 1: the bit driven and the next register. -/
def lfsrStep (r : Nat) : Bool × Nat :=
  let b := natBit r 14 != natBit r 13
  (natBit r 14, (r * 2 + b.toNat) % 2 ^ 15)

/-- The next `n` bits, the first driven lowest, and the register after them. -/
def lfsrBits : Nat → Nat → Nat × Nat
  | 0, r => (0, r)
  | n + 1, r =>
    let st := lfsrStep r
    let t := lfsrBits n st.2
    (st.1.toNat + 2 * t.1, t.2)

/-- Mismatched bits of a burst. -/
def laceMiss (expected got : Nat) : Nat := popCount 16 (expected ^^^ got)

/-- Byte `l` of a per-loop register. -/
def laceByte (f : Field) (l : Nat) : Field := ⟨f.addr, 8 * l + 7, 8 * l⟩

/-- LACE_BURST: a burst on loop `n` read `bits` (R323); one that passes shows the loop sound in TAMP.LIVE. -/
def execLaceBurst (n bits : Nat) (s : State) : Out :=
  act s fun d =>
    if d.power.bkpAlive ∧ n < 4 ∧ d.tampActive (4 + n) then
      let r := lfsrBits 16 (nth d.tamp.lfsr n 1)
      let d1 := { d with tamp := { d.tamp with lfsr := setAt d.tamp.lfsr n r.2 } }
      let d2 := d1.set ⟨Reg.TAMP_LACE_STAT, 8 * n + 2, 8 * n + 2⟩ 1
      let miss := if d.injArmed Pg.TAMP (4 + n) then 16 else laceMiss r.1 bits
      if miss = 0 then d2.tampLive (4 + n) false
      else if miss = 1 then (d2.tampLive (4 + n) false).bump (laceByte Fld.TAMP_LACE_NOISE_LOOPS n)
      else { d2 with tamp := { d2.tamp with retry := setAt d2.tamp.retry n true } }
    else d

/-- LACE_RETRY: the retry burst, 2 ms after the failed one (R323): transient, or lasting with its kind. -/
def execLaceRetry (n bits : Nat) (s : State) : Out :=
  act s fun d =>
    if d.power.bkpAlive ∧ n < 4 ∧ d.tampActive (4 + n) ∧ nth d.tamp.retry n false then
      let r := lfsrBits 16 (nth d.tamp.lfsr n 1)
      let d1 := { d with tamp := { d.tamp with lfsr := setAt d.tamp.lfsr n r.2, retry := setAt d.tamp.retry n false } }
      if d.injArmed Pg.TAMP (4 + n) then (d1.injUse Pg.TAMP).qualifyInj (4 + n) (d.injLive Pg.TAMP)
      else if laceMiss r.1 bits ≤ 1 then
        let d2 := if laceMiss r.1 bits = 1 then d1.bump (laceByte Fld.TAMP_LACE_NOISE_LOOPS n) else d1
        ((d2.tampLive (4 + n) false).bump (laceByte Fld.TAMP_LACE_TRANS_LOOPS n)).raiseOrOwe { code := evCode Pg.TAMP 2, item := n } true
      else
        let kind := if bits % 65536 = 0 then 1 else if bits % 65536 = 65535 then 2 else 3
        ((d1.set ⟨Reg.TAMP_LACE_STAT, 8 * n + 1, 8 * n⟩ kind).tampLive (4 + n) true).qualify (4 + n)
    else d

/-! ### Clearing flags (R325, R331) -/

/-- Masters that may carry out privileged operations (R331). -/
def privMaster (m : Nat) : Bool := m == 0 || m == 16 || m == 17

/-- A fresh 15-bit seed for a loop; a seed of 0 is replaced by 1 (R323). -/
def Dev.reseed (s : Dev) (n : Nat) : Dev :=
  let r := Config.randNat s.free % 2 ^ 15
  { s.tick with tamp := { s.tamp with lfsr := setAt s.tamp.lfsr n (if r = 0 then 1 else r) } }

/-- Clear one named flag with its stamp. -/
def Dev.unstick (s : Dev) (n : Nat) : Dev :=
  let s1 := ((s.set Fld.TAMP_STICKY_SRC (putBit (s.get Fld.TAMP_STICKY_SRC) n false)).set (Fld.TAMP_STAMP_T n) 0).set
    Fld.TAMP_STAMP_OSF_SRC (putBit (s.get Fld.TAMP_STAMP_OSF_SRC) n false)
  if 4 ≤ n ∧ n < 8 then s1.reseed (n - 4) else s1

/-- A W1C write of TAMP.STICKY by master `m` (R325). -/
def Dev.stickyWrite (s : Dev) (m : Nat) (v : Word) : Dev :=
  if s.session m && privMaster m then
    let named := bitsOf v 10 0 &&& s.get Fld.TAMP_STICKY_SRC
    let live := s.get Fld.TAMP_LIVE_SRC
    let s1 := (List.range 11).foldl (fun t n => if natBit named n && !natBit live n then t.unstick n else t) s
    let s2 := if bitAt v 16 then s1.set Fld.TAMP_STICKY_ERASED 0 else s1
    let s3 := if bitAt v 17 then s2.set Fld.TAMP_STICKY_INJ 0 else s2
    let s4 := if (named &&& live) = 0 then s3 else s3.cfgErr Pg.TAMP
    if s3.get Fld.TAMP_STICKY_SRC = s.get Fld.TAMP_STICKY_SRC ∧ s3.get Fld.TAMP_STICKY_ERASED = s.get Fld.TAMP_STICKY_ERASED ∧ s3.get Fld.TAMP_STICKY_INJ = s.get Fld.TAMP_STICKY_INJ then s4
    else (s4.driveAlarm).raiseJ Pg.TAMP 7 0xFF false (leBytes 4 (v.toNat % 2 ^ 18))
  else s.lockErr Pg.TAMP

/-- A W1C write by master `m` of a stamp or of STAMP_OSF, which are sticky too (R4, R339). -/
def Dev.stampWrite (s : Dev) (m a : Nat) (v : Word) : Dev := if s.session m && privMaster m then s.wr a (s.rd a &&& ~~~v) else s.lockErr Pg.TAMP

/-- STICKY_CLEAR: the write, with the physical conditions present at that moment. -/
def execStickyClear (m : Nat) (v : Word) (present : Nat) (s : State) : Out :=
  wrAct m Reg.TAMP_STICKY v s fun d => (d.set Fld.TAMP_LIVE_SRC (d.get Fld.TAMP_LIVE_SRC / 256 * 256 + present % 256)).stickyWrite m v

/-- An accepted arm of a case detector: the comparator evaluates continuously, so its COUNT evaluations follow at once (R77, R322, R337). -/
def Dev.caseInject (s : Dev) : Dev :=
  let det := s.get (Hdr.INJ_DET Pg.TAMP)
  if s.on (Hdr.INJ_ARM Pg.TAMP) && decide (det < 4) then
    (List.range (s.get (Hdr.INJ_COUNT Pg.TAMP))).foldl (fun t _ => (t.injUse Pg.TAMP).qualifyInj det (s.injLive Pg.TAMP)) s
  else s

end Sys2Proof.Machine
end

