-- ==== Sys2Proof/Machine/Sec.lean ====
section
/-! DEFINITION. The key store and owner authentication (R327–R336, R341, R342): nonces, AUTH and sessions, the owner key, the seal, the token and network keys with their wrapped records, fuses, and the end of an operation. -/

namespace Sys2Proof.Machine

/-- The device-record key (R334). -/
def Otp.drecKey (o : Otp) : List Byte := hmac o.seed (ascii "DREC")

/-- `n` words from an address up, as little-endian bytes. -/
def Dev.wordBytes (s : Dev) (a n : Nat) : List Byte := (List.range n).flatMap fun i => leBytes 4 (s.rd (a + 4 * i)).toNat

/-- Clear `n` registers from an address up. -/
def Dev.clearWords (s : Dev) (a n : Nat) : Dev := (List.range n).foldl (fun t i => t.wr (a + 4 * i) 0) s

/-- `n` fresh random bytes, and the state that has drawn them. -/
def Dev.draw (s : Dev) (n : Nat) : List Byte × Dev :=
  ((List.range n).map fun i => Config.randByte (s.free + i), { s with free := s.free + n })

/-- NONCE_DRAW: a read of NONCE0 draws a fresh 128-bit nonce (R329). -/
def Dev.nonceDraw (s : Dev) : Dev :=
  let d := s.draw 16
  let s1 := { d.2 with sec := { d.2.sec with nonce := some d.1 } }
  (List.range 4).foldl (fun t i => t.set (Fld.SEC_NONCE_N i) (leAt d.1 (4 * i) 4)) s1

def execNonceDraw (_m : Nat) (s : State) : Out := mainAct s Dev.nonceDraw

/-- A SEC operation starts (R341): refused with CFGERR while another runs. -/
def Dev.secStart (s : Dev) (op : Nat) (v : Word) (f : Dev → Dev × Nat) : Dev :=
  s.keyedOp Pg.SEC 0xA9 v Fld.SEC_CMD_OP op fun t =>
    if t.on Fld.SEC_RESULT_BUSY then t.cfgErr Pg.SEC
    else
      let r := f t
      { r.1.set Fld.SEC_RESULT_BUSY 1 with sec := { r.1.sec with running := some ⟨op, r.2⟩ } }

/-- AUTH is locked out (R330): after five consecutive failures, 2^(FAILS − 5) s from the last one, up to 4096 s. -/
def Dev.lockedOut (s : Dev) : Bool :=
  decide (5 ≤ s.sec.fails) && decide (s.linAt s.mt % 32768 < s.sec.lockEnd)

/-- A failed AUTH with a count of failures: the lockout it begins, from now (R330). -/
def Dev.lockFrom (s : Dev) (fails : Nat) : Nat := if fails < 5 then 0 else s.linAt s.mt % 32768 + 32768 * 2 ^ satN 12 (fails - 5)

/-- The 25 bytes the MAC of AUTH covers (R329). -/
def Dev.authText (s : Dev) (m : Nat) (nonce : List Byte) : List Byte := nonce ++ s.otp.devid ++ [BitVec.ofNat 8 m]

/-- AUTH by master `m` (R329, R330): its reason and what it leaves. -/
def Dev.auth (s : Dev) (m : Nat) : Dev × Nat :=
  let used := { s with sec := { s.sec with nonce := none } }
  if s.lockedOut then (used.raise Pg.SEC 1, 3)
  else match s.sec.okey with
    | none => (used.raise Pg.SEC 1, 4)
    | some k =>
      let good := match s.sec.nonce with
        | some n => s.wordBytes (Reg.SEC_AUTH 0) 8 == hmac k (s.authText m n)
        | none => false
      if good then
        let t := if s.session m then used else used.closeSession
        ((({ t with sec := { t.sec with fails := 0, eraseTest := false } }.set Fld.SEC_STAT_SESSION 1).set Fld.SEC_STAT_MASTER m).raise Pg.SEC 0, 0)
      else
        ({ used with sec := { used.sec with fails := satN 255 (s.sec.fails + 1), lockEnd := s.lockFrom (satN 255 (s.sec.fails + 1)) } }.raise Pg.SEC 1, 2)

def execSecAuth (m : Nat) (v : Word) (s : State) : Out := wrAct m Reg.SEC_CMD v s fun d => d.secStart 1 v fun t => t.auth m

/-- CLOSE by master `m` (R329): from the holder alone. -/
def Dev.secClose (s : Dev) (m : Nat) : Dev × Nat :=
  if s.session m then (s.closeSession, 0) else if s.on Fld.SEC_STAT_SESSION then (s, 8) else (s, 1)

def execSecClose (m : Nat) (v : Word) (s : State) : Out := wrAct m Reg.SEC_CMD v s fun d => d.secStart 2 v fun t => t.secClose m

/-- The key written to KEYIN, 32 bytes. -/
def Dev.keyIn (s : Dev) : List Byte := s.wordBytes (Reg.SEC_KEYIN 0) 8

/-- The ticket of R332 verifies: PUB hashes to the owner root hash, and the signature covers DEVID, the current nonce and the new key's hash. -/
def Dev.ticketOk (s : Dev) (root : List Byte) : Bool :=
  let pub := s.wordBytes (Reg.SEC_PUB 0) 16
  sha256 pub == root &&
    (match s.sec.nonce with
     | some n => ecdsaVerify pub (s.wordBytes (Reg.SEC_TICKET 0) 16) (sha256 (s.otp.devid ++ n ++ sha256 s.keyIn))
     | none => false)

/-- The owner key goes in; events 3 to 6 are journalled (R342). -/
def Dev.putOwner (s : Dev) : Dev := { s with sec := { s.sec with okey := some s.keyIn } }.raiseJ Pg.SEC 3 0xFF false []

/-- INSTALL (R331, R332). -/
def Dev.secInstall (s : Dev) (m : Nat) : Dev × Nat :=
  let r : Dev × Nat :=
    if m != 16 && m != 17 then (s, 8)
    else match s.sec.okey, s.otp.oroot with
      | some _, _ => if s.session m then (s.putOwner, 0) else (s, 1)
      | none, none => (s.putOwner, 0)
      | none, some root => if s.ticketOk root then (s.putOwner, 0) else (s, 7)
  (r.1.clearWords (Reg.SEC_KEYIN 0) 8, r.2)

def execSecInstall (m : Nat) (v : Word) (s : State) : Out := wrAct m Reg.SEC_CMD v s fun d => d.secStart 3 v fun t => t.secInstall m

/-- An operation that needs the session of master `m` (R331). -/
def Dev.privileged (s : Dev) (m : Nat) (f : Dev → Dev × Nat) : Dev × Nat :=
  if !privMaster m then (s, 8) else if !s.session m then (s, 1) else f s

/-- Write a seal record into the copy that does not hold the newer SEQ (R334). -/
def Sec.putSeal (c : Sec) (isSealed : Bool) (tt tariff : Nat) : Sec :=
  match c.seal0, c.seal1 with
  | some a, some b =>
    if newer 32 b.seq a.seq then { c with seal0 := some ⟨isSealed, (b.seq + 1) % 2 ^ 32, tt, tariff⟩ }
    else { c with seal1 := some ⟨isSealed, (a.seq + 1) % 2 ^ 32, tt, tariff⟩ }
  | some a, none => { c with seal1 := some ⟨isSealed, (a.seq + 1) % 2 ^ 32, tt, tariff⟩ }
  | none, some b => { c with seal0 := some ⟨isSealed, (b.seq + 1) % 2 ^ 32, tt, tariff⟩ }
  | none, none => { c with seal0 := some ⟨isSealed, 1, tt, tariff⟩ }

/-- The valid record with the newer sequence (R334). -/
def Sec.sealInForce (c : Sec) : Option SealRec :=
  match c.seal0, c.seal1 with
  | some a, some b => some (if newer 32 b.seq a.seq then b else a)
  | some a, none => some a
  | none, b => b

/-- SEAL (R333). -/
def Dev.seal (s : Dev) : Dev × Nat :=
  let c := s.sec.putSeal true (s.get Fld.UCH_TT_SRC_ADDR) (s.get Fld.TARIFF_SRC_ADDR)
  (({ s with sec := c }.set Fld.SEC_SEAL_SEAL 1).raiseJ Pg.SEC 4 0xFF false [], 0)

def execSecSeal (m : Nat) (v : Word) (s : State) : Out := wrAct m Reg.SEC_CMD v s fun d => d.secStart 4 v fun t => t.privileged m Dev.seal

/-- UNSEAL (R333): refused with PERM once SEAL_PERM is blown; every billing point takes UNSEALED (R266). -/
def Dev.unseal (s : Dev) : Dev × Nat :=
  if s.otp.sealPerm then (s, 5)
  else
    let c := s.sec.putSeal false (s.get Fld.UCH_TT_SRC_ADDR) (s.get Fld.TARIFF_SRC_ADDR)
    let img := { s.bill.img with bp := s.bill.img.bp.map fun b => { b with flags := putBit b.flags 8 true } }
    (({ s with sec := c, bill := { s.bill with img := img } }.set Fld.SEC_SEAL_SEAL 0).raiseJ Pg.SEC 5 0xFF false [], 0)

def execSecUnseal (m : Nat) (v : Word) (s : State) : Out := wrAct m Reg.SEC_CMD v s fun d => d.secStart 5 v fun t => t.privileged m Dev.unseal

/-- The wrapping key (R328). -/
def Dev.wrapKey (s : Dev) (okey : List Byte) : List Byte := hmac okey (ascii "WRAP" ++ s.otp.devid)

/-- Wrap a key into its 64-byte record (R328). -/
def wrapRec (wk nonce key : List Byte) (slot : Nat) : List Byte :=
  let hdr : List Byte := [BitVec.ofNat 8 slot, 1, 0, 0]
  let ct := gcmCrypt wk nonce key
  nonce ++ ct ++ gcmTag wk nonce hdr ct ++ hdr

/-- The key of a record whose tag verifies for its slot (R328). -/
def unwrapRec (wk rcd : List Byte) (slot : Nat) : Option (List Byte) :=
  let hdr := slice rcd 60 4
  let ct := slice rcd 12 32
  let nonce := slice rcd 0 12
  if leAt hdr 0 2 = slot + 256 ∧ gcmTag wk nonce hdr ct = slice rcd 44 16 then some (gcmCrypt wk nonce ct) else none

/-- The node listens for beacons and forgets the candidates (R402). -/
def Dev.listen (s : Dev) : Dev := { s with mesh := { s.mesh with cands := [], asked := none } }.set Fld.MESH_STAT_JOIN 1

/-- Reloading a network key that was gone leads to a rejoin (R416). -/
def Dev.rejoin (s : Dev) (was : Option (List Byte)) : Dev := if was.isNone && s.on Fld.MESH_CFG_EN && !s.on Fld.MESH_CFG_ROOT then s.listen else s

/-- LOAD_TOKEN (slot 1) and LOAD_LINK (slot 2): load the key and wrap it (R328). -/
def Dev.loadKey (s : Dev) (slot : Nat) : Dev × Nat :=
  match s.sec.okey with
  | none => (s.clearWords (Reg.SEC_KEYIN 0) 8, 4)
  | some ok =>
    let d := s.draw 12
    let w := wrapRec (s.wrapKey ok) d.1 s.keyIn slot
    let c := if slot = 1 then { d.2.sec with tok := some s.keyIn, wrapTok := w } else { d.2.sec with net := some s.keyIn, wrapNet := w }
    let t := ({ d.2 with sec := c }.clearWords (Reg.SEC_KEYIN 0) 8).raise Pg.SEC 7
    (if slot = 1 then t else t.rejoin s.sec.net, 0)

def execSecLoadToken (m : Nat) (v : Word) (s : State) : Out := wrAct m Reg.SEC_CMD v s fun d => d.secStart 6 v fun t => t.privileged m fun u => u.loadKey 1

def execSecLoadLink (m : Nat) (v : Word) (s : State) : Out := wrAct m Reg.SEC_CMD v s fun d => d.secStart 7 v fun t => t.privileged m fun u => u.loadKey 2

/-- The fuse bits SEC.FUSE names, in order: sources 0–10, 16 SEAL_PERM, 32 + i bit i of the owner root hash (R336). -/
def Dev.fuseBits (s : Dev) : List Nat :=
  ((List.range 11).filter fun n => natBit (s.get Fld.SEC_FUSE_SRC) n) ++
  (if s.on Fld.SEC_FUSE_SEAL_PERM then [16] else []) ++
  (if s.on Fld.SEC_FUSE_OROOT then
    ((List.range 256).filter fun i => natBit (ofLe (sha256 (s.wordBytes (Reg.SEC_PUB 0) 16))) i).map (· + 32) else [])

/-- FUSE (R336): `failAt` bits program before one fails its read-back twice; a number past the last is success. The bits are programmed until the operation ends. -/
def Dev.fuse (s : Dev) (failAt : Nat) : Dev × Nat :=
  if s.get Fld.PWR_VSUP_MEAS_MV < 10000 then (s, 6)
  else if s.power.st = .holdup ∨ s.power.st = .shutdownTest then (s, 9)
  else if s.on Fld.SEC_FUSE_OROOT && s.otp.oroot.isSome then (s, 10)
  else
    let bits := s.fuseBits
    ({ s with sec := { s.sec with fusing := bits.take failAt } }, if failAt < bits.length then 11 else 0)

/-- FUSE ends: what was left is programmed; a success is SEC event 6, journalled (R336, R342). -/
def Dev.fuseEnd (s : Dev) (r : SecOp) : Dev :=
  let s1 := s.fuseBlow s.sec.fusing.length
  if r.op = 8 ∧ r.reason = 0 then s1.raiseJ Pg.SEC 6 0xFF false [] else s1

def execSecFuse (m : Nat) (v : Word) (failAt : Nat) (s : State) : Out :=
  wrAct m Reg.SEC_CMD v s fun d => d.secStart 8 v fun t => t.privileged m fun u => u.fuse failAt

/-- ERASE_TEST (R337): one erase injection is allowed in this session. -/
def Dev.allowErase (s : Dev) : Dev × Nat := ({ s with sec := { s.sec with eraseTest := true } }, 0)

def execSecEraseTest (m : Nat) (v : Word) (s : State) : Out :=
  wrAct m Reg.SEC_CMD v s fun d => d.secStart 9 v fun t => t.privileged m Dev.allowErase

/-- A write of SEC.CMD whatever its OP; one that names no operation is refused (R341). -/
def Dev.secCmd (s : Dev) (m : Nat) (v : Word) (failAt : Nat) : Dev :=
  let op := bitsOf v 3 0
  if op = 1 then s.secStart 1 v fun t => t.auth m
  else if op = 2 then s.secStart 2 v fun t => t.secClose m
  else if op = 3 then s.secStart 3 v fun t => t.secInstall m
  else if op = 4 then s.secStart 4 v fun t => t.privileged m Dev.seal
  else if op = 5 then s.secStart 5 v fun t => t.privileged m Dev.unseal
  else if op = 6 then s.secStart 6 v fun t => t.privileged m fun u => u.loadKey 1
  else if op = 7 then s.secStart 7 v fun t => t.privileged m fun u => u.loadKey 2
  else if op = 8 then s.secStart 8 v fun t => t.privileged m fun u => u.fuse failAt
  else if op = 9 then s.secStart 9 v fun t => t.privileged m Dev.allowErase
  else s.keyed Pg.SEC 0xA9 v fun t => t.cfgErr Pg.SEC

/-- SESSION_EXPIRY: TTL seconds since the last privileged operation (R329). -/
def execSessionExpiry (s : State) : Out := mainAct s Dev.closeSession

/-- SEC_OPERATION_ENDED: RESULT is written, BUSY and KEYIN clear, event 9 (R341). -/
def execSecOperationEnded (s : State) : Out :=
  mainAct s fun d =>
    match d.sec.running with
    | none => d
    | some r =>
      let e := d.fuseEnd r
      ((((({ e with sec := { e.sec with running := none } }.clearWords (Reg.SEC_KEYIN 0) 8).set Fld.SEC_RESULT_BUSY 0).set Fld.SEC_RESULT_DONE 1).set
        Fld.SEC_RESULT_REASON r.reason).set Fld.SEC_RESULT_OP r.op).raise Pg.SEC 9

/-- Step 5 of R334: unwrap each record whose tag verifies; a record in use that fails raises event 8 and SYS_ERR. -/
def Dev.unwrapOne (s : Dev) (slot : Nat) (rcd : List Byte) (okey : List Byte) : Dev :=
  match unwrapRec (s.wrapKey okey) rcd slot with
  | some k => { s with sec := if slot = 1 then { s.sec with tok := some k } else { s.sec with net := some k } }
  | none => if rcd.all (· == 0) then s else (s.raise Pg.SEC 8).raise Pg.SYS 2

/-- The boot ROM's unwrapping at start, once the owner key is present (R328). -/
def Dev.unwrapKeys (s : Dev) : Dev :=
  match s.sec.okey with
  | none => s
  | some k => (s.unwrapOne 1 s.sec.wrapTok k).unwrapOne 2 s.sec.wrapNet k

/-- Steps 1 to 4 of R334: the seal record in force, or sealed with SEALREC_BAD where neither copy is valid. -/
def Dev.bootSeal (s : Dev) : Dev :=
  match s.sec.sealInForce with
  | some r =>
    ((s.set Fld.SEC_SEAL_SEAL (r.isSealed || s.otp.sealPerm).toNat).set Fld.UCH_TT_SRC_ADDR r.tt).set Fld.TARIFF_SRC_ADDR r.tariff
  | none => (((s.set Fld.SEC_SEAL_SEAL 1).set Fld.SEC_STAT_SEALREC_BAD 1).raise Pg.SEC 8).raise Pg.SYS 2

end Sys2Proof.Machine
end

