-- ==== Sys2Proof/Machine/Mesh.lean ====
section
/-! DEFINITION. The mesh (R400–R418): network time, link cost and routes, the mesh header with its link encryption and replay windows, joining and leaving, beacons and advertisements, and the frames of R378 as the MAC sends and receives them. -/

namespace Sys2Proof.Machine

/-! ### Network time (R413, R414) -/

/-- Load NT at the present MT. -/
def Dev.ntSetNow (s : Dev) (v : Nat) : Dev := { s with mesh := { s.mesh with nt := v, ntMt := s.mt } }

/-- NT's state. -/
def Dev.ntState (s : Dev) : Nat := s.get Fld.MESH_NT_STAT_STATE

/-- NT is lost (R414): UNSYNC with event 7; a rate measurement against it is void (R356). -/
def Dev.ntLose (s : Dev) : Dev :=
  if s.ntState = 0 then s
  else
    let s1 := (({ s with mesh := { s.mesh with within := 0 } }).set Fld.MESH_NT_STAT_STATE 0).raise Pg.MESH 7
    if s1.rtc.rate.any (fun r => r.src == 1) then s1.rateVoid else s1

/-- Offset, step and slew by one frame of the parent (R414). -/
def Dev.ntFrame (s : Dev) (f : FC) : Dev :=
  let e := serialDiff 32 f.ntTx s.ntNow
  let s0 := s.ntSetNow s.ntNow
  let s1 := s0.setI Fld.MESH_NT_STAT_OFS (clampI (-32768) 32767 e)
  if e < -1000 ∨ 1000 < e then
    let v := (s1.mesh.nt : Int) + e
    let s2 := s1.ntSetNow (if v < 0 then (v + 2 ^ 32).toNat else v.toNat)
    let s3 := ({ s2 with mesh := { s2.mesh with within := 0 } }.set Fld.MESH_NT_STAT_STATE 1).raise Pg.MESH 8
    if s3.rtc.rate.any (fun r => r.src == 1) then s3.rateVoid else s3
  else
    let rate := clampI (-4194) 4194 (Config.ntRate s1.free e (s1.getI Fld.MESH_NT_RATE_RATE))
    let n := if -4 ≤ e ∧ e ≤ 4 then s1.mesh.within + 1 else 0
    let s2 : Dev := { (s1.setI Fld.MESH_NT_RATE_RATE rate).tick with mesh := { s1.mesh with within := n } }
    if 4 ≤ n ∧ s2.ntState ≠ 2 then (s2.set Fld.MESH_NT_STAT_STATE 2).raise Pg.MESH 6
    else if s2.ntState = 0 then s2.set Fld.MESH_NT_STAT_STATE 1 else s2

/-! ### Routes (R406–R408) -/

/-- The cost of a link (R406). -/
def linkCost (kbps : Nat) : Nat :=
  if kbps = 0 then 65535
  else
    let c := roundDiv 4096000 kbps
    if c = 0 then 1 else satN 65535 c

/-- The cost of the link to an address. -/
def Dev.costTo (s : Dev) (a : Nat) : Nat :=
  match s.nbFind a with
  | some i => linkCost (s.get (Fld.PLCMAC_NB_RATE_KBPS i))
  | none => 65535

/-- One advertised entry from a neighbour (R407). -/
def Dev.routeEntry (s : Dev) (nbr dest seq metric hops : Nat) : Dev :=
  let m := if metric = unreachable then unreachable else satN unreachable (metric + s.costTo nbr)
  let h := satN 255 (hops + 1)
  if dest = s.plcAddr ∨ s.get Fld.MESH_CFG_HOPLIM < hops + 1 then s
  else match s.route dest with
    | none => (s.setRoutes (s.mesh.routes ++ [⟨dest, nbr, m, h, seq, true⟩])).raise Pg.MESH 0
    | some r =>
      if newer 16 seq r.seq ∨ (seq = r.seq ∧ (m < r.metric ∨ nbr = r.next)) then
        let ch := r.next != nbr || r.metric != m
        let s1 := s.setRoutes (s.mesh.routes.map fun q => if q.dest == dest then ⟨dest, nbr, m, h, seq, q.changed || ch⟩ else q)
        if ch then s1.raise Pg.MESH 1 else s1
      else s

/-! ### Keys and the mesh header (R409, R411, R412) -/

/-- The key of the link between two addresses, or the broadcast and beacon key (R411). -/
def Dev.linkKey (s : Dev) (net : List Byte) (a b : Nat) : List Byte :=
  let ep := leBytes 1 (s.get Fld.MESH_CFG_EPOCH)
  if a = 0xFFF ∨ b = 0xFFF then hmac net (ascii "BCST" ++ leBytes 2 (s.get Fld.MESH_NETID_ID) ++ ep)
  else hmac net (ascii "LINK" ++ leBytes 2 (if a < b then a else b) ++ leBytes 2 (if a < b then b else a) ++ ep)

/-- The GCM nonce of a frame (R411). -/
def meshNonce (src dst fcnt epoch : Nat) : List Byte := leBytes 2 src ++ leBytes 2 dst ++ leBytes 5 fcnt ++ leBytes 1 epoch ++ [0, 0]

/-- The next frame counter: START × 2^24 + n; an overflow of n raises START (R411). -/
def Dev.fcntNext (s : Dev) : Nat × Dev :=
  let n := s.mesh.n
  let s1 := if n + 1 = 2 ^ 24 then { s with mesh := { s.mesh with n := 0, start := (s.mesh.start + 1) % 65536 } } else { s with mesh := { s.mesh with n := n + 1 } }
  (s.mesh.start * 2 ^ 24 + n, s1)

/-- A security discard (R412): counted, event 10. -/
def Dev.authFail (s : Dev) : Dev := (s.bump Fld.MESH_CNT_SEC_AUTHFAIL).raise Pg.MESH 10

/-- The clear header and body of an encrypted payload, or none where EPOCH differs or the tag fails. -/
def Dev.meshOpen (s : Dev) (f : FC) (p : List Byte) : Option (List Byte × List Byte) :=
  match s.sec.net with
  | none => none
  | some net =>
    let hdr := slice p 0 16
    let plen := leAt hdr 8 2
    let ct := slice p 16 plen
    let key := s.linkKey net f.src f.dst
    let nonce := meshNonce f.src f.dst (leAt hdr 11 5) (leAt hdr 7 1)
    if leAt hdr 7 1 = s.get Fld.MESH_CFG_EPOCH ∧ gcmTag key nonce hdr ct = slice p (16 + plen) 16 then some (hdr, gcmCrypt key nonce ct) else none

/-- The replay window of the sender (R412): accepted, or not. A sender that no entry holds (R395) has none, and none of its frames is a replay. -/
def Dev.replayOk (s : Dev) (src fcnt : Nat) : Option Dev :=
  match s.nbFind src with
  | none => some s
  | some i =>
    let n := s.nb i
    (windowAccept n.fcAny n.fcHigh n.fcMask fcnt).map fun w => s.nbUpd i fun n => { n with fcAny := true, fcHigh := w.1, fcMask := w.2 }

/-! ### Advertisements (R407) -/

/-- A full advertisement: the own sequence rises by 2, then every route held (R407). -/
def Dev.advFull (s : Dev) : Dev :=
  let q := (s.get Fld.MESH_ROUTES_SEQ + 2) % 65536
  let s1 := s.set Fld.MESH_ROUTES_SEQ q
  let s2 := s1.advSend (advEntry s.plcAddr q 0 0 :: s.mesh.routes.map fun r => advEntry r.dest r.seq r.metric r.hops)
  s2.setRoutes (s2.mesh.routes.map fun r => { r with changed := false })

/-- ADVERTISEMENT_TIMER: ADV seconds have passed (R407). -/
def execAdvertisementTimer (s : State) : Out := mainAct s fun d => if d.joined then d.advFull else d

/-- TRIGGERED_ADVERTISEMENT: the changed entries only (R407). -/
def execTriggeredAdvertisement (s : State) : Out := mainAct s fun d => d.advChanged

/-- An advertisement from a neighbour (R407). -/
def Dev.adv (s : Dev) (nbr : Nat) (body : List Byte) : Dev :=
  (List.range (satN ((body.length - 2) / 8) (leAt body 0 2))).foldl (fun t k =>
    let o := 2 + 8 * k
    t.routeEntry nbr (leAt body o 2 % 4096) (leAt body (o + 2) 2) (leAt body (o + 4) 3) (leAt body (o + 7) 1)) s

def execAdvMsg (nbr : Nat) (body : List Byte) (s : State) : Out := mainAct s fun d => if d.joined then d.adv nbr body else d

/-- ROUTE_EXPIRY: not refreshed, or held unreachable, for 3 × ADV seconds (R408). -/
def execRouteExpiry (dest : Nat) (s : State) : Out :=
  mainAct s fun d => d.setRoutes (d.mesh.routes.filter fun r => r.dest != dest)

/-- ROUTE_QUERY: a write of MESH.RQ latches the result for DEST (R417). -/
def Dev.routeQuery (s : Dev) (v : Word) : Dev :=
  let dest := bitsOf v 11 0
  let s1 := s.set Fld.MESH_RQ_DEST dest
  match s.route dest with
  | some r => (((s1.set Fld.MESH_RQ_RES_VALID 1).set Fld.MESH_RQ_RES_NEXT r.next).set Fld.MESH_RQ_RES_HOPS r.hops).set Fld.MESH_RQ_MET_SEQ r.seq
  | none => (((s1.set Fld.MESH_RQ_RES_VALID 0).set Fld.MESH_RQ_RES_NEXT 0).set Fld.MESH_RQ_RES_HOPS 0).set Fld.MESH_RQ_MET_SEQ 0

def execRouteQuery (m : Nat) (v : Word) (s : State) : Out := wrAct m Reg.MESH_RQ v s fun d => d.routeQuery v

/-! ### Joining (R402–R405) -/

/-- The node becomes the root: address 1, joined, NT free-running (R400, R414). -/
def Dev.becomeRoot (s : Dev) : Dev :=
  ((((s.set Fld.PLCMAC_CFG_ADDR 1).set Fld.MESH_STAT_JOIN 3).set Fld.MESH_NT_STAT_STATE 4).meshPublish)

/-- Begin joining, or being root (R402, R414). -/
def Dev.meshStart (s : Dev) : Dev := if s.on Fld.MESH_CFG_ROOT then s.becomeRoot else s.listen

/-- A JOIN_REQ body (R403). -/
def joinReqBody (net devid bnonce : List Byte) (want : Nat) : List Byte :=
  devid ++ bnonce ++ leBytes 2 want ++ [0, 0] ++ (hmac net (ascii "JOIN" ++ devid ++ bnonce ++ leBytes 2 want)).take 16

/-- A JOIN_RESP body (R403). -/
def joinRespBody (net devid bnonce : List Byte) (addr epoch netid : Nat) : List Byte :=
  devid ++ bnonce ++ leBytes 2 addr ++ leBytes 1 epoch ++ [0] ++ leBytes 2 netid ++ List.replicate 8 0 ++
    (hmac net (ascii "JRSP" ++ devid ++ bnonce ++ leBytes 2 addr ++ leBytes 1 epoch ++ leBytes 2 netid)).take 16

/-- Send a frame to a joiner at address 0, or from one: unencrypted, to its neighbour (R402). -/
def Dev.joinFrame (s : Dev) (src dst kind : Nat) (body : List Byte) : Dev :=
  s.meshQueue dst false src (meshHeader dst src 0 (s.get Fld.MESH_CFG_HOPLIM) kind (s.get Fld.MESH_CFG_EPOCH) body.length 0 ++ body)

/-- The parent of the lowest METRIC plus link cost, the lower address in a tie (R402). -/
def Dev.bestParent (s : Dev) : Option Cand :=
  s.mesh.cands.foldl (fun (b : Option Cand) c =>
    match b with
    | none => some c
    | some q =>
      let mc := c.metric + s.costTo c.addr
      let mq := q.metric + s.costTo q.addr
      if mc < mq ∨ (mc = mq ∧ c.addr < q.addr) then some c else some q) none

/-- JOIN_LISTEN_END: choose a parent and send the request (R402); without a network key the node stays in LISTEN. -/
def Dev.joinRequest (s : Dev) : Dev :=
  if s.get Fld.MESH_STAT_JOIN ≠ 1 then s
  else match s.sec.net, s.bestParent with
    | some net, some c =>
      let want := if s.on Fld.MESH_CFG_STATIC && !s.mesh.wantAny then s.plcAddr else 0
      let s1 := { s with mesh := { s.mesh with asked := some c } }
      (s1.joinFrame 0 c.addr 2 (joinReqBody net s.otp.devid c.bnonce want)).set Fld.MESH_STAT_JOIN 2
    | _, _ => s

def execJoinListenEnd (s : State) : Out := mainAct s fun d => if d.on Fld.MESH_CFG_EN then d.joinRequest else d

/-- JOIN_TIMEOUT: back to LISTEN; the third failure in a row raises event 4 (R402). -/
def execJoinTimeout (s : State) : Out :=
  mainAct s fun d =>
    if d.get Fld.MESH_STAT_JOIN = 2 then
      let n := d.mesh.fails + 1
      let d1 := { d.listen with mesh := { d.listen.mesh with fails := n } }
      if n = 3 then d1.raise Pg.MESH 4 else d1
    else d

/-- The lowest free address from 2 upward (R404). -/
def freeAddr (t : List (List Byte × Nat × Bool)) : Option Nat :=
  ((List.range 4093).map (· + 2)).find? fun a => t.all fun e => !(e.2.1 == a && e.2.2)

/-- The root's allocation (R404): the old address of a DEVID served before, a free WANT, or the lowest free address. -/
def Mesh.allocate (m : Mesh) (devid : List Byte) (want : Nat) : Option (Nat × Mesh) :=
  match m.table.find? fun e => e.1 == devid with
  | some e => some (e.2.1, { m with table := m.table.map fun x => if x.1 == devid then (x.1, x.2.1, true) else x })
  | none =>
    let free := m.table.all fun e => !(e.2.1 == want && e.2.2)
    let a := if 2 ≤ want ∧ want ≤ 0xFFE ∧ free then some want else freeAddr m.table
    a.map fun a => (a, { m with table := m.table ++ [(devid, a, true)] })

/-- A join request (R402–R404): the root checks JMAC and allocates; a parent relays it to the root. `nbr` 0 is the joiner itself. -/
def Dev.joinReq (s : Dev) (nbr : Nat) (body : List Byte) : Dev :=
  let devid := slice body 0 8
  let bnonce := slice body 8 8
  let want := leAt body 16 2
  if s.on Fld.MESH_CFG_ROOT then
    match s.sec.net with
    | none => s.bump Fld.MESH_CNT_SEC_AUTHFAIL
    | some net =>
      if body.length ≠ 36 ∨ slice body 20 16 ≠ (hmac net (ascii "JOIN" ++ devid ++ bnonce ++ leBytes 2 want)).take 16 then s.bump Fld.MESH_CNT_SEC_AUTHFAIL
      else match s.mesh.allocate devid want with
        | none => s
        | some (a, m) =>
          let r := joinRespBody net devid bnonce a (s.get Fld.MESH_CFG_EPOCH) (s.get Fld.MESH_NETID_ID)
          let s1 := { s with mesh := m }
          if nbr = 0 then s1.joinFrame s.plcAddr 0 3 r else s1.meshSend 3 nbr r
  else if s.joined && nbr == 0 then ({ s with mesh := { s.mesh with relays := (s.mesh.relays.filter (· != devid)) ++ [devid] } }).meshSend 2 1 body
  else s

def execJoinReq (nbr : Nat) (body : List Byte) (s : State) : Out := mainAct s fun d => if d.on Fld.MESH_CFG_EN then d.joinReq nbr body else d

/-- A join response (R402): the joiner verifies RMAC and takes its address; a relay delivers it to address 0. -/
def Dev.joinResp (s : Dev) (body : List Byte) : Dev :=
  let devid := slice body 0 8
  let bnonce := slice body 8 8
  let addr := leAt body 16 2
  let epoch := leAt body 18 1
  let netid := leAt body 20 2
  if devid = s.otp.devid ∧ s.get Fld.MESH_STAT_JOIN = 2 then
    match s.sec.net, s.mesh.asked with
    | some net, some c =>
      if body.length = 46 ∧ bnonce = c.bnonce ∧ slice body 30 16 = (hmac net (ascii "JRSP" ++ devid ++ bnonce ++ leBytes 2 addr ++ leBytes 1 epoch ++ leBytes 2 netid)).take 16 then
        let s1 := { s with mesh := { s.mesh with fails := 0, asked := none, wantAny := false } }
        (((s1.set Fld.PLCMAC_CFG_ADDR addr).set Fld.MESH_STAT_JOIN 3).meshPublish).raise Pg.MESH 3
      else s
    | _, _ => s
  else if s.mesh.relays.contains devid then
    ({ s with mesh := { s.mesh with relays := s.mesh.relays.filter (· != devid) } }).joinFrame s.plcAddr 0 3 body
  else s

def execJoinResp (_nbr : Nat) (body : List Byte) (s : State) : Out := mainAct s fun d => if d.on Fld.MESH_CFG_EN then d.joinResp body else d

/-- LEAVE reaches the root: the address is free, the DEVID mapping stays (R415). -/
def Dev.leaveMsg (s : Dev) (osrc : Nat) : Dev :=
  if s.on Fld.MESH_CFG_ROOT then { s with mesh := { s.mesh with table := s.mesh.table.map fun e => if e.2.1 == osrc then (e.1, e.2.1, false) else e } } else s

def execLeaveMsg (osrc : Nat) (s : State) : Out := mainAct s fun d => d.leaveMsg osrc

/-- TIME is delivered to the Starter as it stands (R409). -/
def Dev.deliver (s : Dev) (kind osrc : Nat) (body : List Byte) : Dev := { s with mesh := { s.mesh with rx := (kind, osrc, body) :: s.mesh.rx } }

def execTimeMsg (osrc : Nat) (body : List Byte) (s : State) : Out := mainAct s fun d => d.deliver 4 osrc body

/-- The node leaves (R415): LEAVE to the root if joined, then silence, address 0, UNSYNC, event 4. -/
def Dev.meshLeave (s : Dev) : Dev :=
  let s1 := if s.joined && !s.on Fld.MESH_CFG_ROOT then s.meshSend 6 1 [] else s
  let s2 := ((s1.set Fld.MESH_STAT_JOIN 0).set Fld.PLCMAC_CFG_ADDR 0).setRoutes []
  (s2.ntLose).raise Pg.MESH 4

/-- Rejoin with WANT 0 after an address conflict (R405); a root joins nothing (R402; assumption log 107). -/
def Dev.conflict (s : Dev) : Dev :=
  let s1 := (s.set Fld.MESH_STAT_ADDRCONF 1).raise Pg.MESH 5
  if s.on Fld.MESH_CFG_ROOT then s1 else { s1 with mesh := { s1.mesh with wantAny := true } }.listen

/-- What every frame whose FC passed step 1 does to the mesh: an address conflict, and network time by the parent (R405, R414); without the network key the parent cannot be verified, and network time runs out (R416). -/
def Dev.meshFc (s : Dev) (f : FC) : Dev :=
  if !s.joined then s
  else if f.src = s.plcAddr ∧ f.src ≠ 0 then s.conflict
  else if !s.on Fld.MESH_CFG_ROOT && f.src == s.get Fld.MESH_STAT_PARENT && f.src != 0 && s.sec.net.isSome then s.ntFrame f else s

/-! ### Beacons (R401, R405) -/

/-- A beacon's payload without its CRC, for a frame from SRC at NT_TX. -/
def Dev.beaconBytes (s : Dev) (net nonce : List Byte) (src ntTx : Nat) : List Byte :=
  let rootSeq := match s.route 1 with | some r => r.seq | none => 0
  let seq := if s.on Fld.MESH_CFG_ROOT then s.get Fld.MESH_ROUTES_SEQ else rootSeq
  let b := leBytes 2 (s.get Fld.MESH_NETID_ID) ++ leBytes 2 seq ++ leBytes 3 (s.get Fld.MESH_ROOTMET_METRIC) ++ leBytes 1 (s.get Fld.MESH_ROOTMET_HOPS) ++
    leBytes 1 s.ntState ++ leBytes 1 (s.get Fld.MESH_CFG_EPOCH) ++ [0, 0] ++ nonce
  b ++ (hmac (s.linkKey net 0xFFF 0xFFF) (b ++ leBytes 2 src ++ leBytes 4 ntTx)).take 8

/-- A received beacon (R401, R402, R405): its own NETID and a valid BMAC, then a candidate in LISTEN, or a second root. -/
def Dev.beaconPayload (s : Dev) (f : FC) (p : List Byte) : Dev :=
  match s.sec.net with
  | none => s
  | some net =>
    let good := leAt p 0 2 == s.get Fld.MESH_NETID_ID &&
      slice p 20 8 == (hmac (s.linkKey net 0xFFF 0xFFF) (p.take 20 ++ leBytes 2 f.src ++ leBytes 4 f.ntTx)).take 8
    if !good then s
    else if s.get Fld.MESH_STAT_JOIN = 1 then
      { s with mesh := { s.mesh with cands := (s.mesh.cands.filter fun c => c.addr != f.src) ++ [⟨f.src, leAt p 4 3, slice p 12 8⟩] } }
    else if s.on Fld.MESH_CFG_ROOT && leAt p 7 1 == 0 && leAt p 4 3 == 0 then
      if Config.peerDevid s.free < ofLe s.otp.devid then
        (((s.tick.set Fld.MESH_STAT_DEMOTED 1).set Fld.MESH_CFG_ROOT 0).raise Pg.MESH 11).listen.ntLose
      else s.tick
    else s

/-- Step 7 of R382 for a beacon. -/
def Dev.beaconEnd (s : Dev) (rx : RxInfo) (f : FC) (p : List Byte) (endMt : Nat) : Dev :=
  match s.rxPayload rx f p endMt with
  | .stop u => u
  | .go u => if u.on Fld.MESH_CFG_EN then u.beaconPayload f p else u

/-- BEACON_FRAME. -/
def Dev.beacon (s : Dev) (rx : RxInfo) (b p : List Byte) : Dev :=
  match s.rxFrame rx b Dev.meshFc with
  | .stop t => t
  | .go t =>
    let f := FC.ofBytes b
    if f.type ≠ 4 then t
    else match t.rxArrive rx b p with
      | .stop u => u
      | .go u => u.beaconEnd rx f p u.plc.rxTo

def execBeaconFrame (rx : RxInfo) (fc payload : List Byte) (s : State) : Out := mainAct s fun d => d.beacon rx fc payload

def execSoundFrame (rx : RxInfo) (fc : List Byte) (snrs : List (List Int)) (s : State) : Out := mainAct s fun d => d.sound rx fc snrs Dev.meshFc

def execTonemapFrame (rx : RxInfo) (fc payload : List Byte) (s : State) : Out := mainAct s fun d => d.tonemap rx fc payload Dev.meshFc

/-- BEACON_TIMER: a joined node sends a beacon (R401). -/
def execBeaconTimer (s : State) : Out :=
  mainAct s fun d => if d.joined then d.plcQueue { type := 4, src := d.plcAddr, dst := 0xFFF, enc := false, ackreq := false } else d

/-! ### Data frames (R382, R384, R409–R412) -/

/-- A body for this node, by KIND (R409); an UPDATE body is left to the update service. -/
def Dev.deliverKind (s : Dev) (nbr kind osrc : Nat) (body : List Byte) : Dev × Option (Nat × List Byte) :=
  if kind = 0 then (s.deliver 0 osrc body, none)
  else if kind = 1 then (s.adv nbr body, none)
  else if kind = 2 then (s.joinReq osrc body, none)
  else if kind = 3 then (s.joinResp body, none)
  else if kind = 4 then (s.deliver 4 osrc body, none)
  else if kind = 5 then (s, some (osrc, body))
  else if kind = 6 then (s.leaveMsg osrc, none)
  else (s, none)

/-- Forward a payload that is not for this node (R410). -/
def Dev.forward (s : Dev) (hdr body : List Byte) : Dev :=
  let fdst := leAt hdr 0 2 % 4096
  let hops := satN 255 (leAt hdr 4 1 + 1)
  if leAt hdr 5 1 < leAt hdr 4 1 + 1 then (s.bump Fld.MESH_CNT_DROP_HOPLIM).raise Pg.MESH 9
  else match s.route fdst with
    | some r =>
      if r.metric = unreachable then s.bump Fld.MESH_CNT_DROP_NOROUTE
      else
        let p := putAt hdr 4 (leBytes 1 hops) ++ body
        let s1 := s.meshQueue r.next true s.plcAddr p
        if s.queueFull r.next p then s1 else s1.count Fld.MESH_CNT_FWD_N
    | none => s.bump Fld.MESH_CNT_DROP_NOROUTE

/-- A payload that passed R382: opened, checked against replay, delivered or forwarded. -/
def Dev.meshPayload (s : Dev) (f : FC) (p : List Byte) : Dev × Option (Nat × List Byte) :=
  if f.enc then
    let inj := s.injArmed Pg.MESH 0
    let live := s.injLive Pg.MESH
    let s0 := if inj then ((s.injUse Pg.MESH).bump Fld.MESH_CNT_SEC_AUTHFAIL).raiseInj Pg.MESH 10 true live else s
    if inj && live then (s0, none)
    else match s0.meshOpen f p with
      | some (hdr, body) =>
        match s0.replayOk f.src (leAt hdr 11 5) with
        | none => ((s0.bump Fld.MESH_CNT_SEC_REPLAY).raise Pg.MESH 10, none)
        | some s1 =>
          let fdst := leAt hdr 0 2 % 4096
          if fdst = s1.plcAddr ∨ fdst = 0xFFF then s1.deliverKind f.src (leAt hdr 6 1) (leAt hdr 2 2 % 4096) body
          else if f.dst = 0xFFF then (s1, none) else (s1.forward hdr body, none)
      | none => (s0.authFail, none)
  else
    let kind := leAt p 6 1
    let body := slice p 16 (leAt p 8 2)
    if kind = 2 ∧ f.src = 0 then (s.joinReq 0 body, none)
    else if kind = 3 ∧ f.dst = 0 then (s.joinResp body, none)
    else (s.authFail, none)

/-- Step 7 of R382 for DATA: delivered once. -/
def Dev.dataEnd (s : Dev) (rx : RxInfo) (f : FC) (p : List Byte) (endMt : Nat) : Dev × Option (Nat × List Byte) :=
  match s.rxPayload rx f p endMt with
  | .stop u => (u, none)
  | .go u => if u.on Fld.MESH_CFG_EN then u.meshPayload f p else (u, none)

/-- DATA_FRAME (R382). -/
def Dev.data (s : Dev) (rx : RxInfo) (b p : List Byte) : Dev × Option (Nat × List Byte) :=
  match s.rxFrame rx b Dev.meshFc with
  | .stop t => (t, none)
  | .go t =>
    let f := FC.ofBytes b
    if f.type ≠ 0 then (t, none)
    else match t.rxArrive rx b p with
      | .stop u => (u, none)
      | .go u => u.dataEnd rx f p u.plc.rxTo

/-- A frame under span interleaving has arrived: dropped if its receive map went while it arrived (R389, Issue B-4), else step 7. -/
def Dev.arrived (s : Dev) (a : Arriving) : Dev × Option (Nat × List Byte) :=
  let f := FC.ofBytes a.fc
  if a.lost then ((s.bump Fld.PLCMAC_CNT_B4_N).raise Pg.PLCMAC 9, none)
  else if f.type = 0 then s.dataEnd a.rx f a.payload a.endMt
  else if f.type = 3 then (s.tonemapPayload a.rx f a.payload a.endMt, none)
  else (s.beaconEnd a.rx f a.payload a.endMt, none)

/-! ### Sending (R378–R384, R393, R401, R411) -/

/-- The payload that goes on the line: encrypted for its hop, a beacon built for its frame, or as queued. -/
def Dev.linePayload (s : Dev) (f : TxFrame) (ntTx : Nat) : Option (List Byte) × Dev :=
  if f.type = 4 then
    match s.sec.net with
    | none => (none, s)
    | some net => let d := s.draw 8; (some (d.2.beaconBytes net d.1 f.src ntTx), d.2)
  else if f.enc then
    match s.sec.net with
    | none => (none, s)
    | some net =>
      let c := s.fcntNext
      let ep := s.get Fld.MESH_CFG_EPOCH
      let hdr := putAt (putAt (slice f.payload 0 16) 7 (leBytes 1 ep)) 11 (leBytes 5 c.1)
      let key := s.linkKey net f.src f.dst
      let nonce := meshNonce f.src f.dst c.1 ep
      let ct := gcmCrypt key nonce (f.payload.drop 16)
      (some (hdr ++ ct ++ gcmTag key nonce hdr ct), c.2)
  else (some f.payload, s)

/-- The tone map for a destination: its transmit map for DATA, robust otherwise (R380, R387). -/
def Dev.txMap (s : Dev) (f : TxFrame) : Option TMap :=
  if f.type = 0 ∧ f.dst ≠ 0xFFF then match s.nbFind f.dst with | some i => (s.nb i).tx | none => none else none

/-- CW of an attempt (R383): 15 at first, 2 × CW + 1 for each retransmission, up to 255. -/
def backoffMax (retx : Nat) : Nat := satN 255 (16 * 2 ^ retx - 1)

/-- Nothing has been received for DIFS, 100 µs, and a backoff of that many slots of 20 µs (R383). DEDUCED (log 108): the time counts from the end of the frame whose preamble was detected, so that an ACK after SIFS comes first. -/
def Dev.lineQuiet (s : Dev) (slots : Nat) : Bool := s.plc.rxTo == 0 || decide (s.plc.rxTo + usTicks (100 + 20 * slots) ≤ s.mt)

/-- FRAME_TRANSMIT after a backoff of `slots`, drawn from 0 to CW: PLDEN rises and the front of the queue goes out LEAD µs later (R376, R383), unless a frame or an ACK of this node is on the line; blocked by state or without a plan (R374, R396). -/
def Dev.transmit (s : Dev) (slots : Nat) : Dev :=
  match s.plc.queue with
  | [] => s
  | f :: _ =>
    if s.plc.inflight.isSome || decide (s.mt < s.plc.txTo) || !s.lineQuiet (slots % (backoffMax f.retx + 1)) then s
    else if !s.plcMayTx then (s.set Fld.PLCPHY_STAT_BLOCKED 1).raise Pg.PLCPHY 7
    else
      let s0 := s.planDue.set Fld.PLCPHY_STAT_BLOCKED 0
      let start := s0.mt + usTicks (s0.get Fld.PLCPHY_CTRL_LEAD)
      let nt := s0.ntAt start % 2 ^ 32
      match s0.linePayload f nt with
      | (none, s1) => { s1 with plc := { s1.plc with queue := s1.plc.queue.tail, undelivered := f :: s1.plc.undelivered } }
      | (some raw, s1) =>
        let seq := if f.retx = 0 then s1.plc.seq else f.seq
        let pay := if f.type = 2 then [] else withCrc raw
        let m := s1.txMap f
        let fc : FC := { type := f.type, tmi := (m.map (·.tmi)).getD 0, gi := (m.map (·.gi)).getD true, src := f.src, dst := f.dst, enc := f.enc, ackreq := f.ackreq, retx := f.retx, len := if f.type = 2 then 0 else pay.length / 16, seq := seq, ntTx := nt, zcOfs := s1.zcAt start, planId := s1.get Fld.PLCPHY_BP_INFO_PLAN_ID }
        let syms := if f.type = 2 then 16 else payloadSyms (pay.length / 16) ((m.map (·.rate)).getD 0) ((m.map (·.nbits)).getD s1.robustBits)
        let s2 : Dev := { s1 with plc := { s1.plc with queue := s1.plc.queue.tail, inflight := if f.ackreq then some { f with seq := seq } else none, seq := if f.retx = 0 then (seq + 1) % 256 else s1.plc.seq, sent := (fc.bytes, pay), sentSyms := syms, sentMap := m, sentPlan := s1.plc.plan.getD [], sentDrive := (s1.get Fld.PLCPHY_CTRL_COUPLE, s1.get Fld.PLCPHY_TXLVL_ATTEN), txFrom := start, txTo := start + sampleTicks (frameSamples syms ((m.map (·.gi)).getD true)) } }
        (if f.retx = 0 then s2.count Fld.PLCMAC_CNT_TX_N else s2).plcLevels

def execFrameTransmit (slots : Nat) (s : State) : Out := mainAct s fun d => d.transmit slots

/-- An attempt failed (R384): retransmission, or a lasting failure with its refresh and the loss of the routes through it (R408). -/
def Dev.attemptFailed (s : Dev) (f : TxFrame) : Dev :=
  let s1 := { s with plc := { s.plc with inflight := none } }.nbAttempt f.dst false
  if f.retx < 3 then { s1 with plc := { s1.plc with queue := { f with retx := f.retx + 1 } :: s1.plc.queue } }
  else
    let s2 := ({ s1 with plc := { s1.plc with undelivered := f :: s1.plc.undelivered } }.bump Fld.PLCMAC_CNT_RETX_LASTING).raise Pg.PLCMAC 2
    let s3 := match s2.nbFind f.dst with | some i => s2.refreshStart i | none => s2
    s3.routesLost f.dst

/-- ACK_TIMEOUT (R383, R384). -/
def execAckTimeout (s : State) : Out :=
  mainAct s fun d => match d.plc.inflight with | some f => d.attemptFailed f | none => d

/-- A frame was acknowledged (R384, R387 step 5, R397). -/
def Dev.delivered (s : Dev) (f : TxFrame) : Dev :=
  let s1 := ({ s with plc := { s.plc with inflight := none } }.nbAttempt f.dst true).raise Pg.PLCMAC 0
  let s2 := if f.retx = 0 then s1 else (s1.bump Fld.PLCMAC_CNT_RETX_TRANS).raise Pg.PLCMAC 1
  match s2.nbFind f.dst with
  | some i => if f.type = 3 then s2.rxMapInstall i (TMap.ofBytes f.payload) else s2
  | none => s2

/-- A withheld ACK with LIVE = 0: the counters and events of COUNT failed attempts, marked injected (R399). -/
def Dev.ackInject (s : Dev) : Dev :=
  let c := s.get (Hdr.INJ_COUNT Pg.PLCMAC)
  let s1 := (List.range (satN 4 c)).foldl (fun t _ => t.injUse Pg.PLCMAC) s
  if c < 4 then (s1.bump Fld.PLCMAC_CNT_RETX_TRANS).raiseInj Pg.PLCMAC 1 true false
  else (s1.bump Fld.PLCMAC_CNT_RETX_LASTING).raiseInj Pg.PLCMAC 2 true false

/-- ACK_FRAME: an ACK delivers the frame in flight; a NAK or a REFRESH mark starts a negotiation (R382, R387, R388). -/
def Dev.ackFrame (s : Dev) (rx : RxInfo) (b : List Byte) : Dev :=
  match s.rxFrame rx b Dev.meshFc with
  | .stop t => t
  | .go t0 =>
    let t := t0.phaseSnrs rx
    let f := FC.ofBytes b
    if f.type ≠ 1 then t
    else match t.plc.inflight with
      | none => t
      | some q =>
        if f.src ≠ q.dst ∨ f.seq ≠ q.seq then t
        else
          let refresh := fun (u : Dev) => if natBit f.len 1 then (match u.nbFind f.src with | some i => u.refreshStart i | none => u) else u
          if natBit f.len 0 then
            if t.injArmed Pg.PLCMAC 0 then
              if t.injLive Pg.PLCMAC then (t.injUse Pg.PLCMAC).attemptFailed q else refresh (t.ackInject.delivered q)
            else refresh (t.delivered q)
          else
            let t1 := match t.nbFind f.src with | some i => (t.nbUpd i fun n => { n with tx := none }).nbRate i | none => t
            refresh (t1.attemptFailed q)

def execAckFrame (rx : RxInfo) (fc : List Byte) (s : State) : Out := mainAct s fun d => d.ackFrame rx fc

/-- NEIGHBOUR_AGED_OUT: the entry goes, event 7, and the routes through it (R395, R408). -/
def execNeighbourAgedOut (i : Nat) (s : State) : Out :=
  mainAct s fun d =>
    if i < 64 && d.on (Fld.PLCMAC_NB_INFO_VALID i) then d.nbGone i else d

/-! ### Network-time and mesh commands (R414, R415, R417) -/

/-- NT_HOLDOVER: no frame from the parent for 10 s. -/
def execNtHoldover (s : State) : Out :=
  mainAct s fun d => if d.ntState = 1 ∨ d.ntState = 2 then { d with mesh := { d.mesh with within := 0 } }.set Fld.MESH_NT_STAT_STATE 3 else d

/-- NT_LOSS: no frame from the parent for NTLOSS seconds. -/
def execNtLoss (s : State) : Out := mainAct s fun d => if d.ntState = 4 then d else d.ntLose

/-- NT_SET: a write of MESH.NT_SET at the root; NT_HI goes on counting wraps only (R413). -/
def Dev.ntSetWrite (s : Dev) (v : Word) : Dev := if s.ntState = 4 then s.ntSetNow (s.ntNow / 2 ^ 32 * 2 ^ 32 + v.toNat) else s.cfgErr Pg.MESH

def execNtSet (m : Nat) (v : Word) (s : State) : Out := wrAct m Reg.MESH_NT_SET v s fun d => d.ntSetWrite v

/-- MESH.CMD JOIN: join now. -/
def Dev.meshJoinNow (s : Dev) : Dev := if s.on Fld.MESH_CFG_EN then (if s.on Fld.MESH_CFG_ROOT then s.becomeRoot else s.listen) else s.cfgErr Pg.MESH

/-- A keyed write of MESH.CMD by its OP: join, leave, advertise; 0 is refused. -/
def Dev.meshCmd (s : Dev) (v : Word) : Dev :=
  s.keyed Pg.MESH 0x4E v fun t =>
    match bitsOf v 1 0 with
    | 1 => t.meshJoinNow
    | 2 => t.meshLeave
    | 3 => if t.joined then t.advFull else t
    | _ => t.cfgErr Pg.MESH

def execMeshJoin (m : Nat) (v : Word) (s : State) : Out := wrAct m Reg.MESH_CMD v s fun d => d.meshCmd v
def execMeshLeave (m : Nat) (v : Word) (s : State) : Out := wrAct m Reg.MESH_CMD v s fun d => d.meshCmd v
def execMeshAdvertise (m : Nat) (v : Word) (s : State) : Out := wrAct m Reg.MESH_CMD v s fun d => d.meshCmd v

/-- A write of MESH.CFG (R415, R417): EN with NETID 0 or HOPLIM 0 is refused; clearing EN leaves, setting EN or changing ROOT starts anew. -/
def Dev.meshCfg (s : Dev) (v : Word) : Dev :=
  if bitsOf v 23 16 = 0 ∨ (bitAt v 31 ∧ s.get Fld.MESH_NETID_ID = 0) then s.cfgErr Pg.MESH
  else
    let was := s.on Fld.MESH_CFG_EN
    let s1 := if was && !bitAt v 31 then s.meshLeave else s
    let s2 := ((((s1.set Fld.MESH_CFG_EN (bitAt v 31).toNat).set Fld.MESH_CFG_ROOT (bitAt v 30).toNat).set Fld.MESH_CFG_STATIC (bitAt v 29).toNat).set
      Fld.MESH_CFG_HOPLIM (bitsOf v 23 16)).set Fld.MESH_CFG_EPOCH (bitsOf v 15 8)
    let s3 := if s2.ntState == 4 && !bitAt v 30 then s2.ntLose else s2
    if bitAt v 31 && (!was || s.on Fld.MESH_CFG_ROOT != bitAt v 30) then s3.meshStart else s3

def execMeshConfigWrite (m : Nat) (v : Word) (s : State) : Out := wrAct m Reg.MESH_CFG v s fun d => d.meshCfg v

end Sys2Proof.Machine
end

