-- ==== Sys2Proof/Machine/Tariff.lean ====
section
/-! DEFINITION. The tariff table (R267–R270, R285, R286): its entries and their checks, the tariff of a schedule at a second, prices, friendly periods and emergency credit. -/

namespace Sys2Proof.Machine

/-! ### Entries (R267) -/

def Entry.kind (e : Entry) : Nat := leAt e 0 1
def Entry.sched (e : Entry) : Nat := leAt e 1 1

/-- Bytes of an entry that its kind does not list are 0. -/
def tarReserved (e : Entry) : Bool :=
  match e.kind with
  | 1 => zeroAt e ([3, 6, 7] ++ (List.range 20).map (· + 12))
  | 2 => true
  | 3 => zeroAt e [2, 3]
  | 4 => zeroAt e ((List.range 12).map (· + 20))
  | 5 => zeroAt e ([2] ++ (List.range 4).map (· + 28) ++ (List.range 4).map (fun i => 5 + 6 * i))
  | 6 => zeroAt e ([2, 3] ++ (List.range 12).map (· + 20))
  | _ => false

/-- Entries of a kind in a schedule. -/
def tarOf (t : List Entry) (kind s : Nat) : List Entry := t.filter fun e => e.kind == kind && e.sched == s

/-- A season's number, start month and day, and the day type of a weekday. -/
def Entry.season (e : Entry) : Nat := leAt e 2 1
def Entry.startMonth (e : Entry) : Nat := leAt e 4 1
def Entry.startDay (e : Entry) : Nat := leAt e 5 1
def Entry.week (e : Entry) (d : Nat) : Nat := leAt e 8 4 / 2 ^ (4 * d) % 8

/-- A DAY entry's switches: minute and tariff, unused ones left out. -/
def Entry.switches (e : Entry) : List (Nat × Nat) :=
  ((List.range 14).map fun i => leAt e (4 + 2 * i) 2).filterMap fun w => if w = 0xFFFF then none else some (w / 32, w % 8)

/-- Switches of a day type across its parts, in the order of the parts. -/
def daySwitches (t : List Entry) (s day : Nat) : List (Nat × Nat) :=
  (List.range 4).flatMap fun part => ((tarOf t 2 s).filter fun e => leAt e 2 1 == day && leAt e 3 1 == part).flatMap Entry.switches

/-- A special date: year code, month, day, day type. -/
structure Special where
  year : Nat
  month : Nat
  day : Nat
  type : Nat
  deriving DecidableEq, Repr

/-- A SPECIAL entry's dates, unused ones left out. -/
def Entry.specials (e : Entry) : List Special :=
  ((List.range 7).map fun i => leAt e (4 + 4 * i) 4).filterMap fun w =>
    if w = 0xFFFFFFFF then none else some ⟨w % 256, w / 256 % 16, w / 4096 % 32, w / 131072 % 8⟩

/-- The special dates of a schedule. -/
def tarSpecials (t : List Entry) (s : Nat) : List Special := (tarOf t 3 s).flatMap Entry.specials

/-- Friendly periods of a FRIENDLY entry: day-type mask, start and end minute. -/
def Entry.friendly (e : Entry) : List (Nat × Nat × Nat) :=
  (List.range (leAt e 3 1)).map fun i => (leAt e (4 + 6 * i) 1, leAt e (6 + 6 * i) 2, leAt e (8 + 6 * i) 2)

/-! ### Content (R268) -/

/-- A day and month exist in year 2000 + y. -/
def dateOk (y month day : Nat) : Bool := decide (1 ≤ month) && decide (month ≤ 12) && decide (1 ≤ day) && decide (day ≤ monthDays y month)

/-- Minutes strictly increase. -/
def minutesRise : List (Nat × Nat) → Bool
  | a :: b :: r => decide (a.1 < b.1) && minutesRise (b :: r)
  | _ => true

/-- One entry's own fields. -/
def tarEntryOk (e : Entry) : Bool :=
  decide (e.sched ≤ 3) && tarReserved e &&
  (match e.kind with
   | 1 => decide (e.season ≤ 7) && dateOk 0 e.startMonth e.startDay && !(e.startMonth == 2 && e.startDay == 29) && leAt e 8 4 &&& 0xF8888888 == 0
   | 2 => decide (leAt e 2 1 ≤ 7) && decide (leAt e 3 1 ≤ 3)
       && (List.range 14).all fun i => let w := leAt e (4 + 2 * i) 2; w == 0xFFFF || (w / 8 % 4 == 0 && decide (w / 32 ≤ 1439))
   | 3 => (List.range 7).all fun i => let w := leAt e (4 + 4 * i) 4; w == 0xFFFFFFFF || (decide (w < 2 ^ 20) && decide (w % 256 ≤ 199 ∨ w % 256 = 255)
       && dateOk (if w % 256 = 255 then 0 else w % 256) (w / 256 % 16) (w / 4096 % 32))
   | 4 => decide (leAt e 2 1 ≤ 1) && (leAt e 3 1 == 0 || leAt e 3 1 == 4)
   | 5 => decide (1 ≤ leAt e 3 1) && decide (leAt e 3 1 ≤ 4) && e.friendly.all fun p => decide (p.2.1 < p.2.2) && decide (p.2.2 ≤ 1440)
   | 6 => true
   | _ => false)

/-- No value appears twice. -/
def noRepeat {α : Type} [DecidableEq α] : List α → Bool
  | [] => true
  | a :: r => !r.contains a && noRepeat r

/-- A schedule's entries agree with each other (R268). -/
def tarSchedOk (t : List Entry) (s : Nat) : Bool :=
  let seasons := tarOf t 1 s
  let days := tarOf t 2 s
  let has := fun (d : Nat) => days.any fun e => leAt e 2 1 == d
  let sp := tarSpecials t s
  noRepeat (seasons.map Entry.season)
    && (List.range 8).all (fun d =>
        let parts := (days.filter fun e => leAt e 2 1 == d).map fun e => leAt e 3 1
        let sw := daySwitches t s d
        noRepeat parts && parts.all (fun p => decide (p < parts.length)) && (parts.isEmpty || ((sw.head?.map (·.1)) == some 0 && minutesRise sw)))
    && seasons.all (fun e => (List.range 7).all fun d => has (e.week d))
    && sp.all (fun x => has x.type)
    && noRepeat (sp.map fun x => (x.year, x.month, x.day))
    && (List.range 2).all (fun dir => decide (((tarOf t 4 s).filter fun e => leAt e 2 1 == dir).length ≤ 2))
    && decide ((tarOf t 6 s).length ≤ 1)

/-- The content check of a tariff image. -/
def tarContent (t : List Entry) : Bool := t.all tarEntryOk && (List.range 4).all (tarSchedOk t)

/-! ### The tariff at a second (R269) -/

/-- The day type that a special date gives, exact year before every year. -/
def specialDay (t : List Entry) (s : Nat) (d : Date) : Option Nat :=
  let at_ := (tarSpecials t s).filter fun x => x.month == d.month && x.day == d.day
  match at_.find? fun x => x.year == d.year with
  | some x => some x.type
  | none => (at_.find? fun x => x.year == 255).map (·.type)

/-- A season's start within a year, for comparison. -/
def Entry.startKey (e : Entry) : Nat := e.startMonth * 32 + e.startDay

/-- The season with the latest start not after a key, or the latest start of the year. -/
def seasonAt (seasons : List Entry) (key : Nat) : Option Entry :=
  let latest := fun (l : List Entry) => l.foldl (fun (b : Option Entry) e => match b with | some k => if k.startKey < e.startKey then some e else some k | none => some e) none
  match latest (seasons.filter fun e => decide (e.startKey ≤ key)) with
  | some e => some e
  | none => latest seasons

/-- The tariff, day type, season and special mark of schedule `s` at a second (R269); T1 with no SEASON entry. -/
def tariffAt (t : List Entry) (s sec : Nat) : TarNow :=
  let d := Date.ofSecs sec
  match seasonAt (tarOf t 1 s) (d.month * 32 + d.day) with
  | none => {}
  | some e =>
    let sp := specialDay t s d
    let day := sp.getD (e.week (weekday sec))
    let tar := (((daySwitches t s day).filter fun w => decide (w.1 ≤ sec / 60 % 1440)).getLast?.map (·.2)).getD 0
    { tar := tar, day := day, season := e.season, special := sp.isSome }

/-- The tariff in force of a schedule. -/
def Dev.tarNow (s : Dev) (k : Nat) : TarNow := nth s.bill.now k {}

/-- Every schedule is evaluated at a second; a change raises TARIFF event 0. While OSF is set each holds its tariff (R270). -/
def Dev.tarEval (s : Dev) (sec : Nat) : Dev :=
  if s.on Fld.RTC_STAT_OSF then s
  else forN 4 s fun t k =>
    let n := tariffAt t.bill.tariff k sec
    let t1 := { t with bill := { t.bill with now := setAt t.bill.now k n } }
    if n.tar = (t.tarNow k).tar then t1 else t1.raiseItem Pg.TARIFF 0 k

/-- An accepted image takes effect at the start of a second (R85). -/
def Dev.tarInstall (s : Dev) (sec : Nat) : Dev :=
  match s.bill.tariffNext with
  | none => s
  | some l => ({ s with bill := { s.bill with tariff := l, tariffNext := none, noPriceTold := false } }.tblShow Reg.TARIFF_TBL_STAT ⟨l.length, 1, l⟩).tarEval sec

/-- The check of the tariff image at `src` ends (R285): event 1 or 2. -/
def Dev.tarLoad (s : Dev) (mem : List Host.Cell) (src : Nat) (locked : Bool) : Dev :=
  let r := tblCheck mem src { type := 1, esize := 32, area := 16384, locked := locked, content := tarContent }
  if r.1 = 0 then { s with bill := { s.bill with tariffNext := some r.2.entries } }.raise Pg.TARIFF 1
  else (s.tblReject Reg.TARIFF_TBL_STAT r.1).raise Pg.TARIFF 2

/-- A write of TARIFF.LOAD by master `m`. -/
def Dev.tarGo (s : Dev) (m : Nat) (v : Word) : Dev :=
  if bitAt v 0 then s.tblGo { stat := Reg.TARIFF_TBL_STAT, src := s.get Fld.TARIFF_SRC_ADDR, locked := s.tblLocked Pg.TARIFF m } else s

def execTariffTableLoad (m : Nat) (v : Word) (s : State) : Out := wrAct m Reg.TARIFF_LOAD v s fun d => d.tarGo m v

/-- TARIFF.NEXTs: the next minute within 8 days at which the schedule's tariff changes; all ones if none (R285). -/
def Dev.tarNext (s : Dev) (k : Nat) : Nat :=
  let t := s.bill.tariff
  let now := s.secs / 60
  let cur := (s.tarNow k).tar
  let days := (List.range 9).map fun i => s.secs / 86400 + i
  let sws := days.flatMap fun d => (daySwitches t k (tariffAt t k (d * 86400)).day).map fun w => (d * 1440 + w.1, w.2)
  if (tarOf t 1 k).isEmpty then 0xFFFFFFFF
  else match sws.find? fun w => decide (now < w.1) && decide (w.1 ≤ now + 8 * 1440) && w.2 != cur with
    | some w => w.1
    | none => 0xFFFFFFFF

/-! ### Prices, friendly periods, emergency credit -/

/-- The price per kWh for a direction (0 A+, 1 A−) and tariff, in milli-units; none where no PRICE entry covers it (R288). -/
def priceOf (t : List Entry) (s dir tar : Nat) : Option Nat :=
  ((tarOf t 4 s).find? fun e => leAt e 2 1 == dir && decide (leAt e 3 1 ≤ tar) && decide (tar < leAt e 3 1 + 4)).map fun e => leAt e (4 + 4 * (tar - leAt e 3 1)) 4

/-- The emergency credit E and low-credit threshold L of a schedule; 0 without an entry (R293). -/
def emergency (t : List Entry) (s : Nat) : Nat × Int :=
  match tarOf t 6 s with
  | e :: _ => (leAt e 4 8, signedOf (leAt e 12 8) 64)
  | [] => (0, 0)

/-- A second is in a friendly period of a schedule (R294). -/
def Dev.friendlyNow (s : Dev) (k sec : Nat) : Bool :=
  let m := sec / 60 % 1440
  (tarOf s.bill.tariff 5 k).any fun e => e.friendly.any fun p => natBit p.1 (s.tarNow k).day && decide (p.2.1 ≤ m) && decide (m < p.2.2)

end Sys2Proof.Machine
end

