-- ==== Sys2Proof/Machine/Billing.lean ====
section
/-! DEFINITION. The billing engine (R259–R284): the image and its commits, snapshots, demand, the energy of a cycle added to registers and credit, meter tamper (R324), bindings and register reads. -/

namespace Sys2Proof.Machine

/-! ### Points -/

def Dev.bp (s : Dev) (b : Nat) : Bp := nth s.bill.img.bp b {}
def Dev.bpUpd (s : Dev) (b : Nat) (f : Bp → Bp) : Dev := { s with bill := { s.bill with img := { s.bill.img with bp := updAt s.bill.img.bp b f } } }
def Dev.bpAll (s : Dev) (f : Bp → Bp) : Dev := { s with bill := { s.bill with img := { s.bill.img with bp := s.bill.img.bp.map f } } }
def Dev.imgUpd (s : Dev) (f : Image → Image) : Dev := { s with bill := { s.bill with img := f s.bill.img } }

/-- Bits of BPb_STAT (R283). -/
def Flg.RESTORED : Nat := 2 ^ 10
def Flg.ISOLATED : Nat := 2 ^ 9
def Flg.LATE : Nat := 2 ^ 7
def Flg.CLOCK : Nat := 2 ^ 6
def Flg.PF : Nat := 2 ^ 5
def Flg.CLP : Nat := 2 ^ 4
def Flg.INJ : Nat := 2 ^ 3
def Flg.SUBST : Nat := 2 ^ 2
def Flg.UNVERIFIED : Nat := 2

/-- Every billing point gains a flag. -/
def Dev.flagAll (s : Dev) (m : Nat) : Dev := s.bpAll fun (p : Bp) => { p with flags := p.flags ||| m }

/-- BPb_STAT (R260, R283): the flags, PENDING and ACTIVE. -/
def Dev.bpStat (s : Dev) (b : Nat) : Nat :=
  ((s.bp b).flags &&& 0x7FE) + (if s.bill.pendingB.any (·.1 == b) then 2 ^ 11 else 0) + (nth s.bill.bound b {}).en.toNat

/-! ### The image and its commit (R277, R279) -/

/-- The image as published: live registers and masks join the working state. -/
def Dev.imageOf (s : Dev) (j : Option JEntry) : Image :=
  { s.bill.img with
    kind := 0, snapf := 0, qk := s.get Fld.BILL_CFG_QK, lastb := s.get Fld.BILL_LAST_BOUNDARY_MIN
    bp := s.bill.img.bp.mapIdx fun b (p : Bp) => { p with flags := s.bpStat b, pcfg := (s.rd (Reg.PREPAY_BP_CFG b)).toNat / 2 ^ 28 }
    openMask := maskOf 64 fun n => (nth s.disc.dps n {}).isOpen
    armMask := s.disc.armMask, causeMask := s.disc.causeMask, jpend := j }

/-- The newest valid live buffer (R280). -/
def Mram.newest (m : Mram) : Option (Nat × Image) :=
  match m.live0, m.live1 with
  | some a, some b => some (if newer 32 b.seq a.seq then (1, b) else (0, a))
  | some a, none => some (0, a)
  | none, some b => some (1, b)
  | none, none => none

/-- The buffer the next commit writes: the good one alone where one is bad, else the one that does not hold the newest image. -/
def Dev.commitTo (s : Dev) : Nat :=
  let b0 := s.on Fld.BILL_STAT_BAD0
  let b1 := s.on Fld.BILL_STAT_BAD1
  if b0 && !b1 then 1 else if b1 && !b0 then 0
  else match s.mram.newest with | some (n, _) => 1 - n | none => 0

/-- A buffer's BAD bit. -/
def badBit (buf : Nat) : Field := if buf = 0 then Fld.BILL_STAT_BAD0 else Fld.BILL_STAT_BAD1

/-- A verified image lies in buffer `buf`: BUF, SEQ, its BAD bit clear, BILL event 0. -/
def Dev.commitPut (s : Dev) (buf : Nat) (i : Image) : Dev :=
  let seq := match s.mram.newest with | some (_, n) => (n.seq + 1) % 2 ^ 32 | none => 1
  let k := { i with seq := seq }
  (((({ s with mram := if buf = 0 then { s.mram with live0 := some k } else { s.mram with live1 := some k } }.set Fld.BILL_STAT_BUF buf).set
    Fld.BILL_SEQ_SEQ seq).set (badBit buf) 0).raise Pg.BILL 0)

/-- One verification of a commit: whether it passes, and whether an injection failed it (R284). -/
def Dev.commitTry (s : Dev) (ok : Bool) : Dev × Bool × Bool :=
  if s.injArmed Pg.BILL 0 then (s.injUse Pg.BILL, false, true) else (s, ok, false)

/-- BILL event 2 and SYS_ERR, with the entry of an escalated commit (R282), marked injected where the failure was (R77). -/
def Dev.escalated (s : Dev) (buf : Nat) (inj live : Bool) : Dev :=
  ((s.raiseEv { code := evCode Pg.BILL 2, inj := inj, own := true, seq := s.newestSeq } live).journal (evCode Pg.BILL 2) 0xFF inj false (leBytes 1 buf ++ leBytes 4 (s.get Fld.BILL_SEQ_SEQ))).raiseInj Pg.SYS 2 inj live

/-- A third failure: the image goes to the other buffer, or nowhere where that is bad too (R279). -/
def Dev.escalate (s : Dev) (buf : Nat) (i : Image) (inj : Bool) : Dev :=
  let bad := s.on (badBit (1 - buf))
  let s1 := s.set (badBit buf) 1
  let s2 := if bad then s1
    else { s1 with mram := if buf = 0 then { s1.mram with live0 := none } else { s1.mram with live1 := none } }.commitPut (1 - buf) i
  s2.escalated buf inj true

/-- A commit of the published image: verified, retried, retried again, escalated (R279, R284). `ok1`, `ok2`: the first verification and the later ones. -/
def Dev.commitImg (s : Dev) (ok1 ok2 : Bool) (j : Option JEntry) : Dev :=
  let live := s.injLive Pg.BILL
  let i := s.imageOf j
  let buf := s.commitTo
  let a := s.commitTry ok1
  if a.2.1 then a.1.commitPut buf i
  else
    let b := a.1.commitTry ok2
    if b.2.1 then (b.1.raiseInj Pg.BILL 1 a.2.2 live).commitPut buf i
    else
      let c := b.1.commitTry ok2
      if c.2.1 then c.1.commitPut buf i
      else if c.2.2 && !live then (c.1.escalated buf true false).commitPut buf i
      else c.1.escalate buf i c.2.2

/-- The billing engine has recovered its image and runs (R55 step 7). -/
def Dev.billUp (s : Dev) : Bool := s.hart 1

/-- The billing engine has published a staging image since it was started; a halt of the engine leaves it as it was last published (R46, R441). -/
def Dev.published (s : Dev) : Bool := s.engOn 1

/-- A commit made by the engine's own schedule: not while billing is frozen. -/
def Dev.commit (s : Dev) (ok1 ok2 : Bool) : Dev := if s.billUp && !s.bill.frozen then s.commitImg ok1 ok2 none else s

/-- The billing engine publishes its staging image (R279): the image's MT is this moment's (R277). -/
def Dev.imgPublish (s : Dev) : Dev := if s.billUp && !s.bill.frozen then s.imgUpd fun (i : Image) => { i with mt := s.mt } else s

/-- A commit whose verifications no command tells of: each outcome is free. -/
def Dev.commitFree (s : Dev) : Dev := s.tick.tick.commit (Config.commitOk s.free) (Config.commitOk (s.free + 1))

/-- PERIODIC_COMMIT: in START, RUN, QUIET and RIDE-THROUGH. -/
def execPeriodicCommit (ok1 ok2 : Bool) (s : State) : Out :=
  mainAct s fun d =>
    match d.power.st with
    | .start | .run | .quiet | .rideThrough => d.commit ok1 ok2
    | _ => d

/-! ### Snapshots and boundaries (R273) -/

/-- Flags of SNAPF. -/
def Snap.LATE : Nat := 1
def Snap.CLOCK : Nat := 2
def Snap.MANUAL : Nat := 4
def Snap.ALARM : Nat := 8

/-- The newest valid snapshot: its slot and image. -/
def Mram.newestSnap (m : Mram) : Option (Nat × Image) :=
  (m.snaps.mapIdx fun i (o : Option Image) => (i, o)).foldl (fun (b : Option (Nat × Image)) e =>
    match e.2, b with
    | none, _ => b
    | some k, none => some (e.1, k)
    | some k, some (_, n) => if newer 32 k.seq n.seq then some (e.1, k) else b) none

/-- A snapshot of the whole image into slot SNAP_NEXT, with its minute and flags; SNAP_NEXT moves on (R273). -/
def Dev.snapshot (s : Dev) (minute snapf : Nat) : Dev :=
  let slot := s.get Fld.BILL_STAT_SNAP_NEXT
  let seq := match s.mram.newestSnap with | some (_, n) => (n.seq + 1) % 2 ^ 32 | none => 1
  let i := { s.imageOf none with kind := 1, snapf := snapf + (if s.on Fld.BILL_STAT_RESTORED then 16 else 0), seq := seq, lastb := minute }
  { s with mram := { s.mram with snaps := setAt s.mram.snaps slot (some i) } }.set Fld.BILL_STAT_SNAP_NEXT ((slot + 1) % 24)

/-- The period flags, MD, MDT and isolation time of every point clear (R266, R273). -/
def Bp.newPeriod (p : Bp) : Bp := { p with md := 0, mdt := 0, flags := 0, isoS := 0, isoFrac := 0 }

/-- Journal a BILL event with its DATA and late mark. -/
def Dev.billNote (s : Dev) (no bp : Nat) (late : Bool) (data : List Byte) : Dev :=
  (s.raiseEv { code := evCode Pg.BILL no, own := true, seq := s.newestSeq }).journal (evCode Pg.BILL no) bp false late data

/-- A billing-period boundary (R273). A late one (R276) flags every point LATE, and its snapshot is taken with the flag (R266; DEDUCED, log 44). -/
def Dev.periodBoundary (s : Dev) (minute snapf : Nat) : Dev :=
  let slot := s.get Fld.BILL_STAT_SNAP_NEXT
  let s0 := (if snapf % 2 = 1 then s.flagAll Flg.LATE else s).imgPublish
  let s1 := (((s0.snapshot minute snapf).set Fld.BILL_LAST_BOUNDARY_MIN minute).bpAll Bp.newPeriod).commitFree
  if snapf % 4 = 0 then s1.raise Pg.BILL 3 else s1.billNote 4 0xFF (snapf % 2 == 1) (leBytes 4 minute ++ leBytes 1 slot)

/-- A snapshot that is no boundary, of an alarm or a command, with its commit. -/
def Dev.extraSnapshot (s : Dev) (minute snapf : Nat) : Dev := (s.imgPublish.snapshot minute snapf).commitFree

/-- A minute is a billing boundary (R273). -/
def Dev.isBoundary (s : Dev) (minute : Nat) : Bool :=
  let d := Date.ofSecs (minute * 60)
  let at_ := d.hour == s.get Fld.BILL_PERIOD_HOUR && d.min == s.get Fld.BILL_PERIOD_MIN
  match s.get Fld.BILL_PERIOD_KIND with
  | 0 => at_ && d.day == s.get Fld.BILL_PERIOD_DAY
  | 1 => at_
  | _ => false

/-- The billing boundaries after minute `a` and at or before minute `b`, in order: at most one a day. -/
def Dev.boundaries (s : Dev) (a b : Nat) : List Nat :=
  let tod := s.get Fld.BILL_PERIOD_HOUR * 60 + s.get Fld.BILL_PERIOD_MIN
  ((List.range (b / 1440 + 1 - a / 1440)).map fun i => (a / 1440 + i) * 1440 + tod).filter fun m => decide (a < m) && decide (m ≤ b) && s.isBoundary m

/-- The latest billing boundary at or before a minute, 0 for none within 62 days (R275, R276). -/
def Dev.latestBoundary (s : Dev) (m : Nat) : Nat := ((s.boundaries (m - 62 * 1440) m).getLast?).getD 0

/-! ### Demand (R271, R272) -/

/-- LEN in minutes. -/
def demLen (len : Nat) : Nat := nth [5, 10, 15, 30, 60] len 60
/-- The scheme's LEN in minutes and number of subintervals; 1 for block demand. -/
def Dev.demScheme (s : Dev) : Nat × Nat :=
  (demLen (s.get Fld.BILL_DEMAND_LEN), if s.get Fld.BILL_DEMAND_MODE = 0 then 1 else s.get Fld.BILL_DEMAND_NSUB)
/-- Minutes from one close to the next. -/
def Dev.demSub (s : Dev) : Nat := s.demScheme.1 / s.demScheme.2

/-- A point's demand at a close: its value, and the point with DACC cleared, history and MD updated (R272). -/
def Bp.demand (p : Bp) (len nsub flags endMin : Nat) : Nat × Bp :=
  let pw := satN 0xFFFFFFFF (p.dacc * nsub / (len * 60 * 1000000))
  let dem := if nsub = 1 then pw else satN 0xFFFFFFFF ((pw + (p.subh.take (nsub - 1)).sum) / nsub)
  let q := { p with dacc := 0, subh := if nsub = 1 then p.subh else (pw :: p.subh).take 3, flags := p.flags ||| flags }
  (dem, if p.md < dem then { q with md := dem, mdt := endMin } else q)

/-- PF where a holdup touched the running (sub)interval up to an MT (R58). -/
def Bill.touched (b : Bill) (mt : Nat) : Nat := if b.holdups.any fun h => decide (h.1 < mt) && decide (b.demMt < h.2) then Flg.PF else 0

/-- The running (sub)interval closes as at a minute, its last tick at an MT; its flags reach every point; BILL event 5 (R272). -/
def Dev.demClose (s : Dev) (endMin mt flags : Nat) : Dev :=
  let k := s.demScheme
  let r : List (Nat × Bp) := s.bill.img.bp.map fun (p : Bp) => p.demand k.1 k.2 (flags ||| s.bill.touched mt) endMin
  ({ s with bill := { s.bill with demLast := r.map Prod.fst, demFlags := 0, demMt := mt, holdups := s.bill.holdups.filter fun h => decide (mt < h.2), img := { s.bill.img with bp := r.map Prod.snd, dstart := endMin } } }).raise Pg.BILL 5

/-- The sliding history is cleared. -/
def Dev.demForget (s : Dev) : Dev := s.bpAll fun (p : Bp) => { p with subh := [0, 0, 0] }

/-- The nominal end of the running (sub)interval, in minutes. -/
def Dev.demNominal (s : Dev) : Nat := s.bill.img.dstart + s.demSub

/-- The start of the aligned interval that holds a minute. -/
def Dev.demAlign (s : Dev) (m : Nat) : Nat := m - m % s.demSub

/-- Step 1 of R275: the running interval closes flagged CLOCK and the history clears. -/
def Dev.demEnd (s : Dev) (endMin : Nat) : Dev := (s.demClose endMin s.mt (s.bill.demFlags ||| Flg.CLOCK)).demForget

/-- Step 2 of R275: the aligned interval that holds a minute begins, flagged CLOCK when it closes. -/
def Dev.demBegin (s : Dev) (newMin : Nat) : Dev :=
  { s with bill := { s.bill with demFlags := Flg.CLOCK, img := { s.bill.img with dstart := s.demAlign newMin } } }

/-- Steps 1 and 2 of R275. -/
def Dev.demClock (s : Dev) (endMin newMin : Nat) : Dev := (s.demEnd endMin).demBegin newMin

/-- The accepted pairs of sliding demand (R271). -/
def demPairOk (len nsub : Nat) : Bool := [(10, 2), (15, 3), (30, 2), (30, 3), (60, 2), (60, 3), (60, 4)].contains (len, nsub)

/-- DEMAND_SCHEME_WRITE: a change closes the running interval under the old scheme and begins the aligned one of the new, by steps 1 and 2 of R275 (R271). -/
def Dev.demWrite (s : Dev) (v : Word) : Dev :=
  let w := BitVec.ofNat 32 (v.toNat &&& 0x3F7)
  let mode := bitsOf w 9 8
  let len := bitsOf w 2 0
  let ok := decide (len ≤ 4) && (mode == 0 || (mode == 1 && demPairOk (demLen len) (bitsOf w 7 4)))
  s.rwlGate Pg.BILL Reg.BILL_DEMAND w fun t =>
    if !ok then t.cfgErr Pg.BILL
    else if t.rd Reg.BILL_DEMAND = w then t
    else if !t.billUp then t.wr Reg.BILL_DEMAND w
    else (((t.demEnd t.demNominal).wr Reg.BILL_DEMAND w).demBegin (t.secs / 60)).flagAll Flg.CLOCK

def execDemandSchemeWrite (m : Nat) (v : Word) (s : State) : Out := wrAct m Reg.BILL_DEMAND v s fun d => d.demWrite v

/-! ### Energy into registers, credit, demand and pulses (R263, R264, R287, R288) -/

/-- `e` µJ into quantity `q` at tariff `t`: the point and the whole mWh added (R264). -/
def Bp.add (p : Bp) (q e t : Nat) : Bp × Nat :=
  let r := nth p.rem q 0 + e
  let w := r / 3600000
  ({ p with rem := setAt p.rem q (r % 3600000), mwh := updAt p.mwh (q * 8 + t) fun n => (n + w) % 2 ^ 64 }, w)

/-- The sum over the tariffs of a quantity. -/
def Bp.total (p : Bp) (q : Nat) : Nat := ((p.mwh.drop (q * 8)).take 8).sum

/-- `n` mWh at `c` nano-units each, added to or taken from credit (R287). -/
def Bp.charge (p : Bp) (n : Nat) (c : Int) : Bp :=
  let a := p.acc + n * c
  { p with credit := p.credit + a.tdiv 1000000, acc := a.tmod 1000000 }

/-- The energy rule for `n` whole mWh added to A+ (q = 0) or A− (q = 1) of point `b` (R287, R288). -/
def Dev.creditRule (s : Dev) (b q n t : Nat) : Dev :=
  if n = 0 ∨ 1 < q ∨ (q = 1 ∧ ¬ s.on (Fld.PREPAY_BP_CFG_EXPCR b)) then s
  else
    let sign : Int := if q = 1 then 1 else -1
    if s.on (Fld.PREPAY_BP_CFG_UNIT b) then s.bpUpd b fun p => p.charge n (1000 * sign)
    else match priceOf s.bill.tariff ((nth s.bill.bound b {}).cfg / 2 ^ 24 % 4) q t with
      | some c => s.bpUpd b fun p => p.charge n (c * sign)
      | none =>
        let s1 := (s.set (Fld.PREPAY_BP_STATE_NOPRICE b) 1).set Fld.PREPAY_STAT_NOPRICE 1
        if s.bill.noPriceTold then s1 else { s1 with bill := { s1.bill with noPriceTold := true } }.raiseBp Pg.PREPAY 9 b

/-- The quantity a point's demand accumulates: A+, A−, S+, S− (R272). -/
def demQty (src : Nat) : Nat := nth [0, 1, 6, 7] src 0

/-- add() of R264 for a point, with pulses, demand, credit and the rollover of a total (R265). -/
def Dev.billAdd (s : Dev) (b : Nat) (key : Binding) (q e span : Nat) : Dev :=
  let t := (s.tarNow (key.cfg / 2 ^ 24 % 4)).tar
  let r := (s.bp b).add q e t
  let s1 := s.bpUpd b fun _ => if demQty (key.cfg / 2 ^ 20 % 8) = q then { r.1 with dacc := r.1.dacc + e } else r.1
  let roll := r.1.total q / 10 ^ 14
  let s2 := if (s.bp b).total q / 10 ^ 14 < roll then s1.billNote 6 b false (leBytes 1 q ++ leBytes 4 roll) else s1
  (s2.creditRule b q r.2 t).pulseBill b q e span

/-- apply() of R263 for a set of lane records: the quantities and their increments. -/
def increments (qsrc : Bool) (l : List Rec) : List (Nat × Nat) :=
  let p := (l.map (·.ep)).sum
  let p1 := (l.map (·.ep1)).sum
  let q := (l.map fun r => if qsrc then r.eq else r.eq1).sum
  let e := (l.map fun (r : Rec) => r.es).sum.toNat
  (if 0 ≤ p then [(0, p.toNat), (6, e), if 0 ≤ q then (2, q.toNat) else (5, (-q).toNat)]
   else [(1, (-p).toNat), (7, e), if 0 ≤ q then (3, q.toNat) else (4, (-q).toNat)])
  ++ [if 0 ≤ p1 then (8, p1.toNat) else (9, (-p1).toNat)]

/-! ### Meter tamper (R324) -/

/-- One evaluation of a condition: the state after it, and whether it began (true) or ended (false). -/
def Cond.step (c : Cond) (met : Bool) (n : Nat) : Cond × Option Bool :=
  if met = c.on then ({ c with cnt := 0 }, none)
  else if n ≤ c.cnt + 1 then (⟨met, 0⟩, some met)
  else ({ c with cnt := c.cnt + 1 }, none)

/-- A meter condition of source `n` began or ended: sticky flag, event, journal entry naming the lane, point or group. -/
def Dev.meterCond (s : Dev) (n item bp : Nat) (e : Option Bool) : Dev :=
  match e with
  | none => s
  | some true => (s.stick n).driveAlarm.raiseJ Pg.TAMP (n - 5) bp false (leBytes 1 item)
  | some false => s.raiseEv { code := evCode Pg.TAMP 8, seq := s.newestSeq, item := item, bp := bp }

/-- TAMP.LIVE and the masks of active conditions. -/
def Dev.meterShow (s : Dev) : Dev :=
  let revBp := fun (b : Nat) => let k := nth s.bill.bound b {}
    k.en && k.slots.any fun i => decide (k.role i < 3) && (nth s.tamp.rev (k.lane i) {}).on
  let rev := maskOf 64 revBp
  let byp := maskOf 64 fun b => (nth s.bill.bound b {}).en && (nth s.tamp.byp b {}).on
  let neut := maskOf 4 fun g => (nth s.tamp.neut g {}).on
  (((((s.set64 Reg.TAMP_REV_BP_LO Reg.TAMP_REV_BP_HI rev).set64 Reg.TAMP_BYP_BP_LO Reg.TAMP_BYP_BP_HI byp).set Fld.TAMP_NEUT_VG_VG neut).tampLive 8 (rev != 0)).tampLive 9 (byp != 0)).tampLive 10 (neut != 0)

/-- The square of the magnitude of a sum of phasors (RMS, angle in 10^-4 degree), scaled by 2^160. -/
def phasorSq (l : List (Int × Int)) : Int :=
  let t := fun (a : Int) => (a % 3600000).toNat
  let x := (l.map fun p => p.1 * cosTurn (t p.2) 3600000).sum
  let y := (l.map fun p => p.1 * sinTurn (t p.2) 3600000).sum
  x * x + y * y

/-- A magnitude exceeds a threshold. -/
def phasorOver (l : List (Int × Int)) (thr : Nat) : Bool := decide ((thr * thr : Nat) * 2 ^ 160 < phasorSq l)

/-- An injected evaluation of source `n` counts as met (R337, R77). -/
def Dev.tampInj (s : Dev) (n : Nat) : Dev :=
  if s.injArmed Pg.TAMP n then
    let live := s.injLive Pg.TAMP
    (s.injUse Pg.TAMP).qualifyInj n live
  else s

/-- REV on one lane of a point. -/
def Dev.revLane (s : Dev) (b : Nat) (psum : Int) (lane : Nat) (r : Rec) (iso : Bool) : Dev :=
  let met := decide (r.ep < 0) && decide (0 < psum) && !r.noload && !iso
  let c := (nth s.tamp.rev lane {}).step met (s.get Fld.TAMP_MCYC_REVCYC)
  { s with tamp := { s.tamp with rev := setAt s.tamp.rev lane c.1 } }.meterCond 8 lane b c.2

/-- BYP on a point with a lane in role N (`hasN`); a record excluded for isolation leaves the condition unmet. -/
def Dev.bypPoint (s : Dev) (b : Nat) (hasN isolated : Bool) (phase neutral : List Rec) : Dev :=
  if !hasN then s
  else
    let ph := phase.filter fun r => !r.noload
    let nn := neutral.filter fun r => !r.noload
    let thr := max (s.get Fld.TAMP_BYP_MIN * 1000) (s.get Fld.TAMP_BYP_PCT * ((ph.map (·.uf)).foldl max 0) / 1000)
    let met := !isolated && phasorOver ((ph.map fun r => ((r.uf : Int), r.ufAng)) ++ nn.map fun r => (-(r.uf : Int), r.ufAng)) thr
    let c := (nth s.tamp.byp b {}).step met (s.get Fld.TAMP_MCYC_BYPCYC)
    { s with tamp := { s.tamp with byp := setAt s.tamp.byp b c.1 } }.meterCond 9 b b c.2

/-- The record comes from an isolated lane (R261, R103). -/
def Rec.isolated (r : Rec) : Bool := r.inj && r.iso

/-- The voltage record of channel U(4g + j) for a cycle of group `g`: the one posted, else the newest committed. -/
def Dev.voltOf (s : Dev) (g j cyc : Nat) : Rec :=
  match s.bill.volts.find? fun e => e.1 == 192 + 4 * g + j && e.2.cyc == cyc with
  | some e => e.2
  | none => (nth s.meter.committed (192 + 4 * g + j) none).getD {}

/-- NEUT on a group, from the voltage records of the applied cycle; an isolated one does not meet the condition. -/
def Dev.neutGrp (s : Dev) (g cyc : Nat) : Dev :=
  let u := fun (j : Nat) => s.voltOf g j cyc
  let udin := s.get (Fld.PQE_VG_UDIN_MV g)
  let npe := decide (udin * s.get Fld.TAMP_NEUT_NPE < (u 3).rms) && !(u 3).isolated
  let zero := !s.on (Fld.FRAME_VG_CFG_SRC g) && !((List.range 3).any fun j => (u j).isolated) && phasorOver [((u 0).uf, 0), ((u 1).uf, (u 1).ufAng), ((u 2).uf, (u 2).ufAng)] (3 * udin * s.get Fld.TAMP_NEUT_V0)
  let c := (nth s.tamp.neut g {}).step (npe || zero) (s.get Fld.TAMP_NCYC_N)
  { s with tamp := { s.tamp with neut := setAt s.tamp.neut g c.1 } }.meterCond 10 g 0xFF c.2

/-! ### A cycle applied (R261–R266) -/

/-- The MT of a record's end. -/
def Rec.endMt (r : Rec) : Nat := r.mt + r.span * 768 / 65536

/-- The BPb_STAT flags that a cycle's records set. -/
def recFlagsOf (l : List Rec) : Nat :=
  (if l.any fun r => r.subst || r.resync then Flg.SUBST else 0) ||| (if l.any (·.unverified) then Flg.UNVERIFIED else 0)
    ||| (if l.any (·.clp) then Flg.CLP else 0) ||| (if l.any (·.pf) then Flg.PF else 0)
    ||| (if l.any (·.isolated) then Flg.ISOLATED else 0) ||| (if l.any fun r => r.inj && !r.iso then Flg.INJ else 0)

/-- The isolation time of a cycle: its span rounded to 2^-16 s, carried into whole seconds. -/
def Bp.isolate (p : Bp) (span : Nat) : Bp :=
  let f := p.isoFrac + roundDiv span 32000
  { p with isoFrac := f % 65536, isoS := (p.isoS + f / 65536) % 2 ^ 32 }

/-- The records of one cycle are applied to a point. -/
def Dev.applyCycle (s : Dev) (b : Nat) (ps : List Posting) : Dev :=
  match ps with
  | [] => s
  | p0 :: _ =>
    let key := p0.key
    let roleOf : Nat → Nat := fun l => match key.slots.find? fun i => key.lane i == l with | some i => key.role i | none => 3
    let span := p0.rcd.span
    let all := ps.map (·.rcd)
    let used : List Posting := ps.filter fun p => !p.rcd.isolated
    let phase := (used.filter fun p => decide (roleOf p.lane < 3)).map (·.rcd)
    let out := ps.filter fun p => p.rcd.isolated
    let s1 := s.bpUpd b fun q => { q with flags := q.flags ||| recFlagsOf all }
    let s2 := if out.isEmpty then s1 else out.foldl (fun (t : Dev) p => t.raiseEv { code := evCode Pg.BILL 8, seq := t.newestSeq, item := p.lane, bp := b }) (s1.bpUpd b fun q => q.isolate span)
    let qsrc := natBit key.cfg 29
    let incs := if natBit key.cfg 30 then phase.flatMap fun r => increments qsrc [r] else if phase.isEmpty then [] else increments qsrc phase
    let s3 := incs.foldl (fun (t : Dev) i => t.billAdd b key i.1 i.2 span) s2
    let psum := (phase.map (·.ep)).sum
    let s5 := if s3.tampActive 8 then (ps.filter fun (p : Posting) => decide (roleOf p.lane < 3)).foldl (fun (t : Dev) p => t.revLane b psum p.lane p.rcd p.rcd.isolated) (s3.tampInj 8) else s3
    let s6 := if s5.tampActive 9 then (s5.tampInj 9).bypPoint b (key.slots.any fun i => key.role i == 3) (!out.isEmpty) phase ((used.filter fun p => roleOf p.lane == 3).map (·.rcd)) else s5
    let first := nth s6.bill.img.cyc p0.grp 0 != p0.rcd.cyc
    let s7 := if s6.tampActive 10 && first then (s6.tampInj 10).neutGrp p0.grp p0.rcd.cyc else s6
    let s8 := (s7.meterShow.imgUpd fun i => { i with cyc := setAt i.cyc p0.grp p0.rcd.cyc }).imgPublish
    { s8 with
      upd := { s8.upd with applied := s8.upd.applied ||| 2 ^ p0.grp }
      bill := { s8.bill with volts := s8.bill.volts.filter fun e => !((e.1 - 192) / 4 == p0.grp && newer 32 p0.rcd.cyc e.2.cyc) } }

/-- The oldest complete cycle of a point: its postings, one from every bound lane. -/
def Dev.readyCycle (s : Dev) (b : Nat) : Option (List Posting) :=
  let mine := s.bill.posts.filter fun p => p.bp == b
  (mine.map fun p => mine.filter fun q => q.rcd.cyc == p.rcd.cyc && q.key == p.key && q.grp == p.grp).find? fun l =>
    match l with
    | [] => false
    | p :: _ => p.key.slots.all fun i => l.any fun q => q.lane == p.key.lane i

/-- Postings of a point that an applied cycle leaves behind: older ones of its lanes can never be completed. -/
def Dev.dropPosts (s : Dev) (b : Nat) (l : List Posting) : Dev :=
  let old := fun (p : Posting) => p.bp == b && l.any fun q => q.grp == p.grp && q.key == p.key && !newer 32 p.rcd.cyc q.rcd.cyc
  { s with bill := { s.bill with posts := s.bill.posts.filter fun p => !old p } }

/-- The cycle ends in or after a second whose boundaries have still to run (R262, R274). -/
def Dev.awaits (s : Dev) (endMt : Nat) : Bool := !s.on Fld.RTC_STAT_OSF && s.bill.due.any fun x => decide (x.2 ≤ endMt)

/-- One cycle of a point is applied, unless it waits for its second's boundaries (`force` leaves that wait out, R60); an end before the boundaries that ran last raises BILL event 12. -/
def Dev.applyNext (s : Dev) (b : Nat) (force : Bool) : Dev :=
  match s.readyCycle b with
  | none => s
  | some l =>
    let e := (l.map fun p => p.rcd.endMt).foldl max 0
    if !force && s.awaits e then s
    else
      let s1 := if decide (e < s.bill.done.2) && !s.on Fld.RTC_STAT_OSF then s.raiseBp Pg.BILL 12 b else s
      (s1.applyCycle b l).dropPosts b l

/-- BILLING_APPLY_CYCLE. After a holdup the billing engine then takes the next slot of those that wait (R196). -/
def execBillingApplyCycle (b : Nat) (s : State) : Out :=
  mainAct s fun d =>
    if d.billUp && !d.bill.frozen && decide (b < 64) then
      let t := d.applyNext b false
      if t.inHoldup || t.meter.holdup.isEmpty then t else t.holdupStep
    else d

/-- Every complete cycle is applied without waiting: at a power-fail commit and the final commit (R57, R64). -/
def Dev.applyAll (s : Dev) : Dev :=
  if s.billUp && !s.bill.frozen then forN 64 s fun t b => (List.range t.bill.posts.length).foldl (fun (u : Dev) _ => u.applyNext b true) t else s

/-! ### Bindings (R259, R260) -/

/-- A written binding of point `b` passes the checks of R259: all of them for a write of EN = 0 too, but for the first, which asks a phase lane of an enabled point alone. -/
def Dev.bindOk (s : Dev) (b : Nat) (k : Binding) : Bool :=
  let lanes := k.slots.map k.lane
  let roles := k.slots.map k.role
  (!k.en || roles.any (· < 3)) && lanes.all (· < 192) && noRepeat lanes && noRepeat roles
    && lanes.all (fun l => s.chGrp l == k.vg && s.blkOn (chBlk l) && natBit (s.get (Fld.BLK_EN (chBlk l))) (chBit l))
    && lanes.all (fun l => (List.range 64).all fun o => o == b || !((nth s.bill.bound o {}).has l || s.bill.pendingB.any fun p => p.1 == o && p.2.has l))
    && k.slots.all fun i => (s.scaleOf (k.lane i)).iscale != 0 && (decide (2 < k.role i) || (s.scaleOf (192 + 4 * k.vg + k.role i)).iscale != 0)

/-- BINDING_WRITE. -/
def Dev.bindWrite (s : Dev) (b : Nat) (v : Word) : Dev :=
  let w := BitVec.ofNat 32 (v.toNat &&& 0xEF700000)
  let k : Binding := ⟨s.get (Fld.BILL_BP_LANE_SLOTS b), (s.rd (Reg.BILL_BP_ROLE b)).toNat, w.toNat⟩
  s.rwlGate Pg.BILL (Reg.BILL_BP_CFG b) w fun t =>
    if 3 < bitsOf w 22 20 || !t.bindOk b k then t.cfgErr Pg.BILL
    else
      let t1 := t.wr (Reg.BILL_BP_CFG b) w
      let rest := t1.bill.pendingB.filter fun p => p.1 != b
      if !k.en && !(nth t1.bill.bound b {}).en then { t1 with bill := { t1.bill with pendingB := rest } }
      else { t1 with bill := { t1.bill with pendingB := rest ++ [(b, k)] } }

def execBindingWrite (m : Nat) (b : Nat) (v : Word) (s : State) : Out := wrAct m (Reg.BILL_BP_CFG b) v s fun d => if b < 64 then d.bindWrite b v else d

/-! ### Commands and register reads (R265, R283) -/

/-- A keyed write of BILL.CMD: OP 1 or 2 runs, 0 and 3 and any OP in HOLDUP are refused. -/
def Dev.billCmd (s : Dev) (v : Word) : Dev :=
  s.keyed Pg.BILL 0x5B v fun t =>
    let op := bitsOf v 1 0
    if op = 0 ∨ op = 3 ∨ t.power.st = .holdup then t.cfgErr Pg.BILL
    else if op = 1 then t.commitFree
    else if t.billUp && !t.bill.frozen then t.extraSnapshot (t.secs / 60) Snap.MANUAL else t

def execBillCommitNow (m : Nat) (v : Word) (s : State) : Out := wrAct m Reg.BILL_CMD v s fun d => d.billCmd v
def execBillManualSnapshot (m : Nat) (v : Word) (s : State) : Out := wrAct m Reg.BILL_CMD v s fun d => d.billCmd v

/-- DEM_NOW: DACC over the time elapsed in the running interval (R283). -/
def Dev.demNow (s : Dev) (p : Bp) : Nat :=
  let el := s.linAt s.mt - s.bill.img.dstart * 60 * 32768
  if el = 0 then Config.demNow s.free % 2 ^ 32 else satN 0xFFFFFFFF (p.dacc * 32768 / (el * 1000000))

/-- A write of BILL.RSEL latches every R* and DEM_* register (R265, R283). -/
def Dev.rsel (s : Dev) (v : Word) : Dev :=
  let w := BitVec.ofNat 32 (v.toNat / 4096 * 4096)
  let slot := bitsOf w 30 26
  let b := bitsOf w 25 20
  let q := bitsOf w 19 16
  let t := bitsOf w 15 12
  if 23 < slot ∨ 9 < q ∨ 8 < t then s.cfgErr Pg.BILL
  else
    let p := if bitAt w 31 then match nth s.mram.snaps slot none with | some i => nth i.bp b {} | none => {} else s.bp b
    let tot := p.total q
    let x := if t = 0 then tot else nth p.mwh (q * 8 + t - 1) 0
    let qu := 10 ^ s.get Fld.BILL_CFG_QK
    let s1 := (((s.wr Reg.BILL_RSEL w).set64 Reg.BILL_RVAL_LO Reg.BILL_RVAL_HI (x / qu)).set64 Reg.BILL_RREM_LO Reg.BILL_RREM_HI (tot % qu * 3600000 + nth p.rem q 0)).set64
      Reg.BILL_RDISP_LO Reg.BILL_RDISP_HI (x / 1000 % 10 ^ 11)
    let s2 := (((s1.set Fld.BILL_RROLL_ROLL (if t = 0 then tot / 10 ^ 14 else 0)).set Fld.BILL_DEM_NOW_W (s.demNow (s.bp b))).set Fld.BILL_DEM_LAST_W (nth s.bill.demLast b 0)).tick
    (s2.set Fld.BILL_DEM_MAX_W p.md).set Fld.BILL_DEM_MAXT_MIN p.mdt

def execRegisterSelect (m : Nat) (v : Word) (s : State) : Out := wrAct m Reg.BILL_RSEL v s fun d => d.rsel v

end Sys2Proof.Machine
end

