-- ==== Sys2Proof/Machine/Disc.lean ====
section
/-! DEFINITION. Disconnects (R297–R309, R317, R318): outputs and the chain, operations and batches in rank order, trips, feedback checks, wear, and the sequence table. -/

namespace Sys2Proof.Machine

/-! ### Positions -/

def Dev.discUpd (s : Dev) (f : Disc → Disc) : Dev := { s with disc := f s.disc }

/-- Position `n` is bound to billing point `b`. -/
def Dev.dpOf (s : Dev) (b n : Nat) : Bool := s.dpOn n && s.on (Fld.DISC_DP_CFG_BPEN n) && s.get (Fld.DISC_DP_CFG_BP n) == b
/-- The positions of a billing point. -/
def Dev.dpsOf (s : Dev) (b : Nat) : List Nat := (List.range 64).filter fun n => s.dpOf b n
/-- Position `n` is armed for a local close. -/
def Dev.dpArmed (s : Dev) (n : Nat) : Bool := natBit s.disc.armMask n
/-- Position `n` was opened by prepayment. -/
def Dev.dpPrepaid (s : Dev) (n : Nat) : Bool := natBit s.disc.causeMask n

/-- An operation of position `n` has run or is in a batch, and its check has not ended. -/
def Dev.dpRunning (s : Dev) (n : Nat) : Bool := (s.dp n).pending || s.disc.ranks.any fun r => r.ops.any fun o => o.dp == n
/-- Position `n` is pending: from the acceptance of its operation to the end of its check (R302). -/
def Dev.dpPending (s : Dev) (n : Nat) : Bool := s.dpRunning n || s.disc.tripWait.contains n || s.disc.queue.any fun o => o.dp == n
/-- Any position is pending (R63). -/
def Dev.discBusy (s : Dev) : Bool := (List.range 64).any s.dpPending
/-- DISC.STAT.QUEUED. -/
def Dev.discQueued (s : Dev) : Nat := satN 255 (s.disc.queue.length + s.disc.tripWait.length + (s.disc.ranks.map fun r => r.ops.length).sum)

/-- DPn_STAT.STATE (R317). -/
def Dev.dpState (s : Dev) (n : Nat) : Nat :=
  let p := s.dp n
  if !s.dpOn n then 0
  else if !p.verified then (if p.isOpen then 2 else 4)
  else if !p.isOpen then 1
  else if s.dpArmed n then 5 else 3

/-- The level that commands position `n` (R297). -/
def Dev.dpLevel (s : Dev) (n : Nat) : Bool := (s.dp n).isOpen != s.on (Fld.DISC_DP_CFG_POL n)

/-- Drive position `n`: a direct output at once, a chained one in the next frame (R297, R298). -/
def Dev.dpDrive (s : Dev) (n : Nat) : Dev :=
  let v := s.dpLevel n
  let s1 := s.dpUpd n fun p => { p with level := v }
  if n < 16 then { s1 with pins := { s1.pins with ddrv := putBit s1.pins.ddrv n v } } else s1

/-- The chain may send frames: enabled, and not in HOLDUP (R57, R60). -/
def Dev.chainOn (s : Dev) : Bool := s.on Fld.DISC_CHAIN_CEN && s.power.st != .holdup

/-- A frame: all 48 chained outputs are shifted and latched at their commanded levels; the first enables the outputs' GPIO (R299–R301). -/
def Dev.chainFrame (s : Dev) : Dev :=
  if !s.chainOn then s
  else
    let s1 := forN 48 s fun t k => t.dpDrive (16 + k)
    s1.discUpd fun d => { d with chain := maskOf 48 fun k => (nth d.dps (16 + k) {}).level, chainLatched := true, oe := d.oe || s.on Fld.DISC_CHAIN_OE_EN }

/-- Arm position `n`: DISC event 9 (R303). -/
def Dev.dpArm (s : Dev) (n : Nat) : Dev :=
  if s.dpArmed n then s else (s.discUpd fun d => { d with armMask := putBit d.armMask n true }).raiseItem Pg.DISC 9 n
def Dev.dpDisarm (s : Dev) (n : Nat) : Dev := s.discUpd fun d => { d with armMask := putBit d.armMask n false }

/-! ### Executions (R302, R307, R308) -/

/-- Wear of an execution: OPS, and for an open the current it broke, with their warnings once per position (R308). -/
def Dev.dpWear (s : Dev) (n : Nat) (isOpen : Bool) : Dev :=
  let lane := s.get (Fld.DISC_DP_CFG_LANE n)
  let da := if isOpen && lane != 0xFF then match nth s.meter.committed lane none with | some r => roundDiv r.rms 100000 | none => 0 else 0
  let s1 := (s.bump (Fld.DISC_DP_OPS_N n)).set (Fld.DISC_DP_IBRK_DA n) (satN 0xFFFFFFFF (s.get (Fld.DISC_DP_IBRK_DA n) + da))
  let reach := fun (f : Field) (lim : Nat) => decide (s.get f < lim) && decide (lim ≤ s1.get f)
  let w5 := !(s.dp n).opsWarned && reach (Fld.DISC_DP_OPS_N n) (s.get Fld.DISC_WEAR_LIM_OPS_K * 1000)
  let w6 := !(s.dp n).ibrkWarned && reach (Fld.DISC_DP_IBRK_DA n) (s.get Fld.DISC_WEAR_LIM_IBRK_KA * 10000)
  let s2 := if w5 then (s1.dpUpd n fun p => { p with opsWarned := true }).raiseItem Pg.DISC 5 n else s1
  if w6 then (s2.dpUpd n fun p => { p with ibrkWarned := true }).raiseItem Pg.DISC 6 n else s2

/-- The check of position `n` ends in agreement: event 1 for its operation. -/
def Dev.dpVerify (s : Dev) (n : Nat) : Dev :=
  let was := (s.dp n).pending
  let s1 := s.dpUpd n fun p => { p with pending := false, verified := true, recheck := none }
  if was then s1.raiseItem Pg.DISC 1 n else s1

/-- One operation is executed: causes 1 COMMAND, 2 PREPAY, 3 TRIP, 4 LOCAL. -/
def Dev.dpRun (s : Dev) (o : DOp) : Dev :=
  let n := o.dp
  let s1 := (s.dpUpd n fun p => { p with isOpen := o.isOpen, pending := true, verified := false, recheck := none, curRun := 0 }).dpDrive n
  let s2 := s1.discUpd fun d => { d with armMask := putBit d.armMask n false, causeMask := putBit d.causeMask n (o.isOpen && o.cause == 2) }
  let s3 := if o.isOpen then s2.set (Fld.DISC_DP_STAT_CAUSE n) o.cause else s2
  let s4 := (s3.dpWear n o.isOpen).raiseItem Pg.DISC 0 n
  let s5 := if o.cause = 4 then s4.raiseJ Pg.DISC 10 (s4.get (Fld.DISC_DP_CFG_BP n)) false (leBytes 1 n ++ leBytes 1 4) else s4
  if s5.on (Fld.DISC_DP_CFG_FBEN n) then s5 else s5.dpVerify n

/-- A local close of a billing point has still to run. -/
def Dev.localLeft (s : Dev) (b : Nat) : Bool :=
  s.disc.queue.any (fun o => o.cause == 4 && s.dpOf b o.dp) || s.disc.ranks.any fun r => r.ops.any fun o => o.cause == 4 && s.dpOf b o.dp

/-- A billing point leaves DISCONNECTED or ARMED (R293): reconnection disarmed, CREDIT, PREPAY event 8. While OSF is set no prepayment state changes, so this waits for its clearing (R295, R351). -/
def Dev.reconnect (s : Dev) (b : Nat) : Dev :=
  if s.on Fld.RTC_STAT_OSF then s.discUpd fun d => { d with reconn := if d.reconn.contains b then d.reconn else d.reconn ++ [b] }
  else if (s.bp b).state = 5 ∨ (s.bp b).state = 6 then (s.bpUpd b fun p => { p with armed := false, state := 1 }).raiseBp Pg.PREPAY 8 b else s

/-- A trip that waited for position `n`'s own operation runs, as a batch of its own (R302). -/
def Dev.tripNext (s : Dev) (n : Nat) : Dev :=
  if !s.disc.tripWait.contains n || s.dpRunning n then s
  else
    let s1 := s.discUpd fun d => { d with tripWait := d.tripWait.filter (· != n) }
    if (s.dp n).isOpen then s1
    else
      let s2 := s1.dpRun ⟨n, true, 3⟩
      (if n < 16 then s2 else s2.chainFrame).raise Pg.DISC 4

/-- The first rank runs: its operations in one frame or direct update; the last rank of a batch raises event 4; points whose local closes are done reconnect. -/
def Dev.rankRun (s : Dev) : Dev :=
  match s.disc.ranks with
  | [] => s
  | r :: rest =>
    let s1 := r.ops.foldl Dev.dpRun (s.discUpd fun d => { d with ranks := rest })
    let s2 := if r.ops.any fun o => decide (16 ≤ o.dp) then s1.chainFrame else s1
    let bps := (r.ops.filter fun o => o.cause == 4 && s.on (Fld.DISC_DP_CFG_BPEN o.dp)).map fun o => s.get (Fld.DISC_DP_CFG_BP o.dp)
    let s3 := bps.foldl (fun (t : Dev) b => if t.localLeft b then t else t.reconnect b) s2
    r.ops.foldl (fun (t : Dev) o => t.tripNext o.dp) (if r.last then s3.raise Pg.DISC 4 else s3)

/-- Operations may run: not in HOLDUP or SHUTDOWN TEST. -/
def Dev.discMay (s : Dev) : Bool := s.power.st != .holdup && s.power.st != .shutdownTest

/-- RANK_GAP_EXPIRY. -/
def execRankGapExpiry (s : State) : Out := mainAct s fun d => if d.discMay then d.rankRun else d

/-! ### Batches (R302, R304) -/

/-- The default gap in ms. -/
def Dev.defGap (s : Dev) : Nat := 10 * s.get Fld.DISC_CTRL_DEFGAP

/-- The rank and gap of an operation. -/
def Dev.rankOf (s : Dev) (o : DOp) : Nat × Nat :=
  match s.disc.table.find? fun e => e.dp == o.dp with
  | some e => (if o.isOpen then e.openRank else e.closeRank, e.gap)
  | none => (15, s.defGap)

/-- Operations of one direction as ranks: by the table's ranks, or each its own with no table. -/
def Dev.ranksOf (s : Dev) (l : List DOp) : List Rank :=
  if s.disc.table.isEmpty then l.map fun o => ⟨[o], s.defGap, false⟩
  else (List.range 16).filterMap fun k =>
    let m := l.filter fun o => (s.rankOf o).1 == k
    if m.isEmpty then none else some ⟨m, (m.map fun o => (s.rankOf o).2).foldl max 0, false⟩

/-- The last rank of a list ends the batch. -/
def markLast : List Rank → List Rank
  | [] => []
  | [r] => [{ r with last := true }]
  | r :: l => r :: markLast l

/-- The last operation of each position, in the order commanded. -/
def lastOps (l : List DOp) : List DOp :=
  (l.foldl (fun (a : List DOp) o => a.filter (fun x => x.dp != o.dp) ++ [o]) [])

/-- A commanded close of a position that closes locally only (R303): LOCAL, or opened by prepayment. -/
def Dev.closesLocally (s : Dev) (n : Nat) : Bool := s.on (Fld.DISC_DP_CFG_LOCAL n) || s.dpPrepaid n

/-- Position `n` is armed where it is open. -/
def Dev.dpArmOpen (s : Dev) (n : Nat) : Dev := if (s.dp n).isOpen then s.dpArm n else s

/-- A batch of the operations in the queue whose positions are not running: opens win over closes of the same position (event 11) and run first; a commanded close of a position that prepayment has opened since arms it. -/
def Dev.batch (s0 : Dev) : Dev :=
  let turn := s0.disc.queue.filter fun o => !s0.dpRunning o.dp && !o.isOpen && o.cause == 1 && s0.closesLocally o.dp
  let s := turn.foldl (fun (t : Dev) o => t.dpArmOpen o.dp) (s0.discUpd fun d => { d with queue := d.queue.filter fun o => !turn.contains o })
  let now := s.disc.queue.filter fun o => !s.dpRunning o.dp
  let later := s.disc.queue.filter fun o => s.dpRunning o.dp
  let opens := lastOps (now.filter (·.isOpen))
  let closes := lastOps (now.filter fun o => !o.isOpen)
  let dropped := closes.filter fun o => opens.any fun x => x.dp == o.dp
  let kept := closes.filter fun o => !opens.any fun x => x.dp == o.dp
  let new := markLast (s.ranksOf opens ++ s.ranksOf kept)
  let idle := s.disc.ranks.isEmpty
  let s1 := s.discUpd fun d => { d with queue := later, ranks := d.ranks ++ new }
  let s2 := dropped.foldl (fun (t : Dev) o => t.raiseItem Pg.DISC 11 o.dp) s1
  if idle then s2.rankRun else s2

/-- An operation is accepted; a queued one of a running position is replaced (R302). -/
def Dev.discQueue (s : Dev) (o : DOp) : Dev :=
  s.discUpd fun d => { d with queue := (if s.dpRunning o.dp then d.queue.filter fun x => x.dp != o.dp else d.queue) ++ [o] }

/-! ### Commands (R303, R317) -/

/-- The positions a DISC.CMD word names. -/
def Dev.discTargets (s : Dev) (v : Word) : List Nat :=
  let t := bitsOf v 13 8
  if bitAt v 15 then s.dpsOf t else if s.dpOn t then [t] else []

/-- A close of one position: queued, or arming it where it closes locally only (R303). -/
def Dev.discClose (s : Dev) (n : Nat) : Dev :=
  if s.closesLocally n then s.dpArmOpen n else s.discQueue ⟨n, false, 1⟩

/-- A keyed write of DISC.CMD. -/
def Dev.discCmd (s : Dev) (v : Word) : Dev :=
  s.keyed Pg.DISC 0xD5 v fun t =>
    let l := t.discTargets v
    if l.isEmpty || !t.discMay then t.cfgErr Pg.DISC
    else match bitsOf v 2 0 with
      | 1 => l.foldl (fun (u : Dev) n => u.discQueue ⟨n, true, 1⟩) t
      | 2 => l.foldl Dev.discClose t
      | 3 => l.foldl Dev.dpDisarm t
      | _ => t.cfgErr Pg.DISC

def execDiscOpen (m : Nat) (v : Word) (s : State) : Out := wrAct m Reg.DISC_CMD v s fun d => d.discCmd v
def execDiscClose (m : Nat) (v : Word) (s : State) : Out := wrAct m Reg.DISC_CMD v s fun d => d.discCmd v
def execDiscDisarm (m : Nat) (v : Word) (s : State) : Out := wrAct m Reg.DISC_CMD v s fun d => d.discCmd v

/-! ### Trips (R306) -/

/-- TRIP_BATCH: a slot whose event was raised opens its position in a batch of its own, once an operation that runs on it has finished (R302). -/
def Dev.trip (s : Dev) (k : Nat) : Dev :=
  let n := s.get (Fld.DISC_TRIP_DP k)
  let s1 := s.discUpd fun d => { d with trips := d.trips.filter fun x => x.1 != k }
  if !s.disc.trips.any (fun x => x.1 == k) then s
  else if !s.dpOn n || (s.dp n).isOpen then s1
  else if !s.discMay then s1.raiseItem Pg.DISC 8 n
  else
    let s2 := s1.raiseItem Pg.DISC 7 n
    if s2.dpRunning n then s2.discUpd fun d => { d with tripWait := if d.tripWait.contains n then d.tripWait else d.tripWait ++ [n] }
    else
      let s3 := s2.dpRun ⟨n, true, 3⟩
      (if n < 16 then s3 else s3.chainFrame).raise Pg.DISC 4

def execTripBatch (slot : Nat) (s : State) : Out := mainAct s fun d => if slot < 8 then d.trip slot else d

/-! ### Feedback (R297, R307) -/

/-- A feedback level reads open. -/
def Dev.fbOpen (s : Dev) (n : Nat) (fb : Bool) : Bool := fb != s.on (Fld.DISC_DP_CFG_FBPOL n)

/-- The FB mask shows a position's feedback. -/
def Dev.fbShow (s : Dev) (n : Nat) (fb : Bool) : Dev :=
  let a : Field := if n < 32 then Fld.DISC_FB_LO_FB else Fld.DISC_FB_HI_FB
  s.set a (putBit (s.get a) (n % 32) (s.fbOpen n fb))

/-- Feedback checks are made: the position is enabled with FBEN; they pause in HOLDUP (R60). -/
def Dev.fbOn (s : Dev) (n : Nat) : Bool := s.dpOn n && s.on (Fld.DISC_DP_CFG_FBEN n) && s.power.st != .holdup

/-- One check of position `n`: whether it disagrees, and whether an injection made it (R318). -/
def Dev.fbTry (s : Dev) (n : Nat) (bad : Bool) : Dev × Bool × Bool :=
  if s.injArmed Pg.DISC n then (s.injUse Pg.DISC, true, true) else (s, bad, false)

/-- FEEDBACK_CHECK: SETTLE after an execution (or a restored level). -/
def Dev.fbCheck (s : Dev) (n : Nat) (fb : Bool) : Dev :=
  if !s.fbOn n || (s.dp n).recheck.isSome then s
  else
    let r := (s.fbShow n fb).fbTry n (s.fbOpen n fb != (s.dp n).isOpen)
    if r.2.1 then r.1.dpUpd n fun p => { p with recheck := some (if r.2.2 then 5 else 1) } else r.1.dpVerify n

def execFeedbackCheck (n : Nat) (fb : Bool) (s : State) : Out := mainAct s fun d => if n < 64 then (d.fbCheck n fb).tripNext n else d

/-- The fault bit of a position. -/
def Dev.dpFault (s : Dev) (n : Nat) : Dev :=
  let a : Field := if n < 32 then Fld.DISC_FAULT_LO_FAULT else Fld.DISC_FAULT_HI_FAULT
  s.set a (s.get a ||| 2 ^ (n % 32))

/-- A lasting disagreement: fault bit, FCODE, event 3, journal (R307). -/
def Dev.dpLasting (s : Dev) (n code : Nat) (inj live : Bool) : Dev :=
  let s1 := ((s.dpFault n).set (Fld.DISC_DP_STAT_FCODE n) code).dpUpd n fun p => { p with pending := false, recheck := none, verified := inj && !live && p.verified }
  (s1.raiseEv { code := evCode Pg.DISC 3, inj := inj, item := n, own := true, seq := s.newestSeq } live).journal (evCode Pg.DISC 3) 0xFF inj false (leBytes 1 n ++ leBytes 1 code)

/-- FEEDBACK_RECHECK: 200 ms after a disagreement. -/
def Dev.fbRecheck (s : Dev) (n : Nat) (fb : Bool) : Dev :=
  match (s.dp n).recheck with
  | none => s
  | some c =>
    if (!s.fbOn n && c != 3) || s.power.st == .holdup then s
    else
      let live := s.injLive Pg.DISC
      let off := s.fbOpen n fb != (s.dp n).isOpen
      let bad := if c = 3 then decide (10 ≤ (s.dp n).curRun) else off
      let r := (s.fbShow n fb).fbTry n bad
      let inj := r.2.2 || c == 5
      if r.2.1 then r.1.dpLasting n (if r.2.2 && live then 5 else if c = 5 then 1 else c) inj live
      else ((r.1.bump (Fld.DISC_DP_STAT_TRANS n)).raiseEv { code := evCode Pg.DISC 2, inj := inj, item := n, seq := s.newestSeq } live).dpVerify n

def execFeedbackRecheck (n : Nat) (fb : Bool) (s : State) : Out := mainAct s fun d => if n < 64 then (d.fbRecheck n fb).tripNext n else d

/-- The feedback of position `n` as last shown in the FB mask. -/
def Dev.fbWas (s : Dev) (n : Nat) : Bool := natBit (s.get (if n < 32 then Fld.DISC_FB_LO_FB else Fld.DISC_FB_HI_FB)) (n % 32)

/-- A steady position whose feedback changed without an operation is checked: a disagreement begins a re-check (FCODE 2), agreement returns a position that a fault left unverified to OPEN or CLOSED (R307). -/
def Dev.fbWatch (s : Dev) (n : Nat) (fb : Bool) : Dev :=
  let p := s.dp n
  let s1 := s.fbShow n fb
  if !s.fbOn n || p.pending || p.recheck.isSome then s1
  else if s.fbOpen n fb != p.isOpen then (if p.verified || s.fbOpen n fb != s.fbWas n then s1.dpUpd n fun q => { q with recheck := some 2 } else s1)
  else if s.fbOpen n fb != s.fbWas n then s1.dpVerify n
  else s1

/-- FEEDBACK_SAMPLE: the sixteen direct feedbacks, every 1 ms (R298). -/
def execFeedbackSample (fb : Nat) (s : State) : Out := mainAct s fun d => forN 16 d fun t n => t.fbWatch n (natBit fb n)

/-- CHAIN_REFRESH: a frame, and the feedback of DP16–DP63 it brings (R299). -/
def Dev.chainRefresh (s : Dev) (fb : Nat) : Dev :=
  if s.chainOn then forN 48 s.chainFrame fun t k => t.fbWatch (16 + k) (natBit fb k) else s

def execChainRefresh (fb : Nat) (s : State) : Out := mainAct s fun d => d.chainRefresh fb

/-! ### Configuration and the sequence table (R301, R304, R317) -/

/-- DP_CONFIG_WRITE. -/
def Dev.dpConfig (s : Dev) (n : Nat) (v : Word) : Dev :=
  let w := BitVec.ofNat 32 (v.toNat &&& 0xFFF0FF00)
  let lane := bitsOf w 15 8
  if s.dpPending n || (decide (16 ≤ n) && !s.on Fld.DISC_CHAIN_CEN) || (bitAt w 29 && !bitAt w 28) || (decide (191 < lane) && lane != 0xFF) then s.cfgErr Pg.DISC
  else
    let s1 := (s.wr (Reg.DISC_DP_CFG n) w).dpUpd n fun p => { p with verified := !bitAt w 21, recheck := none, curRun := 0 }
    if bitAt w 31 && decide (n < 16) then s1.dpDrive n else s1

def execDpConfigWrite (m n : Nat) (v : Word) (s : State) : Out := wrAct m (Reg.DISC_DP_CFG n) v s fun d => if n < 64 then d.dpConfig n v else d

/-- A sequence entry (R304). -/
def seqEntry (e : Entry) : SeqEntry := ⟨leAt e 0 1, leAt e 1 1, leAt e 2 1, leAt e 4 2⟩

/-- The content check of R304. -/
def seqContent (es : List Entry) : Bool :=
  noRepeat (es.map fun e => leAt e 0 1) && es.all fun e =>
    decide (leAt e 0 1 ≤ 63) && decide (leAt e 1 1 ≤ 15) && decide (leAt e 2 1 ≤ 15) && decide (leAt e 4 2 ≤ 10000) && zeroAt e [3, 6, 7]

/-- The check of the sequence image at `src` ends. -/
def Dev.seqLoad (s : Dev) (mem : List Host.Cell) (src : Nat) : Dev :=
  let r := tblCheck mem src { type := 4, esize := 8, area := 1024, content := seqContent }
  if r.1 = 0 then (s.tblShow Reg.DISC_TBL_STAT r.2).discUpd fun d => { d with table := r.2.entries.map seqEntry } else s.tblReject Reg.DISC_TBL_STAT r.1

/-- A write of DISC.LOAD. -/
def Dev.seqGo (s : Dev) (v : Word) : Dev := if bitAt v 0 then s.tblGo { stat := Reg.DISC_TBL_STAT, src := s.get Fld.DISC_SRC_ADDR } else s

def execSequenceTableLoad (m : Nat) (v : Word) (s : State) : Out := wrAct m Reg.DISC_LOAD v s fun d => d.seqGo v

/-- A power-fail warning discards later ranks and queued operations: journalled, event 8 (R309). -/
def Dev.discDiscard (s : Dev) : Dev :=
  let n := s.discQueued
  let ops := (s.disc.queue ++ s.disc.ranks.flatMap (·.ops)).filter fun o => o.isOpen && o.cause == 2
  let s1 := s.discUpd fun d => { d with queue := [], ranks := [], presses := [], tripWait := [], redo := d.redo ++ ops.map fun o => s.get (Fld.DISC_DP_CFG_BP o.dp) }
  if n = 0 then s1 else s1.raiseJ Pg.DISC 8 0xFF false (leBytes 1 n)

end Sys2Proof.Machine
end

