-- ==== Sys2Proof/Machine/Prepay.lean ====
section
/-! DEFINITION. Prepayment (R287–R296, R305, R315, R316): tokens and their window, arming and emergency credit, the evaluation of a second, and what a long press closes. -/

namespace Sys2Proof.Machine

/-! ### Emergency credit, the floor, arming (R293, R295) -/

/-- The schedule of a billing point. -/
def Dev.schedOf (s : Dev) (b : Nat) : Nat := (nth s.bill.bound b {}).cfg / 2 ^ 24 % 4

/-- E and L of a point's schedule. -/
def Dev.emOf (s : Dev) (b : Nat) : Nat × Int := emergency s.bill.tariff (s.schedOf b)

/-- F: −E once emergency credit is accepted, else 0. -/
def Dev.floorOf (s : Dev) (b : Nat) : Int := if (s.bp b).ecacc then -((s.emOf b).1 : Int) else 0

/-- Emergency credit is on offer. -/
def Dev.ecOffer (s : Dev) (b : Nat) : Bool :=
  let e := (s.emOf b).1
  decide (0 < e) && !(s.bp b).ecacc && decide (-(e : Int) < (s.bp b).credit)

/-- The open positions of a point that prepayment opened are armed (R303); one that a command or a trip opened closes by a command (R306). -/
def Dev.armPositions (s : Dev) (b : Nat) : Dev := ((s.dpsOf b).filter fun n => (s.dp n).isOpen && s.dpPrepaid n).foldl Dev.dpArm s

/-- Reconnection of a point is armed (R295). -/
def Dev.prepayArm (s : Dev) (b : Nat) : Dev := (s.bpUpd b fun p => { p with armed := true }).armPositions b

/-- Reconnection is disarmed: positions that prepayment opened are no longer armed. -/
def Dev.prepayDisarm (s : Dev) (b : Nat) : Dev :=
  ((s.dpsOf b).filter s.dpPrepaid).foldl Dev.dpDisarm (s.bpUpd b fun p => { p with armed := false })

/-- Emergency credit is accepted: event 4, and it arms. -/
def Dev.ecAccept (s : Dev) (b : Nat) : Dev := ((s.bpUpd b fun p => { p with ecacc := true }).raiseBp Pg.PREPAY 4 b).prepayArm b

/-- A keyed write of PREPAY.CMD. -/
def Dev.prepayCmd (s : Dev) (v : Word) : Dev :=
  s.keyed Pg.PREPAY 0x9E v fun t =>
    let b := bitsOf v 21 16
    match bitsOf v 1 0 with
    | 1 => t.prepayArm b
    | 2 => if t.ecOffer b then t.ecAccept b else t.cfgErr Pg.PREPAY
    | 3 => t.prepayDisarm b
    | _ => t.cfgErr Pg.PREPAY

def execPrepayArm (m : Nat) (v : Word) (s : State) : Out := wrAct m Reg.PREPAY_CMD v s fun d => d.prepayCmd v
def execPrepayAcceptEc (m : Nat) (v : Word) (s : State) : Out := wrAct m Reg.PREPAY_CMD v s fun d => d.prepayCmd v
def execPrepayDisarm (m : Nat) (v : Word) (s : State) : Out := wrAct m Reg.PREPAY_CMD v s fun d => d.prepayCmd v

/-! ### Tokens (R289–R292) -/

/-- Fields of a token. -/
def tokTid (t : List Byte) : Nat := leAt t 0 4
def tokAmount (t : List Byte) : Nat := leAt t 4 8
def tokBp (t : List Byte) : Nat := leAt t 12 1
def tokKind (t : List Byte) : Nat := leAt t 13 1
def tokFlags (t : List Byte) : Nat := leAt t 14 1

/-- The window of R291: 0 accepted with the new H and mask, 4 REPLAY, 5 OLD. -/
def tokWindow (i : Image) (tid : Nat) : Nat × Nat × Nat :=
  if !i.tidAny then (0, tid, 1)
  else
    let d := serialDiff 32 tid i.tidH
    if 0 < d then (0, tid, (i.tidMask * 2 ^ d.toNat + 1) % 2 ^ 64)
    else if -63 ≤ d then (if natBit i.tidMask (-d).toNat then (4, i.tidH, i.tidMask) else (0, i.tidH, i.tidMask ||| 2 ^ (-d).toNat))
    else (5, i.tidH, i.tidMask)

/-- Steps 4 to 10 of R290. -/
def Dev.tokContent (s : Dev) (t : List Byte) : Nat :=
  let kind := tokKind t
  let b := tokBp t
  let w := (tokWindow s.bill.img (tokTid t)).1
  if slice t 16 8 ≠ s.otp.devid then 2
  else if tokTid t = 0 ∨ 3 < tokFlags t ∨ leAt t 15 1 ≠ 0 then 11
  else if kind = 0 ∨ 3 < kind ∨ (kind = 3 ∧ tokAmount t ≠ 0) then 7
  else if 63 < b then 3
  else if kind ≠ 3 ∧ tokFlags t % 2 ≠ s.get (Fld.PREPAY_BP_CFG_UNIT b) then 6
  else if w ≠ 0 then w
  else if kind ≠ 3 ∧ 2 ^ 62 < tokAmount t then 8
  else if kind = 1 ∧ 2 ^ 63 - 1 < (s.bp b).credit + tokAmount t then 8
  else 0

/-- TSTAT of a token. -/
def Dev.tstat (s : Dev) (t : List Byte) (reason : Nat) : Dev :=
  (((s.set Fld.PREPAY_TSTAT_REASON reason).set Fld.PREPAY_TSTAT_BP (tokBp t % 64)).set Fld.PREPAY_TSTAT_DONE 1).set Fld.PREPAY_TSTAT_BUSY 0

/-- A token is refused: it changes nothing; PREPAY event 1. -/
def Dev.tokRefuse (s : Dev) (t : List Byte) (reason : Nat) (inj live : Bool) : Dev := (s.tstat t reason).raiseEv { code := evCode Pg.PREPAY 1, inj := inj, seq := s.newestSeq, bp := if reason = 3 then 0xFF else tokBp t % 64 } live

/-- The checks of R290 on the token in TOKEN0–7; an accepted one waits for the billing engine. -/
def Dev.tokCheck (s : Dev) (commit : Bool) : Dev :=
  let t := s.wordBytes (Reg.PREPAY_TOKEN 0) 8
  if s.power.st = .holdup ∨ s.power.st = .shutdownTest then s.tokRefuse t 10 false true
  else match s.sec.tok with
    | none => s.tokRefuse t 9 false true
    | some k =>
      if s.injArmed Pg.PREPAY 0 then (s.injUse Pg.PREPAY).tokRefuse t 1 true (s.injLive Pg.PREPAY)
      else if slice (hmac k (t.take 24)) 0 8 ≠ slice t 24 8 then s.tokRefuse t 1 false true
      else
        let r := s.tokContent t
        if r ≠ 0 then s.tokRefuse t r false true
        else { s.set Fld.PREPAY_TSTAT_BUSY 1 with prepay := { todo := some t, commit := commit } }

/-- TOKEN_CHECK: a keyed write of TCMD. -/
def Dev.tcmd (s : Dev) (v : Word) : Dev :=
  s.keyed Pg.PREPAY 0x9D v fun t =>
    if bitAt v 0 && t.on Fld.PREPAY_TSTAT_BUSY then t.cfgErr Pg.PREPAY
    else
      let t1 := t.set Fld.PREPAY_TCMD_COMMIT (bitsOf v 1 1)
      if bitAt v 0 then t1.tokCheck (bitAt v 1) else t1

def execTokenCheck (m : Nat) (v : Word) (s : State) : Out := wrAct m Reg.PREPAY_TCMD v s fun d => d.tcmd v

/-- An accepted token is applied: amount, window, arming, event 0, and the commit it asked for (R290, R292). -/
def Dev.tokApply (s : Dev) : Dev :=
  match s.prepay.todo with
  | none => s
  | some t =>
    if !s.billUp || s.bill.frozen then s
    else
      let b := tokBp t
      let w := tokWindow s.bill.img (tokTid t)
      let amount : Int := tokAmount t
      let s1 := { s with prepay := {} }.imgUpd fun i => { i with tidH := w.2.1, tidMask := w.2.2, tidAny := true }
      let s2 := s1.bpUpd b fun p =>
        if tokKind t = 1 then { p with credit := p.credit + amount }
        else if tokKind t = 2 then { p with credit := amount, acc := 0, ecacc := false }
        else p
      let s3 := if tokKind t = 3 ∨ natBit (tokFlags t) 1 then s2.prepayArm b else s2
      let s4 := (((s3.set Fld.PREPAY_TID_LAST_H w.2.1).count Fld.PREPAY_STAT_TOKENS).tstat t 0).raiseBp Pg.PREPAY 0 b
      if s.prepay.commit then s4.imgPublish.commitFree else s4

def execTokenApply (s : State) : Out := mainAct s Dev.tokApply

/-! ### The evaluation of a second (R293, R294) -/

/-- An open of position `n` waits in the queue, in a rank, or behind a running operation. -/
def Dev.openWaits (s : Dev) (n : Nat) : Bool :=
  s.disc.tripWait.contains n || (s.disc.queue ++ s.disc.ranks.flatMap (·.ops)).any fun o => o.dp == n && o.isOpen

/-- Open requests for a point's positions that are not open. -/
def Dev.prepayOpen (s : Dev) (b : Nat) : Dev :=
  ((s.dpsOf b).filter fun n => !(s.dp n).isOpen && !s.openWaits n).foldl (fun (t : Dev) n => t.discQueue ⟨n, true, 2⟩) s

/-- Requests that a warning discarded, or that had not run before a reset, are made again at an evaluation (R309). -/
def Dev.prepayRedo (s : Dev) (b : Nat) : Dev :=
  if s.disc.redo.contains b && !(s.dpsOf b).isEmpty then (s.discUpd fun d => { d with redo := d.redo.filter (· != b) }).prepayOpen b else s

/-- A point's state and DEFER. -/
def Dev.prepaySet (s : Dev) (b st : Nat) (defer : Bool) : Dev := s.bpUpd b fun p => { p with state := st, defer := defer }

/-- Rows 1 and 2 of R293: a point that is DISCONNECTED or ARMED. -/
def Dev.prepayOff (s : Dev) (b : Nat) : Dev :=
  let p := s.bp b
  if p.credit ≤ s.floorOf b then ((s.prepayDisarm b).prepaySet b 5 false).prepayRedo b
  else
    let s1 := if s.on (Fld.PREPAY_BP_CFG_AUTOARM b) && decide (0 < p.credit) then s.prepayArm b else s
    if (s1.bp b).armed then
      let s2 := (s1.armPositions b).prepaySet b 6 false
      if p.state = 6 then s2 else s2.raiseBp Pg.PREPAY 7 b
    else s1.prepaySet b 5 false

/-- Rows 3 to 7 of R293. -/
def Dev.prepayOnRows (s : Dev) (b sec : Nat) : Dev :=
  let p := s.bp b
  let was := p.state
  let c := p.credit
  if c ≤ s.floorOf b then
    if s.friendlyNow (s.schedOf b) sec then
      let s1 := s.prepaySet b 3 true
      if was = 3 then s1 else (s1.raiseBp Pg.PREPAY 3 b).raiseBp Pg.PREPAY 6 b
    else
      let s1 := (s.prepaySet b 5 false).prepayOpen b
      (if was = 3 then s1 else s1.raiseBp Pg.PREPAY 3 b).raiseBp Pg.PREPAY 5 b
  else if c ≤ 0 then s.prepaySet b 4 false
  else if c ≤ (s.emOf b).2 then
    let s1 := s.prepaySet b 2 false
    if was = 2 then s1 else s1.raiseBp Pg.PREPAY 2 b
  else s.prepaySet b 1 false

/-- One enabled point at step 6 of a second. -/
def Dev.prepayPoint (s : Dev) (b sec : Nat) : Dev :=
  let s1 := s.bpUpd b fun p => { p with ecacc := p.ecacc && !decide (0 < p.credit), state := if p.state = 0 then 1 else p.state }
  if (s1.bp b).state = 5 ∨ (s1.bp b).state = 6 then s1.prepayOff b else s1.prepayOnRows b sec

/-- Reconnections that waited for OSF to clear. -/
def Dev.reconnNow (s : Dev) : Dev := s.disc.reconn.foldl Dev.reconnect (s.discUpd fun d => { d with reconn := [] })

/-- Step 6 of R274. -/
def Dev.prepayEval (s : Dev) (sec : Nat) : Dev := forN 64 s.reconnNow fun t b => if t.on (Fld.PREPAY_BP_CFG_EN b) then t.prepayPoint b sec else t

/-- A write of BPb_CFG: disabling sets STATE to OFF (R293). -/
def Dev.prepayCfg (s : Dev) (b : Nat) (v : Word) : Dev :=
  let w := BitVec.ofNat 32 (v.toNat / 2 ^ 28 * 2 ^ 28)
  s.rwlGate Pg.PREPAY (Reg.PREPAY_BP_CFG b) w fun t =>
    let t1 := t.wr (Reg.PREPAY_BP_CFG b) w
    if bitAt w 31 then t1 else t1.prepaySet b 0 false

/-! ### The long press and step 7 (R302, R305) -/

/-- Local closes of positions. -/
def Dev.localClose (s : Dev) (l : List Nat) : Dev := l.foldl (fun (t : Dev) n => t.discQueue ⟨n, false, 4⟩) s

/-- The armed positions of a point. -/
def Dev.armedOf (s : Dev) (b : Nat) : List Nat := (s.dpsOf b).filter s.dpArmed

/-- A long press on billing point `b` (R305); a point without a position to close reconnects at the press (R293). -/
def Dev.press (s : Dev) (b : Nat) : Dev :=
  let st := (s.bp b).state
  let close := fun (t : Dev) => if (t.armedOf b).isEmpty then t.reconnect b else t.localClose (t.armedOf b)
  if st = 6 then close s
  else if (st = 5 ∨ st = 3) ∧ s.ecOffer b then close (s.ecAccept b)
  else s.localClose ((s.armedOf b).filter fun n => !s.dpPrepaid n)

/-- Step 7 of R274: long presses, then the batch of what was collected. -/
def Dev.step7 (s : Dev) : Dev :=
  if !s.discMay then s
  else
    let s1 := s.disc.presses.foldl Dev.press (s.discUpd fun d => { d with presses := [] })
    if s1.disc.queue.isEmpty then s1 else s1.batch

/-- PREPAY.BPb_STATE (R315). -/
def Dev.prepayState (s : Dev) (b : Nat) : Nat :=
  let p := s.bp b
  p.state + (if p.ecacc then 8 else 0) + (if p.defer then 16 else 0) + 32 * s.get (Fld.PREPAY_BP_STATE_NOPRICE b)

end Sys2Proof.Machine
end

