-- ==== Sys2Proof/Machine/Display.lean ====
section
/-! DEFINITION. The display and the buttons (R310–R314, R319, R320): the display table, pages and their values, frames, scrolling, selection. -/

namespace Sys2Proof.Machine

/-! ### The display table (R311, R312) -/

/-- Entries of a kind. -/
def dispOf (t : List Entry) (k : Nat) : List Entry := t.filter fun e => e.kind == k

/-- NBITS of the CTRL entry. -/
def dispBits (t : List Entry) : Nat := match dispOf t 1 with | e :: _ => leAt e 6 2 | [] => 0

/-- Bytes that a kind does not list are 0. -/
def dispReserved (e : Entry) : Bool :=
  let from_ := fun (n : Nat) => (List.range (20 - n)).map (· + n)
  match e.kind with
  | 1 => zeroAt e (1 :: from_ 8)
  | 2 => zeroAt e [2, 3]
  | 3 => zeroAt e (from_ 3)
  | 4 => zeroAt e (from_ 4)
  | 5 => zeroAt e (from_ 16)
  | 6 => zeroAt e ([2, 3] ++ from_ 8)
  | _ => false

/-- The display-bit addresses of a digit's segments a to g and dp. -/
def Entry.segs (e : Entry) : List Nat := (List.range 8).map fun i => leAt e (4 + 2 * i) 2

/-- Positions that a run of digits uses are defined. -/
def posDefined (t : List Entry) (first n : Nat) : Bool := (List.range n).all fun i => (dispOf t 2).any fun e => leAt e 1 1 == first + i

/-- A PAGE entry (R312). -/
def pageOk (t : List Entry) (e : Entry) : Bool :=
  let src := leAt e 2 1
  let bp := leAt e 3 1
  let n := leAt e 7 1 + leAt e 8 1
  decide (leAt e 1 1 ≤ 63) && decide (src ≤ 5) && (decide (bp ≤ 63) || (bp == 0xFF && decide (4 ≤ src)))
    && (src != 0 || (decide (leAt e 4 1 ≤ 9) && decide (leAt e 5 1 ≤ 8)))
    && decide (1 ≤ leAt e 6 1) && decide (leAt e 6 1 ≤ 60) && decide (1 ≤ leAt e 7 1) && decide (leAt e 7 1 ≤ 8) && decide (leAt e 8 1 ≤ 3)
    && posDefined t (leAt e 9 1) n && (leAt e 10 1 == 0xFF || posDefined t (leAt e 10 1) 4) && (leAt e 11 1 == 0xFF || decide (leAt e 11 1 ≤ 15))

/-- The content check of R312. -/
def dispContent (t : List Entry) : Bool :=
  let nb := dispBits t
  t.isEmpty || ((dispOf t 1).length == 1 && t.all dispReserved
    && (dispOf t 1).all (fun e => decide (leAt e 2 1 ≤ 16) && decide (leAt e 3 1 ≤ 16) && decide (8 ≤ leAt e 6 2) && decide (leAt e 6 2 ≤ 512))
    && (dispOf t 2).all (fun e => decide (leAt e 1 1 ≤ 15) && e.segs.all fun a => a == 0xFFFF || decide (a < nb))
    && (dispOf t 3).all (fun e => decide (0x20 ≤ leAt e 1 1) && decide (leAt e 1 1 ≤ 0x7E))
    && (dispOf t 4).all (fun e => decide (leAt e 1 1 ≤ 15) && decide (leAt e 2 2 < nb))
    && (dispOf t 5).all (pageOk t)
    && (dispOf t 6).all (fun e => decide (1 ≤ leAt e 1 1) && decide (leAt e 1 1 ≤ 32))
    && noRepeat ((dispOf t 2).map fun e => leAt e 1 1) && noRepeat ((dispOf t 3).map fun e => leAt e 1 1) && noRepeat ((dispOf t 4).map fun e => leAt e 1 1)
    && noRepeat ((dispOf t 5).map fun e => leAt e 1 1) && (dispOf t 5).all fun e => decide (leAt e 1 1 < (dispOf t 5).length))

/-- The check of the display image at `src` ends: event 3 or 4. -/
def Dev.dispLoad (s : Dev) (mem : List Host.Cell) (src : Nat) : Dev :=
  let r := tblCheck mem src { type := 2, esize := 20, area := 8192, content := dispContent }
  if r.1 = 0 then { s.tblShow Reg.DISP_TBL_STAT r.2 with disp := { s.disp with table := r.2.entries, page := 0 } }.raise Pg.DISP 3
  else (s.tblReject Reg.DISP_TBL_STAT r.1).raise Pg.DISP 4

/-- A write of DISP.LOAD. -/
def Dev.dispGo (s : Dev) (v : Word) : Dev := if bitAt v 0 then s.tblGo { stat := Reg.DISP_TBL_STAT, src := s.get Fld.DISP_SRC_ADDR } else s

def execDisplayTableLoad (m : Nat) (v : Word) (s : State) : Out := wrAct m Reg.DISP_LOAD v s fun d => d.dispGo v

/-! ### What a page shows (R313) -/

/-- The PAGE entry shown. -/
def Dev.pageEntry (s : Dev) : Option Entry := (dispOf s.disp.table 5).find? fun e => leAt e 1 1 == s.disp.page

/-- A displayed quotient, its rounding free (log 11). -/
def dispDiv (x : Int) (d : Nat) : Int := if d = 0 then Config.dispNone x else freeDiv siteDisp x d

/-- The phase lanes of a point in force, by role L1 to L3. -/
def Dev.phaseLanes (s : Dev) (b : Nat) : List Nat :=
  let k := nth s.bill.bound b {}
  if k.en then (k.slots.filter fun i => decide (k.role i < 3)).map k.lane else []

/-- Live records of a point's phase lanes. -/
def Dev.liveOf (s : Dev) (b : Nat) : List Rec := (s.phaseLanes b).filterMap fun l => nth s.meter.live l none

/-- The value of a page with SRC 0 to 3, in units of its last decimal. -/
def Dev.pageValue (s : Dev) (e : Entry) : Int :=
  let b := leAt e 3 1
  let d := 10 ^ (3 - leAt e 8 1)
  let p := s.bp b
  match leAt e 2 1 with
  | 0 => dispDiv ((if leAt e 5 1 = 0 then p.total (leAt e 4 1) else nth p.mwh (leAt e 4 1 * 8 + leAt e 5 1 - 1) 0) / 1000 % 10 ^ 11 : Nat) d
  | 1 => dispDiv p.credit d
  | 2 => dispDiv p.md d
  | _ =>
    let r := s.liveOf b
    dispDiv ((r.map fun (k : Rec) => k.ep).sum * 32000 * 65536) (((r.map fun (k : Rec) => k.span).foldl max 0) * 1000000 * d)

/-- `n` decimal digits of a number, most significant first. -/
def digitsOf : Nat → Nat → List Nat
  | 0, _ => []
  | n + 1, x => digitsOf n (x / 10) ++ [x % 10]

/-- ASCII of a digit. -/
def digitChar (d : Nat) : Nat := 48 + d

/-- Leading zeros before the last `keep` places are shown blank (log 11). -/
def blankLead (keep : Nat) : List Nat → List Nat
  | [] => []
  | c :: r => if c = 48 ∧ keep ≤ r.length then 32 :: blankLead keep r else c :: r

/-- The characters of a value in INT + DEC places (R313). -/
def valueChars (x : Int) (int dec : Nat) : List Nat :=
  let n := int + dec
  if 0 ≤ x then blankLead (dec + 1) ((digitsOf n (x.toNat % 10 ^ n)).map digitChar)
  else 45 :: blankLead (dec + 1) ((digitsOf (n - 1) ((-x).toNat % 10 ^ (n - 1))).map digitChar)

/-- Characters and decimal points of the page's digit places. -/
def Dev.pageChars (s : Dev) (e : Entry) : List (Nat × Bool) :=
  let int := leAt e 7 1
  let dec := leAt e 8 1
  let n := int + dec
  let d := Date.ofSecs s.secs
  let six := fun (a b c : Nat) => ((digitsOf 2 a ++ digitsOf 2 b ++ digitsOf 2 (c % 100)).map digitChar).mapIdx fun i c => (c, i == 1 || i == 3)
  let fit := fun (l : List (Nat × Bool)) => List.replicate (n - l.length) (32, false) ++ l.drop (l.length - n)
  match leAt e 2 1 with
  | 4 => fit (six d.day d.month d.year)
  | 5 => fit (six d.hour d.min d.sec)
  | _ => (valueChars (s.pageValue e) int dec).mapIdx fun i c => (c, decide (0 < dec) && i + 1 == int)

/-- The segments of a character; one without a glyph is blank. -/
def glyphOf (t : List Entry) (c : Nat) : Nat := match (dispOf t 3).find? fun e => leAt e 1 1 == c with | some e => leAt e 2 1 | none => 0

/-- Display bits lit by a character at a position. -/
def charBits (t : List Entry) (pos c : Nat) (dp : Bool) : List Nat :=
  match (dispOf t 2).find? fun e => leAt e 1 1 == pos with
  | none => []
  | some e =>
    let g := if dp then glyphOf t c ||| 128 else glyphOf t c
    ((List.range 8).filter fun i => natBit g i && nth (Entry.segs e) i 0xFFFF != 0xFFFF).map fun i => nth (Entry.segs e) i 0

/-- Icons lit on a page: its unit icon, and icons 5 to 10 for its billing point. -/
def Dev.pageIcons (s : Dev) (e : Entry) : List Nat :=
  let b := leAt e 3 1
  let st := (s.bp b).state
  let own := decide (b ≤ 63)
  (if leAt e 11 1 = 0xFF then [] else [leAt e 11 1])
    ++ (if own && (st == 2 || st == 4) && s.disp.flash then [5] else [])
    ++ (if own && (st == 5 || st == 3) then [6] else [])
    ++ (if own && st == 6 && s.disp.flash then [7] else [])
    ++ (if own && decide (((s.liveOf b).map fun (k : Rec) => k.ep).sum < 0) then [8] else [])
    ++ (if s.get Fld.TAMP_STICKY_SRC = 0 then [] else [9])
    ++ (if own && s.bpStat b &&& 0x7FE != 0 then [10] else [])

/-- The display bits of the page shown, lit addresses. -/
def Dev.pageLit (s : Dev) : List Nat :=
  match s.pageEntry with
  | none => []
  | some e =>
    let t := s.disp.table
    let digits := ((s.pageChars e).mapIdx fun i c => charBits t (leAt e 9 1 + i) c.1 c.2).flatten
    let label := if leAt e 10 1 = 0xFF then [] else (List.range 4).flatMap fun i => charBits t (leAt e 10 1 + i) (leAt e (12 + i) 1) false
    let icons := (s.pageIcons e).filterMap fun k => ((dispOf t 4).find? fun x => leAt x 1 1 == k).map fun x => leAt x 2 2
    digits ++ label ++ icons

/-- `n` bits of a number, most significant first. -/
def bitsMsb (n v : Nat) : List Bool := (List.range n).map fun i => natBit v (n - 1 - i)

/-- The bits of a display frame (R310). -/
def Dev.frameBits (s : Dev) : List Bool :=
  match dispOf s.disp.table 1 with
  | [] => []
  | c :: _ =>
    let lit := s.pageLit
    bitsMsb (leAt c 2 1) (leAt c 4 2) ++ List.replicate (leAt c 3 1) false ++ (List.range (leAt c 6 2)).map fun i => lit.contains i

/-- The display is refreshed: not in HOLDUP, QUIET or SHUTDOWN TEST (R52, R57). -/
def Dev.dispOn (s : Dev) : Bool := s.power.st == .run || s.power.st == .start || s.power.st == .rideThrough

/-- The display interface drives its pins: between frames DSCK and DSDA are low, DSCS at the level opposite to the one CSPOL asserts (R310). -/
def Dev.dispDrive (s : Dev) : Dev :=
  match dispOf s.disp.table 1 with
  | [] => s
  | _ :: _ => { s with pins := { s.pins with dsck := .low, dsda := .low, dscs := if s.on Fld.DISP_CTRL_CSPOL then .low else .high } }

/-- DISPLAY_FRAME: the bitmap goes out whole. -/
def Dev.dispFrame (s : Dev) : Dev :=
  if s.dispOn && !s.disp.table.isEmpty then { s.dispDrive with disp := { s.disp with bits := s.frameBits, frames := s.disp.frames + 1, flash := !s.disp.flash } } else s

def execDisplayFrame (s : State) : Out := mainAct s Dev.dispFrame

/-- DISPLAY_INIT: each INIT entry as a frame of its own, in table order. -/
def Dev.dispInit (s : Dev) : Dev :=
  if s.dispOn && !(dispOf s.disp.table 6).isEmpty then (dispOf s.disp.table 6).foldl (fun (t : Dev) e => { t with disp := { t.disp with bits := bitsMsb (leAt e 1 1) (leAt e 4 4), frames := t.disp.frames + 1 } }) s.dispDrive else s

def execDisplayInit (s : State) : Out := mainAct s Dev.dispInit

/-! ### Scrolling, selection, buttons (R314) -/

def Dev.dispUpd (s : Dev) (f : Disp → Disp) : Dev := { s with disp := f s.disp }

/-- Pages that scroll: all, or while a point is selected its own and those with BP 0xFF. -/
def Dev.scrolled (s : Dev) : List Nat :=
  ((dispOf s.disp.table 5).filter fun e => match s.disp.sel with | some b => leAt e 3 1 == b || leAt e 3 1 == 0xFF | none => true).map fun e => leAt e 1 1

/-- The next page that scrolls, round from the highest to the lowest. -/
def Dev.nextPage (s : Dev) : Dev :=
  let ps := s.scrolled
  let higher := ps.filter fun p => decide (s.disp.page < p)
  let low := fun (l : List Nat) => l.foldl (fun (m : Option Nat) p => match m with | some k => some (min k p) | none => some p) none
  match low higher, low ps with
  | some p, _ => s.dispUpd fun d => { d with page := p }
  | none, some p => s.dispUpd fun d => { d with page := p }
  | none, none => s

/-- Presses count: not in HOLDUP or SHUTDOWN TEST. -/
def Dev.button (s : Dev) (f : Dev → Dev) : Dev := if s.discMay then f s else s

/-- The MT at which a button just pressed is released: free (log 102). -/
def Dev.pressEnd (s : Dev) : Nat := s.mt + Config.pressTicks s.free

/-- BTN0 is pressed. -/
def Dev.btn0Down (s : Dev) : Dev := { s.tick with pins := { s.pins with btn0 := true, btn0End := s.pressEnd } }
/-- BTN1 is held past 2 s. -/
def Dev.btn1Down (s : Dev) : Dev := { s.tick with pins := { s.pins with btn1 := true, btn1End := s.pressEnd } }
/-- BTN1 is released. -/
def Dev.btn1Up (s : Dev) : Dev := { s with pins := { s.pins with btn1 := false } }

/-- Buttons whose release has come (R319). -/
def Dev.buttonsOver (s : Dev) : Dev :=
  { s with pins := { s.pins with btn0 := s.pins.btn0 && decide (s.mt < s.pins.btn0End), btn1 := s.pins.btn1 && decide (s.mt < s.pins.btn1End) } }

def execBtn0Press (s : State) : Out :=
  mainAct s fun d => d.btn0Down.button fun t => (t.nextPage.dispUpd fun k => { k with holding := true }).raise Pg.DISP 0

/-- A short press selects the point of the page shown, or clears the selection. -/
def Dev.shortPress (s : Dev) : Dev :=
  let s1 := match s.pageEntry with
    | some e => s.dispUpd fun d => { d with sel := if leAt e 3 1 = 0xFF then none else some (leAt e 3 1) }
    | none => s
  s1.raise Pg.DISP 1

def execBtn1ShortPress (s : State) : Out := mainAct s fun d => d.btn1Up.button Dev.shortPress

/-- A long press acts on the selected point at the next step 7 (R305). -/
def Dev.longPress (s : Dev) : Dev :=
  let s1 := match s.disp.sel with
    | some b => s.discUpd fun d => { d with presses := d.presses ++ [b] }
    | none => s
  s1.raise Pg.DISP 2

def execBtn1LongPress (s : State) : Out := mainAct s fun d => d.btn1Down.button Dev.longPress

def execPageDwellExpiry (s : State) : Out := mainAct s fun d => if d.disp.holding || !d.dispOn then d else d.nextPage
def execScrollHoldExpiry (s : State) : Out := mainAct s fun d => d.dispUpd fun k => { k with holding := false }
def execSelectionTimeout (s : State) : Out := mainAct s fun d => d.dispUpd fun k => { k with sel := none }

/-- A keyed write of DISP.CMD. -/
def Dev.dispCmd (s : Dev) (v : Word) : Dev :=
  s.keyed Pg.DISP 0x4D v fun t =>
    match bitsOf v 1 0 with
    | 1 => t.nextPage
    | 2 => t.dispUpd fun d => { d with sel := some (bitsOf v 21 16) }
    | 3 => t.dispUpd fun d => { d with holding := false }
    | _ => t.cfgErr Pg.DISP

def execDispNext (m : Nat) (v : Word) (s : State) : Out := wrAct m Reg.DISP_CMD v s fun d => d.dispCmd v
def execDispSelect (m : Nat) (v : Word) (s : State) : Out := wrAct m Reg.DISP_CMD v s fun d => d.dispCmd v
def execDispResume (m : Nat) (v : Word) (s : State) : Out := wrAct m Reg.DISP_CMD v s fun d => d.dispCmd v

/-- DISP.STAT (R319). -/
def Dev.dispStat (s : Dev) : Nat :=
  s.disp.page * 2 ^ 24 + (s.disp.sel.getD 0xFF) * 2 ^ 16 + (if s.power.st = .holdup then 4 else 0) + s.pins.btn1.toNat * 2 + s.pins.btn0.toNat

end Sys2Proof.Machine
end

