-- ==== Sys2Proof/Machine/Eyelet.lean ====
section
/-! DEFINITION. The Eyelet controller (R242–R258): scans of the wires, pods read, placed, bound, moved and removed, and transfers to a bound pod. -/

namespace Sys2Proof.Machine

/-! ### A pod's memory (R245–R248) -/

/-- CLASS and CHECK of an ID are right (R245). -/
def podIdOk (id : Nat) : Bool :=
  id / 2 ^ 56 == 0xB3 && crc16 (beBytes 6 (id / 65536)) == id % 65536

/-- A life record whose CRC is valid (R247). -/
def lifeAt (mem : List Byte) (off : Nat) : Option PodLife :=
  let b := slice mem off 64
  if crc16 (slice b 0 62) = leAt b 62 2 then some ⟨leAt b 0 4, leAt b 4 4, leAt b 8 8, leAt b 16 8, leAt b 24 1⟩ else none

/-- The life record in force and its slot: the valid one with the higher SEQ (R247); none where neither is valid. -/
def lifeOf (mem : List Byte) : Option (PodLife × Nat) :=
  match lifeAt mem 0x400, lifeAt mem 0x440 with
  | some a, some b => some (if newer 32 b.seq a.seq then (b, 1) else (a, 0))
  | some a, none => some (a, 0)
  | none, some b => some (b, 1)
  | none, none => none

/-- The current table: I, G, P. -/
def podCur (mem : List Byte) : List (Nat × Int × Int) :=
  (List.range 8).map fun i => (leAt mem (0x40 + 12 * i) 4, signedOf (leAt mem (0x44 + 12 * i) 4) 32, signedOf (leAt mem (0x48 + 12 * i) 4) 32)

/-- The temperature table: T, G, P. -/
def podTmp (mem : List Byte) : List (Int × Int × Int) :=
  (List.range 8).map fun i => (signedOf (leAt mem (0xA0 + 12 * i) 2) 16, signedOf (leAt mem (0xA4 + 12 * i) 4) 32, signedOf (leAt mem (0xA8 + 12 * i) 4) 32)

/-- A strictly increasing list. -/
def risingI : List Int → Bool
  | a :: b :: r => decide (a < b) && risingI (b :: r)
  | _ => true

/-- A gain or phase correction is within its limit (R248). -/
def podCorrOk (g p : Int) : Bool := decide (g.natAbs ≤ 2 ^ 26) && decide (p.natAbs ≤ 1000000)

/-- The chip accepts a pod's header and tables (R248). -/
def podTablesOk (mem : List Byte) : Bool :=
  leAt mem 8 2 == 1 && crc16 (slice mem 0 0x3E) == leAt mem 0x3E 2 && crc16 (slice mem 0x40 0xC0) == leAt mem 0x100 2
    && leAt mem 0x0C 4 != 0 && leAt mem 0x10 4 != 0
    && risingI ((podCur mem).map fun e => (e.1 : Int)) && risingI ((podTmp mem).map (·.1))
    && (podCur mem).all (fun e => podCorrOk e.2.1 e.2.2) && (podTmp mem).all fun e => podCorrOk e.2.1 e.2.2

/-- The pod a memory describes, on a lane. -/
def podOf (id lane : Nat) (mem : List Byte) : Pod :=
  { id := id, lane := lane, mapk := leAt mem 0x0C 4, irated := leAt mem 0x10 4, budget := leAt mem 0x18 8, expiry := leAt mem 0x20 2, sensor := leAt mem 0x22 1, curTab := podCur mem, tmpTab := podTmp mem }

/-- A pod with the life record its memory holds; without a valid one INSTALLS and EXPOSURE are 0, and the next write goes to record A (R248). DESIGN CHOICE (log 100): where the READ failed lasting the record is taken from the first later scan that reads it, and none is written before. -/
def Pod.withLife (p : Pod) (mem : List Byte) (ok : Bool) : Pod :=
  if !ok then { p with life := {}, slot := 1, unread := true }
  else match lifeOf mem with
    | some k => { p with life := k.1, slot := k.2, unread := false }
    | none => { p with life := {}, slot := 1, unread := false }

/-- The READs of a pod's header and tables (R252), and of its life records. -/
def podReads (mem : List Byte) : List (Nat × List Byte) := [(0, slice mem 0 256), (0x100, slice mem 0x100 2)]
def lifeReads (mem : List Byte) : List (Nat × List Byte) := [(0x400, slice mem 0x400 128)]

/-! ### The search of a wire (R246) -/

/-- The IDs a search finds, lowest first. -/
def enumSort (l : List PodIn) : List PodIn := l.mergeSort fun a b => decide (a.id ≤ b.id)

/-- What the chip samples in search `k` (0, or 1 after the restart) of an ID whose CLASS or CHECK is wrong. -/
def podBadAt (i : PodIn) (k : Nat) : Option Nat := if podIdOk i.id then i.badIds[k]? else some i.id

/-- The passes of search `k`, lowest ID first: each pod's, with its ID sent back, up to one whose check fails; after the last the pass that finds no contender, but none after a seventeenth ID. -/
def Dev.enumPasses (wire k : Nat) (more : Bool) : List PodIn → Dev → Dev × Bool
  | [], s => (if more then s else s.eyeSend wire [eyeEnum] [], true)
  | i :: r, s =>
    match podBadAt i k with
    | some b => (s.eyeSend wire [eyeEnum] (beBytes 8 b), false)
    | none => Dev.enumPasses wire k more r (s.eyeSend wire (eyeEnum :: beBytes 8 i.id) (beBytes 8 i.id))

/-- Search `k` of a wire, and the RELEASE after it; a failed one counts as a lasting CRC error of the heat (R245). -/
def Dev.search (s : Dev) (wire k : Nat) (l : List PodIn) : Dev × Bool :=
  let r := Dev.enumPasses wire k (decide (16 < l.length)) (l.take 17) s
  let t := r.1.eyeSend wire [eyeRelease] []
  (if r.2 then t else (t.bump (Fld.EYE_H_CRC_LASTING wire)).raise Pg.EYE 8, r.2)

/-- The search of a wire, restarted once: the state after it, and whether it succeeded. On a wire whose attendance cell nothing answers, there is none. -/
def Dev.enumWire (s : Dev) (wire : Nat) (l : List PodIn) : Dev × Bool :=
  if l.isEmpty then (s, true)
  else
    let a := (s.eyeSend wire [eyeRelease] []).search wire 0 l
    if a.2 then a else a.1.search wire 1 l

/-! ### Placement (R250) -/

/-- |X|² of bin 640 of 2048 words, 10.000 kHz, scaled by 2^160: the bin's phase repeats every 16 words. -/
def tonePower (x : List Int) : Int :=
  let part := (List.range 16).map fun r => ((List.range 128).map fun k => nth x (16 * k + r) 0).sum
  let re := ((List.range 16).map fun r => nth part r 0 * cosTurn (5 * r) 16).sum
  let im := ((List.range 16).map fun r => nth part r 0 * sinTurn (5 * r) 16).sum
  re * re + im * im

/-- A window of 64 ms is whole: every frame is there, no enabled lane's word carries UNS, and the heat is neither isolated nor being measured for calibration. DEDUCED (log 92): the words of lanes that are not enabled, which always carry UNS, do not restart it. -/
def Dev.winOk (s : Dev) (h q : Nat) : Bool :=
  (List.range 2048).all fun k => match s.frame (q + k) with
    | some f => !natBit f.iso h && f.calm != some h && (blkChans h).all fun c => !s.chOn c || !wUns (nth f.lanes c 0)
    | none => false

/-- A difference of powers, taken as an RMS amplitude, reaches 500 / `den` mV; of 2^23 LSB to 500 mV. DEDUCED (log 92): RMS, as the tone is given. -/
def toneReach (d : Int) (den : Nat) : Bool := decide ((2 ^ 228 : Int) ≤ 2 * d * (den : Int) ^ 2)

/-- How an attempt at a placement ends. -/
inductive Placed where
  | lane (j : Nat)
  | unplaced
  | ambiguous
  deriving DecidableEq, Repr

/-- The reason of EYE event 4. -/
def Placed.reason : Placed → Nat
  | .ambiguous => 2
  | _ => 1

/-- One attempt from the responses of the heat's lanes: one of at least 0.2 mV where every other is at most 0.05 mV. -/
def placeBy (resp : List Int) : Placed :=
  let n := List.range resp.length
  let low := fun (d : Int) => decide (2 * d * 10000 ^ 2 ≤ 2 ^ 228)
  match n.find? fun j => toneReach (nth resp j 0) 2500 && n.all fun k => k == j || low (nth resp k 0) with
  | some j => .lane j
  | none => if 2 ≤ (resp.filter fun d => toneReach d 10000).length then .ambiguous else .unplaced

/-- One attempt's responses: the window with the tone from `b` on against the silent one from `a` on. -/
def Dev.placeResp (s : Dev) (h a b : Nat) : List Int :=
  (blkChans h).map fun c => tonePower ((s.ringWords c b 2048).map wData) - tonePower ((s.ringWords c a 2048).map wData)

/-- A placement: the first attempt whose windows are whole, and one retry; none while neither is complete. -/
def Dev.placement (s : Dev) (h : Nat) (wins : List (Nat × Nat)) : Option Placed :=
  match (wins.filter fun w => s.winOk h w.1 && s.winOk h w.2).map fun w => placeBy (s.placeResp h w.1 w.2) with
  | [] => none
  | .lane j :: _ => some (.lane j)
  | _ :: r => r.head?

/-- The stimulus of each window pair: STIM_ON for 80 ms, STIM_OFF. -/
def Dev.stimTxs (s : Dev) (wire id : Nat) (wins : List (Nat × Nat)) : Dev :=
  wins.foldl (fun (t : Dev) _ => (t.eyeSend wire (eyeTo id eyeStimOn [5]) []).eyeSend wire (eyeTo id eyeStimOff []) []) s

/-! ### Changes (R251, R255) -/

/-- A change is journalled with the ID, the heat and the lane (0xFF for none). -/
def Dev.eyeNote (s : Dev) (no id wire lane : Nat) : Dev :=
  s.raiseJ Pg.EYE no 0xFF false (leBytes 8 id ++ leBytes 1 wire ++ leBytes 1 lane)

/-- A pod stays unbound: event 4 with its reason, 0 REJECTED, 1 UNPLACED, 2 AMBIGUOUS. -/
def Dev.podReject (s : Dev) (wire id why : Nat) : Dev :=
  s.raiseJ Pg.EYE 4 0xFF false (leBytes 8 id ++ leBytes 1 wire ++ leBytes 1 0xFF ++ leBytes 1 (Config.reasonCode why))

/-- The exposure counted on a lane and not written to a pod is journalled with its pod and discarded (R255). -/
def Dev.podxDrop (s : Dev) (no id wire lane : Nat) : Dev :=
  (s.raiseJ Pg.EYE no 0xFF false (leBytes 8 id ++ leBytes 1 wire ++ leBytes 1 lane ++ leBytes 8 (s.podx lane))).setPodx lane 0

/-- A pod waits to be placed, at a later scan or once metering runs. -/
def Dev.podWait (s : Dev) (wire id : Nat) (moved : Bool) : Dev :=
  { s with eye := { s.eye with waiting := s.eye.waiting.filter (fun w => w.id != id) ++ [⟨wire, id, moved⟩] } }

/-- It waits no longer. -/
def Dev.podSettled (s : Dev) (id : Nat) : Dev := { s with eye := { s.eye with waiting := s.eye.waiting.filter fun w => w.id != id } }

/-- A pod's limits (R254): the budget, and the date. -/
def Dev.podLimits (s : Dev) (l : Nat) : Dev :=
  match s.podAny l with
  | none => s
  | some p => (if s.overBudget p then s.unverify l 6 else s).podDate p

/-- What a lane has counted belongs to the pod that the cache has there (R249, R253): it follows that pod to a new lane; of another pod, swapped while the chip did not look, it is journalled with event 1 and discarded (DESIGN CHOICE, log 100). -/
def Dev.podxOwn (s : Dev) (p : Pod) : Dev :=
  let was := match s.eye.cache.find? (·.lane == p.lane) with | some q => q.id | none => 0
  let s1 := if was = p.id ∨ s.podx p.lane = 0 then s else s.podxDrop 1 was (p.lane / 16) p.lane
  match s.eye.cache.find? fun q => q.id == p.id && q.lane != p.lane && (s.podAny q.lane).isNone with
  | some q => (s1.setPodx p.lane (s1.podx p.lane + s1.podx q.lane)).setPodx q.lane 0
  | none => s1

/-- A pod is bound to its lane: the cache takes it, and a lane that was UNVERIFIED clears for a different pod within both limits, the date being known (R251, R252, R254). With `force` it is in force at once. -/
def Dev.podBind (s : Dev) (wire : Nat) (p : Pod) (force unchecked : Bool) : Dev :=
  let other := match s.eye.cache.find? (·.lane == p.lane) with | some q => q.id != p.id | none => true
  let within := !(p.budget != 0 && decide (p.budget ≤ p.life.exposure)) && (p.expiry == 0xFFFF || (!s.on Fld.RTC_STAT_OSF && decide (s.secs / 86400 ≤ p.expiry)))
  let q : Pod := { p with inForce := force, leaving := false, unchecked := unchecked, clears := other && within }
  let kept : Pod := { p with life := {}, slot := 1, unread := false }
  let s0 := s.podxOwn p
  let s1 := { s0 with eye := { s0.eye with pods := s0.eye.pods ++ [q], cache := s0.eye.cache.filter (fun (c : Pod) => c.lane != p.lane && c.id != p.id) ++ [kept] } }
  let s2 := ((s1.podSettled p.id).eyeNote 3 p.id wire p.lane).podLimits p.lane
  if force then (s2.podShow p.lane).podEnter p.lane else s2

/-- A bound pod leaves its lane at the next boundary of record. -/
def Dev.podLeave (s : Dev) (l : Nat) : Dev :=
  { s with eye := { s.eye with pods := s.eye.pods.filterMap fun (p : Pod) => if p.lane == l && !p.leaving then (if p.inForce then some { p with leaving := true } else none) else some p } }

/-- A bound pod is missing: event 1, journalled with the exposure that is lost. -/
def Dev.podMissing (s : Dev) (wire : Nat) (p : Pod) : Dev := (s.podxDrop 1 p.id wire p.lane).podLeave p.lane

/-- A known pod turns out to be elsewhere: event 2, and it is placed at the next scan, where the stimulus decides (R255). -/
def Dev.podMoved (s : Dev) (wire id lane : Nat) : Dev := (s.eyeNote 2 id wire lane).podWait wire id true

/-- A bound pod is found off its lane: what its lane had counted and no write to it took is journalled with the event. -/
def Dev.podGone (s : Dev) (wire : Nat) (p : Pod) : Dev := ((s.podxDrop 2 p.id wire p.lane).podLeave p.lane).podWait wire p.id true

/-- A life record is written where the pod had no valid one (R248). -/
def Dev.lifeFirst (s : Dev) (l : Nat) (i : PodIn) : Dev := if (lifeOf i.mem).isNone then s.lifeWrite l i.wfault else s

/-- A pod is read (R248), then placed (R250). Where the chip knows it on another lane, it has moved. -/
def Dev.podRead (s : Dev) (wire : Nat) (i : PodIn) (moved : Bool) : Dev :=
  let r := Dev.eyeRead wire i.id (podReads i.mem) i.fault s
  if !r.2 || !podTablesOk i.mem then (r.1.podSettled i.id).podReject wire i.id 0
  else
    let k := Dev.eyeRead wire i.id (lifeReads i.mem) (i.fault.drop 2) r.1
    let s1 := k.1.stimTxs wire i.id i.wins
    match s1.placement wire i.wins with
    | none => s1.podWait wire i.id moved
    | some (.lane j) =>
      let l := 16 * wire + j
      match s1.eye.cache.find? fun c => c.id == i.id && c.lane != l && !moved with
      | some c => s1.podMoved wire i.id c.lane
      | none => if (s1.podAny l).isSome then (s1.podSettled i.id).podReject wire i.id 2 else (s1.podBind wire ((podOf i.id l i.mem).withLife i.mem k.2) false false).lifeFirst l i
    | some why => (s1.podSettled i.id).podReject wire i.id why.reason

/-- A pod bound from the cache is checked against the wire (R252): its tables are read, after its life record, and the stimulus says whether it is still on its lane. -/
def Dev.podCheck (s : Dev) (wire : Nat) (p : Pod) (i : PodIn) : Dev :=
  let r := Dev.eyeRead wire i.id (podReads i.mem) i.fault.tail s
  if !r.2 then r.1
  else if !podTablesOk i.mem then ((r.1.podxDrop 1 p.id wire p.lane).podLeave p.lane).podReject wire i.id 0
  else
    let s1 := r.1.stimTxs wire i.id i.wins
    let n := podOf i.id p.lane i.mem
    let s2 := fun (t : Dev) => t.podUpd p.lane fun q => { q with mapk := n.mapk, irated := n.irated, budget := n.budget, expiry := n.expiry, sensor := n.sensor, curTab := n.curTab, tmpTab := n.tmpTab, unchecked := false }
    match s1.placement wire i.wins with
    | none => s1
    | some (.lane j) => if 16 * wire + j = p.lane then s2 s1 else s1.podGone wire p
    | some _ => s2 s1

/-- A life record that could not be read before is known now; a binding in force counts as an installation then. -/
def Dev.lifeKnown (s : Dev) (p : Pod) (i : PodIn) : Dev :=
  if p.unread then
    let t := s.podUpd p.lane fun q => q.withLife i.mem true
    if p.inForce then t.podEnter p.lane else t
  else s

/-- A bound pod is present (R255): its life record is written, its limits are checked. -/
def Dev.podPresent (s : Dev) (wire : Nat) (p : Pod) (i : PodIn) : Dev :=
  let r := Dev.eyeRead wire i.id (lifeReads i.mem) i.fault s
  let s1 := (if r.2 then (r.1.lifeKnown p i).lifeWrite p.lane i.wfault else r.1).podLimits p.lane
  if p.unchecked then s1.podCheck wire p i else s1

/-- A lane's group meters: a binding waits for its boundary of record; until then the next stride is the first (R252). -/
def Dev.grpMeters (s : Dev) (g : Nat) : Bool := !(s.trk g).strides.isEmpty || (s.trk g).restartAt.isSome || (s.trk g).blockStart.isSome

/-- A pod in the cache for this heat is bound at start without a stimulus (R252); its life record is the one it holds. -/
def Dev.podCached (s : Dev) (wire : Nat) (c : Pod) (i : PodIn) : Dev :=
  let r := Dev.eyeRead wire i.id (lifeReads i.mem) i.fault s
  (r.1.podBind wire (c.withLife i.mem r.2) (!r.1.grpMeters (r.1.chGrp c.lane)) true).lifeFirst c.lane i

/-- One pod found on a wire (R252, R255); `first` on a wire not yet scanned since the start. -/
def Dev.podFound (s : Dev) (wire : Nat) (first : Bool) (i : PodIn) : Dev :=
  let later := fun (t : Dev) (moved : Bool) => if t.power.st = .start then t.podWait wire i.id moved else t.podRead wire i moved
  match s.eye.pods.find? (fun p => p.id == i.id && !p.leaving) with
  | some p => if p.lane / 16 = wire then s.podPresent wire p i else (s.lifeWriteAt wire p.lane i.wfault).podGone wire p
  | none =>
    match s.eye.waiting.find? fun w => w.id == i.id && w.wire == wire with
    | some w => later s w.moved
    | none =>
      let s1 := s.eyeNote 0 i.id wire 0xFF
      match (if first then s.eye.cache.find? fun c => c.id == i.id && c.lane / 16 == wire && (s.podAny c.lane).isNone else none) with
      | some c => s1.podCached wire c i
      | none => later s1 false

/-! ### Transfers (R257) -/

/-- XADDR names a bound pod and a length; writes stay in the user area. -/
def Dev.xferOk (s : Dev) : Bool :=
  let n := s.get Fld.EYE_XADDR_LEN
  decide (1 ≤ n) && decide (n ≤ 32) && (s.podAny (s.get Fld.EYE_XADDR_LANE)).isSome
    && (!s.on Fld.EYE_XADDR_WRITE || decide (0x480 ≤ s.get Fld.EYE_XADDR_ADDR))

/-- A transfer ends: `fail` 0 done, 1 done on the retry, 2 failed lasting or refused; a read puts the pod's bytes into XDATA, a write sends XDATA's. DESIGN CHOICE (log 100): one that was queued takes XADDR and XDATA as they stand when it runs, and goes to ID 0 where its lane has no pod any more. -/
def Dev.xferEnd (s : Dev) (data : List Byte) (fail : Nat) : Dev :=
  let wire := s.get Fld.EYE_XADDR_LANE / 16
  let wr := s.on Fld.EYE_XADDR_WRITE
  let n := s.get Fld.EYE_XADDR_LEN
  let a := s.get Fld.EYE_XADDR_ADDR
  let id := match s.podAny (s.get Fld.EYE_XADDR_LANE) with | some p => p.id | none => 0
  let s0 := { s with eye := { s.eye with txs := [] } }
  let r := if wr then s0.eyeWrite wire id [(a, slice (s.wordBytes (Reg.EYE_XDATA 0) 8) 0 n)] fail else Dev.eyeRead wire id [(a, slice data 0 n)] [fail] s0
  let s1 := if wr || !r.2 then r.1
    else
      let old := r.1.wordBytes (Reg.EYE_XDATA 0) 8
      let new := putAt old 0 (slice data 0 n)
      forN 8 r.1 fun t i => t.wr (Reg.EYE_XDATA i) (BitVec.ofNat 32 (leAt new (4 * i) 4))
  ((s1.setB Fld.EYE_STAT_XERR (s1.on Fld.EYE_STAT_XERR || !r.2)).set Fld.EYE_STAT_BUSY 0).set Fld.EYE_STAT_DONE 1

/-- EYELET_XFER: refused with CFGERR while BUSY or where XADDR is not accepted; queued behind a scan, and while the wires are released (R256, log 92). -/
def Dev.xferStart (s : Dev) (v : Word) (data : List Byte) (fail : Nat) : Dev :=
  s.keyedOp Pg.EYE 0x6E v Fld.EYE_CMD_OP 2 fun t =>
    if t.on Fld.EYE_STAT_BUSY || !t.xferOk then t.cfgErr Pg.EYE
    else if t.eye.left ≠ 0 ∨ ¬ t.eyeMay then { t.set Fld.EYE_STAT_BUSY 1 with eye := { t.eye with xfer := some (data, fail) } }
    else t.xferEnd data fail

def execEyeletXfer (m : Nat) (v : Word) (data : List Byte) (fail : Nat) (s : State) : Out := wrAct m Reg.EYE_CMD v s fun d => d.xferStart v data fail

/-! ### Scans (R255) -/

/-- A scan over every enabled wire is complete: event 10, the command that asked for it ends, and a queued transfer runs. -/
def Dev.scanEnd (s : Dev) : Dev :=
  let s1 := (s.count Fld.EYE_STAT_SCANS).raise Pg.EYE 10
  match s.eye.xfer with
  | some (data, fail) => { s1 with eye := { s1.eye with xfer := none } }.xferEnd data fail
  | none => if s1.on Fld.EYE_STAT_BUSY then (s1.set Fld.EYE_STAT_BUSY 0).set Fld.EYE_STAT_DONE 1 else s1

/-- A wire is done in the scan in progress. -/
def Dev.wireDone (s : Dev) (wire : Nat) : Dev :=
  let left := putBit s.eye.left wire false
  let s1 := { s with eye := { s.eye with left := left } }
  if left = 0 then s1.scanEnd else s1

/-- EYELET_WIRE_FAULT: the wire is released, its bit set; it is tried again at the next scan (R242). -/
def Dev.wireFault (s : Dev) (wire : Nat) : Dev :=
  if 12 ≤ wire ∨ ¬ natBit (s.get Fld.EYE_CTRL_HEATS) wire then s
  else
    let s1 := (s.set Fld.EYE_WIRE_FAULT (s.get Fld.EYE_WIRE_FAULT ||| 2 ^ wire)).raiseItem Pg.EYE 9 wire
    if s.eyeMay ∧ s.eye.left ≠ 0 ∧ natBit s.eye.left wire then s1.wireDone wire else s1

def execEyeletWireFault (wire : Nat) (s : State) : Out := mainAct s fun d => d.wireFault wire

/-- The pods a search found are compared with those bound and waiting (R255); NPODS, UNBOUND and EXCESS. -/
def Dev.scanFound (s : Dev) (wire : Nat) (found : List PodIn) : Dev :=
  let sorted := enumSort found
  let here := sorted.take 16
  let s2 := if 16 < sorted.length then s.set (Fld.EYE_H_STAT_EXCESS wire) 1 else s
  let s3 := s2.set (Fld.EYE_H_STAT_NPODS wire) here.length
  let gone := s3.eye.pods.filter fun p => p.lane / 16 == wire && !p.leaving && !here.any fun i => i.id == p.id
  let s4 := gone.foldl (fun (t : Dev) p => t.podMissing wire p) s3
  let first := !natBit s4.eye.seen wire
  let s5 := here.foldl (fun (t : Dev) i => t.podFound wire first i) s4
  let out := here.filter fun i => !s5.eye.pods.any fun p => p.id == i.id && !p.leaving
  { s5.set (Fld.EYE_H_STAT_UNBOUND wire) out.length with eye := { s5.eye with seen := putBit s5.eye.seen wire true } }

/-- EYELET_SCAN: one enabled wire is searched; the first wire begins a scan of all. An ID with a wrong CLASS or CHECK counts as a lasting CRC error, and restarts the search once; a second failure is a wire fault (R245, R246). -/
def Dev.scanWire (s : Dev) (wire : Nat) (found : List PodIn) : Dev :=
  let heats := s.get Fld.EYE_CTRL_HEATS
  if 12 ≤ wire ∨ ¬ natBit heats wire ∨ ¬ s.eyeMay then s
  else
    let s0 : Dev := { s with eye := { s.eye with txs := [], left := if s.eye.left = 0 then heats else s.eye.left } }
    let r := s0.enumWire wire (enumSort found)
    if r.2 then (r.1.scanFound wire found).wireDone wire else r.1.wireFault wire

def execEyeletScan (wire : Nat) (found : List PodIn) (s : State) : Out := mainAct s fun d => d.scanWire wire found

/-- EYELET_RESCAN: a scan of every enabled wire starts. -/
def Dev.rescan (s : Dev) (v : Word) : Dev :=
  s.keyedOp Pg.EYE 0x6E v Fld.EYE_CMD_OP 1 fun t =>
    if t.on Fld.EYE_STAT_BUSY then t.cfgErr Pg.EYE
    else
      let left := t.get Fld.EYE_CTRL_HEATS
      if left = 0 then ((t.count Fld.EYE_STAT_SCANS).set Fld.EYE_STAT_DONE 1).raise Pg.EYE 10
      else { t.set Fld.EYE_STAT_BUSY 1 with eye := { t.eye with left := left } }

def execEyeletRescan (m : Nat) (v : Word) (s : State) : Out := wrAct m Reg.EYE_CMD v s fun d => d.rescan v

/-- A write of EYE.CTRL: a scan in progress no longer waits for a wire that it takes off; one that is abandoned will search the wires enabled then. -/
def Dev.eyeCtrl (s : Dev) : Dev :=
  let left := s.eye.left &&& s.get Fld.EYE_CTRL_HEATS
  if !s.eyeMay then { s with eye := { s.eye with left := if s.eye.left = 0 then 0 else s.get Fld.EYE_CTRL_HEATS } } else
  if left = s.eye.left then s
  else
    let s1 := { s with eye := { s.eye with left := left } }
    if left = 0 then s1.scanEnd else s1

/-- The wires may be driven again: a transfer that waited with no scan behind it runs, and a commanded scan that is left without a wire is complete. -/
def Dev.eyeResume (s : Dev) : Dev :=
  if s.eye.left ≠ 0 ∨ ¬ s.eyeMay then s
  else match s.eye.xfer with
    | some (data, fail) => { s with eye := { s.eye with xfer := none } }.xferEnd data fail
    | none => if s.on Fld.EYE_STAT_BUSY then s.scanEnd else s

/-- A power-fail warning: the scan in progress will be repeated whole; every wire is released (R249, R256). -/
def Dev.eyeAbort (s : Dev) : Dev :=
  { s with eye := { s.eye with left := if s.eye.left = 0 then 0 else s.get Fld.EYE_CTRL_HEATS } }

/-- Step 3 of R64: the exposure of every pod is written. -/
def Dev.eyeShutdown (s : Dev) : Dev := s.eye.pods.foldl (fun (t : Dev) p => t.lifeWriteNow p.lane) { s with eye := { s.eye with txs := [] } }

/-- EYE.EXP_PCT (R257); a pod that leaves is bound up to the boundary of record (R255). -/
def Dev.expPct (s : Dev) : Nat :=
  match s.eye.pods.find? fun p => p.lane == s.get Fld.EYE_EXP_SEL_LANE with
  | some p => if p.budget = 0 then 0 else satN 0xFFFF (s.exposure p * 10000 / p.budget)
  | none => 0

/-- EYE.Hh_LANES (R257). -/
def Dev.heatLanes (s : Dev) (h : Nat) : Nat :=
  ((List.range 16).map fun j =>
    (if s.eye.pods.any (fun p => p.lane == 16 * h + j) then 2 ^ j else 0) + (if s.on (Fld.REC_STATUS_UNVERIFIED (chRec (16 * h + j))) then 2 ^ (16 + j) else 0)).sum

end Sys2Proof.Machine
end

