-- ==== Sys2Proof/Machine/Boundary.lean ====
section
/-! DEFINITION. Time boundaries (R274): the seconds that wait, one second's boundaries in photo-finish order, clock changes (R275), outages (R276) and alarm snapshots (R360). -/

namespace Sys2Proof.Machine

def Dev.billUpd (s : Dev) (f : Bill → Bill) : Dev := { s with bill := f s.bill }

/-- The billing engine processes boundaries and cycles now: it runs and is not frozen (R279, R64). -/
def Dev.billLive (s : Dev) : Bool := s.billUp && !s.bill.frozen && s.power.st != .holdup

/-- A snapshot was taken for a second (R361). -/
def Dev.snapMark (s : Dev) (sec : Nat) : Dev := s.billUpd fun (b : Bill) => { b with snapped := some sec }

/-- TIME moves on to a second (R277). -/
def Dev.timeTo (s : Dev) (sec : Nat) : Dev := s.imgUpd fun (i : Image) => { i with time := sec * 32768 }

/-! ### Boundaries passed by a clock change or an outage -/

/-- A journal entry under a BILL event that is not raised. -/
def Dev.billEntry (s : Dev) (no : Nat) (late : Bool) (data : List Byte) : Dev := s.journal (evCode Pg.BILL no) 0xFF false late data

/-- The boundaries of a list execute; beyond 24 only the last 24, and one entry records the others (R275, R276). -/
def Dev.lateBoundaries (s : Dev) (l : List Nat) (snapf : Nat) : Dev :=
  let skip := l.take (l.length - 24)
  let s1 := match skip with
    | [] => s
    | m :: _ => s.billEntry 4 (snapf == Snap.LATE) (leBytes 4 skip.length ++ leBytes 4 m ++ leBytes 4 (skip.getLast?.getD m))
  (l.drop (l.length - 24)).foldl (fun (t : Dev) m => t.periodBoundary m snapf) s1

/-- A clock change from one linear time to another (R275); `wrap` for the wrap past 2199. -/
def Dev.clockChange (s : Dev) (old new : Nat) (wrap : Bool) : Dev :=
  let nm := new / 32768 / 60
  let s1 := s.demClock s.demNominal nm
  let s2 := (s1.tarEval (new / 32768)).raise Pg.TARIFF 3
  let lb := s2.get Fld.BILL_LAST_BOUNDARY_MIN
  let s3 := if wrap then s2.set Fld.BILL_LAST_BOUNDARY_MIN nm
    else if lb = 0 then s2.set Fld.BILL_LAST_BOUNDARY_MIN (s2.latestBoundary nm)
    else if old ≤ new then s2.lateBoundaries (s2.boundaries lb nm) Snap.CLOCK
    else s2
  ((s3.timeTo (new / 32768)).billNote 10 0xFF false (leBytes 8 old ++ leBytes 8 new)).flagAll Flg.CLOCK

/-! ### Waking (R54) -/

def Dev.powUpd (s : Dev) (f : Power → Power) : Dev := { s with power := f s.power }

/-- PWR.STATE's code of a power state (R61); the states without a main domain have none. -/
def PState.code : PState → Nat
  | .start => 0 | .run => 1 | .quiet => 2 | .holdup => 3 | .rideThrough => 4 | .shutdownTest => 5
  | .reset => 0 | .backupOnly => 0

/-- The device enters a state; PWR.STATE shows it. -/
def Dev.setPower (s : Dev) (p : PState) : Dev := (s.powUpd fun (w : Power) => { w with st := p }).set Fld.PWR_STATE_STATE p.code

/-- Source `src` of PWR.WAKE wakes the device from QUIET; in the ride-through of a device that was QUIET the state after it becomes RUN (R54, R60). -/
def Dev.wake (s : Dev) (src : Nat) : Dev :=
  if src < 8 ∧ bitAt (s.rd Reg.PWR_WAKE) src then
    if s.power.st = .quiet then (((forN 4 (s.setPower .run) fun t g => t.harmShow g).set Fld.PWR_CTRL_QUIET 0).plcRestart).raise Pg.PWR 6
    else if s.power.st = .rideThrough ∧ s.power.before = .quiet then ((s.powUpd fun (w : Power) => { w with before := .run }).set Fld.PWR_CTRL_QUIET 0).raise Pg.PWR 6
    else s
  else s

/-! ### Alarm responses (R360, R368) -/

/-- The journal entry of an injected alarm's snapshot carries the mark: the alarm's code, the minute, the slot (R368; log 101). -/
def Dev.almNote (s : Dev) (a : AlmDue) : Dev :=
  if a.inj && a.snap && s.bill.snapped == some a.sec then
    s.journal (evCode Pg.RTC a.alm) 0xFF true false (leBytes 4 (a.sec / 60) ++ leBytes 1 ((s.get Fld.BILL_STAT_SNAP_NEXT + 23) % 24))
  else s

/-- The responses of a fired alarm that need main power: the event, the wake, the snapshot of its second where none has been taken; `late` after the boundaries of its second. -/
def Dev.almGive (late : Bool) (s : Dev) (a : AlmDue) : Dev :=
  let s1 := s.raiseInj Pg.RTC a.alm a.inj a.live
  let s2 := if a.caught then s1.raise Pg.RTC 15 else s1
  let s3 := if a.wake then s2.wake 0 else s2
  if !a.snap || s3.on Fld.RTC_STAT_OSF || !s3.billLive then s3
  else if s3.bill.snapped = some a.sec then s3.almNote a
  else ((s3.extraSnapshot (a.sec / 60) (Snap.ALARM + if late then Snap.LATE else 0)).snapMark a.sec).almNote a

/-- The waiting responses that `p` selects are made, in the order of their firing. -/
def Dev.almTake (s : Dev) (p : AlmDue → Bool) (late : Bool) : Dev :=
  (s.rtc.due.filter p).foldl (Dev.almGive late) (s.rtcUpd fun (r : Rtc) => { r with due := r.due.filter fun a => !p a })

/-- A second's boundaries still wait. -/
def Dev.secWaits (s : Dev) (sec : Nat) : Bool := s.bill.due.any fun x => x.1 == sec

/-- A firing's responses wait for step 5 of their second, and through HOLDUP; else they follow at once. -/
def Dev.almMain (s : Dev) (a : AlmDue) : Dev :=
  if s.secWaits a.sec || s.power.st == .holdup then s.rtcUpd fun (r : Rtc) => { r with due := r.due ++ [{ a with held := s.power.st == .holdup }] }
  else Dev.almGive true s a

/-- At ride-through (R60): the responses whose second has no boundaries to wait for. -/
def Dev.almRide (s : Dev) : Dev := s.almTake (fun a => !s.secWaits a.sec) true

/-! ### One second (R274) -/

/-- The second that stands in the queue for a clearing of OSF while billing is frozen; the wrap is second 0. -/
def clearMark : Nat := calendarEnd

/-- The demand (sub)interval closes at a second. -/
def Dev.closesAt (s : Dev) (sec : Nat) : Bool := decide (sec % 60 = 0) && decide (sec / 60 % s.demSub = 0)

/-- A billing boundary executes at a second (R273). -/
def Dev.boundsAt (s : Dev) (sec : Nat) : Bool := decide (sec % 60 = 0) && s.isBoundary (sec / 60) && decide (s.get Fld.BILL_LAST_BOUNDARY_MIN < sec / 60)

/-- Steps 2 to 4 at an ordinary second: demand close, tariff, boundary, whose snapshot an alarm of the second shares. -/
def Dev.secondSteps (s : Dev) (sec : Nat) : Dev :=
  let s1 := if s.closesAt sec then s.demClose (sec / 60) s.bill.done.2 s.bill.demFlags else s
  let s2 := if sec % 60 = 0 then s1.tarEval sec else s1
  if s.boundsAt sec then (s2.periodBoundary (sec / 60) (if s.rtc.due.any fun a => a.sec == sec && a.snap then Snap.ALARM else 0)).snapMark sec else s2

/-- The boundaries of a second execute in order, and where there was one a commit follows them (R279). While OSF is set none does (R270). -/
def Dev.secondRun (s : Dev) (sec mt : Nat) : Dev :=
  let s1 := (s.billUpd fun (b : Bill) => { b with done := (sec, mt) }).tarInstall sec
  if sec = clearMark then s1.clockChange s1.linNow s1.linNow false
  else if s1.on Fld.RTC_STAT_OSF then ((s1.timeTo sec).almTake (fun a => a.sec == sec) false).step7
  else
    let s2 := if sec = 0 then s1.clockChange (calendarEnd * 32768 - 1) 0 true else (s1.timeTo sec).secondSteps sec
    let s3 := ((s2.almTake (fun a => a.sec == sec) false).prepayEval sec).step7
    if sec = 0 || s1.closesAt sec || s1.boundsAt sec || s2.bill.now != s1.bill.now then s3.imgPublish.commitFree else s3

/-- Group `g` has an enabled bound point and is producing records. -/
def Dev.grpCounts (s : Dev) (g : Nat) : Bool :=
  (s.fixedOn g || decide (2 ≤ s.trkState g)) && (List.range 64).any fun b => let k := nth s.bill.bound b {}; k.en && k.vg == g

/-- Every such group has committed a record that ends at or after an MT. -/
def Dev.grpsPast (s : Dev) (mt : Nat) : Bool :=
  (List.range 4).all fun g => !s.grpCounts g || (List.range 208).any fun c => s.chGrp c == g &&
    match nth s.meter.committed c none with
    | some r => decide (mt ≤ r.endMt)
    | none => false

/-- The seconds that wait execute in order, as far as they may: all of them when `late`, 100 ms having passed since the tick. -/
def Dev.dueRun (late : Bool) : Nat → Dev → Dev
  | 0, s => s
  | n + 1, s =>
    match s.bill.due with
    | [] => s
    | (sec, mt) :: r =>
      if late || s.grpsPast mt then Dev.dueRun late n ((s.billUpd fun (b : Bill) => { b with due := r }).secondRun sec mt) else s

/-- TIME_BOUNDARIES. -/
def Dev.boundariesNow (s : Dev) (late : Bool) : Dev := if s.billLive then Dev.dueRun late s.bill.due.length s else s

def execTimeBoundaries (late : Bool) (s : State) : Out := mainAct s fun d => d.boundariesNow late

/-- A set by 1 s or more or a clearing of OSF, from a linear time to another, after the seconds that still wait; while billing is frozen the clearing waits. -/
def Dev.clockEvent (s : Dev) (old new : Nat) : Dev :=
  if s.billLive then (s.boundariesNow true).clockChange old new false
  else if s.billUp && s.power.st = .holdup then s.billUpd fun (b : Bill) => { b with due := b.due ++ [(clearMark, s.mt)] }
  else s

/-! ### Outages (R276) -/

/-- The flags of the intervals an outage touches: PF, and CLOCK where the outage was a main clock failure's. DESIGN CHOICE (log 86): R43 flags such an outage clock-fail and names no bit for it. -/
def Dev.outageFlag (s : Dev) : Nat := if s.power.clkOutage then Flg.PF ||| Flg.CLOCK else Flg.PF

/-- Step 1: the interval that held the start closes flagged PF at its nominal end. -/
def Dev.outageClose (s : Dev) (endMin : Nat) : Dev := s.demClose endMin s.mt (s.bill.demFlags ||| s.outageFlag)

/-- Step 2: the entries of the whole intervals `i` to `j - 1` from a minute on, of the first 96. -/
def Dev.outageEntries (s : Dev) (e i j : Nat) : Dev := ((List.range (min j 96)).drop i).foldl (fun (t : Dev) k => t.billEntry 9 false (leBytes 4 (e + k * s.demSub))) s

/-- Steps 1 and 2 up to a minute, by time: the interval closes at `e`; `i` counts the entries made, none before the close. -/
def Dev.outageTo (e : Nat) (p : Dev × Option Nat) (x : Nat) : Dev × Option Nat :=
  if x < e then p
  else
    let s1 := if p.2.isNone then p.1.outageClose e else p.1
    let j := (x - e) / s1.demSub
    (s1.outageEntries e (p.2.getD 0) j, some j)

/-- The outage entry and BILL event 9 (step 5); the interval that holds the restoration is flagged PF. -/
def Dev.outageNote (s : Dev) (old new n : Nat) : Dev :=
  (s.billUpd fun (b : Bill) => { b with demFlags := b.demFlags ||| s.outageFlag }).billNote 9 0xFF false (leBytes 8 old ++ leBytes 8 new ++ leBytes 4 n)

/-- Steps 1 to 3 from minute `om` to minute `nm`, interleaved by time; the number of whole intervals. -/
def Dev.outageSteps (s : Dev) (om nm : Nat) : Dev × Nat :=
  let e := s.demNominal
  let l := s.boundaries (max (s.get Fld.BILL_LAST_BOUNDARY_MIN) om) nm
  let skip := l.take (l.length - 24)
  let s0 := match skip with
    | [] => s
    | m :: _ => s.billEntry 4 true (leBytes 4 skip.length ++ leBytes 4 m ++ leBytes 4 (skip.getLast?.getD m))
  let r := (l.drop (l.length - 24)).foldl (fun (p : Dev × Option Nat) x => let q := Dev.outageTo e p x; (q.1.periodBoundary x Snap.LATE, q.2)) (s0, none)
  let q := Dev.outageTo e r nm
  match q.2 with
  | none => (q.1, 0)
  | some n =>
    let s1 := if 96 < n then q.1.billEntry 9 false (leBytes 4 (e + 96 * s.demSub) ++ leBytes 4 (n - 96)) else q.1
    let s2 := if n = 0 then s1 else s1.bpAll fun (p : Bp) => { p with subh := (List.replicate (min n 3) 0 ++ p.subh).take 3 }
    (s2.imgUpd fun (i : Image) => { i with dstart := s2.demAlign nm }, n)

/-- R276 at a start: from the recovered image's TIME to the present. An image that never passed a second marks no start, and while OSF is set no boundary is processed (R270): steps 1 to 3 then fall away. -/
def Dev.outage (s : Dev) : Dev :=
  let now := s.linNow
  let nm := now / 32768 / 60
  let old := s.bill.img.time
  let osf := s.on Fld.RTC_STAT_OSF
  let r := if old = 0 then ((if osf then s else s.set Fld.BILL_LAST_BOUNDARY_MIN (s.latestBoundary nm)).imgUpd fun (i : Image) => { i with dstart := s.demAlign nm }, 0)
    else if osf || decide (now ≤ old) then (s, 0)
    else s.outageSteps (old / 32768 / 60) nm
  let s1 := if osf then r.1 else (r.1.tarEval (now / 32768)).raise Pg.TARIFF 3
  s1.outageNote old now r.2

end Sys2Proof.Machine
end

