-- ==== Sys2Proof/Machine/Rtc.lean ====
section
/-! DEFINITION. The RTC (R343–R368): the second tick, alarms, setting and shifting the time, trim and rate measurement, the frozen copies, the crystal, EVIN and the battery. -/

namespace Sys2Proof.Machine

/-- A command of the backup domain: nothing acts while the domain has no power (R31). -/
def bkpAct (s : State) (f : Dev → Dev) : Out := act s fun d => if d.power.bkpAlive then f d else d

/-- A lockout keeps what is left of its time where the count within the second moves (R330). -/
def Dev.lockMove (s : Dev) (old new : Nat) : Dev := { s with sec := { s.sec with lockEnd := s.sec.lockEnd + new - old } }

/-- Linear time jumps to `lin`: a pulse on ALARM_N keeps what is left of its width (R361). -/
def Dev.linJump (s : Dev) (lin : Nat) : Dev :=
  (s.rtcUpd fun (r : Rtc) => { r with pulse := r.pulse.map fun e => if e ≤ r.lin then 0 else e - r.lin + lin }).lockMove (s.rtc.lin % 32768) (lin % 32768)

/-! ### Layouts of TIME_LO and TIME_HI (R367) -/

def timeLo (lin : Nat) : Word :=
  let d := Date.ofSecs (lin / 32768)
  BitVec.ofNat 32 (d.min * 2 ^ 21 + d.sec * 2 ^ 15 + lin % 32768)
def timeHi (lin : Nat) : Word :=
  let d := Date.ofSecs (lin / 32768)
  BitVec.ofNat 32 (d.year * 2 ^ 24 + d.month * 2 ^ 20 + d.day * 2 ^ 15 + weekday (lin / 32768) * 2 ^ 12 + d.hour)

/-- The date and time that a pair of words spells. -/
def dateOf (lo hi : Word) : Date := ⟨bitsOf hi 31 24, bitsOf hi 23 20, bitsOf hi 19 15, bitsOf hi 4 0, bitsOf lo 26 21, bitsOf lo 20 15⟩

/-- A set's fields are valid (R348). -/
def Date.valid (d : Date) : Bool :=
  decide (d.sec ≤ 59) && decide (d.min ≤ 59) && decide (d.hour ≤ 23) && decide (d.year ≤ 199) && dateOk d.year d.month d.day

/-! ### Alarm matching (R358) -/

/-- A field masked or equal. -/
def almField (mask bit val v : Nat) : Bool := natBit mask bit || val == v

/-- The alarm matches second `t`. -/
def almMatch (lo hi : Word) (mask t : Nat) : Bool :=
  let a := dateOf lo hi
  let d := Date.ofSecs t
  almField mask 0 a.sec d.sec && almField mask 1 a.min d.min && almField mask 2 a.hour d.hour && almField mask 3 a.day d.day
    && almField mask 4 a.month d.month && almField mask 5 a.year d.year && almField mask 6 (bitsOf hi 14 12) (weekday t)

/-- Some second of a day between two times of day matches the time fields. -/
def almTod (lo hi : Word) (mask a b : Nat) : Bool :=
  let v := dateOf lo hi
  (List.range 24).any fun h => almField mask 2 v.hour h && decide (a < (h + 1) * 3600) && decide (h * 3600 ≤ b) &&
    (List.range 60).any fun m => almField mask 1 v.min m && decide (a < h * 3600 + (m + 1) * 60) && decide (h * 3600 + m * 60 ≤ b) &&
      (List.range 60).any fun x => almField mask 0 v.sec x && decide (a ≤ h * 3600 + m * 60 + x) && decide (h * 3600 + m * 60 + x ≤ b)

/-- Some second from `a` to `b` matches. -/
def almWithin (lo hi : Word) (mask a b : Nat) : Bool :=
  let v := dateOf lo hi
  (List.range 200).any fun y => almField mask 5 v.year y && (let y0 := daysToYear y
    decide (a / 86400 < y0 + 366) && decide (y0 ≤ b / 86400) && (List.range 12).any fun m => almField mask 4 v.month (m + 1) && (let m0 := y0 + daysToMonth y (m + 1)
      (List.range (monthDays y (m + 1))).any fun k =>
        let day := m0 + k
        almField mask 3 v.day (k + 1) && almField mask 6 (bitsOf hi 14 12) ((day + 5) % 7) && decide (a / 86400 ≤ day) && decide (day ≤ b / 86400) &&
          almTod lo hi mask (a - day * 86400) (min 86399 (b - day * 86400))))

/-! ### Alarms fire (R360–R362, R368) -/

def almEn (k : Nat) : Field := Fld.RTC_ALM_CFG_EN k
/-- STAT.ALMk and STAT.ALMk_BKP. -/
def almStat (k : Nat) : Field := if k = 0 then Fld.RTC_STAT_ALM0 else Fld.RTC_STAT_ALM1
def almBkp (k : Nat) : Field := if k = 0 then Fld.RTC_STAT_ALM0_BKP else Fld.RTC_STAT_ALM1_BKP

/-- Pulse widths in 1/32 768 s. -/
def almWidth (pw : Nat) : Nat := nth [1024, 4096, 32768, 131072] pw 1024

/-- ALARM_N answers alarm `k`: a pulse begins, one in progress ending at the later of the ends, or a level holds (R361). -/
def Dev.almPin (s : Dev) (k : Nat) : Dev :=
  (if !s.on (Fld.RTC_ALM_CFG_PIN k) then s
   else if s.on (Fld.RTC_ALM_CFG_LEVEL k) then s.rtcUpd fun (r : Rtc) => { r with level := setAt r.level k true }
   else s.rtcUpd fun (r : Rtc) => { r with pulse := updAt r.pulse k fun e => max e (r.lin + almWidth (s.get (Fld.RTC_ALM_CFG_PW k))) }).driveAlarm

/-- Alarm `k` fires at the present linear time. -/
def Dev.almFire (s : Dev) (k : Nat) (inj caught : Bool) : Dev :=
  let bkp := !s.mainOn
  let a : AlmDue := { alm := k, sec := s.secs, inj := inj, caught := caught, snap := s.on (Fld.RTC_ALM_CFG_SNAP k), wake := s.on (Fld.RTC_ALM_CFG_WAKE k) }
  let s1 := ((s.set (almStat k) 1).setB (almBkp k) (bkp || s.on (almBkp k))).set64 (Reg.RTC_ALM_STAMP_LO k) (Reg.RTC_ALM_STAMP_HI k) s.rtc.lin
  let s2 := ((s1.setB (Fld.RTC_ALM_SFLAGS_CATCHUP k) caught).setB (Fld.RTC_ALM_SFLAGS_BKP k) bkp).setB (Fld.RTC_ALM_SFLAGS_OSF k) (s.on Fld.RTC_STAT_OSF)
  let s3 := (if s.on (Fld.RTC_ALM_CFG_ONESHOT k) then s2.set (almEn k) 0 else s2).almPin k
  if bkp then s3 else s3.almMain a

/-- Alarm `k` at a tick: an injection makes it match (R368); with LIVE = 0 only its event is raised. -/
def Dev.almTick (s : Dev) (k : Nat) : Dev :=
  let hit := s.on (almEn k) && almMatch (s.rd (Reg.RTC_ALM_VAL_LO k)) (s.rd (Reg.RTC_ALM_VAL_HI k)) (s.get (Fld.RTC_ALM_CFG_MASK k)) s.secs
  if s.mainOn && s.injArmed Pg.RTC k then
    let live := s.injLive Pg.RTC
    let s1 := s.injUse Pg.RTC
    if live then s1.almFire k true false
    else
      let s2 := s1.almMain { alm := k, sec := s.secs, inj := true, live := false }
      if hit then s2.almFire k false false else s2
  else if hit then s.almFire k false false else s

/-- Alarms that fired in HOLDUP count as fired on backup power where the device did not ride through (R362). -/
def Dev.almLost (s : Dev) : Dev :=
  ((s.rtc.due.filter fun a => a.held && a.live).foldl (fun (t : Dev) a => (t.set (almBkp a.alm) 1).set (Fld.RTC_ALM_SFLAGS_BKP a.alm) 1) s).rtcUpd fun (r : Rtc) => { r with due := [] }

/-- ALARM_PULSE_END: the pulse of alarm `k` ends where its end lies in the present second, which the clock has then reached; a pulse that a later firing prolonged goes on (R361). -/
def Dev.pulseOver (s : Dev) (k : Nat) : Dev :=
  let e := nth s.rtc.pulse k 0
  if e < (s.secs + 1) * 32768 then (((if s.rtc.lin < e then s.linRun e else s).rtcUpd fun (r : Rtc) => { r with pulse := setAt r.pulse k 0 })).driveAlarm else s

def execAlarmPulseEnd (k : Nat) (s : State) : Out := bkpAct s fun d => if k < 2 then d.pulseOver k else d

/-! ### Trim (R354, R355) -/

/-- The correction of R355 is evaluated again where the temperature is valid; else the last value is held. -/
def Dev.trimEval (s : Dev) : Dev :=
  if s.on Fld.RTC_CTRL_TC_EN && s.mainOn && s.on Fld.UGRP_TEMP_VALID then
    let dt := s.getI Fld.UGRP_TEMP_T - s.getI Fld.RTC_TCOMP_T0
    s.linSync.rtcUpd fun (r : Rtc) => { r with corr := s.getI Fld.RTC_TCOMP_K * dt * dt }
  else s

/-- TRIM_TEMP_UPDATE. -/
def execTrimTempUpdate (s : State) : Out := mainAct s fun d => d.trimEval

/-- A rate result waits no longer once no shift is in progress (R356). -/
def Dev.autoTrim (s : Dev) : Dev :=
  match s.rtc.autoDue with
  | none => s
  | some e => (s.rtcUpd fun (r : Rtc) => { r with autoDue := none, trimNew := true }).setI Fld.RTC_TRIM_VAL (clampI (-32768) 32767 (s.getI Fld.RTC_TRIM_VAL + e))

/-- The shift is over (R352): SHIFT_LEFT 0, SHIFT_BUSY 0. -/
def Dev.shiftOff (s : Dev) : Dev := ((s.set Fld.RTC_SHIFT_LEFT_N 0).set Fld.RTC_STAT_SHIFT_BUSY 0).autoTrim

/-- SHIFT_COMPLETE. -/
def execShiftComplete (s : State) : Out := bkpAct s fun d => if d.on Fld.RTC_STAT_SHIFT_BUSY then d.shiftOff.raise Pg.RTC 6 else d

/-! ### The second tick -/

/-- OSF is set (R350, R351): SETSINCE clears, event 3, a rate measurement is void. -/
def Dev.osfSet (s : Dev) (inj : Bool) : Dev := (((s.set Fld.RTC_STAT_OSF 1).set Fld.RTC_STAT_SETSINCE 0).raiseInj Pg.RTC 3 inj true).rateVoid

/-- The crystal monitor's injected fault (R368). -/
def Dev.crystalInject (s : Dev) : Dev :=
  if s.mainOn && s.injArmed Pg.RTC 2 then
    let live := s.injLive Pg.RTC
    if live then (s.injUse Pg.RTC).osfSet true else (s.injUse Pg.RTC).raiseInj Pg.RTC 3 true false
  else s

/-- Event 2 is due at a second (TICKSEL, R367). -/
def tickDue (sel sec : Nat) : Bool := sel == 1 || (sel == 2 && sec % 60 == 0) || (sel == 3 && sec % 3600 == 0)

/-- The calendar enters its next second; past 2199 it wraps (R345). -/
def Dev.nextSecond (s : Dev) : Dev :=
  let n := s.secs + 1
  let s1 := (s.linRun (n * 32768)).lockMove 32768 0
  if n = calendarEnd then ((s1.linJump 0).linTo 0 |>.set Fld.RTC_STAT_RANGE 1).raise Pg.RTC 13 else s1

/-- A TRIM written takes effect at the tick (R354). -/
def Dev.trimTick (s : Dev) : Dev := if s.rtc.trimNew then (s.rtcUpd fun (r : Rtc) => { r with trimNew := false, trim := s.getI Fld.RTC_TRIM_VAL }).raise Pg.RTC 9 else s

/-- The second waits for its boundaries (R274): from the recovery of billing to its final commit. -/
def Dev.dueAdd (s : Dev) : Dev :=
  if s.mainOn && s.billUp && !(s.power.st == .shutdownTest && decide (2 ≤ s.power.shutStage)) then s.billUpd fun (b : Bill) => { b with due := b.due ++ [(s.secs, s.mt)] } else s

/-- UPD.WLEFT counts down in seconds (R462). -/
def Dev.windowTick (s : Dev) : Dev := s.set Fld.UPD_WLEFT_S (s.get Fld.UPD_WLEFT_S - 1)

/-- RTC_SECOND_TICK. -/
def Dev.rtcTick (s : Dev) : Dev :=
  let s1 := s.nextSecond.windowTick.trimTick.dueAdd.crystalInject
  let s2 := (s1.almTick 0).almTick 1
  let s3 := if tickDue (s2.get Fld.RTC_CTRL_TICKSEL) s2.secs then s2.raise Pg.RTC 2 else s2
  if s3.mainOn && s3.secs % 86400 == 0 then s3.podDates else s3

/-! ### Reading the time (R346) -/

/-- Record what a read by master `m` answered. -/
def Dev.answer (s : Dev) (m a : Nat) (x : Answer) : Dev :=
  { s with bus := { s.bus with answers := s.bus.answers.filter (fun k => k.1 != m) ++ [(m, a, x)] } }

/-- The linear time a master's reads of TIME_HI and LIN see. -/
def Dev.linFor (s : Dev) (m : Nat) : Nat := (lookup s.rtc.frozen m).getD s.linNow

/-- A master's frozen copy is released. -/
def Dev.thaw (s : Dev) (m : Nat) : Dev := s.rtcUpd fun (r : Rtc) => { r with frozen := r.frozen.filter fun c => c.1 != m }

/-- A read of TIME_LO. -/
def Dev.readTimeLo (s : Dev) (m : Nat) : Dev :=
  (s.rtcUpd fun (r : Rtc) => { r with frozen := assign r.frozen m r.lin }).answer m Reg.RTC_TIME_LO (.word (timeLo s.rtc.lin))

/-- A read of TIME_HI. -/
def Dev.readTimeHi (s : Dev) (m : Nat) : Dev := (s.thaw m).answer m Reg.RTC_TIME_HI (.word (timeHi (s.linFor m)))

def execTimeFreezeRead (m sub : Nat) (s : State) : Out := mainAct s fun d => (d.linSub sub).readTimeLo m
def execTimeReleaseRead (m : Nat) (s : State) : Out := mainAct s fun d => d.readTimeHi m
def execFreezeCopyExpiry (m : Nat) (s : State) : Out := mainAct s fun d => d.thaw m

/-! ### RTC.CMD (R347–R349, R352, R353, R356, R359) -/

/-- Alarm `k` catches up after a forward set from second `a` to second `b` (R359). -/
def Dev.catchUpAlarm (s : Dev) (a b k : Nat) : Dev :=
  if s.on (almEn k) && s.on (Fld.RTC_ALM_CFG_CATCHUP k) && almWithin (s.rd (Reg.RTC_ALM_VAL_LO k)) (s.rd (Reg.RTC_ALM_VAL_HI k)) (s.get (Fld.RTC_ALM_CFG_MASK k)) (a + 1) b
  then s.almFire k false true else s

/-- An accepted set (R347, R349, R353): the new time, OLD, SETSINCE, event 4 or 5, a clock change or a journal entry, catch-ups one BKP edge later. -/
def Dev.timeSet (s : Dev) (new : Nat) : Dev :=
  let old := s.rtc.lin
  let big := decide (32768 ≤ ((new : Int) - (old : Int)).natAbs)
  let clk := big && !s.on Fld.RTC_STAT_OSF
  let s1 := ((((s.shiftOff.rateVoid.linJump new).linTo new).set64 Reg.RTC_OLD_LO Reg.RTC_OLD_HI old).set Fld.RTC_STAT_SETSINCE 1).raiseEv { code := evCode Pg.RTC (if big then 4 else 5), own := !clk, seq := s.newestSeq }
  let s2 := if big then s1.aggClock (old / 32768) else s1
  let s3 := if clk then s2.clockEvent old new
    else s2.journal (evCode Pg.RTC (if big then 4 else 5)) 0xFF false false (leBytes 8 old ++ leBytes 8 new)
  let s4 := if old / 32768 < new / 32768 then
      let t := s3.linTo (new + 1)
      ((t.catchUpAlarm (old / 32768) (new / 32768) 0).catchUpAlarm (old / 32768) (new / 32768) 1).linTo new
    else s3
  if old / 32768 / 86400 = new / 32768 / 86400 then s4 else s4.podDates

/-- OP SET. -/
def Dev.rtcSet (s : Dev) : Dev :=
  let lo := s.rd Reg.RTC_SET_LO
  let d := dateOf lo (s.rd Reg.RTC_SET_HI)
  if s.power.st = .holdup ∨ s.power.st = .shutdownTest then s.cfgErr Pg.RTC
  else if d.valid then s.timeSet (d.toSecs * 32768 + bitsOf lo 14 0)
  else ((s.set Fld.RTC_STAT_DATEERR 1).cfgErr Pg.RTC).raise Pg.RTC 14

/-- OP SHIFT. -/
def Dev.rtcShift (s : Dev) : Dev :=
  let v := s.getI Fld.RTC_SHIFT_VAL
  if v = 0 ∨ 32768 < v.natAbs ∨ s.on Fld.RTC_STAT_SHIFT_BUSY then s.cfgErr Pg.RTC
  else
    let s1 := ((s.rateVoid.set Fld.RTC_SHIFT_LEFT_N v.natAbs).set Fld.RTC_STAT_SHIFT_BUSY 1).rtcUpd fun (r : Rtc) => { r with shiftNeg := decide (v < 0), shiftPer := 0 }
    s1.journal (evCode Pg.RTC 6) 0xFF false false (leBytes 4 (unsignedOf v 32) ++ leBytes 8 s.rtc.lin)

/-- OP RATE: with network time the first capture is made at once, with mains at the first boundary of record. -/
def Dev.rateStart (s : Dev) : Dev :=
  let h := s.get Fld.RTC_RATE_CFG_HOURS
  if h = 0 ∨ 48 < h then s.cfgErr Pg.RTC
  else
    let src := s.get Fld.RTC_RATE_CFG_SRC
    let m : RateM := { src := src, grp := s.get Fld.RTC_RATE_CFG_GRP, hours := h, lin0 := if src = 1 then some s.linNow else none, count := s.ntNow }
    ((s.rateVoid.rtcUpd fun (r : Rtc) => { r with rate := some m }).set Fld.RTC_RATE_RES_BUSY 1)

/-- A keyed write of RTC.CMD. -/
def Dev.rtcCmd (s : Dev) (v : Word) : Dev :=
  s.keyed Pg.RTC 0x2B v fun t =>
    match bitsOf v 2 0 with
    | 1 => t.rtcSet
    | 2 => t.rtcShift
    | 3 => t.rateStart
    | 4 => t.rateVoid
    | _ => t.cfgErr Pg.RTC

def execRtcSet (m : Nat) (v : Word) (sub : Nat) (s : State) : Out := wrAct m Reg.RTC_CMD v s fun d => (d.linSub sub).rtcCmd v
def execRtcShift (m : Nat) (v : Word) (sub : Nat) (s : State) : Out := wrAct m Reg.RTC_CMD v s fun d => (d.linSub sub).rtcCmd v
def execRateStart (m : Nat) (v : Word) (s : State) : Out := wrAct m Reg.RTC_CMD v s fun d => d.rtcCmd v
def execRateStop (m : Nat) (v : Word) (s : State) : Out := wrAct m Reg.RTC_CMD v s fun d => d.rtcCmd v

/-! ### Rate measurement (R356) -/

/-- A boundary of record of group `g` at an MT: the first one after the start is captured, and the one that completes HOURS × 3600 × FNOM cycles; a cycle out of lock makes the measurement void. -/
def Dev.rateBoundary (s : Dev) (g mt : Nat) (locked : Bool) : Dev :=
  match s.rtc.rate with
  | none => s
  | some m =>
    if m.src = 1 ∨ m.grp ≠ g then s
    else if !locked then s.rateVoid
    else
      let n := m.cycles + 1
      let k : RateM := if m.lin0.isNone then { m with lin0 := some (s.linAt mt) }
        else { m with cycles := n, lin1 := if n = m.hours * 3600 * s.fnom g then some (s.linAt mt) else m.lin1 }
      s.rtcUpd fun (r : Rtc) => { r with rate := some k }

/-- ERR: reference against RTC, in 2^-23, saturating (R356). `ref` over 32 768 · `unit` is the reference's seconds. -/
def rateErr (ref unit : Nat) (dl : Nat) : Int := clampI (-32767) 32767 (roundDivI (((ref : Int) - (dl * unit : Nat)) * 2 ^ 23) (dl * unit))

/-- Linear time at the end of a complete reference: captured at the boundary that completes it, or, against network time, now that HOURS have passed. -/
def Dev.rateDone (s : Dev) (m : RateM) : Option Nat :=
  if m.src = 1 then (if m.hours * 3600000000 ≤ s.ntNow - m.count then some s.rtc.lin else none) else m.lin1

/-- The reference completes: ERR, DONE, event 7; with AUTO it is added to TRIM once no shift is in progress. -/
def Dev.rateEnd (s : Dev) : Dev :=
  match s.rtc.rate with
  | none => s
  | some m =>
    match m.lin0, s.rateDone m with
    | none, _ | _, none => s
    | some l0, some l1 =>
      let dl := l1 - l0
      let e := if m.src = 1 then rateErr ((s.ntNow - m.count) * 32768) 1000000 dl else rateErr (m.hours * 3600 * 32768) 1 dl
      let s1 := ((((s.rtcUpd fun (r : Rtc) => { r with rate := none }).set Fld.RTC_RATE_RES_BUSY 0).set Fld.RTC_RATE_RES_DONE 1).setI Fld.RTC_RATE_RES_ERR e).raise Pg.RTC 7
      if s.on Fld.RTC_RATE_CFG_AUTO then
        let s2 := s1.rtcUpd fun (r : Rtc) => { r with autoDue := some e }
        if s.on Fld.RTC_STAT_SHIFT_BUSY then s2 else s2.autoTrim
      else s1

def execRateMeasurementEnd (sub : Nat) (s : State) : Out := mainAct s fun d => (d.linSub sub).rateEnd

/-- TRIM_WRITE (R354, B-5): a write during a shift discards the rest of the shift, with event 6. -/
def Dev.trimWrite (s : Dev) (v : Word) : Dev :=
  s.keyed Pg.RTC 0x2B v fun t =>
    let t1 := (t.linSync.rateVoid.set Fld.RTC_TRIM_VAL (bitsOf v 15 0)).rtcUpd fun (r : Rtc) => { r with trimNew := true }
    if t1.on Fld.RTC_STAT_SHIFT_BUSY then t1.shiftOff.raise Pg.RTC 6 else t1

def execTrimWrite (m : Nat) (v : Word) (s : State) : Out := wrAct m Reg.RTC_TRIM v s fun d => d.trimWrite v

/-! ### RTC.STAT (R351) -/

/-- A write of RTC.STAT: OSF clears only after a set, as a clock change; the other flags clear where a 1 is written. -/
def Dev.rtcStat (s : Dev) (v : Word) : Dev :=
  let clr := fun (t : Dev) (f : Field) => if bitAt v f.lo then t.set f 0 else t
  let s0 := [Fld.RTC_STAT_DATEERR, Fld.RTC_STAT_RANGE, Fld.RTC_STAT_ALM0, Fld.RTC_STAT_ALM1, Fld.RTC_STAT_ALM0_BKP, Fld.RTC_STAT_ALM1_BKP].foldl clr s
  let s1 := (s0.rtcUpd fun (r : Rtc) => { r with level := r.level.mapIdx fun k b => b && s0.on (almStat k) }).driveAlarm
  if !bitAt v 0 || !s.on Fld.RTC_STAT_OSF then s1
  else if s.on Fld.RTC_STAT_SETSINCE then (s1.set Fld.RTC_STAT_OSF 0).clockEvent s1.linNow s1.linNow
  else s1.cfgErr Pg.RTC

def execOsfClear (m : Nat) (v : Word) (s : State) : Out := wrAct m Reg.RTC_STAT v s fun d => d.rtcStat v

/-! ### The crystal (R350) -/

def execCrystalStop (s : State) : Out := bkpAct s fun d => ((d.osfSet false).set Fld.RTC_STAT_ON_RC 1).set Fld.CLK_STAT_X32_OK 0
def execCrystalResume (s : State) : Out := bkpAct s fun d => (d.set Fld.RTC_STAT_ON_RC 0).set Fld.CLK_STAT_X32_OK 1

/-! ### EVIN (R364) and the battery (R365) -/

/-- EVINn takes this edge. -/
def Dev.evinOn (s : Dev) (n : Nat) (rising : Bool) : Bool :=
  s.on (Fld.RTC_EVIN_CFG_EN n) && (match s.get (Fld.RTC_EVIN_CFG_EDGE n) with | 0 => !rising | 1 => rising | _ => true)

/-- A qualified edge: stamp, count, OSF mark, event 11 or 12. -/
def Dev.evin (s : Dev) (n : Nat) : Dev :=
  (((s.set64 (Reg.RTC_EVIN_STAMP_LO n) (Reg.RTC_EVIN_STAMP_HI n) s.rtc.lin).bump (Fld.RTC_EVIN_CNT_N n)).setB (Fld.RTC_EVIN_CNT_OSF n) (s.on Fld.RTC_STAT_OSF)).raise Pg.RTC (11 + n)

def execEvinEdge (n : Nat) (rising : Bool) (sub : Nat) (s : State) : Out :=
  bkpAct s fun d => if n < 2 && d.evinOn n rising then (d.linSub sub).evin n else d

/-- VBAT_MEASURE: VBAT in mV; LOW below 2500, cleared above 2550. -/
def Dev.vbat (s : Dev) (mv : Nat) : Dev :=
  let s1 := { s with power := { s.power with vbatMv := mv } }.set Fld.RTC_VBAT_MV (satN 0xFFFF mv)
  if mv < 2500 then s1.set Fld.RTC_VBAT_LOW 1 else if 2550 < mv then s1.set Fld.RTC_VBAT_LOW 0 else s1

def execVbatMeasure (mv : Nat) (s : State) : Out := mainAct s fun d => d.vbat mv

/-! ### Alarm and EVIN configuration (R358, R367) -/

/-- A write of a register of alarm `k`: refused whole where EN would be 1 with no second able to match. -/
def Dev.almWrite (s : Dev) (k off : Nat) (v : Word) : Dev :=
  let lo := if off = 0 then v &&& 0x07FFFFFF else s.rd (Reg.RTC_ALM_VAL_LO k)
  let hi := if off = 4 then v &&& 0xFFFFF01F else s.rd (Reg.RTC_ALM_VAL_HI k)
  let cfg := if off = 8 then BitVec.ofNat 32 (v.toNat &&& 0xE07F7E00) else s.rd (Reg.RTC_ALM_CFG k)
  if bitAt cfg 31 && !almWithin lo hi (bitsOf cfg 22 16) 0 (calendarEnd - 1) then ((s.set Fld.RTC_STAT_DATEERR 1).cfgErr Pg.RTC).raise Pg.RTC 14
  else ((s.wr (Reg.RTC_ALM_VAL_LO k) lo).wr (Reg.RTC_ALM_VAL_HI k) hi).wr (Reg.RTC_ALM_CFG k) cfg

/-- A write of EVINn_CFG: EDGE 3 refused. -/
def Dev.evinWrite (s : Dev) (n : Nat) (v : Word) : Dev :=
  if bitsOf v 2 1 = 3 then s.cfgErr Pg.RTC else s.wr (Reg.RTC_EVIN_CFG n) (BitVec.ofNat 32 (v.toNat &&& 0x37))

end Sys2Proof.Machine
end

