-- ==== Sys2Proof/Machine/Bist.lean ====
section
/-! DEFINITION. The self-test sequencer (R467–R476): the record, the start of a test, the start and the end of a slice, an abandoned test. -/

namespace Sys2Proof.Machine

def Dev.bistUpd (s : Dev) (f : Bist → Bist) : Dev := { s with bist := f s.bist }

/-- The stated coverage of a slice on B1 in 0.1 % (R468). -/
def sliceCov (n : Nat) : Nat :=
  if n < 13 then 900 else if n = 13 then 880 else if n = 14 then 971 else if n < 17 then 950 else if n < 30 then 985
  else if n < 42 then 980 else if n = 42 then 975 else if n = 43 then 980 else if n = 44 then 975 else 960

/-- The time budget of a slice in ms (R468). -/
def sliceBudget (n : Nat) : Nat :=
  if n < 13 then 150 else if n = 13 then 200 else if n = 14 then 1600 else if n = 15 then 600 else if n = 16 then 150
  else if n < 30 then 40 else if n < 42 then 60 else if n = 42 then 100 else if n = 43 then 80 else if n = 44 then 100 else 150

/-! ### Floor fuses (R454) -/

/-- One floor fuse is blown: event 9. -/
def Dev.floorBlow (s : Dev) : Dev := { s with otp := { s.otp with floor := s.otp.floor + 1 } }.raiseJ Pg.UPD 9 0xFF false (leBytes 1 (s.otp.floor + 1))

/-- At a tick of meter time the fuse in progress may be blown; the next one follows until TARGET is reached. -/
def Dev.floorOver (s : Dev) : Dev :=
  match s.upd.floorGo with
  | none => s
  | some e =>
    if s.mt < e then s
    else
      let t := s.floorBlow
      if t.otp.floor < s.get Fld.UPD_FLOOR_TARGET then { t with upd := { t.upd with floorGo := some (s.mt + 1 + Config.fuseTicks s.free) } }.tick
      else { t with upd := { t.upd with floorGo := none } }.set Fld.UPD_FLOOR_TARGET 0

/-- A power-fail warning stops the programming after the fuse in progress; the rest is tried at a later start (R464). -/
def Dev.floorStop (s : Dev) : Dev :=
  match s.upd.floorGo with
  | none => s
  | some _ =>
    let t := { s.floorBlow with upd := { s.floorBlow.upd with floorGo := none } }
    if t.otp.floor < s.get Fld.UPD_FLOOR_TARGET then t.set Fld.UPD_STAT_FLOORPEND 1 else t.set Fld.UPD_FLOOR_TARGET 0

/-! ### The record (R473, R474) -/

/-- The copy in force: the newer SEQ. -/
def Bist.newest (b : Bist) : Option (Nat × BistRec) :=
  match b.rec0, b.rec1 with
  | some x, some y => some (if newer 32 y.seq x.seq then (1, y) else (0, x))
  | some x, none => some (0, x)
  | none, some y => some (1, y)
  | none, none => none

/-- The FLAGS byte. -/
def BistRec.flags (r : BistRec) : Nat := r.complete.toNat + r.origin * 2 + r.interrupted.toNat * 4 + r.hot.toNat * 8 + r.failed.toNat * 16

/-- The bytes of a record copy. -/
def BistRec.bytes (r : BistRec) (chipId : Nat) : List Byte :=
  let head := leBytes 4 0x54534247 ++ leBytes 2 1 ++ leBytes 1 r.flags ++ leBytes 1 46 ++ leBytes 4 r.seq ++ leBytes 4 chipId ++ leBytes 8 r.time ++ leBytes 8 r.mt
    ++ leBytes 4 r.totalMs ++ leBytes 1 r.nfail ++ leBytes 1 r.ntrans ++ leBytes 1 r.timeosf.toNat ++ leBytes 21 0
  let ents := (r.ents.mapIdx fun i (e : SliceEnt) =>
    leBytes 1 i ++ leBytes 1 e.result ++ leBytes 2 e.cov ++ leBytes 2 e.dur ++ leBytes 2 e.peak ++ leBytes 4 e.detail ++ leBytes 2 e.tmax ++ leBytes 2 0).flatten
  head ++ leBytes 4 (crc32 (head ++ ents)) ++ ents ++ leBytes 224 0

/-- The registers that mirror the record in force (R486). -/
def Dev.bistShow (s : Dev) : Dev :=
  match s.bist.newest with
  | none => (((s.set Fld.BIST_STAT_VALID 0).wr Reg.BIST_SUM 0).wr Reg.BIST_REC 0).wr Reg.BIST_FLAGS 0
  | some (k, r) =>
    ((((((s.set Fld.BIST_STAT_VALID 1).set Fld.BIST_SUM_NFAIL r.nfail).set Fld.BIST_SUM_NTRANS r.ntrans).set Fld.BIST_SUM_TOTAL_MS (satN 0xFFFF r.totalMs)).set
      Fld.BIST_REC_ADDR (0x301B8400 + 0x400 * k)).set Fld.BIST_FLAGS_F r.flags)

/-- BIST.AGE: hours since the record's TIME, all ones if unknown. -/
def Dev.bistAge (s : Dev) : Nat :=
  match s.bist.newest with
  | some (_, r) => if r.timeosf || s.on Fld.RTC_STAT_OSF || decide (s.rtc.lin < r.time) then 0xFFFF else satN 0xFFFF ((s.rtc.lin - r.time) / 32768 / 3600)
  | none => 0xFFFF

/-- Change the record being written, the one with the newer SEQ. -/
def Dev.bistRec (s : Dev) (f : BistRec → BistRec) : Dev :=
  match s.bist.newest with
  | some (0, r) => (s.bistUpd fun (b : Bist) => { b with rec0 := some (f r) }).bistShow
  | some (_, r) => (s.bistUpd fun (b : Bist) => { b with rec1 := some (f r) }).bistShow
  | none => s

/-- Change the entry of a slice. -/
def Dev.bistEnt (s : Dev) (n : Nat) (f : SliceEnt → SliceEnt) : Dev := s.bistRec fun (r : BistRec) => { r with ents := updAt r.ents n f }

/-- The entry of a slice in the record being written. -/
def Dev.bistEntry (s : Dev) (n : Nat) : SliceEnt := match s.bist.newest with | some (_, r) => nth r.ents n {} | none => {}

/-! ### Slices (R467–R472) -/

/-- The highest sensor reading, in 1/16 °C. -/
def Dev.hottest (s : Dev) : Int := (s.fe.blocks.map (·.temp)).foldl max (nth (s.fe.blocks.map (·.temp)) 0 0)

/-- The last slice of the running test: CORE is tested at shutdown only (R476). -/
def Dev.lastSlice (s : Dev) : Nat := match s.bist.newest with | some (_, r) => if r.origin = 1 then 44 else 45 | none => 45

/-- CLK.ISL_ISO while slice `n` runs (R469). -/
def Dev.sliceIso (s : Dev) (n : Nat) : Dev := s.set Fld.CLK_ISL_ISO_ISL (match sliceIsland n with | some b => 2 ^ b | none => 0)

/-- A run of analogue slice `n` begins in SHORT, shown in the block's ISO register (R102, R113, R468). -/
def Dev.shortRun (s : Dev) (n : Nat) : Dev :=
  if n < 13 then ((s.isoSet n 1 0).bistUpd fun (b : Bist) => { b with stimMt := some (s.mt + 1 + Config.stimTicks s.free) }).tick else s

/-- The run goes on with the STIM loopback at 30 mV (R468, R470): AMP 1. -/
def Dev.stimRun (s : Dev) : Dev := if s.bist.stimMt.isSome then (s.isoSet s.bist.slice 2 1).bistUpd fun (b : Bist) => { b with stimMt := none } else s

/-- At a tick of meter time the stimulus may follow. -/
def Dev.stimOver (s : Dev) : Dev := match s.bist.stimMt with | some e => if e ≤ s.mt then s.stimRun else s | none => s

/-- Slice `n` starts, or waits for the die to cool (R472): HOT, event 3 once. -/
def Dev.sliceBegin (s : Dev) (n : Nat) : Dev :=
  let s1 := (s.bistUpd fun (b : Bist) => { b with slice := n, second := false, stimMt := none, tmax := s.hottest }).set Fld.BIST_STAT_SLICE n
  if 1600 < s.hottest then
    (((s1.bistUpd fun (b : Bist) => { b with cooling := true }).set Fld.BIST_STAT_HOT 1).bistRec fun (r : BistRec) => { r with hot := true }).raise Pg.BIST 3
  else
    (((s1.bistUpd fun (b : Bist) => { b with cooling := false }).set Fld.BIST_STAT_HOT 0).sliceIso n).shortRun n

/-- Main-domain secrets and the crypto engine's state clear before the first slice (R471). -/
def Dev.secretsClear (s : Dev) : Dev :=
  let t := s.closeSession
  { t with sec := { t.sec with tok := none, net := none, nonce := none, running := none } }.set Fld.SEC_RESULT_BUSY 0

/-- A test begins (R467): secrets, the new record in the copy that does not hold the newest, the first slice. -/
def Dev.bistStart (s : Dev) (origin : Nat) : Dev :=
  let s0 := s.secretsClear
  let r : BistRec := { origin := origin, time := s.linNow, mt := s.mt, timeosf := s.on Fld.RTC_STAT_OSF, seq := match s.bist.newest with | some (_, r) => (r.seq + 1) % 2 ^ 32 | none => 1 }
  let s1 := s0.bistUpd fun (b : Bist) => match b.newest with
    | some (0, _) => { b with rec1 := some r, running := true }
    | _ => { b with rec0 := some r, running := true }
  ((s1.set Fld.BIST_STAT_RUNNING 1).bistShow).sliceBegin 0

/-- The test is over: isolation lifted, RUNNING 0. -/
def Dev.bistOff (s : Dev) : Dev :=
  ((((s.bistUpd fun (b : Bist) => { b with running := false, cooling := false, second := false, stimMt := none }).set Fld.BIST_STAT_RUNNING 0).set Fld.BIST_STAT_HOT 0).set Fld.CLK_ISL_ISO_ISL 0)

/-- The test is abandoned at a warning (R60, R474, R488): the slice ABANDONED, the record INTERRUPTED; event 4 at the next start. The block under test stays isolated, left for the start to re-initialise. -/
def Dev.bistAbandon (s : Dev) : Dev :=
  if s.bist.running then
    let s1 := (s.bistEnt s.bist.slice fun (e : SliceEnt) => { e with result := 4 }).bistRec fun (r : BistRec) => { r with interrupted := true }
    let iso := s.get Fld.CLK_ISL_ISO_ISL
    ((s1.bistOff).set Fld.CLK_ISL_ISO_ISL iso).bistUpd fun (b : Bist) => { b with owed := true }
  else s

/-- The record is complete; BIST event 0 (R467). -/
def Dev.bistDone (s : Dev) : Dev :=
  ((s.bistRec fun (r : BistRec) => { r with complete := true, totalMs := (s.mt - r.mt) / 24576 }).bistOff).raise Pg.BIST 0

/-- The fast path of R475. -/
def Dev.fastPath (s : Dev) : Bool :=
  let age := s.get Fld.BIST_CTRL_MAXAGE
  match s.bist.newest with
  | some (_, r) => r.complete && !r.failed && !r.timeosf && !s.on Fld.RTC_STAT_OSF && age != 0 && decide (r.time ≤ s.rtc.lin)
      && decide (s.rtc.lin - r.time ≤ age * 86400 * 32768) && !s.on Fld.BIST_CTRL_FORCE
  | none => false

/-- Bits of a register that the backup domain or MRAM configuration keeps through every reset (R47, R67, R339, R367): the RTC, TAMP's BKP fields, UPD.WLEFT, UPD.LOCK, BIST.CTRL. -/
def bkpMask (a : Nat) : Nat :=
  if (0x40009040 ≤ a ∧ a < 0x4000A000) ∨ (0x40008040 ≤ a ∧ a ≤ 0x4000804C) ∨ (0x400080A0 ≤ a ∧ a ≤ 0x400080CC) ∨ a = Reg.UPD_WLEFT ∨ a = Reg.UPD_LOCK ∨ a = Reg.BIST_CTRL then 0xFFFFFFFF else 0

/-- Bits of a register that a warm reset keeps (R47, R301, and the counters that count from main power-on: R61, R124, R129, R173). -/
def warmMask (a : Nat) : Nat :=
  if bkpMask a ≠ 0 ∨ a = Reg.PWR_PF_CFG ∨ a = Reg.SYS_RST_CAUSE ∨ a = Reg.SYS_GUN_CNT
    ∨ a = Reg.DISC_CTRL ∨ a = Reg.DISC_CHAIN ∨ (0x40033080 ≤ a ∧ a < 0x400330A0) ∨ (0x40033100 ≤ a ∧ a < 0x40033500 ∧ a % 16 ≠ 4)
    ∨ (0x4001D100 ≤ a ∧ a < 0x4001D180 ∧ a % 32 = 12) then 0xFFFFFFFF
  else if a = Reg.PWR_PF_STAT ∨ (0x4001D100 ≤ a ∧ a < 0x4001D180 ∧ a % 32 = 16) ∨ a = Reg.UGRP_DEC_STAT ∨ (0x40010000 ≤ a ∧ a < 0x4001C000 ∧ a % 4096 = 0x100) then 0xFFFF0000
  else if a = Reg.SYS_WDT then 0xFFFF
  else 0

/-- The registers with their kept bits; every other bit at its reset value. -/
def Regs.keep (m : Regs) (mask : Nat → Nat) : Regs :=
  m.foldl (fun (t : Regs) e => if mask e.1 = 0 then t else Regs.wr t e.1 ((e.2 &&& BitVec.ofNat 32 (mask e.1)) ||| (regReset e.1 &&& ~~~ BitVec.ofNat 32 (mask e.1)))) []

/-- An island returns to its power-on state: the registers of the pages it serves, and its channels (R469). SYS and BIST, which the sequencer uses, and what every warm reset keeps are left. -/
def Dev.islandReset (s : Dev) (b : Nat) : Dev :=
  let mask := fun (a : Nat) => if islandOf (pageOf a) != some b || pageOf a == Pg.BIST || pageOf a == Pg.SYS then 0xFFFFFFFF else warmMask a
  let s1 := { s with regs := Regs.keep s.regs mask }
  if b < 13 then
    (blkChans b).foldl (fun (t : Dev) c => t.chanUpd c fun _ => {}) (s1.blkUpd b fun (k : Block) => { temp := k.temp, lastT := k.lastT, corr := k.corr })
  else if b < 25 then s1.pacerUpd (b - 13) fun _ => {}
  else s1

/-- A slice ends: its entry, its island reset, the next slice or the end of the test. -/
def Dev.sliceFinish (s : Dev) (result detail dur peak : Nat) (inj : Bool) : Dev :=
  let n := s.bist.slice
  let s1 := s.bistEnt n fun (e : SliceEnt) => { result := result, cov := sliceCov n, dur := satN 0xFFFF (e.dur + dur), peak := satN 0xFFFF (max e.peak peak), detail := detail, tmax := unsignedOf (max s.bist.tmax s.hottest) 16 }
  let s2 := s1.bistRec fun (r : BistRec) => { r with nfail := r.nfail + (if result = 3 then 1 else 0), ntrans := r.ntrans + (if result = 2 then 1 else 0), failed := r.failed || result == 3 }
  let s3 := if result = 3 then s2.raiseMark Pg.BIST 1 inj else if result = 2 then s2.raiseMark Pg.BIST 2 inj else s2
  let s4 := match sliceIsland n with | some b => s3.islandReset b | none => s3
  let s5 := if n = 14 then { s4 with cap := { s4.cap with dir := List.replicate 256 none, data := [], head := 0, held := [] }, fe := { s4.fe with ring := [] } }.capStat else s4
  let s6 := s5.set Fld.CLK_ISL_ISO_ISL 0
  if s6.lastSlice ≤ n then s6.bistDone else s6.sliceBegin (n + 1)

/-- A run of a slice is over (R470, R487): a first failure is run once more. -/
def Dev.sliceRan (s : Dev) (ok : Bool) (detail dur peak : Nat) : Dev :=
  let n := s.bist.slice
  let inj := s.injArmed Pg.BIST n
  let s1 := if inj then s.injUse Pg.BIST else s
  let pass := ok && !inj
  let why := if inj then 0xFFFF0002 else detail
  if s.bist.second then
    let first := (s.bistEntry n).detail
    if pass then s1.sliceFinish 2 first dur peak (first == 0xFFFF0002) else s1.sliceFinish 3 first dur peak (inj || first == 0xFFFF0002)
  else if pass then s1.sliceFinish 1 0 dur peak false
  else ((s1.bistEnt n fun (e : SliceEnt) => { e with detail := why, dur := satN 0xFFFF dur, peak := satN 0xFFFF peak }).bistUpd fun (b : Bist) => { b with second := true }).shortRun n

/-- SLICE_END: a run that ends has been through its STIM loopback. -/
def Dev.sliceEnd (s : Dev) (ok : Bool) (detail dur peak : Nat) : Dev := if s.bist.running && !s.bist.cooling then s.stimRun.sliceRan ok detail dur peak else s

/-- A slice exceeds its budget (R469). -/
def Dev.sliceTimeout (s : Dev) : Dev :=
  if !s.bist.running || s.bist.cooling then s else s.sliceFinish 3 0xFFFF0001 (sliceBudget s.bist.slice) 0 false

/-- 120 s of waiting (R472): the remaining slices are SKIPPED_HOT and the test ends. -/
def Dev.coolingOver (s : Dev) : Dev :=
  if s.bist.running && s.bist.cooling then
    (((List.range (s.lastSlice + 1)).filter fun n => decide (s.bist.slice ≤ n)).foldl (fun (t : Dev) n => t.bistEnt n fun (e : SliceEnt) => { e with result := 5, cov := sliceCov n }) s).bistDone
  else s

/-- A sensor was read: the slice's highest reading (R474); while the test waits, every sensor at 97 °C or less lets it go on (R472). -/
def Dev.cooled (s : Dev) : Dev :=
  if !s.bist.running then s
  else if !s.bist.cooling then s.bistUpd fun (b : Bist) => { b with tmax := max b.tmax s.hottest }
  else if s.hottest ≤ 1552 then s.sliceBegin s.bist.slice else s

end Sys2Proof.Machine
end

