-- ==== Sys2Proof/Machine/Boot.lean ====
section
/-! DEFINITION. Slots, boot records and the boot ROM (R446–R454, R463): the record in force, the choice of the slot, fallback and recovery, and the copy of a slot's sections into the engines' memories. -/

namespace Sys2Proof.Machine

def Dev.updUpd (s : Dev) (f : Upd → Upd) : Dev := { s with upd := f s.upd }

/-! ### Slots (R66, R449, R450) -/

/-- The flash address of slot 0 (A) or 1 (B). -/
def slotBase (k : Nat) : Nat := 0x60000000 + k * 0x600000

/-- "GUPD". -/
def bundleMagic : Nat := 0x44505547

def slotMagic (mem : List Host.Cell) (k : Nat) : Nat := ofLe (Memory.readAll mem (slotBase k) 4)

/-- Slot A holds the firmware the device was delivered with, whose bytes the spec does not give, until something is written over its header. -/
def slotFactory (mem : List Host.Cell) (k : Nat) : Bool := k == 0 && slotMagic mem 0 == 0xFFFFFFFF

/-- The slot holds a bundle. -/
def slotHas (mem : List Host.Cell) (k : Nat) : Bool := slotMagic mem k == bundleMagic || slotFactory mem k

/-- BID of a bundle from its header (R450). -/
def headBid (h : List Byte) : List Byte := (sha256 (h.take 0x2C0)).take 8

def slotGen (mem : List Host.Cell) (k : Nat) : Nat :=
  if slotFactory mem k then Config.factoryGen % 65536 else ofLe (Memory.readAll mem (slotBase k + 6) 2)

def slotBid (mem : List Host.Cell) (k : Nat) : List Byte :=
  if slotFactory mem k then slice Config.factoryBid 0 8 else headBid (Memory.readAll mem (slotBase k) 0x2C0)

/-- The length limit of a section type (R451). -/
def sectLimit (type : Nat) : Nat := if type = 1 then 384 * 1024 else if type = 2 then 64 * 1024 else if type = 6 then 1521 * 4096 else 128 * 1024

/-! ### The header (R450–R453) -/

def allZero (l : List Byte) : Bool := l.all (· == 0)

/-- Section entry `i`: its 16 bytes. -/
def sect (h : List Byte) (i : Nat) : List Byte := slice h (0x80 + 16 * i) 16
def sectType (e : List Byte) : Nat := leAt e 0 1
def sectFirst (e : List Byte) : Nat := leAt e 4 2
def sectNb (e : List Byte) : Nat := leAt e 6 2
def sectLen (e : List Byte) : Nat := leAt e 8 4

def sects (h : List Byte) : List (List Byte) := (List.range (leAt h 0xA 1)).map (sect h)
def hdrT (h : List Byte) : Nat := leAt h 0xB 1
def hdrNblk (h : List Byte) : Nat := leAt h 0xC 2
def hdrGen (h : List Byte) : Nat := leAt h 6 2
def hdrFloorN (h : List Byte) : Nat := leAt h 8 1

/-- One section entry keeps the rules of R451. -/
def sectOk (nblk : Nat) (e : List Byte) : Bool :=
  let t := sectType e
  let nb := sectNb e
  decide (1 ≤ t) && decide (t ≤ 6) && leAt e 1 1 == (if t = 2 ∨ t = 5 then 1 else 0) && leAt e 2 2 == 0 && decide (sectFirst e + nb ≤ nblk)
    && decide (1 ≤ nb) && decide ((nb - 1) * 4096 < sectLen e) && decide (sectLen e ≤ nb * 4096) && decide (sectLen e ≤ sectLimit t)

/-- No two sections overlap. -/
def sectsApart : List (List Byte) → Bool
  | [] => true
  | e :: r => (r.all fun x => decide (sectFirst e + sectNb e ≤ sectFirst x) || decide (sectFirst x + sectNb x ≤ sectFirst e)) && sectsApart r

/-- Block 0 keeps the rules of R450 and R451, for a bundle offered with `ntot` blocks. -/
def headerOk (h : List Byte) (ntot : Nat) : Bool :=
  let nsec := leAt h 0xA 1
  let t := hdrT h
  let nblk := hdrNblk h
  leAt h 0 4 == bundleMagic && leAt h 4 2 == 1 && decide (hdrFloorN h ≤ 64) && decide (leAt h 9 1 < 2) && decide (5 ≤ nsec) && decide (nsec ≤ 16)
    && decide (1 ≤ nblk) && decide (nblk ≤ 1521) && t == (nblk * 36 + 4095) / 4096 && ntot == 1 + t + nblk && decide (ntot ≤ 1536)
    && allZero (slice h 0xE 2) && allZero (slice h 0x14 12) && allZero (slice h (0x40 + 4 * t) (64 - 4 * t)) && (leAt h 9 1 == 1 || allZero (slice h 0x180 64))
    && allZero (slice h 0x1C0 64) && allZero (slice h 0x280 (0x1000 - 0x280))
    && (sects h).all (sectOk nblk) && sectsApart (sects h) && (List.range 5).all fun k => ((sects h).filter fun e => sectType e == k + 1).length == 1

/-- IMGSIG under Tileri's image key, or under the owner's key where the owner root hash names it (R452). -/
def imgSigOk (o : Otp) (h : List Byte) : Bool :=
  let sig := slice h 0x200 64
  let digest := sha256 (slice h 0 0x200)
  if leAt h 9 1 = 0 then ecdsaVerify Config.imageKey sig digest
  else
    let pub := slice h 0x180 64
    o.oroot == some (sha256 pub) && ecdsaVerify pub sig digest

/-- METROSIG over the Adegasar sections and their table entries (R452). -/
def metroOk (h table : List Byte) : Bool :=
  let text := ((sects h).filter fun e => leAt e 1 1 == 1).flatMap fun e => e ++ slice table (36 * sectFirst e) (36 * sectNb e)
  ecdsaVerify Config.metroKey (slice h 0x240 64) (sha256 text)

/-! ### Blocks in the slot -/

def blockAddr (slot i : Nat) : Nat := slotBase slot + i * 4096
def slotBlock (mem : List Host.Cell) (slot i : Nat) : List Byte := Memory.readAll mem (blockAddr slot i) 4096
def slotTable (mem : List Host.Cell) (slot t : Nat) : List Byte := Memory.readAll mem (blockAddr slot 1) (t * 4096)

/-- Payload block `k` against its table entry: CRC-32, then SHA-256. -/
def payloadOk (table : List Byte) (k : Nat) (data : List Byte) : Bool :=
  crc32 data == leAt table (36 * k + 32) 4 && sha256 data == slice table (36 * k) 32

/-- Every block of a slot re-hashes (R459 step 12). -/
def slotHashes (mem : List Host.Cell) (slot : Nat) : Bool :=
  let h := slotBlock mem slot 0
  let table := slotTable mem slot (hdrT h)
  sha256 table == slice h 0x20 32 && (List.range (hdrNblk h)).all fun k => payloadOk table k (slotBlock mem slot (1 + hdrT h + k))

/-! ### A slot that can be booted (R447) -/

/-- A generation against the floor of `n` fuses (R453). -/
def floorOk (gen n : Nat) : Bool := decide (n < 64) && decide (0 ≤ serialDiff 16 gen (1024 * n))

/-- Step 3 of R447 over the slot's bytes: header, IMGSIG, METROSIG under the seal, TABLE_HASH and every block. The delivered firmware's bytes are not given: it passes (log 62). -/
def slotVerified (o : Otp) (sealOn : Bool) (mem : List Host.Cell) (k : Nat) : Bool :=
  slotFactory mem k || (let h := slotBlock mem k 0
    headerOk h (1 + hdrT h + hdrNblk h) && imgSigOk o h && (!sealOn || metroOk h (slotTable mem k (hdrT h))) && slotHashes mem k)

/-- The slot can be booted: it holds a bundle above the floor that passes its verification (`bad`: bit k, a lasting read fault of slot k). -/
def slotGood (o : Otp) (sealOn : Bool) (mem : List Host.Cell) (bad k : Nat) : Bool :=
  slotHas mem k && !natBit bad k && ((slotFactory mem k && o.floor == 0) || floorOk (slotGen mem k) o.floor) && slotVerified o sealOn mem k

/-- A bundle in the slot whose METROSIG does not verify (R452). -/
def slotNoMetro (mem : List Host.Cell) (k : Nat) : Bool :=
  !slotFactory mem k && (let h := slotBlock mem k 0; !metroOk h (slotTable mem k (hdrT h)))

/-! ### Boot records (R448) -/

def BootRec.gen (r : BootRec) (k : Nat) : Nat := if k = 0 then r.genA else r.genB
def BootRec.bid (r : BootRec) (k : Nat) : List Byte := if k = 0 then r.bidA else r.bidB
def BootRec.has (r : BootRec) (k : Nat) : Bool := natBit r.valid k

/-- The copy in force: the valid one with the newer SEQ. -/
def Upd.bootNow (u : Upd) : Option (Nat × BootRec) :=
  match u.boot0, u.boot1 with
  | some a, some b => some (if newer 32 b.seq a.seq then (1, b) else (0, a))
  | some a, none => some (0, a)
  | none, some b => some (1, b)
  | none, none => none

/-- The update hardware writes the older copy with SEQ one higher. -/
def Dev.bootPut (s : Dev) (r : BootRec) : Dev :=
  match s.upd.bootNow with
  | some (0, o) => s.updUpd fun (u : Upd) => { u with boot1 := some { r with seq := (o.seq + 1) % 2 ^ 32 } }
  | some (_, o) => s.updUpd fun (u : Upd) => { u with boot0 := some { r with seq := (o.seq + 1) % 2 ^ 32 } }
  | none => s.updUpd fun (u : Upd) => { u with boot0 := some { r with seq := 1 } }

/-- With neither copy valid: the valid slot with the newer generation, CONFIRMED. -/
def bootDefault (o : Otp) (sealOn : Bool) (mem : List Host.Cell) (bad : Nat) : BootRec :=
  let a := slotGood o sealOn mem bad 0
  let b := slotGood o sealOn mem bad 1
  { seq := 0, active := if b && (!a || newer 16 (slotGen mem 1) (slotGen mem 0)) then 1 else 0, state := 0, valid := a.toNat + 2 * b.toNat, fbcause := 0,
    genA := if a then slotGen mem 0 else 0, genB := if b then slotGen mem 1 else 0,
    bidA := if a then slotBid mem 0 else List.replicate 8 0, bidB := if b then slotBid mem 1 else List.replicate 8 0 }

/-- The bytes of a boot record copy, with its MAC under the device-record key. -/
def BootRec.bytes (r : BootRec) (key : List Byte) : List Byte :=
  let b := leBytes 4 0x544F4247 ++ leBytes 4 r.seq ++ leBytes 1 r.active ++ leBytes 1 r.state ++ leBytes 1 r.valid ++ leBytes 1 r.fbcause
    ++ leBytes 2 r.genA ++ leBytes 2 r.genB ++ slice r.bidA 0 8 ++ slice r.bidB 0 8 ++ leBytes 16 0
  b ++ (hmac key b).take 16

/-! ### What UPD shows (R465) -/

/-- GEN, BID, RX, READY and RXACT from the reception, or from the inactive slot. -/
def Dev.recepShow (s : Dev) : Dev :=
  let inactive := 1 - s.get Fld.UPD_STAT_ACTIVE
  let held := match s.upd.recep, s.upd.bootNow with
    | some r, _ => (r.gen, r.bid, r.held.length, r.ntot)
    | none, some (_, b) => if b.has inactive then (b.gen inactive, b.bid inactive, 0, 0) else (0, [], 0, 0)
    | none, none => (0, [], 0, 0)
  let s1 := (s.set Fld.UPD_GEN_HELD held.1).set64 Reg.UPD_BID_LO Reg.UPD_BID_HI (ofLe held.2.1)
  let s2 := (s1.set Fld.UPD_RX_HELD held.2.2.1).set Fld.UPD_RX_NTOT held.2.2.2
  match s.upd.recep with
  | some r => ((s2.setB Fld.UPD_STAT_READY r.complete).setB Fld.UPD_STAT_RXACT (!r.complete)).setB Fld.UPD_STAT_NOMETRO r.nometro
  | none => (s2.setB Fld.UPD_STAT_READY (s.upd.bootNow.any fun x => x.2.has inactive)).set Fld.UPD_STAT_RXACT 0

/-- ACTIVE, TRIAL, LASTFB and the running generation from a record. -/
def Dev.bootShow (s : Dev) (r : BootRec) : Dev :=
  ((((s.set Fld.UPD_STAT_ACTIVE r.active).setB Fld.UPD_STAT_TRIAL (r.state == 1)).set Fld.UPD_STAT_LASTFB r.fbcause).set Fld.UPD_GEN_RUN (r.gen r.active)).recepShow

/-! ### The choice of the slot (R446, R447, R463) -/

/-- A fallback (R463): the other slot becomes ACTIVE, STATE FALLEN_BACK, the abandoned slot's VALID clears, FBCAUSE; RST_CAUSE.FALLBACK. -/
def Dev.fallBack (s : Dev) (r : BootRec) (cause : Nat) : Dev × BootRec :=
  let n := { r with active := 1 - r.active, state := 2, valid := putBit r.valid r.active false, fbcause := cause }
  let s1 := ((s.bootPut n).set Fld.SYS_RST_CAUSE_FALLBACK 1).updUpd fun (u : Upd) => { u with fell := true, recep := none, faults := 0 }
  (s1.set Fld.UPD_WLEFT_S 0, n)

/-- A TRIAL record at a start: the trial itself, where it is due and the backup domain was kept; else a fallback with its cause. -/
def Dev.bootTrial (s : Dev) (r : BootRec) (good : Bool) : Dev × BootRec :=
  if r.state = 1 then
    if s.upd.expired then s.fallBack r 1
    else if s.power.bkpLost then s.fallBack r 5
    else if !s.upd.trialDue then s.fallBack r 2
    else if !good then let f := s.fallBack r 3; (f.1.set Fld.UPD_STAT_SLOTBAD 1, f.2)
    else (s, r)
  else (s, r)

/-- The inactive slot is booted as a trial (R446), where it holds a valid bundle of a newer generation than the one that would run (R453). -/
def Dev.bootOther (s : Dev) (r : BootRec) (good : Bool) : Dev × BootRec :=
  if r.state != 1 && r.has (1 - r.active) && good && decide (0 < serialDiff 16 (r.gen (1 - r.active)) (r.gen r.active)) then
    let n := { r with active := 1 - r.active, state := 1, valid := 3 }
    ((s.bootPut n).set Fld.UPD_WLEFT_S (s.get Fld.UPD_WINDOW_MIN * 60), n)
  else (s, r)

/-- A bad slot that is not on trial: the other one, where it is valid; none is recovery (R447). -/
def Dev.bootVerify (s : Dev) (r : BootRec) (good other : Bool) : Dev × BootRec × Bool :=
  if good then (s, r, true)
  else
    let s1 := s.set Fld.UPD_STAT_SLOTBAD 1
    if r.has (1 - r.active) && other then let f := s1.fallBack r 3; (f.1, f.2, true) else (s1, r, false)

/-- The boot ROM reads the record and chooses the slot; none is recovery. `bad`: bits 0 and 1, slots that fail; bits 2 and 3, slots one of whose blocks passed its re-read only. -/
def Dev.bootSelect (s : Dev) (mem : List Host.Cell) (boot1 boot0 : Bool) (bad : Nat) : Dev × Option Nat :=
  let good := slotGood s.otp s.isSealed mem bad
  let p := match s.upd.bootNow with | some (_, r) => (s, r) | none => (s.raise Pg.SYS 2, bootDefault s.otp s.isSealed mem bad)
  let s0 : Dev := p.1
  let clear := fun (t : Dev) => t.updUpd fun (u : Upd) => { u with trialDue := false, expired := false }
  if boot0 then
    let s1 := clear (s0.bootShow p.2)
    (if boot1 then s1.set Fld.UPD_STAT_REASON 7 else s1, none)
  else
    let t := s0.bootTrial p.2 (good p.2.active)
    let o := if boot1 then t.1.bootOther t.2 (good (1 - t.2.active)) else t
    let v := o.1.bootVerify o.2 (good o.2.active) (good (1 - o.2.active))
    let s1 := clear (v.1.bootShow v.2.1)
    let s2 := s1.setB Fld.UPD_STAT_NOMETRO (s1.on Fld.UPD_STAT_NOMETRO || (v.2.2 && slotNoMetro mem v.2.1.active))
    if v.2.2 then (if natBit bad (2 + v.2.1.active) then s2.bump Fld.UPD_CNT_TRANS else s2, some v.2.1.active) else (s2, none)

/-! ### Memories at a start (R47, R68, R447, R451) -/

/-- Addresses whose contents a reset leaves undefined: Starter SRAM, engine windows, the raw ring's and the powerline's memory; with `all` also the update staging. -/
def volatileAddr (all : Bool) (a : Nat) : Bool :=
  (decide (0x10000000 ≤ a) && decide (a < 0x10080000)) || (decide (0x50000000 ≤ a) && decide (a < 0x50120000))
    || (decide (0x83800000 ≤ a) && decide (a < 0x83C00000)) || (all && decide (0x83C00000 ≤ a) && decide (a < 0x84000000))

/-- The memory after a reset. -/
def memWipe (mem : List Host.Cell) (all : Bool) : List Host.Cell := mem.filter fun c => !volatileAddr all c.1

/-- The memory after the march of slice 14: nothing of the capture memory is left. -/
def dramWipe (mem : List Host.Cell) : List Host.Cell := mem.filter fun c => !(decide (0x80000000 ≤ c.1) && decide (c.1 < 0x84000000))

/-- The windows a section type is loaded into by the boot ROM (R444, R451). -/
def sectWindows (type : Nat) : List Nat :=
  if type = 1 then [0x10000000] else if type = 2 then (List.range 12).map fun k => 0x50000000 + k * 0x10000
  else if type = 5 then [0x50100000] else []

/-- A section's type, first byte and length in slot `k`, by its entry in the header. -/
def slotSection (mem : List Host.Cell) (k i : Nat) : Nat × Nat × Nat :=
  let h := Memory.readAll mem (slotBase k) 0x180
  let e := slice h (0x80 + 16 * i) 16
  (leAt e 0 1, slotBase k + (1 + leAt h 0xB 1 + leAt e 4 2) * 4096, leAt e 8 4)

/-- The sections of slot `k` copied to their windows. The factory firmware's bytes are not given: nothing is copied. -/
def memLoad (mem : List Host.Cell) (k : Nat) (windows : Nat → List Nat) : List Host.Cell :=
  if slotMagic mem k != bundleMagic then mem
  else (List.range (ofLe (Memory.readAll mem (slotBase k + 0xA) 1))).foldl (fun (t : List Host.Cell) i =>
    let e := slotSection mem k i
    (windows e.1).foldl (fun (u : List Host.Cell) w => Memory.writeAll u w (Memory.readAll mem e.2.1 (min e.2.2 (sectLimit e.1)))) t) mem

end Sys2Proof.Machine
end

