-- ==== Sys2Proof/Machine/Start.lean ====
section
/-! DEFINITION. The start sequence (R55): supplies and clocks, the boot ROM, the billing engine's recovery (R280, R300), the choice of the path (R475), the start-time GUN and the step to RUN (R53). -/

namespace Sys2Proof.Machine

/-- The power-fail threshold in mV (R32). -/
def Dev.pfThreshold (s : Dev) : Nat := 5500 + 100 * s.get Fld.PWR_PF_CFG_THR

/-- VSUP as measured (R32). -/
def Dev.vsupSet (s : Dev) (mv : Nat) : Dev := (s.powUpd fun (w : Power) => { w with vsupMv := mv }).set Fld.PWR_VSUP_MEAS_MV (satN 0xFFFF mv)

/-! ### START to RUN (R53) -/

/-- Voltage group `g` is enabled: it frames, or it makes fixed-rate blocks. -/
def Dev.grpEnabled (s : Dev) (g : Nat) : Bool := s.fixedOn g || decide (1 ≤ s.trkState g)

/-- The group has what START waits for: a committed cycle, or in fixed-rate mode settled decimators. -/
def Dev.grpStarted (s : Dev) (g : Nat) : Bool :=
  (s.trk g).committed || (s.fixedOn g && (12 :: s.grpHeats g).all fun b => (blkChans b).all fun c => !s.chOn c || (s.chan c).settle == 0)

/-- UPD.STAT.SELFOK (R462): every known-answer test passed, every enabled group has had a cycle committed and applied. -/
def Dev.selfOk (s : Dev) : Bool := s.upd.kat == 0x1FFF && (List.range 4).all fun g => !s.grpEnabled g || natBit s.upd.applied g

/-- START becomes RUN at the first committed energy: when there is an enabled group and every one of them has started (R53, R55). -/
def Dev.runCheck (s : Dev) : Dev :=
  if s.power.st == .start && decide (12 ≤ s.power.startStep) && !s.warned && (List.range 4).any s.grpEnabled && (List.range 4).all (fun g => !s.grpEnabled g || s.grpStarted g) then s.setPower .run else s

/-! ### Recovery of billing (R280, R300, R301) -/

/-- QK, LAST_BOUNDARY, the highest token ID and the configuration bits of prepayment take the recovered image's values (R280, R291). -/
def Dev.restoreRegs (s : Dev) (i : Image) : Dev :=
  forN 64 (((s.set Fld.BILL_CFG_QK i.qk).set Fld.BILL_LAST_BOUNDARY_MIN i.lastb).set Fld.PREPAY_TID_LAST_H i.tidH) fun t b => t.wr (Reg.PREPAY_BP_CFG b) (BitVec.ofNat 32 ((nth i.bp b {}).pcfg * 2 ^ 28))

/-- A position whose kept level is not the image's is executed again; a journal entry records it (R301). -/
def Dev.dpRestore (s : Dev) (n : Nat) : Dev :=
  if s.dpOn n && (s.dp n).level != s.dpLevel n then
    let o := (s.dp n).isOpen
    (s.dpRun ⟨n, o, if s.dpPrepaid n then 2 else s.get (Fld.DISC_DP_STAT_CAUSE n)⟩).journal (Config.journalCode 3 % 4096) 0xFF false false (leBytes 1 n ++ leBytes 1 o.toNat)
  else s

/-- The masks of the image are restored; every restored position is checked once SETTLE has passed (R300). -/
def Dev.discRestore (s : Dev) (i : Image) : Dev :=
  let s1 := s.discUpd fun (d : Disc) => { d with
    armMask := i.armMask, causeMask := i.causeMask
    dps := d.dps.mapIdx fun n (p : Dp) => { p with isOpen := natBit i.openMask n, pending := false, recheck := none, curRun := 0, verified := !s.on (Fld.DISC_DP_CFG_FBEN n) } }
  let s2 := (List.range 64).foldl Dev.dpRestore s1
  let s3 := if (List.range 48).any fun k => (nth s1.disc.dps (16 + k) {}).level != (nth s2.disc.dps (16 + k) {}).level then s2.chainFrame else s2
  s3.discUpd fun (d : Disc) => { d with armMask := i.armMask, causeMask := i.causeMask, redo := (List.range 64).filter fun b => (nth i.bp b {}).state == 5 }

/-- The working image after a recovery. -/
def Dev.restoreImage (s : Dev) (i : Image) : Dev :=
  ((s.billUpd fun (b : Bill) => { b with img := { i with jpend := none, bp := i.bp.map fun (p : Bp) => { p with flags := p.flags &&& 0x7FE } } }).restoreRegs i).discRestore i

/-- The power-fail entry an image carries joins the journal, where it is not there yet (R57 step 6). -/
def Dev.restorePend (s : Dev) (i : Image) : Dev :=
  match i.jpend with
  | some e => if s.bill.journal.any (fun x => x.seq == e.seq) then s
    else (s.billUpd fun (b : Bill) => { b with journal := (e :: b.journal).take 8192, jnext := (e.seq + 1) % 2 ^ 32 }).set Fld.BILL_JHEAD_SEQ e.seq
  | none => s

/-- Billing starts without a live image: NOIMAGE, RESTORED, every point flagged, BILL event 11 and SYS_ERR. -/
def Dev.noImage (s : Dev) (slot seq : Nat) : Dev :=
  ((((s.set Fld.BILL_STAT_NOIMAGE 1).set Fld.BILL_STAT_RESTORED 1).flagAll Flg.RESTORED).raiseJ Pg.BILL 11 0xFF false (leBytes 1 slot ++ leBytes 4 seq)).raise Pg.SYS 2

/-- R280: the newer live image, else the newest snapshot, else zero. -/
def Dev.recover (s : Dev) : Dev :=
  let s0 := s.set Fld.BILL_STAT_SNAP_NEXT (match s.mram.newestSnap with | some (k, _) => (k + 1) % 24 | none => 0)
  let s1 := match s0.bill.journal with | e :: _ => s0.set Fld.BILL_JHEAD_SEQ e.seq | [] => s0
  match s1.mram.newest with
  | some (buf, i) => (((s1.restoreImage i).restorePend i).set Fld.BILL_STAT_BUF buf).set Fld.BILL_SEQ_SEQ i.seq
  | none =>
    match s1.mram.newestSnap with
    | some (k, i) => (s1.restoreImage i).noImage k i.seq
    | none => (s1.restoreImage {}).noImage 0xFF 0

/-! ### Halts by the debug port (R441) -/

/-- A halt of the billing engine or a Pacer ends: its uncounted interval is journalled (R59). -/
def Dev.haltEnd (s : Dev) (h : Nat) : Dev :=
  match lookup s.host.haltMt h with
  | some mt => { s with host := { s.host with haltMt := s.host.haltMt.filter fun c => c.1 != h } }.journal (Config.journalCode 4 % 4096) 0xFF false false (leBytes 1 h ++ leBytes 8 mt ++ leBytes 8 s.mt)
  | none => s

/-- Every such halt ends, as at a reset. -/
def Dev.haltsEnd (s : Dev) : Dev := (s.host.haltMt.map fun c => c.1).foldl Dev.haltEnd s

/-! ### Steps 2 to 8 -/

/-- Steps 2 to 4: the main domain is up; START; the warning is armed where VSUP is high enough (R33); CAP.STAT and LAST show the records that the store kept (R240). -/
def Dev.startPower (s : Dev) (vsupMv : Nat) : Dev :=
  let s1 := ((s.powUpd fun (w : Power) => { w with hold := .none, pending := none, also := [], startFrom := none, startStep := 4, before := .start, byOvertemp := false, commitSkipped := false, shutStage := 0 }).setPower .start).vsupSet vsupMv
  let s2 := s1.setB Fld.PWR_PF_CFG_ARMED (decide (s1.pfThreshold + 500 ≤ vsupMv))
  let s3 := ((({ s2 with clk := { onRc := false, xtal := true, wdtMs := 0 } }.set Fld.CLK_STAT_XTAL_OK 1).set Fld.CLK_STAT_PLL_LOCK 1).set Fld.CLK_STAT_BUCK_SYNC 1)
  (s3.setB Fld.CLK_STAT_X32_OK (!s3.on Fld.RTC_STAT_ON_RC)).capStat

/-- Events that waited for main power (R30, R338), and the loss of the backup domain (R49). -/
def Dev.startOwed (s : Dev) : Dev :=
  let s1 := s.tamp.owed.foldl (fun (t : Dev) e => t.raiseEv e true) { s with tamp := { s.tamp with owed := [], owedJ := s.tamp.owedJ ++ s.tamp.owed.filter fun (e : Event) => e.own } }
  let s2 := forN s.power.swOwed (s1.powUpd fun (w : Power) => { w with swOwed := 0 }) fun t _ => t.raise Pg.RTC 10
  if s.power.bkpLost then s2.set Fld.SYS_RST_CAUSE_BKPLOSS 1 else s2

/-- Step 1 of R447: seal, temperature table, keys. -/
def Dev.bootRom (s : Dev) (mem : List Host.Cell) : Dev := let t := s.bootSeal
  (t.tempLoad mem (t.get Fld.UCH_TT_SRC_ADDR) false).unwrapKeys

/-- The engines of a normal start run: the Starter, the billing engine and the Pacers, their known-answer tests passed; the Batons wait (R445, R462). START of the frame counters rises (R411). -/
def Dev.engines (s : Dev) : Dev :=
  { s with mesh := { s.mesh with start := (s.mesh.start + 1) % 65536 } }.set Fld.UPD_ENG_RUN 0xFFF3 |>.updUpd fun (u : Upd) => { u with kat := 0x1FFF, applied := 0, engKept := 0 }

/-- Recovery (R446): the Starter alone runs the boot ROM, UART1 at 1.536 Mbaud takes chain frames. -/
def Dev.recovery (s : Dev) : Dev :=
  let s0 := if s.power.bkpLost then s.journal (Config.journalCode 2 % 4096) 0xFF false false [] else s
  let s1 := (s0.set Fld.UPD_ENG_RUN 1).updUpd fun (u : Upd) => { u with kat := 0, applied := 0, engKept := 0 }
  ((((s1.set (Fld.UART_CTRL_DIVX 1) 1280).set (Fld.UART_CTRL_RXEN 1) 1).set (Fld.UART_CTRL_TXEN 1) 1).set (Fld.UART_CTRL_CHAIN 1) 1).powUpd fun (w : Power) => { w with bkpLost := false }

/-- The FLOORN of a slot's bundle. -/
def slotFloorN (mem : List Host.Cell) (k : Nat) : Nat := if slotMagic mem k = bundleMagic then min 64 (ofLe (Memory.readAll mem (slotBase k + 8) 1)) else 0

/-- Floor fuses are blown one at a time until their number reaches FLOORN, where VSUP and the state allow it; else FLOORPEND (R454, R336). -/
def Dev.floorTry (s : Dev) (target : Nat) : Dev :=
  let left := target - s.otp.floor
  if left = 0 then (s.set Fld.UPD_STAT_FLOORPEND 0).set Fld.UPD_FLOOR_TARGET 0
  else if s.get Fld.PWR_VSUP_MEAS_MV < 10000 ∨ s.power.st = .holdup ∨ s.power.st = .shutdownTest then (s.set Fld.UPD_STAT_FLOORPEND 1).set Fld.UPD_FLOOR_TARGET target
  else (((s.set Fld.UPD_STAT_FLOORPEND 0).set Fld.UPD_FLOOR_TARGET target).updUpd fun (u : Upd) => { u with floorGo := some (s.mt + 1 + Config.fuseTicks s.free) }).tick

/-- Floor fuses still owed by the confirmed image are tried at each start (R454). -/
def Dev.floorStart (s : Dev) (mem : List Host.Cell) : Dev :=
  match s.upd.bootNow with
  | some (_, r) => if r.state = 0 ∧ s.otp.floor < slotFloorN mem r.active then s.floorTry (slotFloorN mem r.active) else s
  | none => s

/-- Step 7: the tariff table, the image, the entries of what happened before, the outage. -/
def Dev.startBilling (s : Dev) (mem : List Host.Cell) (hold : Hold) : Dev :=
  let s1 := (s.tarLoad mem (s.get Fld.TARIFF_SRC_ADDR) false).recover
  let s2 := s1.tarInstall s1.secs
  let s3 := if hold == .vsup then s2.journal (evCode Pg.PWR 3) 0xFF false false (leBytes 8 s.power.offMt ++ leBytes 8 s.mt) else s2
  let s4 := if s3.power.bkpLost then (s3.powUpd fun (w : Power) => { w with bkpLost := false }).journal (Config.journalCode 2 % 4096) 0xFF false false [] else s3
  let s5 := if s4.upd.fell then (s4.updUpd fun (u : Upd) => { u with fell := false }).raiseJ Pg.UPD 7 0xFF false (leBytes 1 (s4.get Fld.UPD_STAT_LASTFB)) else s4
  let s6 := s5.tamp.owedJ.foldl (fun (t : Dev) e => t.journal e.code 0xFF e.inj false []) { s5 with tamp := { s5.tamp with owedJ := [] } }
  s6.outage.powUpd fun (w : Power) => { w with clkOutage := false }

/-! ### Steps 8 to 12 -/

/-- Step 8: the Heats and U are enabled and their references start to settle; at step 11 they are re-initialised and the references settle again (R55). -/
def Dev.blocksOn (s : Dev) : Dev :=
  let s1 := forN 13 s fun t b => (t.set (Hdr.EN (blkPage b)) 1).blkRestart b
  forN 4 s1 fun t r => (t.vrefUpd r fun _ => { on := true }).refShow r

/-- Step 12: the start-time GUN, on GUN_OUT only with REPEAT (R126). The interval without metering runs on to the first counted energy (R59). -/
def Dev.startFinish (s : Dev) : Dev :=
  let s1 := (if s.on Fld.SYS_GUN_REPEAT then s.gunOut else s).gun
  (s1.powUpd fun (w : Power) => { w with startStep := 12, startFrom := some w.offMt }).runCheck

/-- Steps 10 to 12 after a test that ended or was abandoned (R60, R476): keys, the block that was left isolated, the Heats and U again, the GUN. -/
def Dev.startResume (s : Dev) : Dev :=
  let left := (List.range 29).filter s.isoBit
  let s1 := left.foldl (fun (t : Dev) b => t.islandReset b) s
  ((s1.set Fld.CLK_ISL_ISO_ISL 0).unwrapKeys.blocksOn).startFinish

/-- Step 7's choice, and step 8: the fast path goes on, the full path tests first and clears FORCE (R475). -/
def Dev.startPath (s : Dev) : Dev :=
  let s1 := if s.bist.owed then (s.bistUpd fun (b : Bist) => { b with owed := false }).raise Pg.BIST 4 else s
  let s2 := s1.bistShow
  if s2.fastPath then s2.blocksOn.startFinish
  else ((((s2.set Fld.BIST_STAT_FULLPATH 1).set Fld.BIST_CTRL_FORCE 0).powUpd fun (w : Power) => { w with startStep := 9 })).blocksOn.bistStart 1

/-- Staging is lost: what the reception still holds is what it recorded (R458, R464). -/
def Dev.stagingLost (s : Dev) : Dev :=
  s.updUpd fun (u : Upd) => { u with recep := u.recep.map fun (r : Recep) => { r with held := r.recorded, staged := [], complete := r.complete && decide (r.recorded.length = r.ntot) } }

/-- The internal reset is released (R53): TEST_N low keeps the device in reset (R21); the straps are sampled at the end of a power-on reset and where RESET_N has fallen and risen since they last were (R22); the start sequence runs to the test slices or to the GUN. -/
def State.start (s : State) (boot1 boot0 testN : Bool) (vsupMv bad : Nat) : State :=
  if !testN then { s with toDev := s.toDev.powUpd fun (w : Power) => { w with testN := false, hold := if w.hold == .none then .testN else w.hold } }
  else
    let hold := s.power.hold
    let sample := s.power.por || s.power.pinLow
    let b1 := if sample then boot1 else s.power.boot1
    let b0 := if sample then boot0 else s.power.boot0
    let mem := memWipe s.mem s.power.lost
    let d0 := (s.toDev.powUpd fun (w : Power) => { w with boot1 := b1, boot0 := b0, testN := true, por := false, pinLow := false }).startPower vsupMv
    let d1 := if s.power.lost then (d0.stagingLost).powUpd fun (w : Power) => { w with lost := false } else d0
    let d2 := (((d1.set Fld.RTC_VBAT_MV 0).startOwed).bootRom mem)
    let b := d2.bootSelect mem b1 b0 bad
    match b.2 with
    | none => { s with toDev := b.1.recovery, mem := mem }
    | some k => { s with toDev := (((b.1.engines).startBilling mem hold).floorStart mem).startPath, mem := memLoad mem k sectWindows }

end Sys2Proof.Machine
end

