-- ==== Sys2Proof/Machine/Tracker.lean ====
section
/-! DEFINITION. The frame trackers (R136–R141, R150–R155): states, prediction of strides, the decision on a boundary, frequency, and the writes that change what a tracker follows. -/

namespace Sys2Proof.Machine

/-! ### Prediction (R152) -/

/-- 32 000 frames in units of 2^-32 frame. -/
def framesPerSec : Int := 32000 * 2 ^ 32

/-- Period bounds: 69.0 Hz and 42.5 Hz. -/
def periodMin : Int := framesPerSec / 69
def periodMax : Int := framesPerSec * 2 / 85

/-- The period of FNOM. -/
def Dev.nomPeriod (s : Dev) (g : Nat) : Int := framesPerSec / s.fnom g

/-- The period of a frequency in µHz; the nominal one where it is 0. -/
def Dev.periodOf (s : Dev) (g uhz : Nat) : Int := if uhz = 0 then s.nomPeriod g else framesPerSec * 1000000 / uhz

/-- A period as a frequency in µHz, rounded to nearest. -/
def freqOf (p : Int) : Nat := if p ≤ 0 then 0 else (roundDivI (framesPerSec * 1000000) p.toNat).toNat

/-- P_next in the tracker's present state: predicted, the last locked period, or FNOM's (R137, R152). -/
def Dev.nextPeriod (s : Dev) (g j : Nat) : Int :=
  let t := s.trk g
  match s.trkState g with
  | 3 => t.locked
  | 4 => s.nomPeriod g
  | _ => clampI periodMin periodMax (t.ts + (j : Int) * t.r)

/-- A stride with its values latched, and HOLD as it stands at the cycle's start (R152, R168, R171, R197). -/
def Dev.mkStride (s : Dev) (g cyc : Nat) (start period : Int) (fresh : Bool) : Stride :=
  let n := s.nOf g
  let tol := (s.get Fld.FRAME_TOL_VAL : Int) * period / (256 * n)
  { cyc := cyc, start := start, len := period, period := period, step := period / n, tol := tol, stepThr := (s.get Fld.FRAME_PRED_STEP : Int) * tol, ka := s.get Fld.FRAME_PRED_KA, kb := s.get Fld.FRAME_PRED_KB, hold := s.on Fld.FRAME_SPEC_CTRL_HOLD, n := n, fresh := fresh, who := s.workers g, sc := (List.range 208).map s.scaleOf, bd := s.bill.bound, nNom := n }

/-- Where framing restarts after a GUN or a close sample: the next predicted boundary after it, from the last one. -/
def nextBoundary (last period q : Int) : Int :=
  let d := posDiff q last
  if d < 0 ∨ period ≤ 0 then last else posWrap (last + period * (d / period + 1))

/-- The stride a Last takes now: the cycle after the newest one, or the part of a cycle from a restart to the next predicted boundary (R125, R152). DEDUCED (log 76): j counts from the last decided cycle, so it is 1 where a restart finds no stride undecided. -/
def Dev.strideNow (s : Dev) (g : Nat) : Stride :=
  let t := s.trk g
  let period := s.nextPeriod g (t.strides.length + 1)
  match t.restartAt with
  | some (q, gun) =>
    let e := nextBoundary t.boundary period q
    let len := posDiff e q
    let k := s.mkStride g t.next q period (gun || t.fresh)
    let n := if period ≤ 0 ∨ len * k.n < period then 1 else (len * k.n / period).toNat
    { k with len := len, n := n, step := len / (n : Int), gunPart := gun }
  | none =>
    let start := match t.strides.getLast? with | some k => posWrap (k.start + k.len) | none => t.boundary
    s.mkStride g t.next start period t.fresh

/-- Workers that have no starting block for the stride take one at its start, once their replay is done where one runs (R125). -/
def Dev.strideJoin (s : Dev) (g : Nat) (st : Stride) (all : Bool) : Dev :=
  st.who.foldl (fun (t : Dev) w =>
    if all || !(t.pacer w).joined then (if (t.pacer w).replay.isSome then t.taskAdd w (.join st.start) else t.joinAt g w st.start all) else t) s

/-- The stride is shown: VGg_PER, and each Pacer's Last. -/
def Dev.strideShow (s : Dev) (g : Nat) (st : Stride) : Dev :=
  st.who.foldl (fun (t : Dev) w => t.lastShow g w st.step none) (s.set (Fld.FRAME_RB_PER_PER g) (roundDivI st.period (2 ^ 16)).toNat)

/-- The group frames cycles now. -/
def Dev.framing (s : Dev) (g : Nat) : Bool := s.get (Fld.FRAME_VG_CFG_MODE g) == 0 && decide (2 ≤ s.trkState g) && !(s.trk g).stopped

/-- STRIDE_ISSUE: at most two strides are undecided; after a restart the first waits until its start is released. -/
def Dev.strideIssue (s : Dev) (g : Nat) : Dev :=
  let t := s.trk g
  let wait := match t.restartAt with | some (q, _) => !t.strides.isEmpty || decide (posDiff ((s.fe.nextSeq : Int) * q32) q < 0) | none => false
  if !s.framing g || decide (2 ≤ t.strides.length) || wait || t.job.isSome then s
  else
    let st := s.strideNow g
    let gun := match t.restartAt with | some (_, k) => k | none => false
    let s1 := s.strideJoin g st (t.fresh || gun)
    (s1.trkUpd g fun k => { k with strides := k.strides ++ [st], next := (k.next + 1) % 2 ^ 32, fresh := false, restartAt := none }).strideShow g st

/-! ### The decision (R153–R158) -/

/-- The 10 s frequency of an interval that is over is shown, with its limits (R138, R139); the next interval's cycles count from its end. -/
def Dev.freq10Show (s : Dev) (g : Nat) (stop : Int) (ok : Bool) : Dev :=
  let t := s.trk g
  let f := if ok && decide (0 < t.f10Frames) then satN 0xFFFFFFFF ((roundDivI (framesPerSec * 1000000 * t.f10Cycles) t.f10Frames.toNat).toNat) else 0
  let s1 := (s.set (Fld.FRAME_VG_FREQ10_UHZ g) f).trkUpd g fun k => { k with f10Cycles := 0, f10Frames := 0, f10From := stop, f10Due := none }
  if f ≠ 0 ∧ (f < 10000 * s.get (Fld.FRAME_VG_FLIM_FLO g) ∨ 10000 * s.get (Fld.FRAME_VG_FLIM_FHI g) < f) then s1.raiseAt Pg.FRAME 4 s.newestSeq g false false else s1

/-- An interval whose last cycles were awaited is shown with the cycles known. -/
def Dev.freq10Over (s : Dev) (g : Nat) : Dev := match (s.trk g).f10Due with | some e => s.freq10Show g e true | none => s

/-- A whole cycle from one crossing to the next gives VGg_FREQ, and counts for the 10 s frequency of the interval in which it lies (R138). The first one that ends past an interval's end makes that interval's cycles complete. -/
def Dev.freqCycle (s : Dev) (g : Nat) (l b : Int) : Dev :=
  let tm := posDiff b l
  let s0 := match (s.trk g).f10Due with | some e => if 0 < posDiff b e then s.freq10Over g else s | none => s
  (s0.trkUpd g fun k => if 0 ≤ posDiff l k.f10From then { k with f10Cycles := k.f10Cycles + 1, f10Frames := k.f10Frames + tm } else k).set (Fld.FRAME_VG_FREQ_UHZ g) (satN 0xFFFFFFFF (freqOf tm))

/-- The predictor after a decided boundary: measured period and the period that had been predicted, with the values latched in the stride (R152, R171); a partial cycle and the first boundary after a relock give no measured period. DESIGN CHOICE (log 75): the products A e and B e are rounded down. -/
def Dev.predict (s : Dev) (g : Nat) (st : Stride) (bMeas : Int) : Dev :=
  let t := s.trk g
  match (if st.gunPart || t.relock then none else t.lastMeas) with
  | none => s.trkUpd g fun k => { k with lastMeas := some bMeas }
  | some l =>
    let tm := posDiff bMeas l
    let e := tm - st.period
    let jump := decide (st.stepThr < e) || decide (e < -st.stepThr)
    (s.trkUpd g fun k => { k with lastMeas := some bMeas, ts := if jump then tm else st.period + e / 2 ^ st.ka, r := if jump then 0 else k.r + e / 2 ^ st.kb }).freqCycle g l bMeas

/-- The workers of a stride that still replay the cycle before. -/
def Dev.busyWork (s : Dev) (g : Nat) (st : Stride) : List Nat := st.who.filter fun w => s.workGrp w == g && (s.pacer w).replay.isSome

/-- Workers still replaying the cycle before fail with DEADLINE, and keep the new decision for later (R160). -/
def Dev.deadline (s : Dev) (g : Nat) (st : Stride) (b : Int) (fs : Bool) : Dev :=
  (s.busyWork g st).foldl (fun (t : Dev) w => (t.taskAdd w (.decision st b fs)).replayFail g w 4) s

/-- The group's tracker moves on to the next cycle from a boundary of record, which a calibration measurement may wait for (R198). -/
def Dev.trkAdvance (s : Dev) (g : Nat) (b : Int) : Dev :=
  (s.trkUpd g fun k => { k with strides := k.strides.tail, boundary := b, relock := false }).calmBound g b

/-- A worker takes an acceptance (R155): it commits what it published, or forms the cycle now. `fake` marks the records of an injected false start that rewinds nothing (R175). -/
def Dev.acceptOne (s : Dev) (g : Nat) (st : Stride) (e : Int) (fake : Bool) (w : Nat) : Dev :=
  match (s.pacer w).spec with
  | some work => s.commitWork g w st.bd st.cyc work e fun r => s.stateFlags g st { r with falseStarted := fake }
  | none => s.commitFresh g st e w fun r => { r with falseStarted := fake }

/-- The stride is accepted: its predicted end is the boundary of record. A worker that still replays takes the decision when it is done (R160); one that has resynchronised rewinds where its span, or the decision, disagrees with its step, its events withdrawn (R162, R165). -/
def Dev.accept (s : Dev) (g : Nat) (st : Stride) (err : Int) (fake : Bool) : Dev :=
  let e := posWrap (st.start + st.len)
  let busy := s.busyWork g st
  let free := st.who.filter fun w => s.workGrp w == g && !busy.contains w
  let again := free.filter fun w => s.resyncOff st e w || ((s.pacer w).resync && (decide (st.tol < err) || decide (err < -st.tol)))
  let s1 := again.foldl (fun (t : Dev) w => t.rewindOwn g st e w) s
  let s2 := ((s1.settleTo g e fun ev => !(busy ++ again).any fun w => workEvent w ev).deadline g st e false).trkAdvance g e
  (((free.filter fun w => !again.contains w).foldl (fun (t : Dev) w => t.acceptOne g st e fake w) s2).recShow g).boundaryHooks g

/-- The stride in progress is issued again from B_meas, one cycle after the decided one (R152, R158). -/
def Dev.reissue (s : Dev) (g : Nat) (b : Int) : Dev :=
  match (s.trk g).strides with
  | [] => s
  | k :: _ =>
    let st : Stride := { s.mkStride g k.cyc b (s.nextPeriod g 1) false with who := k.who, sc := k.sc, hold := k.hold }
    (s.trkUpd g fun t => { t with strides := [st] }).strideShow g st

/-- A false start (R158, R165, R174): events, withdrawals, and every worker of the group rewinds. B_meas is a boundary of record, at which pending bindings take effect. On B1 the first after a GUN raises event 8 twice (R490). -/
def Dev.falseStart (s : Dev) (g : Nat) (st : Stride) (b : Int) (inj : Bool) : Dev :=
  let two := (s.trk g).b1
  let busy := s.busyWork g st
  let s0 := s.deadline g st b true
  let s1 := ((s0.trkUpd g fun k => { k with b1 := false }).bump (Fld.FRAME_RB_FS_FS g)).raiseAt Pg.FRAME 8 s.newestSeq g false inj
  let s2 := if two then s1.raiseAt Pg.FRAME 8 s.newestSeq g false inj else s1
  let s3 := (s2.withdraw g fun _ => true).pqDrop g
  let s4 := (st.who.filter fun w => s.workGrp w == g && !busy.contains w).foldl (fun (t : Dev) w => t.startReplay g st b inj w) s3
  (((s4.trkAdvance g b).reissue g b).recShow g).bindEffect g

/-- An injected false start without LIVE (R175): events and counters, on B1 event 8 twice for the first after a GUN (R490); nothing is rewound. -/
def Dev.fakeStart (s : Dev) (g : Nat) (st : Stride) : Dev :=
  let two := (s.trk g).b1
  let e : Event := { code := evCode Pg.FRAME 8, inj := true, seq := s.newestSeq, item := g }
  let s1 := ((s.trkUpd g fun k => { k with b1 := false }).bump (Fld.FRAME_RB_FS_FS g)).raiseEv e false
  let s2 := if two then s1.raiseEv e false else s1
  st.who.foldl (fun (t : Dev) w => t.onPacer w fun u => (u.bump (Fld.PACER_FS_FS w)).raiseInj (Pg.PACER w) 1 true false) s2

/-- B_meas (R153): the crossing where it lies within P/4 of the predicted end, else the point where the tracker's own phase crosses zero. -/
def Stride.bMeas (st : Stride) (crossing own : Int) : Int :=
  let d := 4 * posDiff crossing (st.start + st.len)
  if -st.period ≤ d ∧ d ≤ st.period then crossing else own

/-- The time for a decision has come (R153): the released frames cover the balls instant P/4 after B_meas. In COAST and FREE nothing is measured. -/
def Dev.covers (s : Dev) (g : Nat) (st : Stride) (b : Int) : Bool := s.trkState g != 2 || decide (0 ≤ posDiff ((s.newestSeq : Int) * q32) (b + st.period / 4))

/-- BOUNDARY_DECISION: the oldest stride's boundary is decided (R153, R154) from the crossing found and the tracker's own phase; in COAST and FREE it is the tracker's own (R155). -/
def Dev.boundary (s : Dev) (g : Nat) (crossing own : Int) : Dev :=
  match (s.trk g).strides with
  | [] => s
  | st0 :: _ =>
    let st : Stride := { st0 with relock := s.trkState g == 2 && (s.trk g).relock, endState := some (s.trkState g) }
    let b := st.bMeas crossing own
    if s.trkState g ≠ 2 then s.accept g st 0 false
    else
      let err := posDiff b (st.start + st.len)
      let s1 := (s.setI (Fld.FRAME_RB_ERR_ERR g) (roundDivI err (2 ^ 16))).predict g st b
      let inj := s.injArmed Pg.FRAME g
      let live := s.injLive Pg.FRAME
      let s2 := if inj then s1.injUse Pg.FRAME else s1
      if inj && !live then (s2.fakeStart g st).accept g st 0 true
      else if inj || (decide (st.tol < err) || decide (err < -st.tol)) then s2.falseStart g st (posWrap b) inj
      else s2.accept g st err false

/-! ### Tracker states (R137–R141) -/

/-- Channels a tracker needs (R140). -/
def Dev.trkChans (s : Dev) (g : Nat) : List Nat := if s.on (Fld.FRAME_VG_CFG_SRC g) then [192 + 4 * g] else (List.range 3).map (192 + 4 * g + ·)

/-- The tracker is about to leave LOCK, where it is in it: a rate measurement against the group is void (R356). -/
def Dev.lockLeft (s : Dev) (g : Nat) : Dev := if s.trkState g = 2 then s.rateLeave g else s

/-- A tracker goes OFF: its cycles are dropped, which a fixed-rate group's blocks do not follow (R140, R145), and its readings end. -/
def Dev.trkOff (s : Dev) (g : Nat) : Dev :=
  let s0 := (s.freq10Over g).lockLeft g
  let s1 := (if s.fixedOn g then s0 else s0.dropCycles g).trkUpd g fun t => { t with lockCnt := 0, coastCnt := 0, f10Ok := false }
  ((((s1.set (Fld.FRAME_VG_STAT_STATE g) 0).set (Fld.FRAME_VG_FREQ_UHZ g) 0).set (Fld.FRAME_VG_STAT_LOWAMP g) 0).set (Fld.FRAME_VG_STAT_RANGE g) 0).harmShow g

/-- A tracker starts in ACQUIRE. -/
def Dev.trkAcquire (s : Dev) (g : Nat) : Dev :=
  ((((s.lockLeft g).trkUpd g fun t => { t with lockCnt := 0, coastCnt := 0, missing := 0, lost := false, f10Ok := false, f10Due := none }).set (Fld.FRAME_VG_STAT_STATE g) 1).set (Fld.FRAME_VG_FREQ_UHZ g) 0).harmShow g

/-- A tracker runs while the channels it needs are enabled (R140). -/
def Dev.trkRun (s : Dev) (g : Nat) : Dev :=
  let run := (s.trkChans g).all s.chOn
  if run && s.trkState g == 0 then s.trkAcquire g
  else if !run && s.trkState g != 0 then s.trkOff g
  else s

/-- Words a frame leaves missing for a tracker (R140); more than 48 in a row count as a loss of amplitude at the cycle's end. -/
def Dev.missing (s : Dev) (f : Frame) : Dev :=
  forN 4 s fun t g => t.trkUpd g fun k =>
    let n := if (t.trkChans g).any (fun c => wUns (nth f.us (c - 192) 0x80000000)) then satN 65535 (k.missing + 1) else 0
    { k with missing := n, lost := k.lost || decide (48 < n) }

/-- LOCK is entered with the loop's period and crossing: from ACQUIRE framing starts there; from COAST or FREE the strides run on to the first true boundary (R137, R152). -/
def Dev.lockNow (s : Dev) (g uhz : Nat) (pos : Int) (relock : Bool) : Dev :=
  let p := s.periodOf g uhz
  let s1 := s.trkUpd g fun t =>
    { t with ts := p, r := 0, lockCnt := 0, coastCnt := 0, relock := relock, lastMeas := if relock then none else some pos, boundary := if relock then t.boundary else pos, fresh := if relock || s.fixedOn g then t.fresh else true, strides := if relock then t.strides else [] }
  ((s1.set (Fld.FRAME_VG_STAT_STATE g) 2).set (Fld.FRAME_VG_FREQ_UHZ g) uhz).raiseAt Pg.FRAME (if relock then 3 else 0) s.newestSeq g false false

/-- Amplitude and frequency of a cycle end: VGg_AMP, LOWAMP, RANGE and their events (R139, R141). -/
def Dev.cycleMeas (s : Dev) (g amp : Nat) (low out : Bool) : Dev :=
  let s1 := s.set (Fld.FRAME_VG_AMP_AMP g) (satN 0x7FFF amp)
  let s2 := if low && !s.on (Fld.FRAME_VG_STAT_LOWAMP g) then s1.raiseAt Pg.FRAME 6 s.newestSeq g false false else s1
  let s3 := if out && !s.on (Fld.FRAME_VG_STAT_RANGE g) then s2.raiseAt Pg.FRAME 5 s.newestSeq g false false else s2
  (s3.setB (Fld.FRAME_VG_STAT_LOWAMP g) low).setB (Fld.FRAME_VG_STAT_RANGE g) out

/-- TRACKER_CYCLE_END: the state conditions at a cycle's end (R137). DEDUCED (log 87): a FREE tracker whose signal returns stays FREE until it locks, as the table's row for LOCK from FREE has it. -/
def Dev.cycleEnd (s : Dev) (g : Nat) (phaseOk : Bool) (amp uhz : Nat) (pos : Int) : Dev :=
  let st := s.trkState g
  if st = 0 then s
  else
    let low := decide (amp < s.get (Fld.FRAME_VG_AMIN_AMIN g)) || (s.trk g).lost
    let out := decide (uhz < 42500000) || decide (69000000 < uhz)
    let s1 := (s.cycleMeas g amp low out).trkUpd g fun t => { t with lost := false }
    let ok := phaseOk && !low && !out
    let lk := if ok then (s.trk g).lockCnt + 1 else 0
    if st = 2 then
      if low || out then
        let s2 := ((s1.freq10Over g).lockLeft g).trkUpd g fun t => { t with coastCnt := 0, lockCnt := 0, locked := t.ts, f10Ok := false, relock := false, lastMeas := none }
        ((s2.set (Fld.FRAME_VG_STAT_STATE g) 3).set (Fld.FRAME_VG_FREQ_UHZ g) 0).raiseAt Pg.FRAME 1 s.newestSeq g false false
      else if s.get (Fld.FRAME_VG_CFG_MODE g) = 0 then s1
      else
        let s2 := (match (s.trk g).lastMeas with | some l => s1.freqCycle g l (posWrap pos) | none => s1).trkUpd g fun t => { t with lastMeas := some (posWrap pos) }
        s2.calmBound g (posWrap pos)
    else if 8 ≤ lk then (s1.lockNow g uhz (posWrap pos) (st != 1)).harmShow g
    else
      let cc := if st = 3 then (s.trk g).coastCnt + 1 else 0
      let s2 := s1.trkUpd g fun t => { t with lockCnt := lk, coastCnt := cc }
      if st = 3 ∧ s.get (Fld.FRAME_VG_CFG_COAST g) ≤ cc then (s2.set (Fld.FRAME_VG_STAT_STATE g) 4).raiseAt Pg.FRAME 2 s.newestSeq g false false else s2

/-- FREQ10_INTERVAL: a 10 s interval ends (R138, R139). Its value is shown once the cycles that lie in it are decided; where it was not wholly in LOCK, 0 is shown at once. -/
def Dev.freq10 (s : Dev) (g : Nat) : Dev :=
  let stop := s.closePos
  let lock := s.trkState g == 2
  let s0 := s.freq10Over g
  let s1 := if (s.trk g).f10Ok && lock then s0.trkUpd g fun k => { k with f10Due := some stop } else s0.freq10Show g stop false
  s1.trkUpd g fun k => { k with f10Ok := lock }

/-! ### Configuration (R104, R139, R140) -/

/-- FRAME_CONFIG_WRITE of VGg_CFG. -/
def Dev.vgCfg (s : Dev) (g : Nat) (v : Word) : Dev :=
  let coast := bitsOf v 23 16
  let w := putBits (putBits (putBits (putBits (putBits 0 23 16 coast) 9 9 (bitsOf v 9 9)) 8 8 (bitsOf v 8 8)) 5 4 (bitsOf v 5 4)) 1 0 (bitsOf v 1 0)
  let a := Reg.FRAME_VG_CFG g
  s.rwlGate Pg.FRAME a w fun t =>
    if !(t.grpHeats g).isEmpty || coast == 0 || bitsOf v 5 4 == 3 || bitsOf v 1 0 == 3 then t.cfgErr Pg.FRAME
    else
      let old := t.rd a
      let same := bitsOf old 9 0 == bitsOf w 9 0
      if same then t.wr a w
      else
        let t1 := ((t.dropCycles g).wr a w)
        let t2 := if t1.trkState g = 0 then t1 else t1.trkAcquire g
        let t3 := t2.trkRun g
        let t4 := if bitsOf v 1 0 = 0 then t3 else t3.blockNext g
        t4.harmShow g

/-- FRAME_CONFIG_WRITE of VGg_AMIN. -/
def Dev.vgAmin (s : Dev) (g : Nat) (v : Word) : Dev :=
  let w := putBits 0 14 0 (bitsOf v 14 0)
  s.rwlGate Pg.FRAME (Reg.FRAME_VG_AMIN g) w fun t => t.wr (Reg.FRAME_VG_AMIN g) w

/-- LANE_ENABLE_WRITE (R93, R104, R140): a channel switched restarts its settle. -/
def Dev.laneEnable (s : Dev) (b : Nat) (v : Word) : Dev :=
  let n := bitsOf v 15 0
  let old := s.get (Fld.BLK_EN b)
  let bound := fun (c : Nat) => if c < 192 then s.laneBound c else s.grpBound ((c - 192) / 4)
  if (blkChans b).any fun c => natBit old (chBit c) && !natBit n (chBit c) && bound c then s.cfgErr (blkPage b)
  else
    let s1 := s.set (Fld.BLK_EN b) n
    let s2 := (blkChans b).foldl (fun (t : Dev) c => if natBit old (chBit c) != natBit n (chBit c) then t.chanUpd c fun k => k.restart false else t) s1
    if b = 12 then forN 4 s2 fun t g => t.trkRun g else s2

/-- A tracker restarts with the block that feeds it: after a page enable or disable (R104, R140). -/
def Dev.trkAll (s : Dev) : Dev :=
  forN 4 s fun t g =>
    let t1 := t.trkRun g
    if t1.fixedOn g && (t1.trk g).blockStart.isNone then t1.blockNext g else t1

/-! ### A frame through the meter -/

/-- SAMPLE_RELEASE: the frame is written, the trackers see its words, a GUN's first frame closes the records in progress, the triggers of its events fire in slot order (R235), and captures take the rows that are there. -/
def Dev.frameIn (s : Dev) (lanes : List LaneIn) (us : List UIn) : Dev :=
  let s1 := s.sampleRelease lanes us
  match s1.fe.ring with
  | f :: _ =>
    if f.seq = s.fe.nextSeq ∧ s1.fe.nextSeq ≠ s.fe.nextSeq then
      let s2 := s1.missing f
      (if f.gun then s2.gunFrame f.seq else s2).pfDue.capFlush.capAdvance
    else s1
  | [] => s1

end Sys2Proof.Machine
end

