-- ==== Sys2Proof/Machine/Power.lean ====
section
/-! DEFINITION. Power (R29–R33, R43–R64): the backup switch, the warning and HOLDUP, ride-through, resets with their pre-reset commit, the watchdog, QUIET, orderly shutdown, and every start. -/

namespace Sys2Proof.Machine

/-! ### The reset of the main domain (R45–R49) -/

/-- The bit of SYS.RST_CAUSE that a kind of reset sets; an orderly shutdown's restart has none. -/
def ResetKind.cause : ResetKind → Nat
  | .mainPor => 0 | .pin => 1 | .wdt => 2 | .sw => 3 | .fallback => 4 | .clkFail => 5 | .pfTimeout => 6 | .overtemp => 7 | .shutdownExit => 31

/-- What holds the device after a kind of reset (R29, R46, R58, R64). -/
def ResetKind.hold (exit : Bool) : ResetKind → Hold
  | .pin => .pin
  | .pfTimeout => .vsup
  | .overtemp => .overtemp
  | .shutdownExit => if exit then .none else .shutdown
  | .mainPor | .wdt | .sw | .fallback | .clkFail => .none

/-- The blocks at a reset (R47): what MRAM, flash, OTP, the backup domain and, in a warm reset, the disconnect outputs and the counters that count from main power-on hold stays; all else is as at power-on. -/
def Dev.mainClear (s : Dev) (mask : Nat → Nat) (warm lost : Bool) : Dev :=
  { regs := Regs.keep s.regs mask
    mt := if warm then s.mt else 0
    free := s.free
    power := s.power
    clk := { xtal := s.clk.xtal }
    pins := { alarmN := s.pins.alarmN, laceO := s.pins.laceO, gpioIn := s.pins.gpioIn, case := s.pins.case, ddrv := if warm then s.pins.ddrv else 0, gunOut := if warm then s.pins.gunOut else 0 }
    cap := if lost then {} else s.cap.warm
    fe := { nextSeq := if warm then s.fe.nextSeq else 0, slot := if warm then s.fe.slot else 0 }
    meter := { sb := if warm then s.meter.sb.map (fun (b : ChanBlock) => { rem := b.rem }) else List.replicate 208 {} }
    harm := if warm then { list := s.harm.list, listSeq := s.harm.listSeq, grp := s.harm.grp.map fun (g : HarmGrp) => { win := g.win, shortIdx := g.shortIdx, tenIdx := g.tenIdx } } else {}
    eye := { cache := s.eye.cache }
    bill := { journal := s.bill.journal, jnext := s.bill.jnext, now := if warm then s.bill.now else List.replicate 4 {} }
    mram := s.mram
    disc := if warm then { dps := s.disc.dps.map (fun (p : Dp) => { isOpen := p.isOpen, level := p.level, opsWarned := p.opsWarned, ibrkWarned := p.ibrkWarned }), chain := s.disc.chain, oe := s.disc.oe } else {}
    tamp := { lfsr := s.tamp.lfsr, retry := s.tamp.retry, owed := s.tamp.owed, owedJ := s.tamp.owedJ }
    sec := { okey := s.sec.okey, fails := s.sec.fails, lockEnd := s.sec.lockEnd, wrapTok := s.sec.wrapTok, wrapNet := s.sec.wrapNet, seal0 := s.sec.seal0, seal1 := s.sec.seal1 }
    otp := s.otp
    rtc := { s.rtc with frozen := [], rate := none, due := [], linMt := if warm then s.rtc.linMt else 0 }
    mesh := { table := s.mesh.table, start := s.mesh.start, nt := if warm then s.mesh.nt else 0, ntMt := if warm then s.mesh.ntMt else 0 }
    upd := { boot0 := s.upd.boot0, boot1 := s.upd.boot1, recep := s.upd.recep, expired := s.upd.expired, trialDue := s.upd.trialDue, fell := s.upd.fell }
    bist := { rec0 := s.bist.rec0, rec1 := s.bist.rec1, owed := s.bist.owed } }

/-- The internal reset asserts (R46, R47, R49). -/
def Dev.assertReset (s : Dev) (k : ResetKind) : Dev :=
  let exit := s.on Fld.SYS_SHUTDOWN_EXIT
  let ks := k :: (s.power.pending.toList ++ s.power.also)
  let lost := ks.contains .clkFail
  let s1 := ((s.rateVoid).almLost.fuseStop.floorStop.bistAbandon.haltsEnd).mainClear warmMask true lost
  let s2 := s1.set Fld.SYS_WDT_EN 1
  let s3 := ks.foldl (fun (t : Dev) j => if j.cause < 18 then t.set ⟨Reg.SYS_RST_CAUSE, j.cause, j.cause⟩ 1 else t) s2
  s3.powUpd fun (w : Power) => { w with st := .reset, hold := if w.byOvertemp then .overtemp else k.hold exit, pending := none, also := [], lost := w.lost || lost, clkOutage := w.clkOutage || lost, offMt := w.startFrom.getD (if k = .pfTimeout then w.closeMt else s.mt), startFrom := none }

/-- The reset of kind `k` is due: its pre-reset commit starts (R46). Where one runs already it goes on, and its reset has this cause too (R45, R49). -/
def Dev.resetDue (s : Dev) (k : ResetKind) : Dev :=
  if !s.mainOn then s
  else match s.power.pending with
    | none => s.powUpd fun (w : Power) => { w with pending := some k, causeMt := s.mt }
    | some j => if j = k || s.power.also.contains k then s else s.powUpd fun (w : Power) => { w with also := w.also ++ [k] }

/-- A commit of the staging image, where the billing engine has published one; whether it verified. -/
def Dev.stageCommit (s : Dev) (ok1 ok2 : Bool) (j : Option JEntry) : Dev × Bool :=
  let t := s.commitImg ok1 ok2 j
  (t, t.mram != s.mram)

/-! ### Supplies and the backup domain (R30, R31) -/

/-- The backup switch moves: counted, reported once main power is present. -/
def Dev.switchTo (s : Dev) (vbat : Bool) : Dev :=
  let s1 := (s.setB Fld.RTC_VBAT_ON_VBAT vbat).bump Fld.RTC_VBAT_SWITCHES
  if s.mainOn then s1.raise Pg.RTC 10 else s1.powUpd fun (w : Power) => { w with swOwed := w.swOwed + 1 }

/-- V3V3 is absent, so the backup domain is on VBAT (R30). -/
def Dev.onBattery (s : Dev) : Dev := if s.power.bkpAlive && !s.on Fld.RTC_VBAT_ON_VBAT then s.switchTo true else s

/-- The main domain stops (R53). V3V3 falls below 2.70 V, so the backup switch moves to VBAT (R30). -/
def Dev.mainLost (s : Dev) : Dev :=
  ((((s.rateVoid.almLost).fuseStop.bistAbandon).mainClear bkpMask false true).powUpd fun (w : Power) => { st := .backupOnly, bkpAlive := w.bkpAlive, bkpLost := w.bkpLost, swOwed := w.swOwed, v3v3Mv := 0, vbatMv := w.vbatMv }).onBattery

/-- UNDERVOLTAGE_LOCKOUT. -/
def execUndervoltageLockout (s : State) : Out := act s fun d => if d.mainPower then d.mainLost else d

/-- VSUP_RISE_START: main power returns; the switch starts on VBAT (R30); the start runs, once the crystal is valid (R43, R55 step 3). -/
def execVsupRiseStart (boot1 boot0 testN : Bool) (vsupMv bad : Nat) (s : State) : Out :=
  .next (if s.power.st = .backupOnly then
    let t : State := { s with toDev := (s.toDev.onBattery.set Fld.SYS_RST_CAUSE_MAINPOR 1).powUpd fun (w : Power) => { w with st := .reset, offMt := 0 } }
    if s.clk.xtal then State.start t boot1 boot0 testN vsupMv bad else t
  else s)

/-- A comparison of the supplies (R30). -/
def Dev.switchEval (s : Dev) (v3v3 vbat : Nat) : Dev :=
  let s1 := s.powUpd fun (w : Power) => { w with v3v3Mv := v3v3, vbatMv := vbat }
  if s.on Fld.RTC_VBAT_ON_VBAT then (if 2850 < v3v3 ∧ vbat + 100 < v3v3 then s1.switchTo false else s1)
  else if v3v3 < 2700 ∨ v3v3 + 50 < vbat then s1.switchTo true else s1

def execBackupSwitchTransition (v3v3Mv vbatMv : Nat) (s : State) : Out := act s fun d => if d.power.bkpAlive then d.switchEval v3v3Mv vbatMv else d

/-- A register of the backup domain itself. -/
def bkpOnly (a : Nat) : Bool := bkpMask a != 0 && a != Reg.UPD_LOCK && a != Reg.BIST_CTRL

/-- BACKUP_DOMAIN_LOSS: every field, the owner key and the window timer are gone (R31). -/
def Dev.bkpGone (s : Dev) : Dev :=
  Dev.driveAlarm { s with
    regs := Regs.keep s.regs fun a => if bkpOnly a then 0 else 0xFFFFFFFF
    rtc := {}
    sec := { s.sec with okey := none, fails := 0, lockEnd := 0 }
    tamp := { s.tamp with lfsr := [1, 1, 1, 1], retry := [false, false, false, false], owed := [] }
    power := { s.power with bkpAlive := false } }

def execBackupDomainLoss (s : State) : Out := act s Dev.bkpGone

/-- A lace register's random seed is not 0 (R323). -/
def lfsrSeed (seed n : Nat) : Nat := if seed / 2 ^ (15 * n) % 2 ^ 15 = 0 then 1 else seed / 2 ^ (15 * n) % 2 ^ 15

/-- BACKUP_DOMAIN_POWER_UP: reset values, its pins at their power-on levels (R19), OSF set, the loss reported at the next start (R31, R49, R350). -/
def Dev.bkpUp (s : Dev) (seed : Nat) : Dev :=
  let s1 := s.bkpGone
  { s1 with
    regs := Regs.set s1.regs Fld.RTC_STAT_OSF 1
    rtc := { linMt := s.mt }
    pins := { s1.pins with alarmN := true, laceO := 0 }
    tamp := { s1.tamp with lfsr := (List.range 4).map (lfsrSeed seed) }
    power := { s1.power with bkpAlive := true, bkpLost := true } }

def execBackupDomainPowerUp (seed : Nat) (s : State) : Out := act s fun d => if d.power.bkpAlive then d else d.bkpUp seed

/-! ### Warning and HOLDUP (R32, R33, R57) -/

/-- A write of PWR.PF_CFG (R33). -/
def Dev.pfCfg (s : Dev) (v : Word) (vsupMv : Nat) : Dev :=
  let s1 := s.vsupSet vsupMv
  let thr := bitsOf v 7 0
  if 245 < thr ∨ vsupMv < 5500 + 100 * thr + 1000 then s1.cfgErr Pg.PWR
  else ((s1.set Fld.PWR_PF_CFG_FILT (bitsOf v 9 8)).set Fld.PWR_PF_CFG_THR thr).set Fld.PWR_PF_CFG_ARMED 1

def execPfCfgWrite (m : Nat) (v : Word) (vsupMv : Nat) (s : State) : Out := wrAct m Reg.PWR_PF_CFG v s fun d => d.pfCfg v vsupMv

/-- The state that a warning leaves and that its clearing decides on (R53): RIDE-THROUGH counts as what held before it. -/
def Dev.beforeWarning (s : Dev) : PState := if s.power.st = .rideThrough then s.power.before else s.power.st

/-- Steps 2 to 4 of R57: the groups close at their close samples while the records still go to billing, then HOLDUP holds. -/
def Dev.enterHoldup (s : Dev) (hot : Bool) : Dev :=
  let before := s.beforeWarning
  let skip := (before == .start && !(List.range 4).any fun g => (s.trk g).committed) || (before == .shutdownTest && s.bill.frozen)
  let s1 := (((((s.plcAbort.ethStop).harmWarn).pfMark.pulseRelease).discDiscard).eyeAbort).rateVoid.bistAbandon.fuseStop.floorStop
  let s2 := (s1.powUpd fun (w : Power) => { w with before := before, byOvertemp := hot, edgeMt := s.mt, closeMt := s.posMt s.closePos, commitSkipped := skip }).setPower .holdup
  let s3 := ((s2.set64 Reg.PWR_PF_MT_LO Reg.PWR_PF_MT_HI s.mt).set Fld.PWR_PF_STAT_WARN 1).bump Fld.PWR_PF_STAT_COUNT
  let s4 := { s3 with meter := { s3.meter with trk := s3.meter.trk.map fun (t : Tracker) => { t with committed := t.committed && before == PState.start } } }
  let s5 := s4.raise Pg.PWR 0
  if hot && skip then s5.assertReset .overtemp else s5

/-- POWER_FAIL_WARNING: VSUP stayed below the threshold for the filter time while the warning is armed. -/
def Dev.pfWarn (s : Dev) (vsupMv : Nat) : Dev :=
  let s1 := s.vsupSet vsupMv
  if s.on Fld.PWR_PF_CFG_ARMED && decide (vsupMv < s.pfThreshold) && !s.warned then s1.enterHoldup false else s1

/-- Steps 5 and 6 of R57: the partial records are posted and every complete cycle is applied, the image goes to MRAM with its power-fail entry (R59: from the close sample to the image), billing is frozen. A billing engine that does not run applies and journals nothing: its last published image is committed (R46). -/
def Dev.pfCommit (s : Dev) (ok1 ok2 : Bool) : Dev :=
  let s1 := s.pfForm.applyAll
  let s1 := if s.billUp then s1.imgPublish.journal (evCode Pg.PWR 0) 0xFF false false (leBytes 8 s.power.closeMt ++ leBytes 8 s.mt) else s1
  let r := s1.stageCommit ok1 ok2 (if s.billUp then s1.bill.journal.head? else none)
  let us := (s.mt - s.power.edgeMt) * 1000 / 24576
  let s2 := r.1.billUpd fun (b : Bill) => { b with frozen := true }
  let s3 := if r.2 then (s2.set Fld.PWR_PF_STAT_COMMIT_DONE 1).set Fld.PWR_PF_TIMES_COMMIT_US (satN 0xFFFF us) else s2
  let s4 := if 4000 < us then (s3.set Fld.PWR_PF_STAT_LATE 1).raise Pg.PWR 4 else s3
  if s.power.byOvertemp then s4.assertReset .overtemp else if s.power.before == .shutdownTest && !s.warned then s4.assertReset .shutdownExit else s4

/-- A partial record still waits for the frames of its filter's tail, which a running front end delivers (R57 step 4). -/
def Dev.pfWaits (s : Dev) : Bool := !s.clk.onRc && (List.range 4).any fun g => (s.trk g).job.isSome

/-- The power-fail commit is still to come (R57, R56, R60). -/
def Dev.pfOwed (s : Dev) : Bool := s.power.st == .holdup && !s.bill.frozen && !s.power.commitSkipped && s.published

/-- POWER_FAIL_COMMIT: once for each warning, unless billing state is unchanged since the last commit (R56, R60); it follows the partial records (R57 steps 4 to 6). -/
def execPowerFailCommit (ok1 ok2 : Bool) (s : State) : Out :=
  mainAct s fun d => if d.pfOwed && !d.pfWaits then d.pfCommit ok1 ok2 else d

/-- What every clearing of a warning does where the device goes on: metering and billing resume. -/
def Dev.pfResume (s : Dev) : Dev :=
  let s1 := (s.powUpd fun (w : Power) => { w with clearMt := s.mt }).billUpd fun (b : Bill) => { b with frozen := false, holdups := b.holdups ++ [(s.power.edgeMt, s.mt)] }
  ((({ s1 with harm := { s1.harm with grp := s1.harm.grp.map fun (h : HarmGrp) => { h with tenFlags := h.tenFlags ||| 0x00800000 } } }).holdupStep).almRide).eyeResume.plcRestart

/-- Ride-through (R58). -/
def Dev.rideThrough (s : Dev) : Dev :=
  let s1 := (s.set Fld.PWR_PF_STAT_RT 1).set Fld.PWR_PF_TIMES_HOLD_MS (satN 0xFFFF ((s.mt - s.power.edgeMt) / 24576))
  let s2 := (s1.setPower .rideThrough).pfResume
  { s2 with meter := { s2.meter with trk := s2.meter.trk.map fun (t : Tracker) => { t with committed := false } } }

/-- A warning clears (R53, R56): START resumes at its paused step; a shutdown test ends in its reset, once the commit that the warning began has ended where billing had not been frozen before; RUN, QUIET and RIDE-THROUGH ride through. A partial record that still waits for its frames is formed when they are there. -/
def Dev.pfClear (s : Dev) (vsupMv : Nat) : Dev :=
  let s1 := s.vsupSet vsupMv
  if s.power.st == .holdup && s.warned && !s.power.byOvertemp && decide (s.pfThreshold + 500 < vsupMv) then
    let s2 := (((s1.set Fld.PWR_PF_STAT_WARN 0).set Fld.PWR_PF_STAT_COMMIT_DONE 0).raise Pg.PWR 1)
    match s.power.before with
    | .start =>
      let s3 := (s2.setPower .start).pfResume
      if s.power.startStep < 9 then s3 else if s.power.startStep < 12 then s3.startResume else s3.runCheck
    | .shutdownTest => if s.pfOwed then s2 else s2.assertReset .shutdownExit
    | _ => s2.rideThrough
  else s1

/-- The warning is still active after 500 ms: holdup cycles are discarded, the reset follows at once (R53, R58). Its commit was made at the warning: DESIGN CHOICE (log 55), COMMIT_OK and COMMIT_MISSED, which tell of a pre-reset commit, keep their values here and at an over-temperature reset. -/
def Dev.pfTimeout (s : Dev) : Dev :=
  if s.power.st == .holdup && s.warned then ({ s with meter := { s.meter with holdup := [], holdupPassed := 0 } }.raise Pg.PWR 3).assertReset .pfTimeout else s

def execPowerFailTimeout (s : State) : Out := mainAct s Dev.pfTimeout

/-- A holdup cycle has needed the slot of one not passed on: as a timeout (R196). -/
def Dev.holdupFull (s : Dev) : Dev := if s.meter.holdupPassed + 36 < s.meter.holdup.length then s.pfTimeout else s

/-- The deferred work of a ride-through is done and every enabled group has committed a normal cycle; at most 250 ms (R53). -/
def Dev.rideDone (s : Dev) : Bool :=
  (s.bill.due.isEmpty && s.bill.posts.isEmpty && s.meter.holdup.isEmpty && (List.range 4).all fun g => !s.grpEnabled g || (s.trk g).committed) || decide (s.power.clearMt + 6144000 ≤ s.mt)

/-- RIDE_THROUGH_COMPLETE. -/
def execRideThroughComplete (s : State) : Out :=
  mainAct s fun d => if d.power.st == .rideThrough && d.rideDone then (d.holdupRest.raise Pg.PWR 2).setPower (if d.power.before = .quiet then .quiet else .run) else d

/-- OVERTEMP_SHUTDOWN: as a warning, and the reset when its commit is made (R29, R60). In HOLDUP it joins the sequence that runs. -/
def Dev.overtemp (s : Dev) (b : Nat) : Dev :=
  let s1 := s.raiseItem Pg.PWR 8 b
  if s.power.st = .holdup then
    let s2 := s1.powUpd fun (w : Power) => { w with byOvertemp := true }
    if s.bill.frozen || s.power.commitSkipped then s2.assertReset .overtemp else s2
  else s1.enterHoldup true

/-! ### Clocks, pins, watchdog, software (R43, R45, R50, R51) -/

/-- CLOCK_FAILURE: islands but CORE and IO stop, CORE and IO run on the RC; FAIL and event 0; the commit and the reset follow (R43). -/
def Dev.clkFail (s : Dev) : Dev :=
  let s1 := { s with clk := { s.clk with onRc := true, xtal := false } }
  let s2 := (((s1.set Fld.CLK_STAT_FAIL 1).set Fld.CLK_STAT_XTAL_OK 0).set Fld.CLK_STAT_PLL_LOCK 0).set Fld.CLK_STAT_BUCK_SYNC 0
  (s2.raise Pg.CLK 0).resetDue .clkFail

def execClockFailure (s : State) : Out :=
  act s fun d => if d.mainOn then (if d.clk.onRc then d else d.clkFail) else if d.mainPower then { d with clk := { d.clk with xtal := false } } else d

/-- XTAL_OK: the crystal is valid again; MT counts on, and the start that waited goes on (R43). -/
def execXtalOk (s : State) : Out := act s fun d => if d.mainPower then { d with clk := { d.clk with xtal := true } } else d

/-- PIN_RESET: RESET_N goes low; a device held after an orderly shutdown waits for its rise (R46, R63). Whatever else is going on, the straps are sampled at that rise (R22). -/
def execPinReset (s : State) : Out :=
  act s fun d =>
    let d1 := if d.mainPower then d.powUpd fun (w : Power) => { w with pinLow := true } else d
    if d.mainOn then d1.resetDue .pin else d1.powUpd fun (w : Power) => { w with hold := if w.hold = .shutdown ∨ w.hold = .none then .pin else w.hold }

/-- The watchdog counts: enabled, no test slice runs, and the Starter is not halted under WDT_HOLD (R441). -/
def Dev.wdtOn (s : Dev) : Bool := s.on Fld.SYS_WDT_EN && !s.bist.running && !(natBit (s.get Fld.DBG_HALTED_HART) 0 && s.on Fld.DBG_CTRL_WDT_HOLD)

def execWatchdogHalf (s : State) : Out := mainAct s fun d => if d.wdtOn then { d with clk := { d.clk with wdtMs := d.get Fld.SYS_WDT_TIMEOUT / 2 } }.raise Pg.SYS 1 else d
def execWatchdogTimeout (s : State) : Out := mainAct s fun d => if d.wdtOn then { d with clk := { d.clk with wdtMs := d.get Fld.SYS_WDT_TIMEOUT } }.resetDue .wdt else d

/-- A write of SYS.WDT (R51): EN falls by the boot ROM alone. -/
def Dev.wdtWrite (s : Dev) (v : Word) (bootRom : Bool) : Dev :=
  s.keyed Pg.SYS 0x3C v fun t =>
    let ms := bitsOf v 15 0
    if ms < 100 ∨ 60000 < ms then t.cfgErr Pg.SYS
    else (t.set Fld.SYS_WDT_TIMEOUT ms).setB Fld.SYS_WDT_EN (bitAt v 16 || (t.on Fld.SYS_WDT_EN && !bootRom))

def execWdtConfigWrite (m : Nat) (v : Word) (bootRom : Bool) (s : State) : Out := wrAct m Reg.SYS_WDT v s fun d => d.wdtWrite v bootRom

/-- A write of SYS.WDT_KICK (R51): any other word is ignored and sets LOCKERR. -/
def Dev.wdtKick (s : Dev) (v : Word) : Dev := if keyOf v = 0xE1 ∧ bitAt v 0 then { s with clk := { s.clk with wdtMs := 0 } } else s.lockErr Pg.SYS

def execWdtKick (m : Nat) (v : Word) (s : State) : Out := wrAct m Reg.SYS_WDT_KICK v s fun d => d.wdtKick v

/-- A write of SYS.RESET (R50). -/
def Dev.softReset (s : Dev) (v : Word) : Dev := s.keyed Pg.SYS 0xC3 v fun t => if bitAt v 0 then t.resetDue .sw else t

def execSoftwareReset (m : Nat) (v : Word) (s : State) : Out := wrAct m Reg.SYS_RESET v s fun d => d.softReset v

/-! ### Pre-reset commits and releases (R46) -/

/-- The pre-reset commit of the staging image ends: COMMIT_OK where it verified, COMMIT_MISSED where none did; the internal reset asserts. It needs no software: a hung or halted engine's last image is committed. Without a published image there is nothing to commit. -/
def Dev.preCommit (s : Dev) (k : ResetKind) (ok1 ok2 : Bool) : Dev :=
  if s.published then
    let r := s.stageCommit ok1 ok2 none
    ((r.1.setB Fld.SYS_RST_CAUSE_COMMIT_OK r.2).setB Fld.SYS_RST_CAUSE_COMMIT_MISSED (s.on Fld.SYS_RST_CAUSE_COMMIT_MISSED || !r.2)).assertReset k
  else s.assertReset k

def execPreResetCommitDone (ok1 ok2 : Bool) (s : State) : Out :=
  mainAct s fun d => match d.power.pending with | some k => d.preCommit k ok1 ok2 | none => d

/-- The limit of R46 passes first: MRAM holds the previous record. -/
def execPreResetCommitTimeout (s : State) : Out :=
  mainAct s fun d => match d.power.pending with
    | some k => ((d.set Fld.SYS_RST_CAUSE_COMMIT_OK 0).set Fld.SYS_RST_CAUSE_COMMIT_MISSED 1).assertReset k
    | none => d

/-- What held the device lets it go (R46, R58). DESIGN CHOICE (log 71): R21 says only that a low TEST_N keeps the device in reset; a later release with TEST_N high starts it. -/
def Dev.releasable (s : Dev) (vsupMv : Nat) : Bool :=
  match s.power.hold with
  | .none | .pin | .testN => true
  | .vsup => decide (s.pfThreshold + 500 < vsupMv)
  | .overtemp | .shutdown => false

/-- INTERNAL_RESET_RELEASE: the start waits for the crystal (R43). -/
def execInternalResetRelease (boot1 boot0 testN : Bool) (vsupMv bad : Nat) (s : State) : Out :=
  .next (if s.power.st = .reset ∧ s.clk.xtal = true ∧ s.releasable vsupMv = true then s.start boot1 boot0 testN vsupMv bad else s)

/-- OVERTEMP_RELEASE: every sensor reads below 120 °C (R29). -/
def execOvertempRelease (boot1 boot0 testN : Bool) (vsupMv bad : Nat) (s : State) : Out :=
  .next (if s.power.st = .reset ∧ s.clk.xtal = true ∧ s.power.hold = .overtemp then s.start boot1 boot0 testN vsupMv bad else s)

/-! ### QUIET (R54) -/

/-- A write of PWR.CTRL: 1 enters QUIET from RUN alone; 0 leaves QUIET to its wake sources. -/
def Dev.quietWrite (s : Dev) (v : Word) : Dev :=
  if !bitAt v 0 then s
  else if s.power.st = .run then
    let s1 := forN 4 s.plcAbort.ethStop fun t g => t.harmLose g 0
    ((forN 4 (s1.setPower .quiet) fun t g => t.harmShow g).set Fld.PWR_CTRL_QUIET 1).raise Pg.PWR 5
  else s.cfgErr Pg.PWR

def execEnterQuiet (m : Nat) (v : Word) (s : State) : Out := wrAct m Reg.PWR_CTRL v s fun d => d.quietWrite v

/-- WAKE_FROM_QUIET: source `src` of PWR.WAKE; source 0 is an alarm that fired with WAKE in its configuration. -/
def Dev.wakeBy (s : Dev) (src : Nat) : Dev :=
  if src ≠ 0 ∨ (List.range 2).any (fun k => s.on (almStat k) && s.on (Fld.RTC_ALM_CFG_WAKE k)) then s.wake src else s

def execWakeFromQuiet (src : Nat) (s : State) : Out := mainAct s fun d => d.wakeBy src

/-! ### Orderly shutdown (R63, R64) -/

/-- Steps 3 to 5, once every group has stopped: waiting boundaries, every committed cycle, the pods' exposure, the shutdown entry and the final commit; then the slices, or the exit. -/
def Dev.shutdownCommit (s : Dev) : Dev :=
  let from_ := ((List.range 4).filter fun g => (s.trk g).stopped && s.get (Fld.FRAME_VG_CFG_MODE g) == 0).foldl (fun m g => min m (s.posMt (s.trk g).boundary)) s.mt
  let s1 := (s.boundariesNow true).applyAll.eyeShutdown
  let s2 := (s1.journal (Config.journalCode 1 % 4096) 0xFF false false (leBytes 8 from_ ++ leBytes 8 s.mt)).imgPublish
  let s3 := ((s2.tick.tick.commitImg (Config.commitOk s2.free) (Config.commitOk (s2.free + 1)) none).billUpd fun (b : Bill) => { b with frozen := true }).powUpd fun (w : Power) => { w with shutStage := 2 }
  if s.on Fld.SYS_SHUTDOWN_TEST then s3.bistStart 0 else s3.assertReset .shutdownExit

/-- The shutdown goes on when no enabled group still runs. -/
def Dev.shutdownCheck (s : Dev) : Dev :=
  if s.power.st == .shutdownTest && s.power.shutStage == 1 && (List.range 4).all (fun g => (s.trk g).stopped || !(s.fixedOn g || s.framing g)) then s.shutdownCommit else s

/-- Group `g` stops at its confirmed boundary once every record up to it has committed, or at the end of its block (R64 step 2); `decided` says that a boundary was confirmed just now. -/
def Dev.shutdownStop (s : Dev) (g : Nat) (decided : Bool) : Dev :=
  if s.power.st == .shutdownTest && s.power.shutStage == 1 && !(s.trk g).stopped && (decided || (s.trk g).stopping) then
    if (s.workers g).all fun w => (s.pacer w).replay.isNone then
      ((s.dropCycles g).trkUpd g fun (t : Tracker) => { t with stopped := true }).shutdownCheck
    else s.trkUpd g fun (t : Tracker) => { t with stopping := true }
  else s

/-- A write of SYS.SHUTDOWN (R63). -/
def Dev.shutdownWrite (s : Dev) (v : Word) : Dev :=
  s.keyed Pg.SYS 0x96 v fun t =>
    if bitAt v 0 && (t.warned || t.discBusy || (t.power.st != .run && t.power.st != .quiet)) then t.cfgErr Pg.SYS
    else
      let t1 := (t.setB Fld.SYS_SHUTDOWN_EXIT (bitAt v 2)).setB Fld.SYS_SHUTDOWN_TEST (bitAt v 1)
      if bitAt v 0 then ((t1.ethStop.pulseRelease.setPower .shutdownTest).powUpd fun (w : Power) => { w with shutStage := 1 }).shutdownCheck else t1

def execShutdown (m : Nat) (v : Word) (s : State) : Out := wrAct m Reg.SYS_SHUTDOWN v s fun d => d.shutdownWrite v

/-! ### The end of a test (R476, R64) -/

/-- A test ended: at start the keys are unwrapped again and the start goes on; at shutdown the device exits. -/
def Dev.testOver (s : Dev) (was : Dev) : Dev :=
  if was.bist.running && !s.bist.running then
    if s.power.st == .shutdownTest then s.assertReset .shutdownExit
    else if s.power.st == .start then s.startResume
    else s
  else s

end Sys2Proof.Machine
end

