-- ==== Sys2Proof/Machine/Update.lean ====
section
/-! DEFINITION. Field update (R449–R466): the checks of a bundle, reception and cut-through distribution, activation, confirmation, the window, and the release of the Batons. -/

namespace Sys2Proof.Machine

/-! ### The slots' bundles (R448) -/

/-- The boot record that a change of the slots writes over, or the one the running slot stands for. -/
def Dev.bootBase (s : Dev) (mem : List Host.Cell) : BootRec :=
  match s.upd.bootNow with
  | some (_, r) => r
  | none => { bootDefault s.otp s.isSealed mem 0 with active := s.get Fld.UPD_STAT_ACTIVE }

/-- The record with what slot `k` holds. -/
def BootRec.hold (b : BootRec) (k gen : Nat) (bid : List Byte) : BootRec :=
  { b with valid := putBit b.valid k true, genA := if k = 0 then gen else b.genA, genB := if k = 1 then gen else b.genB, bidA := if k = 0 then bid else b.bidA, bidB := if k = 1 then bid else b.bidB }

/-- Slot `k` no longer holds a complete bundle. -/
def Dev.slotDrop (s : Dev) (k : Nat) : Dev :=
  match s.upd.bootNow with
  | some (_, b) => if b.has k then s.bootPut { b with valid := putBit b.valid k false } else s
  | none => s

/-- Blocks of the bundle in slot `k`, from its header. -/
def slotTotal (mem : List Host.Cell) (k : Nat) : Nat := let h := slotBlock mem k 0; 1 + hdrT h + hdrNblk h

/-- The bundle that the inactive slot holds complete, or the one in reception (R465). -/
def Dev.heldBundle (s : Dev) (mem : List Host.Cell) : Option Recep :=
  match s.upd.recep, s.upd.bootNow with
  | some r, _ => some r
  | none, some (_, b) =>
    let k := 1 - s.get Fld.UPD_STAT_ACTIVE
    if b.has k then some { bid := b.bid k, gen := b.gen k, ntot := slotTotal mem k, slot := k, complete := true, nometro := slotNoMetro mem k } else none
  | none, none => none

/-- The slot, the number of blocks and the blocks held of a bundle that can be served: the one in reception, or one that a slot holds complete (R457). The delivered firmware's bytes are not given. -/
def Dev.bundleAt (s : Dev) (mem : List Host.Cell) (bid : List Byte) : Option (Nat × Nat × List Nat) :=
  match s.upd.recep.filter fun r => r.bid == bid with
  | some r => some (r.slot, r.ntot, r.held)
  | none => s.upd.bootNow.bind fun x => ((List.range 2).find? fun k => x.2.has k && x.2.bid k == bid && !slotFactory mem k).map fun k => (k, slotTotal mem k, List.range (slotTotal mem k))

/-! ### Messages (R455) -/

/-- The boot ROM's recovery mode: the Starter's hart alone runs (R446). -/
def Dev.inRecovery (s : Dev) : Bool := s.engMask == 1

/-- Sources from 0x1000 up are on the UART1 chain, others are mesh addresses; a path is served where UPD.SRC selects it. -/
def Dev.updServes (s : Dev) (src : Nat) : Bool :=
  if 0x1000 ≤ src then s.on (Fld.UART_CTRL_CHAIN 1) && (s.inRecovery || (s.hart 3 && s.on Fld.UPD_SRC_CHAIN))
  else s.hart 3 && s.hart 2 && s.on Fld.UPD_SRC_MESH

/-- A chain frame of TYPE 0x51 with an UPDATE body (R435). -/
def Dev.chainSend (s : Dev) (dst : Nat) (body : List Byte) : Dev :=
  let f := leBytes 2 dst ++ leBytes 1 0x51 ++ leBytes 2 s.host.chainSeq ++ leBytes 2 body.length ++ body
  { s with host := { s.host with chainOut := s.host.chainOut ++ [f ++ leBytes 4 (crc32 f)], chainSeq := (s.host.chainSeq + 1) % 65536 } }

/-- An UPDATE body to a neighbour or along the chain. -/
def Dev.updSend (s : Dev) (dst : Nat) (body : List Byte) : Dev :=
  if !s.updServes dst then s else if 0x1000 ≤ dst then s.chainSend (dst - 0x1000) body else s.meshSend 5 dst body

/-- Where NEED goes: the parent, or the chain head. -/
def Dev.updParent (s : Dev) (src : Nat) : Nat := if 0x1000 ≤ src then 0x1000 + Config.headAddr % 65536 else s.get Fld.MESH_STAT_PARENT

/-- Ascending indices as ranges of FIRST and COUNT. -/
def rangesOf : List Nat → List (Nat × Nat)
  | [] => []
  | i :: r => match rangesOf r with
    | (a, n) :: t => if a = i + 1 then (i, n + 1) :: t else (i, 1) :: (a, n) :: t
    | [] => [(i, 1)]

def needBody (bid : List Byte) (l : List Nat) : List Byte :=
  leBytes 1 2 ++ [0] ++ slice bid 0 8 ++ ((rangesOf l).take 64).flatMap fun r => leBytes 2 r.1 ++ leBytes 2 r.2
def blockBody (bid : List Byte) (i : Nat) (data : List Byte) : List Byte := leBytes 1 3 ++ [0] ++ leBytes 2 i ++ slice bid 0 8 ++ data
def haveBody (bid : List Byte) (n : Nat) : List Byte := leBytes 1 4 ++ [0] ++ slice bid 0 8 ++ leBytes 2 n
def offerBody (r : Recep) : List Byte := leBytes 1 1 ++ [0] ++ slice r.bid 0 8 ++ leBytes 2 r.gen ++ leBytes 2 r.ntot

/-- The blocks a reception asks for next: block 0, then the table, then the payload. -/
def Recep.missing (r : Recep) (t : Nat) : List Nat :=
  if !r.held.contains 0 then [0]
  else if !r.tableOk then (List.range (t + 1)).filter fun i => !r.held.contains i
  else (List.range r.ntot).filter fun i => !r.held.contains i

def Dev.recepUpd (s : Dev) (f : Recep → Recep) : Dev := (s.updUpd fun (u : Upd) => { u with recep := u.recep.map f }).recepShow

/-- NEED for what is missing, to the source's parent. -/
def Dev.needSend (s : Dev) (mem : List Host.Cell) (src : Nat) : Dev :=
  match s.upd.recep with
  | some r =>
    let l := r.missing (hdrT (slotBlock mem r.slot 0))
    if r.complete || l.isEmpty then s else s.updSend (s.updParent src) (needBody r.bid l)
  | none => s

/-! ### Reception (R456–R458) -/

/-- OFFER: taken where no trial runs and no partial reception is held, or a newer generation replaces it. -/
def Dev.offer (s : Dev) (mem : List Host.Cell) (src : Nat) (body : List Byte) : Dev :=
  let bid := slice body 2 8
  let gen := leAt body 10 2
  let same := match s.upd.recep with | some r => r.bid == bid | none => false
  let takes := !s.on Fld.UPD_STAT_TRIAL && match s.upd.recep with | some r => r.complete || newer 16 gen r.gen | none => true
  if !s.updServes src || leAt body 0 1 != 1 then s
  else if same then s.updUpd fun (u : Upd) => { u with offers := if u.offers.contains src then u.offers else u.offers ++ [src] }
  else if takes then
    let r : Recep := { bid := bid, gen := gen, ntot := leAt body 12 2, slot := 1 - s.get Fld.UPD_STAT_ACTIVE }
    ((s.updUpd fun (u : Upd) => { u with recep := some r, offers := [src], asked := [] }).recepShow).needSend mem src
  else s

/-- Reception of the bundle ends: event 8 with its reason; it is never offered on. -/
def Dev.bundleReject (s : Dev) (reason : Nat) : Dev :=
  (((s.updUpd fun (u : Upd) => { u with recep := none, offers := [], asked := [] }).set Fld.UPD_STAT_REASON reason).recepShow).raise Pg.UPD 8

/-- What block 0 is refused for: 10 SIGNATURE, 12 FLOOR; 0 for nothing. -/
def Dev.headReason (s : Dev) (r : Recep) (h : List Byte) : Nat :=
  if !headerOk h r.ntot || headBid h != r.bid || hdrGen h != r.gen || !imgSigOk s.otp h then 10
  else if !floorOk (hdrGen h) s.otp.floor then 12 else 0

/-- A copy of block `i` fails: requested once more from its source, or left to the chain head's resend; the second failure is lasting and asks another neighbour that offered. -/
def Dev.blockFail (s : Dev) (src i : Nat) (inj : Bool) : Dev :=
  match s.upd.recep with
  | none => s
  | some r =>
    if r.failedOnce.any fun x => x.1 == i then
      let s1 := ((s.recepUpd fun (k : Recep) => { k with failedOnce := k.failedOnce.filter fun x => x.1 != i }).bump Fld.UPD_CNT_LASTING).raiseMark Pg.UPD 2 inj
      match s.upd.offers.find? fun x => x != src with
      | some o => s1.updSend o (needBody r.bid [i])
      | none => s1
    else
      let s1 := s.recepUpd fun (k : Recep) => { k with failedOnce := (i, inj) :: k.failedOnce }
      if 0x1000 ≤ src then s1 else s1.updSend src (needBody r.bid [i])

/-- An injected check without LIVE: the block is used, and the counts and events of COUNT failures occur (R466). -/
def Dev.blockFake (s : Dev) : Dev :=
  let s1 := s.injUse Pg.UPD
  if s1.injArmed Pg.UPD 0 then ((s1.injUse Pg.UPD).bump Fld.UPD_CNT_LASTING).raiseInj Pg.UPD 2 true false
  else (s1.bump Fld.UPD_CNT_TRANS).raiseInj Pg.UPD 1 true false

/-- The reception is recorded in MRAM: after every 64 blocks and at completion; HAVE goes to the parent. -/
def Dev.recepRecord (s : Dev) (src : Nat) : Dev :=
  match s.upd.recep with
  | some r => (s.recepUpd fun (k : Recep) => { k with recorded := k.held }).updSend (s.updParent src) (haveBody r.bid r.held.length)
  | none => s

/-- Every block is held and the table hash has passed: the boot record shows the slot's bundle, event 3, READY. -/
def Dev.recepDone (s : Dev) (mem : List Host.Cell) (src : Nat) : Dev :=
  match s.upd.recep with
  | some r =>
    if r.tableOk && r.held.length == r.ntot then (((s.bootPut ((s.bootBase mem).hold r.slot r.gen r.bid)).recepUpd fun (k : Recep) => { k with complete := true }).recepRecord src).raise Pg.UPD 3
    else if r.held.length % 64 = 0 then s.recepRecord src else s
  | none => s

/-- A verified block: held, in staging and in the slot; event 0; sent on to every child that asked for it (R457). The slot's old bundle ends with its first block. -/
def Dev.blockKeep (s : Dev) (r : Recep) (i : Nat) (data : List Byte) : Dev :=
  let s0 := if i = 0 then s.slotDrop r.slot else s
  let was := r.failedOnce.find? fun x => x.1 == i
  let s1 := s0.recepUpd fun (k : Recep) => { k with held := k.held ++ [i], staged := (k.staged ++ [i]).drop (k.staged.length + 1 - 1024), failedOnce := k.failedOnce.filter fun x => x.1 != i }
  let s2 := match was with | some x => (s1.bump Fld.UPD_CNT_TRANS).raiseMark Pg.UPD 1 x.2 | none => s1
  ((s.upd.asked.filter fun a => a.2 == i).foldl (fun (t : Dev) a => t.updSend a.1 (blockBody r.bid i data)) s2).raise Pg.UPD 0

/-- The table is whole: its hash, and METROSIG where the seal asks for it; a failing hash discards every table block. -/
def Dev.tableCheck (s : Dev) (mem : List Host.Cell) (r : Recep) : Dev :=
  let h := slotBlock mem r.slot 0
  let t := hdrT h
  let table := slotTable mem r.slot t
  if sha256 table != slice h 0x20 32 then s.recepUpd fun (k : Recep) => { k with held := k.held.filter fun i => decide (i = 0) || decide (t < i), staged := k.staged.filter fun i => decide (i = 0) || decide (t < i) }
  else if metroOk h table then s.recepUpd fun (k : Recep) => { k with tableOk := true }
  else if s.isSealed then s.bundleReject 11
  else s.recepUpd fun (k : Recep) => { k with tableOk := true, nometro := true }

/-- Block `i` passes its own check. -/
def blockOk (mem : List Host.Cell) (r : Recep) (i : Nat) (data : List Byte) : Bool :=
  let h := slotBlock mem r.slot 0
  let t := hdrT h
  if i ≤ t then crc32 data == leAt h (0x40 + 4 * (i - 1)) 4 else payloadOk (slotTable mem r.slot t) (i - 1 - t) data

/-- A block other than block 0. -/
def Dev.blockOther (s : Dev) (mem : List Host.Cell) (r : Recep) (src i : Nat) (data : List Byte) : Dev × List Host.Cell :=
  let inj := s.injArmed Pg.UPD 0
  let live := s.injLive Pg.UPD
  let s1 := if inj then (if live then s.injUse Pg.UPD else s.blockFake) else s
  if (inj && live) || !blockOk mem r i data then (s1.blockFail src i (inj && live), mem)
  else
    let mem1 := Memory.writeAll mem (blockAddr r.slot i) data
    let s2 := s1.blockKeep r i data
    let t := hdrT (slotBlock mem1 r.slot 0)
    let s3 := match s2.upd.recep with
      | some k => if !k.tableOk && (List.range (t + 1)).all k.held.contains then s2.tableCheck mem1 k else s2
      | none => s2
    (s3.recepDone mem1 src, mem1)

/-- BLOCK: verified in order (R456), then stored. -/
def Dev.blockIn (s : Dev) (mem : List Host.Cell) (src : Nat) (body : List Byte) : Dev × List Host.Cell :=
  let i := leAt body 2 2
  let data := slice body 12 4096
  match s.upd.recep with
  | none => (s, mem)
  | some r =>
    if !s.updServes src || leAt body 0 1 != 3 || body.length != 4108 || slice body 4 8 != r.bid || r.complete || decide (r.ntot ≤ i) || r.held.contains i then (s, mem)
    else if i = 0 then
      let reason := s.headReason r data
      if reason = 0 then
        let mem1 := Memory.writeAll mem (blockAddr r.slot 0) data
        ((s.blockKeep r 0 data).needSend mem1 src, mem1)
      else (s.bundleReject reason, mem)
    else if !r.held.contains 0 || (!r.tableOk && decide (hdrT (slotBlock mem r.slot 0) < i)) then (s, mem)
    else s.blockOther mem r src i data

/-- NEED from a child: blocks held are sent now, others as soon as they are verified. -/
def Dev.needIn (s : Dev) (mem : List Host.Cell) (src : Nat) (body : List Byte) : Dev :=
  if !s.updServes src || leAt body 0 1 != 2 then s
  else match s.bundleAt mem (slice body 2 8) with
    | none => s
    | some (slot, ntot, held) =>
      let ranges := (List.range (min 64 ((body.length - 10) / 4))).map fun k => (leAt body (10 + 4 * k) 2, leAt body (12 + 4 * k) 2)
      let want := (ranges.flatMap fun x => (List.range x.2).map (x.1 + ·)).filter fun i => decide (i < ntot)
      let s1 := if s.upd.recep.any fun r => r.bid == slice body 2 8 then s.updUpd fun (u : Upd) => { u with asked := u.asked ++ ((want.filter fun i => !u.asked.contains (src, i)).map fun i => (src, i)) } else s
      (want.filter fun i => held.contains i).foldl (fun (t : Dev) i => t.updSend src (blockBody (slice body 2 8) i (slotBlock mem slot i))) s1

/-- HAVE from a child: what it asked for and was sent is confirmed; staging keeps what another child still waits for. -/
def Dev.haveIn (s : Dev) (src : Nat) (body : List Byte) : Dev :=
  match s.upd.recep with
  | none => s
  | some r =>
    if !s.updServes src || leAt body 0 1 != 4 || slice body 2 8 != r.bid then s
    else
      let gone := (s.upd.asked.filter fun a => a.1 == src && r.held.contains a.2).map (·.2)
      let left := s.upd.asked.filter fun a => !(a.1 == src && r.held.contains a.2)
      (s.updUpd fun (u : Upd) => { u with asked := left }).recepUpd fun (k : Recep) => { k with staged := k.staged.filter fun i => !gone.contains i || left.any fun a => a.2 == i }

/-- A command of the update service, which writes the inactive slot. -/
def updAct (s : State) (f : List Host.Cell → Dev → Dev × List Host.Cell) : Out :=
  .next (if s.mainOn then let r := f s.mem s.toDev; { s with toDev := r.1, mem := r.2 } else s)

/-- A write of an UPD register that acts on the device and the memory. -/
def updWr (m a : Nat) (v : Word) (s : State) (f : List Host.Cell → Dev → Dev × List Host.Cell) : Out :=
  updAct s fun mem d => if d.islRun (pageOf a) then f mem d else (d.landing m a v id, mem)

/-- An UPDATE body by its OP. -/
def Dev.updateIn (s : Dev) (mem : List Host.Cell) (src : Nat) (body : List Byte) : Dev × List Host.Cell :=
  match leAt body 0 1 with
  | 1 => (s.offer mem src body, mem)
  | 2 => (s.needIn mem src body, mem)
  | 3 => s.blockIn mem src body
  | 4 => (s.haveIn src body, mem)
  | _ => (s, mem)

def execOfferMsg (src : Nat) (body : List Byte) (s : State) : Out := updAct s fun mem d => (d.offer mem src body, mem)
def execNeedMsg (src : Nat) (body : List Byte) (s : State) : Out := updAct s fun mem d => (d.needIn mem src body, mem)
def execBlockMsg (src : Nat) (body : List Byte) (s : State) : Out := updAct s fun mem d => d.blockIn mem src body
def execHaveMsg (src : Nat) (body : List Byte) (s : State) : Out := updAct s fun mem d => (d.haveIn src body, mem)

/-- UPDATE_OFFER_TIMER: a node that holds block 0 verified offers its bundle on every path it serves. -/
def Dev.offerTimer (s : Dev) : Dev :=
  match s.upd.recep with
  | some r => if r.held.contains 0 then (s.updSend 0xFFF (offerBody r)).updSend (0x1000 + 0xFFFF) (offerBody r) else s
  | none => s

def execUpdateOfferTimer (s : State) : Out := mainAct s Dev.offerTimer

/-- NEED_RETRY_TIMER: the request is made again (R456, R457). -/
def execNeedRetryTimer (s : State) : Out :=
  updAct s fun mem d => (match d.upd.offers with | src :: _ => d.needSend mem src | [] => d.needSend mem (if d.inRecovery then 0x1000 else 0), mem)

/-- DATA_FRAME: received (R382), and an UPDATE body handed to the update service. -/
def execDataFrame (rx : RxInfo) (fc payload : List Byte) (s : State) : Out :=
  updAct s fun mem d =>
    let r := d.data rx fc payload
    match r.2 with
    | some (src, body) => r.1.updateIn mem src body
    | none => (r.1, mem)

/-! ### Activation (R459–R461) -/

/-- A minute that R459 step 8 keeps clear of: a billing boundary, an end of a demand interval or subinterval, or a switch of a schedule that an enabled point uses. -/
def Dev.busyMinute (s : Dev) (m : Nat) : Bool :=
  s.isBoundary m || m % s.demSub == 0 || (List.range 4).any fun k =>
    ((List.range 64).any fun b => (nth s.bill.bound b {}).en && s.schedOf b == k) && (tariffAt s.bill.tariff k (m * 60)).tar != (tariffAt s.bill.tariff k (m * 60 - 60)).tar

/-- Such a minute lies within 120 s of now. -/
def Dev.nearBoundary (s : Dev) : Bool :=
  (List.range 6).any fun i => let m := s.secs / 60 + i - 2; decide (s.secs ≤ m * 60 + 120) && decide (m * 60 ≤ s.secs + 120) && s.busyMinute m

/-- Checks 1 to 9: the reason of the first that fails, 0 for none. -/
def Dev.actState (s : Dev) : Nat :=
  if !((s.power.st == .run || s.power.st == .quiet || s.inRecovery) && !s.on Fld.UPD_STAT_TRIAL && s.power.pending.isNone) then 7
  else if s.on Fld.UPD_LOCK_OWNER then 1
  else if s.warned then 5
  else if s.get Fld.RTC_VBAT_MV < 2500 ∨ s.on Fld.RTC_VBAT_LOW then 2
  else if s.get Fld.TAMP_STICKY_SRC ≠ 0 then 3
  else if !s.inRecovery && s.discBusy then 6
  else if s.on Fld.RTC_STAT_OSF then 8
  else if !s.inRecovery && s.nearBoundary then 4
  else if !s.on Fld.UPD_STAT_READY then 9
  else 0

/-- Checks 10 to 12 on the slot: signatures, generation, hashes. The delivered firmware's bytes are not given: it passes (log 62). -/
def Dev.actSlot (s : Dev) (mem : List Host.Cell) (slot : Nat) (downgrade hashBad : Bool) : Nat :=
  let h := slotBlock mem slot 0
  let own := slotFactory mem slot
  let d := serialDiff 16 (slotGen mem slot) (s.get Fld.UPD_GEN_RUN)
  if !own && !imgSigOk s.otp h then 10
  else if !own && s.isSealed && !metroOk h (slotTable mem slot (hdrT h)) then 11
  else if !((own && s.otp.floor == 0) || floorOk (slotGen mem slot) s.otp.floor) then 12
  else if !(decide (0 < d) || (downgrade && decide (-32767 ≤ d))) then 13
  else if hashBad || !(own || slotHashes mem slot) then 14
  else 0

/-- A refusal: REASON and event 5; nothing else changes. -/
def Dev.actRefuse (s : Dev) (reason : Nat) : Dev := (s.set Fld.UPD_STAT_REASON reason).raise Pg.UPD 5

/-- A third fault of one activation: the running slot stays, the new one is invalid, FBCAUSE ESCALATED, event 7 (R461). -/
def Dev.actEscalate (s : Dev) (mem : List Host.Cell) (slot : Nat) : Dev :=
  let b := s.bootBase mem
  let n := { b with state := 2, valid := putBit b.valid slot false, fbcause := 4 }
  ((((s.bootPut n).updUpd fun (u : Upd) => { u with recep := none, faults := 0 }).bootShow n)).raiseJ Pg.UPD 7 0xFF false (leBytes 1 4)

/-- The activation is accepted: event 4, the record on trial, the window, the reset (R460). -/
def Dev.actAccept (s : Dev) (mem : List Host.Cell) (r : Recep) : Dev :=
  let b := s.bootBase mem
  let n := { b.hold r.slot r.gen r.bid with active := r.slot, state := 1, valid := 3 }
  let s1 := s.raiseJ Pg.UPD 4 0xFF false (leBytes 8 (ofLe r.bid) ++ leBytes 2 r.gen ++ leBytes 1 r.nometro.toNat)
  let s2 := ((s1.bootPut n).set Fld.UPD_WLEFT_S (s.get Fld.UPD_WINDOW_MIN * 60)).updUpd fun (u : Upd) => { u with recep := none, trialDue := true, expired := false, faults := 0 }
  s2.resetDue .sw

/-- UPD_ACTIVATE. `bad`: the lasting faults it meets, of block reads and record writes (R461); 256 and up, a block of the slot fails its hash. -/
def Dev.activate (s : Dev) (mem : List Host.Cell) (downgrade : Bool) (bad : Nat) : Dev :=
  let a := s.actState
  match s.heldBundle mem with
  | none => s.actRefuse (if a = 0 then 9 else a)
  | some r =>
    if a ≠ 0 then s.actRefuse a
    else
      let b := s.actSlot mem r.slot downgrade (decide (256 ≤ bad))
      if b ≠ 0 then s.actRefuse b
      else if 3 ≤ bad % 256 then s.actEscalate mem r.slot
      else s.actAccept mem r

/-- DISCARD: the reception goes, and with a complete one what the slot holds. -/
def Dev.recepDiscard (s : Dev) : Dev :=
  let s1 := match s.upd.recep with | some r => if r.complete then s.slotDrop r.slot else s | none => s
  (s1.updUpd fun (u : Upd) => { u with recep := none, offers := [], asked := [] }).recepShow

/-- A write of UPD.CMD (R465). -/
def Dev.updCmd (s : Dev) (mem : List Host.Cell) (m : Nat) (v : Word) (bad : Nat) : Dev :=
  s.keyed Pg.UPD 0x75 v fun t =>
    if bitAt v 8 && !t.session m then t.lockErr Pg.UPD
    else match bitsOf v 1 0 with
      | 1 => t.activate mem (bitAt v 8) bad
      | 2 => t.recepDiscard
      | _ => t.cfgErr Pg.UPD

def execUpdActivate (m : Nat) (v : Word) (bad : Nat) (s : State) : Out := updWr m Reg.UPD_CMD v s fun mem d => (d.updCmd mem m v bad, mem)
def execUpdDiscard (m : Nat) (v : Word) (s : State) : Out := updWr m Reg.UPD_CMD v s fun mem d => (d.updCmd mem m v 0, mem)

/-! ### Confirmation, floor, window (R454, R462, R463) -/

/-- UPD_CONFIRM. -/
def Dev.confirm (s : Dev) (mem : List Host.Cell) (v : Word) : Dev :=
  s.keyed Pg.UPD 0xC5 v fun t =>
    if !bitAt v 0 then t
    else if !(t.on Fld.UPD_STAT_TRIAL && t.selfOk && t.power.st != .holdup && t.power.st != .shutdownTest) then t.cfgErr Pg.UPD
    else
      let n := { t.bootBase mem with state := 0 }
      let s1 := (((t.bootPut n).set Fld.UPD_WLEFT_S 0).bootShow n).raiseJ Pg.UPD 6 0xFF false []
      s1.floorTry (slotFloorN mem n.active)

def execUpdConfirm (m : Nat) (v : Word) (s : State) : Out := updWr m Reg.UPD_CONFIRM v s fun mem d => (d.confirm mem v, mem)

/-- TRIAL_WINDOW_EXPIRY: the fallback reset, unless a boundary is near or the device is in HOLDUP; then it waits (R463, R464). -/
def Dev.windowOver (s : Dev) : Dev :=
  if s.on Fld.UPD_STAT_TRIAL && s.get Fld.UPD_WLEFT_S == 0 then
    let s1 := s.updUpd fun (u : Upd) => { u with expired := true }
    if s.power.st = .holdup ∨ (s.billUp && !s.on Fld.RTC_STAT_OSF && s.nearBoundary) then s1 else s1.resetDue .fallback
  else s

def execTrialWindowExpiry (s : State) : Out := mainAct s Dev.windowOver

/-- A fallback reset that waits for a boundary or for ride-through is looked at again each second (R463, R464). -/
def Dev.windowLate (s : Dev) : Dev := if s.mainOn && s.upd.expired && s.power.pending.isNone then s.windowOver else s

def execRtcSecondTick (s : State) : Out := bkpAct s fun d => d.rtcTick.windowLate

/-! ### The Batons (R445) -/

/-- A write of UPD.BATON_CTL: the Starter holds or releases each Baton; a held one stops at once. -/
def Dev.batonCtl (s : Dev) (m : Nat) (v : Word) : Dev :=
  if m ≠ 0 then s.lockErr Pg.UPD
  else s.keyed Pg.UPD 0x3B v fun t =>
    let eng := putBit (putBit t.engMask 2 (!bitAt v 0)) 3 (!bitAt v 1)
    let t1 := ((t.set Fld.UPD_BATON_CTL_HOLD (bitsOf v 1 0)).set Fld.UPD_ENG_RUN eng).updUpd fun (u : Upd) => { u with engKept := 0 }
    if bitAt v 0 && t.hart 2 then { t1.plcAbort with plc := { t1.plcAbort.plc with queue := [] } } else t1

end Sys2Proof.Machine
end

