-- ==== Sys2Proof/Machine/Band.lean ====
section
/-! DEFINITION. The band plan of the powerline (R86, R373, R374): its image, its load, and the load that Baton 0 makes when it starts. -/

namespace Sys2Proof.Machine

/-- FIRST and LAST of a band-plan entry. -/
def bandEntry (e : Entry) : Nat × Nat := (leAt e 0 2, leAt e 2 2)

/-- The content check of R373. -/
def bandContent (es : List Entry) : Bool :=
  let plan := es.map bandEntry
  es.all (fun e => zeroAt e [4, 5, 6, 7]) && plan.all (fun r => decide (100 ≤ r.1) && decide (r.2 ≤ 1666) && decide (r.1 ≤ r.2))
    && decide (320 ≤ (dataCarriers plan).length)

/-- An accepted plan takes effect now, or at the end of the frame in flight (R374). -/
def Dev.bandTake (s : Dev) (plan : List (Nat × Nat)) (id : Nat) : Dev :=
  { s with plc := { s.plc with planNext := some (plan, id) } }.planDue

/-- The check of the band-plan image at `src` ends: events 5 and 6 of PLCPHY. -/
def Dev.bandTry (s : Dev) (mem : List Host.Cell) (src : Nat) (emptyOk : Bool) : Dev :=
  let r := tblCheck mem src { type := 5, esize := 8, area := 4096, emptyOk := emptyOk, content := bandContent }
  if r.1 = 0 then ((s.tblShow Reg.PLCPHY_TBL_STAT r.2).bandTake (r.2.entries.map bandEntry) (leAt (Memory.readAll mem src 16) 12 4 % 65536)).raise Pg.PLCPHY 5
  else (s.tblReject Reg.PLCPHY_TBL_STAT r.1).raise Pg.PLCPHY 6

/-- The check of the image at PLCPHY.BP_SRC begins. -/
def Dev.bandGo (s : Dev) : Dev := s.tblGo { stat := Reg.PLCPHY_TBL_STAT, src := s.get Fld.PLCPHY_BP_SRC_ADDR, emptyOk := s.on Fld.PLCPHY_BP_LOAD_OVERRIDE }

/-- A write of PLCPHY.BP_LOAD: OVERRIDE = 1 needs the writer's session. -/
def Dev.bpLoad (s : Dev) (m : Nat) (v : Word) : Dev :=
  if bitAt v 1 && !s.session m then s.lockErr Pg.PLCPHY
  else
    let t := s.setB Fld.PLCPHY_BP_LOAD_OVERRIDE (bitAt v 1)
    if bitAt v 0 then t.bandGo else t

def execBandPlanLoad (m : Nat) (v : Word) (s : State) : Out := wrAct m Reg.PLCPHY_BP_LOAD v s fun d => d.bpLoad m v

/-- BATON_CTL: a Baton 0 that starts to run loads its band plan (R374). -/
def Dev.batonWrite (s : Dev) (m : Nat) (v : Word) : Dev :=
  let t := s.batonCtl m v
  if !s.hart 2 && t.hart 2 then t.bandGo else t

def execBatonRelease (m : Nat) (v : Word) (s : State) : Out := wrAct m Reg.UPD_BATON_CTL v s fun d => d.batonWrite m v

end Sys2Proof.Machine
end

