-- ==== Sys2Proof/Machine/Ecc.lean ====
section
/-! DEFINITION. The memory monitors (R478–R480): corrected, stuck, transient and lasting errors of capture memory, flash and MRAM, and their injection. -/

namespace Sys2Proof.Machine

def Ecc.CE_STUCK (p : Nat) : Field := ⟨pageBase p + 0x40, 31, 16⟩
def Ecc.CE (p : Nat) : Field := ⟨pageBase p + 0x40, 15, 0⟩
def Ecc.UE_LAST (p : Nat) : Field := ⟨pageBase p + 0x44, 31, 16⟩
def Ecc.UE_TRANS (p : Nat) : Field := ⟨pageBase p + 0x44, 15, 0⟩
def Ecc.ADDR (p : Nat) : Field := ⟨pageBase p + 0x48, 31, 0⟩
def Ecc.VALID (p : Nat) : Field := ⟨pageBase p + 0x4C, 31, 31⟩
def Ecc.OVF (p : Nat) : Field := ⟨pageBase p + 0x4C, 30, 30⟩
def Ecc.UE (p : Nat) : Field := ⟨pageBase p + 0x4C, 8, 8⟩
def Ecc.MASTER (p : Nat) : Field := ⟨pageBase p + 0x4C, 4, 0⟩

/-- The memory page that a memory address belongs to. -/
def eccPage (a : Nat) : Option Nat :=
  if 0x30000000 ≤ a ∧ a < 0x30200000 then some Pg.MRAM else if 0x60000000 ≤ a ∧ a < 0x61000000 then some Pg.FLASH
  else if 0x80000000 ≤ a ∧ a < 0x84000000 then some Pg.DRAM else none

/-- A lasting error is logged: the first one's address, or OVF. -/
def Dev.eccLog (s : Dev) (p addr master : Nat) (ue : Bool) : Dev :=
  if s.on (Ecc.VALID p) then s.set (Ecc.OVF p) 1
  else ((((s.set (Ecc.ADDR p) addr).set (Ecc.VALID p) 1).set (Ecc.OVF p) 0).setB (Ecc.UE p) ue).set (Ecc.MASTER p) master

/-- A word is corrected: CE and event 0; corrected at its last read too, or a flash word at any read before, it is stuck: CE_STUCK, the log and event 1. -/
def Dev.eccCorrect (s : Dev) (p addr master : Nat) (inj : Bool) : Dev :=
  let s1 := (s.bump (Ecc.CE p)).raiseMark p 0 inj
  if s.bus.corrected.contains (p, addr) then ((s1.bump (Ecc.CE_STUCK p)).eccLog p addr master false).raiseMark p 1 inj
  else { s1 with bus := { s1.bus with corrected := (p, addr) :: s1.bus.corrected } }

/-- An uncorrectable word whose re-read is clean. -/
def Dev.eccTransient (s : Dev) (p : Nat) (inj : Bool) : Dev := (s.bump (Ecc.UE_TRANS p)).raiseMark p 2 inj

/-- A word uncorrectable twice: UE_LAST, the log and event 3. -/
def Dev.eccLasting (s : Dev) (p addr master : Nat) (inj : Bool) : Dev := ((s.bump (Ecc.UE_LAST p)).eccLog p addr master true).raiseMark p 3 inj

/-- A read of one word through SECDED: the state after it, and whether the reader is refused. An error comes from an injection; a lasting one with LIVE = 0 still delivers its data. -/
def Dev.eccRead (s : Dev) (p addr master : Nat) : Dev × Bool :=
  if s.injArmed p 0 then ((s.injUse p).eccCorrect p addr master true, false)
  else
    let s0 := if p = Pg.FLASH then s else { s with bus := { s.bus with corrected := s.bus.corrected.filter fun x => x != (p, addr) } }
    if s.injArmed p 1 then
      let live := s.injLive p
      let s1 := s0.injUse p
      if s1.injArmed p 1 then ((s1.injUse p).eccLasting p addr master true, live) else (s1.eccTransient p true, false)
    else (s0, false)

end Sys2Proof.Machine
end

