-- ==== Sys2Proof/Machine/Metering.lean ====
section
/-! DEFINITION. The metering commands: frames, strides, decisions, replays, tracker cycles, fixed-rate blocks, and the configuration of channels and groups. What they touch beyond the engines follows each: the rate measurement, START's end, a shutdown's stop, the holdup slots. -/

namespace Sys2Proof.Machine

/-- What follows when records of group `g` may have committed. -/
def Dev.afterCommit (s : Dev) (g : Nat) (decided : Bool) : Dev := ((s.holdupFull).shutdownStop g decided).runCheck

/-- A command of the metering engines, whose islands stop at a main clock failure (R43); the captures its events trigger start in slot order (R235). -/
def engAct (s : State) (f : Dev → Dev) : Out := mainAct s fun d => if d.clk.onRc then d else d.gathered f

/-! ### Frames and readings -/

def execSampleRelease (lanes : List LaneIn) (us : List UIn) (s : State) : Out := engAct s fun d => (d.frameIn lanes us).runCheck

/-- TEMP_READING: PWR event 7 when a sensor reaches 125 °C (R28, R62); a test that waits to cool goes on (R472). -/
def Dev.tempIn (s : Dev) (b : Nat) (t : Int) : Dev :=
  let s1 := s.tempReading b t
  let s2 := if decide (2000 ≤ t) && decide ((s.blk b).temp < 2000) then s1.raiseItem Pg.PWR 7 b else s1
  s2.cooled

def execTempReading (block : Nat) (t : Int) (s : State) : Out := mainAct s fun d => if block < 13 then d.tempIn block t else d

def execLaneEnableWrite (m : Nat) (block : Nat) (v : Word) (s : State) : Out := wrAct m (if block < 12 then Reg.HEAT_LANE_EN block else Reg.UGRP_CH_EN) v s fun d => if block < 13 then d.laneEnable block v else d

/-! ### Strides and decisions -/

def execStrideIssue (g : Nat) (s : State) : Out := engAct s fun d => if g < 4 then d.strideIssue g else d
def execSpeculativePublish (g : Nat) (s : State) : Out := engAct s fun d => if g < 4 then d.publish g else d

/-- BOUNDARY_DECISION, with the boundary of record it makes for a rate measurement (R356); nothing is decided before the frames cover B_meas + P/4 (R153). -/
def Dev.decide1 (s : Dev) (g : Nat) (crossing own : Int) : Dev :=
  match (s.trk g).strides with
  | [] => s
  | st :: _ =>
    if !s.covers g st (st.bMeas crossing own) then s
    else
      let s1 := s.boundary g crossing own
      (s1.rateBoundary g (s1.posMt (s1.trk g).boundary) (s.trkState g == 2 && !(s.trk g).relock)).afterCommit g true

def execBoundaryDecision (g : Nat) (c : Crossing) (s : State) : Out := engAct s fun d => if g < 4 then d.decide1 g c.found c.own else d

/-- ECC errors that a replay met (R478): the fault as reported, and what an injection on DRAM adds. -/
def Dev.replayEcc (s : Dev) (w fault : Nat) : Dev × Nat :=
  let master := if w < 12 then 4 + w else 18
  let addr := Config.eccAddr s.free % 2 ^ 32
  if fault = 1 then (s.eccTransient Pg.DRAM false, 1)
  else if fault = 2 then ((s.tick).eccLasting Pg.DRAM addr master false, 2)
  else if s.injArmed Pg.DRAM 1 then
    let live := s.injLive Pg.DRAM
    let s1 := s.injUse Pg.DRAM
    if s1.injArmed Pg.DRAM 1 then (((s1.injUse Pg.DRAM).tick).eccLasting Pg.DRAM addr master true, if live then 2 else fault)
    else (s1.eccTransient Pg.DRAM true, if live ∧ fault = 0 then 1 else fault)
  else if s.injArmed Pg.DRAM 0 then (((s.injUse Pg.DRAM).tick).eccCorrect Pg.DRAM addr master true, fault)
  else (s, fault)

/-- REPLAY_COMPLETE. -/
def Dev.replayDone (s : Dev) (w fault : Nat) (bMeas : Int) : Dev :=
  if (s.pacer w).replay.isNone then s
  else
    let r := s.replayEcc w fault
    (r.1.replayEnd w r.2 bMeas).afterCommit (s.workGrp w) false

def execReplayComplete (pacer fault : Nat) (bMeas : Int) (s : State) : Out := engAct s fun d => if pacer < 16 then d.replayDone pacer fault bMeas else d
def execLiveCatchUp (pacer : Nat) (s : State) : Out := engAct s fun d => if pacer < 16 then d.catchUp pacer else d

/-! ### Trackers and blocks -/

def execTrackerCycleEnd (g : Nat) (phaseOk : Bool) (amp uhz : Nat) (pos : Int) (s : State) : Out := engAct s fun d => if g < 4 then d.cycleEnd g phaseOk amp uhz pos else d
def execFreq10Interval (g : Nat) (s : State) : Out := engAct s fun d => if g < 4 then d.freq10 g else d
def execFixedBlockEnd (g : Nat) (s : State) : Out := engAct s fun d => if g < 4 then (d.fixedEnd g).afterCommit g (d.fixedOn g && (d.trk g).blockStart.isSome) else d
def execFrameConfigWrite (m : Nat) (g : Nat) (amin : Bool) (v : Word) (s : State) : Out := wrAct m (if amin then Reg.FRAME_VG_AMIN g else Reg.FRAME_VG_CFG g) v s fun d => if g < 4 then (if amin then d.vgAmin g v else d.vgCfg g v) else d

end Sys2Proof.Machine
end

