-- ==== Sys2Proof/Machine/View.lean ====
section
/-! DEFINITION. The memory map as bytes (R65, R66): what the blocks keep as records, laid out as result RAM (R191–R194, R221–R226, R232), MRAM (R67, R277, R278, R281, R296, R328, R334, R448, R473), the raw ring (R133) and the capture store (R236, R237) show them. -/

namespace Sys2Proof.Machine

/-- Byte `i` of a list, 0 beyond its end. -/
def byteAt (l : List Byte) (i : Nat) : Byte := l.getD i 0

/-- A signed number in `n` bytes. -/
def leSigned (n : Nat) (i : Int) : List Byte := leBytes n (unsignedOf i (8 * n))

/-! ### Result RAM -/

/-- FLAGS of a record (R194). -/
def Rec.flags (r : Rec) : Nat :=
  ([(31, r.spec), (30, r.falseStarted), (29, r.replay2), (28, r.subst), (27, r.resync), (26, r.uns), (25, r.inj), (24, r.clp), (23, r.gun), (22, r.pfPartial), (21, r.pf), (20, r.coast),
    (19, r.free), (18, r.relock), (17, r.noload), (16, r.unverified), (13, r.fixed)].map fun b => b.2.toNat * 2 ^ b.1).sum + r.quad % 4 * 2 ^ 14 + r.unsCnt % 32 * 256 + r.hgf % 256

/-- The 64 bytes of a channel's record (R192, R193). -/
def Rec.bytes (r : Rec) (c : Nat) : List Byte :=
  let head := leBytes 4 r.cyc ++ leBytes 4 r.flags ++ leBytes 8 r.mt
  let tail := leBytes 4 r.rms ++ leBytes 4 r.rmsMid
  if c < 192 then head ++ leSigned 8 r.ep ++ leSigned 8 r.eq ++ leSigned 8 r.es ++ leSigned 8 r.ep1 ++ leSigned 8 r.eq1 ++ tail
  else head ++ leBytes 4 r.len ++ leBytes 4 r.uf ++ leSigned 4 r.ufAng ++ leBytes 4 r.peak ++ leSigned 4 r.dc ++ leBytes 20 0 ++ tail

/-- A window record (R222): powers saturate at their fields. -/
def WinRec.bytes (w : WinRec) : List Byte :=
  let words := fun (l : List Nat) => (List.range 64).flatMap fun i => leBytes 4 (nth l i 0)
  leBytes 4 w.win ++ leBytes 4 w.hflags ++ leBytes 8 w.mt ++ leBytes 4 w.cycle ++ leBytes 4 w.len ++ leBytes 4 w.rms ++ leBytes 4 w.thd50 ++ leBytes 4 w.thd63 ++ leBytes 4 0
    ++ leSigned 8 w.phSum ++ leSigned 8 w.p1 ++ leBytes 8 0 ++ words w.g ++ words w.sg
    ++ ((List.range 64).flatMap fun i => leSigned 2 (nth w.ang i 0)) ++ ((List.range 64).flatMap fun i => leSigned 4 (clampI (-2147483648) 2147483647 (nth w.hp i 0))) ++ leBytes 64 0

/-- An aggregate record (R226). -/
def AggRec.bytes (a : AggRec) (lane : Bool) : List Byte :=
  let head := leBytes 4 a.idx ++ leBytes 4 a.hflags ++ leBytes 8 a.mt ++ leBytes 2 a.nwin ++ leBytes 2 a.nmiss ++ leBytes 4 a.rms ++ leBytes 4 a.thd50 ++ leBytes 4 a.thd63
  if lane then head ++ leSigned 8 a.ph ++ leSigned 8 a.p1 ++ leBytes 16 0
  else head ++ ((List.range 64).flatMap fun i => leBytes 4 (nth a.sg i 0)) ++ leBytes 224 0

/-- Byte `o` of an array of records of `size` bytes, one per channel from `base`. -/
def recArray (size base o : Nat) (f : Nat → Option (List Byte)) : Byte :=
  match f (base + o / size) with
  | some l => byteAt l (o % size)
  | none => 0

/-- What holdup slot `h` holds: of a run longer than 36, the later cycle (log 80). -/
def Dev.holdupAt (s : Dev) (h : Nat) : List (Nat × Rec) := nth s.meter.holdup (if h + 36 < s.meter.holdup.length then h + 36 else h) []

/-- A byte of result RAM at offset `o` as the records put there leave it (R191, R221). -/
def Dev.resultRec (s : Dev) (o : Nat) : Byte :=
  let buf := fun (l : List (Option Rec)) (k : Nat) => recArray 64 0 k fun c => (nth l c none).map fun r => r.bytes c
  let win := fun (l : List (Nat × WinRec)) (k : Nat) => recArray 1024 0 k fun c => (lookup l c).map WinRec.bytes
  let agg := fun (l : List (Nat × AggRec)) (size base k : Nat) => recArray size base k fun c => (lookup l c).map fun a => a.bytes (size == 64)
  if o < 0x3400 then buf s.meter.live o
  else if 0x4000 ≤ o ∧ o < 0x7400 then buf s.meter.committed (o - 0x4000)
  else if 0x8000 ≤ o ∧ o < 0x7D000 then
    recArray 64 0 ((o - 0x8000) % 0x3400) fun c => (lookup (s.holdupAt ((o - 0x8000) / 0x3400)) c).map fun r => r.bytes c
  else if 0x80000 ≤ o ∧ o < 0xB4000 then win s.harm.buf0 (o - 0x80000)
  else if 0xB4000 ≤ o ∧ o < 0xE8000 then win s.harm.buf1 (o - 0xB4000)
  else if 0xE8000 ≤ o ∧ o < 0xEA000 then agg s.harm.shortRec 512 192 (o - 0xE8000)
  else if 0xEA000 ≤ o ∧ o < 0xEC000 then agg s.harm.tenRec 512 192 (o - 0xEA000)
  else if 0xEC000 ≤ o ∧ o < 0xEF000 then agg s.harm.shortRec 64 0 (o - 0xEC000)
  else if 0xEF000 ≤ o ∧ o < 0xF2000 then agg s.harm.tenRec 64 0 (o - 0xEF000)
  else if 0xF2000 ≤ o ∧ o < 0xF4000 then recArray 32 0 (o - 0xF2000) fun k => (lookup s.harm.list k).map PqRec.bytes
  else 0

/-- A byte of result RAM at offset `o`: what a Pacer's own write put there, else the record's (R65). -/
def Dev.resultByte (s : Dev) (o : Nat) : Byte := (lookup s.meter.overlay o).getD (s.resultRec o)

/-- A Pacer writes bytes to result RAM over the bus (R65). -/
def Dev.resultWrite (s : Dev) (o : Nat) (l : List Byte) : Dev :=
  { s with meter := { s.meter with overlay := (l.mapIdx fun i b => (o + i, b)).foldl (fun m e => assign m e.1 e.2) s.meter.overlay } }

/-! ### The billing image and the journal -/

/-- A journal entry's 64 bytes (R281). -/
def JEntry.bytes (e : JEntry) : List Byte :=
  let b := leBytes 4 e.seq ++ leBytes 2 (e.code % 4096) ++ leBytes 1 e.bp ++ leBytes 1 (e.inj.toNat + 2 * e.late.toNat) ++ leBytes 8 e.time ++ leBytes 8 e.mt ++ slice e.data 0 36
  b ++ leBytes 4 (crc32 b)

/-- A billing-point record (R278). -/
def Bp.bytes (p : Bp) : List Byte :=
  ((List.range 80).flatMap fun i => leBytes 8 (nth p.mwh i 0)) ++ ((List.range 10).flatMap fun q => leBytes 4 (nth p.rem q 0))
    ++ leBytes 8 p.dacc ++ leBytes 4 p.md ++ leBytes 4 p.mdt ++ leBytes 4 p.isoS ++ leBytes 4 (p.flags % 65536 + p.isoFrac % 65536 * 65536)

/-- A billing point's credit entry (R296). -/
def Bp.credBytes (p : Bp) : List Byte :=
  leSigned 8 p.credit ++ leBytes 4 (unsignedOf p.acc 21 + p.state % 8 * 2 ^ 21 + p.ecacc.toNat * 2 ^ 24 + p.defer.toNat * 2 ^ 25 + p.armed.toNat * 2 ^ 26 + p.pcfg % 16 * 2 ^ 27)

/-- The image from 0x0040 on (R277, R296). -/
def Image.body (i : Image) : List Byte :=
  i.bp.flatMap Bp.bytes ++ (i.bp.flatMap fun p => (List.range 3).flatMap fun k => leBytes 4 (nth p.subh k 0)) ++ (i.podx.flatMap fun x => leBytes 8 x)
    ++ i.bp.flatMap Bp.credBytes ++ leBytes 4 i.tidH ++ leBytes 8 i.tidMask ++ leBytes 4 i.tidAny.toNat ++ leBytes 8 i.openMask ++ leBytes 8 i.armMask ++ leBytes 8 i.causeMask ++ leBytes 216 0
    ++ (match i.jpend with | some e => e.bytes | none => leBytes 64 0) ++ leBytes 640 0

/-- The image's first 60 bytes. -/
def Image.head (i : Image) : List Byte :=
  leBytes 4 0x4C494247 ++ leBytes 2 1 ++ leBytes 1 i.kind ++ leBytes 1 i.snapf ++ leBytes 4 i.seq ++ (List.range 4).flatMap (fun g => leBytes 4 (nth i.cyc g 0)) ++ leBytes 1 i.qk ++ leBytes 3 0
    ++ leBytes 8 i.mt ++ leBytes 8 i.time ++ leBytes 4 i.lastb ++ leBytes 4 i.dstart ++ leBytes 4 i.jseq

/-- An image's 49 152 bytes with its CRC. -/
def Image.bytes (i : Image) : List Byte :=
  let h := i.head
  let b := i.body
  h ++ leBytes 4 (crc32 (h ++ b)) ++ b

/-- A byte of an image slot; an empty slot reads 0 (R496). -/
def imageByte (i : Option Image) (o : Nat) : Byte := match i with | some x => byteAt x.bytes o | none => 0

/-! ### MRAM configuration (R67) -/

/-- A seal record copy (R334). -/
def SealRec.bytes (r : SealRec) (key : List Byte) : List Byte :=
  let b := leBytes 4 0x4C455347 ++ leBytes 2 1 ++ leBytes 1 r.isSealed.toNat ++ leBytes 1 0 ++ leBytes 4 r.seq ++ leBytes 4 r.tt ++ leBytes 4 r.tariff ++ leBytes 28 0
  b ++ (hmac key b).take 16

/-- What the reception record holds (R458). -/
def Recep.content (r : Recep) : List Nat := [ofLe r.bid, r.gen, r.slot] ++ r.recorded

/-- What a cached pod's entry holds (R252). -/
def Pod.content (p : Pod) : List Nat := [p.id, p.lane, p.mapk, p.irated, p.budget, p.expiry, p.sensor] ++ (p.curTab.flatMap fun e => [e.1, unsignedOf e.2.1 32, unsignedOf e.2.2 32]) ++ p.tmpTab.flatMap fun e => [unsignedOf e.1 16, unsignedOf e.2.1 32, unsignedOf e.2.2 32]

/-- A byte of the device records at offset `o` of 0x301B_8000. -/
def Dev.deviceByte (s : Dev) (o : Nat) : Byte :=
  let key := s.otp.drecKey
  let opt := fun (l : Option (List Byte)) (k : Nat) => match l with | some b => byteAt b k | none => 0
  if o < 0x40 then opt (s.sec.seal0.map fun r => r.bytes key) o
  else if o < 0x80 then opt (s.sec.seal1.map fun r => r.bytes key) (o - 0x40)
  else if o < 0xC0 then opt (s.upd.boot0.map fun r => r.bytes key) (o - 0x80)
  else if o < 0x100 then opt (s.upd.boot1.map fun r => r.bytes key) (o - 0xC0)
  else if o < 0x400 then (match s.upd.recep with | some r => Config.layoutByte (0x301B8000 + o) r.content | none => 0)
  else if o < 0x800 then opt (s.bist.rec0.map fun r => r.bytes (s.rd Reg.SYS_CHIP_ID).toNat) (o - 0x400)
  else if o < 0xC00 then opt (s.bist.rec1.map fun r => r.bytes (s.rd Reg.SYS_CHIP_ID).toNat) (o - 0x800)
  else if o < 0xC40 then byteAt s.sec.wrapTok (o - 0xC00)
  else if o < 0xC80 then byteAt s.sec.wrapNet (o - 0xC40)
  else if o < 0xD00 ∧ s.mram.controls then Config.layoutByte (0x301B8000 + o) [s.get Fld.UPD_LOCK_OWNER, s.get Fld.BIST_CTRL_FORCE, s.get Fld.BIST_CTRL_MAXAGE]
  else 0

/-- A byte of MRAM at offset `o` (R66). -/
def Dev.mramByte (mem : List Host.Cell) (s : Dev) (o : Nat) : Byte :=
  if o < 0xC000 then imageByte s.mram.live0 o
  else if o < 0x18000 then imageByte s.mram.live1 (o - 0xC000)
  else if o < 0x138000 then imageByte (nth s.mram.snaps ((o - 0x18000) / 0xC000) none) ((o - 0x18000) % 0xC000)
  else if o < 0x1B8000 then recArray 64 0 (o - 0x138000) fun k => (s.bill.journal.find? fun e => e.seq % 8192 == k).map JEntry.bytes
  else if o < 0x1B9000 then s.deviceByte (o - 0x1B8000)
  else if o < 0x1C8000 then (match s.eye.cache[(o - 0x1B9000) / 320]? with | some p => Config.layoutByte (0x30000000 + o) p.content | none => 0)
  else if o < 0x1D4000 then
    if mem.any (fun c => c.1 == 0x30000000 + o) || s.mesh.table.isEmpty then Memory.read mem (0x30000000 + o)
    else Config.layoutByte (0x30000000 + o) (s.mesh.start :: s.mesh.table.flatMap fun e => [ofLe e.1, e.2.1, e.2.2.toNat])
  else if o < 0x1D8000 then Memory.read mem (0x30000000 + o)
  else 0

/-! ### Capture memory -/

/-- A frame's 848 bytes (R133). -/
def Frame.bytes (f : Frame) : List Byte :=
  leBytes 4 f.seq ++ leBytes 8 f.mt ++ leBytes 4 f.flags ++ f.lanes.flatMap (fun w => leBytes 4 w.toNat) ++ f.us.flatMap fun w => leBytes 4 w.toNat

/-- The slot of the newest frame (R135). -/
def Dev.ringSlot (s : Dev) : Nat := (s.fe.slot + 49460) % 49461

/-- A byte of capture memory at offset `o`: ring, store, buffers. -/
def Dev.captureByte (mem : List Host.Cell) (s : Dev) (o : Nat) : Byte :=
  if o < 0x2800000 then
    match s.fe.ring[(s.ringSlot + 49461 - o / 848) % 49461]? with
    | some f => if o / 848 < 49461 then byteAt f.bytes (o % 848) else 0
    | none => 0
  else if o < 0x2804000 then recArray 64 0 (o - 0x2800000) fun k => (nth s.cap.dir k none).map CapRec.header
  else if o < 0x3800000 then
    match s.cap.dir.findSome? fun r => match r with | some x => if x.block = (o - 0x2804000) / 4096 ∧ o % 4096 < 64 then some x else none | none => none with
    | some x => byteAt x.header (o % 4096)
    | none => Store.read (fun _ => (0 : Byte)) s.cap.data (0x80000000 + o)
  else Memory.read mem (0x80000000 + o)

/-! ### The map (R65) -/

/-- The regions of R65 but the register pages. -/
inductive Region where
  | rom | sram | result | mram | engine | flash | capture
  deriving DecidableEq, Repr

/-- The region an address lies in. -/
def regionOf (a : Nat) : Option Region :=
  if a < 0x10000 then some .rom
  else if 0x10000000 ≤ a ∧ a < 0x10080000 then some .sram
  else if 0x20000000 ≤ a ∧ a < 0x20100000 then some .result
  else if 0x30000000 ≤ a ∧ a < 0x30200000 then some .mram
  else if 0x50000000 ≤ a ∧ a < 0x50120000 then some .engine
  else if 0x60000000 ≤ a ∧ a < 0x61000000 then some .flash
  else if 0x80000000 ≤ a ∧ a < 0x84000000 then some .capture
  else none

/-- The byte at an address of a region. -/
def Dev.memByte (mem : List Host.Cell) (s : Dev) (a : Nat) : Byte :=
  match regionOf a with
  | some .rom => Config.romByte a
  | some .result => s.resultByte (a - 0x20000000)
  | some .mram => s.mramByte mem (a - 0x30000000)
  | some .flash => if a < 0x60600000 ∧ slotFactory mem 0 then Config.factoryByte a else Memory.read mem a
  | some .capture => s.captureByte mem (a - 0x80000000)
  | some .sram | some .engine => Memory.read mem a
  | none => 0

/-- The word at an address, low byte first (R2). -/
def Dev.memWord (mem : List Host.Cell) (s : Dev) (a : Nat) : Word := BitVec.ofNat 32 (ofLe ((List.range 4).map fun i => s.memByte mem (a + i)))

/-- Masters that may read a region (R65). -/
def Region.readers (r : Region) (m : Nat) : Bool :=
  match r with
  | .rom | .sram | .engine => m == 0 || m == 17
  | .result | .mram | .flash | .capture => decide (m ≤ 17)

/-- Master `m` may write at an address (R65–R68). DESIGN CHOICE (log 72): R66 has the journal written by the billing engine through the MRAM controller; a direct bus write there by the billing engine is refused as any master's is. -/
def Dev.memWritable (s : Dev) (m a : Nat) : Bool :=
  match regionOf a with
  | some .sram => m == 0 || m == 17
  | some .result => decide (4 ≤ m) && decide (m ≤ 15)
  | some .mram => (m == 2 && decide (0x301C8000 ≤ a) && decide (a < 0x301D4000)) || (m == 0 && decide (0x301D4000 ≤ a) && decide (a < 0x301D8000))
  | some .engine =>
    m == 0 && ((decide (0x500C0000 ≤ a) && decide (a < 0x500E0000) && natBit (s.get Fld.UPD_BATON_CTL_HOLD) 0)
      || (decide (0x500E0000 ≤ a) && decide (a < 0x50100000) && natBit (s.get Fld.UPD_BATON_CTL_HOLD) 1))
  | some .capture => (decide (0x83C00000 ≤ a) && (m == 0 || m == 2 || m == 3)) || (decide (0x83800000 ≤ a) && decide (a < 0x83C00000) && (m == 0 || m == 2))
  | _ => false

/-- A memory whose march slice runs refuses every access (R468). -/
def Dev.memTested (s : Dev) (a : Nat) : Bool :=
  s.bist.running && !s.bist.cooling &&
    (match regionOf a with
     | some .capture => s.bist.slice == 14
     | some .flash => s.bist.slice == 15
     | some .mram => s.bist.slice == 16
     | _ => false)

end Sys2Proof.Machine
end

