-- ==== Sys2Proof/Machine/Bus.lean ====
section
/-! DEFINITION. Reads inField the interconnect (R3, R65, R69–R81): bus errors, what a register shows, the effects of a read, latched pairs, frozen pages, discarded writes, and a word read from any address. -/

namespace Sys2Proof.Machine

def Dev.busUpd (s : Dev) (f : Bus → Bus) : Dev := { s with bus := f s.bus }

/-! ### Bus errors (R80, R81) -/

def BusKind.timeout : Nat := 0
def BusKind.decode : Nat := 1
def BusKind.refused : Nat := 2

/-- A bus error is logged, the first in full, and raises SYS event 0. -/
def Dev.busErr (s : Dev) (m a kind : Nat) (write : Bool) : Dev :=
  let s1 := if s.on Fld.SYS_BUSERR_INFO_VALID then s.set Fld.SYS_BUSERR_INFO_OVF 1
    else ((((s.set Fld.SYS_BUSERR_ADDR_ADDR a).set Fld.SYS_BUSERR_INFO_VALID 1).set Fld.SYS_BUSERR_INFO_KIND kind).set Fld.SYS_BUSERR_INFO_MASTER m).setB Fld.SYS_BUSERR_INFO_WRITE write
  s1.raise Pg.SYS 0

/-- A posted write is discarded 50 µs after its issue: the writer's DISCARD, and the log. -/
def Dev.discardOne (s : Dev) (w : Posted) : Dev :=
  (s.busUpd fun b => { b with discard := w.master :: b.discard.filter (· != w.master) }).busErr w.master w.addr BusKind.timeout true

/-- Every waiting write that a predicate names is discarded, oldest first. -/
def Dev.discardAll (s : Dev) (p : Posted → Bool) : Dev :=
  (s.bus.posted.filter p).foldl Dev.discardOne (s.busUpd fun b => { b with posted := b.posted.filter fun w => !p w })

/-! ### Computed registers -/

/-- The channel carries UNS: disabled, in its settle, or its reference out. -/
def Dev.chUns (s : Dev) (c : Nat) : Bool := !s.chOn c || decide (0 < (s.chan c).settle) || (s.vref (refOf (chBlk c))).uns

/-- HEAT.UNS and UGRP.UNS (R113, R117). -/
def Dev.unsMask (s : Dev) (b : Nat) : Nat := maskOf 16 fun j => s.chUns (16 * b + j)

/-- A field's value placed in its word. -/
def place (f : Field) (v : Nat) : Nat := v % 2 ^ (f.hi + 1 - f.lo) * 2 ^ f.lo

/-- A word with a field replaced. -/
def inField (w : Word) (f : Field) (v : Nat) : Word := putBits w f.hi f.lo v

/-- PLCPHY.STAT (R376, R396): TX while a frame or an ACK goes out, PLDEN, RX while a frame is received. -/
def Dev.plcStat (s : Dev) (w : Word) : Word :=
  inField (inField (inField w Fld.PLCPHY_STAT_TX s.plcSends.toNat) Fld.PLCPHY_STAT_PLDEN s.pldenHigh.toNat) Fld.PLCPHY_STAT_RX (decide (s.mt < s.plc.rxTo)).toNat

/-- TARIFF.NOWs (R285). -/
def Dev.tarNowWord (s : Dev) (k : Nat) : Nat :=
  let t := s.tarNow k
  place (Fld.TARIFF_NOW_HELD k) (s.on Fld.RTC_STAT_OSF).toNat + place (Fld.TARIFF_NOW_SPECIAL k) t.special.toNat + place (Fld.TARIFF_NOW_DAYTYPE k) t.day
    + place (Fld.TARIFF_NOW_SEASON k) t.season + place (Fld.TARIFF_NOW_TAR k) t.tar

/-- SEC.STAT (R341). -/
def Dev.secStat (s : Dev) : Word :=
  let w := inField (inField (s.rd Reg.SEC_STAT) Fld.SEC_STAT_FAILS (satN 255 s.sec.fails)) Fld.SEC_STAT_LOCKOUT s.lockedOut.toNat
  inField (inField (inField (inField w Fld.SEC_STAT_TOKKEY s.sec.tok.isSome.toNat) Fld.SEC_STAT_NETKEY s.sec.net.isSome.toNat) Fld.SEC_STAT_OROOT s.otp.oroot.isSome.toNat) Fld.SEC_STAT_OKEY s.sec.okey.isSome.toNat

/-- The pin that DISC owns (R300, R442). -/
def Dev.discPin (s : Dev) : Option Nat := if s.on Fld.DISC_CHAIN_OE_EN then some (s.get Fld.DISC_CHAIN_OEG) else none

/-- The level on GPIO pin `n`: driven by DISC, by the output, or from outside (R300, R442). -/
def Dev.gpioLevel (s : Dev) (n : Nat) : Bool :=
  let out := natBit (s.get Fld.GPIO_OUT_LVL) n
  if s.discPin == some n then (if s.disc.oe then s.on Fld.DISC_CHAIN_OE_POL else natBit s.pins.gpioIn n)
  else if natBit (s.get Fld.GPIO_DIR_OUT) n && !(out && natBit (s.get Fld.GPIO_OD_OD) n) then out
  else natBit s.pins.gpioIn n

def Dev.uart (s : Dev) (u : Nat) : Uart := nth s.host.uarts u {}

/-- A UART's STAT (R436). -/
def Dev.uartStat (s : Dev) (u : Nat) : Word :=
  let k := s.uart u
  inField (inField (inField (s.rd (Reg.UART_STAT u)) (Fld.UART_STAT_RXCNT u) k.rx.length) (Fld.UART_STAT_TXFREE u) (64 - k.tx.length)) (Fld.UART_STAT_TXIDLE u) (k.tx.isEmpty && k.shift.isNone).toNat

/-- The debug port is active (R440). -/
def Dev.dbgActive (s : Dev) : Bool := s.host.dbgen

/-- SEQ of the newest frame; 0 before the first. -/
def Dev.ringSeq (s : Dev) : Nat := match s.fe.ring with | f :: _ => f.seq | [] => 0

/-- A word of a mask inField 64 positions: low or high half. -/
def half (m : Nat) (hi : Bool) : Word := BitVec.ofNat 32 (if hi then m / 2 ^ 32 else m)

/-- STATUS of a channel's record (R111, R112): UNS as it stands, and a lane's HG as the last snapshot of every 1 ms found it. -/
def Dev.recStatus (s : Dev) (c : Nat) (w : Word) : Word :=
  let u := putBits w 1 1 (s.chUns c).toNat
  if c < 192 then putBits u 0 0 (natBit (nth s.fe.pathNow (c / 16) 0) (c % 16)).toNat else u

/-- The word of a block register as it reads now. -/
def Dev.blockWord (s : Dev) (m a : Nat) : Word :=
  let w := s.rd a
  let o := a % 0x1000
  match pageKind (pageOf a) with
  | none => 0
  | some (k, n, _) =>
    match k with
    | .clk => if a = Reg.CLK_ISL_RUN then BitVec.ofNat 32 s.islMask else w
    | .intc => if a = Reg.INTC_TOP then BitVec.ofNat 32 s.topWord else if a = Reg.INTC_PEND_LO then BitVec.ofNat 32 (s.pendWord 0)
      else if a = Reg.INTC_PEND_HI then BitVec.ofNat 32 (s.pendWord 32) else if a = Reg.INTC_IRQN then BitVec.ofNat 32 s.irqnLow.toNat else w
    | .bist => if a = Reg.BIST_AGE then BitVec.ofNat 32 s.bistAge else w
    | .upd => if a = Reg.UPD_FLOOR then inField w Fld.UPD_FLOOR_N s.otp.floor else if a = Reg.UPD_STAT then inField w Fld.UPD_STAT_SELFOK s.selfOk.toNat else w
    | .sec => if a = Reg.SEC_DEVID_LO then half (ofLe s.otp.devid) false else if a = Reg.SEC_DEVID_HI then half (ofLe s.otp.devid) true
      else if a = Reg.SEC_STAT then s.secStat else if a = Reg.SEC_SEAL then inField w Fld.SEC_SEAL_PERM s.otp.sealPerm.toNat else w
    | .tamp => if a = Reg.TAMP_FUSED then BitVec.ofNat 32 (s.otp.fused % 2 ^ 11)
      else if a = Reg.TAMP_LACE_STAT then (List.range 4).foldl (fun (x : Word) l => putBits x (8 * l + 2) (8 * l + 2) (s.power.bkpAlive && s.tampActive (4 + l)).toNat) w else w
    | .rtc => if a = Reg.RTC_TIME_LO then timeLo (s.linFor m) else if a = Reg.RTC_TIME_HI then timeHi (s.linFor m)
      else if a = Reg.RTC_LIN_LO then half (s.linFor m) false else if a = Reg.RTC_LIN_HI then half (s.linFor m) true else w
    | .eye => if a = Reg.EYE_EXP_PCT then BitVec.ofNat 32 s.expPct else if 0x100 ≤ o ∧ o < 0x1C0 ∧ o % 16 = 4 then BitVec.ofNat 32 (s.heatLanes ((o - 0x100) / 16)) else w
    | .dram => if a = Reg.DRAM_RING_SEQ then BitVec.ofNat 32 s.ringSeq else if a = Reg.DRAM_RING_SLOT then BitVec.ofNat 32 (if s.fe.ring.isEmpty then 0 else s.ringSlot) else w
    | .gpio => if a = Reg.GPIO_IN then BitVec.ofNat 32 (maskOf 16 s.gpioLevel)
      else if a = Reg.GPIO_OWNED then BitVec.ofNat 32 (match s.discPin with | some p => 2 ^ (p % 16) | none => 0) else w
    | .heat => if o = 0x58 then BitVec.ofNat 32 (nth s.fe.pathNow n 0) else if o = 0x5C then BitVec.ofNat 32 (s.unsMask n) else if o = 0x100 then putBits w 5 0 (s.settleOf n) else w
    | .ugrp => if a = Reg.UGRP_UNS then BitVec.ofNat 32 (s.unsMask 12) else if a = Reg.UGRP_DEC_STAT then putBits w 5 0 (s.settleOf 12) else w
    | .lane => if o % 0x40 = 0x28 then s.recStatus (n * 64 + o / 0x40) w else w
    | .uch => if 0x40 ≤ o ∧ o < 0x440 ∧ o % 0x40 = 0x28 then s.recStatus (192 + (o - 0x40) / 0x40) w
      else if 0xF40 ≤ o ∧ o % 0x40 = 0x28 then s.recStatus ((o - 0xF40) / 0x40 * 64) w else w
    | .harm => if 0x50 ≤ o ∧ o < 0x90 ∧ o % 16 = 4 then inField w (Fld.HARM_GRP_STAT_NCYC ((o - 0x50) / 16)) (s.harmNcyc ((o - 0x50) / 16)) else w
    | .bill => if 0x100 ≤ o ∧ o < 0x500 ∧ o % 16 = 12 then BitVec.ofNat 32 (s.bpStat ((o - 0x100) / 16)) else w
    | .tariff => if 0x50 ≤ o ∧ o < 0x60 then BitVec.ofNat 32 (s.tarNowWord ((o - 0x50) / 4)) else if 0x60 ≤ o ∧ o < 0x70 then BitVec.ofNat 32 (s.tarNext ((o - 0x60) / 4)) else w
    | .prepay => if a = Reg.PREPAY_STAT then inField w Fld.PREPAY_STAT_NOKEY s.sec.tok.isNone.toNat
      else if 0x100 ≤ o ∧ o < 0x500 then
        let b := (o - 0x100) / 16
        let c := unsignedOf (s.bp b).credit 64
        if o % 16 = 4 then half c false else if o % 16 = 8 then half c true else if o % 16 = 12 then BitVec.ofNat 32 (s.prepayState b) else w
      else w
    | .disc => if a = Reg.DISC_STAT then BitVec.ofNat 32 (place Fld.DISC_STAT_QUEUED s.discQueued + place Fld.DISC_STAT_CHAIN_OK s.disc.chainLatched.toNat + s.discBusy.toNat)
      else if a = Reg.DISC_OPEN_LO then half (maskOf 64 fun i => (s.dp i).isOpen) false else if a = Reg.DISC_OPEN_HI then half (maskOf 64 fun i => (s.dp i).isOpen) true
      else if 0x100 ≤ o ∧ o < 0x500 ∧ o % 16 = 4 then putBits w 2 0 (s.dpState ((o - 0x100) / 16)) else w
    | .pulse => if a = Reg.PULSE_STAT then inField w Fld.PULSE_STAT_CAL_LEFT s.calLeft else w
    | .disp => if a = Reg.DISP_STAT then BitVec.ofNat 32 s.dispStat else w
    | .plcphy => if a = Reg.PLCPHY_STAT then s.plcStat w else w
    | .plcmac => if 0x100 ≤ o ∧ o < 0x900 ∧ o % 32 = 0x14 then
        let i := (o - 0x100) / 32
        if s.on (Fld.PLCMAC_NB_INFO_VALID i) then BitVec.ofNat 32 ((s.mt - (nth s.plc.nbs i {}).heardMt) / 24576000) else 0
      else w
    | .mesh => if a = Reg.MESH_STAT then inField w Fld.MESH_STAT_NOKEY s.sec.net.isNone.toNat else if a = Reg.MESH_NT_LO then half s.ntNow false else if a = Reg.MESH_NT_HI then half s.ntNow true else w
    | .uart => if o = 0x44 then s.uartStat n else if o = 0x48 then (match (s.uart n).rx with | b :: _ => BitVec.ofNat 32 b.toNat | [] => BitVec.ofNat 32 0x100) else w
    | .eth => if a = Reg.ETH_STAT then inField w Fld.ETH_STAT_RXACT (s.on Fld.ETH_CTRL_RXEN && (s.rd Reg.ETH_RXRING).toNat / 2 ^ 24 != 0 && s.ethOn).toNat else w
    | .dbg => if a = Reg.DBG_CTRL then inField w Fld.DBG_CTRL_ACTIVE s.dbgActive.toNat else w
    | _ => w

/-- Bits of a register that read as 0: write-only and set-only fields and keys (R4). ETH.MDIO.GO reads 1 while busy (R439). -/
def blindMask (r : RegRow) : Nat :=
  (r.fields.map fun f => if f.acc == .wo || f.acc == .rwlw1s || (f.acc == .w1s && !(r.off == 0x64 && f.hi == 31)) || (f.acc == .rwk && f.lo == 24 && r.key != 0) then 2 ^ (f.hi + 1) - 2 ^ f.lo else 0).sum

/-- Bits of a register that are read-only (R4). -/
def roMask (r : RegRow) : Nat := (r.fields.map fun f => if f.acc == .ro then 2 ^ (f.hi + 1) - 2 ^ f.lo else 0).sum

/-- The description of the register at an address, with the offset it stands at. -/
def rowAt (a : Nat) : Option RegRow :=
  match pageKind (pageOf a) with
  | some (k, _, _) => findRow k.rows (a % 0x1000)
  | none => none

/-! ### Latched pairs (R3) -/

/-- The high word's address, where `a` is the low word of a 64-bit pair. -/
def pairHigh (a : Nat) : Option Nat :=
  let o := a % 0x1000
  let low : Bool := match pageKind (pageOf a) with
    | none => false
    | some (k, _, _) =>
      match k with
      | .sys => o == 0x50
      | .pwr => o == 0x58
      | .split => o == 0x48 || (decide (0x100 ≤ o) && decide (o < 0x500) && (o % 32 == 4 || o % 32 == 12))
      | .sec => o == 0x40
      | .tamp => o == 0x70 || o == 0x78
      | .rtc => o == 0x48 || o == 0xE0 || (decide (0x80 ≤ o) && decide (o < 0xC0) && o % 32 == 12) || (decide (0xC0 ≤ o) && decide (o < 0xE0) && o % 16 == 4)
      | .upd => o == 0x4C
      | .frame => decide (0x100 ≤ o) && decide (o < 0x180) && o % 32 == 0x14
      | .pacer => o == 0x44 || o == 0x4C
      | .lane => decide (0x40 ≤ o) && o % 0x40 == 0x2C
      | .uch => decide (0xF40 ≤ o) && o % 0x40 == 0x2C
      | .bill => o == 0x64 || o == 0x6C || o == 0x74
      | .prepay => decide (0x100 ≤ o) && decide (o < 0x500) && o % 16 == 4
      | .disc => o == 0x50 || o == 0x58 || o == 0x60
      | .mesh => o == 0x64
      | .eth => o == 0x4C
      | _ => false
  if low then some (a + 4) else none

/-- The page's island is starting: PG_STAT.BUSY (R75). -/
def Dev.pageStarting (s : Dev) (p : Nat) : Bool :=
  match islandOf p with
  | some b => s.islStarting b
  | none => false

/-- The fields in which a page's block shows an operation that a register write started. -/
def busyFields (k : PageKind) (n : Nat) : List Field :=
  match k with
  | .heat => [Fld.BLK_BUSY n]
  | .ugrp => [Fld.BLK_BUSY 12]
  | .sec => [Fld.SEC_RESULT_BUSY]
  | .rtc => [Fld.RTC_STAT_SHIFT_BUSY, Fld.RTC_RATE_RES_BUSY]
  | .eye => [Fld.EYE_STAT_BUSY]
  | .flash => [Fld.FLASH_PSTAT_BUSY]
  | .uch => [Fld.UCH_CALM_STAT_BUSY]
  | .bill => [Fld.BILL_STAT_BUSY]
  | .prepay => [Fld.PREPAY_TSTAT_BUSY]
  | .disc => [Fld.DISC_STAT_BUSY]
  | .eth => [Fld.ETH_MDIO_GO]
  | _ => []

/-- PG_STAT.BUSY (R73, R75): the page's block carries out an operation that a register write started, or its island is starting. -/
def Dev.pageBusy (s : Dev) (p : Nat) : Bool :=
  s.on (Hdr.BUSY p) || s.pageStarting p || tblStats.any (fun a => pageOf a == p && s.tblBusy a) ||
    (match pageKind p with
     | some (k, n, _) => (busyFields k n).any fun f => bitAt (s.blockWord 0 f.addr) f.lo
     | none => false)

/-- The word of a block register as it reads now, a table's status with LOADING. -/
def Dev.shownWord (s : Dev) (m a : Nat) : Word := if tblStats.contains a then putBits (s.blockWord m a) 2 2 (s.tblBusy a).toNat else s.blockWord m a

/-- The word a register shows to master `m`, read-only fields of a frozen page as the freeze found them (R73); latched pairs are not held. -/
def Dev.regWord (s : Dev) (m a : Nat) : Word :=
  let o := a % 0x1000
  let p := pageOf a
  if o < 0x40 then
    if o = 0x0C then putBits (putBits (s.rd a) 1 1 (s.bus.posted.any fun w => pageOf w.addr == p).toNat) 0 0 (s.pageBusy p).toNat
    else if o = 0x18 then BitVec.ofNat 32 (s.sts p)
    else if o = 0x20 then putBits (s.rd a) 1 1 (sealPage p && s.isSealed).toNat
    else s.rd a
  else
    match rowAt a with
    | none => 0
    | some r =>
      let w := s.shownWord m a &&& ~~~ BitVec.ofNat 32 (blindMask r)
      match lookup s.bus.frozen p with
      | some l =>
        (match lookup l a with
         | some f => (f &&& BitVec.ofNat 32 (roMask r)) ||| (w &&& ~~~ BitVec.ofNat 32 (roMask r))
         | none => w)
      | none => w

/-! ### Freezing a page (R73) -/

/-- The addresses of a page's registers with read-only fields that a freeze holds. -/
def freezable (p : Nat) : List Nat :=
  match pageKind p with
  | none => []
  | some (k, _, _) =>
    (k.rows.filter fun r => roMask r != 0).flatMap fun r =>
      ((List.range r.count).map fun i => pageBase p + r.off + i * r.stride).filter fun a => (pairHigh a).isNone && pairHigh (a - 4) != some a

/-- A freeze takes the page's words; one in force is left. -/
def Dev.freezePage (s : Dev) (p : Nat) : Dev :=
  if (lookup s.bus.frozen p).isSome then s
  else (s.set (Hdr.FREEZE p) 1).busUpd fun b => { b with frozen := assign b.frozen p ((freezable p).map fun a => (a, s.shownWord 0 a)), frozenMt := assign b.frozenMt p s.mt }

/-- A freeze ends. -/
def Dev.thawPage (s : Dev) (p : Nat) : Dev :=
  (s.set (Hdr.FREEZE p) 0).busUpd fun b => { b with frozen := b.frozen.filter fun c => c.1 != p, frozenMt := b.frozenMt.filter fun c => c.1 != p }

/-- FREEZE_TIMEOUT: hardware releases a page 1 ms after it was frozen. -/
def execFreezeTimeout (page : Nat) (s : State) : Out := mainAct s fun d => if d.on (Hdr.FREEZE page) then d.thawPage page else d

/-! ### Reads with effects -/

/-- A word is latched for the master's next read of `a`. -/
def Dev.latch (s : Dev) (m a : Nat) (v : Word) : Dev :=
  s.busUpd fun b => { b with latches := b.latches.filter (fun l => !(l.master == m && l.addr == a)) ++ [⟨m, a, v⟩] }

/-- The latched word of `a`, which this read takes; else the word as it reads now. -/
def Dev.unlatch (s : Dev) (m a : Nat) : Dev × Word :=
  match s.bus.latches.find? fun l => l.master == m && l.addr == a with
  | some l => (s.busUpd fun b => { b with latches := b.latches.filter fun l => !(l.master == m && l.addr == a) }, l.val)
  | none => (s, s.regWord m a)

/-- A read of SYS.FENCE (R79, R81): every waiting write of the master has been discarded; DISCARD is reported and cleared. -/
def Dev.fenceRead (s : Dev) (m : Nat) : Dev × Word :=
  let s1 := s.discardAll fun w => w.master == m
  (s1.busUpd fun b => { b with discard := b.discard.filter (· != m) }, BitVec.ofNat 32 (s1.bus.discard.contains m).toNat)

/-- A read of a low word: the high word is latched. -/
def Dev.pairRead (s : Dev) (m a : Nat) : Dev × Word :=
  match pairHigh a with
  | some h => (s.latch m h (s.regWord m h), s.regWord m a)
  | none => s.unlatch m a

/-- A read of DRAM.RING_SEQ (R135): RING_SLOT of the same frame is latched. -/
def Dev.ringRead (s : Dev) (m : Nat) : Dev × Word := (s.latch m Reg.DRAM_RING_SLOT (s.regWord m Reg.DRAM_RING_SLOT), s.regWord m Reg.DRAM_RING_SEQ)

/-- A read of a UART's DATA pops a byte (R434). -/
def Dev.uartPop (s : Dev) (u : Nat) : Dev × Word :=
  ({ s with host := { s.host with uarts := updAt s.host.uarts u fun (k : Uart) => { k with rx := k.rx.drop 1 } } }, s.regWord 0 (Reg.UART_DATA u))

/-- The effect and the word of a register read by master `m`. -/
def Dev.regRead (s : Dev) (m a : Nat) : Dev × Word :=
  if a = Reg.SYS_FENCE then s.fenceRead m
  else if a = Reg.DRAM_RING_SEQ then s.ringRead m
  else if a = Reg.RTC_TIME_LO then (s.linSync.readTimeLo m, timeLo s.linSync.rtc.lin)
  else if a = Reg.RTC_TIME_HI then (s.readTimeHi m, timeHi (s.linFor m))
  else if a = Reg.SEC_NONCE 0 then let t := s.nonceDraw; (t, t.regWord m a)
  else if a = Reg.UART_DATA 0 then s.uartPop 0
  else if a = Reg.UART_DATA 1 then s.uartPop 1
  else s.pairRead m a

/-! ### A read of any address (R65, R69, R71, R79, R80) -/

/-- A read of the register pages: earlier writes of the master to the page have been discarded by then; an isolated island holds the reader (B-2), a stopped one answers TIMEOUT. -/
def Dev.pageRead (s : Dev) (m a : Nat) : Dev × Answer :=
  let p := pageOf a
  if 0x3E ≤ p then (s.busErr m a BusKind.decode false, .decode)
  else if s.islIso p then (s.busUpd fun b => { b with stalled := b.stalled ++ [(m, a)] }, .stalled)
  else
    let s1 := s.discardAll fun w => w.master == m && pageOf w.addr == p
    if 0x40 ≤ a % 0x1000 ∧ !s1.islRun p then (s1.busErr m a BusKind.timeout false, .timeout)
    else
      let r := s1.regRead m a
      (r.1, .word r.2)

/-- A read of a memory word: through SECDED where the memory has it (R478). -/
def Dev.memRead (mem : List Host.Cell) (s : Dev) (m a : Nat) : Dev × Answer :=
  match regionOf a with
  | none => (s.busErr m a BusKind.decode false, .decode)
  | some r =>
    if !r.readers m || s.memTested a then (s.busErr m a BusKind.refused false, .refused)
    else
      match eccPage a with
      | none => (s, .word (s.memWord mem a))
      | some p =>
        let e := s.eccRead p a m
        if e.2 then (e.1.busErr m a BusKind.refused false, .refused) else (e.1, .word (e.1.memWord mem a))

/-- A word read by master `m`. -/
def Dev.busRead (mem : List Host.Cell) (s : Dev) (m a : Nat) : Dev × Answer :=
  if a % 4 ≠ 0 then (s.busErr m a BusKind.decode false, .decode)
  else if 0x40000000 ≤ a ∧ a < 0x40040000 then s.pageRead m a
  else s.memRead mem m a

/-- A read whose answer the model records for its master. -/
def Dev.recorded (m a : Nat) (r : Dev × Word) : Dev := r.1.answer m a (.word r.2)

/-! ### What the host's status byte reports (R425) -/

/-- Bits of the status byte's [4:1]. -/
def Spi.PROTO : Nat := 0
def Spi.ABORT : Nat := 1
def Spi.CRCERR : Nat := 2
def Spi.BUSERR : Nat := 3

/-- A bit for the next status byte, with its sticky copy in SPIH.STAT. -/
def Dev.spiMark (s : Dev) (n : Nat) : Dev :=
  { s with host := { s.host with prev := s.host.prev ||| 2 ^ n } }.set ⟨Reg.SPIH_STAT, n + 1, n + 1⟩ 1

/-- A transaction is complete. -/
def Dev.spiEnd (s : Dev) : Dev := s.count Fld.SPIH_NTRANS_N

/-! ### The commands -/

/-- POSTED_WRITE_DISCARD: 50 µs have passed since the write was issued. -/
def execPostedWriteDiscard (m addr : Nat) (s : State) : Out := mainAct s fun d => d.discardAll fun w => w.master == m && w.addr == addr

/-- READ_TIMEOUT: the read ends in a TIMEOUT bus error where its island is stopped, or has been isolated for 800 ms. -/
def Dev.readTimeout (s : Dev) (m a : Nat) : Dev :=
  let p := pageOf a
  if 0x40000000 ≤ a ∧ p < 0x3E ∧ (s.islIso p ∨ (0x40 ≤ a % 0x1000 ∧ !s.islRun p)) then
    ((s.busUpd fun b => { b with stalled := b.stalled.filter fun r => !(r == (m, a)) }).busErr m a BusKind.timeout false).answer m a .timeout
  else s

/-- Reads that stood still at an isolated island end with their words when the slice ends (R80, B-2). -/
def Dev.stalledEnd (s : Dev) : Dev :=
  let due := s.bus.stalled.filter fun r => !s.islIso (pageOf r.2)
  due.foldl (fun (t : Dev) r =>
    let k := t.pageRead r.1 r.2
    k.1.answer r.1 r.2 k.2) (s.busUpd fun b => { b with stalled := b.stalled.filter fun r => s.islIso (pageOf r.2) })

/-- An abandoned test leaves its block isolated (R60), and the reads held there have no slice to wait for. DESIGN CHOICE (log 97): they end as a read of a stopped island does (R80). -/
def Dev.stalledDrop (s : Dev) : Dev :=
  if s.bist.running then s
  else s.bus.stalled.foldl (fun (t : Dev) r => (t.busErr r.1 r.2 BusKind.timeout false).answer r.1 r.2 .timeout) (s.busUpd fun b => { b with stalled := [] })

def execFenceRead (m : Nat) (s : State) : Out := mainAct s fun d => Dev.recorded m Reg.SYS_FENCE (d.fenceRead m)

/-- LATCHED_PAIR_READ: the low word of a pair, in an island that answers. -/
def execLatchedPairRead (m addr : Nat) (s : State) : Out :=
  mainAct s fun d =>
    if (pairHigh addr).isSome then
      let r := d.pageRead m addr
      r.1.answer m addr r.2
    else d

def execRingSeqRead (m : Nat) (s : State) : Out :=
  mainAct s fun d =>
    let r := d.pageRead m Reg.DRAM_RING_SEQ
    r.1.answer m Reg.DRAM_RING_SEQ r.2

end Sys2Proof.Machine
end

