-- ==== Sys2Proof/Machine/Comm.lean ====
section
/-! DEFINITION. The doorbell (R432), the UARTs and the wired update chain (R434–R436), the Ethernet MAC (R437–R439) and GPIO (R442). -/

namespace Sys2Proof.Machine

/-! ### Doorbell (R432) -/

/-- A write of DBELL_SET. -/
def Dev.doorbell (s : Dev) (v : Word) : Dev := s.set Fld.INTC_DBELL_BITS (s.get Fld.INTC_DBELL_BITS ||| bitsOf v 15 0)

def execDoorbellSet (m : Nat) (v : Word) (s : State) : Out := wrAct m Reg.INTC_DBELL_SET v s fun d => d.doorbell v

/-! ### UARTs (R434, R436) -/

def Dev.uartUpd (s : Dev) (u : Nat) (f : Uart → Uart) : Dev := { s with host := { s.host with uarts := updAt s.host.uarts u f } }

/-- UART1 runs the chain: its FIFOs stand still (R435). -/
def Dev.uartChain (s : Dev) (u : Nat) : Bool := u == 1 && s.on (Fld.UART_CTRL_CHAIN 1)

/-- An idle shifter takes the next byte; event 1 when the FIFO falls below THR.TX. -/
def Dev.uartFeed (s : Dev) (u : Nat) : Dev :=
  let k := s.uart u
  match k.shift, k.tx with
  | none, b :: r =>
    if s.on (Fld.UART_CTRL_TXEN u) && !s.uartChain u then
      let t := s.uartUpd u fun (x : Uart) => { x with tx := r, shift := some b }
      if r.length + 1 = s.get (Fld.UART_THR_TX u) then t.raise (Pg.UART u) 1 else t
    else s
  | _, _ => s

/-- A write of DATA: a byte joins the transmit FIFO; one written to a full FIFO is lost. -/
def Dev.uartPush (s : Dev) (u : Nat) (v : Word) : Dev :=
  if (s.uart u).tx.length < 64 then (s.uartUpd u fun (x : Uart) => { x with tx := x.tx ++ [BitVec.ofNat 8 v.toNat] }).uartFeed u else s

def execUartDataWrite (m u : Nat) (v : Word) (s : State) : Out := if u < 2 then wrAct m (Reg.UART_DATA u) v s fun d => d.uartPush u v else .next s

/-- UART_DATA_READ: pops a byte. -/
def execUartDataRead (m u : Nat) (s : State) : Out :=
  mainAct s fun d =>
    if u < 2 then
      let r := d.pageRead m (Reg.UART_DATA u)
      r.1.answer m (Reg.UART_DATA u) r.2
    else d

/-- A byte arrives: its errors are reported, and it is stored where the FIFO has room (R434). -/
def Dev.uartRx (s : Dev) (u : Nat) (byte : Byte) (frErr parErr brk : Bool) : Dev :=
  if 2 ≤ u || !s.on (Fld.UART_CTRL_RXEN u) || s.uartChain u then s
  else
    let par := parErr && s.on (Fld.UART_CTRL_PAR u)
    let s1 := if frErr then s.set (Fld.UART_STAT_FRERR u) 1 else s
    let s2 := if par then s1.set (Fld.UART_STAT_PARERR u) 1 else s1
    let s3 := if frErr || par then s2.raise (Pg.UART u) 2 else s2
    let s4 := if brk then (s3.set (Fld.UART_STAT_BREAK u) 1).raise (Pg.UART u) 4 else s3
    let n := (s.uart u).rx.length
    if 64 ≤ n then (s4.set (Fld.UART_STAT_OVR u) 1).raise (Pg.UART u) 3
    else
      let s5 := s4.uartUpd u fun (x : Uart) => { x with rx := x.rx ++ [byte] }
      if n + 1 = s.get (Fld.UART_THR_RX u) then s5.raise (Pg.UART u) 0 else s5

def execUartRxByte (u : Nat) (byte : Byte) (frErr parErr brk : Bool) (s : State) : Out := mainAct s fun d => d.uartRx u byte frErr parErr brk

/-- The shifter is done with its byte. -/
def Dev.uartSent (s : Dev) (u : Nat) : Dev := if (s.uart u).shift.isSome then (s.uartUpd u fun (x : Uart) => { x with shift := none }).uartFeed u else s

def execUartByteTransmitted (u : Nat) (s : State) : Out := mainAct s fun d => d.uartSent u

/-! ### The wired update chain (R435) -/

/-- A frame that passed its CRC is forwarded unless it is for this node alone. -/
def Dev.chainForward (s : Dev) (frame : List Byte) : Dev :=
  if leAt frame 0 2 = s.get (Fld.UART_CADDR_ADDR 1) ∨ ¬ s.on (Fld.UART_CTRL_TXEN 1) then s
  else { s.count (Fld.UART_CHCNT_FWD 1) with host := { s.host with chainOut := s.host.chainOut ++ [frame] } }

/-- It is placed in the 8 KB buffer for Baton 1, where it fits. -/
def Dev.chainTake (s : Dev) (frame : List Byte) : Dev :=
  if (s.host.chainBuf.map List.length).sum + frame.length ≤ 8192 then { s with host := { s.host with chainBuf := s.host.chainBuf ++ [frame] } } else s

/-- CHAIN_FRAME_RECEIVE: `frame` is what stands between the delimiters, DST to CRC-32, with its escapes undone. The update service takes frames of TYPE 0x51 for this node or for every node (in recovery, where no address is set, any). -/
def Dev.chainFrameIn (s : Dev) (mem : List Host.Cell) (frame : List Byte) : Dev × List Host.Cell :=
  if !s.uartChain 1 || !s.on (Fld.UART_CTRL_RXEN 1) || s.power.st == .holdup then (s, mem)
  else
    let n := frame.length
    if n < 11 || crc32 (frame.take (n - 4)) != ofLe (frame.drop (n - 4)) then ((s.bump (Fld.UART_CHCNT_CRCERR 1)).raise (Pg.UART 1) 5, mem)
    else
      let src := 0x1000 + Config.headAddr % 65536
      if leAt frame 2 1 = 0x51 ∧ s.updServes src ∧ (leAt frame 0 2 = s.get (Fld.UART_CADDR_ADDR 1) ∨ leAt frame 0 2 = 0xFFFF ∨ s.inRecovery) then
        let r := s.updateIn mem src (slice frame 7 (leAt frame 5 2))
        (r.1.chainForward frame, r.2)
      else ((s.chainTake frame).chainForward frame, mem)

def execChainFrameReceive (frame : List Byte) (s : State) : Out := updAct s fun mem d => d.chainFrameIn mem frame

/-! ### Ethernet (R437–R439) -/

/-- An address in Baton 1's local memory (R438). -/
def ethAddr (off : Nat) : Nat := 0x500E0000 + off % 0x20000

/-- Descriptor `i` of a ring: words 0 and 1. -/
def ethDesc (mem : List Host.Cell) (ring i : Nat) : Word × Word :=
  let a := ring % 0x20000 + 8 * i
  (BitVec.ofNat 32 (ofLe (Memory.readAll mem (ethAddr a) 4)), BitVec.ofNat 32 (ofLe (Memory.readAll mem (ethAddr (a + 4)) 4)))

/-- A descriptor goes back to Baton 1: OWN clear, ERR and LEN as given. -/
def ethReturn (mem : List Host.Cell) (ring i : Nat) (w : Word) (err : Bool) (len : Nat) : List Host.Cell :=
  Memory.writeAll mem (ethAddr (ring % 0x20000 + 8 * i)) (leBytes 4 (putBits (putBits (putBits w 31 31 0) 29 29 err.toNat) 10 0 len).toNat)

/-- The descriptor after `i`: the first one after WRAP, or after the last of the ring's N. -/
def ethNext (ring i : Nat) (w : Word) : Nat := if bitAt w 30 ∨ ring / 2 ^ 24 ≤ i + 1 then 0 else i + 1

/-- A frame as it goes out: padded to 60 bytes, with its FCS. -/
def ethFrame (data : List Byte) : List Byte :=
  let p := data ++ List.replicate (60 - data.length) 0
  p ++ leBytes 4 (crc32 p)

/-- The next descriptor of the transmit ring, where the MAC owns it, goes out; in a pause it waits for the pause's end (R437). -/
def Dev.ethScan (s : Dev) (mem : List Host.Cell) : Dev :=
  let ring := (s.rd Reg.ETH_TXRING).toNat
  let d := ethDesc mem ring s.host.txIdx
  if s.ethOn && s.on Fld.ETH_CTRL_TXEN && s.host.ethOut.isNone && decide (0 < ring / 2 ^ 24) && bitAt d.1 31 then
    if s.host.ethPause.isSome then { s with host := { s.host with ethHeld := true } } else
    let data := (List.range (bitsOf d.1 10 0)).map fun i => Memory.read mem (ethAddr (bitsOf d.2 16 0 + i))
    { s.set Fld.ETH_STAT_TXACT 1 with host := { s.host with ethOut := some (ethFrame data) } }
  else s

/-- A write of ETH.TXKICK. -/
def Dev.ethKick (s : Dev) (mem : List Host.Cell) (v : Word) : Dev := if bitAt v 0 then s.ethScan mem else s

def execEthTxKick (m : Nat) (v : Word) (s : State) : Out := wrMem m Reg.ETH_TXKICK v s fun mem d => d.ethKick mem v

/-- ETH_TX_DONE: the descriptor returns, with ERR where the transmission was aborted or ran dry; `colls` collisions were met in half duplex; the ring goes on. -/
def Dev.ethDone (s0 : Dev) (mem : List Host.Cell) (abort under : Bool) (colls : Nat) : Dev × List Host.Cell :=
  let fail := abort || under
  let c := if s0.on Fld.ETH_CTRL_FDX || s0.host.ethOut.isNone || !s0.ethOn then s0 else s0.set Fld.ETH_CNT_TX_COLL (satN 0xFFFF (s0.get Fld.ETH_CNT_TX_COLL + colls))
  let s := if under && c.host.ethOut.isSome && c.ethOn then c.set Fld.ETH_STAT_TXUNDER 1 else c
  if s.host.ethOut.isNone || !s.ethOn then (s, mem)
  else
    let ring := (s.rd Reg.ETH_TXRING).toNat
    let d := ethDesc mem ring s.host.txIdx
    let mem1 := ethReturn mem ring s.host.txIdx d.1 fail (bitsOf d.1 10 0)
    let s1 := { s.set Fld.ETH_STAT_TXACT 0 with host := { s.host with ethOut := none, txIdx := ethNext ring s.host.txIdx d.1 } }
    let s2 := if fail then s1 else s1.count Fld.ETH_CNT_TX_SENT
    ((s2.raise Pg.ETH 1).ethScan mem1, mem1)

def execEthTxDone (e : TxEnd) (s : State) : Out := updAct s fun mem d => d.ethDone mem e.abort e.under e.colls

/-- The destination is accepted (R437). -/
def Dev.ethAccepts (s : Dev) (dst : List Byte) : Bool :=
  let station := leBytes 4 (s.rd Reg.ETH_MAC_LO).toNat ++ leBytes 2 (s.get Fld.ETH_MAC_HI_ADDR)
  let bcast := dst == List.replicate 6 0xFF
  let h := crc32 dst / 2 ^ 26
  s.on Fld.ETH_CTRL_PROMISC || dst == station || (bcast && s.on Fld.ETH_CTRL_BCAST)
    || (!bcast && natBit (leAt dst 0 1) 0 && natBit (s.get64 Reg.ETH_HASH_LO Reg.ETH_HASH_HI) h)

/-- A pause frame (IEEE 802.3 MAC control, R437): the pause it asks for, in quanta of 512 bit times. -/
def pauseQuanta (frame : List Byte) : Option Nat :=
  if slice frame 0 6 == [0x01, 0x80, 0xC2, 0x00, 0x00, 0x01] && slice frame 12 4 == [0x88, 0x08, 0x00, 0x01] then some (leAt frame 17 1 + 256 * leAt frame 16 1) else none

/-- Where a pause of `q` quanta that begins now ends, in meter time of 24.576 MHz. -/
def Dev.pauseEnd (s : Dev) (q : Nat) : Nat :=
  let rate := if s.on Fld.ETH_CTRL_SPEED100 then 100000000 else 10000000
  s.mt + (q * 512 * 24576000 + rate - 1) / rate

/-- A pause ends: a transmission that waited for it starts (R437). -/
def Dev.ethResume (s : Dev) (mem : List Host.Cell) : Dev :=
  let t := { s with host := { s.host with ethPause := none, ethHeld := false } }
  if s.host.ethHeld then t.ethScan mem else t

/-- A received pause frame is obeyed where PAUSE is set: the next frame waits; 0 quanta end a pause (R437). -/
def Dev.ethPauseIn (s : Dev) (mem : List Host.Cell) (frame : List Byte) (fcsOk : Bool) : Dev :=
  match pauseQuanta frame with
  | some q =>
    if s.ethOn && s.on Fld.ETH_CTRL_RXEN && s.on Fld.ETH_CTRL_PAUSE && fcsOk then
      (if q = 0 then s.ethResume mem else { s with host := { s.host with ethPause := some (s.pauseEnd q) } })
    else s
  | none => s

/-- At a tick of meter time a pause may end. -/
def Dev.pauseOver (s : Dev) (mem : List Host.Cell) : Dev :=
  match s.host.ethPause with
  | some e => if e ≤ s.mt then s.ethResume mem else s
  | none => s

/-- ETH_FRAME_RECEIVE: `frame` with its FCS. A frame whose FCS failed is stored with ERR (R438). -/
def Dev.ethFrameIn (s : Dev) (mem : List Host.Cell) (frame : List Byte) (fcsOk : Bool) : Dev × List Host.Cell :=
  let n := frame.length
  if !s.ethOn || !s.on Fld.ETH_CTRL_RXEN || !s.ethAccepts (slice frame 0 6) then (s, mem)
  else if n < 64 || 1522 < n then (s.bump Fld.ETH_CNT_RX_DROP, mem)
  else
    let s1 := if fcsOk then s else (s.bump Fld.ETH_CNT_RX_CRCERR).raise Pg.ETH 3
    let ring := (s.rd Reg.ETH_RXRING).toNat
    let d := ethDesc mem ring s.host.rxIdx
    if ring / 2 ^ 24 = 0 || !bitAt d.1 31 then (((s1.bump Fld.ETH_CNT_RX_DROP).set Fld.ETH_STAT_RXNOBUF 1).raise Pg.ETH 2, mem)
    else
      let mem1 := (List.range n).foldl (fun (t : List Host.Cell) i => Memory.write t (ethAddr (bitsOf d.2 16 0 + i)) (nth frame i 0)) mem
      let s2 := { s1 with host := { s1.host with rxIdx := ethNext ring s1.host.rxIdx d.1 } }
      (if fcsOk then s2.raise Pg.ETH 0 else s2, ethReturn mem1 ring s.host.rxIdx d.1 (!fcsOk) n)

def execEthFrameReceive (frame : List Byte) (fcsOk : Bool) (s : State) : Out := updAct s fun mem d => (d.ethPauseIn mem frame fcsOk).ethFrameIn mem frame fcsOk

/-- A write of ETH.TXRING or ETH.RXRING: the ring starts at its first descriptor. -/
def Dev.ethRing (s : Dev) (tx : Bool) (v : Word) : Dev :=
  let n := bitsOf v 31 24
  let b := bitsOf v 16 0
  if n < 2 ∨ 128 < n ∨ b % 8 ≠ 0 then s.cfgErr Pg.ETH
  else
    let w := BitVec.ofNat 32 (n * 2 ^ 24 + b)
    if tx then { s.wr Reg.ETH_TXRING w with host := { s.host with txIdx := 0 } } else { s.wr Reg.ETH_RXRING w with host := { s.host with rxIdx := 0 } }

/-- A write of ETH.MDIO: GO starts an access; a write during one is ignored. -/
def Dev.mdioWrite (s : Dev) (v : Word) : Dev :=
  if s.host.mdio then s
  else { s.wr Reg.ETH_MDIO (BitVec.ofNat 32 (v.toNat &&& 0xC3FFFFFF)) with host := { s.host with mdio := bitAt v 31 } }

def execMdioAccess (m : Nat) (v : Word) (s : State) : Out := wrAct m Reg.ETH_MDIO v s fun d => d.mdioWrite v

/-- MDIO_DONE: a read leaves its data; event 4. -/
def Dev.mdioEnd (s : Dev) (data : Nat) : Dev :=
  if s.host.mdio then
    let s1 := if s.on Fld.ETH_MDIO_WRITE then s else s.set Fld.ETH_MDIO_DATA data
    { s1.set Fld.ETH_MDIO_GO 0 with host := { s1.host with mdio := false } }.raise Pg.ETH 4
  else s

def execMdioDone (data : Nat) (s : State) : Out := mainAct s fun d => d.mdioEnd data

/-! ### GPIO (R442) -/

/-- GPIO_EDGE: the outside drives pin `n`; event n on a selected edge of its level. -/
def Dev.gpioEdge (s : Dev) (n : Nat) (level : Bool) : Dev :=
  if 16 ≤ n then s
  else
    let t := { s with pins := { s.pins with gpioIn := putBit s.pins.gpioIn n level } }
    let mode := s.get Fld.GPIO_EDGE_MODE / 4 ^ n % 4
    if s.gpioLevel n != t.gpioLevel n && natBit mode (if level then 0 else 1) then t.raise Pg.GPIO n else t

def execGpioEdge (pin : Nat) (level : Bool) (s : State) : Out := act s fun d => d.gpioEdge pin level

/-- Event n for each pin whose level changed from `s` by a selected edge (R442). -/
def Dev.gpioEdges (s t : Dev) : Dev :=
  forN 16 t fun (u : Dev) n =>
    if s.gpioLevel n != t.gpioLevel n && natBit (t.get Fld.GPIO_EDGE_MODE / 4 ^ n % 4) (if t.gpioLevel n then 0 else 1) then u.raise Pg.GPIO n else u

/-- A write of DIR, OUT or OD: the pin that DISC owns is left alone, with LOCKERR where its bit would change; a driven level that changes is an edge on its pin. -/
def Dev.gpioWrite (s : Dev) (f : Field) (v : Word) : Dev :=
  let new := bitsOf v 15 0
  match s.discPin with
  | some p =>
    let t := s.gpioEdges (s.set f (putBit new p (natBit (s.get f) p)))
    if natBit new p != natBit (s.get f) p then t.lockErr Pg.GPIO else t
  | none => s.gpioEdges (s.set f new)

end Sys2Proof.Machine
end

