-- ==== Sys2Proof/Machine/Flash.lean ====
section
/-! DEFINITION. Writing the flash table area (R481), and the split counters' selection and latch (R483, R484). -/

namespace Sys2Proof.Machine

/-! ### Flash -/

/-- OP and PADDR name an operation that may start now. -/
def Dev.flashOk (s : Dev) (op a : Nat) : Bool :=
  (op == 1 && a % 4096 == 0 || op == 2 && a % 256 == 0) && decide (0x60C00000 ≤ a) && decide (a < 0x61000000)
    && !s.on Fld.FLASH_PSTAT_BUSY && s.power.st != .holdup && s.power.st != .shutdownTest

/-- The page in PDATA0 to PDATA63. -/
def Dev.flashPage (s : Dev) : List Byte := (List.range 64).flatMap fun i => leBytes 4 (s.rd (Reg.FLASH_PDATA i)).toNat

/-- A write of FLASH.PCMD. -/
def Dev.flashCmd (s : Dev) (v : Word) : Dev :=
  s.keyed Pg.FLASH 0x8F v fun t =>
    let op := bitsOf v 1 0
    let a := t.get Fld.FLASH_PADDR_ADDR
    if t.flashOk op a then { t.set Fld.FLASH_PSTAT_BUSY 1 with host := { t.host with flashOp := some (op, a, if op = 2 then t.flashPage else []) } }
    else t.cfgErr Pg.FLASH

def execFlashErase (m : Nat) (v : Word) (s : State) : Out := wrAct m Reg.FLASH_PCMD v s fun d => d.flashCmd v
def execFlashProgram (m : Nat) (v : Word) (s : State) : Out := wrAct m Reg.FLASH_PCMD v s fun d => d.flashCmd v

/-- A lasting read-back failure. -/
def Dev.flashFail (s : Dev) : Dev := (s.set Fld.FLASH_PSTAT_FAIL 1).raise Pg.FLASH 3

/-- The end of an operation. -/
def Dev.flashEnd (s : Dev) : Dev :=
  { (s.set Fld.FLASH_PSTAT_BUSY 0).set Fld.FLASH_PSTAT_DONE 1 with host := { s.host with flashOp := none } }

/-- The end of a programming of `data` at `a`: `ok1` and `ok2` say what the array's two read-backs found; bits only go from 1 to 0, so a page that was not erased can disagree for good. -/
def flashProgrammed (s : State) (a : Nat) (data : List Byte) (ok1 ok2 : Bool) : State :=
  let took := List.zipWith (fun (x y : Byte) => x &&& y) (Memory.readAll s.mem a 256) data
  let d := s.toDev
  if !ok1 && !ok2 then
    { s with toDev := d.flashFail.flashEnd.tick, mem := Memory.writeAll s.mem a ((List.range 256).map fun i => Config.flashByte (a + i) d.free) }
  else
    let mem := Memory.writeAll s.mem a took
    if took != data then { s with toDev := d.flashFail.flashEnd, mem := mem }
    else if ok1 then { s with toDev := d.flashEnd, mem := mem }
    else { s with toDev := ((d.bump (Ecc.CE Pg.FLASH)).raise Pg.FLASH 0).flashEnd, mem := mem }

/-- FLASH_OP_DONE. -/
def execFlashOpDone (ok1 ok2 : Bool) (s : State) : Out :=
  .next (match s.host.flashOp with
    | some (op, a, data) =>
      if !s.mainOn then s
      else if op = 1 then { s with toDev := s.toDev.flashEnd, mem := Memory.writeAll s.mem a (List.replicate 4096 0xFF) }
      else flashProgrammed s a data ok1 ok2
    | none => s)

/-! ### Split counters -/

/-- The counter and the snapshot of counter `n` cleared. -/
def Dev.splitZero (s : Dev) (n : Nat) : Dev := (s.set64 (Reg.SPLIT_CNT_LO n) (Reg.SPLIT_CNT_HI n) 0).set64 (Reg.SPLIT_SNAP_LO n) (Reg.SPLIT_SNAP_HI n) 0

/-- A write of SELn. -/
def Dev.splitSelect (s : Dev) (n : Nat) (v : Word) : Dev :=
  if bitsOf v 13 12 = 3 || !codeDefined (bitsOf v 11 0) then s.cfgErr Pg.SPLIT
  else (s.wr (Reg.SPLIT_SEL n) (BitVec.ofNat 32 (v.toNat &&& 0x80003FFF))).splitZero n

def execSplitSelect (m n : Nat) (v : Word) (s : State) : Out := wrAct m (Reg.SPLIT_SEL n) v s fun d => if n < 32 then d.splitSelect n v else d

/-- One counter's latch. -/
def Dev.splitLatchOne (s : Dev) (n : Nat) : Dev :=
  let c := s.get64 (Reg.SPLIT_CNT_LO n) (Reg.SPLIT_CNT_HI n)
  let t := s.set64 (Reg.SPLIT_SNAP_LO n) (Reg.SPLIT_SNAP_HI n) c
  if s.on Fld.SPLIT_LCTRL_CLR then t.set64 (Reg.SPLIT_CNT_LO n) (Reg.SPLIT_CNT_HI n) 0 else t

/-- A write of SPLIT.LATCH: the selected counters and MT at one edge; the latch's own event counts in the new interval. -/
def Dev.splitLatch (s : Dev) (v : Word) : Dev :=
  let t := forN 32 s fun (u : Dev) n => if bitAt v n then u.splitLatchOne n else u
  ((t.set64 Reg.SPLIT_LMT_LO Reg.SPLIT_LMT_HI s.mt).count Fld.SPLIT_NLATCH_N).raise Pg.SPLIT 1

def execSplitLatch (m : Nat) (v : Word) (s : State) : Out := wrAct m Reg.SPLIT_LATCH v s fun d => d.splitLatch v

end Sys2Proof.Machine
end

