-- ==== Sys2Proof/Machine/Pages.lean ====
section
/-! DEFINITION. The page header (R48, R73–R77, R104): soft reset, enable and freeze, clearing interrupt bits, injection and locking. -/

namespace Sys2Proof.Machine

/-- A header register takes the write in the CORE island whatever the page's own island does (R73); a write to an isolated island's page is discarded (R80). -/
def Dev.hdrLanding (s : Dev) (m a : Nat) (v : Word) (f : Dev → Dev) : Dev :=
  if s.islIso (pageOf a) then s.busUpd fun b => { b with posted := b.posted ++ [⟨m, a, v⟩] } else f s

/-- A write of a header register of page `p`; a page of the reserved range ends in a DECODE bus error (R71). -/
def Dev.hdrWrite (s : Dev) (m p off : Nat) (v : Word) (f : Dev → Dev) : Dev :=
  if p < 0x3E then s.hdrLanding m (pageBase p + off) v f else s.busErr m (pageBase p + off) BusKind.decode true

/-! ### Soft reset (R48) -/

/-- Bits of a register whose access code a predicate names. -/
def accMask (r : RegRow) (p : Access → Bool) : Nat := (r.fields.map fun f => if p f.acc then 2 ^ (f.hi + 1) - 2 ^ f.lo else 0).sum

/-- Bits of a register that a soft reset of page `p` keeps: another page's, the header's, the backup domain's and MRAM's, STK fields, locked RWL fields, and the seal. -/
def Dev.srstKeep (s : Dev) (p a : Nat) : Nat :=
  if pageOf a ≠ p ∨ a % 0x1000 < 0x40 ∨ bkpMask a ≠ 0 ∨ a = Reg.SEC_SEAL then 0xFFFFFFFF
  else match rowAt a with
    | some r => accMask r fun c => c == .stk || (s.frozenRwl p && c == .rwl)
    | none => 0

/-- Bindings that the page no longer holds leave at their boundary (R259, R260). -/
def Dev.unbindLost (s : Dev) : Dev :=
  forN 64 s fun t b =>
    let k := nth t.bill.bound b {}
    let rest := t.bill.pendingB.filter fun p => p.1 != b
    if t.on (Fld.BILL_BP_CFG_EN b) then t
    else { t with bill := { t.bill with pendingB := if k.en then rest ++ [(b, {})] else rest } }

/-- The block of page `p` starts afresh, its registers already at their reset values. -/
def Dev.blockInit (s : Dev) (p : Nat) : Dev :=
  match pageKind p with
  | none => s
  | some (k, n, _) =>
    match k with
    | .sys | .clk | .pwr | .mram | .rtc | .intc | .split | .gpio | .dram | .lane => s
    | .bist => s.bistAbandon.bistShow.stalledDrop
    | .upd => match s.upd.bootNow with | some (_, r) => s.bootShow r | none => s.recepShow
    | .sec => let t := s.closeSession.fuseStop; { t with sec := { t.sec with nonce := none, running := none } }
    | .tamp => ({ s with tamp := { lfsr := s.tamp.lfsr, owed := s.tamp.owed, owedJ := s.tamp.owedJ } }).meterShow
    | .eye => { s with eye := { s.eye with left := 0, xfer := none } }
    | .cap => ({ s with cap := s.cap.cut }).capStat
    | .flash => { s with host := { s.host with flashOp := none } }
    | .heat => (((s.blkUpd n fun (b : Block) => { temp := b.temp, lastT := b.lastT, corr := b.corr }).blkFresh n).refShow (refOf n)).trkAll
    | .ugrp => (((s.blkUpd 12 fun (b : Block) => { temp := b.temp, lastT := b.lastT, corr := b.corr }).blkFresh 12).refShow 3).trkAll
    | .frame => (forN 4 s fun t g => (t.dropCycles g).trkUpd g fun _ => {}).trkAll
    | .pacer => s.pacerUpd n fun _ => {}
    | .uch => { s with temps := [], fe := { s.fe with calm := none, calmN := 0, calmLg := [], calmHg := [], calmVoid := false, calmWords := [], calmBounds := [] } }
    | .harm =>
      let t := { s with harm := { s.harm with grp := s.harm.grp.map fun (g : HarmGrp) => { win := g.win, shortIdx := g.shortIdx, tenIdx := g.tenIdx } } }
      forN 4 t fun u g => u.harmShow g
    | .pqe => { s with harm := { s.harm with pq := List.replicate 4 {}, pqSpec := List.replicate 4 {}, pqDone := List.replicate 4 [] } }
    | .bill => s.unbindLost
    | .tariff => { s with bill := { s.bill with tariff := [], tariffNext := none } }
    | .prepay => forN 64 { s with prepay := {} } fun t b => if t.on (Fld.PREPAY_BP_CFG_EN b) then t else t.prepaySet b 0 false
    | .disc => s.discUpd fun (d : Disc) => { d with queue := [], ranks := [], table := [], trips := [], presses := [], oe := false, dps := d.dps.map fun (q : Dp) => { isOpen := q.isOpen, level := q.level } }
    | .pulse => { s with pulse := List.replicate 8 {}, pulseCal := 0, pins := { s.pins with pulse := 0 } }
    | .disp => { s with disp := {} }
    | .plcphy => let t := { s with plc := { s.plc with planNext := none } }.plcAbort; { t with plc := { t.plc with plan := none } }.set Fld.PLCPHY_STAT_NOPLAN 1
    | .plcmac => { s with plc := { s.plc with nbs := List.replicate 64 {} } }
    | .mesh => { s with mesh := { table := s.mesh.table, start := s.mesh.start, n := s.mesh.n, nt := s.mesh.nt, ntMt := s.mesh.ntMt } }
    | .eth => { s with host := { s.host with txIdx := 0, rxIdx := 0, ethOut := none, ethPause := none, ethHeld := false, mdio := false } }
    | .uart => { s with host := { s.host with uarts := updAt s.host.uarts n fun _ => {} } }
    | .spih => { s with host := { s.host with prev := 0, crcBad := none, held := none } }
    | .dbg => s.haltsEnd

/-- Pages that a soft reset leaves alone. -/
def srstBarred (p : Nat) : Bool := p == Pg.SYS || p == Pg.CLK || p == Pg.PWR || p == Pg.MRAM || p == Pg.RTC

/-- PG_CTRL.SRST: the block registers return to their reset values; FREEZE clears, injection is disarmed. Harts that were released run on, but for the Batons, which BATON_CTL's reset value holds, and physical tamper that is present stays as it is: it affects its own block only (R45). -/
def Dev.softResetPage (s : Dev) (p : Nat) : Dev :=
  if srstBarred p then s.cfgErr p
  else
    let live := s.get Fld.TAMP_LIVE_SRC % 256
    let eng := s.engMask
    let s1 := { s with regs := Regs.keep s.regs fun a => s.srstKeep p a }
    let s2 := if p = Pg.TAMP then s1.set Fld.TAMP_LIVE_SRC live else if p = Pg.UPD then s1.updUpd fun (u : Upd) => { u with engKept := eng - (eng &&& 0xC) } else s1
    let s3 := { s2 with clk := { s2.clk with loading := s2.clk.loading.filter fun l => pageOf l.stat != p } }
    ((((s3.blockInit p).thawPage p).set (Hdr.INJ_ARM p) 0).set (Hdr.INJ_COUNT p) 0).set (Hdr.BUSY p) 0

def execPageSoftReset (m page : Nat) (s : State) : Out := mainAct s fun d => d.hdrWrite m page 0x08 2 fun t => t.softResetPage page

/-! ### Enable and freeze (R73, R75, R104) -/

/-- Pages that cannot stop. -/
def unstoppable (p : Nat) : Bool := p == Pg.SYS || p == Pg.CLK || p == Pg.PWR || p == Pg.INTC || p == Pg.MRAM || p == Pg.FLASH || p == Pg.RTC

/-- R104: a heat with a bound lane and the U block with a bound group cannot be disabled. -/
def Dev.offBarred (s : Dev) (p : Nat) : Bool :=
  match pageKind p with
  | some (.heat, h, _) => (blkChans h).any s.laneBound
  | some (.ugrp, _, _) => (List.range 4).any s.grpBound
  | _ => unstoppable p

/-- A block of the front end is switched: its reference, its channels, its sensor, its Pacer and the trackers follow (R98, R101, R104, R122, R140). -/
def Dev.blockSwitch (s : Dev) (b : Nat) (on : Bool) : Dev :=
  let s1 := (s.blkRestart b).refPower (refOf b)
  let s2 := if on then s1 else (s1.set (Fld.BLK_TVALID b) 0).set (Fld.BLK_STVALID b) 0
  let s3 := if !on && decide (b < 12) then s2.pacerStop b else s2
  forN 4 s3.trkAll fun t g => t.harmShow g

/-- An EN write starts a stopped island, which answers once PG_STAT.BUSY falls: within 2 ms for a heat or the U block (R75). -/
def Dev.islandStart (s : Dev) (p : Nat) : Dev :=
  let go := fun (l : List Nat) (d : Nat) => { s with clk := { s.clk with starting := s.clk.starting.filter (fun (e : Nat × Nat) => !l.contains e.1) ++ l.map fun b => (b, s.mt + d) } }.tick
  match pageKind p with
  | some (.heat, h, _) => go [h, 13 + h] (Config.startTicks s.free % 49153)
  | some (.ugrp, _, _) => go [12] (Config.startTicks s.free % 49153)
  | some (.plcphy, _, _) => go [25] (Config.startTicks s.free)
  | _ => s

/-- What follows a change of EN. -/
def Dev.enabled (s : Dev) (p : Nat) (on : Bool) : Dev :=
  match pageKind p with
  | some (.heat, h, _) => s.blockSwitch h on
  | some (.ugrp, _, _) => s.blockSwitch 12 on
  | some (.plcphy, _, _) => if on then s.plcRestart else s.plcAbort
  | _ => s

/-- A PG_CTRL write is refused whole for its EN (R104); on a page that cannot stop only its EN = 0 is ignored (R73). -/
def Dev.enRefused (s : Dev) (p : Nat) (on : Bool) : Bool := s.on (Hdr.EN p) && !on && s.offBarred p && !unstoppable p

/-- The EN bit of a PG_CTRL write that is not refused. -/
def Dev.enWrite (s : Dev) (p : Nat) (on : Bool) : Dev :=
  if s.on (Hdr.EN p) = on then s
  else if !on && unstoppable p then s.cfgErr p
  else
    let s1 := (s.setB (Hdr.EN p) on).enabled p on
    if on then s1.islandStart p else s1

/-- A write of PG_CTRL: EN, FREEZE, SRST. -/
def Dev.pgCtrl (s : Dev) (p : Nat) (v : Word) : Dev :=
  if s.enRefused p (bitAt v 0) then s.cfgErr p
  else
    let s1 := s.enWrite p (bitAt v 0)
    let s2 := if bitAt v 2 then s1.freezePage p else s1.thawPage p
    if bitAt v 1 then s2.softResetPage p else s2

def execPageEnableWrite (m page : Nat) (v : Word) (s : State) : Out := mainAct s fun d => d.hdrWrite m page 0x08 v fun t => t.pgCtrl page v

/-! ### Status, interrupts, injection, lock -/

/-- A write of PG_STAT: CFGERR and LOCKERR clear by 1. -/
def Dev.pgStat (s : Dev) (p : Nat) (v : Word) : Dev :=
  let s1 := if bitAt v 3 then s.set (Hdr.CFGERR p) 0 else s
  if bitAt v 2 then s1.set (Hdr.LOCKERR p) 0 else s1

/-- A W1C write of PG_IRQ_STS (R73, R74): the bits clear in STS and RAW. -/
def Dev.irqClear (s : Dev) (p : Nat) (v : Word) : Dev := s.set (Hdr.RAW p) (s.get (Hdr.RAW p) - (s.get (Hdr.RAW p) &&& v.toNat))

def execIrqStatusClear (m page : Nat) (v : Word) (s : State) : Out := mainAct s fun d => d.hdrWrite m page 0x18 v fun t => t.irqClear page v

/-- The page defines a detector; a tamper source that is disabled cannot be injected (R321). -/
def Dev.injDefined (s : Dev) (p det : Nat) : Bool :=
  match pageKind p with
  | some (k, _, _) => k.dets.any (fun r => decide (r.1 ≤ det) && decide (det ≤ r.2)) && (p != Pg.TAMP || s.tampActive det)
  | none => false

/-- A write of PG_INJ (R77). Detectors that a real input does not evaluate in time fire at once (R239, R337). -/
def Dev.injWrite (s : Dev) (m p : Nat) (v : Word) : Dev :=
  if keyOf v ≠ 0x5A ∨ (sealPage p && s.isSealed) ∨ (bitAt v 1 && !(s.session m && privMaster m)) then s.lockErr p
  else if bitAt v 0 && (bitsOf v 15 8 = 0 || !s.injDefined p (bitsOf v 23 16)) then s.cfgErr p
  else
    let t := s.wr (pageBase p + 0x1C) (BitVec.ofNat 32 (v.toNat &&& 0x00FFFF03))
    if p = Pg.TAMP then t.caseInject else if p = Pg.CAP then t.capInject else t

def execInjectionWrite (m page : Nat) (v : Word) (s : State) : Out := mainAct s fun d => d.hdrWrite m page 0x1C v fun t => t.injWrite m page v

/-- A write of PG_LOCK (R76): keyed, 1 locks, 0 is ignored. -/
def Dev.pgLock (s : Dev) (p : Nat) (v : Word) : Dev :=
  s.keyed p 0xA5 v fun t => if bitAt v 0 then t.set (Hdr.LOCK p) 1 else t

def execPageLock (m page : Nat) (v : Word) (s : State) : Out := mainAct s fun d => d.hdrWrite m page 0x20 v fun t => t.pgLock page v

/-- A write of any header word (R73): the read-only ones ignore it. -/
def Dev.header (s : Dev) (m p off : Nat) (v : Word) : Dev :=
  if off = 0x08 then s.pgCtrl p v else if off = 0x0C then s.pgStat p v else if off = 0x14 then s.wr (pageBase p + off) v else if off = 0x18 then s.irqClear p v
  else if off = 0x1C then s.injWrite m p v else if off = 0x20 then s.pgLock p v else s

end Sys2Proof.Machine
end

