-- ==== Sys2Proof/Machine/Write.lean ====
section
/-! DEFINITION. A write to any address by any master (R65–R69, R76, R79, R80, R495): field checks and access codes of a plain register, the registers whose writes act, and memory. -/

namespace Sys2Proof.Machine

/-! ### A plain register (R4, R76, R495) -/

/-- What a field becomes: held value `old`, written value `v`. -/
def Access.merge (c : Access) (frozen : Bool) (old v : Nat) : Nat :=
  match c with
  | .ro | .stk | .rwlw1s => old
  | .rw | .wo | .rwk => v
  | .rwl => if frozen then old else v
  | .w1c => old - (old &&& v)
  | .w1s => old ||| v

/-- The register's word after a write, its key byte read as 0. -/
def RegRow.merge (r : RegRow) (frozen : Bool) (old v : Word) : Word :=
  r.fields.foldl (fun w f =>
    if f.acc == .rwk && f.lo == 24 && r.key != 0 then putBits w f.hi f.lo 0
    else putBits w f.hi f.lo (f.acc.merge frozen (bitsOf old f.hi f.lo) (bitsOf v f.hi f.lo))) old

/-- A frozen field would change (R76). -/
def RegRow.frozenDiffers (r : RegRow) (old v : Word) : Bool :=
  r.fields.any fun f => f.acc == .rwl && bitsOf old f.hi f.lo != bitsOf v f.hi f.lo

/-- A value between two bounds. -/
def within (lo n hi : Nat) : Bool := decide (lo ≤ n) && decide (n ≤ hi)

/-- The ranges of a channel record's registers (R191). -/
def recOk (o : Nat) (w : Word) : Bool :=
  if o = 0x00 then bitsOf w 1 0 != 3 && within 0 (bitsOf w 15 12) 2
  else if o = 0x10 then within 0x03C00000 w.toNat 0x04400000
  else if o = 0x1C then decide (-131072 ≤ signedOf w.toNat 32) && decide (signedOf w.toNat 32 ≤ 131071)
  else if o = 0x20 then within 0 (bitsOf w 16 0) 70000
  else true

/-- The word is inside the ranges stated for the register's fields (R495). -/
def regOk (k : PageKind) (o : Nat) (w : Word) : Bool :=
  match k with
  | .upd => o != 0x58 || within 1 (bitsOf w 12 0) 4320
  | .sec => o != 0x64 || within 10 (bitsOf w 11 0) 3600
  | .tamp =>
    if o = 0x44 then within 0 (bitsOf w 10 8) 5 && bitsOf w 5 4 != 3
    else if o = 0x60 then bitsOf w 31 16 != 0 && bitsOf w 15 0 != 0
    else if o = 0x64 then within 10 (bitsOf w 31 16) 1000 && bitsOf w 15 0 != 0
    else if o = 0x68 then within 10 (bitsOf w 31 16) 1000 && within 10 (bitsOf w 15 0) 1000
    else o != 0x6C || bitsOf w 15 0 != 0
  | .eye => o != 0x40 || bitsOf w 23 16 != 0
  | .heat => o != 0x108 || bitsOf w 23 16 != 0
  | .ugrp => !(decide (0x100 ≤ o) && decide (o < 0x180) && o % 32 == 4) || bitsOf w 23 16 != 0
  | .frame =>
    if o = 0xC0 then bitsOf w 7 0 != 0
    else o != 0xC4 || (within 2 (bitsOf w 15 12) 15 && within 2 (bitsOf w 11 8) 8 && within 0 (bitsOf w 3 0) 3)
  | .lane => recOk (o % 0x40) w
  | .uch => if (decide (0x40 ≤ o) && decide (o < 0x440)) || decide (0xF40 ≤ o) then recOk (o % 0x40) w else o != 0x540 || tblAddrOk w
  | .bill =>
    if o = 0x40 then within 0 (bitsOf w 18 16) 6 && within 1 (bitsOf w 11 0) 3600
    else if o = 0x44 then within 0 (bitsOf w 31 30) 2 && within 1 (bitsOf w 28 24) 28 && within 0 (bitsOf w 20 16) 23 && within 0 (bitsOf w 5 0) 59
    else if 0xA0 ≤ o ∧ o < 0xC0 then codeDefined (bitsOf w 11 0)
    else true
  | .tariff => o != 0x40 || tblAddrOk w
  | .disc =>
    if o = 0x40 then within 20 (bitsOf w 15 8) 255
    else if o = 0x44 then within 62 (bitsOf w 15 8) 255 && bitsOf w 7 0 != 0 && within 0 (bitsOf w 28 24) 15
    else if o = 0x70 then tblAddrOk w
    else if 0x80 ≤ o ∧ o < 0xA0 then codeDefined (bitsOf w 11 0)
    else true
  | .disp => if o = 0x40 then bitsOf w 31 24 != 0 && bitsOf w 23 16 != 0 && within 31 (bitsOf w 15 8) 255 else o != 0x44 || tblAddrOk w
  | .plcphy => if o = 0x40 then bitsOf w 31 24 != 0 && within 5 (bitsOf w 23 16) 255 && bitsOf w 10 8 != 0 else o != 0x48 || tblAddrOk w
  | .plcmac =>
    if o = 0x40 then within 0 (bitsOf w 11 0) 4094
    else if o = 0x44 then within 1 (bitsOf w 12 8) 20 && within 8 (bitsOf w 7 3) 31
    else if o = 0x48 then within 1 (bitsOf w 31 24) 50 && within 4 (bitsOf w 23 16) 80 && within 5 (bitsOf w 15 0) 3600
    else o != 0x4C || within 10 (bitsOf w 15 0) 3600
  | .mesh => o != 0x48 || (within 10 (bitsOf w 31 20) 3600 && within 5 (bitsOf w 19 12) 255 && within 10 (bitsOf w 7 0) 255)
  | .uart => if o = 0x40 then within 655 (bitsOf w 19 0) 1048575 else o != 0x4C || (within 1 (bitsOf w 15 8) 64 && within 0 (bitsOf w 7 0) 63)
  | _ => true

/-- A register that the page's kind does not have in this instance: CADDR of UART0 (R436). -/
def absent (a : Nat) : Bool := a == Reg.UART_CADDR 0

/-- A write to a register whose fields simply take their values. -/
def Dev.genWrite (s : Dev) (a : Nat) (v : Word) : Dev :=
  let p := pageOf a
  match pageKind p with
  | none => s
  | some (k, _, _) =>
    match findRow k.rows (a % 0x1000) with
    | none => s
    | some r =>
      if absent a then s
      else if r.key ≠ 0 ∧ keyOf v ≠ r.key then s.lockErr p
      else
        let frozen := s.frozenRwl p
        let old := s.rd a
        let w := r.merge frozen old v
        let t := if regOk k (a % 0x1000) w then s.wr a w else s.cfgErr p
        if frozen && r.frozenDiffers old v then t.lockErr p else t

/-! ### Registers whose plain writes have a condition or a consequence -/

/-- TAMP.EN and TAMP.ERASE: clearing a bit needs the session (R331). -/
def Dev.tampMask (s : Dev) (m a : Nat) (f : Field) (v : Word) : Dev :=
  let old := s.get f
  if keyOf v = 0xE7 ∧ old &&& bitsOf v f.hi f.lo ≠ old ∧ ¬ (s.session m && privMaster m) then s.lockErr Pg.TAMP else s.genWrite a v

/-- A plain write passes the register's key and its ranges. -/
def Dev.genTakes (s : Dev) (a : Nat) (v : Word) : Bool :=
  match pageKind (pageOf a) with
  | none => false
  | some (k, _, _) =>
    match findRow k.rows (a % 0x1000) with
    | none => false
    | some r => !absent a && (r.key == 0 || keyOf v == r.key) && regOk k (a % 0x1000) (r.merge (s.frozenRwl (pageOf a)) (s.rd a) v)

/-- A plain write of a persistent control, which reaches its area of MRAM where it is taken (R67). -/
def Dev.controlWrite (s : Dev) (a : Nat) (v : Word) : Dev :=
  let t := s.genWrite a v
  if (a = Reg.UPD_LOCK ∨ a = Reg.BIST_CTRL) ∧ s.genTakes a v = true then { t with mram := { t.mram with controls := true } } else t

/-- UPD.LOCK: clearing OWNER needs the session (R465). -/
def Dev.updLock (s : Dev) (m : Nat) (v : Word) : Dev :=
  if keyOf v = 0x1D ∧ s.on Fld.UPD_LOCK_OWNER ∧ ¬ bitAt v 0 ∧ ¬ s.session m then s.lockErr Pg.UPD else s.controlWrite Reg.UPD_LOCK v

/-- DBG.CTRL: setting WDT_HOLD needs a session (R441). -/
def Dev.dbgCtrl (s : Dev) (m : Nat) (v : Word) : Dev :=
  if bitAt v 0 ∧ ¬ s.on Fld.DBG_CTRL_WDT_HOLD ∧ ¬ s.session m then s.lockErr Pg.DBG else s.genWrite Reg.DBG_CTRL v

/-- HEATn.CTRL: VGSEL changes only while the heat is disabled (R104); a frozen one that would change sets LOCKERR as well (R76). -/
def Dev.vgSel (s : Dev) (h : Nat) (v : Word) : Dev :=
  let p := Pg.HEAT h
  if s.on (Hdr.EN p) then
    let t := s.cfgErr p
    if s.frozenRwl p && bitsOf v 1 0 != s.get (Fld.HEAT_CTRL_VGSEL h) then t.lockErr p else t
  else s.genWrite (Reg.HEAT_CTRL h) v

/-- EVINn_CNT: a 1 anywhere clears the count (R367). -/
def Dev.evinClear (s : Dev) (n : Nat) (v : Word) : Dev := if bitsOf v 15 0 = 0 then s else s.set (Fld.RTC_EVIN_CNT_N n) 0

/-- EYE.CMD by its OP (R258). -/
def Dev.eyeCmd (s : Dev) (v : Word) (data : List Byte) : Dev :=
  if bitsOf v 1 0 = 1 then s.rescan v else if bitsOf v 1 0 = 2 then s.xferStart v data 0 else s.keyed Pg.EYE 0x6E v fun t => t.cfgErr Pg.EYE

/-- The bytes a pod returns to a transfer that a plain bus write starts; no command names them. -/
def Dev.podBytes (s : Dev) : List Byte := (List.range 32).map fun i => Config.podByte (s.free + i)

/-- A write by master `m` to the block register at `a`, by the rule of the register. -/
def Dev.blockWrite (mem : List Host.Cell) (s : Dev) (m a : Nat) (v : Word) : Dev :=
  let o := a % 0x1000
  match pageKind (pageOf a) with
  | none => s
  | some (k, n, _) =>
    match k with
    | .sys =>
      if a = Reg.SYS_GUN then s.gunWrite v else if a = Reg.SYS_RESET then s.softReset v else if a = Reg.SYS_SHUTDOWN then s.shutdownWrite v
      else if a = Reg.SYS_WDT then s.wdtWrite v false else if a = Reg.SYS_WDT_KICK then s.wdtKick v else s.genWrite a v
    | .pwr => if a = Reg.PWR_PF_CFG then s.pfCfg v s.power.vsupMv else if a = Reg.PWR_CTRL then s.quietWrite v else s.genWrite a v
    | .intc => if a = Reg.INTC_DBELL_SET then s.doorbell v else s.genWrite a v
    | .split => if a = Reg.SPLIT_LATCH then s.splitLatch v else if 0x100 ≤ o ∧ o < 0x500 ∧ o % 32 = 0 then s.splitSelect ((o - 0x100) / 32) v else s.genWrite a v
    | .bist => if a = Reg.BIST_CTRL ∧ s.bist.running then s.lockErr Pg.BIST else s.controlWrite a v
    | .upd =>
      if a = Reg.UPD_CMD then s.updCmd mem m v 0 else if a = Reg.UPD_CONFIRM then s.confirm mem v else if a = Reg.UPD_LOCK then s.updLock m v
      else if a = Reg.UPD_BATON_CTL then s.batonWrite m v else s.genWrite a v
    | .sec => if a = Reg.SEC_CMD then s.secCmd m v 0xFFFF else s.genWrite a v
    | .tamp =>
      if a = Reg.TAMP_EN then s.tampMask m a Fld.TAMP_EN_SRC v else if a = Reg.TAMP_ERASE then s.tampMask m a Fld.TAMP_ERASE_SRC v
      else if a = Reg.TAMP_STICKY then s.stickyWrite m v else if a = Reg.TAMP_CFG then (s.genWrite a v).driveAlarm
      else if 0xA0 ≤ o ∧ o < 0xD0 then s.stampWrite m a v else s.genWrite a v
    | .rtc =>
      if a = Reg.RTC_STAT then s.rtcStat v else if a = Reg.RTC_CMD then s.linSync.rtcCmd v else if a = Reg.RTC_TRIM then s.trimWrite v
      else if a = Reg.RTC_TCOMP then s.rateVoid.genWrite a v
      else if a = Reg.RTC_CTRL then (s.linSync.genWrite a v).trimEval
      else if 0x80 ≤ o ∧ o < 0xC0 ∧ o % 32 < 12 then s.almWrite ((o - 0x80) / 32) (o % 32) v
      else if 0xC0 ≤ o ∧ o < 0xE0 ∧ o % 16 = 0 then s.evinWrite ((o - 0xC0) / 16) v
      else if 0xC0 ≤ o ∧ o < 0xE0 ∧ o % 16 = 12 then s.evinClear ((o - 0xC0) / 16) v
      else s.genWrite a v
    | .eye => if a = Reg.EYE_CMD then s.eyeCmd v s.podBytes else if a = Reg.EYE_CTRL then (s.genWrite a v).eyeCtrl else s.genWrite a v
    | .cap =>
      if a = Reg.CAP_CTRL then s.capCtrl v else if a = Reg.CAP_RECCTL then s.recctl v
      else if 0x80 ≤ o ∧ o < 0x100 then
        (if o % 8 = 0 then s.trigWrite ((o - 0x80) / 8) false (v &&& 0xDFFF0FFF) else if o % 8 = 4 then s.trigWrite ((o - 0x80) / 8) true (v &&& 0x07FF03FF) else s)
      else s.genWrite a v
    | .flash => if a = Reg.FLASH_PCMD then s.flashCmd v else s.genWrite a v
    | .gpio =>
      if a = Reg.GPIO_DIR then s.gpioWrite Fld.GPIO_DIR_OUT v else if a = Reg.GPIO_OUT then s.gpioWrite Fld.GPIO_OUT_LVL v
      else if a = Reg.GPIO_OD then s.gpioWrite Fld.GPIO_OD_OD v else s.genWrite a v
    | .heat =>
      if o = 0x40 then s.vgSel n v else if o = 0x44 then s.laneEnable n v else if o = 0x48 then s.rselWrite n v else if o = 0x4C then s.isoWrite n v
      else if o = 0x50 then s.applyWrite n v else s.genWrite a v
    | .ugrp => if o = 0x40 then s.laneEnable 12 v else if o = 0x44 then s.isoWrite 12 v else if o = 0x48 then s.applyWrite 12 v else s.genWrite a v
    | .frame =>
      if 0x40 ≤ o ∧ o < 0xC0 ∧ o % 32 = 0 then s.vgCfg ((o - 0x40) / 32) v else if 0x40 ≤ o ∧ o < 0xC0 ∧ o % 32 = 4 then s.vgAmin ((o - 0x40) / 32) v else s.genWrite a v
    | .uch =>
      if a = Reg.UCH_CALM_CTRL then s.calmWrite v
      else if a = Reg.UCH_TT_LOAD then s.tempGo m v
      else s.genWrite a v
    | .harm => if a = Reg.HARM_CTRL then s.harmCtrl v else s.genWrite a v
    | .pqe =>
      if 0x40 ≤ o ∧ o < 0xC0 ∧ o % 32 < 16 then s.pqeWrite ((o - 0x40) / 32) (o % 32) (if o % 32 = 0 then v &&& 0x71 else v) else s.genWrite a v
    | .bill =>
      if a = Reg.BILL_DEMAND then s.demWrite v else if a = Reg.BILL_CMD then s.billCmd v else if a = Reg.BILL_RSEL then s.rsel v
      else if 0x100 ≤ o ∧ o < 0x500 ∧ o % 16 = 8 then s.bindWrite ((o - 0x100) / 16) v else s.genWrite a v
    | .tariff => if a = Reg.TARIFF_LOAD then s.tarGo m v else s.genWrite a v
    | .prepay =>
      if a = Reg.PREPAY_TCMD then s.tcmd v else if a = Reg.PREPAY_CMD then s.prepayCmd v
      else if 0x100 ≤ o ∧ o < 0x500 ∧ o % 16 = 0 then s.prepayCfg ((o - 0x100) / 16) v else s.genWrite a v
    | .disc =>
      if a = Reg.DISC_CMD then s.discCmd v else if a = Reg.DISC_LOAD then s.seqGo v
      else if 0x100 ≤ o ∧ o < 0x500 ∧ o % 16 = 0 then s.dpConfig ((o - 0x100) / 16) v
      else if 0x100 ≤ o ∧ o < 0x500 ∧ 8 ≤ o % 16 ∧ s.on (Hdr.EN Pg.DISC) then s.cfgErr Pg.DISC
      else s.genWrite a v
    | .pulse =>
      if a = Reg.PULSE_CTRL then s.pulseCtrl v
      else if 0x80 ≤ o ∧ o < 0x100 ∧ o % 16 = 0 then s.pulseConfig ((o - 0x80) / 16) false v
      else if 0x80 ≤ o ∧ o < 0x100 ∧ o % 16 = 4 then s.pulseConfig ((o - 0x80) / 16) true v
      else s.genWrite a v
    | .disp => if a = Reg.DISP_LOAD then s.dispGo v else if a = Reg.DISP_CMD then s.dispCmd v else s.genWrite a v
    | .plcphy => if a = Reg.PLCPHY_BP_LOAD then s.bpLoad m v else s.genWrite a v
    | .mesh =>
      if a = Reg.MESH_CFG then s.meshCfg v else if a = Reg.MESH_RQ then s.routeQuery v else if a = Reg.MESH_NT_SET then s.ntSetWrite v
      else if a = Reg.MESH_CMD then s.meshCmd v else s.genWrite a v
    | .eth =>
      if a = Reg.ETH_TXRING then s.ethRing true v else if a = Reg.ETH_RXRING then s.ethRing false v else if a = Reg.ETH_TXKICK then s.ethKick mem v
      else if a = Reg.ETH_MDIO then s.mdioWrite v else s.genWrite a v
    | .uart => if o = 0x48 then s.uartPush n v else if o = 0x40 then (s.genWrite a (if n = 0 then v &&& 0xFDFFFFFF else v)).uartFeed n else s.genWrite a v
    | .dbg => if a = Reg.DBG_CTRL then s.dbgCtrl m v else s.genWrite a v
    | .clk | .dram | .mram | .pacer | .lane | .plcmac | .spih => s.genWrite a v

/-! ### The interconnect (R65, R69, R79, R80) -/

/-- The bus error that a write of `size` bytes by master `m` ends in at once. -/
def Dev.writeErr (s : Dev) (m a size : Nat) : Option Nat :=
  if (size ≠ 1 ∧ size ≠ 2 ∧ size ≠ 4) ∨ a % size ≠ 0 then some BusKind.decode
  else if 0x40000000 ≤ a ∧ a < 0x40040000 then (if size = 4 ∧ pageOf a < 0x3E then none else some BusKind.decode)
  else if (regionOf a).isNone then some BusKind.decode
  else if !s.memWritable m a || s.memTested a then some BusKind.refused
  else none

/-- A whole word to a register page: the header by its own rules; VGSEL lands in a stopped heat. -/
def Dev.pageWrite (mem : List Host.Cell) (s : Dev) (m a : Nat) (v : Word) : Dev :=
  if a % 0x1000 < 0x40 then s.hdrLanding m a v fun t => t.header m (pageOf a) (a % 0x1000) v
  else if (List.range 12).any fun h => a == Reg.HEAT_CTRL h then s.hdrLanding m a v fun t => Dev.blockWrite mem t m a v
  else s.landing m a v fun t => Dev.blockWrite mem t m a v

/-- A write of `size` bytes by master `m`. -/
def State.busWrite (s : State) (m a size : Nat) (v : Word) : State :=
  match s.writeErr m a size with
  | some kind => { s with toDev := s.toDev.busErr m a kind true }
  | none =>
    if 0x40000000 ≤ a ∧ a < 0x40040000 then { s with toDev := Dev.pageWrite s.mem s.toDev m a v }
    else if regionOf a = some .result then { s with toDev := s.toDev.resultWrite (a - 0x20000000) (leBytes size v.toNat) }
    else { s with mem := Memory.writeAll s.mem a (leBytes size v.toNat) }

/-- REGISTER_WRITE: a posted write of 1, 2 or 4 bytes. -/
def execRegisterWrite (m addr size : Nat) (v : Word) (s : State) : Out := .next (if s.mainOn then s.busWrite m addr size v else s)

end Sys2Proof.Machine
end

