-- ==== Sys2Proof/Machine/Debug.lean ====
section
/-! DEFINITION. The debug port (R440, R441): its answers, the Debug Module behind it as the RISC-V External Debug Support specification 0.13.2 lays it out (assumption log 22), halting and resuming harts, and system-bus access as master 17. -/

namespace Sys2Proof.Machine

/-- Response codes (R440). -/
def Dmi.DONE : Nat := 0x6
def Dmi.BUSY : Nat := 0x9
def Dmi.DENIED : Nat := 0xC
def Dmi.BADCRC : Nat := 0x3

def Dev.hostUpd (s : Dev) (f : HostIf → HostIf) : Dev := { s with host := f s.host }

/-- The port answers with a response alone, or with 32 data bits after it (R440). -/
def Dev.dbgSay (s : Dev) (code : Nat) : Dev := s.hostUpd fun (h : HostIf) => { h with dbgReply := (code, 0), dbgData := false }
def Dev.dbgGive (s : Dev) (w : Word) : Dev := s.hostUpd fun (h : HostIf) => { h with dbgReply := (Dmi.DONE, w), dbgData := true }

/-- The CRC-8 that follows the last answer: over its 4-bit response and its data, from 0xFF (R440). -/
def HostIf.dbgCrc (h : HostIf) : Nat :=
  let c := crcMsb 8 0x07 4 (0xFF ^^^ (h.dbgReply.1 % 16 * 16))
  (if h.dbgData then beBytes 4 h.dbgReply.2.toNat else []).foldl (fun a b => crcMsb 8 0x07 8 (a ^^^ b.toNat)) c

/-! ### Debug Module registers -/

def Dmi.dmcontrol : Nat := 0x10
def Dmi.dmstatus : Nat := 0x11
def Dmi.command : Nat := 0x17
def Dmi.sbcs : Nat := 0x38
def Dmi.sbaddress0 : Nat := 0x39
def Dmi.sbdata0 : Nat := 0x3C
def Dmi.haltsum0 : Nat := 0x40

/-- A register of the Debug Module as it was written; sbcs starts with 32-bit access. -/
def Dev.dm (s : Dev) (a : Nat) : Word := (lookup s.host.dmi a).getD (if a = Dmi.sbcs then 0x00040000 else 0)

def Dev.dmPut (s : Dev) (a : Nat) (w : Word) : Dev := s.hostUpd fun (h : HostIf) => { h with dmi := assign h.dmi a w }

/-- The hart that dmcontrol selects. -/
def Dev.dmHart (s : Dev) : Nat := bitsOf (s.dm Dmi.dmcontrol) 25 16 + bitsOf (s.dm Dmi.dmcontrol) 15 6 * 1024

/-- Hart `h` is halted by the port. -/
def Dev.dmHalted (s : Dev) (h : Nat) : Bool := natBit (s.get Fld.DBG_HALTED_HART) h

/-- Hart `h` is out of reset. -/
def Dev.released (s : Dev) (h : Nat) : Bool := decide (h < 16) && s.engOn h

/-- dmstatus of the selected hart: each condition in its "all" and "any" bits; authenticated, version 0.13. -/
def Dev.dmStatus (s : Dev) : Word :=
  let h := s.dmHart
  let two := fun (n : Nat) (b : Bool) => b.toNat * (3 * 2 ^ n)
  BitVec.ofNat 32 (two 16 (natBit s.host.resumed h && decide (h < 16)) + two 14 (decide (16 ≤ h)) + two 12 (decide (h < 16) && !s.released h)
    + two 10 (s.released h && !s.dmHalted h) + two 8 (s.released h && s.dmHalted h) + 128 + 2)

/-- sbcs as it reads: version 1, 32-bit addresses, accesses of 8, 16 and 32 bits; its settings and sberror as held. -/
def Dev.sbcs (s : Dev) : Word := (s.dm Dmi.sbcs &&& 0x001FF000) ||| 0x20000407

/-- sberror is set where none is. -/
def Dev.sbFail (s : Dev) (e : Nat) : Dev :=
  let w := s.dm Dmi.sbcs
  if bitsOf w 14 12 = 0 then s.dmPut Dmi.sbcs (putBits w 14 12 e) else s

/-- The address moves on with sbautoincrement. -/
def Dev.sbNext (s : Dev) (size : Nat) : Dev :=
  if bitAt (s.dm Dmi.sbcs) 16 then s.dmPut Dmi.sbaddress0 (s.dm Dmi.sbaddress0 + BitVec.ofNat 32 size) else s

/-- Bytes of an access by sbaccess; none where it is not supported. -/
def Dev.sbSize (s : Dev) : Option Nat :=
  let n := bitsOf (s.dm Dmi.sbcs) 19 17
  if n < 3 then some (2 ^ n) else none

/-- sberror of a bus error (R80): time-out, bad address, other. -/
def sbCode (kind : Nat) : Nat := if kind = BusKind.timeout then 1 else if kind = BusKind.decode then 2 else 7

/-- A system-bus read of the address in sbaddress0 by master 17. -/
def Dev.sbRead (mem : List Host.Cell) (s : Dev) : Dev :=
  let a := (s.dm Dmi.sbaddress0).toNat
  if bitsOf (s.dm Dmi.sbcs) 14 12 ≠ 0 then s
  else
    match s.sbSize with
    | none => s.sbFail 4
    | some size =>
      if a % size ≠ 0 then (s.busErr 17 a BusKind.decode false).sbFail 3
      else if size < 4 ∧ 0x40000000 ≤ a ∧ a < 0x40040000 then (s.busErr 17 a BusKind.decode false).sbFail 2
      else
        let r := s.busRead mem 17 (a - a % 4)
        match r.2 with
        | .word w => (r.1.dmPut Dmi.sbdata0 (BitVec.ofNat 32 (w.toNat / 2 ^ (8 * (a % 4)) % 2 ^ (8 * size)))).sbNext size
        | .timeout => r.1.sbFail (sbCode BusKind.timeout)
        | .decode => r.1.sbFail (sbCode BusKind.decode)
        | .refused => r.1.sbFail (sbCode BusKind.refused)
        | .stalled => r.1

/-- A system-bus write of sbdata0 by master 17, under every lock, seal and key (R441). -/
def State.sbWrite (s : State) (w : Word) : State :=
  let a := (s.dm Dmi.sbaddress0).toNat
  let d := s.toDev.dmPut Dmi.sbdata0 w
  if bitsOf (s.dm Dmi.sbcs) 14 12 ≠ 0 then s
  else
    match s.sbSize with
    | none => { s with toDev := d.sbFail 4 }
    | some size =>
      let t := ({ s with toDev := d } : State).busWrite 17 a size w
      match d.writeErr 17 a size with
      | some kind => { t with toDev := t.toDev.sbFail (if a % size ≠ 0 then 3 else sbCode kind) }
      | none => { t with toDev := t.toDev.sbNext size }

/-- A read would meet an island that a test slice isolates: the Debug Module is busy (B-2). -/
def Dev.sbStalls (s : Dev) (a : Nat) : Bool := decide (0x40000000 ≤ a) && decide (a < 0x4003E000) && s.islIso (pageOf a)

/-! ### Halting and resuming (R441) -/

/-- Halting hart `h` is not allowed now. -/
def Dev.haltDenied (s : Dev) (h : Nat) : Bool := (h == 1 || (decide (4 ≤ h) && decide (h < 16))) && (s.isSealed || !s.session 17)

/-- Hart `h` halts: a Pacer gives up its cycle, the billing engine what waits for it; the uncounted interval starts. -/
def Dev.haltHart (s : Dev) (h : Nat) : Dev :=
  if !s.released h || s.dmHalted h then s
  else
    let t := (s.set Fld.DBG_HALTED_HART (s.get Fld.DBG_HALTED_HART ||| 2 ^ h)).hostUpd fun (x : HostIf) => { x with resumed := putBit x.resumed h false, haltMt := if h = 1 ∨ 4 ≤ h then assign x.haltMt h s.mt else x.haltMt }
    let u := if 4 ≤ h then t.pacerUpd (h - 4) fun _ => {} else if h = 1 then { t with bill := { t.bill with posts := [] } } else t
    u.raise Pg.DBG 1

/-- Hart `h` runs again. -/
def Dev.resumeHart (s : Dev) (h : Nat) : Dev :=
  if s.dmHalted h then ((s.set Fld.DBG_HALTED_HART (putBit (s.get Fld.DBG_HALTED_HART) h false)).haltEnd h).hostUpd fun (x : HostIf) => { x with resumed := putBit x.resumed h true } else s

/-- A write of dmcontrol: dmactive 0 resets the module's registers; haltreq, resumereq. A Pacer or the billing engine that a tamper erase found halted stays so until DBGEN falls (R443). -/
def Dev.dmControl (s : Dev) (v : Word) : Dev :=
  if !bitAt v 0 then (s.hostUpd fun (h : HostIf) => { h with dmi := [], resumed := 0 }).dbgSay Dmi.DONE
  else
    let h := bitsOf v 25 16 + bitsOf v 15 6 * 1024
    if bitAt v 31 && s.haltDenied h then (s.raise Pg.DBG 2).dbgSay Dmi.DENIED
    else
      let t := s.dmPut Dmi.dmcontrol (v &&& 0x03FFFFC1)
      (if bitAt v 31 then t.haltHart h else if bitAt v 30 && !natBit s.host.pinned h then t.resumeHart h else t).dbgSay Dmi.DONE

/-! ### Requests (R440) -/

/-- A register whose content the module's own working leaves open: abstractcs, and the data registers after a command. -/
def Dev.dmRead (s : Dev) (a : Nat) : Word :=
  if a = Dmi.dmstatus then s.dmStatus
  else if a = Dmi.haltsum0 then BitVec.ofNat 32 (s.get Fld.DBG_HALTED_HART)
  else if a = Dmi.sbcs then s.sbcs
  else match lookup s.host.dmi a with
    | some w => w
    | none => if a = Dmi.dmcontrol ∨ a = Dmi.sbaddress0 ∨ a = Dmi.sbdata0 then 0 else Config.dmWord a

/-- A read request. -/
def Dev.dbgRead (mem : List Host.Cell) (s : Dev) (addr : Nat) (crcOk : Bool) : Dev :=
  if !s.host.dbgen then s
  else if !crcOk then s.dbgSay Dmi.BADCRC
  else
    let a := addr % 128
    let w := s.dmRead a
    if a = Dmi.sbdata0 ∧ bitAt (s.dm Dmi.sbcs) 15 then
      (if s.sbStalls (s.dm Dmi.sbaddress0).toNat then s.dbgSay Dmi.BUSY else (Dev.sbRead mem s).dbgGive w)
    else s.dbgGive w

def execDebugRead (addr : Nat) (crcOk : Bool) (s : State) : Out := mainAct s fun d => Dev.dbgRead s.mem d addr crcOk

/-- An abstract command runs on a hart: what it leaves in data0 to data11 is the hart's. -/
def Dev.dmCommand (s : Dev) : Dev := (forN 12 s fun (t : Dev) i => t.dmPut (4 + i) (Config.dmData i s.free)).tick.dbgSay Dmi.DONE

/-- A write of sbcs: sberror clears where a 1 is written. -/
def Dev.sbcsWrite (s : Dev) (v : Word) : Dev :=
  let e := bitsOf (s.dm Dmi.sbcs) 14 12
  s.dmPut Dmi.sbcs (putBits (v &&& 0x001F8000) 14 12 (e - (e &&& bitsOf v 14 12)))

/-- A write request. -/
def State.dbgWrite (s : State) (addr : Nat) (v : Word) (crcOk : Bool) : State :=
  let d := s.toDev
  let on := fun (t : Dev) => ({ s with toDev := t } : State)
  if !d.host.dbgen then s
  else if !crcOk then on (d.dbgSay Dmi.BADCRC)
  else
    let a := addr % 128
    if a = Dmi.dmcontrol then on (d.dmControl v)
    else if a = Dmi.command then on d.dmCommand
    else if a = Dmi.sbcs then on ((d.sbcsWrite v).dbgSay Dmi.DONE)
    else if a = Dmi.sbaddress0 then
      let t := d.dmPut Dmi.sbaddress0 v
      if !bitAt (d.dm Dmi.sbcs) 20 then on (t.dbgSay Dmi.DONE)
      else if d.sbStalls v.toNat then on (d.dbgSay Dmi.BUSY)
      else on ((Dev.sbRead s.mem t).dbgSay Dmi.DONE)
    else if a = Dmi.sbdata0 then
      let t := s.sbWrite v
      { t with toDev := t.toDev.dbgSay Dmi.DONE }
    else if a = Dmi.dmstatus ∨ a = Dmi.haltsum0 then on (d.dbgSay Dmi.DONE)
    else on ((d.dmPut a v).dbgSay Dmi.DONE)

def execDebugWrite (addr : Nat) (v : Word) (crcOk : Bool) (s : State) : Out := .next (if s.mainOn then s.dbgWrite addr v crcOk else s)

/-- A status request: the port's own state word. -/
def Dev.dbgStatus (s : Dev) (crcOk : Bool) : Dev :=
  if !s.host.dbgen then s
  else if !crcOk then s.dbgSay Dmi.BADCRC
  else s.dbgGive (BitVec.ofNat 32 (s.dbgActive.toNat + (s.session 17).toNat * 2 + s.isSealed.toNat * 4))

def execDebugStatus (crcOk : Bool) (s : State) : Out := mainAct s fun d => d.dbgStatus crcOk

/-- DEBUG_DISCONNECT: DBGEN falls. -/
def execDebugDisconnect (s : State) : Out := mainAct s fun d => (forN 16 d Dev.resumeHart).hostUpd fun (h : HostIf) => { h with dbgen := false, dbgReply := (0, 0), dbgData := false, pinned := 0 }

/-- DEBUG_FRAMING_RESET: a request in progress is forgotten; the Debug Module is not reset. -/
def execDebugFramingReset (s : State) : Out := mainAct s fun d => if d.host.dbgen then d.dbgSay 0 else d

/-- DEBUGGER_CONNECTED: DBGEN rises. -/
def execDebuggerConnected (s : State) : Out := mainAct s fun d => if d.host.dbgen then d else (d.hostUpd fun (h : HostIf) => { h with dbgen := true }).raise Pg.DBG 0

end Sys2Proof.Machine
end

