-- ==== Sys2Proof/Machine/Spi.lean ====
section
/-! DEFINITION. The host SPI slave (R419–R427): each transaction as one command of master 16, its status byte, token, reply, CRC classification and events. -/

namespace Sys2Proof.Machine

/-- HSS_N had risen while a read still stood in WAIT: that transaction ended with ABORT (R425); its bus read goes on without it. -/
def Dev.spiLeave (s : Dev) : Dev :=
  match s.host.held with
  | some _ => ({ s with host := { s.host with held := none } }.spiMark Spi.ABORT).raise Pg.SPIH 3
  | none => s

/-- HSS_N falls: a device in QUIET wakes (R54); the status byte goes out with CMD (R425), its bits [4:1] reported once. -/
def Dev.spiBegin (s : Dev) : Dev :=
  let t := s.spiLeave.wake 3
  let st := 128 + t.irqnLow.toNat * 32 + t.host.prev % 16 * 2 + (t.bus.posted.any fun w => w.master == 16).toNat
  { t with host := { t.host with status := st, prev := 0, reply := [], token := 0 } }

/-- A transaction ends with PROTO: event 2. -/
def Dev.spiProto (s : Dev) : Dev := (s.spiMark Spi.PROTO).raise Pg.SPIH 2

/-- A CRC check passes: a failure just before it was transient (R424). -/
def Dev.crcPass (s : Dev) : Dev :=
  match s.host.crcBad with
  | some inj => ({ s with host := { s.host with crcBad := none } }.bump Fld.SPIH_CNT_TRANS).raiseMark Pg.SPIH 0 inj
  | none => s

/-- A CRC check fails: the second in a row is lasting. -/
def Dev.crcFail (s : Dev) (inj : Bool) : Dev :=
  let t := s.spiMark Spi.CRCERR
  match s.host.crcBad with
  | some _ => ({ t with host := { t.host with crcBad := none } }.bump Fld.SPIH_CNT_LASTING).raiseMark Pg.SPIH 1 inj
  | none => { t with host := { t.host with crcBad := some inj } }

/-- The check of HCRC or WCRC, where the transaction carries one: the state after it, and whether the transaction goes on. -/
def Dev.crcCheck (s : Dev) (crc ok : Bool) : Dev × Bool :=
  if !crc then (s, true)
  else if s.injArmed Pg.SPIH 0 then ((s.injUse Pg.SPIH).crcFail true, !s.injLive Pg.SPIH)
  else if ok then (s.crcPass, true)
  else (s.crcFail false, false)

/-- A transaction without the CRC that SPIH.CFG requires (R423). -/
def Dev.crcAbsent (s : Dev) (crc : Bool) : Bool := s.on Fld.SPIH_CFG_CRCREQ && !crc

/-- A word is written; an immediate bus error is reported. -/
def State.spiPut (s : State) (a : Nat) (v : Word) : State :=
  let t := s.busWrite 16 a 4 v
  if (s.writeErr 16 a 4).isSome then { t with toDev := t.toDev.spiMark Spi.BUSERR } else t

/-- Words are written at rising addresses. -/
def State.spiPuts : State → Nat → List Word → State
  | s, _, [] => s
  | s, a, v :: r => State.spiPuts (s.spiPut a v) (a + 4) r

/-- A write transaction. -/
def State.spiWrite (s : State) (crc : Bool) (addr : Nat) (data : List Word) (crcOk : Bool) : State :=
  let d := s.toDev.spiBegin
  if d.crcAbsent crc then { s with toDev := d.spiProto }
  else
    let c := d.crcCheck crc crcOk
    let t := { s with toDev := c.1 }
    let u := if c.2 then t.spiPuts addr data else t
    { u with toDev := u.toDev.spiEnd }

/-- The words of a read, in order, after those gathered already: the words and the token; from a bus error on the words are 0. A read that an isolated island holds stays in WAIT (B-2), what it has yet to gather being kept: the address of the word that stands, the words that remain and those gathered. -/
def Dev.spiGather (mem : List Host.Cell) : Nat → Nat → List Word → Dev → Dev × List Word × Nat
  | 0, _, l, s => (s, l, 0xA5)
  | n + 1, a, l, s =>
    let r := s.busRead mem 16 a
    match r.2 with
    | .word w => Dev.spiGather mem n (a + 4) (l ++ [w]) r.1
    | .stalled => ({ r.1 with host := { r.1.host with held := some (a, n + 1, l) } }, [], 0xFF)
    | _ => (r.1, l ++ List.replicate (n + 1) 0, 0xAE)

/-- RCRC of the last reply: over TOKEN and DATA, or over the 8 bytes of STATUS, which has no TOKEN (R420). -/
def HostIf.rcrc (h : HostIf) : Nat := crc8 0 ((if h.token = 0 then [] else leBytes 1 h.token) ++ h.reply.flatMap fun w => beBytes 4 w.toNat)

/-- What was gathered goes out: the token, the words, and the end of the transaction unless it waits. -/
def Dev.spiReply (g : Dev × List Word × Nat) : Dev :=
  let t := { g.1 with host := { g.1.host with token := g.2.2, reply := g.2.1 } }
  if g.2.2 = 0xFF then t else if g.2.2 = 0xAE then (t.spiMark Spi.BUSERR).spiEnd else t.spiEnd

/-- A read transaction of `n` words. -/
def Dev.spiRead (mem : List Host.Cell) (s : Dev) (crc : Bool) (addr n : Nat) (crcOk : Bool) : Dev :=
  let d := s.spiBegin
  if d.crcAbsent crc then d.spiProto
  else
    let c := d.crcCheck crc crcOk
    if !c.2 then { c.1 with host := { c.1.host with token := 0xAC } }.spiEnd
    else Dev.spiReply (Dev.spiGather mem n addr [] c.1)

/-- A host read that stood still goes on once its word has been answered (B-2, R421). -/
def Dev.spiGo (mem : List Host.Cell) (s : Dev) : Dev :=
  match s.host.held with
  | none => s
  | some (a, n, l) =>
    if s.bus.stalled.contains (16, a) then s
    else
      let t := { s with host := { s.host with held := none } }
      match s.bus.answers.find? fun k => k.1 == 16 && k.2.1 == a with
      | some (_, _, .word w) => Dev.spiReply (Dev.spiGather mem (n - 1) (a + 4) (l ++ [w]) t)
      | _ => Dev.spiReply (t, l ++ List.replicate n 0, 0xAE)

def execReadTimeout (m addr : Nat) (s : State) : Out := mainAct s fun d => Dev.spiGo s.mem (d.readTimeout m addr)

/-- LEN of a burst: 0 means 256 (R419). -/
def burstLen (n : Nat) : Nat := if n % 256 = 0 then 256 else n % 256

/-- A transaction in a device that is in reset is ignored (R426). -/
def spiAct (s : State) (f : State → State) : Out := .next (if s.mainOn then f s else s)

def execSpiWrite (crc : Bool) (addr : Nat) (data : Word) (crcOk : Bool) (s : State) : Out := spiAct s fun t => t.spiWrite crc addr [data] crcOk

/-- SPI_BURST_WRITE: at most 256 words. -/
def execSpiBurstWrite (crc : Bool) (addr : Nat) (data : List Word) (crcOk : Bool) (s : State) : Out := spiAct s fun t => t.spiWrite crc addr (data.take 256) crcOk

def execSpiRead (crc : Bool) (addr : Nat) (crcOk : Bool) (s : State) : Out := spiAct s fun t => { t with toDev := Dev.spiRead t.mem t.toDev crc addr 1 crcOk }

def execSpiBurstRead (crc : Bool) (addr len : Nat) (crcOk : Bool) (s : State) : Out := spiAct s fun t => { t with toDev := Dev.spiRead t.mem t.toDev crc addr (burstLen len) crcOk }

/-- STATUS answers PEND_HI, then PEND_LO (R420); it needs no CRC. -/
def Dev.spiStatus (s : Dev) : Dev :=
  let d := s.spiBegin
  { d with host := { d.host with reply := [BitVec.ofNat 32 (d.pendWord 32), BitVec.ofNat 32 (d.pendWord 0)] } }.spiEnd

def execSpiStatus (_crc : Bool) (s : State) : Out := spiAct s fun t => { t with toDev := t.toDev.spiStatus }

/-- A read of `n` words that was issued completes inside the chip, side effects included; its result is discarded (R426). -/
def Dev.spiDrop (mem : List Host.Cell) (s : Dev) (crc : Bool) (addr n : Nat) : Dev :=
  let c := s.crcCheck (crc && n != 0) true
  if c.2 then { (Dev.spiGather mem n addr [] c.1).1 with host := { (Dev.spiGather mem n addr [] c.1).1.host with held := none } } else c.1

/-- SPI_ABORT: HSS_N rises in a write after the words `data`, which without CRC were applied and with CRC are discarded, or in a read of `words` words that was issued; none of either where the header was incomplete. -/
def State.spiAbort (s : State) (addr : Nat) (data : List Word) (words : Nat) (crc : Bool) : State :=
  let d := s.toDev.spiBegin
  if d.crcAbsent crc then { s with toDev := d.spiProto }
  else
    let r := Dev.spiDrop s.mem d crc addr words
    let t := if crc then { s with toDev := r } else ({ s with toDev := r } : State).spiPuts addr data
    { t with toDev := (t.toDev.spiMark Spi.ABORT).raise Pg.SPIH 3 }

def execSpiAbort (addr : Nat) (cut : SpiCut) (crc : Bool) (s : State) : Out := spiAct s fun t => t.spiAbort addr (cut.data.take 256) (min cut.words 256) crc

end Sys2Proof.Machine
end

