-- ==== Sys2Proof/Machine/Slices.lean ====
section
/-! DEFINITION. The ends of the test slices (ch. 02, 19): what a slice or a cooling time ends with, for the power states and for the reads that stood still at the isolated island. -/

namespace Sys2Proof.Machine

/-- The PLC, MEM or IO island returns to its power-on state: what its pages' blocks hold beside their registers (R469). -/
def Dev.sliceInit (s : Dev) (b : Nat) : Dev := if 25 ≤ b ∧ b < 28 then ((List.range 62).filter fun p => islandOf p == some b).foldl Dev.blockInit s else s

/-- `t` follows `s` by the end of the slice that ran in `s`. -/
def Dev.sliceOver (s t : Dev) : Dev :=
  if s.bist.running && !s.bist.cooling && (t.bist.slice != s.bist.slice || !t.bist.running) then (match sliceIsland s.bist.slice with | some b => t.sliceInit b | none => t) else t

/-- What a slice ends with: slice 14 has overwritten the staging. The engines' memories are reloaded from the same slot at step 10, which leaves them as step 6 loaded them. -/
def testAct (s : State) (f : Dev → Dev) : Out :=
  .next (if s.mainOn then
    let d := Dev.spiGo s.mem ((s.toDev.sliceOver (f s.toDev)).testOver s.toDev).stalledEnd
    if s.bist.running = true ∧ s.bist.cooling = false ∧ s.bist.slice = 14 ∧ d.bist.slice ≠ 14 then { s with toDev := d.stagingLost, mem := dramWipe s.mem } else { s with toDev := d }
  else s)

/-- SLICE_END, SLICE_TIMEOUT, COOLING_TIMEOUT. -/
def execSliceEnd (ok : Bool) (detail : Word) (dur peak : Nat) (s : State) : Out := testAct s fun d => d.sliceEnd ok detail.toNat dur peak
def execSliceTimeout (s : State) : Out := testAct s Dev.sliceTimeout
def execCoolingTimeout (s : State) : Out := testAct s Dev.coolingOver

/-! ### Warnings, which abandon a slice (R60) -/

/-- A command that may abandon the test: the reads that its slice held end. -/
def warnAct (s : State) (f : Dev → Dev) : Out := mainAct s fun d => Dev.spiGo s.mem (f d).stalledEnd.stalledDrop

def execPowerFailWarning (vsupMv : Nat) (s : State) : Out := warnAct s fun d => d.pfWarn vsupMv
def execPowerFailWarningClear (vsupMv : Nat) (s : State) : Out := warnAct s fun d => d.pfClear vsupMv
def execOvertempShutdown (block : Nat) (s : State) : Out := warnAct s fun d => if block < 13 then d.overtemp block else d

end Sys2Proof.Machine
end

