-- ==== Sys2Proof/Machine/Dispatch.lean ====
section
/-! DEFINITION. The dispatch of a command to its meaning, one arm per constructor. -/

namespace Sys2Proof.Machine

/-- The effect of command `i` on `s`, whose queue is left alone. -/
def exec (i : Instr) (s : State) : Host.Outcome State Fault Refusal :=
  match i with
  | .vsupRiseStart boot1 boot0 testN vsupMv bad => Sys2Proof.Machine.execVsupRiseStart boot1 boot0 testN vsupMv bad s
  | .undervoltageLockout => Sys2Proof.Machine.execUndervoltageLockout s
  | .backupSwitchTransition v3v3Mv vbatMv => Sys2Proof.Machine.execBackupSwitchTransition v3v3Mv vbatMv s
  | .backupDomainLoss => Sys2Proof.Machine.execBackupDomainLoss s
  | .backupDomainPowerUp seed => Sys2Proof.Machine.execBackupDomainPowerUp seed s
  | .pfCfgWrite m v vsupMv => Sys2Proof.Machine.execPfCfgWrite m v vsupMv s
  | .powerFailWarning vsupMv => Sys2Proof.Machine.execPowerFailWarning vsupMv s
  | .powerFailCommit ok1 ok2 => Sys2Proof.Machine.execPowerFailCommit ok1 ok2 s
  | .powerFailWarningClear vsupMv => Sys2Proof.Machine.execPowerFailWarningClear vsupMv s
  | .powerFailTimeout => Sys2Proof.Machine.execPowerFailTimeout s
  | .rideThroughComplete => Sys2Proof.Machine.execRideThroughComplete s
  | .overtempShutdown block => Sys2Proof.Machine.execOvertempShutdown block s
  | .overtempRelease boot1 boot0 testN vsupMv bad => Sys2Proof.Machine.execOvertempRelease boot1 boot0 testN vsupMv bad s
  | .clockFailure => Sys2Proof.Machine.execClockFailure s
  | .pinReset => Sys2Proof.Machine.execPinReset s
  | .watchdogHalf => Sys2Proof.Machine.execWatchdogHalf s
  | .watchdogTimeout => Sys2Proof.Machine.execWatchdogTimeout s
  | .wdtConfigWrite m v bootRom => Sys2Proof.Machine.execWdtConfigWrite m v bootRom s
  | .wdtKick m v => Sys2Proof.Machine.execWdtKick m v s
  | .softwareReset m v => Sys2Proof.Machine.execSoftwareReset m v s
  | .preResetCommitDone ok1 ok2 => Sys2Proof.Machine.execPreResetCommitDone ok1 ok2 s
  | .preResetCommitTimeout => Sys2Proof.Machine.execPreResetCommitTimeout s
  | .internalResetRelease boot1 boot0 testN vsupMv bad => Sys2Proof.Machine.execInternalResetRelease boot1 boot0 testN vsupMv bad s
  | .pageSoftReset m page => Sys2Proof.Machine.execPageSoftReset m page s
  | .enterQuiet m v => Sys2Proof.Machine.execEnterQuiet m v s
  | .wakeFromQuiet src => Sys2Proof.Machine.execWakeFromQuiet src s
  | .shutdown m v => Sys2Proof.Machine.execShutdown m v s
  | .pageEnableWrite m page v => Sys2Proof.Machine.execPageEnableWrite m page v s
  | .freezeTimeout page => Sys2Proof.Machine.execFreezeTimeout page s
  | .irqStatusClear m page v => Sys2Proof.Machine.execIrqStatusClear m page v s
  | .injectionWrite m page v => Sys2Proof.Machine.execInjectionWrite m page v s
  | .pageLock m page v => Sys2Proof.Machine.execPageLock m page v s
  | .registerWrite m addr size v => Sys2Proof.Machine.execRegisterWrite m addr size v s
  | .postedWriteDiscard m addr => Sys2Proof.Machine.execPostedWriteDiscard m addr s
  | .readTimeout m addr => Sys2Proof.Machine.execReadTimeout m addr s
  | .fenceRead m => Sys2Proof.Machine.execFenceRead m s
  | .latchedPairRead m addr => Sys2Proof.Machine.execLatchedPairRead m addr s
  | .ringSeqRead m => Sys2Proof.Machine.execRingSeqRead m s
  | .temperatureTableLoad m v => Sys2Proof.Machine.execTemperatureTableLoad m v s
  | .tariffTableLoad m v => Sys2Proof.Machine.execTariffTableLoad m v s
  | .sequenceTableLoad m v => Sys2Proof.Machine.execSequenceTableLoad m v s
  | .displayTableLoad m v => Sys2Proof.Machine.execDisplayTableLoad m v s
  | .bandPlanLoad m v => Sys2Proof.Machine.execBandPlanLoad m v s
  | .rselWrite m heat v => Sys2Proof.Machine.execRselWrite m heat v s
  | .isoWrite m block v => Sys2Proof.Machine.execIsoWrite m block v s
  | .applyPush m block v => Sys2Proof.Machine.execApplyPush m block v s
  | .applyDone block => Sys2Proof.Machine.execApplyDone block s
  | .laneEnableWrite m block v => Sys2Proof.Machine.execLaneEnableWrite m block v s
  | .referenceCheck ref dev => Sys2Proof.Machine.execReferenceCheck ref dev s
  | .referenceRecheck ref dev => Sys2Proof.Machine.execReferenceRecheck ref dev s
  | .referenceSettled ref => Sys2Proof.Machine.execReferenceSettled ref s
  | .referenceCompare ppm10 => Sys2Proof.Machine.execReferenceCompare ppm10 s
  | .iretCheck heat mv => Sys2Proof.Machine.execIretCheck heat mv s
  | .tempReading block t => Sys2Proof.Machine.execTempReading block t s
  | .sampleRelease lanes us => Sys2Proof.Machine.execSampleRelease lanes us s
  | .calMeasureStart m v => Sys2Proof.Machine.execCalMeasureStart m v s
  | .calMeasureDone => Sys2Proof.Machine.execCalMeasureDone s
  | .gunInput => Sys2Proof.Machine.execGunInput s
  | .gunFire m v => Sys2Proof.Machine.execGunFire m v s
  | .strideIssue g => Sys2Proof.Machine.execStrideIssue g s
  | .speculativePublish g => Sys2Proof.Machine.execSpeculativePublish g s
  | .boundaryDecision g crossing => Sys2Proof.Machine.execBoundaryDecision g crossing s
  | .replayComplete pacer fault bMeas => Sys2Proof.Machine.execReplayComplete pacer fault bMeas s
  | .liveCatchUp pacer => Sys2Proof.Machine.execLiveCatchUp pacer s
  | .trackerCycleEnd g phaseOk amp uhz pos => Sys2Proof.Machine.execTrackerCycleEnd g phaseOk amp uhz pos s
  | .freq10Interval g => Sys2Proof.Machine.execFreq10Interval g s
  | .fixedBlockEnd g => Sys2Proof.Machine.execFixedBlockEnd g s
  | .frameConfigWrite m g amin v => Sys2Proof.Machine.execFrameConfigWrite m g amin v s
  | .pulseTick => Sys2Proof.Machine.execPulseTick s
  | .pulseEnd ch => Sys2Proof.Machine.execPulseEnd ch s
  | .pulseCalEnter m v => Sys2Proof.Machine.execPulseCalEnter m v s
  | .pulseCalExit m v => Sys2Proof.Machine.execPulseCalExit m v s
  | .pulseCalTimeout => Sys2Proof.Machine.execPulseCalTimeout s
  | .pulseConfigWrite m ch konst v => Sys2Proof.Machine.execPulseConfigWrite m ch konst v s
  | .harmonicWindowWrite g => Sys2Proof.Machine.execHarmonicWindowWrite g s
  | .aggTenminClose => Sys2Proof.Machine.execAggTenminClose s
  | .captureComplete => Sys2Proof.Machine.execCaptureComplete s
  | .captureClear m v => Sys2Proof.Machine.execCaptureClear m v s
  | .captureRecordLock m v => Sys2Proof.Machine.execCaptureRecordLock m v s
  | .captureRecordUnlock m v => Sys2Proof.Machine.execCaptureRecordUnlock m v s
  | .captureRecordDelete m v => Sys2Proof.Machine.execCaptureRecordDelete m v s
  | .eyeletScan wire found => Sys2Proof.Machine.execEyeletScan wire found s
  | .eyeletRescan m v => Sys2Proof.Machine.execEyeletRescan m v s
  | .eyeletXfer m v data fail => Sys2Proof.Machine.execEyeletXfer m v data fail s
  | .eyeletWireFault wire => Sys2Proof.Machine.execEyeletWireFault wire s
  | .bindingWrite m b v => Sys2Proof.Machine.execBindingWrite m b v s
  | .billingApplyCycle b => Sys2Proof.Machine.execBillingApplyCycle b s
  | .timeBoundaries late => Sys2Proof.Machine.execTimeBoundaries late s
  | .demandSchemeWrite m v => Sys2Proof.Machine.execDemandSchemeWrite m v s
  | .billCommitNow m v => Sys2Proof.Machine.execBillCommitNow m v s
  | .billManualSnapshot m v => Sys2Proof.Machine.execBillManualSnapshot m v s
  | .periodicCommit ok1 ok2 => Sys2Proof.Machine.execPeriodicCommit ok1 ok2 s
  | .registerSelect m v => Sys2Proof.Machine.execRegisterSelect m v s
  | .tokenCheck m v => Sys2Proof.Machine.execTokenCheck m v s
  | .tokenApply => Sys2Proof.Machine.execTokenApply s
  | .prepayArm m v => Sys2Proof.Machine.execPrepayArm m v s
  | .prepayAcceptEc m v => Sys2Proof.Machine.execPrepayAcceptEc m v s
  | .prepayDisarm m v => Sys2Proof.Machine.execPrepayDisarm m v s
  | .discOpen m v => Sys2Proof.Machine.execDiscOpen m v s
  | .discClose m v => Sys2Proof.Machine.execDiscClose m v s
  | .discDisarm m v => Sys2Proof.Machine.execDiscDisarm m v s
  | .tripBatch slot => Sys2Proof.Machine.execTripBatch slot s
  | .rankGapExpiry => Sys2Proof.Machine.execRankGapExpiry s
  | .chainRefresh fb => Sys2Proof.Machine.execChainRefresh fb s
  | .feedbackCheck n fb => Sys2Proof.Machine.execFeedbackCheck n fb s
  | .feedbackRecheck n fb => Sys2Proof.Machine.execFeedbackRecheck n fb s
  | .feedbackSample fb => Sys2Proof.Machine.execFeedbackSample fb s
  | .dpConfigWrite m n v => Sys2Proof.Machine.execDpConfigWrite m n v s
  | .btn0Press => Sys2Proof.Machine.execBtn0Press s
  | .btn1ShortPress => Sys2Proof.Machine.execBtn1ShortPress s
  | .btn1LongPress => Sys2Proof.Machine.execBtn1LongPress s
  | .displayFrame => Sys2Proof.Machine.execDisplayFrame s
  | .displayInit => Sys2Proof.Machine.execDisplayInit s
  | .pageDwellExpiry => Sys2Proof.Machine.execPageDwellExpiry s
  | .scrollHoldExpiry => Sys2Proof.Machine.execScrollHoldExpiry s
  | .selectionTimeout => Sys2Proof.Machine.execSelectionTimeout s
  | .dispNext m v => Sys2Proof.Machine.execDispNext m v s
  | .dispSelect m v => Sys2Proof.Machine.execDispSelect m v s
  | .dispResume m v => Sys2Proof.Machine.execDispResume m v s
  | .caseTamper level => Sys2Proof.Machine.execCaseTamper level s
  | .laceBurst n bits => Sys2Proof.Machine.execLaceBurst n bits s
  | .laceRetry n bits => Sys2Proof.Machine.execLaceRetry n bits s
  | .stickyClear m v present => Sys2Proof.Machine.execStickyClear m v present s
  | .nonceDraw m => Sys2Proof.Machine.execNonceDraw m s
  | .secAuth m v => Sys2Proof.Machine.execSecAuth m v s
  | .secClose m v => Sys2Proof.Machine.execSecClose m v s
  | .secInstall m v => Sys2Proof.Machine.execSecInstall m v s
  | .secSeal m v => Sys2Proof.Machine.execSecSeal m v s
  | .secUnseal m v => Sys2Proof.Machine.execSecUnseal m v s
  | .secLoadToken m v => Sys2Proof.Machine.execSecLoadToken m v s
  | .secLoadLink m v => Sys2Proof.Machine.execSecLoadLink m v s
  | .secFuse m v failAt => Sys2Proof.Machine.execSecFuse m v failAt s
  | .secEraseTest m v => Sys2Proof.Machine.execSecEraseTest m v s
  | .sessionExpiry => Sys2Proof.Machine.execSessionExpiry s
  | .rtcSecondTick => Sys2Proof.Machine.execRtcSecondTick s
  | .alarmPulseEnd k => Sys2Proof.Machine.execAlarmPulseEnd k s
  | .timeFreezeRead m sub => Sys2Proof.Machine.execTimeFreezeRead m sub s
  | .timeReleaseRead m => Sys2Proof.Machine.execTimeReleaseRead m s
  | .freezeCopyExpiry m => Sys2Proof.Machine.execFreezeCopyExpiry m s
  | .rtcSet m v sub => Sys2Proof.Machine.execRtcSet m v sub s
  | .rtcShift m v sub => Sys2Proof.Machine.execRtcShift m v sub s
  | .shiftComplete => Sys2Proof.Machine.execShiftComplete s
  | .rateStart m v => Sys2Proof.Machine.execRateStart m v s
  | .rateStop m v => Sys2Proof.Machine.execRateStop m v s
  | .rateMeasurementEnd sub => Sys2Proof.Machine.execRateMeasurementEnd sub s
  | .trimWrite m v => Sys2Proof.Machine.execTrimWrite m v s
  | .trimTempUpdate => Sys2Proof.Machine.execTrimTempUpdate s
  | .osfClear m v => Sys2Proof.Machine.execOsfClear m v s
  | .crystalStop => Sys2Proof.Machine.execCrystalStop s
  | .crystalResume => Sys2Proof.Machine.execCrystalResume s
  | .evinEdge n rising sub => Sys2Proof.Machine.execEvinEdge n rising sub s
  | .vbatMeasure mv => Sys2Proof.Machine.execVbatMeasure mv s
  | .frameTransmit slots => Sys2Proof.Machine.execFrameTransmit slots s
  | .ackTimeout => Sys2Proof.Machine.execAckTimeout s
  | .ackFrame rx fc => Sys2Proof.Machine.execAckFrame rx fc s
  | .dataFrame rx fc payload => Sys2Proof.Machine.execDataFrame rx fc payload s
  | .soundFrame rx fc snrs => Sys2Proof.Machine.execSoundFrame rx fc snrs s
  | .tonemapFrame rx fc payload => Sys2Proof.Machine.execTonemapFrame rx fc payload s
  | .beaconFrame rx fc payload => Sys2Proof.Machine.execBeaconFrame rx fc payload s
  | .rxMapHoldExpiry idx => Sys2Proof.Machine.execRxMapHoldExpiry idx s
  | .tonemapRefreshPeriod idx => Sys2Proof.Machine.execTonemapRefreshPeriod idx s
  | .beaconTimer => Sys2Proof.Machine.execBeaconTimer s
  | .advertisementTimer => Sys2Proof.Machine.execAdvertisementTimer s
  | .triggeredAdvertisement => Sys2Proof.Machine.execTriggeredAdvertisement s
  | .advMsg nbr body => Sys2Proof.Machine.execAdvMsg nbr body s
  | .joinReq nbr body => Sys2Proof.Machine.execJoinReq nbr body s
  | .joinResp nbr body => Sys2Proof.Machine.execJoinResp nbr body s
  | .leaveMsg osrc => Sys2Proof.Machine.execLeaveMsg osrc s
  | .timeMsg osrc body => Sys2Proof.Machine.execTimeMsg osrc body s
  | .joinListenEnd => Sys2Proof.Machine.execJoinListenEnd s
  | .joinTimeout => Sys2Proof.Machine.execJoinTimeout s
  | .routeExpiry dest => Sys2Proof.Machine.execRouteExpiry dest s
  | .ntHoldover => Sys2Proof.Machine.execNtHoldover s
  | .ntLoss => Sys2Proof.Machine.execNtLoss s
  | .ntSet m v => Sys2Proof.Machine.execNtSet m v s
  | .meshJoin m v => Sys2Proof.Machine.execMeshJoin m v s
  | .meshLeave m v => Sys2Proof.Machine.execMeshLeave m v s
  | .meshAdvertise m v => Sys2Proof.Machine.execMeshAdvertise m v s
  | .meshConfigWrite m v => Sys2Proof.Machine.execMeshConfigWrite m v s
  | .routeQuery m v => Sys2Proof.Machine.execRouteQuery m v s
  | .offerMsg src body => Sys2Proof.Machine.execOfferMsg src body s
  | .needMsg src body => Sys2Proof.Machine.execNeedMsg src body s
  | .blockMsg src body => Sys2Proof.Machine.execBlockMsg src body s
  | .haveMsg src body => Sys2Proof.Machine.execHaveMsg src body s
  | .updateOfferTimer => Sys2Proof.Machine.execUpdateOfferTimer s
  | .needRetryTimer => Sys2Proof.Machine.execNeedRetryTimer s
  | .updActivate m v bad => Sys2Proof.Machine.execUpdActivate m v bad s
  | .updDiscard m v => Sys2Proof.Machine.execUpdDiscard m v s
  | .updConfirm m v => Sys2Proof.Machine.execUpdConfirm m v s
  | .trialWindowExpiry => Sys2Proof.Machine.execTrialWindowExpiry s
  | .batonRelease m v => Sys2Proof.Machine.execBatonRelease m v s
  | .sliceEnd ok detail dur peak => Sys2Proof.Machine.execSliceEnd ok detail dur peak s
  | .sliceTimeout => Sys2Proof.Machine.execSliceTimeout s
  | .coolingTimeout => Sys2Proof.Machine.execCoolingTimeout s
  | .flashErase m v => Sys2Proof.Machine.execFlashErase m v s
  | .flashProgram m v => Sys2Proof.Machine.execFlashProgram m v s
  | .flashOpDone ok1 ok2 => Sys2Proof.Machine.execFlashOpDone ok1 ok2 s
  | .splitSelect m n v => Sys2Proof.Machine.execSplitSelect m n v s
  | .splitLatch m v => Sys2Proof.Machine.execSplitLatch m v s
  | .spiWrite crc addr data crcOk => Sys2Proof.Machine.execSpiWrite crc addr data crcOk s
  | .spiRead crc addr crcOk => Sys2Proof.Machine.execSpiRead crc addr crcOk s
  | .spiBurstWrite crc addr data crcOk => Sys2Proof.Machine.execSpiBurstWrite crc addr data crcOk s
  | .spiBurstRead crc addr len crcOk => Sys2Proof.Machine.execSpiBurstRead crc addr len crcOk s
  | .spiStatus crc => Sys2Proof.Machine.execSpiStatus crc s
  | .spiAbort addr cut crc => Sys2Proof.Machine.execSpiAbort addr cut crc s
  | .doorbellSet m v => Sys2Proof.Machine.execDoorbellSet m v s
  | .uartDataWrite m u v => Sys2Proof.Machine.execUartDataWrite m u v s
  | .uartDataRead m u => Sys2Proof.Machine.execUartDataRead m u s
  | .uartRxByte u byte frErr parErr brk => Sys2Proof.Machine.execUartRxByte u byte frErr parErr brk s
  | .chainFrameReceive frame => Sys2Proof.Machine.execChainFrameReceive frame s
  | .ethTxKick m v => Sys2Proof.Machine.execEthTxKick m v s
  | .ethTxDone sent => Sys2Proof.Machine.execEthTxDone sent s
  | .ethFrameReceive frame fcsOk => Sys2Proof.Machine.execEthFrameReceive frame fcsOk s
  | .mdioAccess m v => Sys2Proof.Machine.execMdioAccess m v s
  | .mdioDone data => Sys2Proof.Machine.execMdioDone data s
  | .debugRead addr crcOk => Sys2Proof.Machine.execDebugRead addr crcOk s
  | .debugWrite addr v crcOk => Sys2Proof.Machine.execDebugWrite addr v crcOk s
  | .debugStatus crcOk => Sys2Proof.Machine.execDebugStatus crcOk s
  | .debugDisconnect => Sys2Proof.Machine.execDebugDisconnect s
  | .debugFramingReset => Sys2Proof.Machine.execDebugFramingReset s
  | .gpioEdge pin level => Sys2Proof.Machine.execGpioEdge pin level s
  | .xtalOk => Sys2Proof.Machine.execXtalOk s
  | .neighbourAgedOut idx => Sys2Proof.Machine.execNeighbourAgedOut idx s
  | .debuggerConnected => Sys2Proof.Machine.execDebuggerConnected s
  | .secOperationEnded => Sys2Proof.Machine.execSecOperationEnded s
  | .uartByteTransmitted u => Sys2Proof.Machine.execUartByteTransmitted u s

end Sys2Proof.Machine
end

