-- ==== Sys2Proof/Machine/Tick.lean ====
section
/-! DEFINITION. What ends at a tick of meter time (assumption log 1): the check of a table image (R87), the SHORT measurement of an analogue test slice (R468), a pause of the Ethernet MAC (R437), the press of a button (R319), the programming of a floor fuse (R454), a powerline frame under span interleaving (R389), and the frame that a new band plan waits for (R374). -/

namespace Sys2Proof.Machine

/-- The check of an image ends: its outcome (R85, R87). -/
def Dev.loadEnd (mem : List Host.Cell) (s : Dev) (l : TblLoad) : Dev :=
  if l.stat = Reg.UCH_TBL_STAT then s.tempLoad mem l.src l.locked
  else if l.stat = Reg.TARIFF_TBL_STAT then s.tarLoad mem l.src l.locked
  else if l.stat = Reg.DISC_TBL_STAT then s.seqLoad mem l.src
  else if l.stat = Reg.DISP_TBL_STAT then s.dispLoad mem l.src
  else s.bandTry mem l.src l.emptyOk

/-- The checks that are over by now end, in the order in which they began. -/
def Dev.loadsOver (s : Dev) (mem : List Host.Cell) : Dev :=
  (s.clk.loading.filter fun l => decide (l.endMt ≤ s.mt)).foldl (Dev.loadEnd mem) { s with clk := { s.clk with loading := s.clk.loading.filter fun l => !decide (l.endMt ≤ s.mt) } }

/-- The frames under span interleaving that have arrived by now (R389), an UPDATE body of theirs handed to the update service. -/
def Dev.framesOver (s : Dev) (mem : List Host.Cell) : Dev × List Host.Cell :=
  (s.plc.arriving.filter fun a => decide (a.endMt ≤ s.mt)).foldl (fun (r : Dev × List Host.Cell) a =>
      let q := r.1.arrived a
      match q.2 with
      | some (src, body) => q.1.updateIn r.2 src body
      | none => (q.1, r.2))
    ({ s with plc := { s.plc with arriving := s.plc.arriving.filter fun a => !decide (a.endMt ≤ s.mt) } }, mem)

/-- The idle step: a tick of meter time, and what ends at it. -/
def State.idleStep (s : State) : State :=
  let t := s.idle
  if t.mainOn then
    let r := (((t.toDev.pauseOver t.mem).loadsOver t.mem).stimOver.buttonsOver.floorOver.planDue.plcLevels).framesOver t.mem
    { t with toDev := r.1, mem := r.2 }
  else t

end Sys2Proof.Machine
end

