-- ==== Sys2Proof/Safety.lean ====
section
/-! DEFINITION. What a safe step is, in the terms the statements use: every command of the block has an effect, so a step answers a next state; the canonical forms that every step is to keep; a write that lands; and what a raised event may touch. -/

namespace Sys2Proof.Safety

open Sys2Proof.Machine

/-- The step at `s` answers a next state. -/
def steps (s : State) : Prop := ∃ t, step s = .next t

/-- The command `c` completes at `s`: `exec` answers a next state, and it has the effect `P`. -/
def completes (c : Instr) (s : State) (P : State → Prop) : Prop := ∃ t, exec c s = .next t ∧ P t

/-- The byte memory is in its canonical form. -/
def memOk (s : State) : Prop := Memory.wf s.mem = true

/-- The register file is in its canonical form: addresses rise, no register is listed at its reset value. -/
def regsOk (s : State) : Prop := Store.wf regReset s.regs = true

/-- A write to the register at `a` lands: the main domain is up and the page's island is clocked (R52, R80). -/
def lands (s : State) (a : Nat) : Prop := s.mainOn = true ∧ s.islRun (pageOf a) = true

/-- The registers that a raised event may change besides what its command writes (R73, R83): RAW words, the split counters (R483), the capture page (R235–R240) and the journal's head (R281). -/
def eventReg (a : Nat) : Bool := a % 0x1000 == 0x10 || pageOf a == Pg.SPLIT || pageOf a == Pg.CAP || a == Fld.BILL_JHEAD_SEQ.addr

/-- From `s` to `t` only what raised events may change has changed: the registers of `eventReg`, the capture store, the journal and the fast trips. -/
def eventsOnly (s t : Dev) : Prop :=
  (∀ a, eventReg a = false → t.rd a = s.rd a) ∧
  ∃ regs cap journal jnext jseq trips, t = { s with
    regs := regs
    cap := cap
    bill := { s.bill with journal := journal, jnext := jnext, img := { s.bill.img with jseq := jseq } }
    disc := { s.disc with trips := trips } }

/-- Memory and the waiting commands are as before. -/
def keepsQueue (s t : State) : Prop := t.mem = s.mem ∧ t.pending = s.pending

/-- A frame addressed to this node or to all, whose frame control passes steps 1, 2 and 5 of R382. -/
def frameHere (s : Dev) (rx : RxInfo) (b : List Byte) : Prop :=
  s.plcMayRx = true ∧ s.plcSends = false ∧ s.lineHeard rx = true ∧ fcGood rx b = true ∧ (FC.ofBytes b).planId = s.get Fld.PLCPHY_BP_INFO_PLAN_ID ∧ (s.plcMine (FC.ofBytes b).dst = true ∨ (FC.ofBytes b).dst = 0xFFF)

/-- A payload in robust mode that passes steps 4, 6 and 7 of R382, with no injection armed. -/
def payloadGood (s : Dev) (rx : RxInfo) (b p : List Byte) : Prop :=
  0 < (FC.ofBytes b).len ∧ (FC.ofBytes b).len ≤ 2048 ∧ (FC.ofBytes b).tmi = 0 ∧ s.injArmed Pg.PLCPHY 0 = false ∧ rx.decoded = true ∧ crcGood p = true ∧ p.length = 16 * (FC.ofBytes b).len

/-- The write that a command is: its master, address and word; none for a command that is no register write of its own row. -/
def writeOf (c : Instr) : Option (Nat × Nat × Word) :=
  match c with
  | .pfCfgWrite m v _ => some (m, Reg.PWR_PF_CFG, v)
  | .wdtConfigWrite m v _ => some (m, Reg.SYS_WDT, v)
  | .wdtKick m v => some (m, Reg.SYS_WDT_KICK, v)
  | .softwareReset m v => some (m, Reg.SYS_RESET, v)
  | .enterQuiet m v => some (m, Reg.PWR_CTRL, v)
  | .shutdown m v => some (m, Reg.SYS_SHUTDOWN, v)
  | .temperatureTableLoad m v => some (m, Reg.UCH_TT_LOAD, v)
  | .tariffTableLoad m v => some (m, Reg.TARIFF_LOAD, v)
  | .sequenceTableLoad m v => some (m, Reg.DISC_LOAD, v)
  | .displayTableLoad m v => some (m, Reg.DISP_LOAD, v)
  | .bandPlanLoad m v => some (m, Reg.PLCPHY_BP_LOAD, v)
  | .rselWrite m heat v => some (m, (Reg.HEAT_RSEL heat), v)
  | .isoWrite m block v => some (m, (if block < 12 then Reg.HEAT_ISO block else Reg.UGRP_ISO), v)
  | .applyPush m block v => some (m, (if block < 12 then Reg.HEAT_APPLY block else Reg.UGRP_APPLY), v)
  | .laneEnableWrite m block v => some (m, (if block < 12 then Reg.HEAT_LANE_EN block else Reg.UGRP_CH_EN), v)
  | .calMeasureStart m v => some (m, Reg.UCH_CALM_CTRL, v)
  | .gunFire m v => some (m, Reg.SYS_GUN, v)
  | .frameConfigWrite m g amin v => some (m, (if amin then Reg.FRAME_VG_AMIN g else Reg.FRAME_VG_CFG g), v)
  | .pulseCalEnter m v => some (m, Reg.PULSE_CTRL, v)
  | .pulseCalExit m v => some (m, Reg.PULSE_CTRL, v)
  | .pulseConfigWrite m ch konst v => some (m, (if konst then Reg.PULSE_CH_CONST ch else Reg.PULSE_CH_CFG ch), v)
  | .captureClear m v => some (m, Reg.CAP_CTRL, v)
  | .captureRecordLock m v => some (m, Reg.CAP_RECCTL, v)
  | .captureRecordUnlock m v => some (m, Reg.CAP_RECCTL, v)
  | .captureRecordDelete m v => some (m, Reg.CAP_RECCTL, v)
  | .eyeletRescan m v => some (m, Reg.EYE_CMD, v)
  | .eyeletXfer m v _ _ => some (m, Reg.EYE_CMD, v)
  | .bindingWrite m b v => some (m, (Reg.BILL_BP_CFG b), v)
  | .demandSchemeWrite m v => some (m, Reg.BILL_DEMAND, v)
  | .billCommitNow m v => some (m, Reg.BILL_CMD, v)
  | .billManualSnapshot m v => some (m, Reg.BILL_CMD, v)
  | .registerSelect m v => some (m, Reg.BILL_RSEL, v)
  | .tokenCheck m v => some (m, Reg.PREPAY_TCMD, v)
  | .prepayArm m v => some (m, Reg.PREPAY_CMD, v)
  | .prepayAcceptEc m v => some (m, Reg.PREPAY_CMD, v)
  | .prepayDisarm m v => some (m, Reg.PREPAY_CMD, v)
  | .discOpen m v => some (m, Reg.DISC_CMD, v)
  | .discClose m v => some (m, Reg.DISC_CMD, v)
  | .discDisarm m v => some (m, Reg.DISC_CMD, v)
  | .dpConfigWrite m n v => some (m, (Reg.DISC_DP_CFG n), v)
  | .dispNext m v => some (m, Reg.DISP_CMD, v)
  | .dispSelect m v => some (m, Reg.DISP_CMD, v)
  | .dispResume m v => some (m, Reg.DISP_CMD, v)
  | .stickyClear m v _ => some (m, Reg.TAMP_STICKY, v)
  | .secAuth m v => some (m, Reg.SEC_CMD, v)
  | .secClose m v => some (m, Reg.SEC_CMD, v)
  | .secInstall m v => some (m, Reg.SEC_CMD, v)
  | .secSeal m v => some (m, Reg.SEC_CMD, v)
  | .secUnseal m v => some (m, Reg.SEC_CMD, v)
  | .secLoadToken m v => some (m, Reg.SEC_CMD, v)
  | .secLoadLink m v => some (m, Reg.SEC_CMD, v)
  | .secFuse m v _ => some (m, Reg.SEC_CMD, v)
  | .secEraseTest m v => some (m, Reg.SEC_CMD, v)
  | .rtcSet m v _ => some (m, Reg.RTC_CMD, v)
  | .rtcShift m v _ => some (m, Reg.RTC_CMD, v)
  | .rateStart m v => some (m, Reg.RTC_CMD, v)
  | .rateStop m v => some (m, Reg.RTC_CMD, v)
  | .trimWrite m v => some (m, Reg.RTC_TRIM, v)
  | .osfClear m v => some (m, Reg.RTC_STAT, v)
  | .ntSet m v => some (m, Reg.MESH_NT_SET, v)
  | .meshJoin m v => some (m, Reg.MESH_CMD, v)
  | .meshLeave m v => some (m, Reg.MESH_CMD, v)
  | .meshAdvertise m v => some (m, Reg.MESH_CMD, v)
  | .meshConfigWrite m v => some (m, Reg.MESH_CFG, v)
  | .routeQuery m v => some (m, Reg.MESH_RQ, v)
  | .updActivate m v _ => some (m, Reg.UPD_CMD, v)
  | .updDiscard m v => some (m, Reg.UPD_CMD, v)
  | .updConfirm m v => some (m, Reg.UPD_CONFIRM, v)
  | .batonRelease m v => some (m, Reg.UPD_BATON_CTL, v)
  | .flashErase m v => some (m, Reg.FLASH_PCMD, v)
  | .flashProgram m v => some (m, Reg.FLASH_PCMD, v)
  | .splitSelect m n v => some (m, (Reg.SPLIT_SEL n), v)
  | .splitLatch m v => some (m, Reg.SPLIT_LATCH, v)
  | .doorbellSet m v => some (m, Reg.INTC_DBELL_SET, v)
  | .ethTxKick m v => some (m, Reg.ETH_TXKICK, v)
  | .mdioAccess m v => some (m, Reg.ETH_MDIO, v)
  | _ => none

/-- The key of a register whose every write needs it (RWK, R4). -/
def keyAt (a : Nat) : Option Nat :=
  if a = Reg.BILL_CMD then some 0x5B else if a = Reg.DISC_CMD then some 0xD5 else if a = Reg.DISP_CMD then some 0x4D else if a = Reg.EYE_CMD then some 0x6E
  else if a = Reg.FLASH_PCMD then some 0x8F else if a = Reg.SYS_GUN then some 0x47 else if a = Reg.CAP_RECCTL then some 0x3A else if a = Reg.MESH_CMD then some 0x4E
  else if a = Reg.SYS_WDT then some 0x3C else if a = Reg.SYS_WDT_KICK then some 0xE1 else if a = Reg.SYS_RESET then some 0xC3 else if a = Reg.SYS_SHUTDOWN then some 0x96
  else if a = Reg.PREPAY_TCMD then some 0x9D else if a = Reg.PREPAY_CMD then some 0x9E else if a = Reg.PULSE_CTRL then some 0x7C else if a = Reg.RTC_TRIM then some 0x2B
  else if a = Reg.SEC_CMD then some 0xA9 else if a = Reg.UPD_CMD then some 0x75 else if a = Reg.UPD_CONFIRM then some 0xC5 else if a = Reg.UPD_BATON_CTL then some 0x3B else none

/-- The commands that act on the device whether or not the main domain runs: its supplies, resets and release, the tamper inputs, the pins, and the clock of the backup domain. -/
def withoutMain (c : Instr) : Bool :=
  match c with
  | .undervoltageLockout | .backupSwitchTransition .. | .backupDomainLoss | .backupDomainPowerUp .. | .clockFailure | .pinReset | .caseTamper .. | .laceBurst .. | .laceRetry ..
  | .gpioEdge .. | .xtalOk | .vsupRiseStart .. | .overtempRelease .. | .internalResetRelease .. | .rtcSecondTick | .alarmPulseEnd .. | .shiftComplete | .crystalStop | .crystalResume | .evinEdge .. => true
  | _ => false

/-- The commands that may store to the byte memory. -/
def stores (c : Instr) : Bool :=
  match c with
  | .vsupRiseStart .. | .overtempRelease .. | .internalResetRelease .. | .registerWrite .. | .flashOpDone .. | .debugWrite .. | .spiWrite .. | .spiBurstWrite .. | .spiAbort .. | .dataFrame .. | .blockMsg ..
  | .chainFrameReceive .. | .ethTxDone .. | .ethFrameReceive .. | .sliceEnd .. | .sliceTimeout => true
  | _ => false

/-- The commands of the powerline, the mesh and network time. -/
def lineFamily (c : Instr) : Bool :=
  match c with
  | .frameTransmit .. | .ackTimeout | .ackFrame .. | .soundFrame .. | .tonemapFrame .. | .beaconFrame .. | .rxMapHoldExpiry .. | .tonemapRefreshPeriod .. | .beaconTimer | .neighbourAgedOut ..
  | .advertisementTimer | .triggeredAdvertisement | .advMsg .. | .joinReq .. | .joinResp .. | .leaveMsg .. | .timeMsg .. | .joinListenEnd | .joinTimeout | .routeExpiry .. | .ntHoldover | .ntLoss | .ntSet ..
  | .meshJoin .. | .meshLeave .. | .meshAdvertise .. | .meshConfigWrite .. | .routeQuery .. => true
  | _ => false

/-- The commands of the doorbell, the UARTs, the Ethernet MAC and the pins. -/
def serialFamily (c : Instr) : Bool :=
  match c with
  | .doorbellSet .. | .uartDataWrite .. | .uartRxByte .. | .uartByteTransmitted .. | .ethTxKick .. | .ethTxDone .. | .ethFrameReceive .. | .mdioAccess .. | .mdioDone .. => true
  | _ => false

/-- The commands of the key store. -/
def keyFamily (c : Instr) : Bool :=
  match c with
  | .nonceDraw .. | .secAuth .. | .secClose .. | .secInstall .. | .secSeal .. | .secLoadToken .. | .secLoadLink .. | .secEraseTest .. | .sessionExpiry | .secOperationEnded => true
  | _ => false

/-- The commands of the bundle service that only receive. -/
def bundleFamily (c : Instr) : Bool :=
  match c with
  | .offerMsg .. | .needMsg .. | .blockMsg .. | .haveMsg .. | .updateOfferTimer | .needRetryTimer | .updDiscard .. => true
  | _ => false

end Sys2Proof.Safety
end

