-- ==== Sys2Proof/Certificates/Slice0/Obligations.lean ====
section
/-! DEFINITION. The statements for the provers. Every command of the opcode table completes somewhere: for each family one statement says so for the conditions on the state and the operands alone, with what the next state holds; the statements at the end are about the step, the state at reset, invariants of every step, frames, and rules of the spec stated whole. -/

open Sys2Proof Sys2Proof.Machine Sys2Proof.Safety

/-- R30, R31, R47, R53: the supplies and the backup domain. Main power lost leaves BACKUP ONLY with MT at 0 and MRAM, the owner key and, where no fuse was being programmed, OTP kept; the backup switch moves by its two comparisons and counts its moves; a lost backup domain keeps neither time nor owner key; one that powers up again has OSF set and no lace register at 0; a rise of VSUP with TEST_N low waits in reset, and with BOOT0 high ends in recovery with the Starter alone running. -/
def Obligations.SupplyCommandsComplete : Prop :=
  (∀ s : State, s.mainPower = true → completes .undervoltageLockout s fun t =>
    keepsQueue s t ∧ t.power.st = .backupOnly ∧ t.mainOn = false ∧ t.mt = 0 ∧ t.mram = s.mram ∧ (s.sec.fusing = [] → t.otp = s.otp) ∧ t.sec.okey = s.sec.okey) ∧
  (∀ (s : State) (v3 vb : Nat), s.power.bkpAlive = true → completes (.backupSwitchTransition v3 vb) s fun t =>
    keepsQueue s t ∧ t.power.v3v3Mv = v3 ∧ t.power.vbatMv = vb ∧
    t.on Fld.RTC_VBAT_ON_VBAT = (if s.on Fld.RTC_VBAT_ON_VBAT then !decide (2850 < v3 ∧ vb + 100 < v3) else decide (v3 < 2700 ∨ v3 + 50 < vb)) ∧
    (t.on Fld.RTC_VBAT_ON_VBAT ≠ s.on Fld.RTC_VBAT_ON_VBAT → s.get Fld.RTC_VBAT_SWITCHES < 255 → t.get Fld.RTC_VBAT_SWITCHES = s.get Fld.RTC_VBAT_SWITCHES + 1) ∧
    (∀ a, a ≠ Reg.RTC_VBAT → eventReg a = false → t.rd a = s.rd a) ∧ t.rtc = s.rtc ∧ t.sec = s.sec ∧ t.mram = s.mram) ∧
  (∀ s : State, completes .backupDomainLoss s fun t =>
    keepsQueue s t ∧ t.power.bkpAlive = false ∧ t.power.st = s.power.st ∧ t.rtc = {} ∧ t.sec.okey = none ∧ t.sec.fails = 0 ∧ t.mt = s.mt ∧ t.mram = s.mram ∧ t.otp = s.otp) ∧
  (∀ (s : State) (seed : Nat), s.power.bkpAlive = false → completes (.backupDomainPowerUp seed) s fun t =>
    keepsQueue s t ∧ t.power.bkpAlive = true ∧ t.power.bkpLost = true ∧ t.on Fld.RTC_STAT_OSF = true ∧ t.sec.okey = none ∧
    t.tamp.lfsr.length = 4 ∧ (∀ x ∈ t.tamp.lfsr, 0 < x ∧ x < 2 ^ 15) ∧ t.mram = s.mram ∧ t.otp = s.otp) ∧
  (∀ (s : State) (boot1 boot0 : Bool) (vsupMv bad : Nat), s.power.st = .backupOnly → s.power.hold = .none → s.clk.xtal = true →
    completes (.vsupRiseStart boot1 boot0 false vsupMv bad) s fun t => keepsQueue s t ∧ t.power.st = .reset ∧ t.power.hold = .testN ∧ t.mainOn = false) ∧
  (∀ (s : State) (boot1 : Bool) (vsupMv bad : Nat), s.power.st = .backupOnly → s.power.por = true → s.clk.xtal = true →
    completes (.vsupRiseStart boot1 true true vsupMv bad) s fun t =>
      t.pending = s.pending ∧ t.mem = memWipe s.mem s.power.lost ∧ t.power.st = .start ∧ t.mainOn = true ∧ t.get Fld.UPD_ENG_RUN = 1 ∧ t.on (Fld.UART_CTRL_CHAIN 1) = true)

/-- R29, R32, R33, R53, R57, R58: the warning and HOLDUP. A valid write of PWR.PF_CFG sets the threshold and arms the warning, a refused one leaves the register and sets CFGERR; a warning enters HOLDUP and stamps its edge, and so does the over-temperature shutdown; the commit freezes billing; a clearing in HOLDUP after RUN goes to RIDE-THROUGH; the timeout resets and holds the device for VSUP; ride-through ends in QUIET or RUN; the device held by over-temperature starts again. -/
def Obligations.PowerFailCommandsComplete : Prop :=
  (∀ (s : State) (m : Nat) (v : Word) (mv : Nat), lands s Reg.PWR_PF_CFG → bitsOf v 7 0 ≤ 245 → 5500 + 100 * bitsOf v 7 0 + 1000 ≤ mv →
    completes (.pfCfgWrite m v mv) s fun t => keepsQueue s t ∧ t.get Fld.PWR_PF_CFG_THR = bitsOf v 7 0 ∧ t.get Fld.PWR_PF_CFG_FILT = bitsOf v 9 8 ∧ t.on Fld.PWR_PF_CFG_ARMED = true ∧
      (∀ a, a ≠ Reg.PWR_PF_CFG → a ≠ Reg.PWR_VSUP_MEAS → t.rd a = s.rd a)) ∧
  (∀ (s : State) (m : Nat) (v : Word) (mv : Nat), lands s Reg.PWR_PF_CFG → (245 < bitsOf v 7 0 ∨ mv < 5500 + 100 * bitsOf v 7 0 + 1000) →
    completes (.pfCfgWrite m v mv) s fun t => keepsQueue s t ∧ t.rd Reg.PWR_PF_CFG = s.rd Reg.PWR_PF_CFG ∧ t.on (Hdr.CFGERR Pg.PWR) = true) ∧
  (∀ (s : State) (mv : Nat), s.mainOn = true → s.power.st ≠ .holdup → s.warned = false → s.on Fld.PWR_PF_CFG_ARMED = true → mv < 5500 + 100 * s.get Fld.PWR_PF_CFG_THR →
    completes (.powerFailWarning mv) s fun t => keepsQueue s t ∧ t.power.st = .holdup ∧ t.power.before = (if s.power.st = .rideThrough then s.power.before else s.power.st) ∧
      t.power.edgeMt = s.mt ∧ t.on Fld.PWR_PF_STAT_WARN = true ∧ t.get64 Reg.PWR_PF_MT_LO Reg.PWR_PF_MT_HI = s.mt % 2 ^ 64) ∧
  (∀ (s : State) (ok1 ok2 : Bool), s.power.st = .holdup → s.bill.frozen = false → s.power.commitSkipped = false → s.power.byOvertemp = false → s.published = true →
    s.pfWaits = false → (s.power.before ≠ .shutdownTest ∨ s.warned = true) →
    completes (.powerFailCommit ok1 ok2) s fun t => keepsQueue s t ∧ t.bill.frozen = true ∧ t.power = { s.power with startFrom := t.power.startFrom }) ∧
  (∀ (s : State) (mv : Nat), s.power.st = .holdup → s.warned = true → s.power.byOvertemp = false → s.power.before = .run → 5500 + 100 * s.get Fld.PWR_PF_CFG_THR + 500 < mv →
    completes (.powerFailWarningClear mv) s fun t => keepsQueue s t ∧ t.power.st = .rideThrough ∧ t.power.before = .run) ∧
  (∀ s : State, s.power.st = .holdup → s.warned = true → s.power.byOvertemp = false →
    completes .powerFailTimeout s fun t => keepsQueue s t ∧ t.power.st = .reset ∧ t.power.hold = .vsup ∧ t.mainOn = false ∧ t.meter.holdup = []) ∧
  (∀ s : State, s.power.st = .rideThrough → s.rideDone = true →
    completes .rideThroughComplete s fun t => keepsQueue s t ∧ t.power.st = (if s.power.before = .quiet then .quiet else .run)) ∧
  (∀ (s : State) (b : Nat), s.power.st = .run → b < 13 →
    completes (.overtempShutdown b) s fun t => keepsQueue s t ∧ t.power.st = .holdup ∧ t.power.byOvertemp = true ∧ t.power.before = .run) ∧
  (∀ (s : State) (boot1 boot0 : Bool) (mv bad : Nat), s.power.st = .reset → s.clk.xtal = true → s.power.hold = .overtemp →
    completes (.overtempRelease boot1 boot0 true mv bad) s fun t => t.pending = s.pending ∧ t.mainOn = true ∧ t.power.hold = .none ∧
      ∀ a, volatileAddr true a = false → Memory.read t.mem a = Memory.read s.mem a)

/-- R43, R45, R46, R50, R51: the clock monitor, the causes of reset, the watchdog and the pre-reset commit. -/
def Obligations.ResetCommandsComplete : Prop :=
  (∀ s : State, s.mainOn = true → s.clk.onRc = false → s.power.pending = none → completes .clockFailure s fun t =>
    keepsQueue s t ∧ t.clk.onRc = true ∧ t.on Fld.CLK_STAT_FAIL = true ∧ t.on Fld.CLK_STAT_XTAL_OK = false ∧
    t.power = { s.power with pending := some .clkFail, causeMt := s.mt } ∧ (∀ a, a ≠ Reg.CLK_STAT → eventReg a = false → t.rd a = s.rd a)) ∧
  (∀ s : State, s.mainPower = true → exec .xtalOk s = .next { s with toDev := { s.toDev with clk := { s.clk with xtal := true } } }) ∧
  (∀ s : State, s.mainOn = true → s.power.pending = none →
    exec .pinReset s = .next { s with toDev := s.toDev.powUpd fun (w : Power) => { w with pinLow := true, pending := some .pin, causeMt := s.mt } }) ∧
  (∀ s : State, s.mainOn = true → s.wdtOn = true → completes .watchdogHalf s fun t =>
    keepsQueue s t ∧ eventsOnly { s.toDev with clk := { s.clk with wdtMs := s.get Fld.SYS_WDT_TIMEOUT / 2 } } t.toDev ∧ natBit (t.get (Hdr.RAW Pg.SYS)) 1 = true) ∧
  (∀ s : State, s.mainOn = true → s.wdtOn = true → s.power.pending = none →
    exec .watchdogTimeout s = .next { s with toDev := { s.toDev with clk := { s.clk with wdtMs := s.get Fld.SYS_WDT_TIMEOUT }, power := { s.power with pending := some .wdt, causeMt := s.mt } } }) ∧
  (∀ (s : State) (m : Nat) (v : Word) (rom : Bool), lands s Reg.SYS_WDT → keyOf v = 0x3C → 100 ≤ bitsOf v 15 0 → bitsOf v 15 0 ≤ 60000 →
    completes (.wdtConfigWrite m v rom) s fun t => keepsQueue s t ∧ t.get Fld.SYS_WDT_TIMEOUT = bitsOf v 15 0 ∧
      t.on Fld.SYS_WDT_EN = (bitAt v 16 || (s.on Fld.SYS_WDT_EN && !rom)) ∧ ∀ a, a ≠ Reg.SYS_WDT → t.rd a = s.rd a) ∧
  (∀ (s : State) (m : Nat) (v : Word) (rom : Bool), lands s Reg.SYS_WDT → keyOf v = 0x3C → (bitsOf v 15 0 < 100 ∨ 60000 < bitsOf v 15 0) →
    exec (.wdtConfigWrite m v rom) s = .next { s with toDev := s.toDev.cfgErr Pg.SYS }) ∧
  (∀ (s : State) (m : Nat) (v : Word), lands s Reg.SYS_WDT_KICK → keyOf v = 0xE1 → bitAt v 0 = true →
    exec (.wdtKick m v) s = .next { s with toDev := { s.toDev with clk := { s.clk with wdtMs := 0 } } }) ∧
  (∀ (s : State) (m : Nat) (v : Word), lands s Reg.SYS_WDT_KICK → ¬ (keyOf v = 0xE1 ∧ bitAt v 0 = true) →
    exec (.wdtKick m v) s = .next { s with toDev := s.toDev.lockErr Pg.SYS }) ∧
  (∀ (s : State) (m : Nat) (v : Word), lands s Reg.SYS_RESET → keyOf v = 0xC3 → bitAt v 0 = true → s.power.pending = none →
    exec (.softwareReset m v) s = .next { s with toDev := s.toDev.powUpd fun (w : Power) => { w with pending := some .sw, causeMt := s.mt } }) ∧
  (∀ (s : State) (ok1 ok2 : Bool) (k : ResetKind), s.mainOn = true → s.power.pending = some k → completes (.preResetCommitDone ok1 ok2) s fun t =>
    keepsQueue s t ∧ t.power.st = .reset ∧ t.power.pending = none ∧ t.mainOn = false ∧ t.mt = s.mt ∧ (s.sec.fusing = [] → s.upd.floorGo = none → t.otp = s.otp) ∧ t.sec.okey = s.sec.okey ∧
    (k.cause < 18 → t.on ⟨Reg.SYS_RST_CAUSE, k.cause, k.cause⟩ = true)) ∧
  (∀ (s : State) (k : ResetKind), s.mainOn = true → s.power.pending = some k → completes .preResetCommitTimeout s fun t =>
    keepsQueue s t ∧ t.power.st = .reset ∧ t.power.pending = none ∧ t.mainOn = false ∧ t.mt = s.mt ∧ t.mram = s.mram ∧ (s.sec.fusing = [] → s.upd.floorGo = none → t.otp = s.otp) ∧
    (k.cause < 18 → t.on ⟨Reg.SYS_RST_CAUSE, k.cause, k.cause⟩ = true))

/-- R46, R53, R54, R55, R63, R64: a released reset starts the device; QUIET is entered from RUN and left by an enabled wake source; an orderly shutdown stops the groups first. -/
def Obligations.PowerStateCommandsComplete : Prop :=
  (∀ (s : State) (boot1 boot0 : Bool) (mv bad : Nat), s.power.st = .reset → s.clk.xtal = true → s.releasable mv = true →
    completes (.internalResetRelease boot1 boot0 true mv bad) s fun t => t.pending = s.pending ∧ t.mainOn = true ∧ t.power.hold = .none ∧
      ∀ a, volatileAddr true a = false → Memory.read t.mem a = Memory.read s.mem a) ∧
  (∀ (s : State) (boot1 boot0 testN : Bool) (mv bad : Nat), s.power.st ≠ .reset → exec (.internalResetRelease boot1 boot0 testN mv bad) s = .next s) ∧
  (∀ (s : State) (m : Nat) (v : Word), lands s Reg.PWR_CTRL → bitAt v 0 = true → s.power.st = .run → completes (.enterQuiet m v) s fun t =>
    keepsQueue s t ∧ t.power = { s.power with st := .quiet } ∧ t.on Fld.PWR_CTRL_QUIET = true ∧ t.get Fld.PWR_STATE_STATE = 2) ∧
  (∀ (s : State) (m : Nat) (v : Word), lands s Reg.PWR_CTRL → bitAt v 0 = true → s.power.st ≠ .run →
    exec (.enterQuiet m v) s = .next { s with toDev := s.toDev.cfgErr Pg.PWR }) ∧
  (∀ (s : State) (src : Nat), s.power.st = .quiet → src < 8 → bitAt (s.rd Reg.PWR_WAKE) src = true →
    (src ≠ 0 ∨ ∃ k, k < 2 ∧ s.on (almStat k) = true ∧ s.on (Fld.RTC_ALM_CFG_WAKE k) = true) → completes (.wakeFromQuiet src) s fun t =>
    keepsQueue s t ∧ t.power = { s.power with st := .run }) ∧
  (∀ (s : State) (m : Nat) (v : Word) (g : Nat), lands s Reg.SYS_SHUTDOWN → keyOf v = 0x96 → bitAt v 0 = true → s.power.st = .run → s.warned = false → s.discBusy = false →
    g < 4 → s.framing g = true → completes (.shutdown m v) s fun t =>
      keepsQueue s t ∧ t.power = { s.power with st := .shutdownTest, shutStage := 1 } ∧ t.on Fld.SYS_SHUTDOWN_TEST = bitAt v 1 ∧ t.on Fld.SYS_SHUTDOWN_EXIT = bitAt v 2) ∧
  (∀ (s : State) (m : Nat) (v : Word), lands s Reg.SYS_SHUTDOWN → keyOf v = 0x96 → bitAt v 0 = true → (s.warned = true ∨ s.discBusy = true ∨ (s.power.st ≠ .run ∧ s.power.st ≠ .quiet)) →
    exec (.shutdown m v) s = .next { s with toDev := s.toDev.cfgErr Pg.SYS })

/-- R48, R73–R77: the page header. A soft reset puts a page's block registers back and leaves other pages alone, where the page may be reset; EN and FREEZE are set and cleared, a page that cannot stop refuses; the 1 ms limit lifts a freeze; interrupt bits clear by 1 and no other; injection is armed with its key, its session and a defined detector; PG_LOCK locks. -/
def Obligations.PageHeaderCommandsComplete : Prop :=
  (∀ (s : State) (m p : Nat), regsOk s → s.mainOn = true → s.islIso p = false → (p = Pg.INTC ∨ p = Pg.SPLIT ∨ p = Pg.GPIO) → completes (.pageSoftReset m p) s fun t =>
    keepsQueue s t ∧ (∀ a, pageOf a = p → 0x40 ≤ a % 0x1000 → t.rd a = regReset a) ∧ (∀ a, pageOf a ≠ p → t.rd a = s.rd a) ∧ t.on (Hdr.FREEZE p) = false ∧ t.on (Hdr.INJ_ARM p) = false) ∧
  (∀ (s : State) (m p : Nat), s.mainOn = true → s.islIso p = false → p < 0x3E → srstBarred p = true →
    exec (.pageSoftReset m p) s = .next { s with toDev := s.toDev.cfgErr p }) ∧
  (∀ (s : State) (m p : Nat) (v : Word), s.mainOn = true → s.islIso p = false → p < 0x3E → (p = Pg.SPLIT ∨ p = Pg.INTC ∨ (0x2E ≤ p ∧ p ≤ 0x35) ∨ (0x37 ≤ p ∧ p ≤ 0x3D)) →
    bitAt v 0 = true → bitAt v 1 = false → bitAt v 2 = false → completes (.pageEnableWrite m p v) s fun t =>
      keepsQueue s t ∧ t.on (Hdr.EN p) = true ∧ t.on (Hdr.FREEZE p) = false ∧ lookup t.bus.frozen p = none ∧ (∀ a, a ≠ pageBase p + 8 → t.rd a = s.rd a)) ∧
  (∀ (s : State) (m p : Nat) (v : Word), s.mainOn = true → s.islIso p = false → p < 0x3E → s.on (Hdr.EN p) = bitAt v 0 → bitAt v 1 = false → bitAt v 2 = true →
    lookup s.bus.frozen p = none → completes (.pageEnableWrite m p v) s fun t =>
      keepsQueue s t ∧ t.on (Hdr.FREEZE p) = true ∧ lookup t.bus.frozenMt p = some s.mt ∧ lookup t.bus.frozen p = some ((freezable p).map fun a => (a, s.shownWord 0 a)) ∧
      (∀ a, a ≠ pageBase p + 8 → t.rd a = s.rd a)) ∧
  (∀ (s : State) (m p : Nat) (v : Word), s.mainOn = true → s.islIso p = false → p < 0x3E → s.on (Hdr.EN p) = true → s.offBarred p = true → bitAt v 0 = false → bitAt v 1 = false →
    completes (.pageEnableWrite m p v) s fun t => keepsQueue s t ∧ t.on (Hdr.EN p) = true ∧ t.on (Hdr.CFGERR p) = true ∧
      (unstoppable p = false → t.toDev = s.toDev.cfgErr p)) ∧
  (∀ (s : State) (p : Nat), s.mainOn = true → s.on (Hdr.FREEZE p) = true → completes (.freezeTimeout p) s fun t =>
    keepsQueue s t ∧ t.on (Hdr.FREEZE p) = false ∧ lookup t.bus.frozen p = none ∧ (∀ a, a ≠ pageBase p + 8 → t.rd a = s.rd a)) ∧
  (∀ (s : State) (m p : Nat) (v : Word), s.mainOn = true → s.islIso p = false → p < 0x3E → completes (.irqStatusClear m p v) s fun t =>
    keepsQueue s t ∧ (∀ i, i < 32 → natBit (t.get (Hdr.RAW p)) i = (natBit (s.get (Hdr.RAW p)) i && !bitAt v i)) ∧ (∀ a, a ≠ pageBase p + 0x10 → t.rd a = s.rd a)) ∧
  (∀ (s : State) (m p : Nat) (v : Word), s.mainOn = true → s.islIso p = false → p < 0x3E → p ≠ Pg.TAMP → p ≠ Pg.CAP → keyOf v = 0x5A → (sealPage p && s.isSealed) = false →
    (bitAt v 1 && !(s.session m && privMaster m)) = false → bitsOf v 15 8 ≠ 0 → s.injDefined p (bitsOf v 23 16) = true → completes (.injectionWrite m p v) s fun t =>
      keepsQueue s t ∧ t.rd (pageBase p + 0x1C) = v &&& 0x00FFFF03 ∧ (∀ a, a ≠ pageBase p + 0x1C → t.rd a = s.rd a)) ∧
  (∀ (s : State) (m p : Nat) (v : Word), s.mainOn = true → s.islIso p = false → p < 0x3E → (keyOf v ≠ 0x5A ∨ (sealPage p && s.isSealed) = true ∨ (bitAt v 1 && !(s.session m && privMaster m)) = true) →
    exec (.injectionWrite m p v) s = .next { s with toDev := s.toDev.lockErr p }) ∧
  (∀ (s : State) (m p : Nat) (v : Word), s.mainOn = true → s.islIso p = false → p < 0x3E → keyOf v = 0xA5 → bitAt v 0 = true →
    exec (.pageLock m p v) s = .next { s with toDev := s.toDev.set (Hdr.LOCK p) 1 })

/-- R3, R65, R69, R79–R81, R135, R495: the interconnect. A write to memory stores its bytes, least significant first, and nothing else; one that ends in a bus error stores nothing and is logged; a plain register takes its fields by their access codes; a discarded write leaves the queue and is reported by a FENCE read, which clears the report; a read that no island answers ends in TIMEOUT; reading a pair's low word latches the high one. -/
def Obligations.BusCommandsComplete : Prop :=
  (∀ (s : State) (m a size : Nat) (v : Word), s.mainOn = true → s.writeErr m a size = none → ¬ (0x40000000 ≤ a ∧ a < 0x40040000) → regionOf a ≠ some .result → completes (.registerWrite m a size v) s fun t =>
    t.toDev = s.toDev ∧ t.pending = s.pending ∧ (∀ b, b < a ∨ a + size ≤ b → Memory.read t.mem b = Memory.read s.mem b) ∧
    (∀ k, k < size → Memory.read t.mem (a + k) = BitVec.ofNat 8 (v.toNat / 256 ^ k))) ∧
  (∀ (s : State) (m a size : Nat) (v : Word), s.mainOn = true → s.writeErr m a size = none → regionOf a = some .result →
    exec (.registerWrite m a size v) s = .next { s with toDev := s.toDev.resultWrite (a - 0x20000000) (leBytes size v.toNat) }) ∧
  (∀ (s : State) (m a size kind : Nat) (v : Word), s.mainOn = true → a < 2 ^ 32 → m < 32 → kind < 4 → s.writeErr m a size = some kind → s.on Fld.SYS_BUSERR_INFO_VALID = false →
    completes (.registerWrite m a size v) s fun t => keepsQueue s t ∧ t.on Fld.SYS_BUSERR_INFO_VALID = true ∧ t.get Fld.SYS_BUSERR_ADDR_ADDR = a ∧
      t.get Fld.SYS_BUSERR_INFO_KIND = kind ∧ t.get Fld.SYS_BUSERR_INFO_MASTER = m ∧ t.on Fld.SYS_BUSERR_INFO_WRITE = true) ∧
  (∀ (s : State) (m a : Nat) (v : Word) (r : RegRow), s.mainOn = true → pageOf a = Pg.PLCMAC → 0x40 ≤ a % 0x1000 → s.writeErr m a 4 = none → s.islRun Pg.PLCMAC = true →
    findRow PageKind.plcmac.rows (a % 0x1000) = some r → r.key = 0 → s.frozenRwl Pg.PLCMAC = false → regOk .plcmac (a % 0x1000) (r.merge false (s.rd a) v) = true → 0x40000000 ≤ a →
    completes (.registerWrite m a 4 v) s fun t => keepsQueue s t ∧ t.rd a = r.merge false (s.rd a) v ∧ (∀ b, b ≠ a → t.rd b = s.rd b)) ∧
  (∀ (s : State) (m a : Nat), s.mainOn = true → completes (.postedWriteDiscard m a) s fun t =>
    keepsQueue s t ∧ t.bus.posted = s.bus.posted.filter (fun w => !(w.master == m && w.addr == a)) ∧
    ((∃ w ∈ s.bus.posted, w.master = m ∧ w.addr = a) → m ∈ t.bus.discard)) ∧
  (∀ (s : State) (m : Nat), s.mainOn = true → completes (.fenceRead m) s fun t =>
    keepsQueue s t ∧ (∀ w ∈ t.bus.posted, w.master ≠ m) ∧ m ∉ t.bus.discard ∧
    (m, Reg.SYS_FENCE, Answer.word (if m ∈ s.bus.discard ∨ (∃ w ∈ s.bus.posted, w.master = m) then 1 else 0)) ∈ t.bus.answers) ∧
  (∀ (s : State) (m a : Nat), s.mainOn = true → 0x40000000 ≤ a → pageOf a < 0x3E → (s.islIso (pageOf a) = true ∨ (0x40 ≤ a % 0x1000 ∧ s.islRun (pageOf a) = false)) →
    completes (.readTimeout m a) s fun t => keepsQueue s t ∧ t.on Fld.SYS_BUSERR_INFO_VALID = true ∧ (m, a, Answer.timeout) ∈ t.bus.answers) ∧
  (∀ (s : State) (m a h : Nat), s.mainOn = true → pairHigh a = some h → pageOf a < 0x3E → s.islIso (pageOf a) = false → s.islRun (pageOf a) = true → s.bus.posted = [] →
    completes (.latchedPairRead m a) s fun t =>
      keepsQueue s t ∧ t.regs = s.regs ∧ (⟨m, h, s.regWord m h⟩ : Latch) ∈ t.bus.latches ∧ (m, a, Answer.word (s.regWord m a)) ∈ t.bus.answers) ∧
  (∀ (s : State) (m : Nat), s.mainOn = true → s.islIso Pg.DRAM = false → s.islRun Pg.DRAM = true → s.bus.posted = [] → completes (.ringSeqRead m) s fun t =>
    keepsQueue s t ∧ t.regs = s.regs ∧ (⟨m, Reg.DRAM_RING_SLOT, s.regWord m Reg.DRAM_RING_SLOT⟩ : Latch) ∈ t.bus.latches ∧
    (m, Reg.DRAM_RING_SEQ, Answer.word (s.regWord m Reg.DRAM_RING_SEQ)) ∈ t.bus.answers)

/-- R84, R85: a table image is accepted exactly when its nine checks hold; the entries are then its COUNT slices of SIZE bytes, in order. -/
def Obligations.TableAcceptedIff : Prop :=
  ∀ (mem : List Host.Cell) (addr : Nat) (k : TblSpec),
    ((tblCheck mem addr k).1 = 0 ↔
      let h := Memory.readAll mem addr 16
      let n := leAt h 8 2
      let body := Memory.readAll mem (addr + 16) (n * k.esize)
      let es := (List.range n).map fun i => slice body (i * k.esize) k.esize
      leAt h 0 4 = 0x4C425447 ∧ leAt h 4 2 = k.type ∧ leAt h 6 2 / 256 = 1 ∧ leAt h 10 2 = k.esize ∧ 16 + n * k.esize ≤ k.area ∧ (n = 0 → k.emptyOk = true) ∧
      crc32 (h.take 12 ++ body) = leAt h 12 4 ∧ k.content es = true ∧ k.locked = false) ∧
    (tblCheck mem addr k).1 ≤ 9 ∧
    ((tblCheck mem addr k).1 = 0 → (tblCheck mem addr k).2.entries.length = (tblCheck mem addr k).2.count ∧ (tblCheck mem addr k).2.version = 1)

/-- R85–R87, R205, R303, R310, R374: the five loads. A GO puts the image into its check, which no other byte or register shows but LOADING, 1 from then on; a write without GO does nothing; a load of a table whose image is being checked is refused. The check's end: an accepted image comes into force with COUNT and VERSION shown (a tariff table waits for the next second, a band plan for the end of a frame on the line), a rejected one leaves the table in force and shows its reason with ERR. Every check whose end is reached ends. A load changes no byte of memory. How long a check takes is a free value, and it takes the address and the authentication of its GO (the model's choice, log 95). -/
def Obligations.TableLoadCommandsComplete : Prop :=
  (∀ (s : State) (m : Nat) (v : Word), lands s Reg.UCH_TT_LOAD → bitAt v 0 = true → s.tblBusy Reg.UCH_TBL_STAT = false → exec (.temperatureTableLoad m v) s = .next { s with
    toDev := { s.toDev with clk := { s.clk with loading := s.clk.loading ++ [⟨Reg.UCH_TBL_STAT, s.get Fld.UCH_TT_SRC_ADDR, s.mt + 1 + Config.checkTicks s.free, s.tblLocked Pg.UCH m, true⟩] }, free := s.free + 1 } }) ∧
  (∀ (s : State) (m : Nat) (v : Word), lands s Reg.TARIFF_LOAD → bitAt v 0 = true → s.tblBusy Reg.TARIFF_TBL_STAT = false → exec (.tariffTableLoad m v) s = .next { s with
    toDev := { s.toDev with clk := { s.clk with loading := s.clk.loading ++ [⟨Reg.TARIFF_TBL_STAT, s.get Fld.TARIFF_SRC_ADDR, s.mt + 1 + Config.checkTicks s.free, s.tblLocked Pg.TARIFF m, true⟩] }, free := s.free + 1 } }) ∧
  (∀ (s : State) (m : Nat) (v : Word), lands s Reg.DISC_LOAD → bitAt v 0 = true → s.tblBusy Reg.DISC_TBL_STAT = false → exec (.sequenceTableLoad m v) s = .next { s with
    toDev := { s.toDev with clk := { s.clk with loading := s.clk.loading ++ [⟨Reg.DISC_TBL_STAT, s.get Fld.DISC_SRC_ADDR, s.mt + 1 + Config.checkTicks s.free, false, true⟩] }, free := s.free + 1 } }) ∧
  (∀ (s : State) (m : Nat) (v : Word), lands s Reg.DISP_LOAD → bitAt v 0 = true → s.tblBusy Reg.DISP_TBL_STAT = false → exec (.displayTableLoad m v) s = .next { s with
    toDev := { s.toDev with clk := { s.clk with loading := s.clk.loading ++ [⟨Reg.DISP_TBL_STAT, s.get Fld.DISP_SRC_ADDR, s.mt + 1 + Config.checkTicks s.free, false, true⟩] }, free := s.free + 1 } }) ∧
  (∀ (s : State) (m : Nat) (v : Word), lands s Reg.PLCPHY_BP_LOAD → bitAt v 0 = true → (bitAt v 1 && !s.session m) = false → s.tblBusy Reg.PLCPHY_TBL_STAT = false → completes (.bandPlanLoad m v) s fun t =>
    keepsQueue s t ∧ t.on Fld.PLCPHY_BP_LOAD_OVERRIDE = bitAt v 1 ∧ t.clk.loading = s.clk.loading ++ [⟨Reg.PLCPHY_TBL_STAT, s.get Fld.PLCPHY_BP_SRC_ADDR, s.mt + 1 + Config.checkTicks s.free, false, bitAt v 1⟩] ∧
    t.plc = s.plc ∧ ∀ a, a ≠ Reg.PLCPHY_BP_LOAD → t.rd a = s.rd a) ∧
  (∀ (s : State) (m : Nat) (v : Word), bitAt v 0 = false → (lands s Reg.UCH_TT_LOAD → exec (.temperatureTableLoad m v) s = .next s) ∧ (lands s Reg.TARIFF_LOAD → exec (.tariffTableLoad m v) s = .next s) ∧
    (lands s Reg.DISC_LOAD → exec (.sequenceTableLoad m v) s = .next s) ∧ (lands s Reg.DISP_LOAD → exec (.displayTableLoad m v) s = .next s)) ∧
  (∀ (s : State) (m : Nat) (v : Word), bitAt v 0 = true → (lands s Reg.UCH_TT_LOAD → s.tblBusy Reg.UCH_TBL_STAT = true → exec (.temperatureTableLoad m v) s = .next { s with toDev := s.toDev.cfgErr Pg.UCH }) ∧
    (lands s Reg.TARIFF_LOAD → s.tblBusy Reg.TARIFF_TBL_STAT = true → exec (.tariffTableLoad m v) s = .next { s with toDev := s.toDev.cfgErr Pg.TARIFF }) ∧
    (lands s Reg.DISC_LOAD → s.tblBusy Reg.DISC_TBL_STAT = true → exec (.sequenceTableLoad m v) s = .next { s with toDev := s.toDev.cfgErr Pg.DISC }) ∧
    (lands s Reg.DISP_LOAD → s.tblBusy Reg.DISP_TBL_STAT = true → exec (.displayTableLoad m v) s = .next { s with toDev := s.toDev.cfgErr Pg.DISP }) ∧
    (lands s Reg.PLCPHY_BP_LOAD → (bitAt v 1 && !s.session m) = false → s.tblBusy Reg.PLCPHY_TBL_STAT = true → completes (.bandPlanLoad m v) s fun t => keepsQueue s t ∧ t.plc = s.plc ∧ t.clk = s.clk ∧ t.on (Hdr.CFGERR Pg.PLCPHY) = true)) ∧
  (∀ (s : State) (m : Nat) (v : Word), lands s Reg.PLCPHY_BP_LOAD → (bitAt v 1 && !s.session m) = true → exec (.bandPlanLoad m v) s = .next { s with toDev := s.toDev.lockErr Pg.PLCPHY }) ∧
  (∀ (s : Dev) (m a : Nat), tblStats.contains a = true → bitAt (s.shownWord m a) 2 = s.tblBusy a) ∧
  (∀ (s : Dev) (mem : List Host.Cell), (s.loadsOver mem).clk.loading = s.clk.loading.filter fun l => decide (s.mt < l.endMt)) ∧
  (∀ (s : Dev) (mem : List Host.Cell) (l : TblLoad), l.stat = Reg.UCH_TBL_STAT →
    let r := tblCheck mem l.src { type := 3, esize := 16, area := 4096, locked := l.locked, content := tempContent }
    let t := Dev.loadEnd mem s l
    (r.1 = 0 → t.temps = r.2.entries.map tempEntry ∧ t.get ⟨Reg.UCH_TBL_STAT, 31, 16⟩ = r.2.count % 2 ^ 16 ∧ t.get ⟨Reg.UCH_TBL_STAT, 15, 8⟩ = r.2.version % 2 ^ 8 ∧ ∀ a, a ≠ Reg.UCH_TBL_STAT → t.rd a = s.rd a) ∧
    (r.1 ≠ 0 → t.temps = s.temps ∧ t.get ⟨Reg.UCH_TBL_STAT, 7, 4⟩ = r.1 ∧ t.on ⟨Reg.UCH_TBL_STAT, 3, 3⟩ = true)) ∧
  (∀ (s : Dev) (mem : List Host.Cell) (l : TblLoad), l.stat = Reg.TARIFF_TBL_STAT →
    let r := tblCheck mem l.src { type := 1, esize := 32, area := 16384, locked := l.locked, content := tarContent }
    let t := Dev.loadEnd mem s l
    (r.1 = 0 → t.bill.tariff = s.bill.tariff ∧ t.bill.tariffNext = some r.2.entries ∧ (s.mainOn = true → natBit (t.get (Hdr.RAW Pg.TARIFF)) 1 = true) ∧ ∀ a, a ≠ Reg.TARIFF_TBL_STAT → eventReg a = false → t.rd a = s.rd a) ∧
    (r.1 ≠ 0 → t.bill.tariff = s.bill.tariff ∧ t.bill.tariffNext = s.bill.tariffNext ∧ t.get ⟨Reg.TARIFF_TBL_STAT, 7, 4⟩ = r.1 ∧ t.on ⟨Reg.TARIFF_TBL_STAT, 3, 3⟩ = true)) ∧
  (∀ (s : Dev) (mem : List Host.Cell) (l : TblLoad), l.stat = Reg.DISC_TBL_STAT →
    let r := tblCheck mem l.src { type := 4, esize := 8, area := 1024, content := seqContent }
    let t := Dev.loadEnd mem s l
    (r.1 = 0 → t.disc.table = r.2.entries.map seqEntry ∧ t.get ⟨Reg.DISC_TBL_STAT, 31, 16⟩ = r.2.count % 2 ^ 16 ∧ t.get ⟨Reg.DISC_TBL_STAT, 15, 8⟩ = r.2.version % 2 ^ 8 ∧ ∀ a, a ≠ Reg.DISC_TBL_STAT → t.rd a = s.rd a) ∧
    (r.1 ≠ 0 → t.disc.table = s.disc.table ∧ t.get ⟨Reg.DISC_TBL_STAT, 7, 4⟩ = r.1 ∧ t.on ⟨Reg.DISC_TBL_STAT, 3, 3⟩ = true)) ∧
  (∀ (s : Dev) (mem : List Host.Cell) (l : TblLoad), l.stat = Reg.DISP_TBL_STAT →
    let r := tblCheck mem l.src { type := 2, esize := 20, area := 8192, content := dispContent }
    let t := Dev.loadEnd mem s l
    (r.1 = 0 → t.disp.table = r.2.entries ∧ t.disp.page = 0 ∧ t.get ⟨Reg.DISP_TBL_STAT, 31, 16⟩ = r.2.count % 2 ^ 16 ∧ t.get ⟨Reg.DISP_TBL_STAT, 15, 8⟩ = r.2.version % 2 ^ 8 ∧ ∀ a, a ≠ Reg.DISP_TBL_STAT → eventReg a = false → t.rd a = s.rd a) ∧
    (r.1 ≠ 0 → t.disp = s.disp ∧ t.get ⟨Reg.DISP_TBL_STAT, 7, 4⟩ = r.1 ∧ t.on ⟨Reg.DISP_TBL_STAT, 3, 3⟩ = true)) ∧
  (∀ (s : Dev) (mem : List Host.Cell) (l : TblLoad), l.stat = Reg.PLCPHY_TBL_STAT →
    let r := tblCheck mem l.src { type := 5, esize := 8, area := 4096, emptyOk := l.emptyOk, content := bandContent }
    let t := Dev.loadEnd mem s l
    (r.1 = 0 → (s.plc.txTo ≤ s.mt → t.plc.plan = some (r.2.entries.map bandEntry) ∧ t.plc.planNext = none) ∧ (s.mt < s.plc.txTo → t.plc.plan = s.plc.plan ∧ (t.plc.planNext.map fun x => x.1) = some (r.2.entries.map bandEntry)) ∧ t.get ⟨Reg.PLCPHY_TBL_STAT, 31, 16⟩ = r.2.count % 2 ^ 16 ∧ t.get ⟨Reg.PLCPHY_TBL_STAT, 15, 8⟩ = r.2.version % 2 ^ 8) ∧
    (r.1 ≠ 0 → t.plc = s.plc ∧ t.get ⟨Reg.PLCPHY_TBL_STAT, 7, 4⟩ = r.1 ∧ t.on ⟨Reg.PLCPHY_TBL_STAT, 3, 3⟩ = true))

/-- R92, R102, R104, R105: the settings of a front-end block. RSEL takes two thresholds in their range, a refused write sets CFGERR and leaves the register; ISO takes a mode and its amplitude, and refuses mode 3; APPLY waits for a sample with its busy bits set, and ends with both clear; a lane enable write that would switch off a bound channel is refused, any other is stored. -/
def Obligations.FrontEndWritesComplete : Prop :=
  (∀ (s : State) (m h : Nat) (v : Word), h < 12 → lands s (Reg.HEAT_RSEL h) → s.frozenRwl (Pg.HEAT h) = false → 160 ≤ bitsOf v 24 16 → bitsOf v 24 16 + 16 ≤ bitsOf v 8 0 → bitsOf v 8 0 ≤ 480 →
    completes (.rselWrite m h v) s fun t => keepsQueue s t ∧ t.get (Fld.HEAT_RSEL_UP h) = bitsOf v 8 0 ∧ t.get (Fld.HEAT_RSEL_DN h) = bitsOf v 24 16 ∧ ∀ a, a ≠ Reg.HEAT_RSEL h → t.rd a = s.rd a) ∧
  (∀ (s : State) (m h : Nat) (v : Word), h < 12 → lands s (Reg.HEAT_RSEL h) → s.frozenRwl (Pg.HEAT h) = false → (bitsOf v 24 16 < 160 ∨ bitsOf v 8 0 < bitsOf v 24 16 + 16 ∨ 480 < bitsOf v 8 0) →
    exec (.rselWrite m h v) s = .next { s with toDev := s.toDev.cfgErr (Pg.HEAT h) }) ∧
  (∀ (s : State) (m b : Nat) (v : Word), b < 12 → lands s (Reg.HEAT_ISO b) → s.frozenRwl (Pg.HEAT b) = false → bitsOf v 1 0 < 3 →
    completes (.isoWrite m b v) s fun t => keepsQueue s t ∧ t.get (Fld.HEAT_ISO_MODE b) = bitsOf v 1 0 ∧ ∀ a, a ≠ Reg.HEAT_ISO b → a ≠ Reg.HEAT_STAT b → eventReg a = false → t.rd a = s.rd a) ∧
  (∀ (s : State) (m : Nat) (v : Word), lands s Reg.UGRP_ISO → s.frozenRwl Pg.UGRP = false → bitsOf v 1 0 < 3 →
    completes (.isoWrite m 12 v) s fun t => keepsQueue s t ∧ t.get Fld.UGRP_ISO_MODE = bitsOf v 1 0 ∧ ∀ a, a ≠ Reg.UGRP_ISO → a ≠ Reg.UGRP_STAT → eventReg a = false → t.rd a = s.rd a) ∧
  (∀ (s : State) (m b : Nat) (v : Word), b < 12 → lands s (Reg.HEAT_ISO b) → s.frozenRwl (Pg.HEAT b) = false → bitsOf v 1 0 = 3 →
    exec (.isoWrite m b v) s = .next { s with toDev := s.toDev.cfgErr (Pg.HEAT b) }) ∧
  (∀ (s : State) (m b : Nat) (v : Word), b < 12 → lands s (Reg.HEAT_APPLY b) → bitsOf v 15 0 ≠ 0 → s.frozenRwl (Pg.HEAT b) = false → b < s.fe.blocks.length →
    completes (.applyPush m b v) s fun t => keepsQueue s t ∧ t.get (Fld.HEAT_STAT_APPLY_BUSY b) = 1 ∧ t.get (Hdr.BUSY (Pg.HEAT b)) = 1 ∧ (t.blk b).applying = ((s.blk b).applying ||| bitsOf v 15 0)) ∧
  (∀ (s : State) (b : Nat), b < 12 → s.mainOn = true → (s.blk b).applying ≠ 0 → b < s.fe.blocks.length →
    completes (.applyDone b) s fun t => keepsQueue s t ∧ t.get (Fld.HEAT_STAT_APPLY_BUSY b) = 0 ∧ t.get (Hdr.BUSY (Pg.HEAT b)) = 0 ∧ (t.blk b).applying = 0) ∧
  (∀ (s : State) (m b : Nat) (v : Word), b < 12 → lands s (Reg.HEAT_LANE_EN b) →
    (∃ j, j < 16 ∧ natBit (s.get (Fld.HEAT_LANE_EN_EN b)) j = true ∧ natBit (bitsOf v 15 0) j = false ∧ s.laneBound (16 * b + j) = true) →
    exec (.laneEnableWrite m b v) s = .next { s with toDev := s.toDev.cfgErr (Pg.HEAT b) }) ∧
  (∀ (s : State) (m b : Nat) (v : Word), b < 12 → lands s (Reg.HEAT_LANE_EN b) →
    (∀ j, j < 16 → natBit (s.get (Fld.HEAT_LANE_EN_EN b)) j = true → natBit (bitsOf v 15 0) j = true ∨ s.laneBound (16 * b + j) = false) →
    completes (.laneEnableWrite m b v) s fun t => keepsQueue s t ∧ t.get (Fld.HEAT_LANE_EN_EN b) = bitsOf v 15 0 ∧ ∀ a, a ≠ Reg.HEAT_LANE_EN b → t.rd a = s.rd a)

/-- R98–R101, R202–R204: references and sensors. A reference outside its window is marked from the check on; the re-check tells a transient, after which the mark is lifted, from a lasting fault, which clears REF_OK and sets REFERR on every page it serves; a settled reference is good again, with 48 more marked samples after a lasting fault; the comparison shows each reference's distance from the median of the four; IRETERR is set by more than 150 mV; a reading of an enabled block's sensor is shown. -/
def Obligations.ReferenceCommandsComplete : Prop :=
  (∀ (s : State) (r : Nat) (dev : Int), s.mainOn = true → r < 4 → (s.vref r).on = true → (s.vref r).ok = true → (s.vref r).suspect = false → (∀ b ∈ refBlocks r, s.injArmed (blkPage b) 16 = false) →
    (dev < -10000 ∨ 10000 < dev) → r < s.fe.refs.length → completes (.referenceCheck r dev) s fun t => keepsQueue s t ∧ (t.vref r).suspect = true ∧ (t.vref r).uns = true ∧ t.regs = s.regs) ∧
  (∀ (s : State) (r : Nat) (dev : Int), s.mainOn = true → r < 4 → (∀ b ∈ refBlocks r, s.injArmed (blkPage b) 16 = false) → -10000 ≤ dev → dev ≤ 10000 → exec (.referenceCheck r dev) s = .next s) ∧
  (∀ (s : State) (r : Nat) (dev : Int), s.mainOn = true → r < 4 → (s.vref r).suspect = true → (s.vref r).injected = none → (∀ b ∈ refBlocks r, s.injArmed (blkPage b) 16 = false) → -10000 ≤ dev → dev ≤ 10000 →
    completes (.referenceRecheck r dev) s fun t => keepsQueue s t ∧ (t.vref r).suspect = false ∧ (t.vref r).ok = (s.vref r).ok ∧ ∀ a, eventReg a = false → t.rd a = s.rd a) ∧
  (∀ (s : State) (r b : Nat) (dev : Int), s.mainOn = true → r < 4 → (s.vref r).suspect = true → (s.vref r).injected = none → (∀ b ∈ refBlocks r, s.injArmed (blkPage b) 16 = false) → (dev < -10000 ∨ 10000 < dev) → b ∈ refBlocks r →
    completes (.referenceRecheck r dev) s fun t => keepsQueue s t ∧ (t.vref r).suspect = false ∧ (t.vref r).ok = false ∧ t.get (Fld.BLK_REFERR b) = 1 ∧ t.get (Fld.BLK_REFOK b) = 0) ∧
  (∀ (s : State) (r b : Nat), s.mainOn = true → r < 4 → (s.vref r).on = true → (s.vref r).ok = false → b ∈ refBlocks r → r < s.fe.refs.length →
    completes (.referenceSettled r) s fun t => keepsQueue s t ∧ (t.vref r).ok = true ∧ (t.vref r).tail = (if (s.vref r).lasting then 48 else 0) ∧ t.get (Fld.BLK_REFOK b) = 1) ∧
  (∀ (s : State) (a b c d : Int) (h : Nat), s.mainOn = true → h < 13 → completes (.referenceCompare [a, b, c, d]) s fun t =>
    keepsQueue s t ∧ t.getI (Fld.BLK_REFDEV h) = clampI (-32768) 32767 (roundDivI ([a, b, c, d].getD (refOf h) 0 - median4 [a, b, c, d]) 10)) ∧
  (∀ (s : State) (h : Nat) (mv : Int), s.mainOn = true → h < 12 → s.blkOn h = true → (mv < -150 ∨ 150 < mv) →
    completes (.iretCheck h mv) s fun t => keepsQueue s t ∧ t.get (Fld.HEAT_STAT_IRETERR h) = 1 ∧ ∀ a, a ≠ Reg.HEAT_STAT h → eventReg a = false → t.rd a = s.rd a) ∧
  (∀ (s : State) (h : Nat) (mv : Int), s.mainOn = true → -150 ≤ mv → mv ≤ 150 → exec (.iretCheck h mv) s = .next s) ∧
  (∀ (s : State) (b : Nat) (tm : Int), s.mainOn = true → b < 13 → s.blkOn b = true → -32768 ≤ tm → tm ≤ 32767 → s.bist.cooling = false →
    completes (.tempReading b tm) s fun t => keepsQueue s t ∧ t.getI (Fld.BLK_T b) = tm ∧ t.get (Fld.BLK_TVALID b) = 1 ∧ t.get (Fld.BLK_STVALID b) = 1)

/-- R119, R123–R126, R133–R135, R198, R199: a released sample adds one frame to the ring and takes the next number, and stops with the ring in SHUTDOWN TEST; a GUN on its pin or by a keyed write stamps GUN_MT three MT counts on and marks the next frame; a state that bars it refuses the write; the measurement unit starts, refuses what it cannot measure, reports a group not in LOCK, and ends with its count. -/
def Obligations.SampleAndGunCommandsComplete : Prop :=
  (∀ (s : State) (lanes : List LaneIn) (us : List UIn), s.mainOn = true → s.clk.onRc = false → s.power.st ≠ .shutdownTest → s.fe.gunNext = false → completes (.sampleRelease lanes us) s fun t =>
    keepsQueue s t ∧ t.fe.nextSeq = (s.fe.nextSeq + 1) % 2 ^ 32 ∧ t.fe.slot = (s.fe.slot + 1) % 49461 ∧ ∃ f, t.fe.ring = (f :: s.fe.ring).take 49461 ∧ f.seq = s.fe.nextSeq ∧ f.mt = s.mt ∧ f.gun = false ∧ f.lanes.length = 192 ∧ f.us.length = 16) ∧
  (∀ (s : State) (lanes : List LaneIn) (us : List UIn), s.mainOn = true → s.clk.onRc = true → exec (.sampleRelease lanes us) s = .next s) ∧
  (∀ s : State, s.mainOn = true → s.on Fld.SYS_GUN_IN_EN = true → s.gunBarred = false → completes .gunInput s fun t =>
    keepsQueue s t ∧ t.fe.gunNext = true ∧ t.get64 Reg.SYS_GUN_MT_LO Reg.SYS_GUN_MT_HI = (s.mt + 3) % 2 ^ 64 ∧ t.pins.gunOut = (if s.on Fld.SYS_GUN_REPEAT then s.pins.gunOut + 1 else s.pins.gunOut)) ∧
  (∀ s : State, s.mainOn = true → (s.on Fld.SYS_GUN_IN_EN = false ∨ s.gunBarred = true) → s.on Fld.SYS_GUN_REPEAT = false → exec .gunInput s = .next s) ∧
  (∀ (s : State) (m : Nat) (v : Word), lands s Reg.SYS_GUN → keyOf v = 0x47 → bitAt v 0 = true → s.gunBarred = false → completes (.gunFire m v) s fun t =>
    keepsQueue s t ∧ t.fe.gunNext = true ∧ t.pins.gunOut = s.pins.gunOut + 1 ∧ t.on Fld.SYS_GUN_REPEAT = bitAt v 9 ∧ t.on Fld.SYS_GUN_IN_EN = bitAt v 8 ∧ t.get64 Reg.SYS_GUN_MT_LO Reg.SYS_GUN_MT_HI = (s.mt + 3) % 2 ^ 64) ∧
  (∀ (s : State) (m : Nat) (v : Word), lands s Reg.SYS_GUN → keyOf v = 0x47 → bitAt v 0 = true → s.gunBarred = true → exec (.gunFire m v) s = .next { s with toDev := s.toDev.cfgErr Pg.SYS }) ∧
  (∀ (s : State) (m : Nat) (v : Word), lands s Reg.UCH_CALM_CTRL → bitAt v 0 = true → bitsOf v 23 16 ≠ 0 → bitsOf v 15 8 ≤ 207 → s.on Fld.UCH_CALM_STAT_BUSY = false →
    (bitsOf v 5 4 = 0 ∨ (bitsOf v 5 4 = 1 ∧ bitsOf v 15 8 < 192 ∧ s.get (Fld.FRAME_VG_STAT_STATE (s.chGrp (bitsOf v 15 8))) = 2)) → completes (.calMeasureStart m v) s fun t =>
    keepsQueue s t ∧ t.fe.calm = some (bitsOf v 5 4, bitsOf v 15 8, bitsOf v 23 16) ∧ t.fe.calmN = 0 ∧ t.on Fld.UCH_CALM_STAT_BUSY = true ∧ t.on Fld.UCH_CALM_STAT_NOLOCK = false ∧ t.on Fld.UCH_CALM_STAT_VOID = false) ∧
  (∀ (s : State) (m : Nat) (v : Word), lands s Reg.UCH_CALM_CTRL → bitAt v 0 = true → bitsOf v 23 16 ≠ 0 → bitsOf v 5 4 = 1 → bitsOf v 15 8 < 192 → s.on Fld.UCH_CALM_STAT_BUSY = false →
    s.get (Fld.FRAME_VG_STAT_STATE (s.chGrp (bitsOf v 15 8))) ≠ 2 → completes (.calMeasureStart m v) s fun t => keepsQueue s t ∧ t.fe = s.fe ∧ t.on Fld.UCH_CALM_STAT_NOLOCK = true ∧ t.on Fld.UCH_CALM_STAT_DONE = true) ∧
  (∀ (s : State) (m : Nat) (v : Word), lands s Reg.UCH_CALM_CTRL → (bitsOf v 23 16 = 0 ∨ 207 < bitsOf v 15 8 ∨ 1 < bitsOf v 5 4 ∨ (bitAt v 0 = true ∧ s.on Fld.UCH_CALM_STAT_BUSY = true) ∨ (bitAt v 0 = true ∧ bitsOf v 5 4 = 1 ∧ 192 ≤ bitsOf v 15 8)) →
    exec (.calMeasureStart m v) s = .next { s with toDev := s.toDev.cfgErr Pg.UCH }) ∧
  (∀ (s : State) (sel cyc : Nat), s.mainOn = true → s.fe.calm = some (0, sel, cyc) → 640 * cyc ≤ s.fe.calmN → s.fe.calmN < 2 ^ 24 → completes .calMeasureDone s fun t =>
    keepsQueue s t ∧ t.fe.calm = none ∧ t.on Fld.UCH_CALM_STAT_BUSY = false ∧ t.on Fld.UCH_CALM_STAT_DONE = true ∧ t.on Fld.UCH_CALM_STAT_VOID = s.fe.calmVoid ∧ t.get Fld.UCH_CALM_N_N = s.fe.calmN) ∧
  (∀ (s : State) (sel cyc : Nat), s.mainOn = true → s.fe.calm = some (0, sel, cyc) → s.fe.calmN < 640 * cyc → exec .calMeasureDone s = .next s) ∧
  (∀ (s : State) (sel cyc : Nat) (b : List Int), s.mainOn = true → s.fe.calm = some (1, sel, cyc) → s.calmSpan cyc = some b → completes .calMeasureDone s fun t =>
    keepsQueue s t ∧ t.fe.calm = none ∧ t.on Fld.UCH_CALM_STAT_BUSY = false ∧ t.on Fld.UCH_CALM_STAT_DONE = true) ∧
  (∀ (s : State) (sel cyc : Nat), s.mainOn = true → s.fe.calm = some (1, sel, cyc) → s.calmSpan cyc = none → s.get (Fld.FRAME_VG_STAT_STATE (s.chGrp sel)) ≠ 2 → completes .calMeasureDone s fun t =>
    keepsQueue s t ∧ t.fe.calm = none ∧ t.on Fld.UCH_CALM_STAT_BUSY = false ∧ t.on Fld.UCH_CALM_STAT_DONE = true ∧ t.on Fld.UCH_CALM_STAT_NOLOCK = true)

/-- R137–R141, R149, R152: a stride is issued for the next cycle while fewer than two are undecided; a publication marks the oldest stride and gives every worker on the live stream its speculative record; a tracker leaves LOCK for COAST at a low amplitude, enters LOCK after eight good cycles, and goes from COAST to FREE at its limit; the 10 s frequency is 0 where the interval was not wholly in LOCK, and else is formed from the whole cycles in it once the first cycle that ends after it is known. -/
def Obligations.TrackerCommandsComplete : Prop :=
  (∀ (s : State) (g : Nat), s.mainOn = true → s.clk.onRc = false → g < 4 → g < s.meter.trk.length → s.framing g = true → (s.trk g).strides.length < 2 → (s.trk g).restartAt = none → (s.trk g).job = none →
    completes (.strideIssue g) s fun t => keepsQueue s t ∧ (∃ k, (t.trk g).strides = (s.trk g).strides ++ [k] ∧ k.cyc = (s.trk g).next ∧ k.n = s.nOf g ∧ k.who = s.workers g) ∧ (t.trk g).next = ((s.trk g).next + 1) % 2 ^ 32) ∧
  (∀ (s : State) (g : Nat), s.mainOn = true → s.clk.onRc = false → g < 4 → (s.framing g = false ∨ 2 ≤ (s.trk g).strides.length) → exec (.strideIssue g) s = .next { s with toDev := s.toDev.gathered id }) ∧
  (∀ (s : State) (g : Nat) (st : Stride) (r : List Stride), s.mainOn = true → s.clk.onRc = false → g < 4 → (s.trk g).strides = st :: r → st.published = false →
    completes (.speculativePublish g) s fun t => keepsQueue s t ∧ (t.trk g).strides = { st with published := true } :: r ∧
      ∀ w ∈ st.who, w < s.meter.pacers.length → (s.pacer w).behind = false → (s.pacer w).replay = none → (t.pacer w).spec.isSome = true) ∧
  (∀ (s : State) (g : Nat) (ok : Bool) (amp uhz : Nat) (pos : Int), s.mainOn = true → s.clk.onRc = false → g < 4 → g < s.meter.trk.length → s.trkState g = 2 → (amp < s.get (Fld.FRAME_VG_AMIN_AMIN g) ∨ (s.trk g).lost = true) →
    completes (.trackerCycleEnd g ok amp uhz pos) s fun t => keepsQueue s t ∧ t.trkState g = 3 ∧ t.get (Fld.FRAME_VG_FREQ_UHZ g) = 0 ∧ t.get (Fld.FRAME_VG_AMP_AMP g) = satN 0x7FFF amp ∧ t.on (Fld.FRAME_VG_STAT_LOWAMP g) = true ∧ (t.trk g).f10Ok = false) ∧
  (∀ (s : State) (g amp uhz : Nat) (pos : Int), s.mainOn = true → s.clk.onRc = false → g < 4 → g < s.meter.trk.length → s.trkState g = 1 → s.get (Fld.FRAME_VG_AMIN_AMIN g) ≤ amp → (s.trk g).lost = false → s.fixedOn g = false →
    42500000 ≤ uhz → uhz ≤ 69000000 → 7 ≤ (s.trk g).lockCnt → completes (.trackerCycleEnd g true amp uhz pos) s fun t =>
      keepsQueue s t ∧ t.trkState g = 2 ∧ t.get (Fld.FRAME_VG_FREQ_UHZ g) = uhz ∧ (t.trk g).boundary = posWrap pos ∧ (t.trk g).fresh = true ∧ (t.trk g).strides = []) ∧
  (∀ (s : State) (g amp uhz : Nat) (pos : Int), s.mainOn = true → s.clk.onRc = false → g < 4 → g < s.meter.trk.length → s.trkState g = 3 → s.get (Fld.FRAME_VG_CFG_COAST g) ≤ (s.trk g).coastCnt + 1 →
    completes (.trackerCycleEnd g false amp uhz pos) s fun t => keepsQueue s t ∧ t.trkState g = 4 ∧ (t.trk g).coastCnt = (s.trk g).coastCnt + 1) ∧
  (∀ (s : State) (g : Nat) (ok : Bool) (amp uhz : Nat) (pos : Int), s.mainOn = true → s.clk.onRc = false → g < 4 → s.trkState g = 0 → exec (.trackerCycleEnd g ok amp uhz pos) s = .next { s with toDev := s.toDev.gathered id }) ∧
  (∀ (s : State) (g : Nat), s.mainOn = true → s.clk.onRc = false → g < 4 → g < s.meter.trk.length → ((s.trk g).f10Ok = false ∨ s.trkState g ≠ 2) →
    completes (.freq10Interval g) s fun t => keepsQueue s t ∧ (t.trk g).f10Cycles = 0 ∧ (t.trk g).f10Frames = 0 ∧ (t.trk g).f10Due = none ∧ (t.trk g).f10Ok = decide (s.trkState g = 2) ∧ t.get (Fld.FRAME_VG_FREQ10_UHZ g) = 0) ∧
  (∀ (s : State) (g : Nat), s.mainOn = true → s.clk.onRc = false → g < 4 → g < s.meter.trk.length → (s.trk g).f10Ok = true → s.trkState g = 2 → (s.trk g).f10Due = none →
    completes (.freq10Interval g) s fun t => keepsQueue s t ∧ (t.trk g).f10Due = some s.closePos ∧ (t.trk g).f10Cycles = (s.trk g).f10Cycles ∧ (t.trk g).f10Frames = (s.trk g).f10Frames ∧ (t.trk g).f10Ok = true ∧
      t.get (Fld.FRAME_VG_FREQ10_UHZ g) = s.get (Fld.FRAME_VG_FREQ10_UHZ g)) ∧
  (∀ (s : Dev) (g : Nat) (l b e : Int), g < 4 → g < s.meter.trk.length → (s.trk g).f10Due = some e → 0 < posDiff b e →
    let t := s.freqCycle g l b
    (t.trk g).f10Due = none ∧ t.get (Fld.FRAME_VG_FREQ10_UHZ g) = (if 0 < (s.trk g).f10Frames then satN 0xFFFFFFFF (roundDivI (framesPerSec * 1000000 * (s.trk g).f10Cycles) (s.trk g).f10Frames.toNat).toNat else 0) ∧
    (t.trk g).f10Cycles = (if 0 ≤ posDiff l e then 1 else 0)) ∧
  (∀ (s : Dev) (g : Nat) (l b : Int), g < 4 → g < s.meter.trk.length → (∀ e, (s.trk g).f10Due = some e → posDiff b e ≤ 0) →
    (((s.freqCycle g l b).trk g).f10Cycles = if 0 ≤ posDiff l (s.trk g).f10From then (s.trk g).f10Cycles + 1 else (s.trk g).f10Cycles))

/-- R153–R163, R189: a decision waits until the released frames cover it; a boundary in LOCK inside the tolerance, and any in COAST or FREE, is accepted at its predicted end; one outside it is a false start, which counts, takes the measured crossing as the boundary, and sends every worker that has no replay of its own back to its starting block. A replay that passes commits and the boundary becomes the worker's starting block; a failed first attempt is tried again; a failed second one commits the discarded result and resynchronises. A worker caught up is no longer behind; a fixed-rate block ends 640 frames on. -/
def Obligations.DecisionCommandsComplete : Prop :=
  (∀ (s : State) (g : Nat) (x own : Int) (st : Stride) (r : List Stride), s.mainOn = true → s.clk.onRc = false → g < 4 → s.power.st = .run → s.meter.holdup = [] → (s.trk g).strides = st :: r → s.trkState g ≠ 2 →
    completes (.boundaryDecision g ⟨x, own⟩) s fun t => keepsQueue s t ∧ (t.trk g).boundary = posWrap (st.start + st.len) ∧ (t.trk g).strides.length = r.length) ∧
  (∀ (s : State) (g : Nat) (x own : Int) (st : Stride) (r : List Stride), s.mainOn = true → s.clk.onRc = false → g < 4 → s.power.st = .run → s.meter.holdup = [] → (s.trk g).strides = st :: r → s.trkState g = 2 → s.injArmed Pg.FRAME g = false → s.covers g st (st.bMeas x own) = true →
    -st.tol ≤ posDiff (st.bMeas x own) (st.start + st.len) → posDiff (st.bMeas x own) (st.start + st.len) ≤ st.tol →
    completes (.boundaryDecision g ⟨x, own⟩) s fun t => keepsQueue s t ∧ (t.trk g).boundary = posWrap (st.start + st.len) ∧ (t.trk g).strides.length = r.length ∧ t.get (Fld.FRAME_RB_FS_FS g) = s.get (Fld.FRAME_RB_FS_FS g)) ∧
  (∀ (s : State) (g : Nat) (x own : Int) (st : Stride) (r : List Stride), s.mainOn = true → s.clk.onRc = false → g < 4 → s.power.st = .run → s.meter.holdup = [] → (s.trk g).strides = st :: r → s.trkState g = 2 → s.injArmed Pg.FRAME g = false → s.covers g st (st.bMeas x own) = true →
    (posDiff (st.bMeas x own) (st.start + st.len) < -st.tol ∨ st.tol < posDiff (st.bMeas x own) (st.start + st.len)) →
    completes (.boundaryDecision g ⟨x, own⟩) s fun t => keepsQueue s t ∧ (t.trk g).boundary = posWrap (st.bMeas x own) ∧ (s.get (Fld.FRAME_RB_FS_FS g) < 0xFFFF → t.get (Fld.FRAME_RB_FS_FS g) = s.get (Fld.FRAME_RB_FS_FS g) + 1) ∧
      ∀ w ∈ st.who, w < s.meter.pacers.length → s.workGrp w = g → (s.pacer w).replay = none → (t.pacer w).replay.isSome = true ∧ (t.pacer w).attempt = 1 ∧ (t.pacer w).behind = true) ∧
  (∀ (s : State) (g : Nat) (x own : Int) (st : Stride) (r : List Stride), s.mainOn = true → s.clk.onRc = false → g < 4 → (s.trk g).strides = st :: r → s.covers g st (st.bMeas x own) = false →
    exec (.boundaryDecision g ⟨x, own⟩) s = .next { s with toDev := s.toDev.gathered id }) ∧
  (∀ (s : State) (w : Nat) (bm b : Int) (st : Stride), s.mainOn = true → s.clk.onRc = false → w < 12 → s.power.st = .run → s.meter.holdup = [] → (s.pacer w).replay = some (st, b) → (s.pacer w).todo = [] →
    s.injArmed Pg.DRAM 0 = false → s.injArmed Pg.DRAM 1 = false → s.injArmed (Pg.PACER w) 0 = false → s.spanLost (s.pacer w).sb (posDiff b (s.pacer w).sb / q32).toNat = false → -st.tol ≤ posDiff bm b → posDiff bm b ≤ st.tol →
    completes (.replayComplete w 0 bm) s fun t => keepsQueue s t ∧ (t.pacer w).replay = none ∧ (t.pacer w).attempt = 0 ∧ (t.pacer w).sb = b ∧ t.on (Fld.PACER_LAST_STAT_REPLAY w) = false ∧ t.get (Fld.PACER_CYC_CYCLE w) = st.cyc % 2 ^ 32) ∧
  (∀ (s : State) (w : Nat) (bm b : Int) (st : Stride), s.mainOn = true → s.clk.onRc = false → w < 12 → s.power.st = .run → s.meter.holdup = [] → (s.pacer w).replay = some (st, b) → (s.pacer w).attempt < 2 →
    s.injArmed Pg.DRAM 0 = false → s.injArmed Pg.DRAM 1 = false → s.injArmed (Pg.PACER w) 0 = false →
    completes (.replayComplete w 3 bm) s fun t => keepsQueue s t ∧ (t.pacer w).replay = some (st, b) ∧ (t.pacer w).attempt = 2 ∧ t.get (Fld.FRAME_RB_REC_CAUSE (s.workGrp w)) = 3 ∧ t.get (Fld.PACER_REC_STAT_CAUSE w) = 3) ∧
  (∀ (s : State) (w : Nat) (bm b : Int) (st : Stride), s.mainOn = true → s.clk.onRc = false → w < 12 → s.power.st = .run → s.meter.holdup = [] → (s.pacer w).replay = some (st, b) → 2 ≤ (s.pacer w).attempt → (s.pacer w).todo = [] →
    s.injArmed Pg.DRAM 0 = false → s.injArmed Pg.DRAM 1 = false → s.injArmed (Pg.PACER w) 0 = false →
    completes (.replayComplete w 3 bm) s fun t => keepsQueue s t ∧ (t.pacer w).replay = none ∧ (t.pacer w).resync = true ∧ (t.pacer w).sb = posWrap (st.start + st.len)) ∧
  (∀ (s : State) (w : Nat), s.mainOn = true → s.clk.onRc = false → w < 12 → w < s.meter.pacers.length → (s.pacer w).behind = true → (s.pacer w).replay = none →
    completes (.liveCatchUp w) s fun t => keepsQueue s t ∧ (t.pacer w).behind = false ∧ t.on (Fld.PACER_REC_STAT_BEHIND w) = false) ∧
  (∀ (s : State) (g : Nat) (p : Int), s.mainOn = true → s.clk.onRc = false → g < 4 → s.power.st = .run → s.meter.holdup = [] → s.fixedOn g = true → (s.trk g).stopped = false → (s.trk g).job = none → (s.trk g).blockStart = some p →
    completes (.fixedBlockEnd g) s fun t => keepsQueue s t ∧ (t.trk g).blockStart = some (posWrap (p + 640 * q32)) ∧ (t.trk g).next = ((s.trk g).next + 1) % 2 ^ 32) ∧
  (∀ (s : State) (g : Nat), s.mainOn = true → s.clk.onRc = false → g < 4 → s.power.st = .run → s.meter.holdup = [] → s.fixedOn g = true → (s.trk g).stopped = false → (s.trk g).job = none → (s.trk g).blockStart = none → g < s.meter.trk.length →
    completes (.fixedBlockEnd g) s fun t => keepsQueue s t ∧ (t.trk g).blockStart = some ((s.fe.nextSeq : Int) * q32) ∧ (t.trk g).fresh = true) ∧
  (∀ (s : State) (m g : Nat) (v : Word), g < 4 → lands s (Reg.FRAME_VG_AMIN g) → s.frozenRwl Pg.FRAME = false →
    completes (.frameConfigWrite m g true v) s fun t => keepsQueue s t ∧ t.get (Fld.FRAME_VG_AMIN_AMIN g) = bitsOf v 14 0 ∧ ∀ a, a ≠ Reg.FRAME_VG_AMIN g → t.rd a = s.rd a) ∧
  (∀ (s : State) (m g : Nat) (v : Word), g < 4 → lands s (Reg.FRAME_VG_CFG g) → s.frozenRwl Pg.FRAME = false → s.grpHeats g = [] → bitsOf v 23 16 ≠ 0 → bitsOf v 5 4 ≠ 3 → bitsOf v 1 0 ≠ 3 →
    completes (.frameConfigWrite m g false v) s fun t => keepsQueue s t ∧ t.get (Fld.FRAME_VG_CFG_COAST g) = bitsOf v 23 16 ∧ t.get (Fld.FRAME_VG_CFG_NSEL g) = bitsOf v 5 4 ∧ t.get (Fld.FRAME_VG_CFG_MODE g) = bitsOf v 1 0 ∧
      t.on (Fld.FRAME_VG_CFG_FNOM g) = bitAt v 9 ∧ t.on (Fld.FRAME_VG_CFG_SRC g) = bitAt v 8) ∧
  (∀ (s : State) (m g : Nat) (v : Word), g < 4 → lands s (Reg.FRAME_VG_CFG g) → s.frozenRwl Pg.FRAME = false → (s.grpHeats g ≠ [] ∨ bitsOf v 23 16 = 0 ∨ bitsOf v 5 4 = 3 ∨ bitsOf v 1 0 = 3) →
    exec (.frameConfigWrite m g false v) s = .next { s with toDev := s.toDev.cfgErr Pg.FRAME })

/-- R210–R216: pulse outputs. A tick moves at most a step of each enabled output's waiting energy into its accumulator, which keeps what is below one pulse; a frozen generator does nothing. A pulse ends with its output released. A keyed write sets the outputs in calibration mode and its time; entering multiplies what an output holds by 100, and the write that ends it, or the time-out, divides it and clears the backlog (a pulse in progress at the time-out is completed first). A setting in its range is stored and clears what an enabled output held; one out of range sets CFGERR. -/
def Obligations.PulseCommandsComplete : Prop :=
  (∀ (s : State) (n : Nat), s.mainOn = true → s.pulseFrozen = false → s.on (Hdr.EN Pg.PULSE) = true → n < 8 → n < s.pulse.length → s.on (Fld.PULSE_CH_CFG_EN n) = true → completes .pulseTick s fun t =>
    keepsQueue s t ∧ (t.po n).pend = (s.po n).pend - min (s.po n).step (s.po n).pend ∧ (t.po n).acc = ((s.po n).acc + min (s.po n).step (s.po n).pend) % pulseQ) ∧
  (∀ (s : State) (n : Nat), s.mainOn = true → s.pulseFrozen = false → s.on (Hdr.EN Pg.PULSE) = true → n < 8 → s.on (Fld.PULSE_CH_CFG_EN n) = false → completes .pulseTick s fun t =>
    keepsQueue s t ∧ t.po n = s.po n ∧ t.get (Fld.PULSE_CH_COUNT_N n) = s.get (Fld.PULSE_CH_COUNT_N n)) ∧
  (∀ s : State, s.mainOn = true → s.pulseFrozen = true → exec .pulseTick s = .next s) ∧
  (∀ (s : State) (n : Nat), s.mainOn = true → n < 8 → n < s.pulse.length → s.pulseOn n = true → (s.pulseCal ≠ 0 ∨ s.get Fld.PULSE_CTRL_CAL_MASK = 0) → completes (.pulseEnd n) s fun t =>
    keepsQueue s t ∧ t.pulseOn n = false ∧ (t.po n).offAt = some s.mt ∧ t.pins.pulse = t.get Fld.PULSE_STAT_ON ∧ ∀ a, a ≠ Reg.PULSE_STAT → t.rd a = s.rd a) ∧
  (∀ (s : State) (m : Nat) (v : Word), lands s Reg.PULSE_CTRL → keyOf v = 0x7C → 1 ≤ bitsOf v 23 16 → bitsOf v 23 16 ≤ 240 → bitsOf v 15 8 ≠ 0 → completes (.pulseCalEnter m v) s fun t =>
    keepsQueue s t ∧ t.get Fld.PULSE_CTRL_CAL_MASK = bitsOf v 15 8 ∧ t.get Fld.PULSE_CTRL_CAL_MIN = bitsOf v 23 16 ∧ t.pulseCal = s.mt + bitsOf v 23 16 * 60 * 24576000 ∧
    ∀ n, n < 8 → n < s.pulse.length → natBit (bitsOf v 15 8) n = true → s.pulseCalOn n = false → (t.po n).acc = (s.po n).acc * 100 ∧ (t.po n).pend = (s.po n).pend * 100) ∧
  (∀ (s : State) (m : Nat) (v : Word), lands s Reg.PULSE_CTRL → keyOf v = 0x7C → 1 ≤ bitsOf v 23 16 → bitsOf v 23 16 ≤ 240 → bitsOf v 15 8 = 0 → completes (.pulseCalExit m v) s fun t =>
    keepsQueue s t ∧ t.get Fld.PULSE_CTRL_CAL_MASK = 0 ∧ t.pulseCal = 0 ∧
    ∀ n, n < 8 → n < s.pulse.length → s.pulseCalOn n = true → (t.po n).acc = (s.po n).acc / 100 ∧ (t.po n).pend = (s.po n).pend / 100 ∧ t.get (Fld.PULSE_CH_BACKLOG_N n) = 0) ∧
  (∀ (s : State) (m : Nat) (v : Word), lands s Reg.PULSE_CTRL → keyOf v = 0x7C → (bitsOf v 23 16 = 0 ∨ 240 < bitsOf v 23 16) → exec (.pulseCalEnter m v) s = .next { s with toDev := s.toDev.cfgErr Pg.PULSE }) ∧
  (∀ s : State, s.mainOn = true → completes .pulseCalTimeout s fun t => keepsQueue s t ∧ t.get Fld.PULSE_CTRL_CAL_MASK = s.get Fld.PULSE_CTRL_CAL_MASK &&& s.get Fld.PULSE_STAT_ON ∧ t.pulseCal = 0 ∧
    ∀ n, n < 8 → n < s.pulse.length → s.pulseCalOn n = true → s.pulseOn n = false → (t.po n).acc = (s.po n).acc / 100 ∧ (t.po n).pend = (s.po n).pend / 100 ∧ t.get (Fld.PULSE_CH_BACKLOG_N n) = 0) ∧
  (∀ (s : State) (m n : Nat) (v : Word), n < 8 → lands s (Reg.PULSE_CH_CFG n) → s.frozenRwl Pg.PULSE = false → pulseCfgOk v = true → n < s.pulse.length → completes (.pulseConfigWrite m n false v) s fun t =>
    keepsQueue s t ∧ t.rd (Reg.PULSE_CH_CFG n) = putBits v 7 0 0 ∧ (s.on (Fld.PULSE_CH_CFG_EN n) = true → (t.po n).acc = 0 ∧ (t.po n).pend = 0 ∧ t.get (Fld.PULSE_CH_BACKLOG_N n) = 0) ∧
    ∀ a, a ≠ Reg.PULSE_CH_CFG n → a ≠ (Fld.PULSE_CH_BACKLOG_N n).addr → t.rd a = s.rd a) ∧
  (∀ (s : State) (m n : Nat) (v : Word), n < 8 → lands s (Reg.PULSE_CH_CONST n) → s.frozenRwl Pg.PULSE = false → 1 ≤ v.toNat → v.toNat ≤ 1000000 → completes (.pulseConfigWrite m n true v) s fun t =>
    keepsQueue s t ∧ t.rd (Reg.PULSE_CH_CONST n) = v ∧ ∀ a, a ≠ Reg.PULSE_CH_CONST n → a ≠ (Fld.PULSE_CH_BACKLOG_N n).addr → t.rd a = s.rd a) ∧
  (∀ (s : State) (m n : Nat) (v : Word), n < 8 → lands s (Reg.PULSE_CH_CONST n) → s.frozenRwl Pg.PULSE = false → (v.toNat = 0 ∨ 1000000 < v.toNat) →
    exec (.pulseConfigWrite m n true v) s = .next { s with toDev := s.toDev.cfgErr Pg.PULSE })

/-- R217–R226: harmonics and aggregation. A window that every Pacer has written becomes visible: the group's window number counts, the buffer changes over; the 10-minute tick closes the interval of a group with no window in progress and opens the next, waits for a window in progress, and closes a short interval in progress. R236–R240: the capture store, whose triggers never name its own events. A capture whose last row is copied, or whose row is lost, ends with the rows it holds, TRUNCATED where one was lost, keeping its number, lock and place; a complete record is untouched, and one whose rows wait while a replay reads the ring too. A clear evicts every record that is not locked, and is refused while a capture is in progress; LOCK and UNLOCK change the record of one slot, an empty slot refuses LOCK; DELETE empties a slot whose record is complete and not locked, and is refused for another. -/
def Obligations.HarmonicAndCaptureCommandsComplete : Prop :=
  (∀ (s : State) (g : Nat) (win : List (Nat × List HCyc)), s.mainOn = true → g < 4 → (s.hg g).done = some win → completes (.harmonicWindowWrite g) s fun t =>
    keepsQueue s t ∧ (t.hg g).done = none ∧ (t.hg g).win = ((s.hg g).win + 1) % 2 ^ 32 ∧ t.get (Fld.HARM_GRP_WIN_WIN g) = ((s.hg g).win + 1) % 2 ^ 32 ∧
    t.get (Fld.HARM_GRP_STAT_BUF g) = 1 - s.get (Fld.HARM_GRP_STAT_BUF g)) ∧
  (∀ (s : State) (g : Nat), s.mainOn = true → (s.hg g).done = none → exec (.harmonicWindowWrite g) s = .next s) ∧
  (∀ (s : State) (g : Nat), s.mainOn = true → s.on Fld.HARM_CTRL_AGG = true → g < 4 → g < s.harm.grp.length → (s.hg g).tenDue = none → s.harmPending g = false →
    completes .aggTenminClose s fun t => keepsQueue s t ∧ (t.hg g).tenIdx = ((s.hg g).tenIdx + 1) % 2 ^ 24 ∧ (t.hg g).ten = [] ∧ (t.hg g).tenMiss = 0 ∧ (t.hg g).shortSlots = 0 ∧
      t.get (Fld.HARM_GRP_TENMIN_IDX g) = ((s.hg g).tenIdx + 1) % 2 ^ 24 * 256 + tickSlot s.secs) ∧
  (∀ (s : State) (g : Nat), s.mainOn = true → s.on Fld.HARM_CTRL_AGG = true → g < 4 → g < s.harm.grp.length → (s.hg g).tenDue = none → s.harmPending g = true →
    completes .aggTenminClose s fun t => keepsQueue s t ∧ (t.hg g).tenDue = some (s.mt, tickSlot s.secs) ∧ (t.hg g).tenIdx = (s.hg g).tenIdx ∧ (t.hg g).ten = (s.hg g).ten ∧ (t.hg g).shortSlots = 0) ∧
  (∀ s : State, s.mainOn = true → s.on Fld.HARM_CTRL_AGG = false → (∀ g, g < 4 → (s.hg g).tenDue = none) → exec .aggTenminClose s = .next s) ∧
  (∀ (s : State) (k : Nat) (r : CapRec), s.mainOn = true → (∀ j, j < 16 → s.get (Fld.CAP_TRIG_EV_CODE j) / 64 ≠ Pg.CAP ∧ s.get (Fld.CAP_TRIG_EV_CODE j) / 64 ≠ Pg.SPLIT) → k < 256 → nth s.cap.dir k none = some r → r.due = true →
    completes .captureComplete s fun t => keepsQueue s t ∧ t.cap.dir.length = s.cap.dir.length ∧ natBit (t.get (Hdr.RAW Pg.CAP)) 1 = true ∧
      ∃ q, nth t.cap.dir k none = some q ∧ q.complete = true ∧ q.truncated = r.lost ∧ q.nrows = r.copied ∧ q.id = r.id ∧ q.locked = r.locked ∧ q.block = r.block) ∧
  (∀ (s : State) (k : Nat) (r : CapRec), s.mainOn = true → (∀ j, j < 16 → s.get (Fld.CAP_TRIG_EV_CODE j) / 64 ≠ Pg.CAP ∧ s.get (Fld.CAP_TRIG_EV_CODE j) / 64 ≠ Pg.SPLIT) → nth s.cap.dir k none = some r →
    (r.complete = true ∨ (r.due = false ∧ (s.meter.pacers.any fun p => p.replay.isSome) = true)) → completes .captureComplete s fun t => keepsQueue s t ∧ nth t.cap.dir k none = some r) ∧
  (∀ (s : State) (m : Nat) (v : Word), lands s Reg.CAP_CTRL → bitAt v 1 = true → s.cap.active = 0 → completes (.captureClear m v) s fun t =>
    keepsQueue s t ∧ t.on Fld.CAP_CTRL_EN = bitAt v 0 ∧ t.cap.dir.length = s.cap.dir.length ∧
    ∀ k r, nth s.cap.dir k none = some r → nth t.cap.dir k none = (if r.locked then some r else none)) ∧
  (∀ (s : State) (m : Nat) (v : Word), lands s Reg.CAP_CTRL → bitAt v 1 = true → 0 < s.cap.active → exec (.captureClear m v) s = .next { s with toDev := s.toDev.cfgErr Pg.CAP }) ∧
  (∀ (s : State) (m : Nat) (v : Word) (r : CapRec), lands s Reg.CAP_RECCTL → keyOf v = 0x3A → bitAt v 0 = true → bitAt v 1 = false → bitAt v 2 = false → nth s.cap.dir (bitsOf v 15 8) none = some r →
    completes (.captureRecordLock m v) s fun t => keepsQueue s t ∧ nth t.cap.dir (bitsOf v 15 8) none = some { r with locked := true } ∧ ∀ k, k ≠ bitsOf v 15 8 → nth t.cap.dir k none = nth s.cap.dir k none) ∧
  (∀ (s : State) (m : Nat) (v : Word), lands s Reg.CAP_RECCTL → keyOf v = 0x3A → bitAt v 0 = true → bitAt v 1 = false → bitAt v 2 = false → nth s.cap.dir (bitsOf v 15 8) none = none →
    completes (.captureRecordLock m v) s fun t => keepsQueue s t ∧ t.cap = s.cap ∧ t.on (Hdr.CFGERR Pg.CAP) = true) ∧
  (∀ (s : State) (m : Nat) (v : Word) (r : CapRec), lands s Reg.CAP_RECCTL → keyOf v = 0x3A → bitAt v 0 = false → bitAt v 1 = true → bitAt v 2 = false → nth s.cap.dir (bitsOf v 15 8) none = some r →
    completes (.captureRecordUnlock m v) s fun t => keepsQueue s t ∧ nth t.cap.dir (bitsOf v 15 8) none = some { r with locked := false } ∧ ∀ k, k ≠ bitsOf v 15 8 → nth t.cap.dir k none = nth s.cap.dir k none) ∧
  (∀ (s : State) (m : Nat) (v : Word) (r : CapRec), lands s Reg.CAP_RECCTL → keyOf v = 0x3A → bitAt v 0 = false → bitAt v 1 = false → bitAt v 2 = true → nth s.cap.dir (bitsOf v 15 8) none = some r → r.complete = true → r.locked = false →
    completes (.captureRecordDelete m v) s fun t => keepsQueue s t ∧ nth t.cap.dir (bitsOf v 15 8) none = none) ∧
  (∀ (s : State) (m : Nat) (v : Word) (r : CapRec), lands s Reg.CAP_RECCTL → keyOf v = 0x3A → bitAt v 0 = false → bitAt v 1 = false → bitAt v 2 = true → nth s.cap.dir (bitsOf v 15 8) none = some r → (r.complete = false ∨ r.locked = true) →
    completes (.captureRecordDelete m v) s fun t => keepsQueue s t ∧ t.cap = s.cap ∧ t.on (Hdr.CFGERR Pg.CAP) = true)

/-- R242, R244, R255–R257: the Eyelet controller. A scanned wire shows how many pods it found and leaves the scan in progress, whose end counts; a search that fails twice is a wire fault; RESCAN starts a scan of every enabled wire and refuses while one is commanded; a transfer runs at once or waits for the scan, ends with XERR where its retry failed too or the pod refuses the write, and puts the bytes read into XDATA; a wire fault sets its bit. -/
def Obligations.EyeletCommandsComplete : Prop :=
  (∀ (s : State) (wire : Nat) (found : List PodIn), s.mainOn = true → wire < 12 → natBit (s.get Fld.EYE_CTRL_HEATS) wire = true → s.eyeMay = true → (∀ i ∈ found, podIdOk i.id = true ∧ i.badIds.length < 2) → completes (.eyeletScan wire found) s fun t =>
    let left := putBit (if s.eye.left = 0 then s.get Fld.EYE_CTRL_HEATS else s.eye.left) wire false
    keepsQueue s t ∧ t.eye.left = left ∧ t.get (Fld.EYE_H_STAT_NPODS wire) = min 16 found.length ∧
    t.get Fld.EYE_STAT_SCANS = (if left = 0 then (s.get Fld.EYE_STAT_SCANS + 1) % 2 ^ 16 else s.get Fld.EYE_STAT_SCANS)) ∧
  (∀ (s : State) (wire : Nat) (found : List PodIn), s.mainOn = true → wire < 12 → natBit (s.get Fld.EYE_CTRL_HEATS) wire = true → s.eyeMay = true → (∃ i ∈ (enumSort found).take 17, podIdOk i.id = false ∨ 2 ≤ i.badIds.length) → completes (.eyeletScan wire found) s fun t =>
    keepsQueue s t ∧ natBit (t.get Fld.EYE_WIRE_FAULT) wire = true ∧ natBit t.eye.left wire = false ∧ t.eye.pods = s.eye.pods) ∧
  (∀ (s : State) (wire : Nat) (found : List PodIn), s.mainOn = true → (12 ≤ wire ∨ natBit (s.get Fld.EYE_CTRL_HEATS) wire = false ∨ s.eyeMay = false) → exec (.eyeletScan wire found) s = .next s) ∧
  (∀ (s : State) (m : Nat) (v : Word), lands s Reg.EYE_CMD → keyOf v = 0x6E → bitsOf v Fld.EYE_CMD_OP.hi Fld.EYE_CMD_OP.lo = 1 → s.on Fld.EYE_STAT_BUSY = false → s.get Fld.EYE_CTRL_HEATS ≠ 0 →
    completes (.eyeletRescan m v) s fun t => keepsQueue s t ∧ t.on Fld.EYE_STAT_BUSY = true ∧ t.eye = { s.eye with left := s.get Fld.EYE_CTRL_HEATS } ∧ ∀ a, a ≠ Reg.EYE_STAT → t.rd a = s.rd a) ∧
  (∀ (s : State) (m : Nat) (v : Word), lands s Reg.EYE_CMD → keyOf v = 0x6E → bitsOf v Fld.EYE_CMD_OP.hi Fld.EYE_CMD_OP.lo = 1 → s.on Fld.EYE_STAT_BUSY = true →
    exec (.eyeletRescan m v) s = .next { s with toDev := s.toDev.cfgErr Pg.EYE }) ∧
  (∀ (s : State) (m fail : Nat) (v : Word) (data : List Byte), lands s Reg.EYE_CMD → keyOf v = 0x6E → bitsOf v Fld.EYE_CMD_OP.hi Fld.EYE_CMD_OP.lo = 2 → (s.on Fld.EYE_STAT_BUSY = true ∨ s.xferOk = false) →
    exec (.eyeletXfer m v data fail) s = .next { s with toDev := s.toDev.cfgErr Pg.EYE }) ∧
  (∀ (s : State) (m fail : Nat) (v : Word) (data : List Byte), lands s Reg.EYE_CMD → keyOf v = 0x6E → bitsOf v Fld.EYE_CMD_OP.hi Fld.EYE_CMD_OP.lo = 2 → s.on Fld.EYE_STAT_BUSY = false → s.xferOk = true → (s.eye.left ≠ 0 ∨ s.eyeMay = false) →
    completes (.eyeletXfer m v data fail) s fun t => keepsQueue s t ∧ t.on Fld.EYE_STAT_BUSY = true ∧ t.eye = { s.eye with xfer := some (data, fail) }) ∧
  (∀ (s : State) (m fail : Nat) (v : Word) (data : List Byte), lands s Reg.EYE_CMD → keyOf v = 0x6E → bitsOf v Fld.EYE_CMD_OP.hi Fld.EYE_CMD_OP.lo = 2 → s.on Fld.EYE_STAT_BUSY = false → s.xferOk = true → s.eye.left = 0 → s.eyeMay = true →
    s.on Fld.EYE_XADDR_WRITE = false → s.injArmed Pg.EYE (s.get Fld.EYE_XADDR_LANE / 16) = false → fail < 3 →
    completes (.eyeletXfer m v data fail) s fun t => keepsQueue s t ∧ t.on Fld.EYE_STAT_BUSY = false ∧ t.on Fld.EYE_STAT_DONE = true ∧ t.on Fld.EYE_STAT_XERR = (s.on Fld.EYE_STAT_XERR || decide (fail = 2)) ∧
      (fail ≠ 2 → (t.wordBytes (Reg.EYE_XDATA 0) 8).take (s.get Fld.EYE_XADDR_LEN) = slice data 0 (s.get Fld.EYE_XADDR_LEN)) ∧ t.eye = { s.eye with txs := t.eye.txs }) ∧
  (∀ (s : State) (m fail : Nat) (v : Word) (data : List Byte), lands s Reg.EYE_CMD → keyOf v = 0x6E → bitsOf v Fld.EYE_CMD_OP.hi Fld.EYE_CMD_OP.lo = 2 → s.on Fld.EYE_STAT_BUSY = false → s.xferOk = true → s.eye.left = 0 → s.eyeMay = true →
    s.on Fld.EYE_XADDR_WRITE = true →
    completes (.eyeletXfer m v data fail) s fun t => keepsQueue s t ∧ t.on Fld.EYE_STAT_BUSY = false ∧ t.on Fld.EYE_STAT_DONE = true ∧
      t.on Fld.EYE_STAT_XERR = (s.on Fld.EYE_STAT_XERR || !(decide (fail ≤ 1) && podTakes (s.get Fld.EYE_XADDR_ADDR) (s.get Fld.EYE_XADDR_LEN))) ∧ t.eye = { s.eye with txs := t.eye.txs }) ∧
  (∀ (s : State) (wire : Nat), s.mainOn = true → wire < 12 → natBit (s.get Fld.EYE_CTRL_HEATS) wire = true → completes (.eyeletWireFault wire) s fun t =>
    keepsQueue s t ∧ natBit (t.get Fld.EYE_WIRE_FAULT) wire = true ∧ (s.eyeMay = true → natBit t.eye.left wire = false) ∧ (s.eyeMay = false → t.eye = s.eye)) ∧
  (∀ (s : State) (wire : Nat), s.mainOn = true → (12 ≤ wire ∨ natBit (s.get Fld.EYE_CTRL_HEATS) wire = false) → exec (.eyeletWireFault wire) s = .next s)

/-- R259–R283: the billing commands. A binding that passes its checks waits for its boundary, one that does not sets CFGERR; the oldest complete cycle of a point is applied and its postings leave the queue, and a slot that a holdup left is passed on; the seconds that wait execute and TIME moves on; a new demand scheme begins its interval anew, flagged CLOCK; a commit puts the published image under the next number into its buffer, and one that fails three times marks that buffer bad and goes to the other, where that is not bad too; a manual snapshot takes the next slot; RSEL latches the selected register. -/
def Obligations.BillingCommandsComplete : Prop :=
  (∀ (s : State) (m b : Nat) (v : Word), b < 64 → lands s (Reg.BILL_BP_CFG b) → s.frozenRwl Pg.BILL = false →
    let w := BitVec.ofNat 32 (v.toNat &&& 0xEF700000)
    let k : Binding := ⟨s.get (Fld.BILL_BP_LANE_SLOTS b), (s.rd (Reg.BILL_BP_ROLE b)).toNat, w.toNat⟩
    (bitsOf w 22 20 ≤ 3 → k.en = true → s.bindOk b k = true → completes (.bindingWrite m b v) s fun t =>
      keepsQueue s t ∧ t.rd (Reg.BILL_BP_CFG b) = w ∧ (b, k) ∈ t.bill.pendingB ∧ t.bill.bound = s.bill.bound ∧ ∀ a, a ≠ Reg.BILL_BP_CFG b → t.rd a = s.rd a) ∧
    (bitsOf w 22 20 ≤ 3 → k.en = false → s.bindOk b k = true → (nth s.bill.bound b {}).en = true → completes (.bindingWrite m b v) s fun t =>
      keepsQueue s t ∧ t.rd (Reg.BILL_BP_CFG b) = w ∧ (b, k) ∈ t.bill.pendingB ∧ t.bill.bound = s.bill.bound) ∧
    (bitsOf w 22 20 ≤ 3 → k.en = false → s.bindOk b k = true → (nth s.bill.bound b {}).en = false → completes (.bindingWrite m b v) s fun t =>
      keepsQueue s t ∧ t.rd (Reg.BILL_BP_CFG b) = w ∧ (∀ p ∈ t.bill.pendingB, p.1 ≠ b) ∧ t.bill.bound = s.bill.bound) ∧
    ((3 < bitsOf w 22 20 ∨ s.bindOk b k = false) → exec (.bindingWrite m b v) s = .next { s with toDev := s.toDev.cfgErr Pg.BILL })) ∧
  (∀ (s : State) (b : Nat) (p : Posting) (l : List Posting), s.mainOn = true → s.billUp = true → s.bill.frozen = false → b < 64 → s.readyCycle b = some (p :: l) → s.meter.holdup = [] →
    s.awaits (((p :: l).map fun q => q.rcd.endMt).foldl max 0) = false → completes (.billingApplyCycle b) s fun t =>
      keepsQueue s t ∧ (∀ q ∈ p :: l, q ∉ t.bill.posts) ∧ (∀ q ∈ s.bill.posts, q.bp ≠ b → q ∈ t.bill.posts) ∧ t.upd.applied = (s.upd.applied ||| 2 ^ p.grp)) ∧
  (∀ (s : State) (b : Nat), s.mainOn = true → (s.billUp = false ∨ s.bill.frozen = true ∨ (s.readyCycle b = none ∧ (s.inHoldup = true ∨ s.meter.holdup = []))) → exec (.billingApplyCycle b) s = .next s) ∧
  (∀ (s : State) (b : Nat), s.mainOn = true → s.billUp = true → s.bill.frozen = false → b < 64 → s.readyCycle b = none → s.inHoldup = false → s.meter.holdup ≠ [] → completes (.billingApplyCycle b) s fun t =>
    keepsQueue s t ∧ nth t.meter.holdup s.meter.holdupPassed [] = [] ∧ t.meter.holdupPassed = (if s.meter.holdup.length ≤ s.meter.holdupPassed + 1 then 0 else s.meter.holdupPassed + 1)) ∧
  (∀ (s : State) (sec mt : Nat), s.mainOn = true → s.billLive = true → s.bill.due = [(sec, mt)] → 0 < sec → sec < calendarEnd → completes (.timeBoundaries true) s fun t =>
    keepsQueue s t ∧ t.bill.due = [] ∧ t.bill.done = (sec, mt) ∧ t.bill.img.time = sec * 32768) ∧
  (∀ (s : State) (late : Bool), s.mainOn = true → (s.billLive = false ∨ s.bill.due = []) → exec (.timeBoundaries late) s = .next s) ∧
  (∀ (s : State) (m : Nat) (v : Word), lands s Reg.BILL_DEMAND → s.frozenRwl Pg.BILL = false →
    let w := BitVec.ofNat 32 (v.toNat &&& 0x3F7)
    let ok := bitsOf w 2 0 ≤ 4 ∧ (bitsOf w 9 8 = 0 ∨ (bitsOf w 9 8 = 1 ∧ demPairOk (demLen (bitsOf w 2 0)) (bitsOf w 7 4) = true))
    (ok → s.rd Reg.BILL_DEMAND ≠ w → s.billUp = true → completes (.demandSchemeWrite m v) s fun t =>
      keepsQueue s t ∧ t.rd Reg.BILL_DEMAND = w ∧ t.bill.img.dstart = t.demAlign (s.secs / 60) ∧ t.bill.demFlags = Flg.CLOCK) ∧
    (ok → s.rd Reg.BILL_DEMAND ≠ w → s.billUp = false → completes (.demandSchemeWrite m v) s fun t => keepsQueue s t ∧ t.rd Reg.BILL_DEMAND = w ∧ t.bill = s.bill) ∧
    (ok → s.rd Reg.BILL_DEMAND = w → exec (.demandSchemeWrite m v) s = .next s) ∧
    (¬ ok → exec (.demandSchemeWrite m v) s = .next { s with toDev := s.toDev.cfgErr Pg.BILL })) ∧
  (∀ (s : State) (m : Nat) (v : Word), lands s Reg.BILL_CMD → keyOf v = 0x5B → bitsOf v 1 0 = 1 → s.power.st ≠ .holdup → s.billUp = true → s.bill.frozen = false → s.injArmed Pg.BILL 0 = false →
    completes (.billCommitNow m v) s fun t =>
      let holds := fun (buf : Nat) => t.get Fld.BILL_STAT_BUF = buf ∧ ∃ i, (if buf = 0 then t.mram.live0 else t.mram.live1) = some i ∧ i.seq = t.get Fld.BILL_SEQ_SEQ ∧ i.time = s.bill.img.time ∧ i.mt = s.bill.img.mt
      keepsQueue s t ∧ ((t.on (badBit s.commitTo) = false ∧ holds s.commitTo) ∨
        (t.on (badBit s.commitTo) = true ∧ (s.on (badBit (1 - s.commitTo)) = false → holds (1 - s.commitTo))))) ∧
  (∀ (s : State) (m : Nat) (v : Word), lands s Reg.BILL_CMD → keyOf v = 0x5B → (bitsOf v 1 0 = 0 ∨ bitsOf v 1 0 = 3 ∨ s.power.st = .holdup) → exec (.billCommitNow m v) s = .next { s with toDev := s.toDev.cfgErr Pg.BILL }) ∧
  (∀ (s : State) (m : Nat) (v : Word), lands s Reg.BILL_CMD → keyOf v = 0x5B → bitsOf v 1 0 = 2 → s.power.st ≠ .holdup → s.billUp = true → s.bill.frozen = false → s.get Fld.BILL_STAT_SNAP_NEXT < s.mram.snaps.length →
    completes (.billManualSnapshot m v) s fun t => keepsQueue s t ∧ t.get Fld.BILL_STAT_SNAP_NEXT = (s.get Fld.BILL_STAT_SNAP_NEXT + 1) % 24 ∧
      ∃ i, nth t.mram.snaps (s.get Fld.BILL_STAT_SNAP_NEXT) none = some i ∧ i.kind = 1 ∧ i.snapf % 16 = Snap.MANUAL ∧ i.lastb = s.secs / 60 ∧ i.mt = s.mt) ∧
  (∀ (s : State) (ok2 : Bool), s.mainOn = true → s.power.st = .run → s.billUp = true → s.bill.frozen = false → s.injArmed Pg.BILL 0 = false → completes (.periodicCommit true ok2) s fun t =>
    keepsQueue s t ∧ t.get Fld.BILL_STAT_BUF = s.commitTo ∧ ∃ i, (if s.commitTo = 0 then t.mram.live0 else t.mram.live1) = some i ∧ i.seq = t.get Fld.BILL_SEQ_SEQ ∧ i.time = s.bill.img.time) ∧
  (∀ s : State, s.mainOn = true → s.power.st = .run → s.billUp = true → s.bill.frozen = false → s.injArmed Pg.BILL 0 = false → s.on (badBit (1 - s.commitTo)) = false → completes (.periodicCommit false false) s fun t =>
    keepsQueue s t ∧ t.on (badBit s.commitTo) = true ∧ t.get Fld.BILL_STAT_BUF = 1 - s.commitTo ∧ t.bill.img.bp = s.bill.img.bp) ∧
  (∀ (s : State) (ok1 ok2 : Bool), s.mainOn = true → s.power.st = .shutdownTest → exec (.periodicCommit ok1 ok2) s = .next s) ∧
  (∀ (s : State) (m : Nat) (v : Word), lands s Reg.BILL_RSEL → bitsOf v 30 26 ≤ 23 → bitsOf v 19 16 ≤ 9 → bitsOf v 15 12 ≤ 8 → bitAt v 31 = false → completes (.registerSelect m v) s fun t =>
    let p := s.bp (bitsOf v 25 20)
    let x := if bitsOf v 15 12 = 0 then p.total (bitsOf v 19 16) else nth p.mwh (bitsOf v 19 16 * 8 + bitsOf v 15 12 - 1) 0
    keepsQueue s t ∧ t.rd Reg.BILL_RSEL = BitVec.ofNat 32 (v.toNat / 4096 * 4096) ∧ t.get64 Reg.BILL_RVAL_LO Reg.BILL_RVAL_HI = x / 10 ^ s.get Fld.BILL_CFG_QK % 2 ^ 64 ∧
    t.get64 Reg.BILL_RDISP_LO Reg.BILL_RDISP_HI = x / 1000 % 10 ^ 11 ∧ t.bill = s.bill) ∧
  (∀ (s : State) (m : Nat) (v : Word), lands s Reg.BILL_RSEL → (23 < bitsOf v 30 26 ∨ 9 < bitsOf v 19 16 ∨ 8 < bitsOf v 15 12) → exec (.registerSelect m v) s = .next { s with toDev := s.toDev.cfgErr Pg.BILL })

/-- R289–R295: prepayment. A token that passes every check waits to be applied; any other is refused with its reason and changes nothing else. A credit token adds its amount, a set token replaces the credit, and both move the window. Arming, emergency credit on offer, and disarming act on the point named; emergency credit not on offer sets CFGERR. -/
def Obligations.PrepayCommandsComplete : Prop :=
  (∀ (s : State) (m : Nat) (v : Word) (k : List Byte), lands s Reg.PREPAY_TCMD → keyOf v = 0x9D → bitAt v 0 = true → s.on Fld.PREPAY_TSTAT_BUSY = false → s.power.st ≠ .holdup → s.power.st ≠ .shutdownTest → s.sec.tok = some k → s.injArmed Pg.PREPAY 0 = false →
    let tok := s.wordBytes (Reg.PREPAY_TOKEN 0) 8
    (slice (hmac k (tok.take 24)) 0 8 = slice tok 24 8 → s.tokContent tok = 0 → completes (.tokenCheck m v) s fun t =>
      keepsQueue s t ∧ t.prepay.todo = some tok ∧ t.prepay.commit = bitAt v 1 ∧ t.on Fld.PREPAY_TSTAT_BUSY = true ∧ t.bill = s.bill) ∧
    (slice (hmac k (tok.take 24)) 0 8 = slice tok 24 8 → s.tokContent tok ≠ 0 → completes (.tokenCheck m v) s fun t =>
      keepsQueue s t ∧ t.prepay = s.prepay ∧ t.get Fld.PREPAY_TSTAT_REASON = s.tokContent tok ∧ t.on Fld.PREPAY_TSTAT_DONE = true ∧ t.bill.img.bp = s.bill.img.bp) ∧
    (slice (hmac k (tok.take 24)) 0 8 ≠ slice tok 24 8 → completes (.tokenCheck m v) s fun t =>
      keepsQueue s t ∧ t.prepay = s.prepay ∧ t.get Fld.PREPAY_TSTAT_REASON = 1 ∧ t.on Fld.PREPAY_TSTAT_DONE = true ∧ t.bill.img.bp = s.bill.img.bp)) ∧
  (∀ (s : State) (m : Nat) (v : Word), lands s Reg.PREPAY_TCMD → keyOf v = 0x9D → bitAt v 0 = true → s.on Fld.PREPAY_TSTAT_BUSY = false → (s.power.st = .holdup ∨ s.power.st = .shutdownTest) → completes (.tokenCheck m v) s fun t =>
    keepsQueue s t ∧ t.prepay = s.prepay ∧ t.get Fld.PREPAY_TSTAT_REASON = 10 ∧ t.on Fld.PREPAY_TSTAT_DONE = true) ∧
  (∀ (s : State) (m : Nat) (v : Word), lands s Reg.PREPAY_TCMD → keyOf v = 0x9D → bitAt v 0 = true → s.on Fld.PREPAY_TSTAT_BUSY = true → exec (.tokenCheck m v) s = .next { s with toDev := s.toDev.cfgErr Pg.PREPAY }) ∧
  (∀ (s : State) (tok : List Byte), s.mainOn = true → s.prepay.todo = some tok → s.billUp = true → s.bill.frozen = false → tokBp tok < s.bill.img.bp.length → completes .tokenApply s fun t =>
    keepsQueue s t ∧ t.prepay.todo = none ∧ t.get Fld.PREPAY_TSTAT_REASON = 0 ∧ t.on Fld.PREPAY_TSTAT_DONE = true ∧ t.on Fld.PREPAY_TSTAT_BUSY = false ∧ t.bill.img.tidAny = true ∧ t.bill.img.tidH = (tokWindow s.bill.img (tokTid tok)).2.1 ∧
    (tokKind tok = 1 → (t.bp (tokBp tok)).credit = (s.bp (tokBp tok)).credit + tokAmount tok ∧ (t.bp (tokBp tok)).acc = (s.bp (tokBp tok)).acc) ∧
    (tokKind tok = 2 → (t.bp (tokBp tok)).credit = tokAmount tok ∧ (t.bp (tokBp tok)).acc = 0 ∧ (t.bp (tokBp tok)).ecacc = false) ∧
    (tokKind tok = 3 → (t.bp (tokBp tok)).credit = (s.bp (tokBp tok)).credit ∧ (t.bp (tokBp tok)).armed = true)) ∧
  (∀ (s : State) (m : Nat) (v : Word), lands s Reg.PREPAY_TCMD → keyOf v = 0x9D → bitAt v 0 = true → s.on Fld.PREPAY_TSTAT_BUSY = false → s.power.st ≠ .holdup → s.power.st ≠ .shutdownTest → s.sec.tok = none → completes (.tokenCheck m v) s fun t =>
    keepsQueue s t ∧ t.prepay = s.prepay ∧ t.get Fld.PREPAY_TSTAT_REASON = 9 ∧ t.on Fld.PREPAY_TSTAT_DONE = true) ∧
  (∀ s : State, s.mainOn = true → s.prepay.todo = none → exec .tokenApply s = .next s) ∧
  (∀ (s : State) (m : Nat) (v : Word), lands s Reg.PREPAY_CMD → keyOf v = 0x9E → bitsOf v 1 0 = 1 → bitsOf v 21 16 < s.bill.img.bp.length → completes (.prepayArm m v) s fun t =>
    keepsQueue s t ∧ (t.bp (bitsOf v 21 16)).armed = true ∧ (t.bp (bitsOf v 21 16)).credit = (s.bp (bitsOf v 21 16)).credit) ∧
  (∀ (s : State) (m : Nat) (v : Word), lands s Reg.PREPAY_CMD → keyOf v = 0x9E → bitsOf v 1 0 = 2 → s.ecOffer (bitsOf v 21 16) = true → bitsOf v 21 16 < s.bill.img.bp.length → completes (.prepayAcceptEc m v) s fun t =>
    keepsQueue s t ∧ (t.bp (bitsOf v 21 16)).ecacc = true ∧ (t.bp (bitsOf v 21 16)).armed = true ∧ (t.bp (bitsOf v 21 16)).credit = (s.bp (bitsOf v 21 16)).credit) ∧
  (∀ (s : State) (m : Nat) (v : Word), lands s Reg.PREPAY_CMD → keyOf v = 0x9E → (bitsOf v 1 0 = 0 ∨ (bitsOf v 1 0 = 2 ∧ s.ecOffer (bitsOf v 21 16) = false)) →
    exec (.prepayAcceptEc m v) s = .next { s with toDev := s.toDev.cfgErr Pg.PREPAY }) ∧
  (∀ (s : State) (m : Nat) (v : Word), lands s Reg.PREPAY_CMD → keyOf v = 0x9E → bitsOf v 1 0 = 3 → bitsOf v 21 16 < s.bill.img.bp.length → completes (.prepayDisarm m v) s fun t =>
    keepsQueue s t ∧ (t.bp (bitsOf v 21 16)).armed = false ∧ (t.bp (bitsOf v 21 16)).credit = (s.bp (bitsOf v 21 16)).credit)

/-- R297–R309, R317, R318: disconnects. An accepted OPEN or CLOSE joins the queue, a CLOSE of a position that closes locally arms it, DISARM disarms it; a command that names no position or comes where operations may not run sets CFGERR. A trip opens its position at once with cause TRIP, or, where an operation runs on it, waits for that one's end; a rank's operations execute; a chain frame drives every chained output. A check that agrees verifies the position, one that does not is repeated 200 ms later and then is a lasting fault or a transient; a steady position whose feedback changes to disagreement begins a check, and one that a fault left unverified is verified again by a change to agreement. -/
def Obligations.DisconnectCommandsComplete : Prop :=
  (∀ (s : State) (m : Nat) (v : Word), lands s Reg.DISC_CMD → keyOf v = 0xD5 → bitsOf v 2 0 = 1 → bitAt v 15 = false → s.dpOn (bitsOf v 13 8) = true → s.discMay = true → completes (.discOpen m v) s fun t =>
    keepsQueue s t ∧ t.disc.queue.getLast? = some ⟨bitsOf v 13 8, true, 1⟩ ∧ t.disc.dps = s.disc.dps ∧ t.regs = s.regs) ∧
  (∀ (s : State) (m : Nat) (v : Word), lands s Reg.DISC_CMD → keyOf v = 0xD5 → bitsOf v 2 0 = 1 → s.discTargets v ≠ [] → s.discMay = true → completes (.discOpen m v) s fun t =>
    keepsQueue s t ∧ (∀ n ∈ s.discTargets v, ⟨n, true, 1⟩ ∈ t.disc.queue) ∧ t.disc.dps = s.disc.dps ∧ t.regs = s.regs) ∧
  (∀ (s : State) (m : Nat) (v : Word), lands s Reg.DISC_CMD → keyOf v = 0xD5 → (s.discTargets v = [] ∨ s.discMay = false ∨ bitsOf v 2 0 = 0 ∨ 3 < bitsOf v 2 0) →
    exec (.discOpen m v) s = .next { s with toDev := s.toDev.cfgErr Pg.DISC }) ∧
  (∀ (s : State) (m : Nat) (v : Word), lands s Reg.DISC_CMD → keyOf v = 0xD5 → bitsOf v 2 0 = 2 → bitAt v 15 = false → s.dpOn (bitsOf v 13 8) = true → s.discMay = true →
    (s.on (Fld.DISC_DP_CFG_LOCAL (bitsOf v 13 8)) = false → s.dpPrepaid (bitsOf v 13 8) = false → completes (.discClose m v) s fun t =>
      keepsQueue s t ∧ t.disc.queue.getLast? = some ⟨bitsOf v 13 8, false, 1⟩ ∧ t.disc.dps = s.disc.dps ∧ t.regs = s.regs) ∧
    ((s.on (Fld.DISC_DP_CFG_LOCAL (bitsOf v 13 8)) = true ∨ s.dpPrepaid (bitsOf v 13 8) = true) → (s.dp (bitsOf v 13 8)).isOpen = true → completes (.discClose m v) s fun t =>
      keepsQueue s t ∧ t.dpArmed (bitsOf v 13 8) = true ∧ t.disc.queue = s.disc.queue ∧ t.disc.dps = s.disc.dps)) ∧
  (∀ (s : State) (m : Nat) (v : Word), lands s Reg.DISC_CMD → keyOf v = 0xD5 → bitsOf v 2 0 = 3 → bitAt v 15 = false → s.dpOn (bitsOf v 13 8) = true → s.discMay = true → completes (.discDisarm m v) s fun t =>
    keepsQueue s t ∧ t.dpArmed (bitsOf v 13 8) = false ∧ t.disc.queue = s.disc.queue ∧ t.disc.dps = s.disc.dps) ∧
  (∀ (s : State) (k : Nat), s.mainOn = true → k < 8 → (∃ x ∈ s.disc.trips, x.1 = k) → s.dpOn (s.get (Fld.DISC_TRIP_DP k)) = true → (s.dp (s.get (Fld.DISC_TRIP_DP k))).isOpen = false → s.discMay = true →
    s.dpRunning (s.get (Fld.DISC_TRIP_DP k)) = false → s.get (Fld.DISC_TRIP_DP k) < s.disc.dps.length → completes (.tripBatch k) s fun t =>
      keepsQueue s t ∧ (t.dp (s.get (Fld.DISC_TRIP_DP k))).isOpen = true ∧ t.get (Fld.DISC_DP_STAT_CAUSE (s.get (Fld.DISC_TRIP_DP k))) = 3 ∧ t.dpArmed (s.get (Fld.DISC_TRIP_DP k)) = false) ∧
  (∀ (s : State) (k : Nat), s.mainOn = true → k < 8 → (∃ x ∈ s.disc.trips, x.1 = k) → s.dpOn (s.get (Fld.DISC_TRIP_DP k)) = true → (s.dp (s.get (Fld.DISC_TRIP_DP k))).isOpen = false → s.discMay = true →
    s.dpRunning (s.get (Fld.DISC_TRIP_DP k)) = true → completes (.tripBatch k) s fun t =>
      keepsQueue s t ∧ s.get (Fld.DISC_TRIP_DP k) ∈ t.disc.tripWait ∧ t.disc.dps = s.disc.dps ∧ t.disc.ranks = s.disc.ranks ∧ t.disc.queue = s.disc.queue) ∧
  (∀ (s : State) (k : Nat), s.mainOn = true → (∀ x ∈ s.disc.trips, x.1 ≠ k) → exec (.tripBatch k) s = .next s) ∧
  (∀ (s : State) (r : Rank) (rest : List Rank) (o : DOp), s.mainOn = true → s.discMay = true → s.disc.ranks = r :: rest → r.ops = [o] → o.dp < s.disc.dps.length → o.dp ∉ s.disc.tripWait → completes .rankGapExpiry s fun t =>
    keepsQueue s t ∧ t.disc.ranks = rest ∧ (t.dp o.dp).isOpen = o.isOpen ∧ t.dpPrepaid o.dp = (o.isOpen && o.cause == 2)) ∧
  (∀ s : State, s.mainOn = true → (s.discMay = false ∨ s.disc.ranks = []) → exec .rankGapExpiry s = .next s) ∧
  (∀ (s : State) (fb : Nat), s.mainOn = true → s.chainOn = true → completes (.chainRefresh fb) s fun t => keepsQueue s t ∧ t.disc.chainLatched = true ∧
    ∀ n, 16 ≤ n → n < 64 → n < s.disc.dps.length → (t.dp n).level = s.dpLevel n ∧ (t.dp n).isOpen = (s.dp n).isOpen) ∧
  (∀ (s : State) (fb : Nat), s.mainOn = true → s.chainOn = false → exec (.chainRefresh fb) s = .next s) ∧
  (∀ (s : State) (n : Nat) (fb : Bool), s.mainOn = true → n < 64 → n < s.disc.dps.length → s.fbOn n = true → (s.dp n).recheck = none → s.injArmed Pg.DISC n = false → n ∉ s.disc.tripWait →
    (s.fbOpen n fb = (s.dp n).isOpen → completes (.feedbackCheck n fb) s fun t => keepsQueue s t ∧ (t.dp n).pending = false ∧ (t.dp n).verified = true ∧ (t.dp n).isOpen = (s.dp n).isOpen) ∧
    (s.fbOpen n fb ≠ (s.dp n).isOpen → completes (.feedbackCheck n fb) s fun t => keepsQueue s t ∧ (t.dp n).recheck = some 1 ∧ (t.dp n).pending = (s.dp n).pending)) ∧
  (∀ (s : State) (n : Nat) (fb : Bool), s.mainOn = true → n < 64 → s.fbOn n = true → (s.dp n).recheck = some 1 → s.injArmed Pg.DISC n = false → n ∉ s.disc.tripWait → completes (.feedbackRecheck n fb) s fun t =>
    keepsQueue s t ∧ (t.dp n).pending = false ∧ (t.dp n).recheck = none ∧ (t.dp n).isOpen = (s.dp n).isOpen ∧ (t.dp n).verified = (s.fbOpen n fb == (s.dp n).isOpen) ∧
    (s.fbOpen n fb ≠ (s.dp n).isOpen → t.get (Fld.DISC_DP_STAT_FCODE n) = 1)) ∧
  (∀ (s : State) (n fb : Nat), s.mainOn = true → n < 16 → n < s.disc.dps.length → s.fbOn n = true → (s.dp n).verified = true → (s.dp n).pending = false → (s.dp n).recheck = none → s.fbOpen n (natBit fb n) ≠ (s.dp n).isOpen →
    completes (.feedbackSample fb) s fun t => keepsQueue s t ∧ (t.dp n).recheck = some 2 ∧ (t.dp n).isOpen = (s.dp n).isOpen) ∧
  (∀ (s : State) (n fb : Nat), s.mainOn = true → n < 16 → n < s.disc.dps.length → s.fbOn n = true → (s.dp n).verified = false → (s.dp n).pending = false → (s.dp n).recheck = none → s.fbOpen n (natBit fb n) = (s.dp n).isOpen →
    s.fbOpen n (natBit fb n) ≠ s.fbWas n → completes (.feedbackSample fb) s fun t => keepsQueue s t ∧ (t.dp n).verified = true ∧ (t.dp n).isOpen = (s.dp n).isOpen) ∧
  (∀ (s : State) (m n : Nat) (v : Word), n < 64 → lands s (Reg.DISC_DP_CFG n) → n < s.disc.dps.length →
    let w := BitVec.ofNat 32 (v.toNat &&& 0xFFF0FF00)
    let bad := s.dpPending n = true ∨ (16 ≤ n ∧ s.on Fld.DISC_CHAIN_CEN = false) ∨ (bitAt w 29 = true ∧ bitAt w 28 = false) ∨ (191 < bitsOf w 15 8 ∧ bitsOf w 15 8 ≠ 0xFF)
    (bad → exec (.dpConfigWrite m n v) s = .next { s with toDev := s.toDev.cfgErr Pg.DISC }) ∧
    (¬ bad → completes (.dpConfigWrite m n v) s fun t => keepsQueue s t ∧ t.rd (Reg.DISC_DP_CFG n) = w ∧ (t.dp n).verified = !bitAt w 21 ∧ (t.dp n).isOpen = (s.dp n).isOpen ∧ ∀ a, a ≠ Reg.DISC_DP_CFG n → t.rd a = s.rd a))

/-- R302, R305, R310–R314: display and buttons. A frame shows the page whole and leaves the clock and data lines low and INIT sends each of its entries; a press of button 0, a dwell's end and NEXT turn to the next page that scrolls, the press holding it; a short press selects the page's point, a long press is kept for the selected point's next second; holds and selections end; a press where none counts only shows on its button, and a command without its key is ignored. -/
def Obligations.DisplayCommandsComplete : Prop :=
  (∀ s : State, s.mainOn = true → s.dispOn = true → s.disp.table ≠ [] → completes .displayFrame s fun t => keepsQueue s t ∧
    t.disp = { s.disp with bits := s.frameBits, frames := s.disp.frames + 1, flash := !s.disp.flash } ∧ t.regs = s.regs ∧ (dispOf s.disp.table 1 ≠ [] → t.pins.dsck = .low ∧ t.pins.dsda = .low)) ∧
  (∀ s : State, s.mainOn = true → (s.dispOn = false ∨ s.disp.table = []) → exec .displayFrame s = .next s) ∧
  (∀ s : State, s.mainOn = true → s.dispOn = true → completes .displayInit s fun t => keepsQueue s t ∧ t.disp.frames = s.disp.frames + (dispOf s.disp.table 6).length ∧ t.disp.page = s.disp.page ∧ t.regs = s.regs) ∧
  (∀ s : State, s.mainOn = true → s.discMay = true → completes .btn0Press s fun t => keepsQueue s t ∧ t.disp.holding = true ∧ t.disp.sel = s.disp.sel ∧ (s.scrolled ≠ [] → t.disp.page ∈ s.scrolled) ∧
    ((∃ p ∈ s.scrolled, s.disp.page < p) → s.disp.page < t.disp.page ∧ ∀ p ∈ s.scrolled, s.disp.page < p → t.disp.page ≤ p)) ∧
  (∀ (s : State) (e : Entry), s.mainOn = true → s.discMay = true → s.pageEntry = some e → completes .btn1ShortPress s fun t =>
    keepsQueue s t ∧ t.disp = { s.disp with sel := if leAt e 3 1 = 0xFF then none else some (leAt e 3 1) } ∧ ∀ a, eventReg a = false → t.rd a = s.rd a) ∧
  (∀ s : State, s.mainOn = true → s.discMay = true → s.pageEntry = none → completes .btn1ShortPress s fun t => keepsQueue s t ∧ t.disp = s.disp ∧ natBit (t.get (Hdr.RAW Pg.DISP)) 1 = true) ∧
  (∀ s : State, s.mainOn = true → s.discMay = true → s.disp.sel = none → completes .btn1LongPress s fun t => keepsQueue s t ∧ t.disc.presses = s.disc.presses ∧ t.disp = s.disp ∧ natBit (t.get (Hdr.RAW Pg.DISP)) 2 = true) ∧
  (∀ (s : State) (b : Nat), s.mainOn = true → s.discMay = true → s.disp.sel = some b → completes .btn1LongPress s fun t =>
    keepsQueue s t ∧ t.disc.presses = s.disc.presses ++ [b] ∧ t.disp = s.disp ∧ t.pins.btn1 = true) ∧
  (∀ s : State, s.mainOn = true → s.discMay = false → exec .btn0Press s = .next { s with toDev := s.toDev.btn0Down } ∧ exec .btn1ShortPress s = .next { s with toDev := s.toDev.btn1Up } ∧
    exec .btn1LongPress s = .next { s with toDev := s.toDev.btn1Down }) ∧
  (∀ s : State, s.mainOn = true → s.disp.holding = false → s.dispOn = true → s.scrolled ≠ [] → completes .pageDwellExpiry s fun t => keepsQueue s t ∧ t.disp.page ∈ s.scrolled ∧ t.disp.holding = false ∧ t.regs = s.regs) ∧
  (∀ s : State, s.mainOn = true → s.disp.holding = true → exec .pageDwellExpiry s = .next s) ∧
  (∀ s : State, s.mainOn = true → exec .scrollHoldExpiry s = .next { s with toDev := { s.toDev with disp := { s.disp with holding := false } } }) ∧
  (∀ s : State, s.mainOn = true → exec .selectionTimeout s = .next { s with toDev := { s.toDev with disp := { s.disp with sel := none } } }) ∧
  (∀ (s : State) (m : Nat) (v : Word), lands s Reg.DISP_CMD → keyOf v = 0x4D → bitsOf v 1 0 = 1 → s.scrolled ≠ [] → completes (.dispNext m v) s fun t => keepsQueue s t ∧ t.disp.page ∈ s.scrolled ∧ t.disp.sel = s.disp.sel ∧ t.regs = s.regs) ∧
  (∀ (s : State) (m : Nat) (v : Word), lands s Reg.DISP_CMD → keyOf v = 0x4D → bitsOf v 1 0 = 2 → exec (.dispSelect m v) s = .next { s with toDev := { s.toDev with disp := { s.disp with sel := some (bitsOf v 21 16) } } }) ∧
  (∀ (s : State) (m : Nat) (v : Word), lands s Reg.DISP_CMD → keyOf v = 0x4D → bitsOf v 1 0 = 3 → exec (.dispResume m v) s = .next { s with toDev := { s.toDev with disp := { s.disp with holding := false } } }) ∧
  (∀ (s : State) (m : Nat) (v : Word), lands s Reg.DISP_CMD → keyOf v ≠ 0x4D → exec (.dispNext m v) s = .next { s with toDev := s.toDev.lockErr Pg.DISP })

/-- R321–R325, R331: tamper detection, also on backup power. A case switch at its tamper level sets its sticky flag and, where ERASE names it, erases the owner key, and at the other level it ends the condition shown in LIVE; a burst that returns as driven leaves nothing but the loop's next pattern, one with two wrong bits or more asks for a retry, and a retry that fails again sets the loop's flag with its kind, one that passes with a single wrong bit counts it as noise; a source that is not active shows its level on the pin alone, and without backup power nothing happens. The flags clear by name for the session's privileged master only, and not while their condition is present. -/
def Obligations.TamperCommandsComplete : Prop :=
  (∀ (s : State) (n : Nat) (high : Bool), s.power.bkpAlive = true → n < 4 → s.tampActive n = true → s.caseBad n high = true → completes (.caseTamper ⟨n, high⟩) s fun t => keepsQueue s t ∧ t.pins.case = putBit s.pins.case n high ∧ natBit (t.get Fld.TAMP_STICKY_SRC) n = true ∧ natBit (t.get Fld.TAMP_LIVE_SRC) n = true ∧
    (s.get (Fld.TAMP_STAMP_T n) ≠ 0 → t.get (Fld.TAMP_STAMP_T n) = s.get (Fld.TAMP_STAMP_T n)) ∧
    (natBit (s.get Fld.TAMP_ERASE_SRC) n = true → t.sec.okey = none ∧ t.on Fld.TAMP_STICKY_ERASED = true ∧ t.on Fld.SEC_STAT_SESSION = false) ∧
    (natBit (s.get Fld.TAMP_ERASE_SRC) n = false → t.sec = s.sec)) ∧
  (∀ (s : State) (n : Nat) (high : Bool), s.power.bkpAlive = true → n < 4 → s.tampActive n = true → s.caseBad n high = false →
    exec (.caseTamper ⟨n, high⟩) s = .next { s with toDev := Dev.tampLive { s.toDev with pins := { s.pins with case := putBit s.pins.case n high } } n false }) ∧
  (∀ (s : State) (n : Nat) (high : Bool), s.power.bkpAlive = true → n < 4 → s.tampActive n = false → exec (.caseTamper ⟨n, high⟩) s = .next { s with toDev := { s.toDev with pins := { s.pins with case := putBit s.pins.case n high } } }) ∧
  (∀ (s : State) (n : Nat) (high : Bool), (s.power.bkpAlive = false ∨ 4 ≤ n) → exec (.caseTamper ⟨n, high⟩) s = .next s) ∧
  (∀ (s : State) (n bits : Nat), s.power.bkpAlive = true → n < 4 → s.tampActive (4 + n) = true → n < s.tamp.lfsr.length →
    completes (.laceBurst n bits) s fun t => keepsQueue s t ∧ nth t.tamp.lfsr n 1 = (lfsrBits 16 (nth s.tamp.lfsr n 1)).2 ∧ t.get Fld.TAMP_STICKY_SRC = s.get Fld.TAMP_STICKY_SRC ∧
      (s.injArmed Pg.TAMP (4 + n) = false → laceMiss (lfsrBits 16 (nth s.tamp.lfsr n 1)).1 bits ≤ 1 → t.tamp.retry = s.tamp.retry) ∧
      ((s.injArmed Pg.TAMP (4 + n) = true ∨ 2 ≤ laceMiss (lfsrBits 16 (nth s.tamp.lfsr n 1)).1 bits) → n < s.tamp.retry.length → nth t.tamp.retry n false = true)) ∧
  (∀ (s : State) (n bits : Nat), s.power.bkpAlive = true → n < 4 → s.tampActive (4 + n) = true → nth s.tamp.retry n false = true → s.injArmed Pg.TAMP (4 + n) = false →
    completes (.laceRetry n bits) s fun t => keepsQueue s t ∧ nth t.tamp.retry n false = false ∧
      (2 ≤ laceMiss (lfsrBits 16 (nth s.tamp.lfsr n 1)).1 bits → natBit (t.get Fld.TAMP_STICKY_SRC) (4 + n) = true ∧
        t.get ⟨Reg.TAMP_LACE_STAT, 8 * n + 1, 8 * n⟩ = (if bits % 65536 = 0 then 1 else if bits % 65536 = 65535 then 2 else 3)) ∧
      (laceMiss (lfsrBits 16 (nth s.tamp.lfsr n 1)).1 bits ≤ 1 → t.get Fld.TAMP_STICKY_SRC = s.get Fld.TAMP_STICKY_SRC) ∧
      (laceMiss (lfsrBits 16 (nth s.tamp.lfsr n 1)).1 bits = 1 → t.get (laceByte Fld.TAMP_LACE_NOISE_LOOPS n) = satN 255 (s.get (laceByte Fld.TAMP_LACE_NOISE_LOOPS n) + 1))) ∧
  (∀ (s : State) (m n present : Nat) (v : Word), lands s Reg.TAMP_STICKY → s.session m = true → privMaster m = true → n < 11 → bitAt v n = true → natBit (s.get Fld.TAMP_STICKY_SRC) n = true →
    let live := if n < 8 then natBit present n else natBit (s.get Fld.TAMP_LIVE_SRC) n
    (live = false → completes (.stickyClear m v present) s fun t => keepsQueue s t ∧ natBit (t.get Fld.TAMP_STICKY_SRC) n = false ∧ t.get (Fld.TAMP_STAMP_T n) = 0) ∧
    (live = true → completes (.stickyClear m v present) s fun t => keepsQueue s t ∧ natBit (t.get Fld.TAMP_STICKY_SRC) n = true ∧ t.get (Fld.TAMP_STAMP_T n) = s.get (Fld.TAMP_STAMP_T n) ∧ t.on (Hdr.CFGERR Pg.TAMP) = true)) ∧
  (∀ (s : State) (m present : Nat) (v : Word), lands s Reg.TAMP_STICKY → (s.session m = false ∨ privMaster m = false) → completes (.stickyClear m v present) s fun t =>
    keepsQueue s t ∧ t.rd Reg.TAMP_STICKY = s.rd Reg.TAMP_STICKY ∧ t.on (Hdr.LOCKERR Pg.TAMP) = true)

/-- R327–R337, R341: the key store. A drawn nonce is kept; an AUTH whose MAC is right opens the session for its master and clears the failures, a wrong one counts; either way the nonce is used up. INSTALL puts KEYIN in as owner key and clears it, from the two host masters only; SEAL and UNSEAL change the seal; a loaded key is in use; fuses named are programmed with enough supply, in RUN or QUIET, up to the one that fails, and are blown when the operation ends; each operation runs until its end shows OP, REASON and DONE. -/
def Obligations.SecurityCommandsComplete : Prop :=
  (∀ (s : State) (m : Nat), s.mainOn = true → completes (.nonceDraw m) s fun t => keepsQueue s t ∧ t.free = s.free + 16 ∧ t.sec = { s.sec with nonce := some ((List.range 16).map fun i => Config.randByte (s.free + i)) }) ∧
  (∀ (s : State) (m : Nat) (v : Word) (k n : List Byte), lands s Reg.SEC_CMD → keyOf v = 0xA9 → bitsOf v 3 0 = 1 → s.on Fld.SEC_RESULT_BUSY = false → s.lockedOut = false → s.sec.okey = some k → s.sec.nonce = some n → m < 32 →
    (s.wordBytes (Reg.SEC_AUTH 0) 8 = hmac k (n ++ s.otp.devid ++ [BitVec.ofNat 8 m]) → completes (.secAuth m v) s fun t => keepsQueue s t ∧ t.on Fld.SEC_STAT_SESSION = true ∧ t.get Fld.SEC_STAT_MASTER = m ∧
      t.sec.fails = 0 ∧ t.sec.nonce = none ∧ t.sec.running = some ⟨1, 0⟩ ∧ t.on Fld.SEC_RESULT_BUSY = true) ∧
    (s.wordBytes (Reg.SEC_AUTH 0) 8 ≠ hmac k (n ++ s.otp.devid ++ [BitVec.ofNat 8 m]) → completes (.secAuth m v) s fun t => keepsQueue s t ∧ t.rd Reg.SEC_STAT = s.rd Reg.SEC_STAT ∧
      t.sec.fails = satN 255 (s.sec.fails + 1) ∧ t.sec.lockEnd = s.lockFrom (satN 255 (s.sec.fails + 1)) ∧ t.sec.nonce = none ∧ t.sec.running = some ⟨1, 2⟩)) ∧
  (∀ (s : State) (m : Nat) (v : Word), lands s Reg.SEC_CMD → keyOf v = 0xA9 → bitsOf v 3 0 = 1 → s.on Fld.SEC_RESULT_BUSY = false → s.lockedOut = true → completes (.secAuth m v) s fun t =>
    keepsQueue s t ∧ t.rd Reg.SEC_STAT = s.rd Reg.SEC_STAT ∧ t.sec.fails = s.sec.fails ∧ t.sec.running = some ⟨1, 3⟩) ∧
  (∀ (s : State) (m : Nat) (v : Word), lands s Reg.SEC_CMD → keyOf v = 0xA9 → bitsOf v 3 0 = 1 → s.on Fld.SEC_RESULT_BUSY = true → exec (.secAuth m v) s = .next { s with toDev := s.toDev.cfgErr Pg.SEC }) ∧
  (∀ (s : State) (m : Nat) (v : Word), lands s Reg.SEC_CMD → keyOf v = 0xA9 → bitsOf v 3 0 = 2 → s.on Fld.SEC_RESULT_BUSY = false → s.session m = true → completes (.secClose m v) s fun t =>
    keepsQueue s t ∧ t.on Fld.SEC_STAT_SESSION = false ∧ t.sec.running = some ⟨2, 0⟩ ∧ t.sec.okey = s.sec.okey) ∧
  (∀ (s : State) (m : Nat) (v : Word), lands s Reg.SEC_CMD → keyOf v = 0xA9 → bitsOf v 3 0 = 3 → s.on Fld.SEC_RESULT_BUSY = false →
    (m = 16 ∨ m = 17 → ((s.sec.okey.isSome = true ∧ s.session m = true) ∨ (s.sec.okey = none ∧ s.otp.oroot = none)) → completes (.secInstall m v) s fun t => keepsQueue s t ∧ t.sec.okey = some s.keyIn ∧ t.sec.running = some ⟨3, 0⟩ ∧ ∀ i, i < 8 → t.rd (Reg.SEC_KEYIN 0 + 4 * i) = 0) ∧
    (m = 16 ∨ m = 17 → s.sec.okey.isSome = true → s.session m = false → completes (.secInstall m v) s fun t => keepsQueue s t ∧ t.sec.okey = s.sec.okey ∧ t.sec.running = some ⟨3, 1⟩ ∧ ∀ i, i < 8 → t.rd (Reg.SEC_KEYIN 0 + 4 * i) = 0) ∧
    (∀ root, m = 16 ∨ m = 17 → s.sec.okey = none → s.otp.oroot = some root → s.ticketOk root = false → completes (.secInstall m v) s fun t => keepsQueue s t ∧ t.sec.okey = none ∧ t.sec.running = some ⟨3, 7⟩ ∧ ∀ i, i < 8 → t.rd (Reg.SEC_KEYIN 0 + 4 * i) = 0) ∧
    (m ≠ 16 → m ≠ 17 → completes (.secInstall m v) s fun t => keepsQueue s t ∧ t.sec.okey = s.sec.okey ∧ t.sec.running = some ⟨3, 8⟩ ∧ ∀ i, i < 8 → t.rd (Reg.SEC_KEYIN 0 + 4 * i) = 0)) ∧
  (∀ (s : State) (m : Nat) (v : Word), lands s Reg.SEC_CMD → keyOf v = 0xA9 → s.on Fld.SEC_RESULT_BUSY = false → privMaster m = true → s.session m = true →
    (bitsOf v 3 0 = 4 → completes (.secSeal m v) s fun t => keepsQueue s t ∧ t.isSealed = true ∧ t.sec.running = some ⟨4, 0⟩) ∧
    (bitsOf v 3 0 = 5 → s.otp.sealPerm = false → completes (.secUnseal m v) s fun t => keepsQueue s t ∧ t.isSealed = false ∧ t.sec.running = some ⟨5, 0⟩ ∧ ∀ b, b < s.bill.img.bp.length → natBit (t.bp b).flags 8 = true) ∧
    (bitsOf v 3 0 = 5 → s.otp.sealPerm = true → completes (.secUnseal m v) s fun t => keepsQueue s t ∧ t.isSealed = s.isSealed ∧ t.sec.running = some ⟨5, 5⟩ ∧ t.bill = s.bill) ∧
    (bitsOf v 3 0 = 6 → s.sec.okey.isSome = true → completes (.secLoadToken m v) s fun t => keepsQueue s t ∧ t.sec.tok = some s.keyIn ∧ t.sec.net = s.sec.net ∧ t.sec.running = some ⟨6, 0⟩) ∧
    (bitsOf v 3 0 = 7 → s.sec.okey.isSome = true → completes (.secLoadLink m v) s fun t => keepsQueue s t ∧ t.sec.net = some s.keyIn ∧ t.sec.tok = s.sec.tok ∧ t.sec.running = some ⟨7, 0⟩) ∧
    (∀ failAt, bitsOf v 3 0 = 8 → s.get Fld.PWR_VSUP_MEAS_MV < 10000 → completes (.secFuse m v failAt) s fun t => keepsQueue s t ∧ t.otp = s.otp ∧ t.sec.running = some ⟨8, 6⟩) ∧
    (∀ failAt, bitsOf v 3 0 = 8 → 10000 ≤ s.get Fld.PWR_VSUP_MEAS_MV → (s.power.st = .holdup ∨ s.power.st = .shutdownTest) → completes (.secFuse m v failAt) s fun t => keepsQueue s t ∧ t.otp = s.otp ∧ t.sec = { s.sec with running := some ⟨8, 9⟩ }) ∧
    (∀ failAt, bitsOf v 3 0 = 8 → 10000 ≤ s.get Fld.PWR_VSUP_MEAS_MV → s.power.st ≠ .holdup → s.power.st ≠ .shutdownTest → (s.on Fld.SEC_FUSE_OROOT && s.otp.oroot.isSome) = true →
      completes (.secFuse m v failAt) s fun t => keepsQueue s t ∧ t.otp = s.otp ∧ t.sec = { s.sec with running := some ⟨8, 10⟩ }) ∧
    (∀ failAt, bitsOf v 3 0 = 8 → 10000 ≤ s.get Fld.PWR_VSUP_MEAS_MV → s.power.st ≠ .holdup → s.power.st ≠ .shutdownTest → (s.on Fld.SEC_FUSE_OROOT && s.otp.oroot.isSome) = false → completes (.secFuse m v failAt) s fun t =>
      keepsQueue s t ∧ t.otp = s.otp ∧ t.sec = { s.sec with fusing := s.fuseBits.take failAt, running := some ⟨8, if failAt < s.fuseBits.length then 11 else 0⟩ }) ∧
    (bitsOf v 3 0 = 9 → completes (.secEraseTest m v) s fun t => keepsQueue s t ∧ t.sec = { s.sec with eraseTest := true, running := some ⟨9, 0⟩ })) ∧
  (∀ s : State, s.mainOn = true → completes .sessionExpiry s fun t => keepsQueue s t ∧ t.on Fld.SEC_STAT_SESSION = false ∧ t.sec.okey = s.sec.okey ∧ t.sec.running = s.sec.running) ∧
  (∀ (s : State) (r : SecOp), s.mainOn = true → s.sec.running = some r → completes .secOperationEnded s fun t => keepsQueue s t ∧ t.sec = { s.sec with running := none, fusing := [] } ∧
    t.otp = s.sec.fusing.foldl Otp.blow s.otp ∧ (∀ n, n < 11 → natBit t.otp.fused n = (natBit s.otp.fused n || s.sec.fusing.contains n)) ∧ t.otp.sealPerm = (s.otp.sealPerm || s.sec.fusing.contains 16) ∧ t.otp.seed = s.otp.seed ∧
    t.on Fld.SEC_RESULT_BUSY = false ∧ t.on Fld.SEC_RESULT_DONE = true ∧ t.get Fld.SEC_RESULT_REASON = r.reason % 16 ∧ t.get Fld.SEC_RESULT_OP = r.op % 16) ∧
  (∀ s : State, s.mainOn = true → s.sec.running = none → exec .secOperationEnded s = .next s)

/-- R329, R331: SEAL, UNSEAL, LOAD_TOKEN, LOAD_LINK, FUSE and ERASE_TEST do nothing but end with their reason where the master may not carry out privileged operations, or does not hold the session. -/
def Obligations.PrivilegedOperationsRefused : Prop :=
  ∀ (s : State) (m failAt : Nat) (v : Word), lands s Reg.SEC_CMD → keyOf v = 0xA9 → s.on Fld.SEC_RESULT_BUSY = false → (privMaster m = false ∨ s.session m = false) →
    let refused := fun (op : Nat) => { s with toDev := { s.toDev.set Fld.SEC_RESULT_BUSY 1 with sec := { s.sec with running := some ⟨op, if privMaster m then 1 else 8⟩ } } }
    (bitsOf v 3 0 = 4 → exec (.secSeal m v) s = .next (refused 4)) ∧ (bitsOf v 3 0 = 5 → exec (.secUnseal m v) s = .next (refused 5)) ∧
    (bitsOf v 3 0 = 6 → exec (.secLoadToken m v) s = .next (refused 6)) ∧ (bitsOf v 3 0 = 7 → exec (.secLoadLink m v) s = .next (refused 7)) ∧
    (bitsOf v 3 0 = 8 → exec (.secFuse m v failAt) s = .next (refused 8)) ∧ (bitsOf v 3 0 = 9 → exec (.secEraseTest m v) s = .next (refused 9))

/-- R343–R363: the clock. A tick enters the next second, wraps with RANGE past the calendar's end, sets the flag of every enabled alarm that matches, and brings a TRIM written into effect; an alarm's pulse ends in the second of its end and not before; a clear of an alarm's flag ends its level; a read of TIME_LO freezes the time for its master and a read of TIME_HI releases it; a set of a valid date takes effect, keeps the old time and sets SETSINCE, an invalid one sets DATEERR; a shift is accepted or refused; OSF clears only after a set; a stopped crystal sets OSF. -/
def Obligations.ClockCommandsComplete : Prop :=
  (∀ s : State, s.power.bkpAlive = true → s.secs + 1 < calendarEnd → completes .rtcSecondTick s fun t => keepsQueue s t ∧ t.rtc.lin = (s.secs + 1) * 32768 ∧
    ∀ k, k < 2 → s.on (almEn k) = true → almMatch (s.rd (Reg.RTC_ALM_VAL_LO k)) (s.rd (Reg.RTC_ALM_VAL_HI k)) (s.get (Fld.RTC_ALM_CFG_MASK k)) (s.secs + 1) = true → t.on (almStat k) = true) ∧
  (∀ s : State, s.power.bkpAlive = true → completes .rtcSecondTick s fun t => t.rtc.trimNew = false ∧ t.rtc.trim = (if s.rtc.trimNew then s.getI Fld.RTC_TRIM_VAL else s.rtc.trim)) ∧
  (∀ s : State, s.power.bkpAlive = true → s.secs + 1 = calendarEnd → completes .rtcSecondTick s fun t => keepsQueue s t ∧ t.rtc.lin = 0 ∧ t.on Fld.RTC_STAT_RANGE = true) ∧
  (∀ (s : State) (k : Nat), s.power.bkpAlive = true → k < 2 → k < s.rtc.pulse.length → nth s.rtc.pulse k 0 < (s.secs + 1) * 32768 → completes (.alarmPulseEnd k) s fun t =>
    keepsQueue s t ∧ nth t.rtc.pulse k 1 = 0 ∧ t.pins.alarmN = !t.alarmLow ∧ t.rtc.lin = max s.rtc.lin (nth s.rtc.pulse k 0) ∧ ∀ a, a ≠ Reg.RTC_SHIFT_LEFT → t.rd a = s.rd a) ∧
  (∀ (s : State) (k : Nat), (2 ≤ k ∨ (s.secs + 1) * 32768 ≤ nth s.rtc.pulse k 0) → exec (.alarmPulseEnd k) s = .next s) ∧
  (∀ s : State, s.power.bkpAlive = false → exec .rtcSecondTick s = .next s ∧ exec (.alarmPulseEnd 0) s = .next s ∧ exec .shiftComplete s = .next s ∧ exec .crystalStop s = .next s ∧ exec .crystalResume s = .next s ∧ exec (.evinEdge 0 true 0) s = .next s) ∧
  (∀ (s : State) (m sub : Nat), s.mainOn = true → completes (.timeFreezeRead m sub) s fun t => keepsQueue s t ∧ t.rtc.lin = s.secs * 32768 + sub % 32768 ∧
    t.linFor m = s.secs * 32768 + sub % 32768 ∧ (m, Reg.RTC_TIME_LO, Answer.word (timeLo (s.secs * 32768 + sub % 32768))) ∈ t.bus.answers) ∧
  (∀ (s : State) (m : Nat), s.mainOn = true → completes (.timeReleaseRead m) s fun t => keepsQueue s t ∧ t.rtc.lin = s.rtc.lin ∧ lookup t.rtc.frozen m = none ∧ (m, Reg.RTC_TIME_HI, Answer.word (timeHi (s.linFor m))) ∈ t.bus.answers) ∧
  (∀ (s : State) (m : Nat), s.mainOn = true → exec (.freezeCopyExpiry m) s = .next { s with toDev := { s.toDev with rtc := { s.rtc with frozen := s.rtc.frozen.filter fun c => c.1 != m } } }) ∧
  (∀ (s : State) (m sub : Nat) (v : Word), lands s Reg.RTC_CMD → keyOf v = 0x2B → bitsOf v 2 0 = 1 → s.power.st ≠ .holdup → s.power.st ≠ .shutdownTest →
    let d := dateOf (s.rd Reg.RTC_SET_LO) (s.rd Reg.RTC_SET_HI)
    (d.valid = true → completes (.rtcSet m v sub) s fun t => keepsQueue s t ∧ t.rtc.lin = d.toSecs * 32768 + bitsOf (s.rd Reg.RTC_SET_LO) 14 0 ∧
      t.get64 Reg.RTC_OLD_LO Reg.RTC_OLD_HI = (s.secs * 32768 + sub % 32768) % 2 ^ 64 ∧ t.on Fld.RTC_STAT_SETSINCE = true ∧ t.on Fld.RTC_STAT_SHIFT_BUSY = false) ∧
    (d.valid = false → completes (.rtcSet m v sub) s fun t => keepsQueue s t ∧ t.rtc.lin = s.secs * 32768 + sub % 32768 ∧ t.on Fld.RTC_STAT_DATEERR = true ∧ t.on (Hdr.CFGERR Pg.RTC) = true)) ∧
  (∀ (s : State) (m sub : Nat) (v : Word), lands s Reg.RTC_CMD → keyOf v = 0x2B → bitsOf v 2 0 = 2 → s.getI Fld.RTC_SHIFT_VAL ≠ 0 → (s.getI Fld.RTC_SHIFT_VAL).natAbs ≤ 32768 → s.on Fld.RTC_STAT_SHIFT_BUSY = false →
    completes (.rtcShift m v sub) s fun t => keepsQueue s t ∧ t.get Fld.RTC_SHIFT_LEFT_N = (s.getI Fld.RTC_SHIFT_VAL).natAbs ∧ t.on Fld.RTC_STAT_SHIFT_BUSY = true ∧ t.rtc.shiftNeg = decide (s.getI Fld.RTC_SHIFT_VAL < 0)) ∧
  (∀ (s : State) (m sub : Nat) (v : Word), lands s Reg.RTC_CMD → keyOf v = 0x2B → bitsOf v 2 0 = 2 → (s.getI Fld.RTC_SHIFT_VAL = 0 ∨ 32768 < (s.getI Fld.RTC_SHIFT_VAL).natAbs ∨ s.on Fld.RTC_STAT_SHIFT_BUSY = true) →
    exec (.rtcShift m v sub) s = .next { s with toDev := (s.toDev.linSub sub).cfgErr Pg.RTC }) ∧
  (∀ s : State, s.power.bkpAlive = true → s.on Fld.RTC_STAT_SHIFT_BUSY = true → completes .shiftComplete s fun t => keepsQueue s t ∧ t.get Fld.RTC_SHIFT_LEFT_N = 0 ∧ t.on Fld.RTC_STAT_SHIFT_BUSY = false ∧ t.rtc.lin = s.rtc.lin) ∧
  (∀ (s : State) (m : Nat) (v : Word), lands s Reg.RTC_STAT → bitAt v 0 = true → s.on Fld.RTC_STAT_OSF = true →
    (s.on Fld.RTC_STAT_SETSINCE = true → completes (.osfClear m v) s fun t => keepsQueue s t ∧ t.on Fld.RTC_STAT_OSF = false ∧ t.rtc.lin = s.rtc.lin) ∧
    (s.on Fld.RTC_STAT_SETSINCE = false → completes (.osfClear m v) s fun t => keepsQueue s t ∧ t.on Fld.RTC_STAT_OSF = true ∧ t.on (Hdr.CFGERR Pg.RTC) = true ∧ t.rtc = { s.rtc with level := t.rtc.level })) ∧
  (∀ (s : State) (m k : Nat) (v : Word), lands s Reg.RTC_STAT → k < 2 → bitAt v (almStat k).lo = true → (bitAt v 0 = false ∨ s.on Fld.RTC_STAT_OSF = false) → completes (.osfClear m v) s fun t =>
    keepsQueue s t ∧ t.on (almStat k) = false ∧ nth t.rtc.level k false = false ∧ t.pins.alarmN = !t.alarmLow ∧ t.on Fld.RTC_STAT_OSF = s.on Fld.RTC_STAT_OSF) ∧
  (∀ s : State, s.power.bkpAlive = true → completes .crystalStop s fun t => keepsQueue s t ∧ t.on Fld.RTC_STAT_OSF = true ∧ t.on Fld.RTC_STAT_SETSINCE = false ∧ t.on Fld.RTC_STAT_ON_RC = true ∧ t.on Fld.CLK_STAT_X32_OK = false ∧ t.rtc.rate = none ∧ t.rtc.lin = s.rtc.lin) ∧
  (∀ s : State, s.power.bkpAlive = true → completes .crystalResume s fun t => keepsQueue s t ∧ t.on Fld.RTC_STAT_ON_RC = false ∧ t.on Fld.CLK_STAT_X32_OK = true ∧ t.on Fld.RTC_STAT_OSF = s.on Fld.RTC_STAT_OSF ∧ t.rtc = s.rtc)

/-- R354–R356, R364, R365: trim, rate measurement, EVIN and the battery. A rate measurement starts and stops, and ends with the error in its field once its reference is complete and not before; a TRIM written waits for the next tick, the temperature's correction is computed again while the sensor is valid and held otherwise; an enabled edge of EVIN is stamped and counted; the battery is LOW below 2500 mV and no longer above 2550 mV. -/
def Obligations.RateAndInputCommandsComplete : Prop :=
  (∀ (s : State) (m : Nat) (v : Word), lands s Reg.RTC_CMD → keyOf v = 0x2B → bitsOf v 2 0 = 3 → 1 ≤ s.get Fld.RTC_RATE_CFG_HOURS → s.get Fld.RTC_RATE_CFG_HOURS ≤ 48 → completes (.rateStart m v) s fun t =>
    keepsQueue s t ∧ t.on Fld.RTC_RATE_RES_BUSY = true ∧ ∃ r, t.rtc.rate = some r ∧ r.src = s.get Fld.RTC_RATE_CFG_SRC ∧ r.grp = s.get Fld.RTC_RATE_CFG_GRP ∧ r.hours = s.get Fld.RTC_RATE_CFG_HOURS ∧ r.lin0 = (if s.get Fld.RTC_RATE_CFG_SRC = 1 then some s.linNow else none)) ∧
  (∀ (s : State) (m : Nat) (v : Word), lands s Reg.RTC_CMD → keyOf v = 0x2B → bitsOf v 2 0 = 3 → (s.get Fld.RTC_RATE_CFG_HOURS = 0 ∨ 48 < s.get Fld.RTC_RATE_CFG_HOURS) → exec (.rateStart m v) s = .next { s with toDev := s.toDev.cfgErr Pg.RTC }) ∧
  (∀ (s : State) (m : Nat) (v : Word), lands s Reg.RTC_CMD → keyOf v = 0x2B → bitsOf v 2 0 = 4 → s.rtc.rate.isSome = true → completes (.rateStop m v) s fun t =>
    keepsQueue s t ∧ t.rtc.rate = none ∧ t.on Fld.RTC_RATE_RES_VOID = true ∧ t.on Fld.RTC_RATE_RES_BUSY = false) ∧
  (∀ (s : State) (sub l0 l1 : Nat) (r : RateM), s.mainOn = true → s.rtc.rate = some r → r.lin0 = some l0 →
    (if r.src = 1 then (if r.hours * 3600000000 ≤ s.ntNow - r.count then some (s.secs * 32768 + sub % 32768) else none) else r.lin1) = some l1 → completes (.rateMeasurementEnd sub) s fun t =>
      keepsQueue s t ∧ t.rtc.rate = none ∧ t.on Fld.RTC_RATE_RES_DONE = true ∧ t.on Fld.RTC_RATE_RES_BUSY = false ∧
      t.getI Fld.RTC_RATE_RES_ERR = (if r.src = 1 then rateErr ((s.ntNow - r.count) * 32768) 1000000 (l1 - l0) else rateErr (r.hours * 3600 * 32768) 1 (l1 - l0))) ∧
  (∀ (s : State) (sub : Nat) (r : RateM), s.mainOn = true → s.rtc.rate = some r → (r.lin0 = none ∨ (r.src = 1 ∧ s.ntNow - r.count < r.hours * 3600000000) ∨ (r.src ≠ 1 ∧ r.lin1 = none)) →
    exec (.rateMeasurementEnd sub) s = .next { s with toDev := s.toDev.linSub sub }) ∧
  (∀ (s : State) (m : Nat) (v : Word), lands s Reg.RTC_TRIM → keyOf v = 0x2B → completes (.trimWrite m v) s fun t => keepsQueue s t ∧ (s.rtc.autoDue = none → t.get Fld.RTC_TRIM_VAL = bitsOf v 15 0) ∧ t.rtc.trimNew = true ∧ t.rtc.trim = s.rtc.trim ∧ t.on Fld.RTC_STAT_SHIFT_BUSY = false ∧ t.rtc.rate = none) ∧
  (∀ s : State, s.mainOn = true → s.on Fld.RTC_CTRL_TC_EN = true → s.on Fld.UGRP_TEMP_VALID = true → exec .trimTempUpdate s =
    .next { s with toDev := s.toDev.linSync.rtcUpd fun r => { r with corr := s.getI Fld.RTC_TCOMP_K * (s.getI Fld.UGRP_TEMP_T - s.getI Fld.RTC_TCOMP_T0) * (s.getI Fld.UGRP_TEMP_T - s.getI Fld.RTC_TCOMP_T0) } }) ∧
  (∀ s : State, (s.mainOn = false ∨ s.on Fld.RTC_CTRL_TC_EN = false ∨ s.on Fld.UGRP_TEMP_VALID = false) → exec .trimTempUpdate s = .next s) ∧
  (∀ (s : State) (n sub : Nat) (rising : Bool), s.power.bkpAlive = true → n < 2 → s.evinOn n rising = true → completes (.evinEdge n rising sub) s fun t => keepsQueue s t ∧ t.get64 (Reg.RTC_EVIN_STAMP_LO n) (Reg.RTC_EVIN_STAMP_HI n) = (s.secs * 32768 + sub % 32768) % 2 ^ 64 ∧
    t.on (Fld.RTC_EVIN_CNT_OSF n) = s.on Fld.RTC_STAT_OSF ∧ (s.get (Fld.RTC_EVIN_CNT_N n) < 65535 → t.get (Fld.RTC_EVIN_CNT_N n) = s.get (Fld.RTC_EVIN_CNT_N n) + 1)) ∧
  (∀ (s : State) (n sub : Nat) (rising : Bool), (2 ≤ n ∨ s.evinOn n rising = false) → exec (.evinEdge n rising sub) s = .next s) ∧
  (∀ (s : State) (mv : Nat), s.mainOn = true → completes (.vbatMeasure mv) s fun t => keepsQueue s t ∧ t.get Fld.RTC_VBAT_MV = min mv 65535 ∧ (mv < 2500 → t.on Fld.RTC_VBAT_LOW = true) ∧ (2550 < mv → t.on Fld.RTC_VBAT_LOW = false) ∧
    (2500 ≤ mv → mv ≤ 2550 → t.on Fld.RTC_VBAT_LOW = s.on Fld.RTC_VBAT_LOW) ∧ ∀ a, a ≠ Reg.RTC_VBAT → t.rd a = s.rd a)

/-- R382, R383, R384, R386–R388: a frame reaches nothing where the node may not receive or is sending, and frame control that fails is counted and raises event 1; a reserved type is counted too, after its sender's entry is updated. A SOUND answers with a TONEMAP of the map built from its SNRs; an acceptable TONEMAP is installed, another is refused and counted, and a repeated one is not installed again; an ACK ends the frame in flight, a NAK or a timeout sends it again up to three times and then hands it back undelivered. -/
def Obligations.FrameReceptionCommandsComplete : Prop :=
  (∀ (s : State) (rx : RxInfo) (fc p : List Byte) (snrs : List (List Int)), s.mainOn = true → (s.plcMayRx = false ∨ s.plcSends = true) →
    exec (.ackFrame rx fc) s = .next s ∧ exec (.soundFrame rx fc snrs) s = .next s ∧ exec (.tonemapFrame rx fc p) s = .next s ∧ exec (.beaconFrame rx fc p) s = .next s ∧ exec (.dataFrame rx fc p) s = .next s) ∧
  (∀ (s : State) (rx : RxInfo) (fc p : List Byte) (snrs : List (List Int)), s.mainOn = true → s.plcMayRx = true → s.plcSends = false → (fcGood rx fc = false ∨ s.lineHeard rx = false) →
    let t : Host.Outcome State Fault Refusal := .next { s with toDev := ((s.rxBegin rx fc).bump Fld.PLCPHY_CNT_ERR_FCERR).raise Pg.PLCPHY 1 }
    exec (.ackFrame rx fc) s = t ∧ exec (.soundFrame rx fc snrs) s = t ∧ exec (.tonemapFrame rx fc p) s = t ∧ exec (.beaconFrame rx fc p) s = t ∧ exec (.dataFrame rx fc p) s = t) ∧
  (∀ (s : State) (rx : RxInfo) (fc p : List Byte) (snrs : List (List Int)), s.mainOn = true → s.plcMayRx = true → s.plcSends = false → fcGood rx fc = true → s.lineHeard rx = true → 4 < (FC.ofBytes fc).type →
    let u := (((s.rxBegin rx fc).raise Pg.PLCPHY 0).nbFrame rx (FC.ofBytes fc)).meshFc (FC.ofBytes fc)
    let t : Host.Outcome State Fault Refusal := .next { s with toDev := (u.bump Fld.PLCPHY_CNT_ERR_FCERR).raise Pg.PLCPHY 1 }
    exec (.ackFrame rx fc) s = t ∧ exec (.soundFrame rx fc snrs) s = t ∧ exec (.tonemapFrame rx fc p) s = t ∧ exec (.beaconFrame rx fc p) s = t ∧ exec (.dataFrame rx fc p) s = t) ∧
  (∀ (s : State) (rx : RxInfo) (fc : List Byte) (snrs : List (List Int)) (i : Nat), s.mainOn = true → frameHere s.toDev rx fc → (FC.ofBytes fc).type = 2 → s.nbFind (FC.ofBytes fc).src = some i →
    completes (.soundFrame rx fc snrs) s fun t => keepsQueue s t ∧
      t.plc.queue = s.plc.queue ++ [{ type := 3, src := s.plcAddr, dst := (FC.ofBytes fc).src, enc := false, ackreq := true, payload := (s.buildMap (s.nb i).nextTmi (snrs.map (s.combined rx)) rx.spreadNs).bytes }]) ∧
  (∀ (s : State) (rx : RxInfo) (fc p : List Byte) (i : Nat), s.mainOn = true → frameHere s.toDev rx fc → payloadGood s.toDev rx fc p → (FC.ofBytes fc).type = 3 → 50 ≤ (FC.ofBytes fc).len →
    s.nbFind (FC.ofBytes fc).src = some i → s.plc.nbs.length = 64 → s.mapOk (TMap.ofBytes p) p = true →
    s.repeats (FC.ofBytes fc) = false →
    completes (.tonemapFrame rx fc p) s fun t => keepsQueue s t ∧ (t.nb i).tx = (if (TMap.ofBytes p).codes.all (· == 0) then none else some (TMap.ofBytes p)) ∧ (t.nb i).txMt = some s.mt ∧ (t.nb i).negEnd = none) ∧
  (∀ (s : State) (rx : RxInfo) (fc p : List Byte) (i : Nat), s.mainOn = true → frameHere s.toDev rx fc → payloadGood s.toDev rx fc p → (FC.ofBytes fc).type = 3 → s.nbFind (FC.ofBytes fc).src = some i → s.plc.nbs.length = 64 →
    s.repeats (FC.ofBytes fc) = true → completes (.tonemapFrame rx fc p) s fun t => keepsQueue s t ∧ (t.nb i).tx = (s.nb i).tx ∧ (t.nb i).negEnd = (s.nb i).negEnd ∧ t.plc.mapRefused = s.plc.mapRefused) ∧
  (∀ (s : State) (rx : RxInfo) (fc p : List Byte) (i : Nat), s.mainOn = true → frameHere s.toDev rx fc → payloadGood s.toDev rx fc p → (FC.ofBytes fc).type = 3 → ((FC.ofBytes fc).len < 50 ∨ s.mapOk (TMap.ofBytes p) p = false) →
    s.nbFind (FC.ofBytes fc).src = some i → s.plc.nbs.length = 64 → s.repeats (FC.ofBytes fc) = false →
    completes (.tonemapFrame rx fc p) s fun t => keepsQueue s t ∧ (t.nb i).tx = (s.nb i).tx ∧ (t.nb i).negEnd = none ∧ t.plc.mapRefused = (s.plc.mapRefused + 1) % 2 ^ 32) ∧
  (∀ (s : State) (rx : RxInfo) (fc : List Byte) (q : TxFrame), s.mainOn = true → frameHere s.toDev rx fc → (FC.ofBytes fc).type = 1 → s.plc.inflight = some q → (FC.ofBytes fc).src = q.dst → (FC.ofBytes fc).seq = q.seq →
    natBit (FC.ofBytes fc).len 0 = true → (s.injArmed Pg.PLCMAC 0 = false ∨ s.injLive Pg.PLCMAC = false) → completes (.ackFrame rx fc) s fun t => keepsQueue s t ∧ t.plc.inflight = none ∧ t.plc.undelivered = s.plc.undelivered) ∧
  (∀ (s : State) (rx : RxInfo) (fc : List Byte) (q : TxFrame), s.mainOn = true → frameHere s.toDev rx fc → (FC.ofBytes fc).type = 1 → s.plc.inflight = some q → (FC.ofBytes fc).src = q.dst → (FC.ofBytes fc).seq = q.seq →
    natBit (FC.ofBytes fc).len 0 = false → q.retx < 3 → completes (.ackFrame rx fc) s fun t => keepsQueue s t ∧ t.plc.inflight = none ∧ t.plc.queue.head? = some { q with retx := q.retx + 1 }) ∧
  (∀ (s : State) (q : TxFrame), s.mainOn = true → s.plc.inflight = some q → q.retx < 3 →
    completes .ackTimeout s fun t => keepsQueue s t ∧ t.plc.inflight = none ∧ t.plc.queue.head? = some { q with retx := q.retx + 1 } ∧ t.plc.undelivered = s.plc.undelivered) ∧
  (∀ (s : State) (q : TxFrame), s.mainOn = true → s.plc.inflight = some q → 3 ≤ q.retx →
    completes .ackTimeout s fun t => keepsQueue s t ∧ t.plc.inflight = none ∧ t.plc.undelivered = q :: s.plc.undelivered) ∧
  (∀ (s : State), s.mainOn = true → s.plc.inflight = none → exec .ackTimeout s = .next s)

/-- R374, R381, R383, R384, R387, R388, R395, R396, R401: the front of the queue goes on the line with its CRC, waits for its ACK if it asks for one, and stays queued with BLOCKED set where the node may not transmit; a frame whose key is not loaded is handed back (assumption log 24, DEDUCED); nothing goes out while a frame of the node's own is on the line or before DIFS and the backoff have passed since the last frame received; the MAC's timers drop the old receive map and with it the frames still arriving under it, start a refresh, queue a beacon and remove a silent neighbour with its routes. -/
def Obligations.FrameSendingCommandsComplete : Prop :=
  (∀ (s : State) (z : Nat) (f : TxFrame) (r : List TxFrame), s.mainOn = true → s.plc.queue = f :: r → s.plc.rxTo ≠ 0 → s.mt < s.plc.rxTo + usTicks (100 + 20 * (z % ([15, 31, 63, 127].getD f.retx 255 + 1))) → f.retx < 4 → exec (.frameTransmit z) s = .next s) ∧
  (∀ (s : State) (z : Nat), s.mainOn = true → (s.plc.queue = [] ∨ s.plc.inflight.isSome = true ∨ s.mt < s.plc.txTo) → exec (.frameTransmit z) s = .next s) ∧
  (∀ (s : State) (z : Nat) (f : TxFrame) (r : List TxFrame), s.mainOn = true → s.plc.queue = f :: r → s.plc.inflight = none → s.plc.txTo ≤ s.mt → s.lineQuiet (z % (backoffMax f.retx + 1)) = true → s.plcMayTx = false →
    exec (.frameTransmit z) s = .next { s with toDev := (s.set Fld.PLCPHY_STAT_BLOCKED 1).raise Pg.PLCPHY 7 }) ∧
  (∀ (s : State) (z : Nat) (f : TxFrame) (r : List TxFrame), s.mainOn = true → s.plc.queue = f :: r → s.plc.inflight = none → s.plc.txTo ≤ s.mt → s.lineQuiet (z % (backoffMax f.retx + 1)) = true → s.plcMayTx = true → f.enc = false → f.type ≠ 4 →
    completes (.frameTransmit z) s fun t => keepsQueue s t ∧ t.plc.queue = s.planDue.plc.queue.tail ∧ t.plc.sent.2 = (if f.type = 2 then [] else withCrc f.payload) ∧ t.plc.txFrom = s.mt + usTicks (s.get Fld.PLCPHY_CTRL_LEAD) ∧
      t.plc.inflight = (if f.ackreq then some { f with seq := if f.retx = 0 then s.plc.seq else f.seq } else none)) ∧
  (∀ (s : State) (z : Nat) (f : TxFrame) (r : List TxFrame), s.mainOn = true → s.plc.queue = f :: r → s.plc.inflight = none → s.plc.txTo ≤ s.mt → s.lineQuiet (z % (backoffMax f.retx + 1)) = true → s.plcMayTx = true → (f.enc = true ∨ f.type = 4) → s.sec.net.isSome = true →
    completes (.frameTransmit z) s fun t => keepsQueue s t ∧ t.plc.queue = s.planDue.plc.queue.tail ∧ t.plc.undelivered = s.plc.undelivered ∧ t.plc.inflight = (if f.ackreq then some { f with seq := if f.retx = 0 then s.plc.seq else f.seq } else none)) ∧
  (∀ (s : State) (z : Nat) (f : TxFrame) (r : List TxFrame), s.mainOn = true → s.plc.queue = f :: r → s.plc.inflight = none → s.plc.txTo ≤ s.mt → s.lineQuiet (z % (backoffMax f.retx + 1)) = true → s.plcMayTx = true → (f.enc = true ∨ f.type = 4) → s.sec.net = none →
    completes (.frameTransmit z) s fun t => keepsQueue s t ∧ t.plc.queue = s.planDue.plc.queue.tail ∧ t.plc.undelivered = f :: s.plc.undelivered ∧ t.plc.inflight = none) ∧
  (∀ (s : State) (i : Nat), s.mainOn = true → i < 64 → exec (.rxMapHoldExpiry i) s = .next { s with toDev := { s.toDev with plc := { s.plc with
    nbs := updAt s.plc.nbs i fun n => { n with rxOld := none },
    arriving := s.plc.arriving.map fun a => { a with lost := a.lost || ((FC.ofBytes a.fc).src == s.get (Fld.PLCMAC_NB_INFO_ADDR i) && (s.nb i).rxOld.any fun m => m.tmi == (FC.ofBytes a.fc).tmi) } } } }) ∧
  (∀ (s : State) (i : Nat), s.mainOn = true → 64 ≤ i → exec (.rxMapHoldExpiry i) s = .next s) ∧
  (∀ (s : State) (i : Nat), s.mainOn = true → i < 64 → i < s.plc.nbs.length → (s.nb i).txMt.isSome = true → s.negotiates i = false →
    completes (.tonemapRefreshPeriod i) s fun t => keepsQueue s t ∧ (t.nb i).negEnd = some (s.mt + Config.negTicks s.free) ∧
      t.plc.queue = s.plc.queue ++ [{ type := 2, src := s.plcAddr, dst := s.get (Fld.PLCMAC_NB_INFO_ADDR i), enc := false, ackreq := false }]) ∧
  (∀ (s : State) (i : Nat), s.mainOn = true → (64 ≤ i ∨ (s.nb i).txMt = none ∨ s.negotiates i = true) → exec (.tonemapRefreshPeriod i) s = .next s) ∧
  (∀ (s : State), s.mainOn = true → s.joined = true →
    exec .beaconTimer s = .next { s with toDev := s.plcQueue { type := 4, src := s.plcAddr, dst := 0xFFF, enc := false, ackreq := false } }) ∧
  (∀ (s : State), s.mainOn = true → s.joined = false → exec .beaconTimer s = .next s) ∧
  (∀ (s : State) (i : Nat), s.mainOn = true → i < 64 → s.on (Fld.PLCMAC_NB_INFO_VALID i) = true →
    completes (.neighbourAgedOut i) s fun t => keepsQueue s t ∧ t.rd (Reg.PLCMAC_NB_INFO i) = 0 ∧ t.nb i = {} ∧
      ∀ r ∈ s.mesh.routes, r.next = s.get (Fld.PLCMAC_NB_INFO_ADDR i) → r.metric ≠ unreachable → ∃ c, { r with metric := unreachable, seq := (r.seq + 1) % 65536, changed := c } ∈ t.mesh.routes) ∧
  (∀ (s : State) (i : Nat), s.mainOn = true → (64 ≤ i ∨ s.on (Fld.PLCMAC_NB_INFO_VALID i) = false) → exec (.neighbourAgedOut i) s = .next s)

/-- R400, R402–R405, R415: JOIN starts listening, or makes the node root with address 1; at the listen end a request goes to the best parent; the root allocates an address to a request whose JMAC is right and a relay passes it on; a response whose RMAC is right gives the node its address, and a relay hands one on; a timeout goes back to LISTEN; leaving ends with address 0 and no routes; a LEAVE frees the address at the root and keeps the mapping. -/
def Obligations.MeshMembershipCommandsComplete : Prop :=
  (∀ (s : State) (m : Nat) (v : Word), lands s Reg.MESH_CMD → keyOf v = 0x4E → bitsOf v 1 0 = 1 → s.on Fld.MESH_CFG_EN = true →
    (s.on Fld.MESH_CFG_ROOT = true → completes (.meshJoin m v) s fun t => keepsQueue s t ∧ t.get Fld.MESH_STAT_JOIN = 3 ∧ t.plcAddr = 1 ∧ t.ntState = 4) ∧
    (s.on Fld.MESH_CFG_ROOT = false → completes (.meshJoin m v) s fun t => keepsQueue s t ∧ t.get Fld.MESH_STAT_JOIN = 1 ∧ t.mesh.cands = [] ∧ t.mesh.asked = none)) ∧
  (∀ (s : State) (m : Nat) (v : Word), lands s Reg.MESH_CMD → keyOf v = 0x4E → (bitsOf v 1 0 = 0 ∨ (bitsOf v 1 0 = 1 ∧ s.on Fld.MESH_CFG_EN = false)) →
    exec (.meshJoin m v) s = .next { s with toDev := s.toDev.cfgErr Pg.MESH }) ∧
  (∀ (s : State) (m : Nat) (v : Word), lands s Reg.MESH_CMD → keyOf v = 0x4E → bitsOf v 1 0 = 2 →
    completes (.meshLeave m v) s fun t => keepsQueue s t ∧ t.get Fld.MESH_STAT_JOIN = 0 ∧ t.plcAddr = 0 ∧ t.mesh.routes = [] ∧ t.ntState = 0) ∧
  (∀ (s : State) (m : Nat) (v : Word), lands s Reg.MESH_CFG → (bitsOf v 23 16 = 0 ∨ (bitAt v 31 = true ∧ s.get Fld.MESH_NETID_ID = 0)) →
    exec (.meshConfigWrite m v) s = .next { s with toDev := s.toDev.cfgErr Pg.MESH }) ∧
  (∀ (s : State) (m : Nat) (v : Word), lands s Reg.MESH_CFG → bitsOf v 23 16 ≠ 0 → bitAt v 31 = true → s.get Fld.MESH_NETID_ID ≠ 0 → s.on Fld.MESH_CFG_EN = false →
    completes (.meshConfigWrite m v) s fun t => keepsQueue s t ∧ t.on Fld.MESH_CFG_EN = true ∧ t.on Fld.MESH_CFG_ROOT = bitAt v 30 ∧ t.get Fld.MESH_CFG_HOPLIM = bitsOf v 23 16 ∧ t.get Fld.MESH_CFG_EPOCH = bitsOf v 15 8 ∧
      t.get Fld.MESH_STAT_JOIN = (if bitAt v 30 then 3 else 1)) ∧
  (∀ (s : State) (m : Nat) (v : Word), lands s Reg.MESH_CFG → bitsOf v 23 16 ≠ 0 → bitAt v 31 = false → s.on Fld.MESH_CFG_EN = true →
    completes (.meshConfigWrite m v) s fun t => keepsQueue s t ∧ t.on Fld.MESH_CFG_EN = false ∧ t.get Fld.MESH_STAT_JOIN = 0 ∧ t.plcAddr = 0 ∧ t.mesh.routes = []) ∧
  (∀ (s : State) (c : Cand), s.mainOn = true → s.on Fld.MESH_CFG_EN = true → s.get Fld.MESH_STAT_JOIN = 1 → s.sec.net.isSome = true → s.bestParent = some c →
    completes .joinListenEnd s fun t => keepsQueue s t ∧ t.get Fld.MESH_STAT_JOIN = 2 ∧ t.mesh.asked = some c) ∧
  (∀ (s : State), s.mainOn = true → (s.on Fld.MESH_CFG_EN = false ∨ s.get Fld.MESH_STAT_JOIN ≠ 1 ∨ s.sec.net = none ∨ s.bestParent = none) → exec .joinListenEnd s = .next s) ∧
  (∀ (s : State), s.mainOn = true → s.get Fld.MESH_STAT_JOIN = 2 →
    completes .joinTimeout s fun t => keepsQueue s t ∧ t.get Fld.MESH_STAT_JOIN = 1 ∧ t.mesh.cands = [] ∧ t.mesh.asked = none ∧ t.mesh.fails = s.mesh.fails + 1) ∧
  (∀ (s : State), s.mainOn = true → s.get Fld.MESH_STAT_JOIN ≠ 2 → exec .joinTimeout s = .next s) ∧
  (∀ (s : State) (nbr : Nat) (body net : List Byte) (a : Nat) (m : Mesh), s.mainOn = true → s.on Fld.MESH_CFG_EN = true → s.on Fld.MESH_CFG_ROOT = true → s.sec.net = some net → body.length = 36 →
    slice body 20 16 = (hmac net (ascii "JOIN" ++ slice body 0 8 ++ slice body 8 8 ++ leBytes 2 (leAt body 16 2))).take 16 → s.mesh.allocate (slice body 0 8) (leAt body 16 2) = some (a, m) →
    completes (.joinReq nbr body) s fun t => keepsQueue s t ∧ t.mesh.table = m.table ∧ (slice body 0 8, a, true) ∈ t.mesh.table) ∧
  (∀ (s : State) (body : List Byte), s.mainOn = true → s.on Fld.MESH_CFG_EN = true → s.on Fld.MESH_CFG_ROOT = false → s.joined = true →
    completes (.joinReq 0 body) s fun t => keepsQueue s t ∧ slice body 0 8 ∈ t.mesh.relays) ∧
  (∀ (s : State) (nbr : Nat) (body : List Byte), s.mainOn = true → s.on Fld.MESH_CFG_EN = false → exec (.joinReq nbr body) s = .next s ∧ exec (.joinResp nbr body) s = .next s) ∧
  (∀ (s : State) (nbr : Nat) (body net : List Byte) (c : Cand), s.mainOn = true → s.on Fld.MESH_CFG_EN = true → s.get Fld.MESH_STAT_JOIN = 2 → s.sec.net = some net → s.mesh.asked = some c → body.length = 46 →
    slice body 0 8 = s.otp.devid → slice body 8 8 = c.bnonce → leAt body 16 2 < 4096 →
    slice body 30 16 = (hmac net (ascii "JRSP" ++ slice body 0 8 ++ slice body 8 8 ++ leBytes 2 (leAt body 16 2) ++ leBytes 1 (leAt body 18 1) ++ leBytes 2 (leAt body 20 2))).take 16 →
    completes (.joinResp nbr body) s fun t => keepsQueue s t ∧ t.get Fld.MESH_STAT_JOIN = 3 ∧ t.plcAddr = leAt body 16 2 ∧ t.mesh.fails = 0 ∧ t.mesh.asked = none) ∧
  (∀ (s : State) (nbr : Nat) (body : List Byte), s.mainOn = true → s.on Fld.MESH_CFG_EN = true → slice body 0 8 ≠ s.otp.devid → slice body 0 8 ∈ s.mesh.relays →
    completes (.joinResp nbr body) s fun t => keepsQueue s t ∧ slice body 0 8 ∉ t.mesh.relays ∧ t.get Fld.MESH_STAT_JOIN = s.get Fld.MESH_STAT_JOIN ∧ t.plcAddr = s.plcAddr) ∧
  (∀ (s : State) (a : Nat), s.mainOn = true → s.on Fld.MESH_CFG_ROOT = true → exec (.leaveMsg a) s =
    .next { s with toDev := { s.toDev with mesh := { s.mesh with table := s.mesh.table.map fun e => (e.1, e.2.1, if e.2.1 = a then false else e.2.2) } } }) ∧
  (∀ (s : State) (a : Nat), s.mainOn = true → s.on Fld.MESH_CFG_ROOT = false → exec (.leaveMsg a) s = .next s)

/-- R401, R402, R407–R409, R413, R414, R417: a beacon heard in LISTEN becomes a candidate; an advertisement raises the own sequence by 2 and clears the marks of the routes it carries; a new destination is entered with the link's cost added, and one past the hop limit is not; a silent route goes; a body of KIND 0 or 4 is delivered; NT holds over, is lost, and is loaded at the root only; a query shows the route held. -/
def Obligations.MeshRoutingCommandsComplete : Prop :=
  (∀ (s : State) (rx : RxInfo) (fc p net : List Byte), s.mainOn = true → frameHere s.toDev rx fc → payloadGood s.toDev rx fc p → (FC.ofBytes fc).type = 4 → s.on Fld.MESH_CFG_EN = true → s.get Fld.MESH_STAT_JOIN = 1 → s.sec.net = some net →
    leAt p 0 2 = s.get Fld.MESH_NETID_ID → slice p 20 8 = (hmac (s.linkKey net 0xFFF 0xFFF) (p.take 20 ++ leBytes 2 (FC.ofBytes fc).src ++ leBytes 4 (FC.ofBytes fc).ntTx)).take 8 →
    completes (.beaconFrame rx fc p) s fun t => keepsQueue s t ∧ t.mesh.cands = (s.mesh.cands.filter fun c => c.addr != (FC.ofBytes fc).src) ++ [⟨(FC.ofBytes fc).src, leAt p 4 3, slice p 12 8⟩]) ∧
  (∀ (s : State) (rx : RxInfo) (fc p hdr body : List Byte) (i : Nat), s.mainOn = true → frameHere s.toDev rx fc → payloadGood s.toDev rx fc p → (FC.ofBytes fc).type = 0 → (FC.ofBytes fc).enc = true → s.on Fld.MESH_CFG_EN = true →
    s.injArmed Pg.MESH 0 = false → s.nbFind (FC.ofBytes fc).src = some i → s.repeats (FC.ofBytes fc) = false → (s.nb i).fcAny = false → s.meshOpen (FC.ofBytes fc) p = some (hdr, body) →
    leAt hdr 0 2 % 4096 = s.plcAddr → (leAt hdr 6 1 = 0 ∨ leAt hdr 6 1 = 4) →
    completes (.dataFrame rx fc p) s fun t => keepsQueue s t ∧ t.mesh.rx = (leAt hdr 6 1, leAt hdr 2 2 % 4096, body) :: s.mesh.rx) ∧
  (∀ (s : State), s.mainOn = true → s.joined = true →
    completes .advertisementTimer s fun t => keepsQueue s t ∧ t.get Fld.MESH_ROUTES_SEQ = (s.get Fld.MESH_ROUTES_SEQ + 2) % 65536 ∧ t.mesh.routes = s.mesh.routes.map fun r => { r with changed := false }) ∧
  (∀ (s : State) (m : Nat) (v : Word), lands s Reg.MESH_CMD → keyOf v = 0x4E → bitsOf v 1 0 = 3 → s.joined = true →
    completes (.meshAdvertise m v) s fun t => keepsQueue s t ∧ t.get Fld.MESH_ROUTES_SEQ = (s.get Fld.MESH_ROUTES_SEQ + 2) % 65536 ∧ t.mesh.routes = s.mesh.routes.map fun r => { r with changed := false }) ∧
  (∀ (s : State), s.mainOn = true → s.joined = true → (∃ r ∈ s.mesh.routes, r.changed = true) → (∀ m ∈ s.mesh.advMt, m + usTicks 1000000 ≤ s.mt) →
    completes .triggeredAdvertisement s fun t => keepsQueue s t ∧ t.get Fld.MESH_ROUTES_SEQ = s.get Fld.MESH_ROUTES_SEQ ∧ t.mesh.routes = s.mesh.routes.map fun r => { r with changed := false }) ∧
  (∀ (s : State) (nbr : Nat) (body : List Byte), s.mainOn = true → s.joined = false → exec .advertisementTimer s = .next s ∧ exec .triggeredAdvertisement s = .next s ∧ exec (.advMsg nbr body) s = .next s) ∧
  (∀ (s : State) (nbr dest seq metric hops : Nat), s.mainOn = true → s.joined = true → dest < 4096 → seq < 65536 → metric < unreachable → hops < 255 → dest ≠ s.plcAddr → hops + 1 ≤ s.get Fld.MESH_CFG_HOPLIM → s.route dest = none →
    completes (.advMsg nbr (advBody [advEntry dest seq metric hops])) s fun t => keepsQueue s t ∧ t.mesh.routes = s.mesh.routes ++ [⟨dest, nbr, satN unreachable (metric + s.costTo nbr), hops + 1, seq, true⟩]) ∧
  (∀ (s : State) (nbr dest seq metric hops : Nat), s.mainOn = true → s.joined = true → dest < 4096 → seq < 65536 → metric ≤ unreachable → hops < 256 → (dest = s.plcAddr ∨ s.get Fld.MESH_CFG_HOPLIM < hops + 1) →
    exec (.advMsg nbr (advBody [advEntry dest seq metric hops])) s = .next s) ∧
  (∀ (s : State) (dest : Nat), s.mainOn = true → completes (.routeExpiry dest) s fun t => keepsQueue s t ∧ t.mesh.routes = (s.mesh.routes.filter fun r => r.dest != dest)) ∧
  (∀ (s : State) (a : Nat) (body : List Byte), s.mainOn = true → exec (.timeMsg a body) s = .next { s with toDev := { s.toDev with mesh := { s.mesh with rx := (4, a, body) :: s.mesh.rx } } }) ∧
  (∀ (s : State), s.mainOn = true → (s.ntState = 1 ∨ s.ntState = 2) → completes .ntHoldover s fun t => keepsQueue s t ∧ t.ntState = 3 ∧ t.mesh = { s.mesh with within := 0 }) ∧
  (∀ (s : State), s.mainOn = true → s.ntState ≠ 1 → s.ntState ≠ 2 → exec .ntHoldover s = .next s) ∧
  (∀ (s : State), s.mainOn = true → s.ntState ≠ 0 → s.ntState ≠ 4 → completes .ntLoss s fun t => keepsQueue s t ∧ t.ntState = 0) ∧
  (∀ (s : State), s.mainOn = true → (s.ntState = 0 ∨ s.ntState = 4) → exec .ntLoss s = .next s) ∧
  (∀ (s : State) (m : Nat) (v : Word), lands s Reg.MESH_NT_SET → s.ntState = 4 → exec (.ntSet m v) s = .next { s with toDev := { s.toDev with mesh := { s.mesh with nt := s.ntNow / 2 ^ 32 * 2 ^ 32 + v.toNat, ntMt := s.mt } } }) ∧
  (∀ (s : State) (m : Nat) (v : Word), lands s Reg.MESH_NT_SET → s.ntState ≠ 4 → exec (.ntSet m v) s = .next { s with toDev := s.toDev.cfgErr Pg.MESH }) ∧
  (∀ (s : State) (m : Nat) (v : Word) (r : Route), lands s Reg.MESH_RQ → s.route (bitsOf v 11 0) = some r → r.next < 4096 → r.hops < 256 → r.seq < 65536 →
    completes (.routeQuery m v) s fun t => keepsQueue s t ∧ t.on Fld.MESH_RQ_RES_VALID = true ∧ t.get Fld.MESH_RQ_RES_NEXT = r.next ∧ t.get Fld.MESH_RQ_RES_HOPS = r.hops ∧ t.get Fld.MESH_RQ_MET_SEQ = r.seq ∧ t.get Fld.MESH_RQ_DEST = bitsOf v 11 0) ∧
  (∀ (s : State) (m : Nat) (v : Word), lands s Reg.MESH_RQ → s.route (bitsOf v 11 0) = none → completes (.routeQuery m v) s fun t => keepsQueue s t ∧ t.on Fld.MESH_RQ_RES_VALID = false)

/-- R435, R455–R458: an OFFER on a served path starts a reception into the inactive slot; NEED notes what a child asks for; a block that passes its check is written to the slot and held; block 0 that fails ends the reception with its reason; HAVE confirms what was sent; the timers offer the bundle and repeat the request on the chain. -/
def Obligations.BundleReceptionCommandsComplete : Prop :=
  (∀ (s : State) (src : Nat) (body : List Byte), s.mainOn = true → s.updServes src = true → leAt body 0 1 = 1 → s.upd.recep = none → s.on Fld.UPD_STAT_TRIAL = false →
    completes (.offerMsg src body) s fun t => keepsQueue s t ∧ t.upd = { s.upd with recep := some { bid := slice body 2 8, gen := leAt body 10 2, ntot := leAt body 12 2, slot := 1 - s.get Fld.UPD_STAT_ACTIVE }, offers := [src], asked := [] }) ∧
  (∀ (s : State) (src : Nat) (body : List Byte), s.mainOn = true → (s.updServes src = false ∨ leAt body 0 1 ≠ 1 ∨ (s.upd.recep = none ∧ s.on Fld.UPD_STAT_TRIAL = true)) → exec (.offerMsg src body) s = .next s) ∧
  (∀ (s : State) (src : Nat) (body : List Byte) (r : Recep), s.mainOn = true → s.updServes src = true → s.upd.recep = some r → leAt body 0 1 = 2 → slice body 2 8 = r.bid →
    completes (.needMsg src body) s fun t => keepsQueue s t ∧ t.upd.recep = some r ∧ (∀ a ∈ s.upd.asked, a ∈ t.upd.asked) ∧
      ∀ k j, k < min 64 ((body.length - 10) / 4) → j < leAt body (12 + 4 * k) 2 → leAt body (10 + 4 * k) 2 + j < r.ntot → (src, leAt body (10 + 4 * k) 2 + j) ∈ t.upd.asked) ∧
  (∀ (s : State) (src : Nat) (body : List Byte) (r : Recep), s.mainOn = true → s.updServes src = true → s.upd.recep = some r → leAt body 0 1 = 4 → slice body 2 8 = r.bid →
    completes (.haveMsg src body) s fun t => keepsQueue s t ∧ t.upd.asked = (s.upd.asked.filter fun a => !(a.1 == src && r.held.contains a.2)) ∧ t.upd.recep.map (·.held) = some r.held) ∧
  (∀ (s : State) (src : Nat) (body : List Byte), s.mainOn = true → s.upd.recep = none → (completes (.needMsg src body) s fun t => keepsQueue s t ∧ t.upd = s.upd) ∧ exec (.haveMsg src body) s = .next s ∧ exec (.blockMsg src body) s = .next s ∧ exec .updateOfferTimer s = .next s ∧ exec .needRetryTimer s = .next s) ∧
  (∀ (s : State) (src i : Nat) (body data : List Byte) (r : Recep), s.mainOn = true → s.updServes src = true → s.upd.recep = some r → r.complete = false → leAt body 0 1 = 3 → body.length = 4108 → slice body 4 8 = r.bid →
    leAt body 2 2 = i → slice body 12 4096 = data → i ≠ 0 → i < r.ntot → i ∉ r.held → 0 ∈ r.held → s.injArmed Pg.UPD 0 = false → blockOk s.mem r i data = true →
    (r.tableOk = true ∨ (i ≤ hdrT (slotBlock s.mem r.slot 0) ∧ ∃ j, j ≤ hdrT (slotBlock s.mem r.slot 0) ∧ j ≠ i ∧ j ∉ r.held)) →
    completes (.blockMsg src body) s fun t => t.pending = s.pending ∧ t.mem = Memory.writeAll s.mem (blockAddr r.slot i) data ∧
      ∃ k, t.upd.recep = some k ∧ k.held = r.held ++ [i] ∧ k.complete = (r.tableOk && decide (r.held.length + 1 = r.ntot))) ∧
  (∀ (s : State) (src : Nat) (body : List Byte) (r : Recep), s.mainOn = true → s.updServes src = true → s.upd.recep = some r → r.complete = false → leAt body 0 1 = 3 → body.length = 4108 → slice body 4 8 = r.bid →
    leAt body 2 2 = 0 → 0 < r.ntot → 0 ∉ r.held → s.headReason r (slice body 12 4096) ≠ 0 →
    completes (.blockMsg src body) s fun t => keepsQueue s t ∧ t.upd.recep = none ∧ t.get Fld.UPD_STAT_REASON = s.headReason r (slice body 12 4096)) ∧
  (∀ (s : State) (r : Recep), s.mainOn = true → s.upd.recep = some r → 0 ∈ r.held → s.updServes (0x1000 + 0xFFFF) = true →
    let f := leBytes 2 0xFFFF ++ leBytes 1 0x51 ++ leBytes 2 s.host.chainSeq ++ leBytes 2 14 ++ offerBody r
    completes .updateOfferTimer s fun t => keepsQueue s t ∧ t.host.chainOut = s.host.chainOut ++ [f ++ leBytes 4 (crc32 f)] ∧ t.upd = s.upd) ∧
  (∀ (s : State) (r : Recep) (src : Nat) (l : List Nat), s.mainOn = true → s.upd.recep = some r → r.complete = false → s.upd.offers = src :: l → 0x1000 ≤ src → s.updServes src = true → r.missing (hdrT (slotBlock s.mem r.slot 0)) ≠ [] →
    let b := needBody r.bid (r.missing (hdrT (slotBlock s.mem r.slot 0)))
    let f := leBytes 2 (Config.headAddr % 65536) ++ leBytes 1 0x51 ++ leBytes 2 s.host.chainSeq ++ leBytes 2 b.length ++ b
    completes .needRetryTimer s fun t => keepsQueue s t ∧ t.host.chainOut = s.host.chainOut ++ [f ++ leBytes 4 (crc32 f)] ∧ t.upd = s.upd)

/-- R444, R459–R465: an accepted ACTIVATE puts the received slot on trial, loads the window and starts a reset; a refused one only shows its reason; DISCARD drops the reception; CONFIRM makes the trial permanent; the window's end falls back; the Starter alone holds and releases the Batons. -/
def Obligations.ActivationCommandsComplete : Prop :=
  (∀ (s : State) (m bad : Nat) (v : Word) (r : Recep), lands s Reg.UPD_CMD → keyOf v = 0x75 → bitsOf v 1 0 = 1 → (bitAt v 8 = false ∨ s.session m = true) → s.upd.recep = some r → s.actState = 0 → bad % 256 < 3 →
    s.actSlot s.mem r.slot (bitAt v 8) (decide (256 ≤ bad)) = 0 →
    completes (.updActivate m v bad) s fun t => keepsQueue s t ∧ t.upd.recep = none ∧ t.upd.trialDue = true ∧ t.get Fld.UPD_WLEFT_S = s.get Fld.UPD_WINDOW_MIN * 60 ∧ t.power.pending = some .sw ∧
      ∃ k b, t.upd.bootNow = some (k, b) ∧ b.active = r.slot ∧ b.state = 1 ∧ b.valid = 3) ∧
  (∀ (s : State) (m bad : Nat) (v : Word), lands s Reg.UPD_CMD → keyOf v = 0x75 → bitsOf v 1 0 = 1 → (bitAt v 8 = false ∨ s.session m = true) → s.actState ≠ 0 →
    exec (.updActivate m v bad) s = .next { s with toDev := (s.set Fld.UPD_STAT_REASON s.actState).raise Pg.UPD 5 }) ∧
  (∀ (s : State) (m bad : Nat) (v : Word), lands s Reg.UPD_CMD → keyOf v = 0x75 → bitAt v 8 = true → s.session m = false →
    exec (.updActivate m v bad) s = .next { s with toDev := s.toDev.lockErr Pg.UPD }) ∧
  (∀ (s : State) (m : Nat) (v : Word), lands s Reg.UPD_CMD → keyOf v = 0x75 → bitsOf v 1 0 = 2 → (bitAt v 8 = false ∨ s.session m = true) →
    completes (.updDiscard m v) s fun t => keepsQueue s t ∧ t.upd.recep = none ∧ t.upd.offers = [] ∧ t.upd.asked = [] ∧ (∀ r, s.upd.recep = some r → r.complete = true → ∀ x, t.upd.bootNow = some x → x.2.has r.slot = false) ∧
      ((∀ r, s.upd.recep = some r → r.complete = false) → t.upd = { s.upd with recep := none, offers := [], asked := [] })) ∧
  (∀ (s : State) (m : Nat) (v : Word), lands s Reg.UPD_CONFIRM → keyOf v = 0xC5 → bitAt v 0 = true → s.on Fld.UPD_STAT_TRIAL = true → s.selfOk = true → s.power.st ≠ .holdup → s.power.st ≠ .shutdownTest →
    completes (.updConfirm m v) s fun t => keepsQueue s t ∧ t.on Fld.UPD_STAT_TRIAL = false ∧ t.get Fld.UPD_WLEFT_S = 0 ∧ ∃ k b, t.upd.bootNow = some (k, b) ∧ b.state = 0) ∧
  (∀ (s : State) (m : Nat) (v : Word), lands s Reg.UPD_CONFIRM → keyOf v = 0xC5 → bitAt v 0 = true → (s.on Fld.UPD_STAT_TRIAL = false ∨ s.selfOk = false ∨ s.power.st = .holdup ∨ s.power.st = .shutdownTest) →
    exec (.updConfirm m v) s = .next { s with toDev := s.toDev.cfgErr Pg.UPD }) ∧
  (∀ (s : State), s.mainOn = true → s.on Fld.UPD_STAT_TRIAL = true → s.get Fld.UPD_WLEFT_S = 0 → s.power.st ≠ .holdup → (s.billUp = false ∨ s.on Fld.RTC_STAT_OSF = true ∨ s.nearBoundary = false) → s.power.pending = none →
    completes .trialWindowExpiry s fun t => keepsQueue s t ∧ t.upd = { s.upd with expired := true } ∧ t.power.pending = some .fallback) ∧
  (∀ (s : State), s.mainOn = true → s.on Fld.UPD_STAT_TRIAL = true → s.get Fld.UPD_WLEFT_S = 0 → s.power.st = .holdup →
    exec .trialWindowExpiry s = .next { s with toDev := { s.toDev with upd := { s.upd with expired := true } } }) ∧
  (∀ (s : State), s.mainOn = true → (s.on Fld.UPD_STAT_TRIAL = false ∨ s.get Fld.UPD_WLEFT_S ≠ 0) → exec .trialWindowExpiry s = .next s) ∧
  (∀ (s : State) (v : Word), lands s Reg.UPD_BATON_CTL → keyOf v = 0x3B →
    completes (.batonRelease 0 v) s fun t => keepsQueue s t ∧ t.get Fld.UPD_BATON_CTL_HOLD = bitsOf v 1 0 ∧ natBit (t.get Fld.UPD_ENG_RUN) 2 = !bitAt v 0 ∧ natBit (t.get Fld.UPD_ENG_RUN) 3 = !bitAt v 1) ∧
  (∀ (s : State) (m : Nat) (v : Word), lands s Reg.UPD_BATON_CTL → m ≠ 0 →
    exec (.batonRelease m v) s = .next { s with toDev := s.toDev.lockErr Pg.UPD })

/-- R467–R473, R476, R487: a slice that passes is recorded PASS and the next begins; a first failure is run again, and the second run decides between TRANSIENT and FAIL; a slice over its budget fails; the last slice completes the record and ends the test; a die that does not cool in time skips what is left. -/
def Obligations.SelfTestCommandsComplete : Prop :=
  (∀ (s : State) (ok : Bool) (detail : Word) (dur peak : Nat), s.mainOn = true → (s.bist.running = false ∨ s.bist.cooling = true) → (∀ r ∈ s.bus.stalled, s.islIso (pageOf r.2) = true) → (∀ x, s.host.held = some x → (16, x.1) ∈ s.bus.stalled) → exec (.sliceEnd ok detail dur peak) s = .next s ∧ exec .sliceTimeout s = .next s) ∧
  (∀ (s : State) (detail : Word) (dur peak k : Nat) (r : BistRec), s.mainOn = true → s.bist.running = true → s.bist.cooling = false → s.bist.second = false → s.bist.newest = some (k, r) → s.bist.slice < r.ents.length → s.bist.slice < s.lastSlice →
    s.injArmed Pg.BIST s.bist.slice = false → s.hottest ≤ 1600 → s.fe.blocks.length = 13 →
    completes (.sliceEnd true detail dur peak) s fun t => t.pending = s.pending ∧ (s.bist.slice ≠ 14 → t.mem = s.mem) ∧ t.bist.slice = s.bist.slice + 1 ∧ t.bist.running = true ∧ (t.bistEntry s.bist.slice).result = 1) ∧
  (∀ (s : State) (detail : Word) (dur peak k : Nat) (r : BistRec), s.mainOn = true → s.bist.running = true → s.bist.cooling = false → s.bist.second = false → s.bist.newest = some (k, r) → s.bist.slice < r.ents.length → s.injArmed Pg.BIST s.bist.slice = false →
    completes (.sliceEnd false detail dur peak) s fun t => keepsQueue s t ∧ t.bist.slice = s.bist.slice ∧ t.bist.second = true ∧ (t.bistEntry s.bist.slice).detail = detail.toNat) ∧
  (∀ (s : State) (ok : Bool) (detail : Word) (dur peak k : Nat) (r : BistRec), s.mainOn = true → s.bist.running = true → s.bist.cooling = false → s.bist.second = true → s.bist.newest = some (k, r) → s.bist.slice < r.ents.length → s.bist.slice < s.lastSlice →
    s.injArmed Pg.BIST s.bist.slice = false → s.hottest ≤ 1600 → s.fe.blocks.length = 13 →
    completes (.sliceEnd ok detail dur peak) s fun t => t.pending = s.pending ∧ t.bist.slice = s.bist.slice + 1 ∧ t.bist.second = false ∧ (t.bistEntry s.bist.slice).result = (if ok then 2 else 3) ∧ (t.bistEntry s.bist.slice).detail = (s.bistEntry s.bist.slice).detail) ∧
  (∀ (s : State) (detail : Word) (dur peak k : Nat) (r : BistRec), s.mainOn = true → s.bist.running = true → s.bist.cooling = false → s.bist.second = false → s.bist.newest = some (k, r) → s.bist.slice < r.ents.length → s.lastSlice ≤ s.bist.slice → s.bist.slice ≠ 14 → s.injArmed Pg.BIST s.bist.slice = false →
    completes (.sliceEnd true detail dur peak) s fun t => keepsQueue s t ∧ t.bist.running = false ∧ ∃ j q, t.bist.newest = some (j, q) ∧ q.complete = true ∧ (nth q.ents s.bist.slice {}).result = 1) ∧
  (∀ (s : State) (k : Nat) (r : BistRec), s.mainOn = true → s.bist.running = true → s.bist.cooling = false → s.bist.newest = some (k, r) → s.bist.slice < r.ents.length → s.bist.slice < s.lastSlice → s.hottest ≤ 1600 → s.fe.blocks.length = 13 →
    completes .sliceTimeout s fun t => t.pending = s.pending ∧ t.bist.slice = s.bist.slice + 1 ∧ (t.bistEntry s.bist.slice).result = 3 ∧ (t.bistEntry s.bist.slice).detail = 0xFFFF0001) ∧
  (∀ (s : State) (k : Nat) (r : BistRec), s.mainOn = true → s.bist.running = true → s.bist.cooling = true → s.bist.newest = some (k, r) →
    completes .coolingTimeout s fun t => keepsQueue s t ∧ t.bist.running = false ∧ ∃ j q, t.bist.newest = some (j, q) ∧ q.complete = true ∧ ∀ n, s.bist.slice ≤ n → n ≤ s.lastSlice → n < r.ents.length → (nth q.ents n {}).result = 5) ∧
  (∀ (s : State), s.mainOn = true → (s.bist.running = false ∨ s.bist.cooling = false) → (∀ r ∈ s.bus.stalled, s.islIso (pageOf r.2) = true) → (∀ x, s.host.held = some x → (16, x.1) ∈ s.bus.stalled) → exec .coolingTimeout s = .next s)

/-- R481, R483, R484: an erase or a programming starts where its address and the device's state allow it, and is refused with CFGERR otherwise; at its end the sector reads all ones, or the page what was programmed, or what the cells could take, with FAIL; selecting a counter clears it; a latch copies each chosen counter and MT. -/
def Obligations.FlashAndSplitCommandsComplete : Prop :=
  (∀ (s : State) (m : Nat) (v : Word), lands s Reg.FLASH_PCMD → keyOf v = 0x8F → bitsOf v 1 0 = 1 → s.flashOk 1 (s.get Fld.FLASH_PADDR_ADDR) = true →
    completes (.flashErase m v) s fun t => keepsQueue s t ∧ t.on Fld.FLASH_PSTAT_BUSY = true ∧ t.host = { s.host with flashOp := some (1, s.get Fld.FLASH_PADDR_ADDR, []) }) ∧
  (∀ (s : State) (m : Nat) (v : Word), lands s Reg.FLASH_PCMD → keyOf v = 0x8F → bitsOf v 1 0 = 2 → s.flashOk 2 (s.get Fld.FLASH_PADDR_ADDR) = true →
    completes (.flashProgram m v) s fun t => keepsQueue s t ∧ t.on Fld.FLASH_PSTAT_BUSY = true ∧ t.host = { s.host with flashOp := some (2, s.get Fld.FLASH_PADDR_ADDR, s.flashPage) }) ∧
  (∀ (s : State) (m : Nat) (v : Word), lands s Reg.FLASH_PCMD → keyOf v = 0x8F → s.flashOk (bitsOf v 1 0) (s.get Fld.FLASH_PADDR_ADDR) = false →
    exec (.flashErase m v) s = .next { s with toDev := s.toDev.cfgErr Pg.FLASH } ∧ exec (.flashProgram m v) s = .next { s with toDev := s.toDev.cfgErr Pg.FLASH }) ∧
  (∀ (s : State) (ok1 ok2 : Bool) (a : Nat) (data : List Byte), s.mainOn = true → s.host.flashOp = some (1, a, data) →
    completes (.flashOpDone ok1 ok2) s fun t => t.pending = s.pending ∧ t.mem = Memory.writeAll s.mem a (List.replicate 4096 0xFF) ∧ t.on Fld.FLASH_PSTAT_BUSY = false ∧ t.on Fld.FLASH_PSTAT_DONE = true ∧ t.host = { s.host with flashOp := none }) ∧
  (∀ (s : State) (ok1 ok2 : Bool) (a : Nat) (data : List Byte), s.mainOn = true → s.host.flashOp = some (2, a, data) → (ok1 = true ∨ ok2 = true) →
    let took := List.zipWith (fun (x y : Byte) => x &&& y) (Memory.readAll s.mem a 256) data
    completes (.flashOpDone ok1 ok2) s fun t => t.pending = s.pending ∧ t.mem = Memory.writeAll s.mem a took ∧ t.on Fld.FLASH_PSTAT_BUSY = false ∧ t.on Fld.FLASH_PSTAT_DONE = true ∧ t.host = { s.host with flashOp := none } ∧
      t.on Fld.FLASH_PSTAT_FAIL = (s.on Fld.FLASH_PSTAT_FAIL || took != data)) ∧
  (∀ (s : State) (a : Nat) (data : List Byte), s.mainOn = true → s.host.flashOp = some (2, a, data) →
    completes (.flashOpDone false false) s fun t => t.pending = s.pending ∧ (∀ b, b < a ∨ a + 256 ≤ b → Memory.read t.mem b = Memory.read s.mem b) ∧ t.on Fld.FLASH_PSTAT_FAIL = true ∧ t.host = { s.host with flashOp := none }) ∧
  (∀ (s : State) (ok1 ok2 : Bool), s.mainOn = true → s.host.flashOp = none → exec (.flashOpDone ok1 ok2) s = .next s) ∧
  (∀ (s : State) (m n : Nat) (v : Word), n < 32 → lands s (Reg.SPLIT_SEL n) → bitsOf v 13 12 ≠ 3 → codeDefined (bitsOf v 11 0) = true →
    completes (.splitSelect m n v) s fun t => keepsQueue s t ∧ t.rd (Reg.SPLIT_SEL n) = (v &&& 0x80003FFF) ∧ t.get64 (Reg.SPLIT_CNT_LO n) (Reg.SPLIT_CNT_HI n) = 0 ∧ t.get64 (Reg.SPLIT_SNAP_LO n) (Reg.SPLIT_SNAP_HI n) = 0) ∧
  (∀ (s : State) (m n : Nat) (v : Word), n < 32 → lands s (Reg.SPLIT_SEL n) → (bitsOf v 13 12 = 3 ∨ codeDefined (bitsOf v 11 0) = false) → exec (.splitSelect m n v) s = .next { s with toDev := s.toDev.cfgErr Pg.SPLIT }) ∧
  (∀ (s : State) (m n : Nat) (v : Word), n < 32 → lands s Reg.SPLIT_LATCH → s.mt < 2 ^ 64 →
    completes (.splitLatch m v) s fun t => keepsQueue s t ∧ t.get64 Reg.SPLIT_LMT_LO Reg.SPLIT_LMT_HI = s.mt ∧
      t.get64 (Reg.SPLIT_SNAP_LO n) (Reg.SPLIT_SNAP_HI n) = (if bitAt v n then s.get64 (Reg.SPLIT_CNT_LO n) (Reg.SPLIT_CNT_HI n) else s.get64 (Reg.SPLIT_SNAP_LO n) (Reg.SPLIT_SNAP_HI n)))

/-- R419–R426: a transaction without the CRC that CRCREQ asks for ends with PROTO; a read whose header passes answers its words with token 0xA5, one whose HCRC fails answers 0xAC and no word; a write that passes is carried out word by word as writes of master 16, an immediate bus error being shown in the next status byte, and one that fails is not; STATUS answers both PEND words; an aborted write with CRC leaves nothing behind, one without leaves what it had sent, and an aborted read completes inside the chip; a read that an isolated island holds stays in WAIT. -/
def Obligations.SpiCommandsComplete : Prop :=
  (∀ (s : State) (crc crcOk : Bool) (a len : Nat) (w : Word) (ws : List Word), s.mainOn = true → s.toDev.spiBegin.crcAbsent crc = true →
    let t : Host.Outcome State Fault Refusal := .next { s with toDev := s.toDev.spiBegin.spiProto }
    exec (.spiRead crc a crcOk) s = t ∧ exec (.spiBurstRead crc a len crcOk) s = t ∧ exec (.spiWrite crc a w crcOk) s = t ∧ exec (.spiBurstWrite crc a ws crcOk) s = t ∧ exec (.spiAbort a ⟨ws, len⟩ crc) s = t) ∧
  (∀ (s : State) (crc crcOk : Bool) (a : Nat) (w : Word) (d : Dev), s.mainOn = true → s.toDev.spiBegin.crcAbsent crc = false → s.toDev.spiBegin.crcCheck crc crcOk = (d, true) → (d.busRead s.mem 16 a).2 = .word w →
    completes (.spiRead crc a crcOk) s fun t => keepsQueue s t ∧ t.host.reply = [w] ∧ t.host.token = 0xA5) ∧
  (∀ (s : State) (crc crcOk : Bool) (a : Nat) (d : Dev), s.mainOn = true → s.toDev.spiBegin.crcAbsent crc = false → s.toDev.spiBegin.crcCheck crc crcOk = (d, true) → (d.busRead s.mem 16 a).2 = .stalled →
    completes (.spiRead crc a crcOk) s fun t => keepsQueue s t ∧ t.host.held = some (a, 1, []) ∧ t.host.reply = [] ∧ t.host.token = 0xFF) ∧
  (∀ (s : State) (crc crcOk : Bool) (a len : Nat) (d e : Dev) (ws : List Word), s.mainOn = true → s.toDev.spiBegin.crcAbsent crc = false → s.toDev.spiBegin.crcCheck crc crcOk = (d, true) → Dev.spiGather s.mem (burstLen len) a [] d = (e, ws, 0xA5) →
    completes (.spiBurstRead crc a len crcOk) s fun t => keepsQueue s t ∧ t.host.reply = ws ∧ ws.length = burstLen len ∧ t.host.token = 0xA5) ∧
  (∀ (s : State) (crc crcOk : Bool) (a len : Nat) (d : Dev), s.mainOn = true → s.toDev.spiBegin.crcAbsent crc = false → s.toDev.spiBegin.crcCheck crc crcOk = (d, false) →
    completes (.spiRead crc a crcOk) s (fun t => keepsQueue s t ∧ t.host.reply = [] ∧ t.host.token = 0xAC) ∧ completes (.spiBurstRead crc a len crcOk) s fun t => keepsQueue s t ∧ t.host.reply = [] ∧ t.host.token = 0xAC) ∧
  (∀ (s : State) (crc crcOk : Bool) (a : Nat) (w : Word) (ws : List Word) (d : Dev), s.mainOn = true → s.toDev.spiBegin.crcAbsent crc = false → s.toDev.spiBegin.crcCheck crc crcOk = (d, false) →
    exec (.spiWrite crc a w crcOk) s = .next { s with toDev := d.spiEnd } ∧ exec (.spiBurstWrite crc a ws crcOk) s = .next { s with toDev := d.spiEnd }) ∧
  (∀ (s : State) (crc crcOk : Bool) (a : Nat) (w : Word) (d : Dev) (r : RegRow), s.mainOn = true → s.toDev.spiBegin.crcAbsent crc = false → s.toDev.spiBegin.crcCheck crc crcOk = (d, true) → d.writeErr 16 a 4 = none → 0x40000000 ≤ a → pageOf a = Pg.PLCMAC → 0x40 ≤ a % 0x1000 →
    d.islRun Pg.PLCMAC = true → findRow PageKind.plcmac.rows (a % 0x1000) = some r → r.key = 0 → d.frozenRwl Pg.PLCMAC = false → regOk .plcmac (a % 0x1000) (r.merge false (d.rd a) w) = true →
    completes (.spiWrite crc a w crcOk) s fun t => keepsQueue s t ∧ t.rd a = r.merge false (d.rd a) w ∧ (∀ b, b ≠ a → b ≠ Reg.SPIH_NTRANS → t.rd b = d.rd b)) ∧
  (∀ (s : State) (crc crcOk : Bool) (a kind : Nat) (w : Word) (d : Dev), s.mainOn = true → s.toDev.spiBegin.crcAbsent crc = false → s.toDev.spiBegin.crcCheck crc crcOk = (d, true) → d.writeErr 16 a 4 = some kind →
    completes (.spiWrite crc a w crcOk) s fun t => keepsQueue s t ∧ t.on Fld.SPIH_STAT_BUSERR = true ∧ natBit t.host.prev Spi.BUSERR = true) ∧
  (∀ (s : State) (crc crcOk : Bool) (a : Nat) (ws : List Word) (d : Dev), s.mainOn = true → s.toDev.spiBegin.crcAbsent crc = false → s.toDev.spiBegin.crcCheck crc crcOk = (d, true) → ws.length ≤ 256 → a % 4 = 0 → 0x40000000 ≤ a → a + 4 * ws.length ≤ 0x4003E000 →
    let u := ws.zipIdx.foldl (fun (x : State) y => x.busWrite 16 (a + 4 * y.2) 4 y.1) { s with toDev := d }
    exec (.spiBurstWrite crc a ws crcOk) s = .next { u with toDev := u.toDev.spiEnd }) ∧
  (∀ (s : State) (crc : Bool), s.mainOn = true → completes (.spiStatus crc) s fun t => keepsQueue s t ∧ t.host.reply = [BitVec.ofNat 32 (s.toDev.spiBegin.pendWord 32), BitVec.ofNat 32 (s.toDev.spiBegin.pendWord 0)]) ∧
  (∀ (s : State) (crc : Bool) (a n : Nat) (ws : List Word), s.mainOn = true → s.toDev.spiBegin.crcAbsent crc = false → (crc = true ∨ ws = []) →
    exec (.spiAbort a ⟨ws, n⟩ crc) s = .next { s with toDev := ((Dev.spiDrop s.mem s.toDev.spiBegin crc a (min n 256)).spiMark Spi.ABORT).raise Pg.SPIH 3 }) ∧
  (∀ (s : State) (a : Nat) (ws : List Word), s.mainOn = true → exec (.spiAbort a ⟨ws, 0⟩ true) s = .next { s with toDev := (s.toDev.spiBegin.spiMark Spi.ABORT).raise Pg.SPIH 3 }) ∧
  (∀ (s : State) (a : Nat) (ws : List Word), s.mainOn = true → s.toDev.spiBegin.crcAbsent false = false → ws.length ≤ 256 → a % 4 = 0 → 0x40000000 ≤ a → a + 4 * ws.length ≤ 0x4003E000 →
    let u := ws.zipIdx.foldl (fun (x : State) y => x.busWrite 16 (a + 4 * y.2) 4 y.1) { s with toDev := s.toDev.spiBegin }
    exec (.spiAbort a ⟨ws, 0⟩ false) s = .next { u with toDev := (u.toDev.spiMark Spi.ABORT).raise Pg.SPIH 3 })

/-- R432, R434, R435, R442: the doorbell sets its bits; a byte written joins the transmit FIFO or goes straight to an idle shifter, and is lost where the FIFO is full; a byte received joins the receive FIFO with its errors, or overruns it; a read of DATA takes the oldest byte; in chain mode a frame that fails its CRC is counted and dropped, and one that passes is buffered where it fits and forwarded unless it is for this node, an update frame for this node or for all going to the update service instead of the buffer; the outside drives one pin at a time, and the pin's event is raised where the level seen changes in a direction its MODE selects. -/
def Obligations.SerialAndPinCommandsComplete : Prop :=
  (∀ (s : State) (m : Nat) (v : Word), lands s Reg.INTC_DBELL_SET → exec (.doorbellSet m v) s = .next { s with toDev := s.set Fld.INTC_DBELL_BITS (s.get Fld.INTC_DBELL_BITS ||| bitsOf v 15 0) }) ∧
  (∀ (s : State) (m u : Nat) (v : Word) (b : Byte), u < 2 → u < s.host.uarts.length → lands s (Reg.UART_DATA u) → (s.uart u).tx.length < 64 → (s.uart u).shift = some b →
    completes (.uartDataWrite m u v) s fun t => keepsQueue s t ∧ (t.uart u).tx = (s.uart u).tx ++ [BitVec.ofNat 8 v.toNat] ∧ (t.uart u).shift = some b ∧ t.regs = s.regs) ∧
  (∀ (s : State) (m u : Nat) (v : Word), u < 2 → u < s.host.uarts.length → lands s (Reg.UART_DATA u) → (s.uart u).tx = [] → (s.uart u).shift = none → s.on (Fld.UART_CTRL_TXEN u) = true → s.uartChain u = false →
    completes (.uartDataWrite m u v) s fun t => keepsQueue s t ∧ (t.uart u).tx = [] ∧ (t.uart u).shift = some (BitVec.ofNat 8 v.toNat)) ∧
  (∀ (s : State) (m u : Nat) (v : Word), u < 2 → lands s (Reg.UART_DATA u) → 64 ≤ (s.uart u).tx.length → exec (.uartDataWrite m u v) s = .next s) ∧
  (∀ (s : State) (m u : Nat) (v : Word), 2 ≤ u → exec (.uartDataWrite m u v) s = .next s) ∧
  (∀ (s : State) (m u : Nat), s.mainOn = true → u < 2 → s.islIso (Pg.UART u) = false → s.islRun (Pg.UART u) = true → s.bus.posted = [] →
    completes (.uartDataRead m u) s fun t => keepsQueue s t ∧ (t.uart u).rx = (s.uart u).rx.drop 1 ∧ t.regs = s.regs ∧ (m, Reg.UART_DATA u, Answer.word (s.regWord 0 (Reg.UART_DATA u))) ∈ t.bus.answers) ∧
  (∀ (s : State) (u : Nat) (b : Byte) (fe pe br : Bool), s.mainOn = true → u < 2 → u < s.host.uarts.length → s.on (Fld.UART_CTRL_RXEN u) = true → s.uartChain u = false → (s.uart u).rx.length < 64 →
    completes (.uartRxByte u b fe pe br) s fun t => keepsQueue s t ∧ (t.uart u).rx = (s.uart u).rx ++ [b] ∧ t.on (Fld.UART_STAT_FRERR u) = (s.on (Fld.UART_STAT_FRERR u) || fe) ∧
      t.on (Fld.UART_STAT_BREAK u) = (s.on (Fld.UART_STAT_BREAK u) || br) ∧ t.on (Fld.UART_STAT_PARERR u) = (s.on (Fld.UART_STAT_PARERR u) || (pe && s.on (Fld.UART_CTRL_PAR u)))) ∧
  (∀ (s : State) (u : Nat) (b : Byte) (fe pe br : Bool), s.mainOn = true → u < 2 → s.on (Fld.UART_CTRL_RXEN u) = true → s.uartChain u = false → 64 ≤ (s.uart u).rx.length →
    completes (.uartRxByte u b fe pe br) s fun t => keepsQueue s t ∧ t.host = s.host ∧ t.on (Fld.UART_STAT_OVR u) = true) ∧
  (∀ (s : State) (u : Nat) (b : Byte) (fe pe br : Bool), s.mainOn = true → (2 ≤ u ∨ s.on (Fld.UART_CTRL_RXEN u) = false ∨ s.uartChain u = true) → exec (.uartRxByte u b fe pe br) s = .next s) ∧
  (∀ (s : State) (u : Nat) (x b : Byte) (r : List Byte), s.mainOn = true → u < s.host.uarts.length → (s.uart u).shift = some x → (s.uart u).tx = b :: r → s.on (Fld.UART_CTRL_TXEN u) = true → s.uartChain u = false →
    completes (.uartByteTransmitted u) s fun t => keepsQueue s t ∧ (t.uart u).shift = some b ∧ (t.uart u).tx = r) ∧
  (∀ (s : State) (u : Nat) (x : Byte), s.mainOn = true → u < s.host.uarts.length → (s.uart u).shift = some x → (s.uart u).tx = [] →
    completes (.uartByteTransmitted u) s fun t => keepsQueue s t ∧ (t.uart u).shift = none ∧ (t.uart u).tx = [] ∧ t.regs = s.regs) ∧
  (∀ (s : State) (u : Nat), s.mainOn = true → (s.uart u).shift = none → exec (.uartByteTransmitted u) s = .next s) ∧
  (∀ (s : State) (f : List Byte), s.mainOn = true → (s.uartChain 1 = false ∨ s.on (Fld.UART_CTRL_RXEN 1) = false ∨ s.power.st = .holdup) → exec (.chainFrameReceive f) s = .next s) ∧
  (∀ (s : State) (f : List Byte), s.mainOn = true → s.uartChain 1 = true → s.on (Fld.UART_CTRL_RXEN 1) = true → s.power.st ≠ .holdup → (f.length < 11 ∨ crc32 (f.take (f.length - 4)) ≠ ofLe (f.drop (f.length - 4))) →
    exec (.chainFrameReceive f) s = .next { s with toDev := (s.bump (Fld.UART_CHCNT_CRCERR 1)).raise (Pg.UART 1) 5 }) ∧
  (∀ (s : State) (f : List Byte), s.mainOn = true → s.uartChain 1 = true → s.on (Fld.UART_CTRL_RXEN 1) = true → s.power.st ≠ .holdup → 11 ≤ f.length → crc32 (f.take (f.length - 4)) = ofLe (f.drop (f.length - 4)) →
    (leAt f 2 1 ≠ 0x51 ∨ s.updServes (0x1000 + Config.headAddr % 65536) = false ∨ (leAt f 0 2 ≠ s.get (Fld.UART_CADDR_ADDR 1) ∧ leAt f 0 2 ≠ 0xFFFF ∧ s.inRecovery = false)) →
    completes (.chainFrameReceive f) s fun t => keepsQueue s t ∧ t.host.chainBuf = (if (s.host.chainBuf.map List.length).sum + f.length ≤ 8192 then s.host.chainBuf ++ [f] else s.host.chainBuf) ∧
      t.host.chainOut = (if leAt f 0 2 = s.get (Fld.UART_CADDR_ADDR 1) ∨ s.on (Fld.UART_CTRL_TXEN 1) = false then s.host.chainOut else s.host.chainOut ++ [f])) ∧
  (∀ (s : State) (f : List Byte), s.mainOn = true → s.uartChain 1 = true → s.on (Fld.UART_CTRL_RXEN 1) = true → s.power.st ≠ .holdup → 11 ≤ f.length → crc32 (f.take (f.length - 4)) = ofLe (f.drop (f.length - 4)) →
    leAt f 2 1 = 0x51 → s.updServes (0x1000 + Config.headAddr % 65536) = true → (leAt f 0 2 = s.get (Fld.UART_CADDR_ADDR 1) ∨ leAt f 0 2 = 0xFFFF ∨ s.inRecovery = true) →
    let r := s.updateIn s.mem (0x1000 + Config.headAddr % 65536) (slice f 7 (leAt f 5 2))
    exec (.chainFrameReceive f) s = .next { s with toDev := r.1.chainForward f, mem := r.2 }) ∧
  (∀ (s : State) (n : Nat) (l : Bool), 16 ≤ n → exec (.gpioEdge n l) s = .next s) ∧
  (∀ (s : State) (n : Nat) (l : Bool), n < 16 → completes (.gpioEdge n l) s fun t => keepsQueue s t ∧ t.pins = { s.pins with gpioIn := putBit s.pins.gpioIn n l } ∧ ∀ a, eventReg a = false → t.rd a = s.rd a) ∧
  (∀ (s : State) (n : Nat) (l : Bool), n < 16 → s.mainOn = true → s.gpioLevel n ≠ ({ s.toDev with pins := { s.pins with gpioIn := putBit s.pins.gpioIn n l } } : Dev).gpioLevel n →
    natBit (s.get Fld.GPIO_EDGE_MODE / 4 ^ n % 4) (if l then 0 else 1) = true → completes (.gpioEdge n l) s fun t => natBit (t.get (Hdr.RAW Pg.GPIO)) n = true) ∧
  (∀ (s : State) (n : Nat) (l : Bool), n < 16 → (s.gpioLevel n = ({ s.toDev with pins := { s.pins with gpioIn := putBit s.pins.gpioIn n l } } : Dev).gpioLevel n ∨ natBit (s.get Fld.GPIO_EDGE_MODE / 4 ^ n % 4) (if l then 0 else 1) = false) →
    exec (.gpioEdge n l) s = .next { s with toDev := { s.toDev with pins := { s.pins with gpioIn := putBit s.pins.gpioIn n l } } })

/-- R437–R439: a kick sends the frame of the next descriptor the MAC owns, padded and with its FCS; one kicked in a pause is held; its end gives the descriptor back and moves the ring on; a pause frame is obeyed where PAUSE is set; a frame accepted by the filters is stored with its length, one that finds no buffer is counted and raises RXNOBUF, one of a wrong length is only counted; an MDIO access runs until its end, which leaves the data of a read. -/
def Obligations.EthernetCommandsComplete : Prop :=
  (∀ (s : State) (m : Nat) (v : Word), lands s Reg.ETH_TXKICK → bitAt v 0 = true → s.ethOn = true → s.on Fld.ETH_CTRL_TXEN = true → s.host.ethOut = none → s.host.ethPause = none → 0 < (s.rd Reg.ETH_TXRING).toNat / 2 ^ 24 →
    bitAt (ethDesc s.mem (s.rd Reg.ETH_TXRING).toNat s.host.txIdx).1 31 = true →
    completes (.ethTxKick m v) s fun t => keepsQueue s t ∧ t.on Fld.ETH_STAT_TXACT = true ∧ t.host = { s.host with ethOut := some (ethFrame ((List.range (bitsOf (ethDesc s.mem (s.rd Reg.ETH_TXRING).toNat s.host.txIdx).1 10 0)).map fun i =>
      Memory.read s.mem (ethAddr (bitsOf (ethDesc s.mem (s.rd Reg.ETH_TXRING).toNat s.host.txIdx).2 16 0 + i)))) }) ∧
  (∀ (s : State) (m : Nat) (v : Word), lands s Reg.ETH_TXKICK → bitAt v 0 = true → s.ethOn = true → s.on Fld.ETH_CTRL_TXEN = true → s.host.ethOut = none → s.host.ethPause.isSome = true → 0 < (s.rd Reg.ETH_TXRING).toNat / 2 ^ 24 →
    bitAt (ethDesc s.mem (s.rd Reg.ETH_TXRING).toNat s.host.txIdx).1 31 = true → exec (.ethTxKick m v) s = .next { s with toDev := { s.toDev with host := { s.host with ethHeld := true } } }) ∧
  (∀ (s : State) (m : Nat) (v : Word), lands s Reg.ETH_TXKICK → (bitAt v 0 = false ∨ s.ethOn = false ∨ s.on Fld.ETH_CTRL_TXEN = false ∨ s.host.ethOut.isSome = true) → exec (.ethTxKick m v) s = .next s) ∧
  (∀ (s : State) (abort under : Bool) (colls : Nat) (f : List Byte), s.mainOn = true → s.ethOn = true → s.host.ethOut = some f →
    let ring := (s.rd Reg.ETH_TXRING).toNat
    let w := (ethDesc s.mem ring s.host.txIdx).1
    completes (.ethTxDone ⟨abort, under, colls⟩) s fun t => t.pending = s.pending ∧ t.mem = ethReturn s.mem ring s.host.txIdx w (abort || under) (bitsOf w 10 0) ∧ t.host.txIdx = ethNext ring s.host.txIdx w ∧
      t.get Fld.ETH_CNT_TX_SENT = (if abort || under then s.get Fld.ETH_CNT_TX_SENT else (s.get Fld.ETH_CNT_TX_SENT + 1) % 2 ^ 16) ∧
      t.get Fld.ETH_CNT_TX_COLL = (if s.on Fld.ETH_CTRL_FDX then s.get Fld.ETH_CNT_TX_COLL else min 0xFFFF (s.get Fld.ETH_CNT_TX_COLL + colls)) ∧ t.on Fld.ETH_STAT_TXUNDER = (s.on Fld.ETH_STAT_TXUNDER || under) ∧ natBit (t.get (Hdr.RAW Pg.ETH)) 1 = true) ∧
  (∀ (s : State) (abort under : Bool) (colls : Nat), s.mainOn = true → (s.ethOn = false ∨ s.host.ethOut = none) → exec (.ethTxDone ⟨abort, under, colls⟩) s = .next s) ∧
  (∀ (s : State) (f : List Byte) (ok : Bool), s.mainOn = true → (pauseQuanta f = none ∨ s.on Fld.ETH_CTRL_PAUSE = false) → (s.ethOn = false ∨ s.on Fld.ETH_CTRL_RXEN = false ∨ s.ethAccepts (slice f 0 6) = false) → exec (.ethFrameReceive f ok) s = .next s) ∧
  (∀ (s : State) (f : List Byte) (ok : Bool), s.mainOn = true → (pauseQuanta f = none ∨ s.on Fld.ETH_CTRL_PAUSE = false) → s.ethOn = true → s.on Fld.ETH_CTRL_RXEN = true → s.ethAccepts (slice f 0 6) = true → (f.length < 64 ∨ 1522 < f.length) →
    exec (.ethFrameReceive f ok) s = .next { s with toDev := s.bump Fld.ETH_CNT_RX_DROP }) ∧
  (∀ (s : State) (f : List Byte) (ok : Bool), s.mainOn = true → (pauseQuanta f = none ∨ s.on Fld.ETH_CTRL_PAUSE = false) → s.ethOn = true → s.on Fld.ETH_CTRL_RXEN = true → s.ethAccepts (slice f 0 6) = true → 64 ≤ f.length → f.length ≤ 1522 →
    ((s.rd Reg.ETH_RXRING).toNat / 2 ^ 24 = 0 ∨ bitAt (ethDesc s.mem (s.rd Reg.ETH_RXRING).toNat s.host.rxIdx).1 31 = false) →
    completes (.ethFrameReceive f ok) s fun t => keepsQueue s t ∧ t.on Fld.ETH_STAT_RXNOBUF = true ∧ t.host = s.host) ∧
  (∀ (s : State) (f : List Byte) (ok : Bool), s.mainOn = true → (pauseQuanta f = none ∨ s.on Fld.ETH_CTRL_PAUSE = false) → s.ethOn = true → s.on Fld.ETH_CTRL_RXEN = true → s.ethAccepts (slice f 0 6) = true → 64 ≤ f.length → f.length ≤ 1522 → 0 < (s.rd Reg.ETH_RXRING).toNat / 2 ^ 24 →
    bitAt (ethDesc s.mem (s.rd Reg.ETH_RXRING).toNat s.host.rxIdx).1 31 = true →
    let ring := (s.rd Reg.ETH_RXRING).toNat
    let d := ethDesc s.mem ring s.host.rxIdx
    completes (.ethFrameReceive f ok) s fun t => t.pending = s.pending ∧ t.host = { s.host with rxIdx := ethNext ring s.host.rxIdx d.1 } ∧
      t.mem = ethReturn ((List.range f.length).foldl (fun (x : List Host.Cell) i => Memory.write x (ethAddr (bitsOf d.2 16 0 + i)) (nth f i 0)) s.mem) ring s.host.rxIdx d.1 (!ok) f.length) ∧
  (∀ (s : State) (f : List Byte) (q : Nat), s.mainOn = true → s.ethOn = true → s.on Fld.ETH_CTRL_RXEN = true → s.on Fld.ETH_CTRL_PAUSE = true → pauseQuanta f = some q → 0 < q →
    completes (.ethFrameReceive f true) s fun t => t.pending = s.pending ∧ t.host.ethPause = some (s.pauseEnd q) ∧ t.host.ethOut = s.host.ethOut) ∧
  (∀ (s : State) (m : Nat) (v : Word), lands s Reg.ETH_MDIO → s.host.mdio = false →
    completes (.mdioAccess m v) s fun t => keepsQueue s t ∧ t.rd Reg.ETH_MDIO = (v &&& 0xC3FFFFFF) ∧ t.host = { s.host with mdio := bitAt v 31 } ∧ ∀ a, a ≠ Reg.ETH_MDIO → t.rd a = s.rd a) ∧
  (∀ (s : State) (m : Nat) (v : Word), lands s Reg.ETH_MDIO → s.host.mdio = true → exec (.mdioAccess m v) s = .next s) ∧
  (∀ (s : State) (data : Nat), s.mainOn = true → s.host.mdio = true → data < 2 ^ 16 →
    completes (.mdioDone data) s fun t => keepsQueue s t ∧ t.on Fld.ETH_MDIO_GO = false ∧ t.host = { s.host with mdio := false } ∧ t.get Fld.ETH_MDIO_DATA = (if s.on Fld.ETH_MDIO_WRITE then s.get Fld.ETH_MDIO_DATA else data)) ∧
  (∀ (s : State) (data : Nat), s.mainOn = true → s.host.mdio = false → exec (.mdioDone data) s = .next s)

/-- R440, R441: without a debugger nothing answers; a request whose CRC fails answers 3; a status request tells the port's state; reads and writes of the Debug Module answer 6 (its layout is the published one, assumption log 22, PRESUMED); a halt of the Starter or a Baton is taken, one of a metering hart is refused on a sealed device or without the port's session; a system-bus write obeys the interconnect; disconnecting resumes every hart. -/
def Obligations.DebugCommandsComplete : Prop :=
  (∀ (s : State) (a : Nat) (v : Word) (ok : Bool), s.mainOn = true → s.host.dbgen = false → exec (.debugRead a ok) s = .next s ∧ exec (.debugWrite a v ok) s = .next s ∧ exec (.debugStatus ok) s = .next s ∧ exec .debugFramingReset s = .next s) ∧
  (∀ (s : State) (a : Nat) (v : Word), s.mainOn = true → s.host.dbgen = true →
    let t : Host.Outcome State Fault Refusal := .next { s with toDev := { s.toDev with host := { s.host with dbgReply := (0x3, 0), dbgData := false } } }
    exec (.debugRead a false) s = t ∧ exec (.debugWrite a v false) s = t ∧ exec (.debugStatus false) s = t) ∧
  (∀ (s : State), s.mainOn = true → s.host.dbgen = true →
    exec (.debugStatus true) s = .next { s with toDev := { s.toDev with host := { s.host with dbgReply := (0x6, BitVec.ofNat 32 (s.dbgActive.toNat + (s.session 17).toNat * 2 + s.isSealed.toNat * 4)), dbgData := true } } }) ∧
  (∀ (s : State) (a : Nat), s.mainOn = true → s.host.dbgen = true → (a % 128 ≠ 0x3C ∨ bitAt (s.dm 0x38) 15 = false) →
    exec (.debugRead a true) s = .next { s with toDev := { s.toDev with host := { s.host with dbgReply := (0x6, s.dmRead (a % 128)), dbgData := true } } }) ∧
  (∀ (s : State) (a : Nat) (v : Word), s.mainOn = true → s.host.dbgen = true → a < 128 → a ∉ [0x10, 0x11, 0x17, 0x38, 0x39, 0x3C, 0x40] →
    completes (.debugWrite a v true) s fun t => keepsQueue s t ∧ t.host.dbgReply = (0x6, 0) ∧ t.host.dbgData = false ∧ t.dmRead a = v ∧ t.regs = s.regs) ∧
  (∀ (s : State) (v : Word), s.mainOn = true → s.host.dbgen = true → bitAt v 0 = true → bitAt v 31 = true → s.haltDenied (bitsOf v 25 16 + bitsOf v 15 6 * 1024) = true →
    completes (.debugWrite 0x10 v true) s fun t => keepsQueue s t ∧ t.host.dbgReply = (0xC, 0) ∧ t.get Fld.DBG_HALTED_HART = s.get Fld.DBG_HALTED_HART) ∧
  (∀ (s : State) (v : Word) (h : Nat), s.mainOn = true → s.host.dbgen = true → bitAt v 0 = true → bitAt v 31 = true → h = bitsOf v 25 16 + bitsOf v 15 6 * 1024 → h < 16 → s.haltDenied h = false → s.released h = true →
    completes (.debugWrite 0x10 v true) s fun t => keepsQueue s t ∧ t.host.dbgReply = (0x6, 0) ∧ natBit (t.get Fld.DBG_HALTED_HART) h = true) ∧
  (∀ (s : State) (v : Word) (a : Nat), s.mainOn = true → s.host.dbgen = true → bitsOf (s.dm 0x38) 14 12 = 0 → bitsOf (s.dm 0x38) 19 17 = 2 → a = (s.dm 0x39).toNat → s.writeErr 17 a 4 = none → ¬ (0x40000000 ≤ a ∧ a < 0x40040000) →
    completes (.debugWrite 0x3C v true) s fun t => t.pending = s.pending ∧ t.host.dbgReply = (0x6, 0) ∧ t.mem = Memory.writeAll s.mem a (leBytes 4 v.toNat) ∧ t.regs = s.regs) ∧
  (∀ (s : State), s.mainOn = true → completes .debugDisconnect s fun t => keepsQueue s t ∧ t.host.dbgen = false ∧ t.host.dbgReply = (0, 0) ∧ t.get Fld.DBG_HALTED_HART = 0) ∧
  (∀ (s : State), s.mainOn = true → s.host.dbgen = true → exec .debugFramingReset s = .next { s with toDev := { s.toDev with host := { s.host with dbgReply := (0, 0), dbgData := false } } }) ∧
  (∀ (s : State), s.mainOn = true → s.host.dbgen = false → exec .debuggerConnected s = .next { s with toDev := ({ s.toDev with host := { s.host with dbgen := true } } : Dev).raise Pg.DBG 0 }) ∧
  (∀ (s : State), s.mainOn = true → s.host.dbgen = true → exec .debuggerConnected s = .next s)

/-- The command at the front of the queue is executed with the rest of the queue: a step is that command's meaning. -/
def Obligations.StepRunsFront : Prop :=
  ∀ (c : Instr) (r : List Instr) (s : State), s.pending = c :: r → step s = exec c { s with pending := r }

/-- On an empty queue the block idles: one tick of MT passes where the main domain is powered and the crystal runs (the model's choice, assumption log 1). Without a running main domain nothing else changes; with it, where nothing is due only PLDEN and the pairs driven take their levels (R376), and what is due at the new MT ends: a pause of the Ethernet MAC (R437), the check of a table image (R87), the SHORT measurement of an analogue slice, followed by the STIM loopback (R468), the press of a button (R319), a floor fuse (R454), the frame that a new band plan waits for (R374), the frames that arrive (R389). -/
def Obligations.IdleStepTicks : Prop :=
  ∀ s : State, s.pending = [] → ∃ t, step s = .next t ∧ t.pending = [] ∧ t.mt = (if s.mainPower = true ∧ s.clk.xtal = true then (s.mt + 1) % 2 ^ 64 else s.mt) ∧
    (s.mainOn = false → t = { s with toDev := { s.toDev with mt := t.mt } }) ∧
    (s.mainOn = true →
      ((∀ e, s.host.ethPause = some e → t.mt < e) → (∀ l ∈ s.clk.loading, t.mt < l.endMt) → (∀ e, s.bist.stimMt = some e → t.mt < e) → (s.pins.btn0 = true → t.mt < s.pins.btn0End) → (s.pins.btn1 = true → t.mt < s.pins.btn1End) →
        (∀ e, s.upd.floorGo = some e → t.mt < e) → (s.plc.planNext = none ∨ t.mt < s.plc.txTo) → (∀ a ∈ s.plc.arriving, t.mt < a.endMt) →
        t = { s with toDev := ({ s.toDev with mt := t.mt } : Dev).plcLevels }) ∧
      t.pins.plden = t.pldenHigh ∧
      (∀ e, s.host.ethPause = some e → e ≤ t.mt → t.host.ethPause = none ∧ t.host.ethHeld = false) ∧
      t.clk.loading = (s.clk.loading.filter fun l => !decide (l.endMt ≤ t.mt)) ∧
      (∀ e, s.bist.stimMt = some e → e ≤ t.mt → s.bist.slice < 13 → t.bist.stimMt = none ∧ t.rd (if s.bist.slice < 12 then Reg.HEAT_ISO s.bist.slice else Reg.UGRP_ISO) = 0x102) ∧
      t.pins.btn0 = (s.pins.btn0 && decide (t.mt < s.pins.btn0End)) ∧ t.pins.btn1 = (s.pins.btn1 && decide (t.mt < s.pins.btn1End)) ∧
      (∀ e, s.upd.floorGo = some e → e ≤ t.mt → t.otp.floor = s.otp.floor + 1) ∧
      (∀ p, s.plc.planNext = some p → s.plc.txTo ≤ t.mt → (∀ l ∈ s.clk.loading, t.mt < l.endMt) → t.plc.planNext = none ∧ t.plc.plan = some p.1) ∧
      ∀ a ∈ t.plc.arriving, t.mt < a.endMt)

/-- The state at reset is in canonical form, its queue is empty, MT is 0, and the registers the spec gives a reset value to read it: CHIP_ID, the SPLIT page's enable (R483), the UART divisor (R436), the pull-downs (R442), the token key's absence. -/
def Obligations.ResetState : Prop :=
  memOk State.reset ∧ regsOk State.reset ∧ State.reset.pending = [] ∧ State.reset.mt = 0 ∧ State.reset.power.st = .reset ∧ (∀ a, State.reset.rd a = regReset a) ∧
  regReset Reg.SYS_CHIP_ID = 0x019200B1 ∧ State.reset.on (Hdr.EN Pg.SPLIT) = true ∧ State.reset.get (Fld.UART_CTRL_DIVX 1) = 17067 ∧ State.reset.get Fld.GPIO_PD_PD = 0xFFFF ∧ State.reset.get Fld.MESH_ROOTMET_METRIC = 0xFFFFFF

/-- Every command completes in every state: it answers a next state, never a fault or a refusal, and leaves the waiting commands as they are. -/
def Obligations.EveryCommandCompletes : Prop :=
  ∀ (c : Instr) (s : State), completes c s fun t => t.pending = s.pending

/-- Every step keeps the byte memory in its canonical form, so that equal memories are equal data. -/
def Obligations.MemoryStaysCanonical : Prop :=
  ∀ s t : State, memOk s → step s = .next t → memOk t

/-- Every step keeps the register file in its canonical form. -/
def Obligations.RegistersStayCanonical : Prop :=
  ∀ s t : State, regsOk s → step s = .next t → regsOk t

/-- R336, R454: what one-time programmable memory holds is never undone by any step: a blown fuse stays blown, the permanent seal stays, no bit of an owner root hash clears and none is added while none is being programmed, the floor never falls, the seed and with it DEVID never change. -/
def Obligations.FusesNeverClear : Prop :=
  ∀ s t : State, step s = .next t → t.otp.seed = s.otp.seed ∧ (∀ n, natBit s.otp.fused n = true → natBit t.otp.fused n = true) ∧ (s.otp.sealPerm = true → t.otp.sealPerm = true) ∧
    (∀ k, s.otp.oroot = some k → ∃ j, t.otp.oroot = some j ∧ (∀ n, n < 256 → natBit (ofLe k) n = true → natBit (ofLe j) n = true) ∧ ((∀ n ∈ s.sec.fusing, n < 17) → j = k)) ∧ s.otp.floor ≤ t.otp.floor

/-- Only the commands of `stores` may change a byte of memory. -/
def Obligations.OnlyStoresChangeMemory : Prop :=
  ∀ (c : Instr) (s t : State), stores c = false → exec c s = .next t → t.mem = s.mem

/-- Without a running main domain every command outside `withoutMain` does nothing (the model's reading, assumption log 23). -/
def Obligations.CommandsNeedTheMainDomain : Prop :=
  ∀ (c : Instr) (s : State), withoutMain c = false → s.mainOn = false → exec c s = .next s

/-- R78, R80: a register write to a page whose island is not clocked waits in the interconnect and has no other effect. -/
def Obligations.WritesToStoppedIslandsWait : Prop :=
  ∀ (c : Instr) (s : State) (m a : Nat) (v : Word), writeOf c = some (m, a, v) → s.mainOn = true → s.islRun (pageOf a) = false →
    exec c s = .next { s with toDev := { s.toDev with bus := { s.bus with posted := s.bus.posted ++ [⟨m, a, v⟩] } } }

/-- R4: a write to a keyed register without its key is ignored and sets LOCKERR of its page. The two RTC commands that carry the sub-second are left out: they first bring the clock to it. -/
def Obligations.WrongKeyIsIgnored : Prop :=
  ∀ (c : Instr) (s : State) (m a k : Nat) (v : Word), writeOf c = some (m, a, v) → keyAt a = some k → lands s a → keyOf v ≠ k → exec c s = .next { s with toDev := s.toDev.lockErr (pageOf a) }

/-- R73, R83: a raised event sets its page's RAW bit, counts in the split counters that select it, and changes nothing outside the events' own state. -/
def Obligations.RaisingAnEvent : Prop :=
  (∀ (s : Dev) (p no : Nat), s.mainOn = true → p < 64 → no < 32 → natBit ((s.raise p no).get (Hdr.RAW p)) no = true ∧ eventsOnly s (s.raise p no)) ∧
  (∀ (m : Regs) (e : Event) (n : Nat), n < 32 → Regs.get m (Hdr.EN Pg.SPLIT) = 1 → Regs.splitWraps m e = false →
    Regs.splitCount (Regs.event m e) n = (if Regs.splitHits m n e then Regs.splitCount m n + 1 else Regs.splitCount m n)) ∧
  (∀ (m : Regs) (e : Event) (n : Nat), n < 32 → Regs.get m (Hdr.EN Pg.SPLIT) ≠ 1 → Regs.splitCount (Regs.event m e) n = Regs.splitCount m n) ∧
  (∀ (s : Dev) (p no : Nat), s.mainOn = false → s.raise p no = s)

/-- R47, R4: a warm reset puts every register outside those it keeps at its reset value, and keeps the sticky tamper flags, MRAM, OTP but for fuses being programmed, the calendar and MT. -/
def Obligations.WarmResetKeepsAndClears : Prop :=
  ∀ (s : State) (k : ResetKind), regsOk s → (s.assertReset k).power.st = .reset ∧ (∀ a, warmMask a = 0 → (s.assertReset k).rd a = regReset a) ∧
    (s.assertReset k).get Fld.TAMP_STICKY_SRC = s.get Fld.TAMP_STICKY_SRC ∧ (s.assertReset k).mram = s.mram ∧ (s.sec.fusing = [] → s.upd.floorGo = none → (s.assertReset k).otp = s.otp) ∧ (s.assertReset k).rtc.lin = s.rtc.lin ∧ (s.assertReset k).mt = s.mt

/-- R264: energy added to a quantity is all found again in its remainder and its whole mWh at the tariff in force; the remainder stays below 1 mWh, and every other quantity and tariff is as before. -/
def Obligations.EnergyIsConserved : Prop :=
  ∀ (p : Bp) (q e t : Nat), q < p.rem.length → t < 8 → q * 8 + t < p.mwh.length → nth p.mwh (q * 8 + t) 0 + (p.add q e t).2 < 2 ^ 64 →
    3600000 * nth (p.add q e t).1.mwh (q * 8 + t) 0 + nth (p.add q e t).1.rem q 0 = 3600000 * nth p.mwh (q * 8 + t) 0 + nth p.rem q 0 + e ∧ nth (p.add q e t).1.rem q 0 < 3600000 ∧
    (∀ i, i ≠ q → nth (p.add q e t).1.rem i 0 = nth p.rem i 0) ∧ ∀ i, i ≠ q * 8 + t → nth (p.add q e t).1.mwh i 0 = nth p.mwh i 0

/-- What the commands of a family leave alone: the powerline and mesh, the serial interfaces, the key store and the reception of bundles change nothing of the measurement, the committed image, the self-test, the display or the power state, and each only its own of the others' state; only the line's commands move the pins of the transmitter, and only the end of an operation with fuses in progress changes one-time memory. -/
def Obligations.FamiliesKeepApart : Prop :=
  ∀ (c : Instr) (s t : State), exec c s = .next t →
    ((lineFamily c || serialFamily c || keyFamily c || bundleFamily c) = true → t.fe = s.fe ∧ t.meter = s.meter ∧ t.harm = s.harm ∧ t.eye = s.eye ∧ t.mram = s.mram ∧ t.bist = s.bist ∧ t.disp = s.disp ∧
      t.power = s.power ∧ t.clk = s.clk ∧ t.pulse = s.pulse ∧ t.prepay = s.prepay ∧ t.tamp = s.tamp ∧ t.bill.now = s.bill.now ∧ t.disc.dps = s.disc.dps ∧ t.mt = s.mt) ∧
    ((s.sec.fusing = [] ∨ c ≠ .secOperationEnded) → (lineFamily c || serialFamily c || keyFamily c || bundleFamily c) = true → t.otp = s.otp) ∧
    ((serialFamily c || keyFamily c || bundleFamily c) = true → t.pins = s.pins) ∧
    (lineFamily c = true → t.pins = { s.pins with plden := t.pins.plden, ptx := t.pins.ptx } ∧ t.sec = s.sec ∧ t.upd = s.upd ∧ t.host = s.host ∧ t.rtc.lin = s.rtc.lin) ∧
    (serialFamily c = true → t.sec = s.sec ∧ t.upd = s.upd ∧ t.plc = s.plc ∧ t.mesh = s.mesh ∧ t.rtc = s.rtc) ∧
    (keyFamily c = true → t.upd = s.upd ∧ t.plc = s.plc ∧ t.mesh = s.mesh ∧ t.host = s.host ∧ t.rtc = s.rtc) ∧
    (bundleFamily c = true → t.sec = s.sec ∧ t.rtc = s.rtc ∧ t.mesh = s.mesh)

/-- R74: a raising that follows the clear of its bit sets the bit again, whatever the clear wrote. -/
def Obligations.ClearNeverLosesAnEvent : Prop :=
  ∀ (s : Dev) (p no : Nat) (v : Word), s.mainOn = true → p < 64 → no < 32 → natBit (((s.irqClear p v).raise p no).get (Hdr.RAW p)) no = true

/-- R69: an access that is not naturally aligned, and any access to a register page that is not of 32 bits, ends in an immediate DECODE bus error; a write of that kind has no other effect. -/
def Obligations.MisalignedAccessDecodes : Prop :=
  (∀ (s : State) (m a size : Nat) (v : Word), s.mainOn = true → (a % size ≠ 0 ∨ (0x40000000 ≤ a ∧ a < 0x40040000 ∧ size ≠ 4)) → exec (.registerWrite m a size v) s = .next { s with toDev := s.toDev.busErr m a BusKind.decode true }) ∧
  (∀ (mem : List Host.Cell) (s : Dev) (m a : Nat), a % 4 ≠ 0 → s.busRead mem m a = (s.busErr m a BusKind.decode false, .decode)) ∧
  (∀ (mem : List Host.Cell) (s : Dev) (n a : Nat), bitsOf (s.dm 0x38) 14 12 = 0 → bitsOf (s.dm 0x38) 19 17 = n → n < 3 → a = (s.dm 0x39).toNat → (a % 2 ^ n ≠ 0 ∨ (n < 2 ∧ 0x40000000 ≤ a ∧ a < 0x40040000)) →
    ∃ e, Dev.sbRead mem s = (s.busErr 17 a BusKind.decode false).sbFail e)

/-- R432: a write of DBELL_SET sets its bits and leaves the others, whoever writes it; source 63 is pending exactly while a bit is set. -/
def Obligations.DoorbellIsPending : Prop :=
  (∀ (s : State) (m : Nat) (v : Word), lands s Reg.INTC_DBELL_SET → completes (.doorbellSet m v) s fun t => keepsQueue s t ∧
    (∀ n, n < 16 → natBit (t.get Fld.INTC_DBELL_BITS) n = (natBit (s.get Fld.INTC_DBELL_BITS) n || bitAt v n)) ∧ ∀ a, a ≠ Reg.INTC_DBELL → t.rd a = s.rd a) ∧
  ∀ s : Dev, s.srcPending 63 = true ↔ ∃ n, n < 16 ∧ natBit (s.get Fld.INTC_DBELL_BITS) n = true

/-- R406: the cost of a link is 4 096 000 / KBPS rounded to the nearest whole number and clipped to 1 to 65 535; a KBPS of 0 gives 65 535. -/
def Obligations.LinkCostRule : Prop :=
  linkCost 0 = 65535 ∧ ∀ k, 0 < k → 1 ≤ linkCost k ∧ linkCost k ≤ 65535 ∧
    (linkCost k ≠ 1 → linkCost k ≠ 65535 → 2 * (linkCost k * k) ≤ 2 * 4096000 + k ∧ 2 * 4096000 ≤ 2 * (linkCost k * k) + k) ∧
    (linkCost k = 1 → 2 * 4096000 ≤ 3 * k) ∧ (linkCost k = 65535 → 131069 * k ≤ 2 * 4096000)

/-- R385: a carrier gets the highest code whose threshold at the rate, plus the margin, does not exceed its SNR, in units of 0.25 dB; the codes carry 0, 1, 2, 4, 6, 8 and 10 bits; with fewer than 32 data carriers loaded the map is all zeros. -/
def Obligations.CarrierLoadingRule : Prop :=
  (∀ (snr : Int) (rate margin : Nat), rate < 4 → codeFor snr rate margin ≤ 6 ∧ ∀ c, 1 ≤ c → c ≤ 6 →
    ((c ≤ codeFor snr rate margin) ↔ ([20, 32, 58, 82, 106, 130].getD (c - 1) 0 : Int) - [14, 8, 4, 0].getD rate 0 + 4 * margin ≤ snr)) ∧
  (List.range 7).map codeBits = [0, 1, 2, 4, 6, 8, 10] ∧
  (∀ (s : Dev) (tmi sp : Nat) (snrs : List Int),
    let raw := carriers.map fun c => if isPilot c || notched (s.plc.plan.getD []) c then 0 else codeFor (snrs.getD (c - 100) (-1000)) (s.get Fld.PLCMAC_TM_CFG_RATE) (s.get Fld.PLCMAC_TM_CFG_MARGIN)
    (32 ≤ (raw.filter (0 < ·)).length → (s.buildMap tmi snrs sp).codes = raw) ∧ ((raw.filter (0 < ·)).length < 32 → ∀ c ∈ (s.buildMap tmi snrs sp).codes, c = 0)) ∧
  ∀ (s : Dev) (m : TMap) (raw : List Byte), s.mapOk m raw = true → m.codes.length ≤ 1567 → ∀ c ∈ m.codes, c ≤ 6

/-- R21: released with TEST_N low, the device stays in reset and no engine starts. -/
def Obligations.TestPinHoldsReset : Prop :=
  (∀ (s : State) (b1 b0 : Bool) (mv bad : Nat), s.power.st = .reset → s.clk.xtal = true → s.releasable mv = true →
    completes (.internalResetRelease b1 b0 false mv bad) s fun t => keepsQueue s t ∧ t.power.st = .reset ∧ t.regs = s.regs) ∧
  (∀ (s : State) (b1 b0 : Bool) (mv bad : Nat), s.power.st = .reset → s.clk.xtal = true → s.power.hold = .overtemp →
    completes (.overtempRelease b1 b0 false mv bad) s fun t => keepsQueue s t ∧ t.power.st = .reset ∧ t.regs = s.regs)

/-- R353: an accepted SET during a shift abandons the rest of it: SHIFT_LEFT reads 0 and event 6 is not raised. -/
def Obligations.SetAbandonsShift : Prop :=
  ∀ (s : State) (m sub : Nat) (v : Word), lands s Reg.RTC_CMD → keyOf v = 0x2B → bitsOf v 2 0 = 1 → s.power.st ≠ .holdup → s.power.st ≠ .shutdownTest → (dateOf (s.rd Reg.RTC_SET_LO) (s.rd Reg.RTC_SET_HI)).valid = true →
    s.on Fld.RTC_STAT_SHIFT_BUSY = true → completes (.rtcSet m v sub) s fun t => t.on Fld.RTC_STAT_SHIFT_BUSY = false ∧ t.get Fld.RTC_SHIFT_LEFT_N = 0 ∧
      natBit (t.get (Hdr.RAW Pg.RTC)) 6 = natBit (s.get (Hdr.RAW Pg.RTC)) 6

/-- R245, R246: an ID is a pod's where its top byte is 0xB3 and its low 16 bits are the CRC-16 of the six bytes above them; a search that meets one that is not is counted as a lasting CRC error of the heat, and is made once more; where the second search meets one too, the wire is in fault, its pods as they were. -/
def Obligations.BadPodIdsAreCounted : Prop :=
  (∀ id, podIdOk id = true ↔ id / 2 ^ 56 = 0xB3 ∧ id % 2 ^ 16 = crc16 (beBytes 6 (id / 2 ^ 16))) ∧
  (∀ (i : PodIn) (k : Nat), podBadAt i k = (if podIdOk i.id then i.badIds[k]? else some i.id)) ∧
  (∀ (s : Dev) (wire : Nat) (l : List PodIn), wire < 12 → l ≠ [] →
    let bad := fun (k : Nat) => ∃ i ∈ l.take 17, (podBadAt i k).isSome = true
    let r := s.enumWire wire l
    r.1.eye.pods = s.eye.pods ∧ (¬ bad 0 → r.2 = true ∧ r.1.get (Fld.EYE_H_CRC_LASTING wire) = s.get (Fld.EYE_H_CRC_LASTING wire)) ∧
    (bad 0 → ¬ bad 1 → r.2 = true ∧ r.1.get (Fld.EYE_H_CRC_LASTING wire) = satN 0xFFFF (s.get (Fld.EYE_H_CRC_LASTING wire) + 1)) ∧
    (bad 0 → bad 1 → r.2 = false ∧ r.1.get (Fld.EYE_H_CRC_LASTING wire) = satN 0xFFFF (s.get (Fld.EYE_H_CRC_LASTING wire) + 2))) ∧
  (∀ (s : State) (wire : Nat) (found : List PodIn), s.mainOn = true → wire < 12 → natBit (s.get Fld.EYE_CTRL_HEATS) wire = true → s.eyeMay = true →
    let d : Dev := { s.toDev with eye := { s.eye with txs := [], left := if s.eye.left = 0 then s.get Fld.EYE_CTRL_HEATS else s.eye.left } }
    let r := d.enumWire wire (enumSort found)
    (r.2 = true → exec (.eyeletScan wire found) s = .next { s with toDev := (r.1.scanFound wire found).wireDone wire }) ∧
    (r.2 = false → s.eye.xfer = none → completes (.eyeletScan wire found) s fun t => t.get (Fld.EYE_H_CRC_LASTING wire) = satN 0xFFFF (s.get (Fld.EYE_H_CRC_LASTING wire) + 2) ∧
      t.get (Fld.EYE_H_STAT_NPODS wire) = s.get (Fld.EYE_H_STAT_NPODS wire) ∧ t.eye.pods = s.eye.pods ∧ t.eye.waiting = s.eye.waiting ∧ natBit (t.get Fld.EYE_WIRE_FAULT) wire = true))
end

