-- ==== Sys2Proof/Laws/Store.lean ====
section
/-! SUPPORT. The laws of the sparse store that registers and memory share: what a read answers after a write, at the same address and at another, and that a write keeps the canonical form. -/

namespace Sys2Proof.Machine

variable {w : Nat} {d : Nat → BitVec w} {m : List (Nat × BitVec w)} {a b : Nat} {v : BitVec w}

theorem Store.find_erase_same : (Store.erase m a).find? (fun c => c.1 == a) = none := by
  simp [Store.erase, List.find?_eq_none]

theorem Store.find_erase_ne (h : b ≠ a) : (Store.erase m a).find? (fun c => c.1 == b) = m.find? (fun c => c.1 == b) := by
  induction m with
  | nil => rfl
  | cons c r ih =>
    simp only [Store.erase, List.filter_cons] at ih ⊢
    by_cases hc : c.1 = a
    · have : (c.1 == b) = false := by simp [hc, Ne.symm h]
      simp [hc, ih, Ne.symm h]
    · simp [hc, List.find?_cons, ih]

theorem Store.find_insert_same (h : m.find? (fun c => c.1 == a) = none) :
    (Store.insert m a v).find? (fun c => c.1 == a) = some (a, v) := by
  induction m with
  | nil => simp [Store.insert]
  | cons c r ih =>
    simp only [List.find?_cons] at h
    by_cases hc : (c.1 == a) = true
    · simp [hc] at h
    · simp only [Bool.not_eq_true] at hc
      simp only [hc] at h
      by_cases hl : a < c.1
      · simp [Store.insert, hl]
      · simp [Store.insert, hl, hc, ih h]

theorem Store.find_insert_ne (h : b ≠ a) :
    (Store.insert m a v).find? (fun c => c.1 == b) = m.find? (fun c => c.1 == b) := by
  induction m with
  | nil => simp [Store.insert, Ne.symm h]
  | cons c r ih =>
    by_cases hl : a < c.1
    · simp [Store.insert, hl, List.find?_cons, Ne.symm h]
    · simp [Store.insert, hl, List.find?_cons, ih]

/-- A read at the address written gives the value written. -/
@[simp] theorem Store.read_write_same : Store.read d (Store.write d m a v) a = v := by
  unfold Store.write
  split
  · rename_i h; simp [Store.read, Store.find_erase_same, h]
  · simp [Store.read, Store.find_insert_same Store.find_erase_same]

/-- A write leaves every other address alone. -/
theorem Store.read_write_ne (h : b ≠ a) : Store.read d (Store.write d m a v) b = Store.read d m b := by
  unfold Store.write
  split
  · simp [Store.read, Store.find_erase_ne h]
  · simp [Store.read, Store.find_insert_ne h, Store.find_erase_ne h]

/-- A read after a write. -/
theorem Store.read_write : Store.read d (Store.write d m a v) b = if b = a then v else Store.read d m b := by
  split
  · subst b; simp
  · rename_i h; exact Store.read_write_ne h

/-! ### The canonical form -/

/-- The canonical form as a proposition: addresses rise strictly and no entry is a default. -/
theorem Store.wf_iff : Store.wf d m = true ↔ m.Pairwise (fun x y => x.1 < y.1) ∧ ∀ c ∈ m, c.2 ≠ d c.1 := by
  induction m with
  | nil => simp [Store.wf]
  | cons c r ih =>
    cases r with
    | nil => simp [Store.wf]
    | cons c' r' =>
      simp only [Store.wf, Bool.and_eq_true, ih, bne_iff_ne, decide_eq_true_eq, List.pairwise_cons, List.mem_cons, forall_eq_or_imp]
      constructor
      · rintro ⟨⟨h1, h2⟩, ⟨h3, h4⟩, h5, h6⟩
        exact ⟨⟨⟨h2, fun x hx => Nat.lt_trans h2 (h3 x hx)⟩, h3, h4⟩, h1, h5, h6⟩
      · rintro ⟨⟨⟨h2, _⟩, h3, h4⟩, h1, h5, h6⟩
        exact ⟨⟨h1, h2⟩, ⟨h3, h4⟩, h5, h6⟩

/-- What a filter keeps is in canonical form. -/
theorem Store.filter_wf (p : Nat × BitVec w → Bool) (h : Store.wf d m = true) : Store.wf d (m.filter p) = true := by
  rw [Store.wf_iff] at h ⊢
  exact ⟨h.1.filter _, fun c hc => h.2 c (List.mem_filter.1 hc).1⟩

theorem Store.erase_wf (h : Store.wf d m = true) : Store.wf d (Store.erase m a) = true := Store.filter_wf _ h

theorem Store.mem_insert {x : Nat × BitVec w} : x ∈ Store.insert m a v ↔ x = (a, v) ∨ x ∈ m := by
  induction m with
  | nil => simp [Store.insert]
  | cons c r ih =>
    by_cases hl : a < c.1
    · simp [Store.insert, hl]
    · simp only [Store.insert, if_neg hl, List.mem_cons, ih]; tauto

theorem Store.insert_pairwise (h : m.Pairwise (fun x y => x.1 < y.1)) (ha : ∀ c ∈ m, c.1 ≠ a) :
    (Store.insert m a v).Pairwise (fun x y => x.1 < y.1) := by
  induction m with
  | nil => simp [Store.insert]
  | cons c r ih =>
    obtain ⟨h1, h2⟩ := List.pairwise_cons.1 h
    by_cases hl : a < c.1
    · simp only [Store.insert, if_pos hl, List.pairwise_cons, List.mem_cons]
      refine ⟨?_, h1, h2⟩
      rintro x (rfl | hx)
      · exact hl
      · exact Nat.lt_trans hl (h1 x hx)
    · simp only [Store.insert, if_neg hl, List.pairwise_cons]
      refine ⟨fun x hx => ?_, ih h2 fun c hc => ha c (List.mem_cons_of_mem _ hc)⟩
      rcases Store.mem_insert.1 hx with rfl | hx
      · exact Nat.lt_of_le_of_ne (Nat.le_of_not_lt hl) (ha c List.mem_cons_self)
      · exact h1 x hx

/-- A write keeps the canonical form. -/
theorem Store.write_wf (h : Store.wf d m = true) : Store.wf d (Store.write d m a v) = true := by
  unfold Store.write
  split
  · exact Store.erase_wf h
  · rename_i hv
    have he := Store.wf_iff.1 (Store.erase_wf (a := a) h)
    refine Store.wf_iff.2 ⟨Store.insert_pairwise he.1 fun c hc => ?_, fun c hc => ?_⟩
    · simpa [Store.erase] using (List.mem_filter.1 hc).2
    · rcases Store.mem_insert.1 hc with rfl | hc
      · exact hv
      · exact he.2 c hc

/-! ### Byte memory -/

theorem Memory.read_write (m : List Host.Cell) (a b : Nat) (v : Byte) :
    Memory.read (Memory.write m a v) b = if b = a then v else Memory.read m b := Store.read_write

theorem Memory.write_wf {m : List Host.Cell} {a : Nat} {v : Byte} (h : Memory.wf m = true) : Memory.wf (Memory.write m a v) = true :=
  Store.write_wf h

theorem Memory.writeAll_wf (l : List Byte) {m : List Host.Cell} {a : Nat} (h : Memory.wf m = true) : Memory.wf (Memory.writeAll m a l) = true := by
  induction l generalizing m a with
  | nil => exact h
  | cons b r ih => exact ih (Memory.write_wf h)

/-- Writing bytes leaves every address outside them alone. -/
theorem Memory.read_writeAll_ne (l : List Byte) (m : List Host.Cell) (a b : Nat) (h : b < a ∨ a + l.length ≤ b) :
    Memory.read (Memory.writeAll m a l) b = Memory.read m b := by
  induction l generalizing m a with
  | nil => rfl
  | cons x r ih =>
    simp only [List.length_cons] at h
    rw [Memory.writeAll, ih _ _ (by omega), Memory.read_write, if_neg (by omega)]

/-- A byte of what was written is read back. -/
theorem Memory.read_writeAll (l : List Byte) (m : List Host.Cell) (a k : Nat) (h : k < l.length) :
    Memory.read (Memory.writeAll m a l) (a + k) = l[k] := by
  induction l generalizing m a k with
  | nil => simp at h
  | cons x r ih =>
    cases k with
    | zero =>
      rw [Memory.writeAll, Memory.read_writeAll_ne _ _ _ _ (by omega), Memory.read_write]
      simp
    | succ k =>
      have := ih (Memory.write m a x) (a + 1) k (by simpa using h)
      rw [Memory.writeAll, show a + (k + 1) = a + 1 + k by omega, this]
      simp

end Sys2Proof.Machine
end

