-- ==== Sys2Proof/Laws/Regs.lean ====
section
/-! SUPPORT. Reading a register or a field after a register or a field was written. -/

namespace Sys2Proof.Machine

/-- A field lies inside its word. -/
def Field.ok (f : Field) : Bool := decide (f.lo ≤ f.hi) && decide (f.hi < 32)

/-- Two fields share no bit. -/
def Field.apart (f g : Field) : Bool := decide (f.addr ≠ g.addr) || decide (f.hi < g.lo) || decide (g.hi < f.lo)

theorem bitsOf_lt (w : Word) (hi lo : Nat) : bitsOf w hi lo < 2 ^ (hi + 1 - lo) := Nat.mod_lt _ (Nat.two_pow_pos _)

theorem putBits_toNat (w : Word) (hi lo v : Nat) (h : lo ≤ hi) (h32 : hi < 32) :
    (putBits w hi lo v).toNat = w.toNat % 2 ^ lo + 2 ^ lo * (v % 2 ^ (hi + 1 - lo) + 2 ^ (hi + 1 - lo) * (w.toNat / 2 ^ (hi + 1))) := by
  have e : (2 : Nat) ^ (hi + 1) = 2 ^ lo * 2 ^ (hi + 1 - lo) := by rw [← Nat.pow_add]; congr 1; omega
  have e32 : (2 : Nat) ^ 32 = 2 ^ (hi + 1) * 2 ^ (31 - hi) := by rw [← Nat.pow_add]; congr 1; omega
  have h1 : w.toNat % 2 ^ lo < 2 ^ lo := Nat.mod_lt _ (Nat.two_pow_pos _)
  have h2 : v % 2 ^ (hi + 1 - lo) < 2 ^ (hi + 1 - lo) := Nat.mod_lt _ (Nat.two_pow_pos _)
  have h3 : w.toNat / 2 ^ (hi + 1) < 2 ^ (31 - hi) := by
    rw [Nat.div_lt_iff_lt_mul (Nat.two_pow_pos _), Nat.mul_comm, ← e32]; exact w.isLt
  unfold putBits
  rw [BitVec.toNat_ofNat, Nat.mod_eq_of_lt]
  · rw [e]; ring
  · calc _ = w.toNat % 2 ^ lo + 2 ^ lo * (v % 2 ^ (hi + 1 - lo) + 2 ^ (hi + 1 - lo) * (w.toNat / 2 ^ (hi + 1))) := by rw [e]; ring
      _ < 2 ^ lo * (1 + (v % 2 ^ (hi + 1 - lo) + 2 ^ (hi + 1 - lo) * (w.toNat / 2 ^ (hi + 1)))) := by
        rw [Nat.mul_add _ 1]; omega
      _ ≤ 2 ^ lo * (2 ^ (hi + 1 - lo) * (1 + w.toNat / 2 ^ (hi + 1))) := by
        apply Nat.mul_le_mul_left; rw [Nat.mul_add _ 1]; omega
      _ ≤ 2 ^ lo * (2 ^ (hi + 1 - lo) * 2 ^ (31 - hi)) := by
        apply Nat.mul_le_mul_left; apply Nat.mul_le_mul_left; omega
      _ = 2 ^ 32 := by rw [e32, e]; ring

/-- The bits put are the bits read. -/
theorem bitsOf_putBits_same (w : Word) (hi lo v : Nat) (h : lo ≤ hi) (h32 : hi < 32) :
    bitsOf (putBits w hi lo v) hi lo = v % 2 ^ (hi + 1 - lo) := by
  have h1 : w.toNat % 2 ^ lo < 2 ^ lo := Nat.mod_lt _ (Nat.two_pow_pos _)
  unfold bitsOf
  rw [putBits_toNat w hi lo v h h32, Nat.add_mul_div_left _ _ (Nat.two_pow_pos _), Nat.div_eq_of_lt h1, Nat.zero_add,
    Nat.add_mul_mod_self_left, Nat.mod_mod]

/-- Bits outside those put are kept. -/
theorem bitsOf_putBits_apart (w : Word) (hi lo v hi' lo' : Nat) (h : lo ≤ hi) (h32 : hi < 32) (hx : lo' ≤ hi')
    (ha : hi' < lo ∨ hi < lo') : bitsOf (putBits w hi lo v) hi' lo' = bitsOf w hi' lo' := by
  have h1 : w.toNat % 2 ^ lo < 2 ^ lo := Nat.mod_lt _ (Nat.two_pow_pos _)
  have h2 : v % 2 ^ (hi + 1 - lo) < 2 ^ (hi + 1 - lo) := Nat.mod_lt _ (Nat.two_pow_pos _)
  have key : ∀ n k : Nat, hi' + 1 ≤ k → n / 2 ^ lo' % 2 ^ (hi' + 1 - lo') = n % 2 ^ k / 2 ^ lo' % 2 ^ (hi' + 1 - lo') := by
    intro n k hk
    have hk1 : (2 : Nat) ^ k = 2 ^ lo' * 2 ^ (k - lo') := by rw [← Nat.pow_add]; congr 1; omega
    rw [hk1, Nat.mod_mul_right_div_self, Nat.mod_mod_of_dvd]
    exact Nat.pow_dvd_pow _ (by omega)
  unfold bitsOf
  rcases ha with ha | ha
  · rw [key _ lo ha, key w.toNat lo ha, putBits_toNat w hi lo v h h32, Nat.add_mul_mod_self_left, Nat.mod_mod]
  · have e : (2 : Nat) ^ lo' = 2 ^ lo * 2 ^ (hi + 1 - lo) * 2 ^ (lo' - (hi + 1)) := by rw [← Nat.pow_add, ← Nat.pow_add]; congr 1; omega
    have e1 : (2 : Nat) ^ (hi + 1) = 2 ^ lo * 2 ^ (hi + 1 - lo) := by rw [← Nat.pow_add]; congr 1; omega
    rw [putBits_toNat w hi lo v h h32, e, ← Nat.div_div_eq_div_mul, ← Nat.div_div_eq_div_mul, Nat.add_mul_div_left _ _ (Nat.two_pow_pos _),
      Nat.div_eq_of_lt h1, Nat.zero_add, Nat.add_mul_div_left _ _ (Nat.two_pow_pos _), Nat.div_eq_of_lt h2, Nat.zero_add, e1,
      ← Nat.div_div_eq_div_mul, ← Nat.div_div_eq_div_mul, ← Nat.div_div_eq_div_mul]

/-! ### The register file -/

theorem Regs.rd_wr (m : Regs) (a b : Nat) (v : Word) : Regs.rd (Regs.wr m a v) b = if b = a then v else Regs.rd m b := Store.read_write
@[simp] theorem Regs.rd_wr_same (m : Regs) (a : Nat) (v : Word) : Regs.rd (Regs.wr m a v) a = v := Store.read_write_same
theorem Regs.rd_wr_ne {m : Regs} {a b : Nat} {v : Word} (h : b ≠ a) : Regs.rd (Regs.wr m a v) b = Regs.rd m b := Store.read_write_ne h
theorem Regs.rd_set_ne {m : Regs} {f : Field} {v a : Nat} (h : a ≠ f.addr) : Regs.rd (Regs.set m f v) a = Regs.rd m a := Store.read_write_ne h

theorem Regs.get_set_same (m : Regs) (f : Field) (v : Nat) (h : f.ok = true) : Regs.get (Regs.set m f v) f = v % 2 ^ (f.hi + 1 - f.lo) := by
  simp only [Field.ok, Bool.and_eq_true, decide_eq_true_eq] at h
  simp only [Regs.get, Regs.set, Regs.rd_wr_same]
  exact bitsOf_putBits_same _ _ _ _ h.1 h.2

theorem Regs.get_set_apart (m : Regs) (f g : Field) (v : Nat) (h : g.ok = true) (hf : f.ok = true) (ha : f.apart g = true) :
    Regs.get (Regs.set m g v) f = Regs.get m f := by
  simp only [Field.ok, Field.apart, Bool.and_eq_true, Bool.or_eq_true, decide_eq_true_eq] at h hf ha
  simp only [Regs.get, Regs.set, Regs.rd_wr]
  split
  · rename_i e
    rw [bitsOf_putBits_apart _ _ _ _ _ _ h.1 h.2 hf.1 (by rcases ha with (ha | ha) | ha <;> [exact absurd e ha; exact .inl ha; exact .inr ha]), e]
  · rfl

/-! ### The device's registers -/

@[simp] theorem Dev.rd_wr_same (s : Dev) (a : Nat) (v : Word) : (s.wr a v).rd a = v := Regs.rd_wr_same _ _ _
theorem Dev.rd_wr_ne {s : Dev} {a b : Nat} {v : Word} (h : b ≠ a) : (s.wr a v).rd b = s.rd b := Regs.rd_wr_ne h
theorem Dev.rd_set_ne {s : Dev} {f : Field} {v a : Nat} (h : a ≠ f.addr) : (s.set f v).rd a = s.rd a := Regs.rd_set_ne h
theorem Dev.get_set_same (s : Dev) (f : Field) (v : Nat) (h : f.ok = true) : (s.set f v).get f = v % 2 ^ (f.hi + 1 - f.lo) := Regs.get_set_same _ _ _ h
/-- A value that fits the field is read back. -/
theorem Dev.get_set_lt (s : Dev) (f : Field) (v : Nat) (h : f.ok = true) (hv : v < 2 ^ (f.hi + 1 - f.lo)) : (s.set f v).get f = v := by
  rw [Dev.get_set_same _ _ _ h, Nat.mod_eq_of_lt hv]
theorem Dev.get_set_apart (s : Dev) (f g : Field) (v : Nat) (h : g.ok = true) (hf : f.ok = true) (ha : f.apart g = true) :
    (s.set g v).get f = s.get f := Regs.get_set_apart _ _ _ _ h hf ha
theorem Dev.get_wr_ne {s : Dev} {f : Field} {a : Nat} {v : Word} (h : f.addr ≠ a) : (s.wr a v).get f = s.get f := by
  simp only [Dev.get, Regs.get, Dev.wr, Regs.rd_wr_ne h]
theorem Dev.get_wr_same (s : Dev) (f : Field) (v : Word) : (s.wr f.addr v).get f = bitsOf v f.hi f.lo := by
  simp only [Dev.get, Regs.get, Dev.wr, Regs.rd_wr_same]

/-- A field is a function of its register's word. -/
theorem Dev.get_congr {s t : Dev} {f : Field} (h : s.rd f.addr = t.rd f.addr) : s.get f = t.get f := by
  simp only [Dev.rd] at h; simp only [Dev.get, Regs.get, h]

theorem Dev.get_lt (s : Dev) (f : Field) : s.get f < 2 ^ (f.hi + 1 - f.lo) := bitsOf_lt _ _ _

/-- A saturating count changes no other register. -/
theorem Dev.rd_bump_ne {s : Dev} {f : Field} {a : Nat} (h : a ≠ f.addr) : (s.bump f).rd a = s.rd a := by
  unfold Dev.bump; split <;> simp [Dev.rd_set_ne h]

/-- A wrapping count changes no other register. -/
theorem Dev.rd_count_ne {s : Dev} {f : Field} {a : Nat} (h : a ≠ f.addr) : (s.count f).rd a = s.rd a := Dev.rd_set_ne h

/-- A saturating count: one more, or the greatest value of the field. -/
theorem Dev.get_bump (s : Dev) (f : Field) (h : f.ok = true) :
    (s.bump f).get f = if s.get f + 1 < 2 ^ (f.hi + 1 - f.lo) then s.get f + 1 else s.get f := by
  unfold Dev.bump
  split
  · rename_i hl; rw [Dev.get_set_same _ _ _ h, Nat.mod_eq_of_lt hl]
  · rfl

/-- A wrapping count. -/
theorem Dev.get_count (s : Dev) (f : Field) (h : f.ok = true) : (s.count f).get f = (s.get f + 1) % 2 ^ (f.hi + 1 - f.lo) := by
  unfold Dev.count; rw [Dev.get_set_same _ _ _ h, Nat.mod_mod]

/-! ### One-bit fields -/

theorem Dev.on_congr {s t : Dev} {f : Field} (h : s.rd f.addr = t.rd f.addr) : s.on f = t.on f := by
  simp only [Dev.on, Dev.get_congr h]

theorem Dev.get_setB_same (s : Dev) (f : Field) (b : Bool) (h : f.ok = true) : (s.setB f b).get f = b.toNat := by
  have hl : f.lo ≤ f.hi := by simp only [Field.ok, Bool.and_eq_true, decide_eq_true_eq] at h; exact h.1
  rw [Dev.setB, Dev.get_set_same _ _ _ h, Nat.mod_eq_of_lt]
  calc b.toNat ≤ 1 := by cases b <;> decide
    _ < 2 ^ 1 := by decide
    _ ≤ 2 ^ (f.hi + 1 - f.lo) := Nat.pow_le_pow_right (by decide) (by omega)

theorem Dev.on_setB_same (s : Dev) (f : Field) (b : Bool) (h : f.ok = true) : (s.setB f b).on f = b := by
  rw [Dev.on, Dev.get_setB_same _ _ _ h]; cases b <;> rfl

/-- A one-bit field set to 1 is on. -/
theorem Dev.on_set_one (s : Dev) (f : Field) (h : f.ok = true) : (s.set f 1).on f = true := by
  have hl : f.lo ≤ f.hi := by simp only [Field.ok, Bool.and_eq_true, decide_eq_true_eq] at h; exact h.1
  rw [Dev.on, Dev.get_set_lt _ _ _ h (Nat.one_lt_two_pow (by omega))]; rfl

theorem Dev.on_set_zero (s : Dev) (f : Field) (h : f.ok = true) : (s.set f 0).on f = false := by
  rw [Dev.on, Dev.get_set_lt _ _ _ h (Nat.two_pow_pos _)]; rfl

theorem Dev.on_set_apart (s : Dev) (f g : Field) (v : Nat) (h : g.ok = true) (hf : f.ok = true) (ha : f.apart g = true) :
    (s.set g v).on f = s.on f := by simp only [Dev.on, Dev.get_set_apart _ _ _ _ h hf ha]

theorem Dev.on_setB_apart (s : Dev) (f g : Field) (b : Bool) (h : g.ok = true) (hf : f.ok = true) (ha : f.apart g = true) :
    (s.setB g b).on f = s.on f := Dev.on_set_apart _ _ _ _ h hf ha

theorem Dev.get_setB_apart (s : Dev) (f g : Field) (b : Bool) (h : g.ok = true) (hf : f.ok = true) (ha : f.apart g = true) :
    (s.setB g b).get f = s.get f := Dev.get_set_apart _ _ _ _ h hf ha

theorem Dev.get_bump_apart (s : Dev) (f g : Field) (h : g.ok = true) (hf : f.ok = true) (ha : f.apart g = true) : (s.bump g).get f = s.get f := by
  unfold Dev.bump; split
  · exact Dev.get_set_apart _ _ _ _ h hf ha
  · rfl

theorem Dev.get_count_apart (s : Dev) (f g : Field) (h : g.ok = true) (hf : f.ok = true) (ha : f.apart g = true) : (s.count g).get f = s.get f :=
  Dev.get_set_apart _ _ _ _ h hf ha

theorem Dev.on_bump_apart (s : Dev) (f g : Field) (h : g.ok = true) (hf : f.ok = true) (ha : f.apart g = true) : (s.bump g).on f = s.on f := by
  simp only [Dev.on, Dev.get_bump_apart _ _ _ h hf ha]

theorem Dev.rd_setB_ne {s : Dev} {f : Field} {b : Bool} {a : Nat} (h : a ≠ f.addr) : (s.setB f b).rd a = s.rd a := Dev.rd_set_ne h
theorem Dev.rd_setI_ne {s : Dev} {f : Field} {v : Int} {a : Nat} (h : a ≠ f.addr) : (s.setI f v).rd a = s.rd a := Dev.rd_set_ne h
theorem Dev.rd_cfgErr_ne {s : Dev} {p a : Nat} (h : a ≠ (Hdr.CFGERR p).addr) : (s.cfgErr p).rd a = s.rd a := Dev.rd_set_ne h
theorem Dev.rd_lockErr_ne {s : Dev} {p a : Nat} (h : a ≠ (Hdr.LOCKERR p).addr) : (s.lockErr p).rd a = s.rd a := Dev.rd_set_ne h

/-- A refused write shows in its page's PG_STAT. -/
theorem Dev.on_cfgErr (s : Dev) (p : Nat) : (s.cfgErr p).on (Hdr.CFGERR p) = true := Dev.on_set_one _ _ rfl
theorem Dev.on_lockErr (s : Dev) (p : Nat) : (s.lockErr p).on (Hdr.LOCKERR p) = true := Dev.on_set_one _ _ rfl

theorem Dev.get_set64_ne {s : Dev} {f : Field} {lo hi v : Nat} (h : f.addr ≠ lo) (h' : f.addr ≠ hi) : (s.set64 lo hi v).get f = s.get f := by
  simp only [Dev.set64, Dev.get_wr_ne h', Dev.get_wr_ne h]

theorem Dev.get_setI_apart (s : Dev) (f g : Field) (v : Int) (h : g.ok = true) (hf : f.ok = true) (ha : f.apart g = true) :
    (s.setI g v).get f = s.get f := Dev.get_set_apart _ _ _ _ h hf ha

/-- A pair of registers changes no third one. -/
theorem Dev.rd_set64_ne {s : Dev} {lo hi v a : Nat} (h : a ≠ lo) (h' : a ≠ hi) : (s.set64 lo hi v).rd a = s.rd a := by
  simp only [Dev.set64, Dev.rd_wr_ne h', Dev.rd_wr_ne h]

/-- A 64-bit value is read back from its pair. -/
theorem Dev.get64_set64 (s : Dev) (lo hi v : Nat) (h : lo ≠ hi) : (s.set64 lo hi v).get64 lo hi = v % 2 ^ 64 := by
  simp only [Dev.get64, Dev.set64, Dev.rd_wr_same, Dev.rd_wr_ne h, BitVec.toNat_ofNat]
  omega

/-- A register write keeps the register file's canonical form. -/
theorem Dev.wr_wf {s : Dev} {a : Nat} {v : Word} (h : Store.wf regReset s.regs = true) : Store.wf regReset (s.wr a v).regs = true := Store.write_wf h
theorem Dev.set_wf {s : Dev} {f : Field} {v : Nat} (h : Store.wf regReset s.regs = true) : Store.wf regReset (s.set f v).regs = true := Store.write_wf h

end Sys2Proof.Machine
end

