-- ==== Sys2Proof/Laws/Clock.lean ====
section
/-! SUPPORT. What bringing the clock up to a linear time does (R343, R352, R354): the time itself, and what it leaves alone. -/

namespace Sys2Proof.Machine

/-- The clock stands at the time it was brought to; beside the RTC only SHIFT_LEFT may change. -/
theorem Dev.linRun_spec (s : Dev) (lin : Nat) :
    (s.linRun lin).rtc.lin = lin ∧ s.linRun lin = { s with rtc := (s.linRun lin).rtc, regs := (s.linRun lin).regs } ∧
      ∀ a, a ≠ Reg.RTC_SHIFT_LEFT → (s.linRun lin).rd a = s.rd a := by
  unfold Dev.linRun
  split
  · exact ⟨rfl, rfl, fun _ _ => rfl⟩
  · dsimp only
    split
    · exact ⟨rfl, rfl, fun a h => Dev.rd_set_ne (s := s) (f := Fld.RTC_SHIFT_LEFT_N) h⟩
    · exact ⟨rfl, rfl, fun _ _ => rfl⟩

@[simp] theorem Dev.linRun_lin (s : Dev) (lin : Nat) : (s.linRun lin).rtc.lin = lin := (s.linRun_spec lin).1
@[simp] theorem Dev.linSub_lin (s : Dev) (sub : Nat) : (s.linSub sub).rtc.lin = s.secs * 32768 + sub % 32768 := s.linRun_lin _
@[simp] theorem Dev.linSync_lin (s : Dev) : s.linSync.rtc.lin = s.linNow := s.linRun_lin _

/-- The clock stays in its second: it never runs past the next tick, nor back. -/
theorem Dev.linNow_secs (s : Dev) : s.rtc.lin ≤ s.linNow ∧ s.linNow / 32768 = s.secs := by
  unfold Dev.linNow Dev.linAt Dev.secs
  dsimp only
  omega

end Sys2Proof.Machine
end

