-- ==== Sys2Proof/Laws/State.lean ====
section
/-! SUPPORT. One lemma per field per update: a register update touches no field but `regs`, an update of one block touches no other block. -/

namespace Sys2Proof.Machine

/-! ### `Dev.wr` -/
@[simp] theorem Dev.wr_mt (s : Dev) (a : Nat) (v : Word) : (s.wr a v).mt = s.mt := (rfl)
@[simp] theorem Dev.wr_free (s : Dev) (a : Nat) (v : Word) : (s.wr a v).free = s.free := (rfl)
@[simp] theorem Dev.wr_power (s : Dev) (a : Nat) (v : Word) : (s.wr a v).power = s.power := (rfl)
@[simp] theorem Dev.wr_clk (s : Dev) (a : Nat) (v : Word) : (s.wr a v).clk = s.clk := (rfl)
@[simp] theorem Dev.wr_pins (s : Dev) (a : Nat) (v : Word) : (s.wr a v).pins = s.pins := (rfl)
@[simp] theorem Dev.wr_bus (s : Dev) (a : Nat) (v : Word) : (s.wr a v).bus = s.bus := (rfl)
@[simp] theorem Dev.wr_cap (s : Dev) (a : Nat) (v : Word) : (s.wr a v).cap = s.cap := (rfl)
@[simp] theorem Dev.wr_fe (s : Dev) (a : Nat) (v : Word) : (s.wr a v).fe = s.fe := (rfl)
@[simp] theorem Dev.wr_temps (s : Dev) (a : Nat) (v : Word) : (s.wr a v).temps = s.temps := (rfl)
@[simp] theorem Dev.wr_meter (s : Dev) (a : Nat) (v : Word) : (s.wr a v).meter = s.meter := (rfl)
@[simp] theorem Dev.wr_pulse (s : Dev) (a : Nat) (v : Word) : (s.wr a v).pulse = s.pulse := (rfl)
@[simp] theorem Dev.wr_pulseCal (s : Dev) (a : Nat) (v : Word) : (s.wr a v).pulseCal = s.pulseCal := (rfl)
@[simp] theorem Dev.wr_harm (s : Dev) (a : Nat) (v : Word) : (s.wr a v).harm = s.harm := (rfl)
@[simp] theorem Dev.wr_eye (s : Dev) (a : Nat) (v : Word) : (s.wr a v).eye = s.eye := (rfl)
@[simp] theorem Dev.wr_bill (s : Dev) (a : Nat) (v : Word) : (s.wr a v).bill = s.bill := (rfl)
@[simp] theorem Dev.wr_mram (s : Dev) (a : Nat) (v : Word) : (s.wr a v).mram = s.mram := (rfl)
@[simp] theorem Dev.wr_prepay (s : Dev) (a : Nat) (v : Word) : (s.wr a v).prepay = s.prepay := (rfl)
@[simp] theorem Dev.wr_disc (s : Dev) (a : Nat) (v : Word) : (s.wr a v).disc = s.disc := (rfl)
@[simp] theorem Dev.wr_disp (s : Dev) (a : Nat) (v : Word) : (s.wr a v).disp = s.disp := (rfl)
@[simp] theorem Dev.wr_tamp (s : Dev) (a : Nat) (v : Word) : (s.wr a v).tamp = s.tamp := (rfl)
@[simp] theorem Dev.wr_sec (s : Dev) (a : Nat) (v : Word) : (s.wr a v).sec = s.sec := (rfl)
@[simp] theorem Dev.wr_otp (s : Dev) (a : Nat) (v : Word) : (s.wr a v).otp = s.otp := (rfl)
@[simp] theorem Dev.wr_rtc (s : Dev) (a : Nat) (v : Word) : (s.wr a v).rtc = s.rtc := (rfl)
@[simp] theorem Dev.wr_plc (s : Dev) (a : Nat) (v : Word) : (s.wr a v).plc = s.plc := (rfl)
@[simp] theorem Dev.wr_mesh (s : Dev) (a : Nat) (v : Word) : (s.wr a v).mesh = s.mesh := (rfl)
@[simp] theorem Dev.wr_upd (s : Dev) (a : Nat) (v : Word) : (s.wr a v).upd = s.upd := (rfl)
@[simp] theorem Dev.wr_bist (s : Dev) (a : Nat) (v : Word) : (s.wr a v).bist = s.bist := (rfl)
@[simp] theorem Dev.wr_host (s : Dev) (a : Nat) (v : Word) : (s.wr a v).host = s.host := (rfl)

/-! ### `Dev.set` -/
@[simp] theorem Dev.set_mt (s : Dev) (f : Field) (v : Nat) : (s.set f v).mt = s.mt := (rfl)
@[simp] theorem Dev.set_free (s : Dev) (f : Field) (v : Nat) : (s.set f v).free = s.free := (rfl)
@[simp] theorem Dev.set_power (s : Dev) (f : Field) (v : Nat) : (s.set f v).power = s.power := (rfl)
@[simp] theorem Dev.set_clk (s : Dev) (f : Field) (v : Nat) : (s.set f v).clk = s.clk := (rfl)
@[simp] theorem Dev.set_pins (s : Dev) (f : Field) (v : Nat) : (s.set f v).pins = s.pins := (rfl)
@[simp] theorem Dev.set_bus (s : Dev) (f : Field) (v : Nat) : (s.set f v).bus = s.bus := (rfl)
@[simp] theorem Dev.set_cap (s : Dev) (f : Field) (v : Nat) : (s.set f v).cap = s.cap := (rfl)
@[simp] theorem Dev.set_fe (s : Dev) (f : Field) (v : Nat) : (s.set f v).fe = s.fe := (rfl)
@[simp] theorem Dev.set_temps (s : Dev) (f : Field) (v : Nat) : (s.set f v).temps = s.temps := (rfl)
@[simp] theorem Dev.set_meter (s : Dev) (f : Field) (v : Nat) : (s.set f v).meter = s.meter := (rfl)
@[simp] theorem Dev.set_pulse (s : Dev) (f : Field) (v : Nat) : (s.set f v).pulse = s.pulse := (rfl)
@[simp] theorem Dev.set_pulseCal (s : Dev) (f : Field) (v : Nat) : (s.set f v).pulseCal = s.pulseCal := (rfl)
@[simp] theorem Dev.set_harm (s : Dev) (f : Field) (v : Nat) : (s.set f v).harm = s.harm := (rfl)
@[simp] theorem Dev.set_eye (s : Dev) (f : Field) (v : Nat) : (s.set f v).eye = s.eye := (rfl)
@[simp] theorem Dev.set_bill (s : Dev) (f : Field) (v : Nat) : (s.set f v).bill = s.bill := (rfl)
@[simp] theorem Dev.set_mram (s : Dev) (f : Field) (v : Nat) : (s.set f v).mram = s.mram := (rfl)
@[simp] theorem Dev.set_prepay (s : Dev) (f : Field) (v : Nat) : (s.set f v).prepay = s.prepay := (rfl)
@[simp] theorem Dev.set_disc (s : Dev) (f : Field) (v : Nat) : (s.set f v).disc = s.disc := (rfl)
@[simp] theorem Dev.set_disp (s : Dev) (f : Field) (v : Nat) : (s.set f v).disp = s.disp := (rfl)
@[simp] theorem Dev.set_tamp (s : Dev) (f : Field) (v : Nat) : (s.set f v).tamp = s.tamp := (rfl)
@[simp] theorem Dev.set_sec (s : Dev) (f : Field) (v : Nat) : (s.set f v).sec = s.sec := (rfl)
@[simp] theorem Dev.set_otp (s : Dev) (f : Field) (v : Nat) : (s.set f v).otp = s.otp := (rfl)
@[simp] theorem Dev.set_rtc (s : Dev) (f : Field) (v : Nat) : (s.set f v).rtc = s.rtc := (rfl)
@[simp] theorem Dev.set_plc (s : Dev) (f : Field) (v : Nat) : (s.set f v).plc = s.plc := (rfl)
@[simp] theorem Dev.set_mesh (s : Dev) (f : Field) (v : Nat) : (s.set f v).mesh = s.mesh := (rfl)
@[simp] theorem Dev.set_upd (s : Dev) (f : Field) (v : Nat) : (s.set f v).upd = s.upd := (rfl)
@[simp] theorem Dev.set_bist (s : Dev) (f : Field) (v : Nat) : (s.set f v).bist = s.bist := (rfl)
@[simp] theorem Dev.set_host (s : Dev) (f : Field) (v : Nat) : (s.set f v).host = s.host := (rfl)

/-! ### `Dev.setI` -/
@[simp] theorem Dev.setI_mt (s : Dev) (f : Field) (v : Int) : (s.setI f v).mt = s.mt := (rfl)
@[simp] theorem Dev.setI_free (s : Dev) (f : Field) (v : Int) : (s.setI f v).free = s.free := (rfl)
@[simp] theorem Dev.setI_power (s : Dev) (f : Field) (v : Int) : (s.setI f v).power = s.power := (rfl)
@[simp] theorem Dev.setI_clk (s : Dev) (f : Field) (v : Int) : (s.setI f v).clk = s.clk := (rfl)
@[simp] theorem Dev.setI_pins (s : Dev) (f : Field) (v : Int) : (s.setI f v).pins = s.pins := (rfl)
@[simp] theorem Dev.setI_bus (s : Dev) (f : Field) (v : Int) : (s.setI f v).bus = s.bus := (rfl)
@[simp] theorem Dev.setI_cap (s : Dev) (f : Field) (v : Int) : (s.setI f v).cap = s.cap := (rfl)
@[simp] theorem Dev.setI_fe (s : Dev) (f : Field) (v : Int) : (s.setI f v).fe = s.fe := (rfl)
@[simp] theorem Dev.setI_temps (s : Dev) (f : Field) (v : Int) : (s.setI f v).temps = s.temps := (rfl)
@[simp] theorem Dev.setI_meter (s : Dev) (f : Field) (v : Int) : (s.setI f v).meter = s.meter := (rfl)
@[simp] theorem Dev.setI_pulse (s : Dev) (f : Field) (v : Int) : (s.setI f v).pulse = s.pulse := (rfl)
@[simp] theorem Dev.setI_pulseCal (s : Dev) (f : Field) (v : Int) : (s.setI f v).pulseCal = s.pulseCal := (rfl)
@[simp] theorem Dev.setI_harm (s : Dev) (f : Field) (v : Int) : (s.setI f v).harm = s.harm := (rfl)
@[simp] theorem Dev.setI_eye (s : Dev) (f : Field) (v : Int) : (s.setI f v).eye = s.eye := (rfl)
@[simp] theorem Dev.setI_bill (s : Dev) (f : Field) (v : Int) : (s.setI f v).bill = s.bill := (rfl)
@[simp] theorem Dev.setI_mram (s : Dev) (f : Field) (v : Int) : (s.setI f v).mram = s.mram := (rfl)
@[simp] theorem Dev.setI_prepay (s : Dev) (f : Field) (v : Int) : (s.setI f v).prepay = s.prepay := (rfl)
@[simp] theorem Dev.setI_disc (s : Dev) (f : Field) (v : Int) : (s.setI f v).disc = s.disc := (rfl)
@[simp] theorem Dev.setI_disp (s : Dev) (f : Field) (v : Int) : (s.setI f v).disp = s.disp := (rfl)
@[simp] theorem Dev.setI_tamp (s : Dev) (f : Field) (v : Int) : (s.setI f v).tamp = s.tamp := (rfl)
@[simp] theorem Dev.setI_sec (s : Dev) (f : Field) (v : Int) : (s.setI f v).sec = s.sec := (rfl)
@[simp] theorem Dev.setI_otp (s : Dev) (f : Field) (v : Int) : (s.setI f v).otp = s.otp := (rfl)
@[simp] theorem Dev.setI_rtc (s : Dev) (f : Field) (v : Int) : (s.setI f v).rtc = s.rtc := (rfl)
@[simp] theorem Dev.setI_plc (s : Dev) (f : Field) (v : Int) : (s.setI f v).plc = s.plc := (rfl)
@[simp] theorem Dev.setI_mesh (s : Dev) (f : Field) (v : Int) : (s.setI f v).mesh = s.mesh := (rfl)
@[simp] theorem Dev.setI_upd (s : Dev) (f : Field) (v : Int) : (s.setI f v).upd = s.upd := (rfl)
@[simp] theorem Dev.setI_bist (s : Dev) (f : Field) (v : Int) : (s.setI f v).bist = s.bist := (rfl)
@[simp] theorem Dev.setI_host (s : Dev) (f : Field) (v : Int) : (s.setI f v).host = s.host := (rfl)

/-! ### `Dev.setB` -/
@[simp] theorem Dev.setB_mt (s : Dev) (f : Field) (v : Bool) : (s.setB f v).mt = s.mt := (rfl)
@[simp] theorem Dev.setB_free (s : Dev) (f : Field) (v : Bool) : (s.setB f v).free = s.free := (rfl)
@[simp] theorem Dev.setB_power (s : Dev) (f : Field) (v : Bool) : (s.setB f v).power = s.power := (rfl)
@[simp] theorem Dev.setB_clk (s : Dev) (f : Field) (v : Bool) : (s.setB f v).clk = s.clk := (rfl)
@[simp] theorem Dev.setB_pins (s : Dev) (f : Field) (v : Bool) : (s.setB f v).pins = s.pins := (rfl)
@[simp] theorem Dev.setB_bus (s : Dev) (f : Field) (v : Bool) : (s.setB f v).bus = s.bus := (rfl)
@[simp] theorem Dev.setB_cap (s : Dev) (f : Field) (v : Bool) : (s.setB f v).cap = s.cap := (rfl)
@[simp] theorem Dev.setB_fe (s : Dev) (f : Field) (v : Bool) : (s.setB f v).fe = s.fe := (rfl)
@[simp] theorem Dev.setB_temps (s : Dev) (f : Field) (v : Bool) : (s.setB f v).temps = s.temps := (rfl)
@[simp] theorem Dev.setB_meter (s : Dev) (f : Field) (v : Bool) : (s.setB f v).meter = s.meter := (rfl)
@[simp] theorem Dev.setB_pulse (s : Dev) (f : Field) (v : Bool) : (s.setB f v).pulse = s.pulse := (rfl)
@[simp] theorem Dev.setB_pulseCal (s : Dev) (f : Field) (v : Bool) : (s.setB f v).pulseCal = s.pulseCal := (rfl)
@[simp] theorem Dev.setB_harm (s : Dev) (f : Field) (v : Bool) : (s.setB f v).harm = s.harm := (rfl)
@[simp] theorem Dev.setB_eye (s : Dev) (f : Field) (v : Bool) : (s.setB f v).eye = s.eye := (rfl)
@[simp] theorem Dev.setB_bill (s : Dev) (f : Field) (v : Bool) : (s.setB f v).bill = s.bill := (rfl)
@[simp] theorem Dev.setB_mram (s : Dev) (f : Field) (v : Bool) : (s.setB f v).mram = s.mram := (rfl)
@[simp] theorem Dev.setB_prepay (s : Dev) (f : Field) (v : Bool) : (s.setB f v).prepay = s.prepay := (rfl)
@[simp] theorem Dev.setB_disc (s : Dev) (f : Field) (v : Bool) : (s.setB f v).disc = s.disc := (rfl)
@[simp] theorem Dev.setB_disp (s : Dev) (f : Field) (v : Bool) : (s.setB f v).disp = s.disp := (rfl)
@[simp] theorem Dev.setB_tamp (s : Dev) (f : Field) (v : Bool) : (s.setB f v).tamp = s.tamp := (rfl)
@[simp] theorem Dev.setB_sec (s : Dev) (f : Field) (v : Bool) : (s.setB f v).sec = s.sec := (rfl)
@[simp] theorem Dev.setB_otp (s : Dev) (f : Field) (v : Bool) : (s.setB f v).otp = s.otp := (rfl)
@[simp] theorem Dev.setB_rtc (s : Dev) (f : Field) (v : Bool) : (s.setB f v).rtc = s.rtc := (rfl)
@[simp] theorem Dev.setB_plc (s : Dev) (f : Field) (v : Bool) : (s.setB f v).plc = s.plc := (rfl)
@[simp] theorem Dev.setB_mesh (s : Dev) (f : Field) (v : Bool) : (s.setB f v).mesh = s.mesh := (rfl)
@[simp] theorem Dev.setB_upd (s : Dev) (f : Field) (v : Bool) : (s.setB f v).upd = s.upd := (rfl)
@[simp] theorem Dev.setB_bist (s : Dev) (f : Field) (v : Bool) : (s.setB f v).bist = s.bist := (rfl)
@[simp] theorem Dev.setB_host (s : Dev) (f : Field) (v : Bool) : (s.setB f v).host = s.host := (rfl)

/-! ### `Dev.bump` -/
@[simp] theorem Dev.bump_mt (s : Dev) (f : Field) : (s.bump f).mt = s.mt := by unfold Dev.bump; split <;> rfl
@[simp] theorem Dev.bump_free (s : Dev) (f : Field) : (s.bump f).free = s.free := by unfold Dev.bump; split <;> rfl
@[simp] theorem Dev.bump_power (s : Dev) (f : Field) : (s.bump f).power = s.power := by unfold Dev.bump; split <;> rfl
@[simp] theorem Dev.bump_clk (s : Dev) (f : Field) : (s.bump f).clk = s.clk := by unfold Dev.bump; split <;> rfl
@[simp] theorem Dev.bump_pins (s : Dev) (f : Field) : (s.bump f).pins = s.pins := by unfold Dev.bump; split <;> rfl
@[simp] theorem Dev.bump_bus (s : Dev) (f : Field) : (s.bump f).bus = s.bus := by unfold Dev.bump; split <;> rfl
@[simp] theorem Dev.bump_cap (s : Dev) (f : Field) : (s.bump f).cap = s.cap := by unfold Dev.bump; split <;> rfl
@[simp] theorem Dev.bump_fe (s : Dev) (f : Field) : (s.bump f).fe = s.fe := by unfold Dev.bump; split <;> rfl
@[simp] theorem Dev.bump_temps (s : Dev) (f : Field) : (s.bump f).temps = s.temps := by unfold Dev.bump; split <;> rfl
@[simp] theorem Dev.bump_meter (s : Dev) (f : Field) : (s.bump f).meter = s.meter := by unfold Dev.bump; split <;> rfl
@[simp] theorem Dev.bump_pulse (s : Dev) (f : Field) : (s.bump f).pulse = s.pulse := by unfold Dev.bump; split <;> rfl
@[simp] theorem Dev.bump_pulseCal (s : Dev) (f : Field) : (s.bump f).pulseCal = s.pulseCal := by unfold Dev.bump; split <;> rfl
@[simp] theorem Dev.bump_harm (s : Dev) (f : Field) : (s.bump f).harm = s.harm := by unfold Dev.bump; split <;> rfl
@[simp] theorem Dev.bump_eye (s : Dev) (f : Field) : (s.bump f).eye = s.eye := by unfold Dev.bump; split <;> rfl
@[simp] theorem Dev.bump_bill (s : Dev) (f : Field) : (s.bump f).bill = s.bill := by unfold Dev.bump; split <;> rfl
@[simp] theorem Dev.bump_mram (s : Dev) (f : Field) : (s.bump f).mram = s.mram := by unfold Dev.bump; split <;> rfl
@[simp] theorem Dev.bump_prepay (s : Dev) (f : Field) : (s.bump f).prepay = s.prepay := by unfold Dev.bump; split <;> rfl
@[simp] theorem Dev.bump_disc (s : Dev) (f : Field) : (s.bump f).disc = s.disc := by unfold Dev.bump; split <;> rfl
@[simp] theorem Dev.bump_disp (s : Dev) (f : Field) : (s.bump f).disp = s.disp := by unfold Dev.bump; split <;> rfl
@[simp] theorem Dev.bump_tamp (s : Dev) (f : Field) : (s.bump f).tamp = s.tamp := by unfold Dev.bump; split <;> rfl
@[simp] theorem Dev.bump_sec (s : Dev) (f : Field) : (s.bump f).sec = s.sec := by unfold Dev.bump; split <;> rfl
@[simp] theorem Dev.bump_otp (s : Dev) (f : Field) : (s.bump f).otp = s.otp := by unfold Dev.bump; split <;> rfl
@[simp] theorem Dev.bump_rtc (s : Dev) (f : Field) : (s.bump f).rtc = s.rtc := by unfold Dev.bump; split <;> rfl
@[simp] theorem Dev.bump_plc (s : Dev) (f : Field) : (s.bump f).plc = s.plc := by unfold Dev.bump; split <;> rfl
@[simp] theorem Dev.bump_mesh (s : Dev) (f : Field) : (s.bump f).mesh = s.mesh := by unfold Dev.bump; split <;> rfl
@[simp] theorem Dev.bump_upd (s : Dev) (f : Field) : (s.bump f).upd = s.upd := by unfold Dev.bump; split <;> rfl
@[simp] theorem Dev.bump_bist (s : Dev) (f : Field) : (s.bump f).bist = s.bist := by unfold Dev.bump; split <;> rfl
@[simp] theorem Dev.bump_host (s : Dev) (f : Field) : (s.bump f).host = s.host := by unfold Dev.bump; split <;> rfl

/-! ### `Dev.count` -/
@[simp] theorem Dev.count_mt (s : Dev) (f : Field) : (s.count f).mt = s.mt := (rfl)
@[simp] theorem Dev.count_free (s : Dev) (f : Field) : (s.count f).free = s.free := (rfl)
@[simp] theorem Dev.count_power (s : Dev) (f : Field) : (s.count f).power = s.power := (rfl)
@[simp] theorem Dev.count_clk (s : Dev) (f : Field) : (s.count f).clk = s.clk := (rfl)
@[simp] theorem Dev.count_pins (s : Dev) (f : Field) : (s.count f).pins = s.pins := (rfl)
@[simp] theorem Dev.count_bus (s : Dev) (f : Field) : (s.count f).bus = s.bus := (rfl)
@[simp] theorem Dev.count_cap (s : Dev) (f : Field) : (s.count f).cap = s.cap := (rfl)
@[simp] theorem Dev.count_fe (s : Dev) (f : Field) : (s.count f).fe = s.fe := (rfl)
@[simp] theorem Dev.count_temps (s : Dev) (f : Field) : (s.count f).temps = s.temps := (rfl)
@[simp] theorem Dev.count_meter (s : Dev) (f : Field) : (s.count f).meter = s.meter := (rfl)
@[simp] theorem Dev.count_pulse (s : Dev) (f : Field) : (s.count f).pulse = s.pulse := (rfl)
@[simp] theorem Dev.count_pulseCal (s : Dev) (f : Field) : (s.count f).pulseCal = s.pulseCal := (rfl)
@[simp] theorem Dev.count_harm (s : Dev) (f : Field) : (s.count f).harm = s.harm := (rfl)
@[simp] theorem Dev.count_eye (s : Dev) (f : Field) : (s.count f).eye = s.eye := (rfl)
@[simp] theorem Dev.count_bill (s : Dev) (f : Field) : (s.count f).bill = s.bill := (rfl)
@[simp] theorem Dev.count_mram (s : Dev) (f : Field) : (s.count f).mram = s.mram := (rfl)
@[simp] theorem Dev.count_prepay (s : Dev) (f : Field) : (s.count f).prepay = s.prepay := (rfl)
@[simp] theorem Dev.count_disc (s : Dev) (f : Field) : (s.count f).disc = s.disc := (rfl)
@[simp] theorem Dev.count_disp (s : Dev) (f : Field) : (s.count f).disp = s.disp := (rfl)
@[simp] theorem Dev.count_tamp (s : Dev) (f : Field) : (s.count f).tamp = s.tamp := (rfl)
@[simp] theorem Dev.count_sec (s : Dev) (f : Field) : (s.count f).sec = s.sec := (rfl)
@[simp] theorem Dev.count_otp (s : Dev) (f : Field) : (s.count f).otp = s.otp := (rfl)
@[simp] theorem Dev.count_rtc (s : Dev) (f : Field) : (s.count f).rtc = s.rtc := (rfl)
@[simp] theorem Dev.count_plc (s : Dev) (f : Field) : (s.count f).plc = s.plc := (rfl)
@[simp] theorem Dev.count_mesh (s : Dev) (f : Field) : (s.count f).mesh = s.mesh := (rfl)
@[simp] theorem Dev.count_upd (s : Dev) (f : Field) : (s.count f).upd = s.upd := (rfl)
@[simp] theorem Dev.count_bist (s : Dev) (f : Field) : (s.count f).bist = s.bist := (rfl)
@[simp] theorem Dev.count_host (s : Dev) (f : Field) : (s.count f).host = s.host := (rfl)

/-! ### `Dev.set64` -/
@[simp] theorem Dev.set64_mt (s : Dev) (lo hi v : Nat) : (s.set64 lo hi v).mt = s.mt := (rfl)
@[simp] theorem Dev.set64_free (s : Dev) (lo hi v : Nat) : (s.set64 lo hi v).free = s.free := (rfl)
@[simp] theorem Dev.set64_power (s : Dev) (lo hi v : Nat) : (s.set64 lo hi v).power = s.power := (rfl)
@[simp] theorem Dev.set64_clk (s : Dev) (lo hi v : Nat) : (s.set64 lo hi v).clk = s.clk := (rfl)
@[simp] theorem Dev.set64_pins (s : Dev) (lo hi v : Nat) : (s.set64 lo hi v).pins = s.pins := (rfl)
@[simp] theorem Dev.set64_bus (s : Dev) (lo hi v : Nat) : (s.set64 lo hi v).bus = s.bus := (rfl)
@[simp] theorem Dev.set64_cap (s : Dev) (lo hi v : Nat) : (s.set64 lo hi v).cap = s.cap := (rfl)
@[simp] theorem Dev.set64_fe (s : Dev) (lo hi v : Nat) : (s.set64 lo hi v).fe = s.fe := (rfl)
@[simp] theorem Dev.set64_temps (s : Dev) (lo hi v : Nat) : (s.set64 lo hi v).temps = s.temps := (rfl)
@[simp] theorem Dev.set64_meter (s : Dev) (lo hi v : Nat) : (s.set64 lo hi v).meter = s.meter := (rfl)
@[simp] theorem Dev.set64_pulse (s : Dev) (lo hi v : Nat) : (s.set64 lo hi v).pulse = s.pulse := (rfl)
@[simp] theorem Dev.set64_pulseCal (s : Dev) (lo hi v : Nat) : (s.set64 lo hi v).pulseCal = s.pulseCal := (rfl)
@[simp] theorem Dev.set64_harm (s : Dev) (lo hi v : Nat) : (s.set64 lo hi v).harm = s.harm := (rfl)
@[simp] theorem Dev.set64_eye (s : Dev) (lo hi v : Nat) : (s.set64 lo hi v).eye = s.eye := (rfl)
@[simp] theorem Dev.set64_bill (s : Dev) (lo hi v : Nat) : (s.set64 lo hi v).bill = s.bill := (rfl)
@[simp] theorem Dev.set64_mram (s : Dev) (lo hi v : Nat) : (s.set64 lo hi v).mram = s.mram := (rfl)
@[simp] theorem Dev.set64_prepay (s : Dev) (lo hi v : Nat) : (s.set64 lo hi v).prepay = s.prepay := (rfl)
@[simp] theorem Dev.set64_disc (s : Dev) (lo hi v : Nat) : (s.set64 lo hi v).disc = s.disc := (rfl)
@[simp] theorem Dev.set64_disp (s : Dev) (lo hi v : Nat) : (s.set64 lo hi v).disp = s.disp := (rfl)
@[simp] theorem Dev.set64_tamp (s : Dev) (lo hi v : Nat) : (s.set64 lo hi v).tamp = s.tamp := (rfl)
@[simp] theorem Dev.set64_sec (s : Dev) (lo hi v : Nat) : (s.set64 lo hi v).sec = s.sec := (rfl)
@[simp] theorem Dev.set64_otp (s : Dev) (lo hi v : Nat) : (s.set64 lo hi v).otp = s.otp := (rfl)
@[simp] theorem Dev.set64_rtc (s : Dev) (lo hi v : Nat) : (s.set64 lo hi v).rtc = s.rtc := (rfl)
@[simp] theorem Dev.set64_plc (s : Dev) (lo hi v : Nat) : (s.set64 lo hi v).plc = s.plc := (rfl)
@[simp] theorem Dev.set64_mesh (s : Dev) (lo hi v : Nat) : (s.set64 lo hi v).mesh = s.mesh := (rfl)
@[simp] theorem Dev.set64_upd (s : Dev) (lo hi v : Nat) : (s.set64 lo hi v).upd = s.upd := (rfl)
@[simp] theorem Dev.set64_bist (s : Dev) (lo hi v : Nat) : (s.set64 lo hi v).bist = s.bist := (rfl)
@[simp] theorem Dev.set64_host (s : Dev) (lo hi v : Nat) : (s.set64 lo hi v).host = s.host := (rfl)

/-! ### `Dev.cfgErr` -/
@[simp] theorem Dev.cfgErr_mt (s : Dev) (p : Nat) : (s.cfgErr p).mt = s.mt := (rfl)
@[simp] theorem Dev.cfgErr_free (s : Dev) (p : Nat) : (s.cfgErr p).free = s.free := (rfl)
@[simp] theorem Dev.cfgErr_power (s : Dev) (p : Nat) : (s.cfgErr p).power = s.power := (rfl)
@[simp] theorem Dev.cfgErr_clk (s : Dev) (p : Nat) : (s.cfgErr p).clk = s.clk := (rfl)
@[simp] theorem Dev.cfgErr_pins (s : Dev) (p : Nat) : (s.cfgErr p).pins = s.pins := (rfl)
@[simp] theorem Dev.cfgErr_bus (s : Dev) (p : Nat) : (s.cfgErr p).bus = s.bus := (rfl)
@[simp] theorem Dev.cfgErr_cap (s : Dev) (p : Nat) : (s.cfgErr p).cap = s.cap := (rfl)
@[simp] theorem Dev.cfgErr_fe (s : Dev) (p : Nat) : (s.cfgErr p).fe = s.fe := (rfl)
@[simp] theorem Dev.cfgErr_temps (s : Dev) (p : Nat) : (s.cfgErr p).temps = s.temps := (rfl)
@[simp] theorem Dev.cfgErr_meter (s : Dev) (p : Nat) : (s.cfgErr p).meter = s.meter := (rfl)
@[simp] theorem Dev.cfgErr_pulse (s : Dev) (p : Nat) : (s.cfgErr p).pulse = s.pulse := (rfl)
@[simp] theorem Dev.cfgErr_pulseCal (s : Dev) (p : Nat) : (s.cfgErr p).pulseCal = s.pulseCal := (rfl)
@[simp] theorem Dev.cfgErr_harm (s : Dev) (p : Nat) : (s.cfgErr p).harm = s.harm := (rfl)
@[simp] theorem Dev.cfgErr_eye (s : Dev) (p : Nat) : (s.cfgErr p).eye = s.eye := (rfl)
@[simp] theorem Dev.cfgErr_bill (s : Dev) (p : Nat) : (s.cfgErr p).bill = s.bill := (rfl)
@[simp] theorem Dev.cfgErr_mram (s : Dev) (p : Nat) : (s.cfgErr p).mram = s.mram := (rfl)
@[simp] theorem Dev.cfgErr_prepay (s : Dev) (p : Nat) : (s.cfgErr p).prepay = s.prepay := (rfl)
@[simp] theorem Dev.cfgErr_disc (s : Dev) (p : Nat) : (s.cfgErr p).disc = s.disc := (rfl)
@[simp] theorem Dev.cfgErr_disp (s : Dev) (p : Nat) : (s.cfgErr p).disp = s.disp := (rfl)
@[simp] theorem Dev.cfgErr_tamp (s : Dev) (p : Nat) : (s.cfgErr p).tamp = s.tamp := (rfl)
@[simp] theorem Dev.cfgErr_sec (s : Dev) (p : Nat) : (s.cfgErr p).sec = s.sec := (rfl)
@[simp] theorem Dev.cfgErr_otp (s : Dev) (p : Nat) : (s.cfgErr p).otp = s.otp := (rfl)
@[simp] theorem Dev.cfgErr_rtc (s : Dev) (p : Nat) : (s.cfgErr p).rtc = s.rtc := (rfl)
@[simp] theorem Dev.cfgErr_plc (s : Dev) (p : Nat) : (s.cfgErr p).plc = s.plc := (rfl)
@[simp] theorem Dev.cfgErr_mesh (s : Dev) (p : Nat) : (s.cfgErr p).mesh = s.mesh := (rfl)
@[simp] theorem Dev.cfgErr_upd (s : Dev) (p : Nat) : (s.cfgErr p).upd = s.upd := (rfl)
@[simp] theorem Dev.cfgErr_bist (s : Dev) (p : Nat) : (s.cfgErr p).bist = s.bist := (rfl)
@[simp] theorem Dev.cfgErr_host (s : Dev) (p : Nat) : (s.cfgErr p).host = s.host := (rfl)

/-! ### `Dev.lockErr` -/
@[simp] theorem Dev.lockErr_mt (s : Dev) (p : Nat) : (s.lockErr p).mt = s.mt := (rfl)
@[simp] theorem Dev.lockErr_free (s : Dev) (p : Nat) : (s.lockErr p).free = s.free := (rfl)
@[simp] theorem Dev.lockErr_power (s : Dev) (p : Nat) : (s.lockErr p).power = s.power := (rfl)
@[simp] theorem Dev.lockErr_clk (s : Dev) (p : Nat) : (s.lockErr p).clk = s.clk := (rfl)
@[simp] theorem Dev.lockErr_pins (s : Dev) (p : Nat) : (s.lockErr p).pins = s.pins := (rfl)
@[simp] theorem Dev.lockErr_bus (s : Dev) (p : Nat) : (s.lockErr p).bus = s.bus := (rfl)
@[simp] theorem Dev.lockErr_cap (s : Dev) (p : Nat) : (s.lockErr p).cap = s.cap := (rfl)
@[simp] theorem Dev.lockErr_fe (s : Dev) (p : Nat) : (s.lockErr p).fe = s.fe := (rfl)
@[simp] theorem Dev.lockErr_temps (s : Dev) (p : Nat) : (s.lockErr p).temps = s.temps := (rfl)
@[simp] theorem Dev.lockErr_meter (s : Dev) (p : Nat) : (s.lockErr p).meter = s.meter := (rfl)
@[simp] theorem Dev.lockErr_pulse (s : Dev) (p : Nat) : (s.lockErr p).pulse = s.pulse := (rfl)
@[simp] theorem Dev.lockErr_pulseCal (s : Dev) (p : Nat) : (s.lockErr p).pulseCal = s.pulseCal := (rfl)
@[simp] theorem Dev.lockErr_harm (s : Dev) (p : Nat) : (s.lockErr p).harm = s.harm := (rfl)
@[simp] theorem Dev.lockErr_eye (s : Dev) (p : Nat) : (s.lockErr p).eye = s.eye := (rfl)
@[simp] theorem Dev.lockErr_bill (s : Dev) (p : Nat) : (s.lockErr p).bill = s.bill := (rfl)
@[simp] theorem Dev.lockErr_mram (s : Dev) (p : Nat) : (s.lockErr p).mram = s.mram := (rfl)
@[simp] theorem Dev.lockErr_prepay (s : Dev) (p : Nat) : (s.lockErr p).prepay = s.prepay := (rfl)
@[simp] theorem Dev.lockErr_disc (s : Dev) (p : Nat) : (s.lockErr p).disc = s.disc := (rfl)
@[simp] theorem Dev.lockErr_disp (s : Dev) (p : Nat) : (s.lockErr p).disp = s.disp := (rfl)
@[simp] theorem Dev.lockErr_tamp (s : Dev) (p : Nat) : (s.lockErr p).tamp = s.tamp := (rfl)
@[simp] theorem Dev.lockErr_sec (s : Dev) (p : Nat) : (s.lockErr p).sec = s.sec := (rfl)
@[simp] theorem Dev.lockErr_otp (s : Dev) (p : Nat) : (s.lockErr p).otp = s.otp := (rfl)
@[simp] theorem Dev.lockErr_rtc (s : Dev) (p : Nat) : (s.lockErr p).rtc = s.rtc := (rfl)
@[simp] theorem Dev.lockErr_plc (s : Dev) (p : Nat) : (s.lockErr p).plc = s.plc := (rfl)
@[simp] theorem Dev.lockErr_mesh (s : Dev) (p : Nat) : (s.lockErr p).mesh = s.mesh := (rfl)
@[simp] theorem Dev.lockErr_upd (s : Dev) (p : Nat) : (s.lockErr p).upd = s.upd := (rfl)
@[simp] theorem Dev.lockErr_bist (s : Dev) (p : Nat) : (s.lockErr p).bist = s.bist := (rfl)
@[simp] theorem Dev.lockErr_host (s : Dev) (p : Nat) : (s.lockErr p).host = s.host := (rfl)

/-! ### `Dev.injUse` -/
@[simp] theorem Dev.injUse_mt (s : Dev) (p : Nat) : (s.injUse p).mt = s.mt := by simp only [Dev.injUse]; split <;> rfl
@[simp] theorem Dev.injUse_free (s : Dev) (p : Nat) : (s.injUse p).free = s.free := by simp only [Dev.injUse]; split <;> rfl
@[simp] theorem Dev.injUse_power (s : Dev) (p : Nat) : (s.injUse p).power = s.power := by simp only [Dev.injUse]; split <;> rfl
@[simp] theorem Dev.injUse_clk (s : Dev) (p : Nat) : (s.injUse p).clk = s.clk := by simp only [Dev.injUse]; split <;> rfl
@[simp] theorem Dev.injUse_pins (s : Dev) (p : Nat) : (s.injUse p).pins = s.pins := by simp only [Dev.injUse]; split <;> rfl
@[simp] theorem Dev.injUse_bus (s : Dev) (p : Nat) : (s.injUse p).bus = s.bus := by simp only [Dev.injUse]; split <;> rfl
@[simp] theorem Dev.injUse_cap (s : Dev) (p : Nat) : (s.injUse p).cap = s.cap := by simp only [Dev.injUse]; split <;> rfl
@[simp] theorem Dev.injUse_fe (s : Dev) (p : Nat) : (s.injUse p).fe = s.fe := by simp only [Dev.injUse]; split <;> rfl
@[simp] theorem Dev.injUse_temps (s : Dev) (p : Nat) : (s.injUse p).temps = s.temps := by simp only [Dev.injUse]; split <;> rfl
@[simp] theorem Dev.injUse_meter (s : Dev) (p : Nat) : (s.injUse p).meter = s.meter := by simp only [Dev.injUse]; split <;> rfl
@[simp] theorem Dev.injUse_pulse (s : Dev) (p : Nat) : (s.injUse p).pulse = s.pulse := by simp only [Dev.injUse]; split <;> rfl
@[simp] theorem Dev.injUse_pulseCal (s : Dev) (p : Nat) : (s.injUse p).pulseCal = s.pulseCal := by simp only [Dev.injUse]; split <;> rfl
@[simp] theorem Dev.injUse_harm (s : Dev) (p : Nat) : (s.injUse p).harm = s.harm := by simp only [Dev.injUse]; split <;> rfl
@[simp] theorem Dev.injUse_eye (s : Dev) (p : Nat) : (s.injUse p).eye = s.eye := by simp only [Dev.injUse]; split <;> rfl
@[simp] theorem Dev.injUse_bill (s : Dev) (p : Nat) : (s.injUse p).bill = s.bill := by simp only [Dev.injUse]; split <;> rfl
@[simp] theorem Dev.injUse_mram (s : Dev) (p : Nat) : (s.injUse p).mram = s.mram := by simp only [Dev.injUse]; split <;> rfl
@[simp] theorem Dev.injUse_prepay (s : Dev) (p : Nat) : (s.injUse p).prepay = s.prepay := by simp only [Dev.injUse]; split <;> rfl
@[simp] theorem Dev.injUse_disc (s : Dev) (p : Nat) : (s.injUse p).disc = s.disc := by simp only [Dev.injUse]; split <;> rfl
@[simp] theorem Dev.injUse_disp (s : Dev) (p : Nat) : (s.injUse p).disp = s.disp := by simp only [Dev.injUse]; split <;> rfl
@[simp] theorem Dev.injUse_tamp (s : Dev) (p : Nat) : (s.injUse p).tamp = s.tamp := by simp only [Dev.injUse]; split <;> rfl
@[simp] theorem Dev.injUse_sec (s : Dev) (p : Nat) : (s.injUse p).sec = s.sec := by simp only [Dev.injUse]; split <;> rfl
@[simp] theorem Dev.injUse_otp (s : Dev) (p : Nat) : (s.injUse p).otp = s.otp := by simp only [Dev.injUse]; split <;> rfl
@[simp] theorem Dev.injUse_rtc (s : Dev) (p : Nat) : (s.injUse p).rtc = s.rtc := by simp only [Dev.injUse]; split <;> rfl
@[simp] theorem Dev.injUse_plc (s : Dev) (p : Nat) : (s.injUse p).plc = s.plc := by simp only [Dev.injUse]; split <;> rfl
@[simp] theorem Dev.injUse_mesh (s : Dev) (p : Nat) : (s.injUse p).mesh = s.mesh := by simp only [Dev.injUse]; split <;> rfl
@[simp] theorem Dev.injUse_upd (s : Dev) (p : Nat) : (s.injUse p).upd = s.upd := by simp only [Dev.injUse]; split <;> rfl
@[simp] theorem Dev.injUse_bist (s : Dev) (p : Nat) : (s.injUse p).bist = s.bist := by simp only [Dev.injUse]; split <;> rfl
@[simp] theorem Dev.injUse_host (s : Dev) (p : Nat) : (s.injUse p).host = s.host := by simp only [Dev.injUse]; split <;> rfl

/-! ### `Dev.powUpd` -/
@[simp] theorem Dev.powUpd_regs (s : Dev) (f : Power → Power) : (s.powUpd f).regs = s.regs := (rfl)
@[simp] theorem Dev.powUpd_mt (s : Dev) (f : Power → Power) : (s.powUpd f).mt = s.mt := (rfl)
@[simp] theorem Dev.powUpd_free (s : Dev) (f : Power → Power) : (s.powUpd f).free = s.free := (rfl)
@[simp] theorem Dev.powUpd_clk (s : Dev) (f : Power → Power) : (s.powUpd f).clk = s.clk := (rfl)
@[simp] theorem Dev.powUpd_pins (s : Dev) (f : Power → Power) : (s.powUpd f).pins = s.pins := (rfl)
@[simp] theorem Dev.powUpd_bus (s : Dev) (f : Power → Power) : (s.powUpd f).bus = s.bus := (rfl)
@[simp] theorem Dev.powUpd_cap (s : Dev) (f : Power → Power) : (s.powUpd f).cap = s.cap := (rfl)
@[simp] theorem Dev.powUpd_fe (s : Dev) (f : Power → Power) : (s.powUpd f).fe = s.fe := (rfl)
@[simp] theorem Dev.powUpd_temps (s : Dev) (f : Power → Power) : (s.powUpd f).temps = s.temps := (rfl)
@[simp] theorem Dev.powUpd_meter (s : Dev) (f : Power → Power) : (s.powUpd f).meter = s.meter := (rfl)
@[simp] theorem Dev.powUpd_pulse (s : Dev) (f : Power → Power) : (s.powUpd f).pulse = s.pulse := (rfl)
@[simp] theorem Dev.powUpd_pulseCal (s : Dev) (f : Power → Power) : (s.powUpd f).pulseCal = s.pulseCal := (rfl)
@[simp] theorem Dev.powUpd_harm (s : Dev) (f : Power → Power) : (s.powUpd f).harm = s.harm := (rfl)
@[simp] theorem Dev.powUpd_eye (s : Dev) (f : Power → Power) : (s.powUpd f).eye = s.eye := (rfl)
@[simp] theorem Dev.powUpd_bill (s : Dev) (f : Power → Power) : (s.powUpd f).bill = s.bill := (rfl)
@[simp] theorem Dev.powUpd_mram (s : Dev) (f : Power → Power) : (s.powUpd f).mram = s.mram := (rfl)
@[simp] theorem Dev.powUpd_prepay (s : Dev) (f : Power → Power) : (s.powUpd f).prepay = s.prepay := (rfl)
@[simp] theorem Dev.powUpd_disc (s : Dev) (f : Power → Power) : (s.powUpd f).disc = s.disc := (rfl)
@[simp] theorem Dev.powUpd_disp (s : Dev) (f : Power → Power) : (s.powUpd f).disp = s.disp := (rfl)
@[simp] theorem Dev.powUpd_tamp (s : Dev) (f : Power → Power) : (s.powUpd f).tamp = s.tamp := (rfl)
@[simp] theorem Dev.powUpd_sec (s : Dev) (f : Power → Power) : (s.powUpd f).sec = s.sec := (rfl)
@[simp] theorem Dev.powUpd_otp (s : Dev) (f : Power → Power) : (s.powUpd f).otp = s.otp := (rfl)
@[simp] theorem Dev.powUpd_rtc (s : Dev) (f : Power → Power) : (s.powUpd f).rtc = s.rtc := (rfl)
@[simp] theorem Dev.powUpd_plc (s : Dev) (f : Power → Power) : (s.powUpd f).plc = s.plc := (rfl)
@[simp] theorem Dev.powUpd_mesh (s : Dev) (f : Power → Power) : (s.powUpd f).mesh = s.mesh := (rfl)
@[simp] theorem Dev.powUpd_upd (s : Dev) (f : Power → Power) : (s.powUpd f).upd = s.upd := (rfl)
@[simp] theorem Dev.powUpd_bist (s : Dev) (f : Power → Power) : (s.powUpd f).bist = s.bist := (rfl)
@[simp] theorem Dev.powUpd_host (s : Dev) (f : Power → Power) : (s.powUpd f).host = s.host := (rfl)
@[simp] theorem Dev.powUpd_power (s : Dev) (f : Power → Power) : (s.powUpd f).power = f s.power := (rfl)
@[simp] theorem Dev.powUpd_rd (s : Dev) (f : Power → Power) (q : Nat) : (s.powUpd f).rd q = s.rd q := (rfl)
@[simp] theorem Dev.powUpd_get (s : Dev) (f : Power → Power) (x : Field) : (s.powUpd f).get x = s.get x := (rfl)
@[simp] theorem Dev.powUpd_on (s : Dev) (f : Power → Power) (x : Field) : (s.powUpd f).on x = s.on x := (rfl)

/-! ### `Dev.billUpd` -/
@[simp] theorem Dev.billUpd_regs (s : Dev) (f : Bill → Bill) : (s.billUpd f).regs = s.regs := (rfl)
@[simp] theorem Dev.billUpd_mt (s : Dev) (f : Bill → Bill) : (s.billUpd f).mt = s.mt := (rfl)
@[simp] theorem Dev.billUpd_free (s : Dev) (f : Bill → Bill) : (s.billUpd f).free = s.free := (rfl)
@[simp] theorem Dev.billUpd_power (s : Dev) (f : Bill → Bill) : (s.billUpd f).power = s.power := (rfl)
@[simp] theorem Dev.billUpd_clk (s : Dev) (f : Bill → Bill) : (s.billUpd f).clk = s.clk := (rfl)
@[simp] theorem Dev.billUpd_pins (s : Dev) (f : Bill → Bill) : (s.billUpd f).pins = s.pins := (rfl)
@[simp] theorem Dev.billUpd_bus (s : Dev) (f : Bill → Bill) : (s.billUpd f).bus = s.bus := (rfl)
@[simp] theorem Dev.billUpd_cap (s : Dev) (f : Bill → Bill) : (s.billUpd f).cap = s.cap := (rfl)
@[simp] theorem Dev.billUpd_fe (s : Dev) (f : Bill → Bill) : (s.billUpd f).fe = s.fe := (rfl)
@[simp] theorem Dev.billUpd_temps (s : Dev) (f : Bill → Bill) : (s.billUpd f).temps = s.temps := (rfl)
@[simp] theorem Dev.billUpd_meter (s : Dev) (f : Bill → Bill) : (s.billUpd f).meter = s.meter := (rfl)
@[simp] theorem Dev.billUpd_pulse (s : Dev) (f : Bill → Bill) : (s.billUpd f).pulse = s.pulse := (rfl)
@[simp] theorem Dev.billUpd_pulseCal (s : Dev) (f : Bill → Bill) : (s.billUpd f).pulseCal = s.pulseCal := (rfl)
@[simp] theorem Dev.billUpd_harm (s : Dev) (f : Bill → Bill) : (s.billUpd f).harm = s.harm := (rfl)
@[simp] theorem Dev.billUpd_eye (s : Dev) (f : Bill → Bill) : (s.billUpd f).eye = s.eye := (rfl)
@[simp] theorem Dev.billUpd_mram (s : Dev) (f : Bill → Bill) : (s.billUpd f).mram = s.mram := (rfl)
@[simp] theorem Dev.billUpd_prepay (s : Dev) (f : Bill → Bill) : (s.billUpd f).prepay = s.prepay := (rfl)
@[simp] theorem Dev.billUpd_disc (s : Dev) (f : Bill → Bill) : (s.billUpd f).disc = s.disc := (rfl)
@[simp] theorem Dev.billUpd_disp (s : Dev) (f : Bill → Bill) : (s.billUpd f).disp = s.disp := (rfl)
@[simp] theorem Dev.billUpd_tamp (s : Dev) (f : Bill → Bill) : (s.billUpd f).tamp = s.tamp := (rfl)
@[simp] theorem Dev.billUpd_sec (s : Dev) (f : Bill → Bill) : (s.billUpd f).sec = s.sec := (rfl)
@[simp] theorem Dev.billUpd_otp (s : Dev) (f : Bill → Bill) : (s.billUpd f).otp = s.otp := (rfl)
@[simp] theorem Dev.billUpd_rtc (s : Dev) (f : Bill → Bill) : (s.billUpd f).rtc = s.rtc := (rfl)
@[simp] theorem Dev.billUpd_plc (s : Dev) (f : Bill → Bill) : (s.billUpd f).plc = s.plc := (rfl)
@[simp] theorem Dev.billUpd_mesh (s : Dev) (f : Bill → Bill) : (s.billUpd f).mesh = s.mesh := (rfl)
@[simp] theorem Dev.billUpd_upd (s : Dev) (f : Bill → Bill) : (s.billUpd f).upd = s.upd := (rfl)
@[simp] theorem Dev.billUpd_bist (s : Dev) (f : Bill → Bill) : (s.billUpd f).bist = s.bist := (rfl)
@[simp] theorem Dev.billUpd_host (s : Dev) (f : Bill → Bill) : (s.billUpd f).host = s.host := (rfl)
@[simp] theorem Dev.billUpd_bill (s : Dev) (f : Bill → Bill) : (s.billUpd f).bill = f s.bill := (rfl)
@[simp] theorem Dev.billUpd_rd (s : Dev) (f : Bill → Bill) (q : Nat) : (s.billUpd f).rd q = s.rd q := (rfl)
@[simp] theorem Dev.billUpd_get (s : Dev) (f : Bill → Bill) (x : Field) : (s.billUpd f).get x = s.get x := (rfl)
@[simp] theorem Dev.billUpd_on (s : Dev) (f : Bill → Bill) (x : Field) : (s.billUpd f).on x = s.on x := (rfl)

/-! ### `Dev.imgUpd` -/
@[simp] theorem Dev.imgUpd_regs (s : Dev) (f : Image → Image) : (s.imgUpd f).regs = s.regs := (rfl)
@[simp] theorem Dev.imgUpd_mt (s : Dev) (f : Image → Image) : (s.imgUpd f).mt = s.mt := (rfl)
@[simp] theorem Dev.imgUpd_free (s : Dev) (f : Image → Image) : (s.imgUpd f).free = s.free := (rfl)
@[simp] theorem Dev.imgUpd_power (s : Dev) (f : Image → Image) : (s.imgUpd f).power = s.power := (rfl)
@[simp] theorem Dev.imgUpd_clk (s : Dev) (f : Image → Image) : (s.imgUpd f).clk = s.clk := (rfl)
@[simp] theorem Dev.imgUpd_pins (s : Dev) (f : Image → Image) : (s.imgUpd f).pins = s.pins := (rfl)
@[simp] theorem Dev.imgUpd_bus (s : Dev) (f : Image → Image) : (s.imgUpd f).bus = s.bus := (rfl)
@[simp] theorem Dev.imgUpd_cap (s : Dev) (f : Image → Image) : (s.imgUpd f).cap = s.cap := (rfl)
@[simp] theorem Dev.imgUpd_fe (s : Dev) (f : Image → Image) : (s.imgUpd f).fe = s.fe := (rfl)
@[simp] theorem Dev.imgUpd_temps (s : Dev) (f : Image → Image) : (s.imgUpd f).temps = s.temps := (rfl)
@[simp] theorem Dev.imgUpd_meter (s : Dev) (f : Image → Image) : (s.imgUpd f).meter = s.meter := (rfl)
@[simp] theorem Dev.imgUpd_pulse (s : Dev) (f : Image → Image) : (s.imgUpd f).pulse = s.pulse := (rfl)
@[simp] theorem Dev.imgUpd_pulseCal (s : Dev) (f : Image → Image) : (s.imgUpd f).pulseCal = s.pulseCal := (rfl)
@[simp] theorem Dev.imgUpd_harm (s : Dev) (f : Image → Image) : (s.imgUpd f).harm = s.harm := (rfl)
@[simp] theorem Dev.imgUpd_eye (s : Dev) (f : Image → Image) : (s.imgUpd f).eye = s.eye := (rfl)
@[simp] theorem Dev.imgUpd_mram (s : Dev) (f : Image → Image) : (s.imgUpd f).mram = s.mram := (rfl)
@[simp] theorem Dev.imgUpd_prepay (s : Dev) (f : Image → Image) : (s.imgUpd f).prepay = s.prepay := (rfl)
@[simp] theorem Dev.imgUpd_disc (s : Dev) (f : Image → Image) : (s.imgUpd f).disc = s.disc := (rfl)
@[simp] theorem Dev.imgUpd_disp (s : Dev) (f : Image → Image) : (s.imgUpd f).disp = s.disp := (rfl)
@[simp] theorem Dev.imgUpd_tamp (s : Dev) (f : Image → Image) : (s.imgUpd f).tamp = s.tamp := (rfl)
@[simp] theorem Dev.imgUpd_sec (s : Dev) (f : Image → Image) : (s.imgUpd f).sec = s.sec := (rfl)
@[simp] theorem Dev.imgUpd_otp (s : Dev) (f : Image → Image) : (s.imgUpd f).otp = s.otp := (rfl)
@[simp] theorem Dev.imgUpd_rtc (s : Dev) (f : Image → Image) : (s.imgUpd f).rtc = s.rtc := (rfl)
@[simp] theorem Dev.imgUpd_plc (s : Dev) (f : Image → Image) : (s.imgUpd f).plc = s.plc := (rfl)
@[simp] theorem Dev.imgUpd_mesh (s : Dev) (f : Image → Image) : (s.imgUpd f).mesh = s.mesh := (rfl)
@[simp] theorem Dev.imgUpd_upd (s : Dev) (f : Image → Image) : (s.imgUpd f).upd = s.upd := (rfl)
@[simp] theorem Dev.imgUpd_bist (s : Dev) (f : Image → Image) : (s.imgUpd f).bist = s.bist := (rfl)
@[simp] theorem Dev.imgUpd_host (s : Dev) (f : Image → Image) : (s.imgUpd f).host = s.host := (rfl)
@[simp] theorem Dev.imgUpd_bill (s : Dev) (f : Image → Image) : (s.imgUpd f).bill = { s.bill with img := f s.bill.img } := (rfl)
@[simp] theorem Dev.imgUpd_rd (s : Dev) (f : Image → Image) (q : Nat) : (s.imgUpd f).rd q = s.rd q := (rfl)
@[simp] theorem Dev.imgUpd_get (s : Dev) (f : Image → Image) (x : Field) : (s.imgUpd f).get x = s.get x := (rfl)
@[simp] theorem Dev.imgUpd_on (s : Dev) (f : Image → Image) (x : Field) : (s.imgUpd f).on x = s.on x := (rfl)

/-! ### `Dev.bpUpd` -/
@[simp] theorem Dev.bpUpd_regs (s : Dev) (b : Nat) (f : Bp → Bp) : (s.bpUpd b f).regs = s.regs := (rfl)
@[simp] theorem Dev.bpUpd_mt (s : Dev) (b : Nat) (f : Bp → Bp) : (s.bpUpd b f).mt = s.mt := (rfl)
@[simp] theorem Dev.bpUpd_free (s : Dev) (b : Nat) (f : Bp → Bp) : (s.bpUpd b f).free = s.free := (rfl)
@[simp] theorem Dev.bpUpd_power (s : Dev) (b : Nat) (f : Bp → Bp) : (s.bpUpd b f).power = s.power := (rfl)
@[simp] theorem Dev.bpUpd_clk (s : Dev) (b : Nat) (f : Bp → Bp) : (s.bpUpd b f).clk = s.clk := (rfl)
@[simp] theorem Dev.bpUpd_pins (s : Dev) (b : Nat) (f : Bp → Bp) : (s.bpUpd b f).pins = s.pins := (rfl)
@[simp] theorem Dev.bpUpd_bus (s : Dev) (b : Nat) (f : Bp → Bp) : (s.bpUpd b f).bus = s.bus := (rfl)
@[simp] theorem Dev.bpUpd_cap (s : Dev) (b : Nat) (f : Bp → Bp) : (s.bpUpd b f).cap = s.cap := (rfl)
@[simp] theorem Dev.bpUpd_fe (s : Dev) (b : Nat) (f : Bp → Bp) : (s.bpUpd b f).fe = s.fe := (rfl)
@[simp] theorem Dev.bpUpd_temps (s : Dev) (b : Nat) (f : Bp → Bp) : (s.bpUpd b f).temps = s.temps := (rfl)
@[simp] theorem Dev.bpUpd_meter (s : Dev) (b : Nat) (f : Bp → Bp) : (s.bpUpd b f).meter = s.meter := (rfl)
@[simp] theorem Dev.bpUpd_pulse (s : Dev) (b : Nat) (f : Bp → Bp) : (s.bpUpd b f).pulse = s.pulse := (rfl)
@[simp] theorem Dev.bpUpd_pulseCal (s : Dev) (b : Nat) (f : Bp → Bp) : (s.bpUpd b f).pulseCal = s.pulseCal := (rfl)
@[simp] theorem Dev.bpUpd_harm (s : Dev) (b : Nat) (f : Bp → Bp) : (s.bpUpd b f).harm = s.harm := (rfl)
@[simp] theorem Dev.bpUpd_eye (s : Dev) (b : Nat) (f : Bp → Bp) : (s.bpUpd b f).eye = s.eye := (rfl)
@[simp] theorem Dev.bpUpd_mram (s : Dev) (b : Nat) (f : Bp → Bp) : (s.bpUpd b f).mram = s.mram := (rfl)
@[simp] theorem Dev.bpUpd_prepay (s : Dev) (b : Nat) (f : Bp → Bp) : (s.bpUpd b f).prepay = s.prepay := (rfl)
@[simp] theorem Dev.bpUpd_disc (s : Dev) (b : Nat) (f : Bp → Bp) : (s.bpUpd b f).disc = s.disc := (rfl)
@[simp] theorem Dev.bpUpd_disp (s : Dev) (b : Nat) (f : Bp → Bp) : (s.bpUpd b f).disp = s.disp := (rfl)
@[simp] theorem Dev.bpUpd_tamp (s : Dev) (b : Nat) (f : Bp → Bp) : (s.bpUpd b f).tamp = s.tamp := (rfl)
@[simp] theorem Dev.bpUpd_sec (s : Dev) (b : Nat) (f : Bp → Bp) : (s.bpUpd b f).sec = s.sec := (rfl)
@[simp] theorem Dev.bpUpd_otp (s : Dev) (b : Nat) (f : Bp → Bp) : (s.bpUpd b f).otp = s.otp := (rfl)
@[simp] theorem Dev.bpUpd_rtc (s : Dev) (b : Nat) (f : Bp → Bp) : (s.bpUpd b f).rtc = s.rtc := (rfl)
@[simp] theorem Dev.bpUpd_plc (s : Dev) (b : Nat) (f : Bp → Bp) : (s.bpUpd b f).plc = s.plc := (rfl)
@[simp] theorem Dev.bpUpd_mesh (s : Dev) (b : Nat) (f : Bp → Bp) : (s.bpUpd b f).mesh = s.mesh := (rfl)
@[simp] theorem Dev.bpUpd_upd (s : Dev) (b : Nat) (f : Bp → Bp) : (s.bpUpd b f).upd = s.upd := (rfl)
@[simp] theorem Dev.bpUpd_bist (s : Dev) (b : Nat) (f : Bp → Bp) : (s.bpUpd b f).bist = s.bist := (rfl)
@[simp] theorem Dev.bpUpd_host (s : Dev) (b : Nat) (f : Bp → Bp) : (s.bpUpd b f).host = s.host := (rfl)
@[simp] theorem Dev.bpUpd_bill (s : Dev) (b : Nat) (f : Bp → Bp) : (s.bpUpd b f).bill = { s.bill with img := { s.bill.img with bp := updAt s.bill.img.bp b f } } := (rfl)
@[simp] theorem Dev.bpUpd_rd (s : Dev) (b : Nat) (f : Bp → Bp) (q : Nat) : (s.bpUpd b f).rd q = s.rd q := (rfl)
@[simp] theorem Dev.bpUpd_get (s : Dev) (b : Nat) (f : Bp → Bp) (x : Field) : (s.bpUpd b f).get x = s.get x := (rfl)
@[simp] theorem Dev.bpUpd_on (s : Dev) (b : Nat) (f : Bp → Bp) (x : Field) : (s.bpUpd b f).on x = s.on x := (rfl)

/-! ### `Dev.bistUpd` -/
@[simp] theorem Dev.bistUpd_regs (s : Dev) (f : Bist → Bist) : (s.bistUpd f).regs = s.regs := (rfl)
@[simp] theorem Dev.bistUpd_mt (s : Dev) (f : Bist → Bist) : (s.bistUpd f).mt = s.mt := (rfl)
@[simp] theorem Dev.bistUpd_free (s : Dev) (f : Bist → Bist) : (s.bistUpd f).free = s.free := (rfl)
@[simp] theorem Dev.bistUpd_power (s : Dev) (f : Bist → Bist) : (s.bistUpd f).power = s.power := (rfl)
@[simp] theorem Dev.bistUpd_clk (s : Dev) (f : Bist → Bist) : (s.bistUpd f).clk = s.clk := (rfl)
@[simp] theorem Dev.bistUpd_pins (s : Dev) (f : Bist → Bist) : (s.bistUpd f).pins = s.pins := (rfl)
@[simp] theorem Dev.bistUpd_bus (s : Dev) (f : Bist → Bist) : (s.bistUpd f).bus = s.bus := (rfl)
@[simp] theorem Dev.bistUpd_cap (s : Dev) (f : Bist → Bist) : (s.bistUpd f).cap = s.cap := (rfl)
@[simp] theorem Dev.bistUpd_fe (s : Dev) (f : Bist → Bist) : (s.bistUpd f).fe = s.fe := (rfl)
@[simp] theorem Dev.bistUpd_temps (s : Dev) (f : Bist → Bist) : (s.bistUpd f).temps = s.temps := (rfl)
@[simp] theorem Dev.bistUpd_meter (s : Dev) (f : Bist → Bist) : (s.bistUpd f).meter = s.meter := (rfl)
@[simp] theorem Dev.bistUpd_pulse (s : Dev) (f : Bist → Bist) : (s.bistUpd f).pulse = s.pulse := (rfl)
@[simp] theorem Dev.bistUpd_pulseCal (s : Dev) (f : Bist → Bist) : (s.bistUpd f).pulseCal = s.pulseCal := (rfl)
@[simp] theorem Dev.bistUpd_harm (s : Dev) (f : Bist → Bist) : (s.bistUpd f).harm = s.harm := (rfl)
@[simp] theorem Dev.bistUpd_eye (s : Dev) (f : Bist → Bist) : (s.bistUpd f).eye = s.eye := (rfl)
@[simp] theorem Dev.bistUpd_bill (s : Dev) (f : Bist → Bist) : (s.bistUpd f).bill = s.bill := (rfl)
@[simp] theorem Dev.bistUpd_mram (s : Dev) (f : Bist → Bist) : (s.bistUpd f).mram = s.mram := (rfl)
@[simp] theorem Dev.bistUpd_prepay (s : Dev) (f : Bist → Bist) : (s.bistUpd f).prepay = s.prepay := (rfl)
@[simp] theorem Dev.bistUpd_disc (s : Dev) (f : Bist → Bist) : (s.bistUpd f).disc = s.disc := (rfl)
@[simp] theorem Dev.bistUpd_disp (s : Dev) (f : Bist → Bist) : (s.bistUpd f).disp = s.disp := (rfl)
@[simp] theorem Dev.bistUpd_tamp (s : Dev) (f : Bist → Bist) : (s.bistUpd f).tamp = s.tamp := (rfl)
@[simp] theorem Dev.bistUpd_sec (s : Dev) (f : Bist → Bist) : (s.bistUpd f).sec = s.sec := (rfl)
@[simp] theorem Dev.bistUpd_otp (s : Dev) (f : Bist → Bist) : (s.bistUpd f).otp = s.otp := (rfl)
@[simp] theorem Dev.bistUpd_rtc (s : Dev) (f : Bist → Bist) : (s.bistUpd f).rtc = s.rtc := (rfl)
@[simp] theorem Dev.bistUpd_plc (s : Dev) (f : Bist → Bist) : (s.bistUpd f).plc = s.plc := (rfl)
@[simp] theorem Dev.bistUpd_mesh (s : Dev) (f : Bist → Bist) : (s.bistUpd f).mesh = s.mesh := (rfl)
@[simp] theorem Dev.bistUpd_upd (s : Dev) (f : Bist → Bist) : (s.bistUpd f).upd = s.upd := (rfl)
@[simp] theorem Dev.bistUpd_host (s : Dev) (f : Bist → Bist) : (s.bistUpd f).host = s.host := (rfl)
@[simp] theorem Dev.bistUpd_bist (s : Dev) (f : Bist → Bist) : (s.bistUpd f).bist = f s.bist := (rfl)
@[simp] theorem Dev.bistUpd_rd (s : Dev) (f : Bist → Bist) (q : Nat) : (s.bistUpd f).rd q = s.rd q := (rfl)
@[simp] theorem Dev.bistUpd_get (s : Dev) (f : Bist → Bist) (x : Field) : (s.bistUpd f).get x = s.get x := (rfl)
@[simp] theorem Dev.bistUpd_on (s : Dev) (f : Bist → Bist) (x : Field) : (s.bistUpd f).on x = s.on x := (rfl)

/-! ### `Dev.updUpd` -/
@[simp] theorem Dev.updUpd_regs (s : Dev) (f : Upd → Upd) : (s.updUpd f).regs = s.regs := (rfl)
@[simp] theorem Dev.updUpd_mt (s : Dev) (f : Upd → Upd) : (s.updUpd f).mt = s.mt := (rfl)
@[simp] theorem Dev.updUpd_free (s : Dev) (f : Upd → Upd) : (s.updUpd f).free = s.free := (rfl)
@[simp] theorem Dev.updUpd_power (s : Dev) (f : Upd → Upd) : (s.updUpd f).power = s.power := (rfl)
@[simp] theorem Dev.updUpd_clk (s : Dev) (f : Upd → Upd) : (s.updUpd f).clk = s.clk := (rfl)
@[simp] theorem Dev.updUpd_pins (s : Dev) (f : Upd → Upd) : (s.updUpd f).pins = s.pins := (rfl)
@[simp] theorem Dev.updUpd_bus (s : Dev) (f : Upd → Upd) : (s.updUpd f).bus = s.bus := (rfl)
@[simp] theorem Dev.updUpd_cap (s : Dev) (f : Upd → Upd) : (s.updUpd f).cap = s.cap := (rfl)
@[simp] theorem Dev.updUpd_fe (s : Dev) (f : Upd → Upd) : (s.updUpd f).fe = s.fe := (rfl)
@[simp] theorem Dev.updUpd_temps (s : Dev) (f : Upd → Upd) : (s.updUpd f).temps = s.temps := (rfl)
@[simp] theorem Dev.updUpd_meter (s : Dev) (f : Upd → Upd) : (s.updUpd f).meter = s.meter := (rfl)
@[simp] theorem Dev.updUpd_pulse (s : Dev) (f : Upd → Upd) : (s.updUpd f).pulse = s.pulse := (rfl)
@[simp] theorem Dev.updUpd_pulseCal (s : Dev) (f : Upd → Upd) : (s.updUpd f).pulseCal = s.pulseCal := (rfl)
@[simp] theorem Dev.updUpd_harm (s : Dev) (f : Upd → Upd) : (s.updUpd f).harm = s.harm := (rfl)
@[simp] theorem Dev.updUpd_eye (s : Dev) (f : Upd → Upd) : (s.updUpd f).eye = s.eye := (rfl)
@[simp] theorem Dev.updUpd_bill (s : Dev) (f : Upd → Upd) : (s.updUpd f).bill = s.bill := (rfl)
@[simp] theorem Dev.updUpd_mram (s : Dev) (f : Upd → Upd) : (s.updUpd f).mram = s.mram := (rfl)
@[simp] theorem Dev.updUpd_prepay (s : Dev) (f : Upd → Upd) : (s.updUpd f).prepay = s.prepay := (rfl)
@[simp] theorem Dev.updUpd_disc (s : Dev) (f : Upd → Upd) : (s.updUpd f).disc = s.disc := (rfl)
@[simp] theorem Dev.updUpd_disp (s : Dev) (f : Upd → Upd) : (s.updUpd f).disp = s.disp := (rfl)
@[simp] theorem Dev.updUpd_tamp (s : Dev) (f : Upd → Upd) : (s.updUpd f).tamp = s.tamp := (rfl)
@[simp] theorem Dev.updUpd_sec (s : Dev) (f : Upd → Upd) : (s.updUpd f).sec = s.sec := (rfl)
@[simp] theorem Dev.updUpd_otp (s : Dev) (f : Upd → Upd) : (s.updUpd f).otp = s.otp := (rfl)
@[simp] theorem Dev.updUpd_rtc (s : Dev) (f : Upd → Upd) : (s.updUpd f).rtc = s.rtc := (rfl)
@[simp] theorem Dev.updUpd_plc (s : Dev) (f : Upd → Upd) : (s.updUpd f).plc = s.plc := (rfl)
@[simp] theorem Dev.updUpd_mesh (s : Dev) (f : Upd → Upd) : (s.updUpd f).mesh = s.mesh := (rfl)
@[simp] theorem Dev.updUpd_bist (s : Dev) (f : Upd → Upd) : (s.updUpd f).bist = s.bist := (rfl)
@[simp] theorem Dev.updUpd_host (s : Dev) (f : Upd → Upd) : (s.updUpd f).host = s.host := (rfl)
@[simp] theorem Dev.updUpd_upd (s : Dev) (f : Upd → Upd) : (s.updUpd f).upd = f s.upd := (rfl)
@[simp] theorem Dev.updUpd_rd (s : Dev) (f : Upd → Upd) (q : Nat) : (s.updUpd f).rd q = s.rd q := (rfl)
@[simp] theorem Dev.updUpd_get (s : Dev) (f : Upd → Upd) (x : Field) : (s.updUpd f).get x = s.get x := (rfl)
@[simp] theorem Dev.updUpd_on (s : Dev) (f : Upd → Upd) (x : Field) : (s.updUpd f).on x = s.on x := (rfl)

/-! ### `Dev.busUpd` -/
@[simp] theorem Dev.busUpd_regs (s : Dev) (f : Bus → Bus) : (s.busUpd f).regs = s.regs := (rfl)
@[simp] theorem Dev.busUpd_mt (s : Dev) (f : Bus → Bus) : (s.busUpd f).mt = s.mt := (rfl)
@[simp] theorem Dev.busUpd_free (s : Dev) (f : Bus → Bus) : (s.busUpd f).free = s.free := (rfl)
@[simp] theorem Dev.busUpd_power (s : Dev) (f : Bus → Bus) : (s.busUpd f).power = s.power := (rfl)
@[simp] theorem Dev.busUpd_clk (s : Dev) (f : Bus → Bus) : (s.busUpd f).clk = s.clk := (rfl)
@[simp] theorem Dev.busUpd_pins (s : Dev) (f : Bus → Bus) : (s.busUpd f).pins = s.pins := (rfl)
@[simp] theorem Dev.busUpd_cap (s : Dev) (f : Bus → Bus) : (s.busUpd f).cap = s.cap := (rfl)
@[simp] theorem Dev.busUpd_fe (s : Dev) (f : Bus → Bus) : (s.busUpd f).fe = s.fe := (rfl)
@[simp] theorem Dev.busUpd_temps (s : Dev) (f : Bus → Bus) : (s.busUpd f).temps = s.temps := (rfl)
@[simp] theorem Dev.busUpd_meter (s : Dev) (f : Bus → Bus) : (s.busUpd f).meter = s.meter := (rfl)
@[simp] theorem Dev.busUpd_pulse (s : Dev) (f : Bus → Bus) : (s.busUpd f).pulse = s.pulse := (rfl)
@[simp] theorem Dev.busUpd_pulseCal (s : Dev) (f : Bus → Bus) : (s.busUpd f).pulseCal = s.pulseCal := (rfl)
@[simp] theorem Dev.busUpd_harm (s : Dev) (f : Bus → Bus) : (s.busUpd f).harm = s.harm := (rfl)
@[simp] theorem Dev.busUpd_eye (s : Dev) (f : Bus → Bus) : (s.busUpd f).eye = s.eye := (rfl)
@[simp] theorem Dev.busUpd_bill (s : Dev) (f : Bus → Bus) : (s.busUpd f).bill = s.bill := (rfl)
@[simp] theorem Dev.busUpd_mram (s : Dev) (f : Bus → Bus) : (s.busUpd f).mram = s.mram := (rfl)
@[simp] theorem Dev.busUpd_prepay (s : Dev) (f : Bus → Bus) : (s.busUpd f).prepay = s.prepay := (rfl)
@[simp] theorem Dev.busUpd_disc (s : Dev) (f : Bus → Bus) : (s.busUpd f).disc = s.disc := (rfl)
@[simp] theorem Dev.busUpd_disp (s : Dev) (f : Bus → Bus) : (s.busUpd f).disp = s.disp := (rfl)
@[simp] theorem Dev.busUpd_tamp (s : Dev) (f : Bus → Bus) : (s.busUpd f).tamp = s.tamp := (rfl)
@[simp] theorem Dev.busUpd_sec (s : Dev) (f : Bus → Bus) : (s.busUpd f).sec = s.sec := (rfl)
@[simp] theorem Dev.busUpd_otp (s : Dev) (f : Bus → Bus) : (s.busUpd f).otp = s.otp := (rfl)
@[simp] theorem Dev.busUpd_rtc (s : Dev) (f : Bus → Bus) : (s.busUpd f).rtc = s.rtc := (rfl)
@[simp] theorem Dev.busUpd_plc (s : Dev) (f : Bus → Bus) : (s.busUpd f).plc = s.plc := (rfl)
@[simp] theorem Dev.busUpd_mesh (s : Dev) (f : Bus → Bus) : (s.busUpd f).mesh = s.mesh := (rfl)
@[simp] theorem Dev.busUpd_upd (s : Dev) (f : Bus → Bus) : (s.busUpd f).upd = s.upd := (rfl)
@[simp] theorem Dev.busUpd_bist (s : Dev) (f : Bus → Bus) : (s.busUpd f).bist = s.bist := (rfl)
@[simp] theorem Dev.busUpd_host (s : Dev) (f : Bus → Bus) : (s.busUpd f).host = s.host := (rfl)
@[simp] theorem Dev.busUpd_bus (s : Dev) (f : Bus → Bus) : (s.busUpd f).bus = f s.bus := (rfl)
@[simp] theorem Dev.busUpd_rd (s : Dev) (f : Bus → Bus) (q : Nat) : (s.busUpd f).rd q = s.rd q := (rfl)
@[simp] theorem Dev.busUpd_get (s : Dev) (f : Bus → Bus) (x : Field) : (s.busUpd f).get x = s.get x := (rfl)
@[simp] theorem Dev.busUpd_on (s : Dev) (f : Bus → Bus) (x : Field) : (s.busUpd f).on x = s.on x := (rfl)

/-! ### `Dev.uartUpd` -/
@[simp] theorem Dev.uartUpd_regs (s : Dev) (u : Nat) (f : Uart → Uart) : (s.uartUpd u f).regs = s.regs := (rfl)
@[simp] theorem Dev.uartUpd_mt (s : Dev) (u : Nat) (f : Uart → Uart) : (s.uartUpd u f).mt = s.mt := (rfl)
@[simp] theorem Dev.uartUpd_free (s : Dev) (u : Nat) (f : Uart → Uart) : (s.uartUpd u f).free = s.free := (rfl)
@[simp] theorem Dev.uartUpd_power (s : Dev) (u : Nat) (f : Uart → Uart) : (s.uartUpd u f).power = s.power := (rfl)
@[simp] theorem Dev.uartUpd_clk (s : Dev) (u : Nat) (f : Uart → Uart) : (s.uartUpd u f).clk = s.clk := (rfl)
@[simp] theorem Dev.uartUpd_pins (s : Dev) (u : Nat) (f : Uart → Uart) : (s.uartUpd u f).pins = s.pins := (rfl)
@[simp] theorem Dev.uartUpd_bus (s : Dev) (u : Nat) (f : Uart → Uart) : (s.uartUpd u f).bus = s.bus := (rfl)
@[simp] theorem Dev.uartUpd_cap (s : Dev) (u : Nat) (f : Uart → Uart) : (s.uartUpd u f).cap = s.cap := (rfl)
@[simp] theorem Dev.uartUpd_fe (s : Dev) (u : Nat) (f : Uart → Uart) : (s.uartUpd u f).fe = s.fe := (rfl)
@[simp] theorem Dev.uartUpd_temps (s : Dev) (u : Nat) (f : Uart → Uart) : (s.uartUpd u f).temps = s.temps := (rfl)
@[simp] theorem Dev.uartUpd_meter (s : Dev) (u : Nat) (f : Uart → Uart) : (s.uartUpd u f).meter = s.meter := (rfl)
@[simp] theorem Dev.uartUpd_pulse (s : Dev) (u : Nat) (f : Uart → Uart) : (s.uartUpd u f).pulse = s.pulse := (rfl)
@[simp] theorem Dev.uartUpd_pulseCal (s : Dev) (u : Nat) (f : Uart → Uart) : (s.uartUpd u f).pulseCal = s.pulseCal := (rfl)
@[simp] theorem Dev.uartUpd_harm (s : Dev) (u : Nat) (f : Uart → Uart) : (s.uartUpd u f).harm = s.harm := (rfl)
@[simp] theorem Dev.uartUpd_eye (s : Dev) (u : Nat) (f : Uart → Uart) : (s.uartUpd u f).eye = s.eye := (rfl)
@[simp] theorem Dev.uartUpd_bill (s : Dev) (u : Nat) (f : Uart → Uart) : (s.uartUpd u f).bill = s.bill := (rfl)
@[simp] theorem Dev.uartUpd_mram (s : Dev) (u : Nat) (f : Uart → Uart) : (s.uartUpd u f).mram = s.mram := (rfl)
@[simp] theorem Dev.uartUpd_prepay (s : Dev) (u : Nat) (f : Uart → Uart) : (s.uartUpd u f).prepay = s.prepay := (rfl)
@[simp] theorem Dev.uartUpd_disc (s : Dev) (u : Nat) (f : Uart → Uart) : (s.uartUpd u f).disc = s.disc := (rfl)
@[simp] theorem Dev.uartUpd_disp (s : Dev) (u : Nat) (f : Uart → Uart) : (s.uartUpd u f).disp = s.disp := (rfl)
@[simp] theorem Dev.uartUpd_tamp (s : Dev) (u : Nat) (f : Uart → Uart) : (s.uartUpd u f).tamp = s.tamp := (rfl)
@[simp] theorem Dev.uartUpd_sec (s : Dev) (u : Nat) (f : Uart → Uart) : (s.uartUpd u f).sec = s.sec := (rfl)
@[simp] theorem Dev.uartUpd_otp (s : Dev) (u : Nat) (f : Uart → Uart) : (s.uartUpd u f).otp = s.otp := (rfl)
@[simp] theorem Dev.uartUpd_rtc (s : Dev) (u : Nat) (f : Uart → Uart) : (s.uartUpd u f).rtc = s.rtc := (rfl)
@[simp] theorem Dev.uartUpd_plc (s : Dev) (u : Nat) (f : Uart → Uart) : (s.uartUpd u f).plc = s.plc := (rfl)
@[simp] theorem Dev.uartUpd_mesh (s : Dev) (u : Nat) (f : Uart → Uart) : (s.uartUpd u f).mesh = s.mesh := (rfl)
@[simp] theorem Dev.uartUpd_upd (s : Dev) (u : Nat) (f : Uart → Uart) : (s.uartUpd u f).upd = s.upd := (rfl)
@[simp] theorem Dev.uartUpd_bist (s : Dev) (u : Nat) (f : Uart → Uart) : (s.uartUpd u f).bist = s.bist := (rfl)
@[simp] theorem Dev.uartUpd_host (s : Dev) (u : Nat) (f : Uart → Uart) : (s.uartUpd u f).host = { s.host with uarts := updAt s.host.uarts u f } := (rfl)
@[simp] theorem Dev.uartUpd_rd (s : Dev) (u : Nat) (f : Uart → Uart) (q : Nat) : (s.uartUpd u f).rd q = s.rd q := (rfl)
@[simp] theorem Dev.uartUpd_get (s : Dev) (u : Nat) (f : Uart → Uart) (x : Field) : (s.uartUpd u f).get x = s.get x := (rfl)
@[simp] theorem Dev.uartUpd_on (s : Dev) (u : Nat) (f : Uart → Uart) (x : Field) : (s.uartUpd u f).on x = s.on x := (rfl)

/-! ### `Dev.hostUpd` -/
@[simp] theorem Dev.hostUpd_regs (s : Dev) (f : HostIf → HostIf) : (s.hostUpd f).regs = s.regs := (rfl)
@[simp] theorem Dev.hostUpd_mt (s : Dev) (f : HostIf → HostIf) : (s.hostUpd f).mt = s.mt := (rfl)
@[simp] theorem Dev.hostUpd_free (s : Dev) (f : HostIf → HostIf) : (s.hostUpd f).free = s.free := (rfl)
@[simp] theorem Dev.hostUpd_power (s : Dev) (f : HostIf → HostIf) : (s.hostUpd f).power = s.power := (rfl)
@[simp] theorem Dev.hostUpd_clk (s : Dev) (f : HostIf → HostIf) : (s.hostUpd f).clk = s.clk := (rfl)
@[simp] theorem Dev.hostUpd_pins (s : Dev) (f : HostIf → HostIf) : (s.hostUpd f).pins = s.pins := (rfl)
@[simp] theorem Dev.hostUpd_bus (s : Dev) (f : HostIf → HostIf) : (s.hostUpd f).bus = s.bus := (rfl)
@[simp] theorem Dev.hostUpd_cap (s : Dev) (f : HostIf → HostIf) : (s.hostUpd f).cap = s.cap := (rfl)
@[simp] theorem Dev.hostUpd_fe (s : Dev) (f : HostIf → HostIf) : (s.hostUpd f).fe = s.fe := (rfl)
@[simp] theorem Dev.hostUpd_temps (s : Dev) (f : HostIf → HostIf) : (s.hostUpd f).temps = s.temps := (rfl)
@[simp] theorem Dev.hostUpd_meter (s : Dev) (f : HostIf → HostIf) : (s.hostUpd f).meter = s.meter := (rfl)
@[simp] theorem Dev.hostUpd_pulse (s : Dev) (f : HostIf → HostIf) : (s.hostUpd f).pulse = s.pulse := (rfl)
@[simp] theorem Dev.hostUpd_pulseCal (s : Dev) (f : HostIf → HostIf) : (s.hostUpd f).pulseCal = s.pulseCal := (rfl)
@[simp] theorem Dev.hostUpd_harm (s : Dev) (f : HostIf → HostIf) : (s.hostUpd f).harm = s.harm := (rfl)
@[simp] theorem Dev.hostUpd_eye (s : Dev) (f : HostIf → HostIf) : (s.hostUpd f).eye = s.eye := (rfl)
@[simp] theorem Dev.hostUpd_bill (s : Dev) (f : HostIf → HostIf) : (s.hostUpd f).bill = s.bill := (rfl)
@[simp] theorem Dev.hostUpd_mram (s : Dev) (f : HostIf → HostIf) : (s.hostUpd f).mram = s.mram := (rfl)
@[simp] theorem Dev.hostUpd_prepay (s : Dev) (f : HostIf → HostIf) : (s.hostUpd f).prepay = s.prepay := (rfl)
@[simp] theorem Dev.hostUpd_disc (s : Dev) (f : HostIf → HostIf) : (s.hostUpd f).disc = s.disc := (rfl)
@[simp] theorem Dev.hostUpd_disp (s : Dev) (f : HostIf → HostIf) : (s.hostUpd f).disp = s.disp := (rfl)
@[simp] theorem Dev.hostUpd_tamp (s : Dev) (f : HostIf → HostIf) : (s.hostUpd f).tamp = s.tamp := (rfl)
@[simp] theorem Dev.hostUpd_sec (s : Dev) (f : HostIf → HostIf) : (s.hostUpd f).sec = s.sec := (rfl)
@[simp] theorem Dev.hostUpd_otp (s : Dev) (f : HostIf → HostIf) : (s.hostUpd f).otp = s.otp := (rfl)
@[simp] theorem Dev.hostUpd_rtc (s : Dev) (f : HostIf → HostIf) : (s.hostUpd f).rtc = s.rtc := (rfl)
@[simp] theorem Dev.hostUpd_plc (s : Dev) (f : HostIf → HostIf) : (s.hostUpd f).plc = s.plc := (rfl)
@[simp] theorem Dev.hostUpd_mesh (s : Dev) (f : HostIf → HostIf) : (s.hostUpd f).mesh = s.mesh := (rfl)
@[simp] theorem Dev.hostUpd_upd (s : Dev) (f : HostIf → HostIf) : (s.hostUpd f).upd = s.upd := (rfl)
@[simp] theorem Dev.hostUpd_bist (s : Dev) (f : HostIf → HostIf) : (s.hostUpd f).bist = s.bist := (rfl)
@[simp] theorem Dev.hostUpd_host (s : Dev) (f : HostIf → HostIf) : (s.hostUpd f).host = f s.host := (rfl)
@[simp] theorem Dev.hostUpd_rd (s : Dev) (f : HostIf → HostIf) (q : Nat) : (s.hostUpd f).rd q = s.rd q := (rfl)
@[simp] theorem Dev.hostUpd_get (s : Dev) (f : HostIf → HostIf) (x : Field) : (s.hostUpd f).get x = s.get x := (rfl)
@[simp] theorem Dev.hostUpd_on (s : Dev) (f : HostIf → HostIf) (x : Field) : (s.hostUpd f).on x = s.on x := (rfl)

/-! ### `Dev.dmPut` -/
@[simp] theorem Dev.dmPut_regs (s : Dev) (a : Nat) (w : Word) : (s.dmPut a w).regs = s.regs := (rfl)
@[simp] theorem Dev.dmPut_mt (s : Dev) (a : Nat) (w : Word) : (s.dmPut a w).mt = s.mt := (rfl)
@[simp] theorem Dev.dmPut_free (s : Dev) (a : Nat) (w : Word) : (s.dmPut a w).free = s.free := (rfl)
@[simp] theorem Dev.dmPut_power (s : Dev) (a : Nat) (w : Word) : (s.dmPut a w).power = s.power := (rfl)
@[simp] theorem Dev.dmPut_clk (s : Dev) (a : Nat) (w : Word) : (s.dmPut a w).clk = s.clk := (rfl)
@[simp] theorem Dev.dmPut_pins (s : Dev) (a : Nat) (w : Word) : (s.dmPut a w).pins = s.pins := (rfl)
@[simp] theorem Dev.dmPut_bus (s : Dev) (a : Nat) (w : Word) : (s.dmPut a w).bus = s.bus := (rfl)
@[simp] theorem Dev.dmPut_cap (s : Dev) (a : Nat) (w : Word) : (s.dmPut a w).cap = s.cap := (rfl)
@[simp] theorem Dev.dmPut_fe (s : Dev) (a : Nat) (w : Word) : (s.dmPut a w).fe = s.fe := (rfl)
@[simp] theorem Dev.dmPut_temps (s : Dev) (a : Nat) (w : Word) : (s.dmPut a w).temps = s.temps := (rfl)
@[simp] theorem Dev.dmPut_meter (s : Dev) (a : Nat) (w : Word) : (s.dmPut a w).meter = s.meter := (rfl)
@[simp] theorem Dev.dmPut_pulse (s : Dev) (a : Nat) (w : Word) : (s.dmPut a w).pulse = s.pulse := (rfl)
@[simp] theorem Dev.dmPut_pulseCal (s : Dev) (a : Nat) (w : Word) : (s.dmPut a w).pulseCal = s.pulseCal := (rfl)
@[simp] theorem Dev.dmPut_harm (s : Dev) (a : Nat) (w : Word) : (s.dmPut a w).harm = s.harm := (rfl)
@[simp] theorem Dev.dmPut_eye (s : Dev) (a : Nat) (w : Word) : (s.dmPut a w).eye = s.eye := (rfl)
@[simp] theorem Dev.dmPut_bill (s : Dev) (a : Nat) (w : Word) : (s.dmPut a w).bill = s.bill := (rfl)
@[simp] theorem Dev.dmPut_mram (s : Dev) (a : Nat) (w : Word) : (s.dmPut a w).mram = s.mram := (rfl)
@[simp] theorem Dev.dmPut_prepay (s : Dev) (a : Nat) (w : Word) : (s.dmPut a w).prepay = s.prepay := (rfl)
@[simp] theorem Dev.dmPut_disc (s : Dev) (a : Nat) (w : Word) : (s.dmPut a w).disc = s.disc := (rfl)
@[simp] theorem Dev.dmPut_disp (s : Dev) (a : Nat) (w : Word) : (s.dmPut a w).disp = s.disp := (rfl)
@[simp] theorem Dev.dmPut_tamp (s : Dev) (a : Nat) (w : Word) : (s.dmPut a w).tamp = s.tamp := (rfl)
@[simp] theorem Dev.dmPut_sec (s : Dev) (a : Nat) (w : Word) : (s.dmPut a w).sec = s.sec := (rfl)
@[simp] theorem Dev.dmPut_otp (s : Dev) (a : Nat) (w : Word) : (s.dmPut a w).otp = s.otp := (rfl)
@[simp] theorem Dev.dmPut_rtc (s : Dev) (a : Nat) (w : Word) : (s.dmPut a w).rtc = s.rtc := (rfl)
@[simp] theorem Dev.dmPut_plc (s : Dev) (a : Nat) (w : Word) : (s.dmPut a w).plc = s.plc := (rfl)
@[simp] theorem Dev.dmPut_mesh (s : Dev) (a : Nat) (w : Word) : (s.dmPut a w).mesh = s.mesh := (rfl)
@[simp] theorem Dev.dmPut_upd (s : Dev) (a : Nat) (w : Word) : (s.dmPut a w).upd = s.upd := (rfl)
@[simp] theorem Dev.dmPut_bist (s : Dev) (a : Nat) (w : Word) : (s.dmPut a w).bist = s.bist := (rfl)
@[simp] theorem Dev.dmPut_host (s : Dev) (a : Nat) (w : Word) : (s.dmPut a w).host = { s.host with dmi := assign s.host.dmi a w } := (rfl)
@[simp] theorem Dev.dmPut_rd (s : Dev) (a : Nat) (w : Word) (q : Nat) : (s.dmPut a w).rd q = s.rd q := (rfl)
@[simp] theorem Dev.dmPut_get (s : Dev) (a : Nat) (w : Word) (x : Field) : (s.dmPut a w).get x = s.get x := (rfl)
@[simp] theorem Dev.dmPut_on (s : Dev) (a : Nat) (w : Word) (x : Field) : (s.dmPut a w).on x = s.on x := (rfl)

/-! ### `Dev.discUpd` -/
@[simp] theorem Dev.discUpd_regs (s : Dev) (f : Disc → Disc) : (s.discUpd f).regs = s.regs := (rfl)
@[simp] theorem Dev.discUpd_mt (s : Dev) (f : Disc → Disc) : (s.discUpd f).mt = s.mt := (rfl)
@[simp] theorem Dev.discUpd_free (s : Dev) (f : Disc → Disc) : (s.discUpd f).free = s.free := (rfl)
@[simp] theorem Dev.discUpd_power (s : Dev) (f : Disc → Disc) : (s.discUpd f).power = s.power := (rfl)
@[simp] theorem Dev.discUpd_clk (s : Dev) (f : Disc → Disc) : (s.discUpd f).clk = s.clk := (rfl)
@[simp] theorem Dev.discUpd_pins (s : Dev) (f : Disc → Disc) : (s.discUpd f).pins = s.pins := (rfl)
@[simp] theorem Dev.discUpd_bus (s : Dev) (f : Disc → Disc) : (s.discUpd f).bus = s.bus := (rfl)
@[simp] theorem Dev.discUpd_cap (s : Dev) (f : Disc → Disc) : (s.discUpd f).cap = s.cap := (rfl)
@[simp] theorem Dev.discUpd_fe (s : Dev) (f : Disc → Disc) : (s.discUpd f).fe = s.fe := (rfl)
@[simp] theorem Dev.discUpd_temps (s : Dev) (f : Disc → Disc) : (s.discUpd f).temps = s.temps := (rfl)
@[simp] theorem Dev.discUpd_meter (s : Dev) (f : Disc → Disc) : (s.discUpd f).meter = s.meter := (rfl)
@[simp] theorem Dev.discUpd_pulse (s : Dev) (f : Disc → Disc) : (s.discUpd f).pulse = s.pulse := (rfl)
@[simp] theorem Dev.discUpd_pulseCal (s : Dev) (f : Disc → Disc) : (s.discUpd f).pulseCal = s.pulseCal := (rfl)
@[simp] theorem Dev.discUpd_harm (s : Dev) (f : Disc → Disc) : (s.discUpd f).harm = s.harm := (rfl)
@[simp] theorem Dev.discUpd_eye (s : Dev) (f : Disc → Disc) : (s.discUpd f).eye = s.eye := (rfl)
@[simp] theorem Dev.discUpd_bill (s : Dev) (f : Disc → Disc) : (s.discUpd f).bill = s.bill := (rfl)
@[simp] theorem Dev.discUpd_mram (s : Dev) (f : Disc → Disc) : (s.discUpd f).mram = s.mram := (rfl)
@[simp] theorem Dev.discUpd_prepay (s : Dev) (f : Disc → Disc) : (s.discUpd f).prepay = s.prepay := (rfl)
@[simp] theorem Dev.discUpd_disp (s : Dev) (f : Disc → Disc) : (s.discUpd f).disp = s.disp := (rfl)
@[simp] theorem Dev.discUpd_tamp (s : Dev) (f : Disc → Disc) : (s.discUpd f).tamp = s.tamp := (rfl)
@[simp] theorem Dev.discUpd_sec (s : Dev) (f : Disc → Disc) : (s.discUpd f).sec = s.sec := (rfl)
@[simp] theorem Dev.discUpd_otp (s : Dev) (f : Disc → Disc) : (s.discUpd f).otp = s.otp := (rfl)
@[simp] theorem Dev.discUpd_rtc (s : Dev) (f : Disc → Disc) : (s.discUpd f).rtc = s.rtc := (rfl)
@[simp] theorem Dev.discUpd_plc (s : Dev) (f : Disc → Disc) : (s.discUpd f).plc = s.plc := (rfl)
@[simp] theorem Dev.discUpd_mesh (s : Dev) (f : Disc → Disc) : (s.discUpd f).mesh = s.mesh := (rfl)
@[simp] theorem Dev.discUpd_upd (s : Dev) (f : Disc → Disc) : (s.discUpd f).upd = s.upd := (rfl)
@[simp] theorem Dev.discUpd_bist (s : Dev) (f : Disc → Disc) : (s.discUpd f).bist = s.bist := (rfl)
@[simp] theorem Dev.discUpd_host (s : Dev) (f : Disc → Disc) : (s.discUpd f).host = s.host := (rfl)
@[simp] theorem Dev.discUpd_disc (s : Dev) (f : Disc → Disc) : (s.discUpd f).disc = f s.disc := (rfl)
@[simp] theorem Dev.discUpd_rd (s : Dev) (f : Disc → Disc) (q : Nat) : (s.discUpd f).rd q = s.rd q := (rfl)
@[simp] theorem Dev.discUpd_get (s : Dev) (f : Disc → Disc) (x : Field) : (s.discUpd f).get x = s.get x := (rfl)
@[simp] theorem Dev.discUpd_on (s : Dev) (f : Disc → Disc) (x : Field) : (s.discUpd f).on x = s.on x := (rfl)

/-! ### `Dev.dispUpd` -/
@[simp] theorem Dev.dispUpd_regs (s : Dev) (f : Disp → Disp) : (s.dispUpd f).regs = s.regs := (rfl)
@[simp] theorem Dev.dispUpd_mt (s : Dev) (f : Disp → Disp) : (s.dispUpd f).mt = s.mt := (rfl)
@[simp] theorem Dev.dispUpd_free (s : Dev) (f : Disp → Disp) : (s.dispUpd f).free = s.free := (rfl)
@[simp] theorem Dev.dispUpd_power (s : Dev) (f : Disp → Disp) : (s.dispUpd f).power = s.power := (rfl)
@[simp] theorem Dev.dispUpd_clk (s : Dev) (f : Disp → Disp) : (s.dispUpd f).clk = s.clk := (rfl)
@[simp] theorem Dev.dispUpd_pins (s : Dev) (f : Disp → Disp) : (s.dispUpd f).pins = s.pins := (rfl)
@[simp] theorem Dev.dispUpd_bus (s : Dev) (f : Disp → Disp) : (s.dispUpd f).bus = s.bus := (rfl)
@[simp] theorem Dev.dispUpd_cap (s : Dev) (f : Disp → Disp) : (s.dispUpd f).cap = s.cap := (rfl)
@[simp] theorem Dev.dispUpd_fe (s : Dev) (f : Disp → Disp) : (s.dispUpd f).fe = s.fe := (rfl)
@[simp] theorem Dev.dispUpd_temps (s : Dev) (f : Disp → Disp) : (s.dispUpd f).temps = s.temps := (rfl)
@[simp] theorem Dev.dispUpd_meter (s : Dev) (f : Disp → Disp) : (s.dispUpd f).meter = s.meter := (rfl)
@[simp] theorem Dev.dispUpd_pulse (s : Dev) (f : Disp → Disp) : (s.dispUpd f).pulse = s.pulse := (rfl)
@[simp] theorem Dev.dispUpd_pulseCal (s : Dev) (f : Disp → Disp) : (s.dispUpd f).pulseCal = s.pulseCal := (rfl)
@[simp] theorem Dev.dispUpd_harm (s : Dev) (f : Disp → Disp) : (s.dispUpd f).harm = s.harm := (rfl)
@[simp] theorem Dev.dispUpd_eye (s : Dev) (f : Disp → Disp) : (s.dispUpd f).eye = s.eye := (rfl)
@[simp] theorem Dev.dispUpd_bill (s : Dev) (f : Disp → Disp) : (s.dispUpd f).bill = s.bill := (rfl)
@[simp] theorem Dev.dispUpd_mram (s : Dev) (f : Disp → Disp) : (s.dispUpd f).mram = s.mram := (rfl)
@[simp] theorem Dev.dispUpd_prepay (s : Dev) (f : Disp → Disp) : (s.dispUpd f).prepay = s.prepay := (rfl)
@[simp] theorem Dev.dispUpd_disc (s : Dev) (f : Disp → Disp) : (s.dispUpd f).disc = s.disc := (rfl)
@[simp] theorem Dev.dispUpd_tamp (s : Dev) (f : Disp → Disp) : (s.dispUpd f).tamp = s.tamp := (rfl)
@[simp] theorem Dev.dispUpd_sec (s : Dev) (f : Disp → Disp) : (s.dispUpd f).sec = s.sec := (rfl)
@[simp] theorem Dev.dispUpd_otp (s : Dev) (f : Disp → Disp) : (s.dispUpd f).otp = s.otp := (rfl)
@[simp] theorem Dev.dispUpd_rtc (s : Dev) (f : Disp → Disp) : (s.dispUpd f).rtc = s.rtc := (rfl)
@[simp] theorem Dev.dispUpd_plc (s : Dev) (f : Disp → Disp) : (s.dispUpd f).plc = s.plc := (rfl)
@[simp] theorem Dev.dispUpd_mesh (s : Dev) (f : Disp → Disp) : (s.dispUpd f).mesh = s.mesh := (rfl)
@[simp] theorem Dev.dispUpd_upd (s : Dev) (f : Disp → Disp) : (s.dispUpd f).upd = s.upd := (rfl)
@[simp] theorem Dev.dispUpd_bist (s : Dev) (f : Disp → Disp) : (s.dispUpd f).bist = s.bist := (rfl)
@[simp] theorem Dev.dispUpd_host (s : Dev) (f : Disp → Disp) : (s.dispUpd f).host = s.host := (rfl)
@[simp] theorem Dev.dispUpd_disp (s : Dev) (f : Disp → Disp) : (s.dispUpd f).disp = f s.disp := (rfl)
@[simp] theorem Dev.dispUpd_rd (s : Dev) (f : Disp → Disp) (q : Nat) : (s.dispUpd f).rd q = s.rd q := (rfl)
@[simp] theorem Dev.dispUpd_get (s : Dev) (f : Disp → Disp) (x : Field) : (s.dispUpd f).get x = s.get x := (rfl)
@[simp] theorem Dev.dispUpd_on (s : Dev) (f : Disp → Disp) (x : Field) : (s.dispUpd f).on x = s.on x := (rfl)

/-! ### `Dev.blkUpd` -/
@[simp] theorem Dev.blkUpd_regs (s : Dev) (b : Nat) (f : Block → Block) : (s.blkUpd b f).regs = s.regs := (rfl)
@[simp] theorem Dev.blkUpd_mt (s : Dev) (b : Nat) (f : Block → Block) : (s.blkUpd b f).mt = s.mt := (rfl)
@[simp] theorem Dev.blkUpd_free (s : Dev) (b : Nat) (f : Block → Block) : (s.blkUpd b f).free = s.free := (rfl)
@[simp] theorem Dev.blkUpd_power (s : Dev) (b : Nat) (f : Block → Block) : (s.blkUpd b f).power = s.power := (rfl)
@[simp] theorem Dev.blkUpd_clk (s : Dev) (b : Nat) (f : Block → Block) : (s.blkUpd b f).clk = s.clk := (rfl)
@[simp] theorem Dev.blkUpd_pins (s : Dev) (b : Nat) (f : Block → Block) : (s.blkUpd b f).pins = s.pins := (rfl)
@[simp] theorem Dev.blkUpd_bus (s : Dev) (b : Nat) (f : Block → Block) : (s.blkUpd b f).bus = s.bus := (rfl)
@[simp] theorem Dev.blkUpd_cap (s : Dev) (b : Nat) (f : Block → Block) : (s.blkUpd b f).cap = s.cap := (rfl)
@[simp] theorem Dev.blkUpd_temps (s : Dev) (b : Nat) (f : Block → Block) : (s.blkUpd b f).temps = s.temps := (rfl)
@[simp] theorem Dev.blkUpd_meter (s : Dev) (b : Nat) (f : Block → Block) : (s.blkUpd b f).meter = s.meter := (rfl)
@[simp] theorem Dev.blkUpd_pulse (s : Dev) (b : Nat) (f : Block → Block) : (s.blkUpd b f).pulse = s.pulse := (rfl)
@[simp] theorem Dev.blkUpd_pulseCal (s : Dev) (b : Nat) (f : Block → Block) : (s.blkUpd b f).pulseCal = s.pulseCal := (rfl)
@[simp] theorem Dev.blkUpd_harm (s : Dev) (b : Nat) (f : Block → Block) : (s.blkUpd b f).harm = s.harm := (rfl)
@[simp] theorem Dev.blkUpd_eye (s : Dev) (b : Nat) (f : Block → Block) : (s.blkUpd b f).eye = s.eye := (rfl)
@[simp] theorem Dev.blkUpd_bill (s : Dev) (b : Nat) (f : Block → Block) : (s.blkUpd b f).bill = s.bill := (rfl)
@[simp] theorem Dev.blkUpd_mram (s : Dev) (b : Nat) (f : Block → Block) : (s.blkUpd b f).mram = s.mram := (rfl)
@[simp] theorem Dev.blkUpd_prepay (s : Dev) (b : Nat) (f : Block → Block) : (s.blkUpd b f).prepay = s.prepay := (rfl)
@[simp] theorem Dev.blkUpd_disc (s : Dev) (b : Nat) (f : Block → Block) : (s.blkUpd b f).disc = s.disc := (rfl)
@[simp] theorem Dev.blkUpd_disp (s : Dev) (b : Nat) (f : Block → Block) : (s.blkUpd b f).disp = s.disp := (rfl)
@[simp] theorem Dev.blkUpd_tamp (s : Dev) (b : Nat) (f : Block → Block) : (s.blkUpd b f).tamp = s.tamp := (rfl)
@[simp] theorem Dev.blkUpd_sec (s : Dev) (b : Nat) (f : Block → Block) : (s.blkUpd b f).sec = s.sec := (rfl)
@[simp] theorem Dev.blkUpd_otp (s : Dev) (b : Nat) (f : Block → Block) : (s.blkUpd b f).otp = s.otp := (rfl)
@[simp] theorem Dev.blkUpd_rtc (s : Dev) (b : Nat) (f : Block → Block) : (s.blkUpd b f).rtc = s.rtc := (rfl)
@[simp] theorem Dev.blkUpd_plc (s : Dev) (b : Nat) (f : Block → Block) : (s.blkUpd b f).plc = s.plc := (rfl)
@[simp] theorem Dev.blkUpd_mesh (s : Dev) (b : Nat) (f : Block → Block) : (s.blkUpd b f).mesh = s.mesh := (rfl)
@[simp] theorem Dev.blkUpd_upd (s : Dev) (b : Nat) (f : Block → Block) : (s.blkUpd b f).upd = s.upd := (rfl)
@[simp] theorem Dev.blkUpd_bist (s : Dev) (b : Nat) (f : Block → Block) : (s.blkUpd b f).bist = s.bist := (rfl)
@[simp] theorem Dev.blkUpd_host (s : Dev) (b : Nat) (f : Block → Block) : (s.blkUpd b f).host = s.host := (rfl)
@[simp] theorem Dev.blkUpd_fe (s : Dev) (b : Nat) (f : Block → Block) : (s.blkUpd b f).fe = { s.fe with blocks := updAt s.fe.blocks b f } := (rfl)
@[simp] theorem Dev.blkUpd_rd (s : Dev) (b : Nat) (f : Block → Block) (q : Nat) : (s.blkUpd b f).rd q = s.rd q := (rfl)
@[simp] theorem Dev.blkUpd_get (s : Dev) (b : Nat) (f : Block → Block) (x : Field) : (s.blkUpd b f).get x = s.get x := (rfl)
@[simp] theorem Dev.blkUpd_on (s : Dev) (b : Nat) (f : Block → Block) (x : Field) : (s.blkUpd b f).on x = s.on x := (rfl)

/-! ### `Dev.vrefUpd` -/
@[simp] theorem Dev.vrefUpd_regs (s : Dev) (r : Nat) (f : VRef → VRef) : (s.vrefUpd r f).regs = s.regs := (rfl)
@[simp] theorem Dev.vrefUpd_mt (s : Dev) (r : Nat) (f : VRef → VRef) : (s.vrefUpd r f).mt = s.mt := (rfl)
@[simp] theorem Dev.vrefUpd_free (s : Dev) (r : Nat) (f : VRef → VRef) : (s.vrefUpd r f).free = s.free := (rfl)
@[simp] theorem Dev.vrefUpd_power (s : Dev) (r : Nat) (f : VRef → VRef) : (s.vrefUpd r f).power = s.power := (rfl)
@[simp] theorem Dev.vrefUpd_clk (s : Dev) (r : Nat) (f : VRef → VRef) : (s.vrefUpd r f).clk = s.clk := (rfl)
@[simp] theorem Dev.vrefUpd_pins (s : Dev) (r : Nat) (f : VRef → VRef) : (s.vrefUpd r f).pins = s.pins := (rfl)
@[simp] theorem Dev.vrefUpd_bus (s : Dev) (r : Nat) (f : VRef → VRef) : (s.vrefUpd r f).bus = s.bus := (rfl)
@[simp] theorem Dev.vrefUpd_cap (s : Dev) (r : Nat) (f : VRef → VRef) : (s.vrefUpd r f).cap = s.cap := (rfl)
@[simp] theorem Dev.vrefUpd_temps (s : Dev) (r : Nat) (f : VRef → VRef) : (s.vrefUpd r f).temps = s.temps := (rfl)
@[simp] theorem Dev.vrefUpd_meter (s : Dev) (r : Nat) (f : VRef → VRef) : (s.vrefUpd r f).meter = s.meter := (rfl)
@[simp] theorem Dev.vrefUpd_pulse (s : Dev) (r : Nat) (f : VRef → VRef) : (s.vrefUpd r f).pulse = s.pulse := (rfl)
@[simp] theorem Dev.vrefUpd_pulseCal (s : Dev) (r : Nat) (f : VRef → VRef) : (s.vrefUpd r f).pulseCal = s.pulseCal := (rfl)
@[simp] theorem Dev.vrefUpd_harm (s : Dev) (r : Nat) (f : VRef → VRef) : (s.vrefUpd r f).harm = s.harm := (rfl)
@[simp] theorem Dev.vrefUpd_eye (s : Dev) (r : Nat) (f : VRef → VRef) : (s.vrefUpd r f).eye = s.eye := (rfl)
@[simp] theorem Dev.vrefUpd_bill (s : Dev) (r : Nat) (f : VRef → VRef) : (s.vrefUpd r f).bill = s.bill := (rfl)
@[simp] theorem Dev.vrefUpd_mram (s : Dev) (r : Nat) (f : VRef → VRef) : (s.vrefUpd r f).mram = s.mram := (rfl)
@[simp] theorem Dev.vrefUpd_prepay (s : Dev) (r : Nat) (f : VRef → VRef) : (s.vrefUpd r f).prepay = s.prepay := (rfl)
@[simp] theorem Dev.vrefUpd_disc (s : Dev) (r : Nat) (f : VRef → VRef) : (s.vrefUpd r f).disc = s.disc := (rfl)
@[simp] theorem Dev.vrefUpd_disp (s : Dev) (r : Nat) (f : VRef → VRef) : (s.vrefUpd r f).disp = s.disp := (rfl)
@[simp] theorem Dev.vrefUpd_tamp (s : Dev) (r : Nat) (f : VRef → VRef) : (s.vrefUpd r f).tamp = s.tamp := (rfl)
@[simp] theorem Dev.vrefUpd_sec (s : Dev) (r : Nat) (f : VRef → VRef) : (s.vrefUpd r f).sec = s.sec := (rfl)
@[simp] theorem Dev.vrefUpd_otp (s : Dev) (r : Nat) (f : VRef → VRef) : (s.vrefUpd r f).otp = s.otp := (rfl)
@[simp] theorem Dev.vrefUpd_rtc (s : Dev) (r : Nat) (f : VRef → VRef) : (s.vrefUpd r f).rtc = s.rtc := (rfl)
@[simp] theorem Dev.vrefUpd_plc (s : Dev) (r : Nat) (f : VRef → VRef) : (s.vrefUpd r f).plc = s.plc := (rfl)
@[simp] theorem Dev.vrefUpd_mesh (s : Dev) (r : Nat) (f : VRef → VRef) : (s.vrefUpd r f).mesh = s.mesh := (rfl)
@[simp] theorem Dev.vrefUpd_upd (s : Dev) (r : Nat) (f : VRef → VRef) : (s.vrefUpd r f).upd = s.upd := (rfl)
@[simp] theorem Dev.vrefUpd_bist (s : Dev) (r : Nat) (f : VRef → VRef) : (s.vrefUpd r f).bist = s.bist := (rfl)
@[simp] theorem Dev.vrefUpd_host (s : Dev) (r : Nat) (f : VRef → VRef) : (s.vrefUpd r f).host = s.host := (rfl)
@[simp] theorem Dev.vrefUpd_fe (s : Dev) (r : Nat) (f : VRef → VRef) : (s.vrefUpd r f).fe = { s.fe with refs := updAt s.fe.refs r f } := (rfl)
@[simp] theorem Dev.vrefUpd_rd (s : Dev) (r : Nat) (f : VRef → VRef) (q : Nat) : (s.vrefUpd r f).rd q = s.rd q := (rfl)
@[simp] theorem Dev.vrefUpd_get (s : Dev) (r : Nat) (f : VRef → VRef) (x : Field) : (s.vrefUpd r f).get x = s.get x := (rfl)
@[simp] theorem Dev.vrefUpd_on (s : Dev) (r : Nat) (f : VRef → VRef) (x : Field) : (s.vrefUpd r f).on x = s.on x := (rfl)

/-! ### `Dev.hgUpd` -/
@[simp] theorem Dev.hgUpd_regs (s : Dev) (g : Nat) (f : HarmGrp → HarmGrp) : (s.hgUpd g f).regs = s.regs := (rfl)
@[simp] theorem Dev.hgUpd_mt (s : Dev) (g : Nat) (f : HarmGrp → HarmGrp) : (s.hgUpd g f).mt = s.mt := (rfl)
@[simp] theorem Dev.hgUpd_free (s : Dev) (g : Nat) (f : HarmGrp → HarmGrp) : (s.hgUpd g f).free = s.free := (rfl)
@[simp] theorem Dev.hgUpd_power (s : Dev) (g : Nat) (f : HarmGrp → HarmGrp) : (s.hgUpd g f).power = s.power := (rfl)
@[simp] theorem Dev.hgUpd_clk (s : Dev) (g : Nat) (f : HarmGrp → HarmGrp) : (s.hgUpd g f).clk = s.clk := (rfl)
@[simp] theorem Dev.hgUpd_pins (s : Dev) (g : Nat) (f : HarmGrp → HarmGrp) : (s.hgUpd g f).pins = s.pins := (rfl)
@[simp] theorem Dev.hgUpd_bus (s : Dev) (g : Nat) (f : HarmGrp → HarmGrp) : (s.hgUpd g f).bus = s.bus := (rfl)
@[simp] theorem Dev.hgUpd_cap (s : Dev) (g : Nat) (f : HarmGrp → HarmGrp) : (s.hgUpd g f).cap = s.cap := (rfl)
@[simp] theorem Dev.hgUpd_fe (s : Dev) (g : Nat) (f : HarmGrp → HarmGrp) : (s.hgUpd g f).fe = s.fe := (rfl)
@[simp] theorem Dev.hgUpd_temps (s : Dev) (g : Nat) (f : HarmGrp → HarmGrp) : (s.hgUpd g f).temps = s.temps := (rfl)
@[simp] theorem Dev.hgUpd_meter (s : Dev) (g : Nat) (f : HarmGrp → HarmGrp) : (s.hgUpd g f).meter = s.meter := (rfl)
@[simp] theorem Dev.hgUpd_pulse (s : Dev) (g : Nat) (f : HarmGrp → HarmGrp) : (s.hgUpd g f).pulse = s.pulse := (rfl)
@[simp] theorem Dev.hgUpd_pulseCal (s : Dev) (g : Nat) (f : HarmGrp → HarmGrp) : (s.hgUpd g f).pulseCal = s.pulseCal := (rfl)
@[simp] theorem Dev.hgUpd_eye (s : Dev) (g : Nat) (f : HarmGrp → HarmGrp) : (s.hgUpd g f).eye = s.eye := (rfl)
@[simp] theorem Dev.hgUpd_bill (s : Dev) (g : Nat) (f : HarmGrp → HarmGrp) : (s.hgUpd g f).bill = s.bill := (rfl)
@[simp] theorem Dev.hgUpd_mram (s : Dev) (g : Nat) (f : HarmGrp → HarmGrp) : (s.hgUpd g f).mram = s.mram := (rfl)
@[simp] theorem Dev.hgUpd_prepay (s : Dev) (g : Nat) (f : HarmGrp → HarmGrp) : (s.hgUpd g f).prepay = s.prepay := (rfl)
@[simp] theorem Dev.hgUpd_disc (s : Dev) (g : Nat) (f : HarmGrp → HarmGrp) : (s.hgUpd g f).disc = s.disc := (rfl)
@[simp] theorem Dev.hgUpd_disp (s : Dev) (g : Nat) (f : HarmGrp → HarmGrp) : (s.hgUpd g f).disp = s.disp := (rfl)
@[simp] theorem Dev.hgUpd_tamp (s : Dev) (g : Nat) (f : HarmGrp → HarmGrp) : (s.hgUpd g f).tamp = s.tamp := (rfl)
@[simp] theorem Dev.hgUpd_sec (s : Dev) (g : Nat) (f : HarmGrp → HarmGrp) : (s.hgUpd g f).sec = s.sec := (rfl)
@[simp] theorem Dev.hgUpd_otp (s : Dev) (g : Nat) (f : HarmGrp → HarmGrp) : (s.hgUpd g f).otp = s.otp := (rfl)
@[simp] theorem Dev.hgUpd_rtc (s : Dev) (g : Nat) (f : HarmGrp → HarmGrp) : (s.hgUpd g f).rtc = s.rtc := (rfl)
@[simp] theorem Dev.hgUpd_plc (s : Dev) (g : Nat) (f : HarmGrp → HarmGrp) : (s.hgUpd g f).plc = s.plc := (rfl)
@[simp] theorem Dev.hgUpd_mesh (s : Dev) (g : Nat) (f : HarmGrp → HarmGrp) : (s.hgUpd g f).mesh = s.mesh := (rfl)
@[simp] theorem Dev.hgUpd_upd (s : Dev) (g : Nat) (f : HarmGrp → HarmGrp) : (s.hgUpd g f).upd = s.upd := (rfl)
@[simp] theorem Dev.hgUpd_bist (s : Dev) (g : Nat) (f : HarmGrp → HarmGrp) : (s.hgUpd g f).bist = s.bist := (rfl)
@[simp] theorem Dev.hgUpd_host (s : Dev) (g : Nat) (f : HarmGrp → HarmGrp) : (s.hgUpd g f).host = s.host := (rfl)
@[simp] theorem Dev.hgUpd_harm (s : Dev) (g : Nat) (f : HarmGrp → HarmGrp) : (s.hgUpd g f).harm = { s.harm with grp := updAt s.harm.grp g f } := (rfl)
@[simp] theorem Dev.hgUpd_rd (s : Dev) (g : Nat) (f : HarmGrp → HarmGrp) (q : Nat) : (s.hgUpd g f).rd q = s.rd q := (rfl)
@[simp] theorem Dev.hgUpd_get (s : Dev) (g : Nat) (f : HarmGrp → HarmGrp) (x : Field) : (s.hgUpd g f).get x = s.get x := (rfl)
@[simp] theorem Dev.hgUpd_on (s : Dev) (g : Nat) (f : HarmGrp → HarmGrp) (x : Field) : (s.hgUpd g f).on x = s.on x := (rfl)

/-! ### `Dev.trkUpd` -/
@[simp] theorem Dev.trkUpd_regs (s : Dev) (g : Nat) (f : Tracker → Tracker) : (s.trkUpd g f).regs = s.regs := (rfl)
@[simp] theorem Dev.trkUpd_mt (s : Dev) (g : Nat) (f : Tracker → Tracker) : (s.trkUpd g f).mt = s.mt := (rfl)
@[simp] theorem Dev.trkUpd_free (s : Dev) (g : Nat) (f : Tracker → Tracker) : (s.trkUpd g f).free = s.free := (rfl)
@[simp] theorem Dev.trkUpd_power (s : Dev) (g : Nat) (f : Tracker → Tracker) : (s.trkUpd g f).power = s.power := (rfl)
@[simp] theorem Dev.trkUpd_clk (s : Dev) (g : Nat) (f : Tracker → Tracker) : (s.trkUpd g f).clk = s.clk := (rfl)
@[simp] theorem Dev.trkUpd_pins (s : Dev) (g : Nat) (f : Tracker → Tracker) : (s.trkUpd g f).pins = s.pins := (rfl)
@[simp] theorem Dev.trkUpd_bus (s : Dev) (g : Nat) (f : Tracker → Tracker) : (s.trkUpd g f).bus = s.bus := (rfl)
@[simp] theorem Dev.trkUpd_cap (s : Dev) (g : Nat) (f : Tracker → Tracker) : (s.trkUpd g f).cap = s.cap := (rfl)
@[simp] theorem Dev.trkUpd_fe (s : Dev) (g : Nat) (f : Tracker → Tracker) : (s.trkUpd g f).fe = s.fe := (rfl)
@[simp] theorem Dev.trkUpd_temps (s : Dev) (g : Nat) (f : Tracker → Tracker) : (s.trkUpd g f).temps = s.temps := (rfl)
@[simp] theorem Dev.trkUpd_pulse (s : Dev) (g : Nat) (f : Tracker → Tracker) : (s.trkUpd g f).pulse = s.pulse := (rfl)
@[simp] theorem Dev.trkUpd_pulseCal (s : Dev) (g : Nat) (f : Tracker → Tracker) : (s.trkUpd g f).pulseCal = s.pulseCal := (rfl)
@[simp] theorem Dev.trkUpd_harm (s : Dev) (g : Nat) (f : Tracker → Tracker) : (s.trkUpd g f).harm = s.harm := (rfl)
@[simp] theorem Dev.trkUpd_eye (s : Dev) (g : Nat) (f : Tracker → Tracker) : (s.trkUpd g f).eye = s.eye := (rfl)
@[simp] theorem Dev.trkUpd_bill (s : Dev) (g : Nat) (f : Tracker → Tracker) : (s.trkUpd g f).bill = s.bill := (rfl)
@[simp] theorem Dev.trkUpd_mram (s : Dev) (g : Nat) (f : Tracker → Tracker) : (s.trkUpd g f).mram = s.mram := (rfl)
@[simp] theorem Dev.trkUpd_prepay (s : Dev) (g : Nat) (f : Tracker → Tracker) : (s.trkUpd g f).prepay = s.prepay := (rfl)
@[simp] theorem Dev.trkUpd_disc (s : Dev) (g : Nat) (f : Tracker → Tracker) : (s.trkUpd g f).disc = s.disc := (rfl)
@[simp] theorem Dev.trkUpd_disp (s : Dev) (g : Nat) (f : Tracker → Tracker) : (s.trkUpd g f).disp = s.disp := (rfl)
@[simp] theorem Dev.trkUpd_tamp (s : Dev) (g : Nat) (f : Tracker → Tracker) : (s.trkUpd g f).tamp = s.tamp := (rfl)
@[simp] theorem Dev.trkUpd_sec (s : Dev) (g : Nat) (f : Tracker → Tracker) : (s.trkUpd g f).sec = s.sec := (rfl)
@[simp] theorem Dev.trkUpd_otp (s : Dev) (g : Nat) (f : Tracker → Tracker) : (s.trkUpd g f).otp = s.otp := (rfl)
@[simp] theorem Dev.trkUpd_rtc (s : Dev) (g : Nat) (f : Tracker → Tracker) : (s.trkUpd g f).rtc = s.rtc := (rfl)
@[simp] theorem Dev.trkUpd_plc (s : Dev) (g : Nat) (f : Tracker → Tracker) : (s.trkUpd g f).plc = s.plc := (rfl)
@[simp] theorem Dev.trkUpd_mesh (s : Dev) (g : Nat) (f : Tracker → Tracker) : (s.trkUpd g f).mesh = s.mesh := (rfl)
@[simp] theorem Dev.trkUpd_upd (s : Dev) (g : Nat) (f : Tracker → Tracker) : (s.trkUpd g f).upd = s.upd := (rfl)
@[simp] theorem Dev.trkUpd_bist (s : Dev) (g : Nat) (f : Tracker → Tracker) : (s.trkUpd g f).bist = s.bist := (rfl)
@[simp] theorem Dev.trkUpd_host (s : Dev) (g : Nat) (f : Tracker → Tracker) : (s.trkUpd g f).host = s.host := (rfl)
@[simp] theorem Dev.trkUpd_meter (s : Dev) (g : Nat) (f : Tracker → Tracker) : (s.trkUpd g f).meter = { s.meter with trk := updAt s.meter.trk g f } := (rfl)
@[simp] theorem Dev.trkUpd_rd (s : Dev) (g : Nat) (f : Tracker → Tracker) (q : Nat) : (s.trkUpd g f).rd q = s.rd q := (rfl)
@[simp] theorem Dev.trkUpd_get (s : Dev) (g : Nat) (f : Tracker → Tracker) (x : Field) : (s.trkUpd g f).get x = s.get x := (rfl)
@[simp] theorem Dev.trkUpd_on (s : Dev) (g : Nat) (f : Tracker → Tracker) (x : Field) : (s.trkUpd g f).on x = s.on x := (rfl)

/-! ### `Dev.pacerUpd` -/
@[simp] theorem Dev.pacerUpd_regs (s : Dev) (w : Nat) (f : Pacer → Pacer) : (s.pacerUpd w f).regs = s.regs := (rfl)
@[simp] theorem Dev.pacerUpd_mt (s : Dev) (w : Nat) (f : Pacer → Pacer) : (s.pacerUpd w f).mt = s.mt := (rfl)
@[simp] theorem Dev.pacerUpd_free (s : Dev) (w : Nat) (f : Pacer → Pacer) : (s.pacerUpd w f).free = s.free := (rfl)
@[simp] theorem Dev.pacerUpd_power (s : Dev) (w : Nat) (f : Pacer → Pacer) : (s.pacerUpd w f).power = s.power := (rfl)
@[simp] theorem Dev.pacerUpd_clk (s : Dev) (w : Nat) (f : Pacer → Pacer) : (s.pacerUpd w f).clk = s.clk := (rfl)
@[simp] theorem Dev.pacerUpd_pins (s : Dev) (w : Nat) (f : Pacer → Pacer) : (s.pacerUpd w f).pins = s.pins := (rfl)
@[simp] theorem Dev.pacerUpd_bus (s : Dev) (w : Nat) (f : Pacer → Pacer) : (s.pacerUpd w f).bus = s.bus := (rfl)
@[simp] theorem Dev.pacerUpd_cap (s : Dev) (w : Nat) (f : Pacer → Pacer) : (s.pacerUpd w f).cap = s.cap := (rfl)
@[simp] theorem Dev.pacerUpd_fe (s : Dev) (w : Nat) (f : Pacer → Pacer) : (s.pacerUpd w f).fe = s.fe := (rfl)
@[simp] theorem Dev.pacerUpd_temps (s : Dev) (w : Nat) (f : Pacer → Pacer) : (s.pacerUpd w f).temps = s.temps := (rfl)
@[simp] theorem Dev.pacerUpd_pulse (s : Dev) (w : Nat) (f : Pacer → Pacer) : (s.pacerUpd w f).pulse = s.pulse := (rfl)
@[simp] theorem Dev.pacerUpd_pulseCal (s : Dev) (w : Nat) (f : Pacer → Pacer) : (s.pacerUpd w f).pulseCal = s.pulseCal := (rfl)
@[simp] theorem Dev.pacerUpd_harm (s : Dev) (w : Nat) (f : Pacer → Pacer) : (s.pacerUpd w f).harm = s.harm := (rfl)
@[simp] theorem Dev.pacerUpd_eye (s : Dev) (w : Nat) (f : Pacer → Pacer) : (s.pacerUpd w f).eye = s.eye := (rfl)
@[simp] theorem Dev.pacerUpd_bill (s : Dev) (w : Nat) (f : Pacer → Pacer) : (s.pacerUpd w f).bill = s.bill := (rfl)
@[simp] theorem Dev.pacerUpd_mram (s : Dev) (w : Nat) (f : Pacer → Pacer) : (s.pacerUpd w f).mram = s.mram := (rfl)
@[simp] theorem Dev.pacerUpd_prepay (s : Dev) (w : Nat) (f : Pacer → Pacer) : (s.pacerUpd w f).prepay = s.prepay := (rfl)
@[simp] theorem Dev.pacerUpd_disc (s : Dev) (w : Nat) (f : Pacer → Pacer) : (s.pacerUpd w f).disc = s.disc := (rfl)
@[simp] theorem Dev.pacerUpd_disp (s : Dev) (w : Nat) (f : Pacer → Pacer) : (s.pacerUpd w f).disp = s.disp := (rfl)
@[simp] theorem Dev.pacerUpd_tamp (s : Dev) (w : Nat) (f : Pacer → Pacer) : (s.pacerUpd w f).tamp = s.tamp := (rfl)
@[simp] theorem Dev.pacerUpd_sec (s : Dev) (w : Nat) (f : Pacer → Pacer) : (s.pacerUpd w f).sec = s.sec := (rfl)
@[simp] theorem Dev.pacerUpd_otp (s : Dev) (w : Nat) (f : Pacer → Pacer) : (s.pacerUpd w f).otp = s.otp := (rfl)
@[simp] theorem Dev.pacerUpd_rtc (s : Dev) (w : Nat) (f : Pacer → Pacer) : (s.pacerUpd w f).rtc = s.rtc := (rfl)
@[simp] theorem Dev.pacerUpd_plc (s : Dev) (w : Nat) (f : Pacer → Pacer) : (s.pacerUpd w f).plc = s.plc := (rfl)
@[simp] theorem Dev.pacerUpd_mesh (s : Dev) (w : Nat) (f : Pacer → Pacer) : (s.pacerUpd w f).mesh = s.mesh := (rfl)
@[simp] theorem Dev.pacerUpd_upd (s : Dev) (w : Nat) (f : Pacer → Pacer) : (s.pacerUpd w f).upd = s.upd := (rfl)
@[simp] theorem Dev.pacerUpd_bist (s : Dev) (w : Nat) (f : Pacer → Pacer) : (s.pacerUpd w f).bist = s.bist := (rfl)
@[simp] theorem Dev.pacerUpd_host (s : Dev) (w : Nat) (f : Pacer → Pacer) : (s.pacerUpd w f).host = s.host := (rfl)
@[simp] theorem Dev.pacerUpd_meter (s : Dev) (w : Nat) (f : Pacer → Pacer) : (s.pacerUpd w f).meter = { s.meter with pacers := updAt s.meter.pacers w f } := (rfl)
@[simp] theorem Dev.pacerUpd_rd (s : Dev) (w : Nat) (f : Pacer → Pacer) (q : Nat) : (s.pacerUpd w f).rd q = s.rd q := (rfl)
@[simp] theorem Dev.pacerUpd_get (s : Dev) (w : Nat) (f : Pacer → Pacer) (x : Field) : (s.pacerUpd w f).get x = s.get x := (rfl)
@[simp] theorem Dev.pacerUpd_on (s : Dev) (w : Nat) (f : Pacer → Pacer) (x : Field) : (s.pacerUpd w f).on x = s.on x := (rfl)

/-! ### `Dev.nbUpd` -/
@[simp] theorem Dev.nbUpd_regs (s : Dev) (i : Nat) (f : Nb → Nb) : (s.nbUpd i f).regs = s.regs := (rfl)
@[simp] theorem Dev.nbUpd_mt (s : Dev) (i : Nat) (f : Nb → Nb) : (s.nbUpd i f).mt = s.mt := (rfl)
@[simp] theorem Dev.nbUpd_free (s : Dev) (i : Nat) (f : Nb → Nb) : (s.nbUpd i f).free = s.free := (rfl)
@[simp] theorem Dev.nbUpd_power (s : Dev) (i : Nat) (f : Nb → Nb) : (s.nbUpd i f).power = s.power := (rfl)
@[simp] theorem Dev.nbUpd_clk (s : Dev) (i : Nat) (f : Nb → Nb) : (s.nbUpd i f).clk = s.clk := (rfl)
@[simp] theorem Dev.nbUpd_pins (s : Dev) (i : Nat) (f : Nb → Nb) : (s.nbUpd i f).pins = s.pins := (rfl)
@[simp] theorem Dev.nbUpd_bus (s : Dev) (i : Nat) (f : Nb → Nb) : (s.nbUpd i f).bus = s.bus := (rfl)
@[simp] theorem Dev.nbUpd_cap (s : Dev) (i : Nat) (f : Nb → Nb) : (s.nbUpd i f).cap = s.cap := (rfl)
@[simp] theorem Dev.nbUpd_fe (s : Dev) (i : Nat) (f : Nb → Nb) : (s.nbUpd i f).fe = s.fe := (rfl)
@[simp] theorem Dev.nbUpd_temps (s : Dev) (i : Nat) (f : Nb → Nb) : (s.nbUpd i f).temps = s.temps := (rfl)
@[simp] theorem Dev.nbUpd_meter (s : Dev) (i : Nat) (f : Nb → Nb) : (s.nbUpd i f).meter = s.meter := (rfl)
@[simp] theorem Dev.nbUpd_pulse (s : Dev) (i : Nat) (f : Nb → Nb) : (s.nbUpd i f).pulse = s.pulse := (rfl)
@[simp] theorem Dev.nbUpd_pulseCal (s : Dev) (i : Nat) (f : Nb → Nb) : (s.nbUpd i f).pulseCal = s.pulseCal := (rfl)
@[simp] theorem Dev.nbUpd_harm (s : Dev) (i : Nat) (f : Nb → Nb) : (s.nbUpd i f).harm = s.harm := (rfl)
@[simp] theorem Dev.nbUpd_eye (s : Dev) (i : Nat) (f : Nb → Nb) : (s.nbUpd i f).eye = s.eye := (rfl)
@[simp] theorem Dev.nbUpd_bill (s : Dev) (i : Nat) (f : Nb → Nb) : (s.nbUpd i f).bill = s.bill := (rfl)
@[simp] theorem Dev.nbUpd_mram (s : Dev) (i : Nat) (f : Nb → Nb) : (s.nbUpd i f).mram = s.mram := (rfl)
@[simp] theorem Dev.nbUpd_prepay (s : Dev) (i : Nat) (f : Nb → Nb) : (s.nbUpd i f).prepay = s.prepay := (rfl)
@[simp] theorem Dev.nbUpd_disc (s : Dev) (i : Nat) (f : Nb → Nb) : (s.nbUpd i f).disc = s.disc := (rfl)
@[simp] theorem Dev.nbUpd_disp (s : Dev) (i : Nat) (f : Nb → Nb) : (s.nbUpd i f).disp = s.disp := (rfl)
@[simp] theorem Dev.nbUpd_tamp (s : Dev) (i : Nat) (f : Nb → Nb) : (s.nbUpd i f).tamp = s.tamp := (rfl)
@[simp] theorem Dev.nbUpd_sec (s : Dev) (i : Nat) (f : Nb → Nb) : (s.nbUpd i f).sec = s.sec := (rfl)
@[simp] theorem Dev.nbUpd_otp (s : Dev) (i : Nat) (f : Nb → Nb) : (s.nbUpd i f).otp = s.otp := (rfl)
@[simp] theorem Dev.nbUpd_rtc (s : Dev) (i : Nat) (f : Nb → Nb) : (s.nbUpd i f).rtc = s.rtc := (rfl)
@[simp] theorem Dev.nbUpd_mesh (s : Dev) (i : Nat) (f : Nb → Nb) : (s.nbUpd i f).mesh = s.mesh := (rfl)
@[simp] theorem Dev.nbUpd_upd (s : Dev) (i : Nat) (f : Nb → Nb) : (s.nbUpd i f).upd = s.upd := (rfl)
@[simp] theorem Dev.nbUpd_bist (s : Dev) (i : Nat) (f : Nb → Nb) : (s.nbUpd i f).bist = s.bist := (rfl)
@[simp] theorem Dev.nbUpd_host (s : Dev) (i : Nat) (f : Nb → Nb) : (s.nbUpd i f).host = s.host := (rfl)
@[simp] theorem Dev.nbUpd_plc (s : Dev) (i : Nat) (f : Nb → Nb) : (s.nbUpd i f).plc = { s.plc with nbs := updAt s.plc.nbs i f } := (rfl)
@[simp] theorem Dev.nbUpd_rd (s : Dev) (i : Nat) (f : Nb → Nb) (q : Nat) : (s.nbUpd i f).rd q = s.rd q := (rfl)
@[simp] theorem Dev.nbUpd_get (s : Dev) (i : Nat) (f : Nb → Nb) (x : Field) : (s.nbUpd i f).get x = s.get x := (rfl)
@[simp] theorem Dev.nbUpd_on (s : Dev) (i : Nat) (f : Nb → Nb) (x : Field) : (s.nbUpd i f).on x = s.on x := (rfl)

/-! ### `Dev.dpUpd` -/
@[simp] theorem Dev.dpUpd_regs (s : Dev) (n : Nat) (f : Dp → Dp) : (s.dpUpd n f).regs = s.regs := (rfl)
@[simp] theorem Dev.dpUpd_mt (s : Dev) (n : Nat) (f : Dp → Dp) : (s.dpUpd n f).mt = s.mt := (rfl)
@[simp] theorem Dev.dpUpd_free (s : Dev) (n : Nat) (f : Dp → Dp) : (s.dpUpd n f).free = s.free := (rfl)
@[simp] theorem Dev.dpUpd_power (s : Dev) (n : Nat) (f : Dp → Dp) : (s.dpUpd n f).power = s.power := (rfl)
@[simp] theorem Dev.dpUpd_clk (s : Dev) (n : Nat) (f : Dp → Dp) : (s.dpUpd n f).clk = s.clk := (rfl)
@[simp] theorem Dev.dpUpd_pins (s : Dev) (n : Nat) (f : Dp → Dp) : (s.dpUpd n f).pins = s.pins := (rfl)
@[simp] theorem Dev.dpUpd_bus (s : Dev) (n : Nat) (f : Dp → Dp) : (s.dpUpd n f).bus = s.bus := (rfl)
@[simp] theorem Dev.dpUpd_cap (s : Dev) (n : Nat) (f : Dp → Dp) : (s.dpUpd n f).cap = s.cap := (rfl)
@[simp] theorem Dev.dpUpd_fe (s : Dev) (n : Nat) (f : Dp → Dp) : (s.dpUpd n f).fe = s.fe := (rfl)
@[simp] theorem Dev.dpUpd_temps (s : Dev) (n : Nat) (f : Dp → Dp) : (s.dpUpd n f).temps = s.temps := (rfl)
@[simp] theorem Dev.dpUpd_meter (s : Dev) (n : Nat) (f : Dp → Dp) : (s.dpUpd n f).meter = s.meter := (rfl)
@[simp] theorem Dev.dpUpd_pulse (s : Dev) (n : Nat) (f : Dp → Dp) : (s.dpUpd n f).pulse = s.pulse := (rfl)
@[simp] theorem Dev.dpUpd_pulseCal (s : Dev) (n : Nat) (f : Dp → Dp) : (s.dpUpd n f).pulseCal = s.pulseCal := (rfl)
@[simp] theorem Dev.dpUpd_harm (s : Dev) (n : Nat) (f : Dp → Dp) : (s.dpUpd n f).harm = s.harm := (rfl)
@[simp] theorem Dev.dpUpd_eye (s : Dev) (n : Nat) (f : Dp → Dp) : (s.dpUpd n f).eye = s.eye := (rfl)
@[simp] theorem Dev.dpUpd_bill (s : Dev) (n : Nat) (f : Dp → Dp) : (s.dpUpd n f).bill = s.bill := (rfl)
@[simp] theorem Dev.dpUpd_mram (s : Dev) (n : Nat) (f : Dp → Dp) : (s.dpUpd n f).mram = s.mram := (rfl)
@[simp] theorem Dev.dpUpd_prepay (s : Dev) (n : Nat) (f : Dp → Dp) : (s.dpUpd n f).prepay = s.prepay := (rfl)
@[simp] theorem Dev.dpUpd_disp (s : Dev) (n : Nat) (f : Dp → Dp) : (s.dpUpd n f).disp = s.disp := (rfl)
@[simp] theorem Dev.dpUpd_tamp (s : Dev) (n : Nat) (f : Dp → Dp) : (s.dpUpd n f).tamp = s.tamp := (rfl)
@[simp] theorem Dev.dpUpd_sec (s : Dev) (n : Nat) (f : Dp → Dp) : (s.dpUpd n f).sec = s.sec := (rfl)
@[simp] theorem Dev.dpUpd_otp (s : Dev) (n : Nat) (f : Dp → Dp) : (s.dpUpd n f).otp = s.otp := (rfl)
@[simp] theorem Dev.dpUpd_rtc (s : Dev) (n : Nat) (f : Dp → Dp) : (s.dpUpd n f).rtc = s.rtc := (rfl)
@[simp] theorem Dev.dpUpd_plc (s : Dev) (n : Nat) (f : Dp → Dp) : (s.dpUpd n f).plc = s.plc := (rfl)
@[simp] theorem Dev.dpUpd_mesh (s : Dev) (n : Nat) (f : Dp → Dp) : (s.dpUpd n f).mesh = s.mesh := (rfl)
@[simp] theorem Dev.dpUpd_upd (s : Dev) (n : Nat) (f : Dp → Dp) : (s.dpUpd n f).upd = s.upd := (rfl)
@[simp] theorem Dev.dpUpd_bist (s : Dev) (n : Nat) (f : Dp → Dp) : (s.dpUpd n f).bist = s.bist := (rfl)
@[simp] theorem Dev.dpUpd_host (s : Dev) (n : Nat) (f : Dp → Dp) : (s.dpUpd n f).host = s.host := (rfl)
@[simp] theorem Dev.dpUpd_disc (s : Dev) (n : Nat) (f : Dp → Dp) : (s.dpUpd n f).disc = { s.disc with dps := updAt s.disc.dps n f } := (rfl)
@[simp] theorem Dev.dpUpd_rd (s : Dev) (n : Nat) (f : Dp → Dp) (q : Nat) : (s.dpUpd n f).rd q = s.rd q := (rfl)
@[simp] theorem Dev.dpUpd_get (s : Dev) (n : Nat) (f : Dp → Dp) (x : Field) : (s.dpUpd n f).get x = s.get x := (rfl)
@[simp] theorem Dev.dpUpd_on (s : Dev) (n : Nat) (f : Dp → Dp) (x : Field) : (s.dpUpd n f).on x = s.on x := (rfl)

/-! ### `Dev.poUpd` -/
@[simp] theorem Dev.poUpd_regs (s : Dev) (n : Nat) (f : PulseOut → PulseOut) : (s.poUpd n f).regs = s.regs := (rfl)
@[simp] theorem Dev.poUpd_mt (s : Dev) (n : Nat) (f : PulseOut → PulseOut) : (s.poUpd n f).mt = s.mt := (rfl)
@[simp] theorem Dev.poUpd_free (s : Dev) (n : Nat) (f : PulseOut → PulseOut) : (s.poUpd n f).free = s.free := (rfl)
@[simp] theorem Dev.poUpd_power (s : Dev) (n : Nat) (f : PulseOut → PulseOut) : (s.poUpd n f).power = s.power := (rfl)
@[simp] theorem Dev.poUpd_clk (s : Dev) (n : Nat) (f : PulseOut → PulseOut) : (s.poUpd n f).clk = s.clk := (rfl)
@[simp] theorem Dev.poUpd_pins (s : Dev) (n : Nat) (f : PulseOut → PulseOut) : (s.poUpd n f).pins = s.pins := (rfl)
@[simp] theorem Dev.poUpd_bus (s : Dev) (n : Nat) (f : PulseOut → PulseOut) : (s.poUpd n f).bus = s.bus := (rfl)
@[simp] theorem Dev.poUpd_cap (s : Dev) (n : Nat) (f : PulseOut → PulseOut) : (s.poUpd n f).cap = s.cap := (rfl)
@[simp] theorem Dev.poUpd_fe (s : Dev) (n : Nat) (f : PulseOut → PulseOut) : (s.poUpd n f).fe = s.fe := (rfl)
@[simp] theorem Dev.poUpd_temps (s : Dev) (n : Nat) (f : PulseOut → PulseOut) : (s.poUpd n f).temps = s.temps := (rfl)
@[simp] theorem Dev.poUpd_meter (s : Dev) (n : Nat) (f : PulseOut → PulseOut) : (s.poUpd n f).meter = s.meter := (rfl)
@[simp] theorem Dev.poUpd_pulseCal (s : Dev) (n : Nat) (f : PulseOut → PulseOut) : (s.poUpd n f).pulseCal = s.pulseCal := (rfl)
@[simp] theorem Dev.poUpd_harm (s : Dev) (n : Nat) (f : PulseOut → PulseOut) : (s.poUpd n f).harm = s.harm := (rfl)
@[simp] theorem Dev.poUpd_eye (s : Dev) (n : Nat) (f : PulseOut → PulseOut) : (s.poUpd n f).eye = s.eye := (rfl)
@[simp] theorem Dev.poUpd_bill (s : Dev) (n : Nat) (f : PulseOut → PulseOut) : (s.poUpd n f).bill = s.bill := (rfl)
@[simp] theorem Dev.poUpd_mram (s : Dev) (n : Nat) (f : PulseOut → PulseOut) : (s.poUpd n f).mram = s.mram := (rfl)
@[simp] theorem Dev.poUpd_prepay (s : Dev) (n : Nat) (f : PulseOut → PulseOut) : (s.poUpd n f).prepay = s.prepay := (rfl)
@[simp] theorem Dev.poUpd_disc (s : Dev) (n : Nat) (f : PulseOut → PulseOut) : (s.poUpd n f).disc = s.disc := (rfl)
@[simp] theorem Dev.poUpd_disp (s : Dev) (n : Nat) (f : PulseOut → PulseOut) : (s.poUpd n f).disp = s.disp := (rfl)
@[simp] theorem Dev.poUpd_tamp (s : Dev) (n : Nat) (f : PulseOut → PulseOut) : (s.poUpd n f).tamp = s.tamp := (rfl)
@[simp] theorem Dev.poUpd_sec (s : Dev) (n : Nat) (f : PulseOut → PulseOut) : (s.poUpd n f).sec = s.sec := (rfl)
@[simp] theorem Dev.poUpd_otp (s : Dev) (n : Nat) (f : PulseOut → PulseOut) : (s.poUpd n f).otp = s.otp := (rfl)
@[simp] theorem Dev.poUpd_rtc (s : Dev) (n : Nat) (f : PulseOut → PulseOut) : (s.poUpd n f).rtc = s.rtc := (rfl)
@[simp] theorem Dev.poUpd_plc (s : Dev) (n : Nat) (f : PulseOut → PulseOut) : (s.poUpd n f).plc = s.plc := (rfl)
@[simp] theorem Dev.poUpd_mesh (s : Dev) (n : Nat) (f : PulseOut → PulseOut) : (s.poUpd n f).mesh = s.mesh := (rfl)
@[simp] theorem Dev.poUpd_upd (s : Dev) (n : Nat) (f : PulseOut → PulseOut) : (s.poUpd n f).upd = s.upd := (rfl)
@[simp] theorem Dev.poUpd_bist (s : Dev) (n : Nat) (f : PulseOut → PulseOut) : (s.poUpd n f).bist = s.bist := (rfl)
@[simp] theorem Dev.poUpd_host (s : Dev) (n : Nat) (f : PulseOut → PulseOut) : (s.poUpd n f).host = s.host := (rfl)
@[simp] theorem Dev.poUpd_pulse (s : Dev) (n : Nat) (f : PulseOut → PulseOut) : (s.poUpd n f).pulse = updAt s.pulse n f := (rfl)
@[simp] theorem Dev.poUpd_rd (s : Dev) (n : Nat) (f : PulseOut → PulseOut) (q : Nat) : (s.poUpd n f).rd q = s.rd q := (rfl)
@[simp] theorem Dev.poUpd_get (s : Dev) (n : Nat) (f : PulseOut → PulseOut) (x : Field) : (s.poUpd n f).get x = s.get x := (rfl)
@[simp] theorem Dev.poUpd_on (s : Dev) (n : Nat) (f : PulseOut → PulseOut) (x : Field) : (s.poUpd n f).on x = s.on x := (rfl)

/-! ### `Dev.rtcUpd` -/
@[simp] theorem Dev.rtcUpd_regs (s : Dev) (f : Rtc → Rtc) : (s.rtcUpd f).regs = s.regs := (rfl)
@[simp] theorem Dev.rtcUpd_mt (s : Dev) (f : Rtc → Rtc) : (s.rtcUpd f).mt = s.mt := (rfl)
@[simp] theorem Dev.rtcUpd_free (s : Dev) (f : Rtc → Rtc) : (s.rtcUpd f).free = s.free := (rfl)
@[simp] theorem Dev.rtcUpd_power (s : Dev) (f : Rtc → Rtc) : (s.rtcUpd f).power = s.power := (rfl)
@[simp] theorem Dev.rtcUpd_clk (s : Dev) (f : Rtc → Rtc) : (s.rtcUpd f).clk = s.clk := (rfl)
@[simp] theorem Dev.rtcUpd_pins (s : Dev) (f : Rtc → Rtc) : (s.rtcUpd f).pins = s.pins := (rfl)
@[simp] theorem Dev.rtcUpd_bus (s : Dev) (f : Rtc → Rtc) : (s.rtcUpd f).bus = s.bus := (rfl)
@[simp] theorem Dev.rtcUpd_cap (s : Dev) (f : Rtc → Rtc) : (s.rtcUpd f).cap = s.cap := (rfl)
@[simp] theorem Dev.rtcUpd_fe (s : Dev) (f : Rtc → Rtc) : (s.rtcUpd f).fe = s.fe := (rfl)
@[simp] theorem Dev.rtcUpd_temps (s : Dev) (f : Rtc → Rtc) : (s.rtcUpd f).temps = s.temps := (rfl)
@[simp] theorem Dev.rtcUpd_meter (s : Dev) (f : Rtc → Rtc) : (s.rtcUpd f).meter = s.meter := (rfl)
@[simp] theorem Dev.rtcUpd_pulse (s : Dev) (f : Rtc → Rtc) : (s.rtcUpd f).pulse = s.pulse := (rfl)
@[simp] theorem Dev.rtcUpd_pulseCal (s : Dev) (f : Rtc → Rtc) : (s.rtcUpd f).pulseCal = s.pulseCal := (rfl)
@[simp] theorem Dev.rtcUpd_harm (s : Dev) (f : Rtc → Rtc) : (s.rtcUpd f).harm = s.harm := (rfl)
@[simp] theorem Dev.rtcUpd_eye (s : Dev) (f : Rtc → Rtc) : (s.rtcUpd f).eye = s.eye := (rfl)
@[simp] theorem Dev.rtcUpd_bill (s : Dev) (f : Rtc → Rtc) : (s.rtcUpd f).bill = s.bill := (rfl)
@[simp] theorem Dev.rtcUpd_mram (s : Dev) (f : Rtc → Rtc) : (s.rtcUpd f).mram = s.mram := (rfl)
@[simp] theorem Dev.rtcUpd_prepay (s : Dev) (f : Rtc → Rtc) : (s.rtcUpd f).prepay = s.prepay := (rfl)
@[simp] theorem Dev.rtcUpd_disc (s : Dev) (f : Rtc → Rtc) : (s.rtcUpd f).disc = s.disc := (rfl)
@[simp] theorem Dev.rtcUpd_disp (s : Dev) (f : Rtc → Rtc) : (s.rtcUpd f).disp = s.disp := (rfl)
@[simp] theorem Dev.rtcUpd_tamp (s : Dev) (f : Rtc → Rtc) : (s.rtcUpd f).tamp = s.tamp := (rfl)
@[simp] theorem Dev.rtcUpd_sec (s : Dev) (f : Rtc → Rtc) : (s.rtcUpd f).sec = s.sec := (rfl)
@[simp] theorem Dev.rtcUpd_otp (s : Dev) (f : Rtc → Rtc) : (s.rtcUpd f).otp = s.otp := (rfl)
@[simp] theorem Dev.rtcUpd_plc (s : Dev) (f : Rtc → Rtc) : (s.rtcUpd f).plc = s.plc := (rfl)
@[simp] theorem Dev.rtcUpd_mesh (s : Dev) (f : Rtc → Rtc) : (s.rtcUpd f).mesh = s.mesh := (rfl)
@[simp] theorem Dev.rtcUpd_upd (s : Dev) (f : Rtc → Rtc) : (s.rtcUpd f).upd = s.upd := (rfl)
@[simp] theorem Dev.rtcUpd_bist (s : Dev) (f : Rtc → Rtc) : (s.rtcUpd f).bist = s.bist := (rfl)
@[simp] theorem Dev.rtcUpd_host (s : Dev) (f : Rtc → Rtc) : (s.rtcUpd f).host = s.host := (rfl)
@[simp] theorem Dev.rtcUpd_rtc (s : Dev) (f : Rtc → Rtc) : (s.rtcUpd f).rtc = f s.rtc := (rfl)
@[simp] theorem Dev.rtcUpd_rd (s : Dev) (f : Rtc → Rtc) (q : Nat) : (s.rtcUpd f).rd q = s.rd q := (rfl)
@[simp] theorem Dev.rtcUpd_get (s : Dev) (f : Rtc → Rtc) (x : Field) : (s.rtcUpd f).get x = s.get x := (rfl)
@[simp] theorem Dev.rtcUpd_on (s : Dev) (f : Rtc → Rtc) (x : Field) : (s.rtcUpd f).on x = s.on x := (rfl)

/-! ### `Dev.tick` -/
@[simp] theorem Dev.tick_regs (s : Dev) : (s.tick).regs = s.regs := (rfl)
@[simp] theorem Dev.tick_mt (s : Dev) : (s.tick).mt = s.mt := (rfl)
@[simp] theorem Dev.tick_power (s : Dev) : (s.tick).power = s.power := (rfl)
@[simp] theorem Dev.tick_clk (s : Dev) : (s.tick).clk = s.clk := (rfl)
@[simp] theorem Dev.tick_pins (s : Dev) : (s.tick).pins = s.pins := (rfl)
@[simp] theorem Dev.tick_bus (s : Dev) : (s.tick).bus = s.bus := (rfl)
@[simp] theorem Dev.tick_cap (s : Dev) : (s.tick).cap = s.cap := (rfl)
@[simp] theorem Dev.tick_fe (s : Dev) : (s.tick).fe = s.fe := (rfl)
@[simp] theorem Dev.tick_temps (s : Dev) : (s.tick).temps = s.temps := (rfl)
@[simp] theorem Dev.tick_meter (s : Dev) : (s.tick).meter = s.meter := (rfl)
@[simp] theorem Dev.tick_pulse (s : Dev) : (s.tick).pulse = s.pulse := (rfl)
@[simp] theorem Dev.tick_pulseCal (s : Dev) : (s.tick).pulseCal = s.pulseCal := (rfl)
@[simp] theorem Dev.tick_harm (s : Dev) : (s.tick).harm = s.harm := (rfl)
@[simp] theorem Dev.tick_eye (s : Dev) : (s.tick).eye = s.eye := (rfl)
@[simp] theorem Dev.tick_bill (s : Dev) : (s.tick).bill = s.bill := (rfl)
@[simp] theorem Dev.tick_mram (s : Dev) : (s.tick).mram = s.mram := (rfl)
@[simp] theorem Dev.tick_prepay (s : Dev) : (s.tick).prepay = s.prepay := (rfl)
@[simp] theorem Dev.tick_disc (s : Dev) : (s.tick).disc = s.disc := (rfl)
@[simp] theorem Dev.tick_disp (s : Dev) : (s.tick).disp = s.disp := (rfl)
@[simp] theorem Dev.tick_tamp (s : Dev) : (s.tick).tamp = s.tamp := (rfl)
@[simp] theorem Dev.tick_sec (s : Dev) : (s.tick).sec = s.sec := (rfl)
@[simp] theorem Dev.tick_otp (s : Dev) : (s.tick).otp = s.otp := (rfl)
@[simp] theorem Dev.tick_rtc (s : Dev) : (s.tick).rtc = s.rtc := (rfl)
@[simp] theorem Dev.tick_plc (s : Dev) : (s.tick).plc = s.plc := (rfl)
@[simp] theorem Dev.tick_mesh (s : Dev) : (s.tick).mesh = s.mesh := (rfl)
@[simp] theorem Dev.tick_upd (s : Dev) : (s.tick).upd = s.upd := (rfl)
@[simp] theorem Dev.tick_bist (s : Dev) : (s.tick).bist = s.bist := (rfl)
@[simp] theorem Dev.tick_host (s : Dev) : (s.tick).host = s.host := (rfl)
@[simp] theorem Dev.tick_free (s : Dev) : (s.tick).free = s.free + 1 := (rfl)
@[simp] theorem Dev.tick_rd (s : Dev)  (q : Nat) : (s.tick).rd q = s.rd q := (rfl)
@[simp] theorem Dev.tick_get (s : Dev)  (x : Field) : (s.tick).get x = s.get x := (rfl)
@[simp] theorem Dev.tick_on (s : Dev)  (x : Field) : (s.tick).on x = s.on x := (rfl)

/-! ### `Dev.setPower` -/
@[simp] theorem Dev.setPower_mt (s : Dev) (p : PState) : (s.setPower p).mt = s.mt := (rfl)
@[simp] theorem Dev.setPower_free (s : Dev) (p : PState) : (s.setPower p).free = s.free := (rfl)
@[simp] theorem Dev.setPower_power (s : Dev) (p : PState) : (s.setPower p).power = { s.power with st := p } := (rfl)
@[simp] theorem Dev.setPower_clk (s : Dev) (p : PState) : (s.setPower p).clk = s.clk := (rfl)
@[simp] theorem Dev.setPower_pins (s : Dev) (p : PState) : (s.setPower p).pins = s.pins := (rfl)
@[simp] theorem Dev.setPower_bus (s : Dev) (p : PState) : (s.setPower p).bus = s.bus := (rfl)
@[simp] theorem Dev.setPower_cap (s : Dev) (p : PState) : (s.setPower p).cap = s.cap := (rfl)
@[simp] theorem Dev.setPower_fe (s : Dev) (p : PState) : (s.setPower p).fe = s.fe := (rfl)
@[simp] theorem Dev.setPower_temps (s : Dev) (p : PState) : (s.setPower p).temps = s.temps := (rfl)
@[simp] theorem Dev.setPower_meter (s : Dev) (p : PState) : (s.setPower p).meter = s.meter := (rfl)
@[simp] theorem Dev.setPower_pulse (s : Dev) (p : PState) : (s.setPower p).pulse = s.pulse := (rfl)
@[simp] theorem Dev.setPower_pulseCal (s : Dev) (p : PState) : (s.setPower p).pulseCal = s.pulseCal := (rfl)
@[simp] theorem Dev.setPower_harm (s : Dev) (p : PState) : (s.setPower p).harm = s.harm := (rfl)
@[simp] theorem Dev.setPower_eye (s : Dev) (p : PState) : (s.setPower p).eye = s.eye := (rfl)
@[simp] theorem Dev.setPower_bill (s : Dev) (p : PState) : (s.setPower p).bill = s.bill := (rfl)
@[simp] theorem Dev.setPower_mram (s : Dev) (p : PState) : (s.setPower p).mram = s.mram := (rfl)
@[simp] theorem Dev.setPower_prepay (s : Dev) (p : PState) : (s.setPower p).prepay = s.prepay := (rfl)
@[simp] theorem Dev.setPower_disc (s : Dev) (p : PState) : (s.setPower p).disc = s.disc := (rfl)
@[simp] theorem Dev.setPower_disp (s : Dev) (p : PState) : (s.setPower p).disp = s.disp := (rfl)
@[simp] theorem Dev.setPower_tamp (s : Dev) (p : PState) : (s.setPower p).tamp = s.tamp := (rfl)
@[simp] theorem Dev.setPower_sec (s : Dev) (p : PState) : (s.setPower p).sec = s.sec := (rfl)
@[simp] theorem Dev.setPower_otp (s : Dev) (p : PState) : (s.setPower p).otp = s.otp := (rfl)
@[simp] theorem Dev.setPower_rtc (s : Dev) (p : PState) : (s.setPower p).rtc = s.rtc := (rfl)
@[simp] theorem Dev.setPower_plc (s : Dev) (p : PState) : (s.setPower p).plc = s.plc := (rfl)
@[simp] theorem Dev.setPower_mesh (s : Dev) (p : PState) : (s.setPower p).mesh = s.mesh := (rfl)
@[simp] theorem Dev.setPower_upd (s : Dev) (p : PState) : (s.setPower p).upd = s.upd := (rfl)
@[simp] theorem Dev.setPower_bist (s : Dev) (p : PState) : (s.setPower p).bist = s.bist := (rfl)
@[simp] theorem Dev.setPower_host (s : Dev) (p : PState) : (s.setPower p).host = s.host := (rfl)

/-! ### `Dev.vsupSet` -/
@[simp] theorem Dev.vsupSet_mt (s : Dev) (mv : Nat) : (s.vsupSet mv).mt = s.mt := (rfl)
@[simp] theorem Dev.vsupSet_free (s : Dev) (mv : Nat) : (s.vsupSet mv).free = s.free := (rfl)
@[simp] theorem Dev.vsupSet_power (s : Dev) (mv : Nat) : (s.vsupSet mv).power = { s.power with vsupMv := mv } := (rfl)
@[simp] theorem Dev.vsupSet_clk (s : Dev) (mv : Nat) : (s.vsupSet mv).clk = s.clk := (rfl)
@[simp] theorem Dev.vsupSet_pins (s : Dev) (mv : Nat) : (s.vsupSet mv).pins = s.pins := (rfl)
@[simp] theorem Dev.vsupSet_bus (s : Dev) (mv : Nat) : (s.vsupSet mv).bus = s.bus := (rfl)
@[simp] theorem Dev.vsupSet_cap (s : Dev) (mv : Nat) : (s.vsupSet mv).cap = s.cap := (rfl)
@[simp] theorem Dev.vsupSet_fe (s : Dev) (mv : Nat) : (s.vsupSet mv).fe = s.fe := (rfl)
@[simp] theorem Dev.vsupSet_temps (s : Dev) (mv : Nat) : (s.vsupSet mv).temps = s.temps := (rfl)
@[simp] theorem Dev.vsupSet_meter (s : Dev) (mv : Nat) : (s.vsupSet mv).meter = s.meter := (rfl)
@[simp] theorem Dev.vsupSet_pulse (s : Dev) (mv : Nat) : (s.vsupSet mv).pulse = s.pulse := (rfl)
@[simp] theorem Dev.vsupSet_pulseCal (s : Dev) (mv : Nat) : (s.vsupSet mv).pulseCal = s.pulseCal := (rfl)
@[simp] theorem Dev.vsupSet_harm (s : Dev) (mv : Nat) : (s.vsupSet mv).harm = s.harm := (rfl)
@[simp] theorem Dev.vsupSet_eye (s : Dev) (mv : Nat) : (s.vsupSet mv).eye = s.eye := (rfl)
@[simp] theorem Dev.vsupSet_bill (s : Dev) (mv : Nat) : (s.vsupSet mv).bill = s.bill := (rfl)
@[simp] theorem Dev.vsupSet_mram (s : Dev) (mv : Nat) : (s.vsupSet mv).mram = s.mram := (rfl)
@[simp] theorem Dev.vsupSet_prepay (s : Dev) (mv : Nat) : (s.vsupSet mv).prepay = s.prepay := (rfl)
@[simp] theorem Dev.vsupSet_disc (s : Dev) (mv : Nat) : (s.vsupSet mv).disc = s.disc := (rfl)
@[simp] theorem Dev.vsupSet_disp (s : Dev) (mv : Nat) : (s.vsupSet mv).disp = s.disp := (rfl)
@[simp] theorem Dev.vsupSet_tamp (s : Dev) (mv : Nat) : (s.vsupSet mv).tamp = s.tamp := (rfl)
@[simp] theorem Dev.vsupSet_sec (s : Dev) (mv : Nat) : (s.vsupSet mv).sec = s.sec := (rfl)
@[simp] theorem Dev.vsupSet_otp (s : Dev) (mv : Nat) : (s.vsupSet mv).otp = s.otp := (rfl)
@[simp] theorem Dev.vsupSet_rtc (s : Dev) (mv : Nat) : (s.vsupSet mv).rtc = s.rtc := (rfl)
@[simp] theorem Dev.vsupSet_plc (s : Dev) (mv : Nat) : (s.vsupSet mv).plc = s.plc := (rfl)
@[simp] theorem Dev.vsupSet_mesh (s : Dev) (mv : Nat) : (s.vsupSet mv).mesh = s.mesh := (rfl)
@[simp] theorem Dev.vsupSet_upd (s : Dev) (mv : Nat) : (s.vsupSet mv).upd = s.upd := (rfl)
@[simp] theorem Dev.vsupSet_bist (s : Dev) (mv : Nat) : (s.vsupSet mv).bist = s.bist := (rfl)
@[simp] theorem Dev.vsupSet_host (s : Dev) (mv : Nat) : (s.vsupSet mv).host = s.host := (rfl)

end Sys2Proof.Machine
end

