-- ==== Sys2Proof/Laws/Events.lean ====
section
/-! SUPPORT. Everything that raising an event can do, said once: `eventsOnly` for `journal`, `raise0`, `capture`, `raiseEv` and its short forms; and what follows for each field. -/

namespace Sys2Proof.Machine

open Sys2Proof.Safety

theorem eventsOnly_refl (s : Dev) : eventsOnly s s := ⟨fun _ _ => rfl, _, _, _, _, _, _, rfl⟩

theorem eventsOnly_trans {s t u : Dev} (h : eventsOnly s t) (k : eventsOnly t u) : eventsOnly s u := by
  refine ⟨fun a ha => (k.1 a ha).trans (h.1 a ha), ?_⟩
  obtain ⟨-, _, _, _, _, _, _, rfl⟩ := h
  obtain ⟨-, _, _, _, _, _, _, rfl⟩ := k
  exact ⟨_, _, _, _, _, _, rfl⟩

theorem eventsOnly_foldl {α : Type} (f : Dev → α → Dev) (hf : ∀ s x, eventsOnly s (f s x)) (l : List α) (s : Dev) : eventsOnly s (l.foldl f s) := by
  induction l generalizing s with
  | nil => exact eventsOnly_refl s
  | cons x r ih => exact eventsOnly_trans (hf s x) (ih _)

/-- A change of event registers only. -/
theorem eventsOnly_regs {s : Dev} {r : List (Nat × Word)} (h : ∀ a, eventReg a = false → Regs.rd r a = Regs.rd s.regs a) :
    eventsOnly s { s with regs := r } := ⟨h, _, _, _, _, _, _, rfl⟩

theorem eventsOnly_set {s : Dev} {f : Field} {v : Nat} (h : eventReg f.addr = true) : eventsOnly s (s.set f v) :=
  eventsOnly_regs fun _ ha => Regs.rd_set_ne fun e => by subst e; simp [h] at ha

theorem eventsOnly_bump {s : Dev} {f : Field} (h : eventReg f.addr = true) : eventsOnly s (s.bump f) := by
  unfold Dev.bump; split
  · exact eventsOnly_set h
  · exact eventsOnly_refl s

theorem eventsOnly_cap (s : Dev) (c : Capture) : eventsOnly s { s with cap := c } := ⟨fun _ _ => rfl, _, _, _, _, _, _, rfl⟩

theorem eventReg_raw (p : Nat) : eventReg (Hdr.RAW p).addr = true := by
  have : (pageBase p + 0x10) % 0x1000 = 0x10 := by unfold pageBase; omega
  simp [eventReg, Hdr.RAW, this]

theorem eventReg_split {n : Nat} (h : n < 32) : eventReg (Reg.SPLIT_CNT_LO n) = true ∧ eventReg (Reg.SPLIT_CNT_HI n) = true := by
  have h1 : pageOf (Reg.SPLIT_CNT_LO n) = Pg.SPLIT := by unfold pageOf Reg.SPLIT_CNT_LO Pg.SPLIT; omega
  have h2 : pageOf (Reg.SPLIT_CNT_HI n) = Pg.SPLIT := by unfold pageOf Reg.SPLIT_CNT_HI Pg.SPLIT; omega
  simp [eventReg, h1, h2]

/-! ### RAW and the counters -/

theorem Regs.rd_raw (m : Regs) (c a : Nat) (h : eventReg a = false) : Regs.rd (Regs.raw m c) a = Regs.rd m a := by
  unfold Regs.raw; split
  · exact Regs.rd_set_ne fun e => by rw [e, eventReg_raw] at h; exact absurd h (by decide)
  · rfl

theorem Regs.rd_splitOne (e : Event) (m : Regs) (n a : Nat) (hn : n < 32) (h : eventReg a = false) : Regs.rd (Regs.splitOne e m n) a = Regs.rd m a := by
  have hl : a ≠ (Fld.SPLIT_CNT_LO_N n).addr := fun e => by rw [e] at h; exact absurd ((eventReg_split hn).1.symm.trans h) (by decide)
  have hh : a ≠ (Fld.SPLIT_CNT_HI_N n).addr := fun e => by rw [e] at h; exact absurd ((eventReg_split hn).2.symm.trans h) (by decide)
  have ho : a ≠ Fld.SPLIT_OVF_CNT.addr := fun e => by subst e; exact absurd h (by decide)
  unfold Regs.splitOne
  split
  · dsimp only
    split
    · rw [Regs.rd_raw _ _ _ h, Regs.rd_set_ne ho, Regs.rd_set_ne hh, Regs.rd_set_ne hl]
    · rw [Regs.rd_set_ne hh, Regs.rd_set_ne hl]
  · rfl

theorem Regs.rd_splitAll (m : Regs) (e : Event) (a : Nat) (h : eventReg a = false) : Regs.rd (Regs.splitAll m e) a = Regs.rd m a := by
  have key : ∀ (l : List Nat) (k : Regs), (∀ n ∈ l, n < 32) → Regs.rd (l.foldl (Regs.splitOne e) k) a = Regs.rd k a := by
    intro l
    induction l with
    | nil => intros; rfl
    | cons x r ih =>
      intro k hl
      rw [List.foldl_cons, ih _ fun n hn => hl n (List.mem_cons_of_mem _ hn), Regs.rd_splitOne _ _ _ _ (hl x List.mem_cons_self) h]
  unfold Regs.splitAll
  split
  · exact key _ _ fun n hn => List.mem_range.1 hn
  · rfl

theorem Regs.rd_event (m : Regs) (e : Event) (a : Nat) (h : eventReg a = false) : Regs.rd (Regs.event m e) a = Regs.rd m a := by
  unfold Regs.event
  dsimp only
  split <;> simp only [Regs.rd_splitAll _ _ _ h, Regs.rd_raw _ _ _ h]

/-! ### Journal and raising -/

theorem eventReg_jhead : eventReg Fld.BILL_JHEAD_SEQ.addr = true := by decide

/-- A journal entry changes the journal and its head only. -/
theorem Dev.journal_eventsOnly (s : Dev) (c bp : Nat) (inj late : Bool) (d : List Byte) : eventsOnly s (s.journal c bp inj late d) := by
  refine ⟨fun a ha => ?_, _, _, _, _, _, _, rfl⟩
  have hne : a ≠ Fld.BILL_JHEAD_SEQ.addr := fun e => by rw [e, eventReg_jhead] at ha; exact absurd ha (by decide)
  simp only [Dev.rd, Dev.journal, Regs.rd_set_ne hne]

/-- The trips and the journal entry of a raising. -/
theorem Dev.raiseOut_eventsOnly (s : Dev) (e : Event) (live : Bool) : eventsOnly s (s.raiseOut e live) := by
  have h : eventsOnly s { s with disc := { s.disc with trips := s.disc.trips ++ Dev.tripHits s e live } } := ⟨fun _ _ => rfl, _, _, _, _, _, _, rfl⟩
  unfold Dev.raiseOut
  dsimp only
  split
  · exact eventsOnly_trans h (Dev.journal_eventsOnly _ _ _ _ _ _)
  · exact h

theorem Dev.raise0_eventsOnly (s : Dev) (e : Event) (live : Bool) : eventsOnly s (s.raise0 e live) := by
  unfold Dev.raise0
  split
  · have h0 : eventsOnly s { s with regs := Regs.event s.regs e } := ⟨fun a ha => Regs.rd_event s.regs e a ha, _, _, _, _, _, _, rfl⟩
    have h : eventsOnly s (Dev.raiseOut { s with regs := Regs.event s.regs e } e live) := eventsOnly_trans h0 (Dev.raiseOut_eventsOnly _ _ _)
    dsimp only
    split
    · exact eventsOnly_trans h (Dev.raiseOut_eventsOnly _ _ _)
    · exact h
  · exact eventsOnly_refl s

theorem Dev.capLast_eventsOnly (s : Dev) : eventsOnly s s.capLast := by
  unfold Dev.capLast
  split <;> exact eventsOnly_trans (eventsOnly_set rfl) (eventsOnly_set rfl)

theorem Dev.capStat_eventsOnly (s : Dev) : eventsOnly s s.capStat := by
  unfold Dev.capStat
  exact eventsOnly_trans (eventsOnly_set rfl) (eventsOnly_trans (eventsOnly_set rfl) (eventsOnly_trans (eventsOnly_set rfl) (eventsOnly_trans (eventsOnly_set rfl) (Dev.capLast_eventsOnly _))))

theorem Dev.capEvict_eventsOnly (s : Dev) (p : CapRec → Bool) : eventsOnly s (s.capEvict p) := by
  unfold Dev.capEvict
  exact eventsOnly_trans (eventsOnly_cap s _) (eventsOnly_foldl _ (fun _ _ => eventsOnly_trans (eventsOnly_bump rfl) (Dev.raise0_eventsOnly _ _ _)) _ _)

theorem Dev.capTrigger_eventsOnly (s : Dev) (e : Event) (k : Nat) : eventsOnly s (s.capTrigger e k) := by
  unfold Dev.capTrigger
  dsimp only
  split
  · exact eventsOnly_cap s _
  split
  · exact eventsOnly_trans (eventsOnly_bump rfl) (Dev.raise0_eventsOnly _ _ _)
  split
  · exact eventsOnly_trans (eventsOnly_bump rfl) (Dev.raise0_eventsOnly _ _ _)
  split
  · exact eventsOnly_trans (Dev.capEvict_eventsOnly _ _) (eventsOnly_trans (eventsOnly_bump rfl) (Dev.raise0_eventsOnly _ _ _))
  · exact eventsOnly_trans (Dev.capEvict_eventsOnly _ _) (eventsOnly_trans (eventsOnly_cap _ _) (eventsOnly_trans (Dev.capStat_eventsOnly _) (Dev.raise0_eventsOnly _ _ _)))

theorem Dev.capture_eventsOnly (s : Dev) (e : Event) : eventsOnly s (s.capture e) := by
  unfold Dev.capture
  split
  · split
    · exact eventsOnly_cap s _
    · split
      · exact eventsOnly_cap s _
      · exact eventsOnly_foldl _ (fun t k => Dev.capTrigger_eventsOnly t e k) _ _
  · exact eventsOnly_refl s

/-- Everything a raised event can do. -/
theorem Dev.raiseEv_eventsOnly (s : Dev) (e : Event) (live : Bool) : eventsOnly s (s.raiseEv e live) := by
  unfold Dev.raiseEv
  split
  · have h := eventsOnly_trans (Dev.raise0_eventsOnly s e live) (Dev.capture_eventsOnly _ e)
    dsimp only
    split
    · exact eventsOnly_trans h (Dev.capture_eventsOnly _ _)
    · exact h
  · exact eventsOnly_refl s

theorem Dev.raise_eventsOnly (s : Dev) (p no : Nat) : eventsOnly s (s.raise p no) := Dev.raiseEv_eventsOnly _ _ _
theorem Dev.raiseInj_eventsOnly (s : Dev) (p no : Nat) (inj live : Bool) : eventsOnly s (s.raiseInj p no inj live) := Dev.raiseEv_eventsOnly _ _ _
theorem Dev.raiseAt_eventsOnly (s : Dev) (p no seq item : Nat) (spec inj : Bool) : eventsOnly s (s.raiseAt p no seq item spec inj) := Dev.raiseEv_eventsOnly _ _ _
theorem Dev.raiseJ_eventsOnly (s : Dev) (p no bp : Nat) (inj : Bool) (d : List Byte) : eventsOnly s (s.raiseJ p no bp inj d) := by
  unfold Dev.raiseJ
  split
  · exact eventsOnly_trans (Dev.raiseEv_eventsOnly _ _ _) (Dev.journal_eventsOnly _ _ _ _ _ _)
  · exact eventsOnly_refl s

end Sys2Proof.Machine

namespace Sys2Proof.Safety

open Sys2Proof.Machine

/-- A field of a register that events do not touch. -/
theorem eventsOnly.get {s t : Dev} (h : eventsOnly s t) {f : Field} (hf : eventReg f.addr = false) : t.get f = s.get f := Dev.get_congr (h.1 _ hf)

/-! ### Fields that raised events keep -/

theorem eventsOnly.mt {s t : Dev} (h : eventsOnly s t) : t.mt = s.mt := by
  obtain ⟨-, _, _, _, _, _, _, rfl⟩ := h; rfl
theorem eventsOnly.free {s t : Dev} (h : eventsOnly s t) : t.free = s.free := by
  obtain ⟨-, _, _, _, _, _, _, rfl⟩ := h; rfl
theorem eventsOnly.power {s t : Dev} (h : eventsOnly s t) : t.power = s.power := by
  obtain ⟨-, _, _, _, _, _, _, rfl⟩ := h; rfl
theorem eventsOnly.clk {s t : Dev} (h : eventsOnly s t) : t.clk = s.clk := by
  obtain ⟨-, _, _, _, _, _, _, rfl⟩ := h; rfl
theorem eventsOnly.pins {s t : Dev} (h : eventsOnly s t) : t.pins = s.pins := by
  obtain ⟨-, _, _, _, _, _, _, rfl⟩ := h; rfl
theorem eventsOnly.bus {s t : Dev} (h : eventsOnly s t) : t.bus = s.bus := by
  obtain ⟨-, _, _, _, _, _, _, rfl⟩ := h; rfl
theorem eventsOnly.fe {s t : Dev} (h : eventsOnly s t) : t.fe = s.fe := by
  obtain ⟨-, _, _, _, _, _, _, rfl⟩ := h; rfl
theorem eventsOnly.temps {s t : Dev} (h : eventsOnly s t) : t.temps = s.temps := by
  obtain ⟨-, _, _, _, _, _, _, rfl⟩ := h; rfl
theorem eventsOnly.meter {s t : Dev} (h : eventsOnly s t) : t.meter = s.meter := by
  obtain ⟨-, _, _, _, _, _, _, rfl⟩ := h; rfl
theorem eventsOnly.pulse {s t : Dev} (h : eventsOnly s t) : t.pulse = s.pulse := by
  obtain ⟨-, _, _, _, _, _, _, rfl⟩ := h; rfl
theorem eventsOnly.pulseCal {s t : Dev} (h : eventsOnly s t) : t.pulseCal = s.pulseCal := by
  obtain ⟨-, _, _, _, _, _, _, rfl⟩ := h; rfl
theorem eventsOnly.harm {s t : Dev} (h : eventsOnly s t) : t.harm = s.harm := by
  obtain ⟨-, _, _, _, _, _, _, rfl⟩ := h; rfl
theorem eventsOnly.eye {s t : Dev} (h : eventsOnly s t) : t.eye = s.eye := by
  obtain ⟨-, _, _, _, _, _, _, rfl⟩ := h; rfl
theorem eventsOnly.mram {s t : Dev} (h : eventsOnly s t) : t.mram = s.mram := by
  obtain ⟨-, _, _, _, _, _, _, rfl⟩ := h; rfl
theorem eventsOnly.prepay {s t : Dev} (h : eventsOnly s t) : t.prepay = s.prepay := by
  obtain ⟨-, _, _, _, _, _, _, rfl⟩ := h; rfl
theorem eventsOnly.disp {s t : Dev} (h : eventsOnly s t) : t.disp = s.disp := by
  obtain ⟨-, _, _, _, _, _, _, rfl⟩ := h; rfl
theorem eventsOnly.tamp {s t : Dev} (h : eventsOnly s t) : t.tamp = s.tamp := by
  obtain ⟨-, _, _, _, _, _, _, rfl⟩ := h; rfl
theorem eventsOnly.sec {s t : Dev} (h : eventsOnly s t) : t.sec = s.sec := by
  obtain ⟨-, _, _, _, _, _, _, rfl⟩ := h; rfl
theorem eventsOnly.otp {s t : Dev} (h : eventsOnly s t) : t.otp = s.otp := by
  obtain ⟨-, _, _, _, _, _, _, rfl⟩ := h; rfl
theorem eventsOnly.rtc {s t : Dev} (h : eventsOnly s t) : t.rtc = s.rtc := by
  obtain ⟨-, _, _, _, _, _, _, rfl⟩ := h; rfl
theorem eventsOnly.plc {s t : Dev} (h : eventsOnly s t) : t.plc = s.plc := by
  obtain ⟨-, _, _, _, _, _, _, rfl⟩ := h; rfl
theorem eventsOnly.mesh {s t : Dev} (h : eventsOnly s t) : t.mesh = s.mesh := by
  obtain ⟨-, _, _, _, _, _, _, rfl⟩ := h; rfl
theorem eventsOnly.upd {s t : Dev} (h : eventsOnly s t) : t.upd = s.upd := by
  obtain ⟨-, _, _, _, _, _, _, rfl⟩ := h; rfl
theorem eventsOnly.bist {s t : Dev} (h : eventsOnly s t) : t.bist = s.bist := by
  obtain ⟨-, _, _, _, _, _, _, rfl⟩ := h; rfl
theorem eventsOnly.host {s t : Dev} (h : eventsOnly s t) : t.host = s.host := by
  obtain ⟨-, _, _, _, _, _, _, rfl⟩ := h; rfl

end Sys2Proof.Safety

namespace Sys2Proof.Machine

open Sys2Proof.Safety

@[simp] theorem Dev.journal_mt (s : Dev) (c bp : Nat) (inj late : Bool) (d : List Byte) : (s.journal c bp inj late d).mt = s.mt := (Dev.journal_eventsOnly ..).mt
@[simp] theorem Dev.journal_free (s : Dev) (c bp : Nat) (inj late : Bool) (d : List Byte) : (s.journal c bp inj late d).free = s.free := (Dev.journal_eventsOnly ..).free
@[simp] theorem Dev.journal_power (s : Dev) (c bp : Nat) (inj late : Bool) (d : List Byte) : (s.journal c bp inj late d).power = s.power := (Dev.journal_eventsOnly ..).power
@[simp] theorem Dev.journal_clk (s : Dev) (c bp : Nat) (inj late : Bool) (d : List Byte) : (s.journal c bp inj late d).clk = s.clk := (Dev.journal_eventsOnly ..).clk
@[simp] theorem Dev.journal_pins (s : Dev) (c bp : Nat) (inj late : Bool) (d : List Byte) : (s.journal c bp inj late d).pins = s.pins := (Dev.journal_eventsOnly ..).pins
@[simp] theorem Dev.journal_bus (s : Dev) (c bp : Nat) (inj late : Bool) (d : List Byte) : (s.journal c bp inj late d).bus = s.bus := (Dev.journal_eventsOnly ..).bus
@[simp] theorem Dev.journal_fe (s : Dev) (c bp : Nat) (inj late : Bool) (d : List Byte) : (s.journal c bp inj late d).fe = s.fe := (Dev.journal_eventsOnly ..).fe
@[simp] theorem Dev.journal_temps (s : Dev) (c bp : Nat) (inj late : Bool) (d : List Byte) : (s.journal c bp inj late d).temps = s.temps := (Dev.journal_eventsOnly ..).temps
@[simp] theorem Dev.journal_meter (s : Dev) (c bp : Nat) (inj late : Bool) (d : List Byte) : (s.journal c bp inj late d).meter = s.meter := (Dev.journal_eventsOnly ..).meter
@[simp] theorem Dev.journal_pulse (s : Dev) (c bp : Nat) (inj late : Bool) (d : List Byte) : (s.journal c bp inj late d).pulse = s.pulse := (Dev.journal_eventsOnly ..).pulse
@[simp] theorem Dev.journal_pulseCal (s : Dev) (c bp : Nat) (inj late : Bool) (d : List Byte) : (s.journal c bp inj late d).pulseCal = s.pulseCal := (Dev.journal_eventsOnly ..).pulseCal
@[simp] theorem Dev.journal_harm (s : Dev) (c bp : Nat) (inj late : Bool) (d : List Byte) : (s.journal c bp inj late d).harm = s.harm := (Dev.journal_eventsOnly ..).harm
@[simp] theorem Dev.journal_eye (s : Dev) (c bp : Nat) (inj late : Bool) (d : List Byte) : (s.journal c bp inj late d).eye = s.eye := (Dev.journal_eventsOnly ..).eye
@[simp] theorem Dev.journal_mram (s : Dev) (c bp : Nat) (inj late : Bool) (d : List Byte) : (s.journal c bp inj late d).mram = s.mram := (Dev.journal_eventsOnly ..).mram
@[simp] theorem Dev.journal_prepay (s : Dev) (c bp : Nat) (inj late : Bool) (d : List Byte) : (s.journal c bp inj late d).prepay = s.prepay := (Dev.journal_eventsOnly ..).prepay
@[simp] theorem Dev.journal_disp (s : Dev) (c bp : Nat) (inj late : Bool) (d : List Byte) : (s.journal c bp inj late d).disp = s.disp := (Dev.journal_eventsOnly ..).disp
@[simp] theorem Dev.journal_tamp (s : Dev) (c bp : Nat) (inj late : Bool) (d : List Byte) : (s.journal c bp inj late d).tamp = s.tamp := (Dev.journal_eventsOnly ..).tamp
@[simp] theorem Dev.journal_sec (s : Dev) (c bp : Nat) (inj late : Bool) (d : List Byte) : (s.journal c bp inj late d).sec = s.sec := (Dev.journal_eventsOnly ..).sec
@[simp] theorem Dev.journal_otp (s : Dev) (c bp : Nat) (inj late : Bool) (d : List Byte) : (s.journal c bp inj late d).otp = s.otp := (Dev.journal_eventsOnly ..).otp
@[simp] theorem Dev.journal_rtc (s : Dev) (c bp : Nat) (inj late : Bool) (d : List Byte) : (s.journal c bp inj late d).rtc = s.rtc := (Dev.journal_eventsOnly ..).rtc
@[simp] theorem Dev.journal_plc (s : Dev) (c bp : Nat) (inj late : Bool) (d : List Byte) : (s.journal c bp inj late d).plc = s.plc := (Dev.journal_eventsOnly ..).plc
@[simp] theorem Dev.journal_mesh (s : Dev) (c bp : Nat) (inj late : Bool) (d : List Byte) : (s.journal c bp inj late d).mesh = s.mesh := (Dev.journal_eventsOnly ..).mesh
@[simp] theorem Dev.journal_upd (s : Dev) (c bp : Nat) (inj late : Bool) (d : List Byte) : (s.journal c bp inj late d).upd = s.upd := (Dev.journal_eventsOnly ..).upd
@[simp] theorem Dev.journal_bist (s : Dev) (c bp : Nat) (inj late : Bool) (d : List Byte) : (s.journal c bp inj late d).bist = s.bist := (Dev.journal_eventsOnly ..).bist
@[simp] theorem Dev.journal_host (s : Dev) (c bp : Nat) (inj late : Bool) (d : List Byte) : (s.journal c bp inj late d).host = s.host := (Dev.journal_eventsOnly ..).host
theorem Dev.rd_journal (s : Dev) (c bp : Nat) (inj late : Bool) (d : List Byte) (r : Nat) (h : eventReg r = false) : (s.journal c bp inj late d).rd r = s.rd r := (Dev.journal_eventsOnly ..).1 r h
theorem Dev.get_journal (s : Dev) (c bp : Nat) (inj late : Bool) (d : List Byte) (f : Field) (h : eventReg f.addr = false) : (s.journal c bp inj late d).get f = s.get f := (Dev.journal_eventsOnly ..).get h
theorem Dev.on_journal (s : Dev) (c bp : Nat) (inj late : Bool) (d : List Byte) (f : Field) (h : eventReg f.addr = false) : (s.journal c bp inj late d).on f = s.on f := Dev.on_congr ((Dev.journal_eventsOnly ..).1 _ h)

@[simp] theorem Dev.raiseEv_mt (s : Dev) (e : Event) (live : Bool) : (s.raiseEv e live).mt = s.mt := (Dev.raiseEv_eventsOnly ..).mt
@[simp] theorem Dev.raiseEv_free (s : Dev) (e : Event) (live : Bool) : (s.raiseEv e live).free = s.free := (Dev.raiseEv_eventsOnly ..).free
@[simp] theorem Dev.raiseEv_power (s : Dev) (e : Event) (live : Bool) : (s.raiseEv e live).power = s.power := (Dev.raiseEv_eventsOnly ..).power
@[simp] theorem Dev.raiseEv_clk (s : Dev) (e : Event) (live : Bool) : (s.raiseEv e live).clk = s.clk := (Dev.raiseEv_eventsOnly ..).clk
@[simp] theorem Dev.raiseEv_pins (s : Dev) (e : Event) (live : Bool) : (s.raiseEv e live).pins = s.pins := (Dev.raiseEv_eventsOnly ..).pins
@[simp] theorem Dev.raiseEv_bus (s : Dev) (e : Event) (live : Bool) : (s.raiseEv e live).bus = s.bus := (Dev.raiseEv_eventsOnly ..).bus
@[simp] theorem Dev.raiseEv_fe (s : Dev) (e : Event) (live : Bool) : (s.raiseEv e live).fe = s.fe := (Dev.raiseEv_eventsOnly ..).fe
@[simp] theorem Dev.raiseEv_temps (s : Dev) (e : Event) (live : Bool) : (s.raiseEv e live).temps = s.temps := (Dev.raiseEv_eventsOnly ..).temps
@[simp] theorem Dev.raiseEv_meter (s : Dev) (e : Event) (live : Bool) : (s.raiseEv e live).meter = s.meter := (Dev.raiseEv_eventsOnly ..).meter
@[simp] theorem Dev.raiseEv_pulse (s : Dev) (e : Event) (live : Bool) : (s.raiseEv e live).pulse = s.pulse := (Dev.raiseEv_eventsOnly ..).pulse
@[simp] theorem Dev.raiseEv_pulseCal (s : Dev) (e : Event) (live : Bool) : (s.raiseEv e live).pulseCal = s.pulseCal := (Dev.raiseEv_eventsOnly ..).pulseCal
@[simp] theorem Dev.raiseEv_harm (s : Dev) (e : Event) (live : Bool) : (s.raiseEv e live).harm = s.harm := (Dev.raiseEv_eventsOnly ..).harm
@[simp] theorem Dev.raiseEv_eye (s : Dev) (e : Event) (live : Bool) : (s.raiseEv e live).eye = s.eye := (Dev.raiseEv_eventsOnly ..).eye
@[simp] theorem Dev.raiseEv_mram (s : Dev) (e : Event) (live : Bool) : (s.raiseEv e live).mram = s.mram := (Dev.raiseEv_eventsOnly ..).mram
@[simp] theorem Dev.raiseEv_prepay (s : Dev) (e : Event) (live : Bool) : (s.raiseEv e live).prepay = s.prepay := (Dev.raiseEv_eventsOnly ..).prepay
@[simp] theorem Dev.raiseEv_disp (s : Dev) (e : Event) (live : Bool) : (s.raiseEv e live).disp = s.disp := (Dev.raiseEv_eventsOnly ..).disp
@[simp] theorem Dev.raiseEv_tamp (s : Dev) (e : Event) (live : Bool) : (s.raiseEv e live).tamp = s.tamp := (Dev.raiseEv_eventsOnly ..).tamp
@[simp] theorem Dev.raiseEv_sec (s : Dev) (e : Event) (live : Bool) : (s.raiseEv e live).sec = s.sec := (Dev.raiseEv_eventsOnly ..).sec
@[simp] theorem Dev.raiseEv_otp (s : Dev) (e : Event) (live : Bool) : (s.raiseEv e live).otp = s.otp := (Dev.raiseEv_eventsOnly ..).otp
@[simp] theorem Dev.raiseEv_rtc (s : Dev) (e : Event) (live : Bool) : (s.raiseEv e live).rtc = s.rtc := (Dev.raiseEv_eventsOnly ..).rtc
@[simp] theorem Dev.raiseEv_plc (s : Dev) (e : Event) (live : Bool) : (s.raiseEv e live).plc = s.plc := (Dev.raiseEv_eventsOnly ..).plc
@[simp] theorem Dev.raiseEv_mesh (s : Dev) (e : Event) (live : Bool) : (s.raiseEv e live).mesh = s.mesh := (Dev.raiseEv_eventsOnly ..).mesh
@[simp] theorem Dev.raiseEv_upd (s : Dev) (e : Event) (live : Bool) : (s.raiseEv e live).upd = s.upd := (Dev.raiseEv_eventsOnly ..).upd
@[simp] theorem Dev.raiseEv_bist (s : Dev) (e : Event) (live : Bool) : (s.raiseEv e live).bist = s.bist := (Dev.raiseEv_eventsOnly ..).bist
@[simp] theorem Dev.raiseEv_host (s : Dev) (e : Event) (live : Bool) : (s.raiseEv e live).host = s.host := (Dev.raiseEv_eventsOnly ..).host
theorem Dev.rd_raiseEv (s : Dev) (e : Event) (live : Bool) (r : Nat) (h : eventReg r = false) : (s.raiseEv e live).rd r = s.rd r := (Dev.raiseEv_eventsOnly ..).1 r h
theorem Dev.get_raiseEv (s : Dev) (e : Event) (live : Bool) (f : Field) (h : eventReg f.addr = false) : (s.raiseEv e live).get f = s.get f := (Dev.raiseEv_eventsOnly ..).get h
theorem Dev.on_raiseEv (s : Dev) (e : Event) (live : Bool) (f : Field) (h : eventReg f.addr = false) : (s.raiseEv e live).on f = s.on f := Dev.on_congr ((Dev.raiseEv_eventsOnly ..).1 _ h)

@[simp] theorem Dev.raise_mt (s : Dev) (p no : Nat) : (s.raise p no).mt = s.mt := (Dev.raise_eventsOnly ..).mt
@[simp] theorem Dev.raise_free (s : Dev) (p no : Nat) : (s.raise p no).free = s.free := (Dev.raise_eventsOnly ..).free
@[simp] theorem Dev.raise_power (s : Dev) (p no : Nat) : (s.raise p no).power = s.power := (Dev.raise_eventsOnly ..).power
@[simp] theorem Dev.raise_clk (s : Dev) (p no : Nat) : (s.raise p no).clk = s.clk := (Dev.raise_eventsOnly ..).clk
@[simp] theorem Dev.raise_pins (s : Dev) (p no : Nat) : (s.raise p no).pins = s.pins := (Dev.raise_eventsOnly ..).pins
@[simp] theorem Dev.raise_bus (s : Dev) (p no : Nat) : (s.raise p no).bus = s.bus := (Dev.raise_eventsOnly ..).bus
@[simp] theorem Dev.raise_fe (s : Dev) (p no : Nat) : (s.raise p no).fe = s.fe := (Dev.raise_eventsOnly ..).fe
@[simp] theorem Dev.raise_temps (s : Dev) (p no : Nat) : (s.raise p no).temps = s.temps := (Dev.raise_eventsOnly ..).temps
@[simp] theorem Dev.raise_meter (s : Dev) (p no : Nat) : (s.raise p no).meter = s.meter := (Dev.raise_eventsOnly ..).meter
@[simp] theorem Dev.raise_pulse (s : Dev) (p no : Nat) : (s.raise p no).pulse = s.pulse := (Dev.raise_eventsOnly ..).pulse
@[simp] theorem Dev.raise_pulseCal (s : Dev) (p no : Nat) : (s.raise p no).pulseCal = s.pulseCal := (Dev.raise_eventsOnly ..).pulseCal
@[simp] theorem Dev.raise_harm (s : Dev) (p no : Nat) : (s.raise p no).harm = s.harm := (Dev.raise_eventsOnly ..).harm
@[simp] theorem Dev.raise_eye (s : Dev) (p no : Nat) : (s.raise p no).eye = s.eye := (Dev.raise_eventsOnly ..).eye
@[simp] theorem Dev.raise_mram (s : Dev) (p no : Nat) : (s.raise p no).mram = s.mram := (Dev.raise_eventsOnly ..).mram
@[simp] theorem Dev.raise_prepay (s : Dev) (p no : Nat) : (s.raise p no).prepay = s.prepay := (Dev.raise_eventsOnly ..).prepay
@[simp] theorem Dev.raise_disp (s : Dev) (p no : Nat) : (s.raise p no).disp = s.disp := (Dev.raise_eventsOnly ..).disp
@[simp] theorem Dev.raise_tamp (s : Dev) (p no : Nat) : (s.raise p no).tamp = s.tamp := (Dev.raise_eventsOnly ..).tamp
@[simp] theorem Dev.raise_sec (s : Dev) (p no : Nat) : (s.raise p no).sec = s.sec := (Dev.raise_eventsOnly ..).sec
@[simp] theorem Dev.raise_otp (s : Dev) (p no : Nat) : (s.raise p no).otp = s.otp := (Dev.raise_eventsOnly ..).otp
@[simp] theorem Dev.raise_rtc (s : Dev) (p no : Nat) : (s.raise p no).rtc = s.rtc := (Dev.raise_eventsOnly ..).rtc
@[simp] theorem Dev.raise_plc (s : Dev) (p no : Nat) : (s.raise p no).plc = s.plc := (Dev.raise_eventsOnly ..).plc
@[simp] theorem Dev.raise_mesh (s : Dev) (p no : Nat) : (s.raise p no).mesh = s.mesh := (Dev.raise_eventsOnly ..).mesh
@[simp] theorem Dev.raise_upd (s : Dev) (p no : Nat) : (s.raise p no).upd = s.upd := (Dev.raise_eventsOnly ..).upd
@[simp] theorem Dev.raise_bist (s : Dev) (p no : Nat) : (s.raise p no).bist = s.bist := (Dev.raise_eventsOnly ..).bist
@[simp] theorem Dev.raise_host (s : Dev) (p no : Nat) : (s.raise p no).host = s.host := (Dev.raise_eventsOnly ..).host
theorem Dev.rd_raise (s : Dev) (p no : Nat) (r : Nat) (h : eventReg r = false) : (s.raise p no).rd r = s.rd r := (Dev.raise_eventsOnly ..).1 r h
theorem Dev.get_raise (s : Dev) (p no : Nat) (f : Field) (h : eventReg f.addr = false) : (s.raise p no).get f = s.get f := (Dev.raise_eventsOnly ..).get h
theorem Dev.on_raise (s : Dev) (p no : Nat) (f : Field) (h : eventReg f.addr = false) : (s.raise p no).on f = s.on f := Dev.on_congr ((Dev.raise_eventsOnly ..).1 _ h)

@[simp] theorem Dev.raiseInj_mt (s : Dev) (p no : Nat) (inj live : Bool) : (s.raiseInj p no inj live).mt = s.mt := (Dev.raiseInj_eventsOnly ..).mt
@[simp] theorem Dev.raiseInj_free (s : Dev) (p no : Nat) (inj live : Bool) : (s.raiseInj p no inj live).free = s.free := (Dev.raiseInj_eventsOnly ..).free
@[simp] theorem Dev.raiseInj_power (s : Dev) (p no : Nat) (inj live : Bool) : (s.raiseInj p no inj live).power = s.power := (Dev.raiseInj_eventsOnly ..).power
@[simp] theorem Dev.raiseInj_clk (s : Dev) (p no : Nat) (inj live : Bool) : (s.raiseInj p no inj live).clk = s.clk := (Dev.raiseInj_eventsOnly ..).clk
@[simp] theorem Dev.raiseInj_pins (s : Dev) (p no : Nat) (inj live : Bool) : (s.raiseInj p no inj live).pins = s.pins := (Dev.raiseInj_eventsOnly ..).pins
@[simp] theorem Dev.raiseInj_bus (s : Dev) (p no : Nat) (inj live : Bool) : (s.raiseInj p no inj live).bus = s.bus := (Dev.raiseInj_eventsOnly ..).bus
@[simp] theorem Dev.raiseInj_fe (s : Dev) (p no : Nat) (inj live : Bool) : (s.raiseInj p no inj live).fe = s.fe := (Dev.raiseInj_eventsOnly ..).fe
@[simp] theorem Dev.raiseInj_temps (s : Dev) (p no : Nat) (inj live : Bool) : (s.raiseInj p no inj live).temps = s.temps := (Dev.raiseInj_eventsOnly ..).temps
@[simp] theorem Dev.raiseInj_meter (s : Dev) (p no : Nat) (inj live : Bool) : (s.raiseInj p no inj live).meter = s.meter := (Dev.raiseInj_eventsOnly ..).meter
@[simp] theorem Dev.raiseInj_pulse (s : Dev) (p no : Nat) (inj live : Bool) : (s.raiseInj p no inj live).pulse = s.pulse := (Dev.raiseInj_eventsOnly ..).pulse
@[simp] theorem Dev.raiseInj_pulseCal (s : Dev) (p no : Nat) (inj live : Bool) : (s.raiseInj p no inj live).pulseCal = s.pulseCal := (Dev.raiseInj_eventsOnly ..).pulseCal
@[simp] theorem Dev.raiseInj_harm (s : Dev) (p no : Nat) (inj live : Bool) : (s.raiseInj p no inj live).harm = s.harm := (Dev.raiseInj_eventsOnly ..).harm
@[simp] theorem Dev.raiseInj_eye (s : Dev) (p no : Nat) (inj live : Bool) : (s.raiseInj p no inj live).eye = s.eye := (Dev.raiseInj_eventsOnly ..).eye
@[simp] theorem Dev.raiseInj_mram (s : Dev) (p no : Nat) (inj live : Bool) : (s.raiseInj p no inj live).mram = s.mram := (Dev.raiseInj_eventsOnly ..).mram
@[simp] theorem Dev.raiseInj_prepay (s : Dev) (p no : Nat) (inj live : Bool) : (s.raiseInj p no inj live).prepay = s.prepay := (Dev.raiseInj_eventsOnly ..).prepay
@[simp] theorem Dev.raiseInj_disp (s : Dev) (p no : Nat) (inj live : Bool) : (s.raiseInj p no inj live).disp = s.disp := (Dev.raiseInj_eventsOnly ..).disp
@[simp] theorem Dev.raiseInj_tamp (s : Dev) (p no : Nat) (inj live : Bool) : (s.raiseInj p no inj live).tamp = s.tamp := (Dev.raiseInj_eventsOnly ..).tamp
@[simp] theorem Dev.raiseInj_sec (s : Dev) (p no : Nat) (inj live : Bool) : (s.raiseInj p no inj live).sec = s.sec := (Dev.raiseInj_eventsOnly ..).sec
@[simp] theorem Dev.raiseInj_otp (s : Dev) (p no : Nat) (inj live : Bool) : (s.raiseInj p no inj live).otp = s.otp := (Dev.raiseInj_eventsOnly ..).otp
@[simp] theorem Dev.raiseInj_rtc (s : Dev) (p no : Nat) (inj live : Bool) : (s.raiseInj p no inj live).rtc = s.rtc := (Dev.raiseInj_eventsOnly ..).rtc
@[simp] theorem Dev.raiseInj_plc (s : Dev) (p no : Nat) (inj live : Bool) : (s.raiseInj p no inj live).plc = s.plc := (Dev.raiseInj_eventsOnly ..).plc
@[simp] theorem Dev.raiseInj_mesh (s : Dev) (p no : Nat) (inj live : Bool) : (s.raiseInj p no inj live).mesh = s.mesh := (Dev.raiseInj_eventsOnly ..).mesh
@[simp] theorem Dev.raiseInj_upd (s : Dev) (p no : Nat) (inj live : Bool) : (s.raiseInj p no inj live).upd = s.upd := (Dev.raiseInj_eventsOnly ..).upd
@[simp] theorem Dev.raiseInj_bist (s : Dev) (p no : Nat) (inj live : Bool) : (s.raiseInj p no inj live).bist = s.bist := (Dev.raiseInj_eventsOnly ..).bist
@[simp] theorem Dev.raiseInj_host (s : Dev) (p no : Nat) (inj live : Bool) : (s.raiseInj p no inj live).host = s.host := (Dev.raiseInj_eventsOnly ..).host
theorem Dev.rd_raiseInj (s : Dev) (p no : Nat) (inj live : Bool) (r : Nat) (h : eventReg r = false) : (s.raiseInj p no inj live).rd r = s.rd r := (Dev.raiseInj_eventsOnly ..).1 r h
theorem Dev.get_raiseInj (s : Dev) (p no : Nat) (inj live : Bool) (f : Field) (h : eventReg f.addr = false) : (s.raiseInj p no inj live).get f = s.get f := (Dev.raiseInj_eventsOnly ..).get h
theorem Dev.on_raiseInj (s : Dev) (p no : Nat) (inj live : Bool) (f : Field) (h : eventReg f.addr = false) : (s.raiseInj p no inj live).on f = s.on f := Dev.on_congr ((Dev.raiseInj_eventsOnly ..).1 _ h)

@[simp] theorem Dev.raiseAt_mt (s : Dev) (p no seq item : Nat) (spec inj : Bool) : (s.raiseAt p no seq item spec inj).mt = s.mt := (Dev.raiseAt_eventsOnly ..).mt
@[simp] theorem Dev.raiseAt_free (s : Dev) (p no seq item : Nat) (spec inj : Bool) : (s.raiseAt p no seq item spec inj).free = s.free := (Dev.raiseAt_eventsOnly ..).free
@[simp] theorem Dev.raiseAt_power (s : Dev) (p no seq item : Nat) (spec inj : Bool) : (s.raiseAt p no seq item spec inj).power = s.power := (Dev.raiseAt_eventsOnly ..).power
@[simp] theorem Dev.raiseAt_clk (s : Dev) (p no seq item : Nat) (spec inj : Bool) : (s.raiseAt p no seq item spec inj).clk = s.clk := (Dev.raiseAt_eventsOnly ..).clk
@[simp] theorem Dev.raiseAt_pins (s : Dev) (p no seq item : Nat) (spec inj : Bool) : (s.raiseAt p no seq item spec inj).pins = s.pins := (Dev.raiseAt_eventsOnly ..).pins
@[simp] theorem Dev.raiseAt_bus (s : Dev) (p no seq item : Nat) (spec inj : Bool) : (s.raiseAt p no seq item spec inj).bus = s.bus := (Dev.raiseAt_eventsOnly ..).bus
@[simp] theorem Dev.raiseAt_fe (s : Dev) (p no seq item : Nat) (spec inj : Bool) : (s.raiseAt p no seq item spec inj).fe = s.fe := (Dev.raiseAt_eventsOnly ..).fe
@[simp] theorem Dev.raiseAt_temps (s : Dev) (p no seq item : Nat) (spec inj : Bool) : (s.raiseAt p no seq item spec inj).temps = s.temps := (Dev.raiseAt_eventsOnly ..).temps
@[simp] theorem Dev.raiseAt_meter (s : Dev) (p no seq item : Nat) (spec inj : Bool) : (s.raiseAt p no seq item spec inj).meter = s.meter := (Dev.raiseAt_eventsOnly ..).meter
@[simp] theorem Dev.raiseAt_pulse (s : Dev) (p no seq item : Nat) (spec inj : Bool) : (s.raiseAt p no seq item spec inj).pulse = s.pulse := (Dev.raiseAt_eventsOnly ..).pulse
@[simp] theorem Dev.raiseAt_pulseCal (s : Dev) (p no seq item : Nat) (spec inj : Bool) : (s.raiseAt p no seq item spec inj).pulseCal = s.pulseCal := (Dev.raiseAt_eventsOnly ..).pulseCal
@[simp] theorem Dev.raiseAt_harm (s : Dev) (p no seq item : Nat) (spec inj : Bool) : (s.raiseAt p no seq item spec inj).harm = s.harm := (Dev.raiseAt_eventsOnly ..).harm
@[simp] theorem Dev.raiseAt_eye (s : Dev) (p no seq item : Nat) (spec inj : Bool) : (s.raiseAt p no seq item spec inj).eye = s.eye := (Dev.raiseAt_eventsOnly ..).eye
@[simp] theorem Dev.raiseAt_mram (s : Dev) (p no seq item : Nat) (spec inj : Bool) : (s.raiseAt p no seq item spec inj).mram = s.mram := (Dev.raiseAt_eventsOnly ..).mram
@[simp] theorem Dev.raiseAt_prepay (s : Dev) (p no seq item : Nat) (spec inj : Bool) : (s.raiseAt p no seq item spec inj).prepay = s.prepay := (Dev.raiseAt_eventsOnly ..).prepay
@[simp] theorem Dev.raiseAt_disp (s : Dev) (p no seq item : Nat) (spec inj : Bool) : (s.raiseAt p no seq item spec inj).disp = s.disp := (Dev.raiseAt_eventsOnly ..).disp
@[simp] theorem Dev.raiseAt_tamp (s : Dev) (p no seq item : Nat) (spec inj : Bool) : (s.raiseAt p no seq item spec inj).tamp = s.tamp := (Dev.raiseAt_eventsOnly ..).tamp
@[simp] theorem Dev.raiseAt_sec (s : Dev) (p no seq item : Nat) (spec inj : Bool) : (s.raiseAt p no seq item spec inj).sec = s.sec := (Dev.raiseAt_eventsOnly ..).sec
@[simp] theorem Dev.raiseAt_otp (s : Dev) (p no seq item : Nat) (spec inj : Bool) : (s.raiseAt p no seq item spec inj).otp = s.otp := (Dev.raiseAt_eventsOnly ..).otp
@[simp] theorem Dev.raiseAt_rtc (s : Dev) (p no seq item : Nat) (spec inj : Bool) : (s.raiseAt p no seq item spec inj).rtc = s.rtc := (Dev.raiseAt_eventsOnly ..).rtc
@[simp] theorem Dev.raiseAt_plc (s : Dev) (p no seq item : Nat) (spec inj : Bool) : (s.raiseAt p no seq item spec inj).plc = s.plc := (Dev.raiseAt_eventsOnly ..).plc
@[simp] theorem Dev.raiseAt_mesh (s : Dev) (p no seq item : Nat) (spec inj : Bool) : (s.raiseAt p no seq item spec inj).mesh = s.mesh := (Dev.raiseAt_eventsOnly ..).mesh
@[simp] theorem Dev.raiseAt_upd (s : Dev) (p no seq item : Nat) (spec inj : Bool) : (s.raiseAt p no seq item spec inj).upd = s.upd := (Dev.raiseAt_eventsOnly ..).upd
@[simp] theorem Dev.raiseAt_bist (s : Dev) (p no seq item : Nat) (spec inj : Bool) : (s.raiseAt p no seq item spec inj).bist = s.bist := (Dev.raiseAt_eventsOnly ..).bist
@[simp] theorem Dev.raiseAt_host (s : Dev) (p no seq item : Nat) (spec inj : Bool) : (s.raiseAt p no seq item spec inj).host = s.host := (Dev.raiseAt_eventsOnly ..).host
theorem Dev.rd_raiseAt (s : Dev) (p no seq item : Nat) (spec inj : Bool) (r : Nat) (h : eventReg r = false) : (s.raiseAt p no seq item spec inj).rd r = s.rd r := (Dev.raiseAt_eventsOnly ..).1 r h
theorem Dev.get_raiseAt (s : Dev) (p no seq item : Nat) (spec inj : Bool) (f : Field) (h : eventReg f.addr = false) : (s.raiseAt p no seq item spec inj).get f = s.get f := (Dev.raiseAt_eventsOnly ..).get h
theorem Dev.on_raiseAt (s : Dev) (p no seq item : Nat) (spec inj : Bool) (f : Field) (h : eventReg f.addr = false) : (s.raiseAt p no seq item spec inj).on f = s.on f := Dev.on_congr ((Dev.raiseAt_eventsOnly ..).1 _ h)

@[simp] theorem Dev.raiseJ_mt (s : Dev) (p no bp : Nat) (inj : Bool) (d : List Byte) : (s.raiseJ p no bp inj d).mt = s.mt := (Dev.raiseJ_eventsOnly ..).mt
@[simp] theorem Dev.raiseJ_free (s : Dev) (p no bp : Nat) (inj : Bool) (d : List Byte) : (s.raiseJ p no bp inj d).free = s.free := (Dev.raiseJ_eventsOnly ..).free
@[simp] theorem Dev.raiseJ_power (s : Dev) (p no bp : Nat) (inj : Bool) (d : List Byte) : (s.raiseJ p no bp inj d).power = s.power := (Dev.raiseJ_eventsOnly ..).power
@[simp] theorem Dev.raiseJ_clk (s : Dev) (p no bp : Nat) (inj : Bool) (d : List Byte) : (s.raiseJ p no bp inj d).clk = s.clk := (Dev.raiseJ_eventsOnly ..).clk
@[simp] theorem Dev.raiseJ_pins (s : Dev) (p no bp : Nat) (inj : Bool) (d : List Byte) : (s.raiseJ p no bp inj d).pins = s.pins := (Dev.raiseJ_eventsOnly ..).pins
@[simp] theorem Dev.raiseJ_bus (s : Dev) (p no bp : Nat) (inj : Bool) (d : List Byte) : (s.raiseJ p no bp inj d).bus = s.bus := (Dev.raiseJ_eventsOnly ..).bus
@[simp] theorem Dev.raiseJ_fe (s : Dev) (p no bp : Nat) (inj : Bool) (d : List Byte) : (s.raiseJ p no bp inj d).fe = s.fe := (Dev.raiseJ_eventsOnly ..).fe
@[simp] theorem Dev.raiseJ_temps (s : Dev) (p no bp : Nat) (inj : Bool) (d : List Byte) : (s.raiseJ p no bp inj d).temps = s.temps := (Dev.raiseJ_eventsOnly ..).temps
@[simp] theorem Dev.raiseJ_meter (s : Dev) (p no bp : Nat) (inj : Bool) (d : List Byte) : (s.raiseJ p no bp inj d).meter = s.meter := (Dev.raiseJ_eventsOnly ..).meter
@[simp] theorem Dev.raiseJ_pulse (s : Dev) (p no bp : Nat) (inj : Bool) (d : List Byte) : (s.raiseJ p no bp inj d).pulse = s.pulse := (Dev.raiseJ_eventsOnly ..).pulse
@[simp] theorem Dev.raiseJ_pulseCal (s : Dev) (p no bp : Nat) (inj : Bool) (d : List Byte) : (s.raiseJ p no bp inj d).pulseCal = s.pulseCal := (Dev.raiseJ_eventsOnly ..).pulseCal
@[simp] theorem Dev.raiseJ_harm (s : Dev) (p no bp : Nat) (inj : Bool) (d : List Byte) : (s.raiseJ p no bp inj d).harm = s.harm := (Dev.raiseJ_eventsOnly ..).harm
@[simp] theorem Dev.raiseJ_eye (s : Dev) (p no bp : Nat) (inj : Bool) (d : List Byte) : (s.raiseJ p no bp inj d).eye = s.eye := (Dev.raiseJ_eventsOnly ..).eye
@[simp] theorem Dev.raiseJ_mram (s : Dev) (p no bp : Nat) (inj : Bool) (d : List Byte) : (s.raiseJ p no bp inj d).mram = s.mram := (Dev.raiseJ_eventsOnly ..).mram
@[simp] theorem Dev.raiseJ_prepay (s : Dev) (p no bp : Nat) (inj : Bool) (d : List Byte) : (s.raiseJ p no bp inj d).prepay = s.prepay := (Dev.raiseJ_eventsOnly ..).prepay
@[simp] theorem Dev.raiseJ_disp (s : Dev) (p no bp : Nat) (inj : Bool) (d : List Byte) : (s.raiseJ p no bp inj d).disp = s.disp := (Dev.raiseJ_eventsOnly ..).disp
@[simp] theorem Dev.raiseJ_tamp (s : Dev) (p no bp : Nat) (inj : Bool) (d : List Byte) : (s.raiseJ p no bp inj d).tamp = s.tamp := (Dev.raiseJ_eventsOnly ..).tamp
@[simp] theorem Dev.raiseJ_sec (s : Dev) (p no bp : Nat) (inj : Bool) (d : List Byte) : (s.raiseJ p no bp inj d).sec = s.sec := (Dev.raiseJ_eventsOnly ..).sec
@[simp] theorem Dev.raiseJ_otp (s : Dev) (p no bp : Nat) (inj : Bool) (d : List Byte) : (s.raiseJ p no bp inj d).otp = s.otp := (Dev.raiseJ_eventsOnly ..).otp
@[simp] theorem Dev.raiseJ_rtc (s : Dev) (p no bp : Nat) (inj : Bool) (d : List Byte) : (s.raiseJ p no bp inj d).rtc = s.rtc := (Dev.raiseJ_eventsOnly ..).rtc
@[simp] theorem Dev.raiseJ_plc (s : Dev) (p no bp : Nat) (inj : Bool) (d : List Byte) : (s.raiseJ p no bp inj d).plc = s.plc := (Dev.raiseJ_eventsOnly ..).plc
@[simp] theorem Dev.raiseJ_mesh (s : Dev) (p no bp : Nat) (inj : Bool) (d : List Byte) : (s.raiseJ p no bp inj d).mesh = s.mesh := (Dev.raiseJ_eventsOnly ..).mesh
@[simp] theorem Dev.raiseJ_upd (s : Dev) (p no bp : Nat) (inj : Bool) (d : List Byte) : (s.raiseJ p no bp inj d).upd = s.upd := (Dev.raiseJ_eventsOnly ..).upd
@[simp] theorem Dev.raiseJ_bist (s : Dev) (p no bp : Nat) (inj : Bool) (d : List Byte) : (s.raiseJ p no bp inj d).bist = s.bist := (Dev.raiseJ_eventsOnly ..).bist
@[simp] theorem Dev.raiseJ_host (s : Dev) (p no bp : Nat) (inj : Bool) (d : List Byte) : (s.raiseJ p no bp inj d).host = s.host := (Dev.raiseJ_eventsOnly ..).host
theorem Dev.rd_raiseJ (s : Dev) (p no bp : Nat) (inj : Bool) (d : List Byte) (r : Nat) (h : eventReg r = false) : (s.raiseJ p no bp inj d).rd r = s.rd r := (Dev.raiseJ_eventsOnly ..).1 r h
theorem Dev.get_raiseJ (s : Dev) (p no bp : Nat) (inj : Bool) (d : List Byte) (f : Field) (h : eventReg f.addr = false) : (s.raiseJ p no bp inj d).get f = s.get f := (Dev.raiseJ_eventsOnly ..).get h
theorem Dev.on_raiseJ (s : Dev) (p no bp : Nat) (inj : Bool) (d : List Byte) (f : Field) (h : eventReg f.addr = false) : (s.raiseJ p no bp inj d).on f = s.on f := Dev.on_congr ((Dev.raiseJ_eventsOnly ..).1 _ h)

end Sys2Proof.Machine
end

