-- ==== Sys2Proof/Laws/Lists.lean ====
section
/-! SUPPORT. Lists as arrays, and what a fold keeps. -/

namespace Sys2Proof.Machine

/-- What one step of a fold keeps, the fold keeps. -/
theorem foldl_keep {α β σ : Type} (g : σ → β) (f : σ → α → σ) (h : ∀ s x, g (f s x) = g s) (l : List α) (s : σ) : g (l.foldl f s) = g s := by
  induction l generalizing s with
  | nil => rfl
  | cons x r ih => exact (ih _).trans (h s x)

theorem forN_keep {β σ : Type} (g : σ → β) (f : σ → Nat → σ) (h : ∀ s x, g (f s x) = g s) (n : Nat) (s : σ) : g (forN n s f) = g s :=
  foldl_keep g f h _ _

/-- An invariant that one step of a fold keeps, the fold keeps. -/
theorem foldl_inv {α σ : Type} (p : σ → Prop) (f : σ → α → σ) (h : ∀ s x, p s → p (f s x)) (l : List α) (s : σ) (hs : p s) : p (l.foldl f s) := by
  induction l generalizing s with
  | nil => exact hs
  | cons x r ih => exact ih _ (h s x hs)

@[simp] theorem length_updAt {α : Type} (l : List α) (n : Nat) (f : α → α) : (updAt l n f).length = l.length := by
  induction l generalizing n with
  | nil => rfl
  | cons x r ih => cases n <;> simp [updAt, ih]

@[simp] theorem length_setAt {α : Type} (l : List α) (n : Nat) (v : α) : (setAt l n v).length = l.length := length_updAt _ _ _

/-- The element changed. -/
theorem nth_updAt_same {α : Type} (l : List α) (n : Nat) (f : α → α) (d : α) (h : n < l.length) : nth (updAt l n f) n d = f (nth l n d) := by
  induction l generalizing n with
  | nil => simp at h
  | cons x r ih =>
    cases n with
    | zero => rfl
    | succ n => exact ih n (by simpa using h)

/-- The other elements are kept. -/
theorem nth_updAt_ne {α : Type} (l : List α) (n k : Nat) (f : α → α) (d : α) (h : k ≠ n) : nth (updAt l n f) k d = nth l k d := by
  induction l generalizing n k with
  | nil => rfl
  | cons x r ih =>
    cases n with
    | zero => cases k with
      | zero => exact absurd rfl h
      | succ k => rfl
    | succ n => cases k with
      | zero => rfl
      | succ k => exact ih n k (by omega)

theorem nth_setAt_same {α : Type} (l : List α) (n : Nat) (v d : α) (h : n < l.length) : nth (setAt l n v) n d = v := nth_updAt_same _ _ _ _ h
theorem nth_setAt_ne {α : Type} (l : List α) (n k : Nat) (v d : α) (h : k ≠ n) : nth (setAt l n v) k d = nth l k d := nth_updAt_ne _ _ _ _ _ h

/-- The value just assigned to a key. -/
theorem lookup_assign_same {α : Type} (l : List (Nat × α)) (k : Nat) (v : α) : lookup (assign l k v) k = some v := by
  have h : (l.filter fun c => c.1 != k).find? (fun c => c.1 == k) = none := by simp [List.find?_eq_none]
  simp [lookup, assign, List.find?_append, h]

/-- Bytes made of a number are as many as asked for. -/
@[simp] theorem length_leBytes (n v : Nat) : (leBytes n v).length = n := by
  induction n generalizing v with
  | zero => rfl
  | succ n ih => simp [leBytes, ih]

/-- A number is read back from its bytes. -/
theorem ofLe_leBytes (n v : Nat) : ofLe (leBytes n v) = v % 256 ^ n := by
  induction n generalizing v with
  | zero => simp [leBytes, ofLe, Nat.mod_one]
  | succ n ih =>
    have e : v % 256 ^ (n + 1) = v % 256 + 256 * (v / 256 % 256 ^ n) := by rw [Nat.pow_succ', Nat.mod_mul]
    rw [e]
    simp [leBytes, ofLe, ih]

end Sys2Proof.Machine
end

