-- ==== Sys2Proof/Laws/Outcomes.lean ====
section
/-! SUPPORT. One lemma per shape of meaning: when it completes, with what next state; and what every meaning of that shape leaves unchanged. -/

namespace Sys2Proof.Machine

open Sys2Proof.Safety

theorem act_eq (s : State) (f : Dev → Dev) : act s f = .next { s with toDev := f s.toDev } := rfl

theorem mainAct_eq (s : State) (f : Dev → Dev) (h : s.mainOn = true) : mainAct s f = .next { s with toDev := f s.toDev } := by
  simp only [mainAct, act, h, if_true]

theorem mainAct_off (s : State) (f : Dev → Dev) (h : s.mainOn = false) : mainAct s f = .next s := by
  simp only [mainAct, act, h, Bool.false_eq_true, if_false]

theorem landing_eq (s : Dev) (m a : Nat) (v : Word) (f : Dev → Dev) (h : s.islRun (pageOf a) = true) : s.landing m a v f = f s := by
  simp only [Dev.landing, h, if_true]

/-- A write that lands has the effect its meaning gives. -/
theorem wrAct_eq (m a : Nat) (v : Word) (s : State) (f : Dev → Dev) (h : lands s a) : wrAct m a v s f = .next { s with toDev := f s.toDev } := by
  simp only [wrAct, mainAct_eq _ _ h.1, landing_eq _ _ _ _ _ h.2]

theorem wrMem_eq (m a : Nat) (v : Word) (s : State) (f : List Host.Cell → Dev → Dev) (h : lands s a) :
    wrMem m a v s f = .next { s with toDev := f s.mem s.toDev } := wrAct_eq m a v s _ h

/-- A write to a page whose island is not clocked waits in the interconnect (R80). -/
theorem wrAct_posted (m a : Nat) (v : Word) (s : State) (f : Dev → Dev) (hm : s.mainOn = true) (hi : s.islRun (pageOf a) = false) :
    wrAct m a v s f = .next { s with toDev := { s.toDev with bus := { s.bus with posted := s.bus.posted ++ [⟨m, a, v⟩] } } } := by
  simp only [wrAct, mainAct_eq _ _ hm, Dev.landing, hi, Bool.false_eq_true, if_false]

theorem engAct_eq (s : State) (f : Dev → Dev) (h : s.mainOn = true) (hc : s.clk.onRc = false) : engAct s f = .next { s with toDev := s.toDev.gathered f } := by
  simp only [engAct, mainAct_eq _ _ h, hc, Bool.false_eq_true, if_false]

theorem bkpAct_eq (s : State) (f : Dev → Dev) (h : s.power.bkpAlive = true) : bkpAct s f = .next { s with toDev := f s.toDev } := by
  simp only [bkpAct, act, h, if_true]

theorem updAct_eq (s : State) (f : List Host.Cell → Dev → Dev × List Host.Cell) (h : s.mainOn = true) :
    updAct s f = .next { s with toDev := (f s.mem s.toDev).1, mem := (f s.mem s.toDev).2 } := by
  simp only [updAct, h, if_true]

theorem updWr_eq (m a : Nat) (v : Word) (s : State) (f : List Host.Cell → Dev → Dev × List Host.Cell) (h : lands s a) :
    updWr m a v s f = .next { s with toDev := (f s.mem s.toDev).1, mem := (f s.mem s.toDev).2 } := by
  have e : updWr m a v s f = updAct s f := by
    unfold updWr updAct
    simp only [h.2, if_true]
  rw [e, updAct_eq _ _ h.1]

theorem spiAct_eq (s : State) (f : State → State) (h : s.mainOn = true) : spiAct s f = .next (f s) := by
  simp only [spiAct, h, if_true]

/-! ### What is kept -/

/-- A meaning keeps memory and the waiting commands, whatever it does to the device. -/
def keepsMem (o : Out) (s : State) : Prop := ∃ d : Dev, o = .next { s with toDev := d }

theorem act_keepsMem (s : State) (f : Dev → Dev) : keepsMem (act s f) s := ⟨_, rfl⟩
theorem mainAct_keepsMem (s : State) (f : Dev → Dev) : keepsMem (mainAct s f) s := ⟨_, rfl⟩
theorem wrAct_keepsMem (m a : Nat) (v : Word) (s : State) (f : Dev → Dev) : keepsMem (wrAct m a v s f) s := ⟨_, rfl⟩
theorem wrMem_keepsMem (m a : Nat) (v : Word) (s : State) (f : List Host.Cell → Dev → Dev) : keepsMem (wrMem m a v s f) s := ⟨_, rfl⟩
theorem engAct_keepsMem (s : State) (f : Dev → Dev) : keepsMem (engAct s f) s := ⟨_, rfl⟩
theorem bkpAct_keepsMem (s : State) (f : Dev → Dev) : keepsMem (bkpAct s f) s := ⟨_, rfl⟩

/-- A keyed write with its key. -/
theorem keyed_eq (s : Dev) (p key : Nat) (v : Word) (f : Dev → Dev) (h : keyOf v = key) : s.keyed p key v f = f s := by
  simp only [Dev.keyed, h, if_true]

/-- A keyed write without its key is ignored and sets LOCKERR (R4). -/
theorem keyed_ne (s : Dev) (p key : Nat) (v : Word) (f : Dev → Dev) (h : keyOf v ≠ key) : s.keyed p key v f = s.lockErr p := by
  simp only [Dev.keyed, h, if_false]

theorem keyedOp_eq (s : Dev) (p key : Nat) (v : Word) (f : Field) (op : Nat) (g : Dev → Dev) (h : keyOf v = key) (ho : bitsOf v f.hi f.lo = op) :
    s.keyedOp p key v f op g = g s := by
  simp only [Dev.keyedOp, Dev.keyed, h, ho, if_true]

end Sys2Proof.Machine
end

