-- ==== Sys2Proof/Laws/Reset.lean ====
section
/-! SUPPORT. What a reset leaves in a register: the bits its mask keeps, every other bit at the reset value. -/

namespace Sys2Proof.Machine

theorem rd_nil (a : Nat) : Regs.rd [] a = regReset a := rfl

theorem Regs.rd_cons_ne {c : Nat × Word} {r : Regs} {a : Nat} (h : c.1 ≠ a) : Regs.rd (c :: r) a = Regs.rd r a := by
  simp [Regs.rd, Store.read, h]

theorem Regs.rd_cons_same (v : Word) (r : Regs) (a : Nat) : Regs.rd ((a, v) :: r) a = v := by
  simp [Regs.rd, Store.read]

/-- Entries that are not at `a` leave what `keep` shows at `a` alone. -/
theorem Regs.keep_skip (mask : Nat → Nat) (a : Nat) (l acc : Regs) (h : ∀ c ∈ l, c.1 ≠ a) :
    Regs.rd (l.foldl (fun (t : Regs) e => if mask e.1 = 0 then t else Regs.wr t e.1 ((e.2 &&& BitVec.ofNat 32 (mask e.1)) ||| (regReset e.1 &&& ~~~ BitVec.ofNat 32 (mask e.1)))) acc) a = Regs.rd acc a := by
  induction l generalizing acc with
  | nil => rfl
  | cons c r ih =>
    rw [List.foldl_cons, ih _ fun x hx => h x (List.mem_cons_of_mem _ hx)]
    split
    · rfl
    · exact Regs.rd_wr_ne (Ne.symm (h c List.mem_cons_self))

/-- A register after `keep`. -/
theorem Regs.rd_keep (m : Regs) (mask : Nat → Nat) (a : Nat) (h : Store.wf regReset m = true) :
    Regs.rd (Regs.keep m mask) a =
      if mask a = 0 then regReset a else (Regs.rd m a &&& BitVec.ofNat 32 (mask a)) ||| (regReset a &&& ~~~ BitVec.ofNat 32 (mask a)) := by
  have hp : m.Pairwise fun x y => x.1 < y.1 := (Store.wf_iff.1 h).1
  clear h
  have key : ∀ (l acc : Regs), l.Pairwise (fun x y => x.1 < y.1) → Regs.rd acc a = regReset a →
      Regs.rd (l.foldl (fun (t : Regs) e => if mask e.1 = 0 then t else Regs.wr t e.1 ((e.2 &&& BitVec.ofNat 32 (mask e.1)) ||| (regReset e.1 &&& ~~~ BitVec.ofNat 32 (mask e.1)))) acc) a =
        if mask a = 0 then regReset a else (Regs.rd l a &&& BitVec.ofNat 32 (mask a)) ||| (regReset a &&& ~~~ BitVec.ofNat 32 (mask a)) := by
    intro l
    induction l with
    | nil =>
      intro acc _ hacc
      rw [List.foldl_nil, hacc, rd_nil]
      split
      · rfl
      · ext i; simp; cases (regReset a)[i] <;> simp
    | cons c r ih =>
      intro acc hl hacc
      obtain ⟨h1, h2⟩ := List.pairwise_cons.1 hl
      obtain ⟨k, v⟩ := c
      by_cases hk : k = a
      · subst hk
        rw [List.foldl_cons, Regs.keep_skip _ _ _ _ fun x hx => Nat.ne_of_gt (h1 x hx), Regs.rd_cons_same]
        split
        · exact hacc
        · exact Regs.rd_wr_same _ _ _
      · rw [List.foldl_cons, Regs.rd_cons_ne hk]
        refine ih _ h2 ?_
        split
        · exact hacc
        · rw [Regs.rd_wr_ne (Ne.symm hk), hacc]
  exact key m [] hp rfl

/-- A register all of whose bits are kept. -/
theorem Regs.rd_keep_all (m : Regs) (mask : Nat → Nat) (a : Nat) (h : Store.wf regReset m = true) (hm : mask a = 0xFFFFFFFF) :
    Regs.rd (Regs.keep m mask) a = Regs.rd m a := by
  rw [Regs.rd_keep m mask a h, hm, if_neg (by decide)]
  have e : BitVec.ofNat 32 0xFFFFFFFF = BitVec.allOnes 32 := by decide
  rw [e, BitVec.and_allOnes, BitVec.not_allOnes, BitVec.and_zero, BitVec.or_zero]

/-- What `keep` leaves is in canonical form. -/
theorem Regs.keep_wf (m : Regs) (mask : Nat → Nat) : Store.wf regReset (Regs.keep m mask) = true := by
  have key : ∀ (l acc : Regs), Store.wf regReset acc = true →
      Store.wf regReset (l.foldl (fun (t : Regs) e => if mask e.1 = 0 then t else Regs.wr t e.1 ((e.2 &&& BitVec.ofNat 32 (mask e.1)) ||| (regReset e.1 &&& ~~~ BitVec.ofNat 32 (mask e.1)))) acc) = true := by
    intro l
    induction l with
    | nil => exact fun _ h => h
    | cons c r ih =>
      intro acc h
      refine ih _ ?_
      dsimp only
      split
      · exact h
      · exact Store.write_wf h
  exact key m [] rfl

end Sys2Proof.Machine
end

