-- ==== Sys2Proof/WellFormed.lean ====
section
/-! DEFINITION. Which commands are well formed: masters, pages, channels and item numbers that the spec has, addresses of 32 bits, and a command word that names its own operation. A command that is not well formed is still run by `exec`; no environment of the block sends one. -/

namespace Sys2Proof

namespace WellFormed

/-- Bits of a command word. -/
def bitsOf (v : Word) (hi lo : Nat) : Nat := v.toNat / 2 ^ lo % 2 ^ (hi + 1 - lo)

/-- A master of R81: harts 0 to 15, the host 16, the debug port 17. -/
def masterOk (m : Nat) : Bool := decide (m ≤ 17)

end WellFormed

open WellFormed in
/-- The command is well formed. -/
def Instr.wf (i : Instr) : Bool :=
  match i with
  | .vsupRiseStart _ _ _ _ _ => true
  | .undervoltageLockout => true
  | .backupSwitchTransition _ _ => true
  | .backupDomainLoss => true
  | .backupDomainPowerUp _ => true
  | .pfCfgWrite m _ _ => masterOk m
  | .powerFailWarning _ => true
  | .powerFailCommit _ _ => true
  | .powerFailWarningClear _ => true
  | .powerFailTimeout => true
  | .rideThroughComplete => true
  | .overtempShutdown block => decide (block ≤ 12)
  | .overtempRelease _ _ _ _ _ => true
  | .clockFailure => true
  | .pinReset => true
  | .watchdogHalf => true
  | .watchdogTimeout => true
  | .wdtConfigWrite m _ _ => masterOk m
  | .wdtKick m v => masterOk m && bitsOf v 0 0 == 1
  | .softwareReset m v => masterOk m && bitsOf v 0 0 == 1
  | .preResetCommitDone _ _ => true
  | .preResetCommitTimeout => true
  | .internalResetRelease _ _ _ _ _ => true
  | .pageSoftReset m page => masterOk m && decide (page ≤ 63)
  | .enterQuiet m v => masterOk m && bitsOf v 0 0 == 1
  | .wakeFromQuiet src => decide (src ≤ 7)
  | .shutdown m v => masterOk m && bitsOf v 0 0 == 1
  | .pageEnableWrite m page _ => masterOk m && decide (page ≤ 63)
  | .freezeTimeout page => decide (page ≤ 63)
  | .irqStatusClear m page _ => masterOk m && decide (page ≤ 63)
  | .injectionWrite m page _ => masterOk m && decide (page ≤ 63)
  | .pageLock m page v => masterOk m && decide (page ≤ 63) && bitsOf v 0 0 == 1
  | .registerWrite m addr size _ => masterOk m && decide (addr < 2 ^ 32) && [1, 2, 4].contains size
  | .postedWriteDiscard m addr => masterOk m && decide (addr < 2 ^ 32)
  | .readTimeout m addr => masterOk m && decide (addr < 2 ^ 32)
  | .fenceRead m => masterOk m
  | .latchedPairRead m addr => masterOk m && decide (addr < 2 ^ 32)
  | .ringSeqRead m => masterOk m
  | .temperatureTableLoad m v => masterOk m && bitsOf v 0 0 == 1
  | .tariffTableLoad m v => masterOk m && bitsOf v 0 0 == 1
  | .sequenceTableLoad m v => masterOk m && bitsOf v 0 0 == 1
  | .displayTableLoad m v => masterOk m && bitsOf v 0 0 == 1
  | .bandPlanLoad m v => masterOk m && bitsOf v 0 0 == 1
  | .rselWrite m heat _ => masterOk m && decide (heat ≤ 11)
  | .isoWrite m block _ => masterOk m && decide (block ≤ 12)
  | .applyPush m block _ => masterOk m && decide (block ≤ 12)
  | .applyDone block => decide (block ≤ 12)
  | .laneEnableWrite m block _ => masterOk m && decide (block ≤ 12)
  | .referenceCheck ref _ => decide (ref ≤ 3)
  | .referenceRecheck ref _ => decide (ref ≤ 3)
  | .referenceSettled ref => decide (ref ≤ 3)
  | .referenceCompare _ => true
  | .iretCheck heat _ => decide (heat ≤ 11)
  | .tempReading block _ => decide (block ≤ 12)
  | .sampleRelease _ _ => true
  | .calMeasureStart m v => masterOk m && bitsOf v 0 0 == 1
  | .calMeasureDone => true
  | .gunInput => true
  | .gunFire m v => masterOk m && bitsOf v 0 0 == 1
  | .strideIssue g => decide (g ≤ 3)
  | .speculativePublish g => decide (g ≤ 3)
  | .boundaryDecision g _ => decide (g ≤ 3)
  | .replayComplete pacer _ _ => decide (pacer ≤ 15)
  | .liveCatchUp pacer => decide (pacer ≤ 15)
  | .trackerCycleEnd g _ _ _ _ => decide (g ≤ 3)
  | .freq10Interval g => decide (g ≤ 3)
  | .fixedBlockEnd g => decide (g ≤ 3)
  | .frameConfigWrite m g _ _ => masterOk m && decide (g ≤ 3)
  | .pulseTick => true
  | .pulseEnd ch => decide (ch ≤ 7)
  | .pulseCalEnter m v => masterOk m && bitsOf v 15 8 != 0
  | .pulseCalExit m v => masterOk m && bitsOf v 15 8 == 0
  | .pulseCalTimeout => true
  | .pulseConfigWrite m ch _ _ => masterOk m && decide (ch ≤ 7)
  | .harmonicWindowWrite g => decide (g ≤ 3)
  | .aggTenminClose => true
  | .captureComplete => true
  | .captureClear m v => masterOk m && bitsOf v 1 1 == 1
  | .captureRecordLock m v => masterOk m && bitsOf v 0 0 == 1
  | .captureRecordUnlock m v => masterOk m && bitsOf v 1 1 == 1
  | .captureRecordDelete m v => masterOk m && bitsOf v 2 2 == 1
  | .eyeletScan wire _ => decide (wire ≤ 11)
  | .eyeletRescan m v => masterOk m && bitsOf v 1 0 == 1
  | .eyeletXfer m v _ _ => masterOk m && bitsOf v 1 0 == 2
  | .eyeletWireFault wire => decide (wire ≤ 11)
  | .bindingWrite m b _ => masterOk m && decide (b ≤ 63)
  | .billingApplyCycle b => decide (b ≤ 63)
  | .timeBoundaries _ => true
  | .demandSchemeWrite m _ => masterOk m
  | .billCommitNow m v => masterOk m && bitsOf v 1 0 == 1
  | .billManualSnapshot m v => masterOk m && bitsOf v 1 0 == 2
  | .periodicCommit _ _ => true
  | .registerSelect m _ => masterOk m
  | .tokenCheck m v => masterOk m && bitsOf v 0 0 == 1
  | .tokenApply => true
  | .prepayArm m v => masterOk m && bitsOf v 1 0 == 1
  | .prepayAcceptEc m v => masterOk m && bitsOf v 1 0 == 2
  | .prepayDisarm m v => masterOk m && bitsOf v 1 0 == 3
  | .discOpen m v => masterOk m && bitsOf v 2 0 == 1
  | .discClose m v => masterOk m && bitsOf v 2 0 == 2
  | .discDisarm m v => masterOk m && bitsOf v 2 0 == 3
  | .tripBatch slot => decide (slot ≤ 7)
  | .rankGapExpiry => true
  | .chainRefresh _ => true
  | .feedbackCheck n _ => decide (n ≤ 63)
  | .feedbackRecheck n _ => decide (n ≤ 63)
  | .feedbackSample _ => true
  | .dpConfigWrite m n _ => masterOk m && decide (n ≤ 63)
  | .btn0Press => true
  | .btn1ShortPress => true
  | .btn1LongPress => true
  | .displayFrame => true
  | .displayInit => true
  | .pageDwellExpiry => true
  | .scrollHoldExpiry => true
  | .selectionTimeout => true
  | .dispNext m v => masterOk m && bitsOf v 1 0 == 1
  | .dispSelect m v => masterOk m && bitsOf v 1 0 == 2
  | .dispResume m v => masterOk m && bitsOf v 1 0 == 3
  | .caseTamper level => decide (level.n ≤ 3)
  | .laceBurst n _ => decide (n ≤ 3)
  | .laceRetry n _ => decide (n ≤ 3)
  | .stickyClear m _ _ => masterOk m
  | .nonceDraw m => masterOk m
  | .secAuth m v => masterOk m && bitsOf v 3 0 == 1
  | .secClose m v => masterOk m && bitsOf v 3 0 == 2
  | .secInstall m v => masterOk m && bitsOf v 3 0 == 3
  | .secSeal m v => masterOk m && bitsOf v 3 0 == 4
  | .secUnseal m v => masterOk m && bitsOf v 3 0 == 5
  | .secLoadToken m v => masterOk m && bitsOf v 3 0 == 6
  | .secLoadLink m v => masterOk m && bitsOf v 3 0 == 7
  | .secFuse m v _ => masterOk m && bitsOf v 3 0 == 8
  | .secEraseTest m v => masterOk m && bitsOf v 3 0 == 9
  | .sessionExpiry => true
  | .rtcSecondTick => true
  | .alarmPulseEnd k => decide (k ≤ 1)
  | .timeFreezeRead m _ => masterOk m
  | .timeReleaseRead m => masterOk m
  | .freezeCopyExpiry m => masterOk m
  | .rtcSet m v _ => masterOk m && bitsOf v 2 0 == 1
  | .rtcShift m v _ => masterOk m && bitsOf v 2 0 == 2
  | .shiftComplete => true
  | .rateStart m v => masterOk m && bitsOf v 2 0 == 3
  | .rateStop m v => masterOk m && bitsOf v 2 0 == 4
  | .rateMeasurementEnd _ => true
  | .trimWrite m _ => masterOk m
  | .trimTempUpdate => true
  | .osfClear m v => masterOk m && bitsOf v 0 0 == 1
  | .crystalStop => true
  | .crystalResume => true
  | .evinEdge n _ _ => decide (n ≤ 1)
  | .vbatMeasure _ => true
  | .frameTransmit slots => decide (slots ≤ 255)
  | .ackTimeout => true
  | .ackFrame _ _ => true
  | .dataFrame _ _ _ => true
  | .soundFrame _ _ _ => true
  | .tonemapFrame _ _ _ => true
  | .beaconFrame _ _ _ => true
  | .rxMapHoldExpiry idx => decide (idx ≤ 63)
  | .tonemapRefreshPeriod idx => decide (idx ≤ 63)
  | .beaconTimer => true
  | .advertisementTimer => true
  | .triggeredAdvertisement => true
  | .advMsg _ _ => true
  | .joinReq _ _ => true
  | .joinResp _ _ => true
  | .leaveMsg _ => true
  | .timeMsg _ _ => true
  | .joinListenEnd => true
  | .joinTimeout => true
  | .routeExpiry _ => true
  | .ntHoldover => true
  | .ntLoss => true
  | .ntSet m _ => masterOk m
  | .meshJoin m v => masterOk m && bitsOf v 1 0 == 1
  | .meshLeave m v => masterOk m && bitsOf v 1 0 == 2
  | .meshAdvertise m v => masterOk m && bitsOf v 1 0 == 3
  | .meshConfigWrite m _ => masterOk m
  | .routeQuery m _ => masterOk m
  | .offerMsg _ _ => true
  | .needMsg _ _ => true
  | .blockMsg _ _ => true
  | .haveMsg _ _ => true
  | .updateOfferTimer => true
  | .needRetryTimer => true
  | .updActivate m v _ => masterOk m && bitsOf v 1 0 == 1
  | .updDiscard m v => masterOk m && bitsOf v 1 0 == 2
  | .updConfirm m v => masterOk m && bitsOf v 0 0 == 1
  | .trialWindowExpiry => true
  | .batonRelease m _ => masterOk m
  | .sliceEnd _ _ _ _ => true
  | .sliceTimeout => true
  | .coolingTimeout => true
  | .flashErase m v => masterOk m && bitsOf v 1 0 == 1
  | .flashProgram m v => masterOk m && bitsOf v 1 0 == 2
  | .flashOpDone _ _ => true
  | .splitSelect m n _ => masterOk m && decide (n ≤ 31)
  | .splitLatch m _ => masterOk m
  | .spiWrite _ addr _ _ => decide (addr < 2 ^ 32)
  | .spiRead _ addr _ => decide (addr < 2 ^ 32)
  | .spiBurstWrite _ addr data _ => decide (addr < 2 ^ 32) && decide (data.length ≤ 256)
  | .spiBurstRead _ addr len _ => decide (addr < 2 ^ 32) && decide (len ≤ 255)
  | .spiStatus _ => true
  | .spiAbort addr cut _ => decide (addr < 2 ^ 32) && decide (cut.data.length ≤ 256) && decide (cut.words ≤ 256)
  | .doorbellSet m _ => masterOk m
  | .uartDataWrite m u _ => masterOk m && decide (u ≤ 1)
  | .uartDataRead m u => masterOk m && decide (u ≤ 1)
  | .uartRxByte u _ _ _ _ => decide (u ≤ 1)
  | .chainFrameReceive _ => true
  | .ethTxKick m v => masterOk m && bitsOf v 0 0 == 1
  | .ethTxDone _ => true
  | .ethFrameReceive _ _ => true
  | .mdioAccess m v => masterOk m && bitsOf v 31 31 == 1
  | .mdioDone _ => true
  | .debugRead addr _ => decide (addr ≤ 127)
  | .debugWrite addr _ _ => decide (addr ≤ 127)
  | .debugStatus _ => true
  | .debugDisconnect => true
  | .debugFramingReset => true
  | .gpioEdge pin _ => decide (pin ≤ 15)
  | .xtalOk => true
  | .neighbourAgedOut idx => decide (idx ≤ 63)
  | .debuggerConnected => true
  | .secOperationEnded => true
  | .uartByteTransmitted u => decide (u ≤ 1)

end Sys2Proof
end

