-- ==== Sys2Proof/Tests/Slice0.lean ====
section
/-! SUPPORT. The author's tests: the smoke test of WellFormed, a few of the spec's worked examples and published vectors, and for every statement with hypotheses a witness that meets them, clause by clause. -/

namespace Sys2Proof.Tests

set_option Elab.async false

open Sys2Proof.Machine Sys2Proof.Safety

/-- The state after reset, running. -/
def up : State := { State.reset with toDev := { State.reset.toDev with power := { State.reset.power with st := .run } } }
/-- A state with its device changed. -/
def dev (f : Dev → Dev) (s : State) : State := { s with toDev := f s.toDev }
/-- A state with its power changed. -/
def pow (f : Power → Power) (s : State) : State := dev (fun d => { d with power := f d.power }) s
/-- A state with fields set. -/
def set (l : List (Field × Nat)) (s : State) : State := dev (fun d => l.foldl (fun t f => t.set f.1 f.2) d) s
/-- A state with words written. -/
def regs (l : List (Nat × Word)) (s : State) : State := dev (fun d => l.foldl (fun t f => t.wr f.1 f.2) d) s
/-- The billing engine runs. -/
def bil : State := set [(Fld.UPD_ENG_RUN, 2)] up
/-- A stride of one 50 Hz cycle. -/
def stride0 : Stride := { cyc := 0, start := 0, len := 640 * q32, period := 640 * q32, step := 640 * q32 / 256, tol := q32, stepThr := q32, n := 256 }
/-- A capture record in progress. -/
def rec0 : CapRec := { id := 0, blk := 0, slot := 0, code := 0, trigSeq := 0, firstSeq := 0, rows := 1, block := 0, blocks := 1 }
/-- A pod on the last lane. -/
def pod0 : Pod := { id := 0, lane := 191, mapk := 0, irated := 0, budget := 0, expiry := 0 }
/-- Bytes as the words of consecutive registers. -/
def put (a : Nat) (b : List Byte) (s : State) : State := regs ((List.range (b.length / 4)).map fun i => (a + 4 * i, BitVec.ofNat 32 (leAt b (4 * i) 4))) s
/-- A state whose table source `f` points at a table image of type `ty` with entries `es` of `n` bytes, at the start of the table area of the flash. -/
def tbl (f : Field) (ty n : Nat) (es : List Entry) (s : State) : State :=
  let h := leBytes 4 0x4C425447 ++ leBytes 2 ty ++ leBytes 2 0x100 ++ leBytes 2 es.length ++ leBytes 2 n
  { set [(f, 0x60C00000)] s with mem := Memory.writeAll s.mem 0x60C00000 (h ++ leBytes 4 (crc32 (h ++ es.flatten)) ++ es.flatten) }
/-- A state whose TOKEN registers hold a token with its MAC under the key of 32 zero bytes. -/
def token (tid amount b kind : Nat) (s : State) : State :=
  let t := leBytes 4 tid ++ leBytes 8 amount ++ leBytes 1 b ++ leBytes 1 kind ++ [0, 0] ++ s.otp.devid
  put (Reg.PREPAY_TOKEN 0) (t ++ slice (hmac (List.replicate 32 0) t) 0 8) (dev (fun d => { d with sec := { d.sec with tok := some (List.replicate 32 0) } }) s)
/-- A frame that asks for an ACK. -/
def frame0 : TxFrame := { type := 0, src := 1, dst := 2, enc := false, ackreq := true, retx := 2, seq := 9, payload := [1, 2] }
/-- A posting of the last point, whose one lane is lane 0. -/
def post0 : Posting := ⟨0, 0, {}, 63, ⟨0xFFFFFF00, 0, 0x80000000⟩⟩
/-- A rank that opens the last position. -/
def rank0 : Rank := ⟨[⟨63, true, 2⟩], 0, true⟩
/-- A tone map of no carriers. -/
def map0 : TMap := { tmi := 7, rate := 3, gi := true, noise := true, kb := 31, span := 20, plan := 0, nbits := 0, codes := List.replicate 1567 0 }
/-- A parent heard in LISTEN. -/
def cand0 : Cand := ⟨9, 5, List.replicate 8 3⟩
/-- A join request that asks for address 9, under the key of 32 zero bytes. -/
def join0 : List Byte :=
  let b : List Byte := List.replicate 8 7 ++ List.replicate 8 3 ++ [9, 0]
  b ++ [0, 0] ++ (hmac (List.replicate 32 0) (ascii "JOIN" ++ b)).take 16
/-- The response that gives this device address 4095. -/
def resp0 : List Byte :=
  let b : List Byte := up.otp.devid ++ List.replicate 8 3 ++ [255, 15, 0, 0, 0]
  let c := b.take 18 ++ [0] ++ [0, 0]
  c ++ List.replicate 9 0 ++ (hmac (List.replicate 32 0) (ascii "JRSP" ++ c)).take 16
/-- The root's table after that request. -/
def net0 (m : Mesh) : Mesh := { m with table := [(List.replicate 8 7, 9, true)] }
/-- A beacon of neighbour 9 under the key of 32 zero bytes. -/
def beacon0 : List Byte :=
  let b : List Byte := List.replicate 20 0
  withCrc (b ++ slice (hmac (up.linkKey (List.replicate 32 0) 0xFFF 0xFFF) (b ++ leBytes 2 9 ++ leBytes 4 0)) 0 8)
/-- A mesh header to node 5 with no body. -/
def hdr0 (kind : Nat) : List Byte := meshHeader 5 9 0 10 kind 0 0 1
/-- Its payload, sealed with the link key. -/
def data0 (kind : Nat) : List Byte := withCrc (hdr0 kind ++ gcmTag (up.linkKey (List.replicate 32 0) 9 5) (meshNonce 9 5 1 0) (hdr0 kind) [])
/-- A reception that has just begun. -/
def recep0 : Recep := { bid := List.replicate 8 5, gen := 1, ntot := 300, slot := 1 }
/-- A state with one descriptor in the ring at offset 0 of Baton 1's memory; `own` is its top byte. -/
def ring0 (r : Nat) (own : Byte) (s : State) : State := { regs [(r, 0x01000000)] s with mem := Memory.writeAll s.mem (ethAddr 0) [64, 0, 0, own, 16, 0, 0, 0] }
/-- The state an outcome answers. -/
def landed (s : State) (o : Host.Outcome State Fault Refusal) : State := match o with | .next t => t | _ => s
/-- Whether an outcome is a next state. -/
def isNext (o : Host.Outcome State Fault Refusal) : Bool := match o with | .next _ => true | _ => false
/-- An outcome is its state, where it answers one. -/
theorem next_landed (s : State) (o : Host.Outcome State Fault Refusal) (h : isNext o = true) : o = .next (landed s o) := by
  cases o <;> simp_all [landed, isNext]
/-- A state that stores when it steps. -/
def storing : State := { up with pending := [.registerWrite 17 0x10000000 4 5] }
/-- A state that rings the doorbell when it steps. -/
def ringing : State := { up with pending := [.doorbellSet 16 5] }
/-- A state whose one-time memory holds something. -/
def burnt : State := dev (fun d => { d with otp := { d.otp with fused := 2 ^ 99, sealPerm := true, oroot := some [] } }) up
/-- What buildMap makes of the SNRs of the carriers. -/
def loaded (s : Dev) (snrs : List Int) : List Nat :=
  carriers.map fun c => if isPilot c || notched (s.plc.plan.getD []) c then 0 else codeFor (snrs.getD (c - 100) (-1000)) (s.get Fld.PLCMAC_TM_CFG_RATE) (s.get Fld.PLCMAC_TM_CFG_MARGIN)
/-- Whether at least 32 carriers are loaded. -/
def many (s : Dev) (snrs : List Int) : Bool := decide (32 ≤ ((loaded s snrs).filter (0 < ·)).length)
theorem many_spec (s : Dev) (snrs : List Int) (h : many s snrs = true) : 32 ≤ ((loaded s snrs).filter (0 < ·)).length := of_decide_eq_true h
theorem few_spec (s : Dev) (snrs : List Int) (h : many s snrs = false) : ((loaded s snrs).filter (0 < ·)).length < 32 := Nat.lt_of_not_le (of_decide_eq_false h)
/-- A copy of block 1 whose CRC-32 is what the erased flash shows for it. -/
def body1 : List Byte := [3, 0, 1, 0] ++ recep0.bid ++ [255, 255, 255, 255] ++ List.replicate 4092 0
/-- Bytes that lie together, the highest first. -/
def cells (a n v : Nat) : List Host.Cell := (List.range n).map fun i => ⟨a + i, BitVec.ofNat 8 (v / 256 ^ (n - 1 - i))⟩
/-- A device that has received into slot B a bundle without payload of generation 1, signed with the owner's private key 1, its owner's root hash installed. -/
def received : State :=
  let s := dev (fun d => { d with otp := { d.otp with oroot := some (beBytes 32 0xd875db7def232236aec738c6b0bb3e80142f5d0fd8f4df24fed6eef5cbb50d9f) }, upd := { d.upd with recep := some { recep0 with complete := true } }, rtc := { d.rtc with lin := 450 * 32768 } })
    (set [(Fld.RTC_VBAT_MV, 3000), (Fld.RTC_STAT_OSF, 0), (Fld.UPD_STAT_READY, 1)] up)
  { s with mem := [⟨0x60600006, 1⟩, ⟨0x60600007, 0⟩, ⟨0x60600009, 1⟩, ⟨0x6060000b, 0⟩, ⟨0x6060000c, 0⟩, ⟨0x6060000d, 0⟩] ++ cells 0x60600020 32 0xe3b0c44298fc1c149afbf4c8996fb92427ae41e4649b934ca495991b7852b855 ++ cells 0x60600180 64 0x6b17d1f2e12c4247f8bce6e563a440f277037d812deb33a0f4a13945d898c2964fe342e2fe1a7f9b8ee7eb4a7c0f9e162bce33576b315ececbb6406837bf51f5 ++ cells 0x60600200 64 0x6b17d1f2e12c4247f8bce6e563a440f277037d812deb33a0f4a13945d898c2962b85484815d0d6c65421f1982af11e4f3d5984ac629751f23ac98615787872dc }
/-- The lowest pod ID whose CLASS and CHECK are right. -/
def podId0 : Nat := 0xB3 * 2 ^ 56 + crc16 (beBytes 6 (0xB3 * 2 ^ 40))

/-! ### WellFormed -/

/-- Each check of WellFormed refuses a term that fails it alone (1). -/
theorem test_wf_refuses_1 : ([.pfCfgWrite 18 0 0,
    .overtempShutdown 13,
    .wdtConfigWrite 18 0 true,
    .wdtKick 18 1,
    .wdtKick 0 0,
    .softwareReset 18 1,
    .softwareReset 0 0,
    .pageSoftReset 18 0,
    .pageSoftReset 0 64,
    .enterQuiet 18 1,
    .enterQuiet 0 0,
    .wakeFromQuiet 8,
    .shutdown 18 1,
    .shutdown 0 0,
    .pageEnableWrite 18 0 0,
    .pageEnableWrite 0 64 0,
    .freezeTimeout 64,
    .irqStatusClear 18 0 0,
    .irqStatusClear 0 64 0,
    .injectionWrite 18 0 0,
    .injectionWrite 0 64 0,
    .pageLock 18 0 1,
    .pageLock 0 64 1,
    .pageLock 0 0 0,
    .registerWrite 18 0 4 0,
    .registerWrite 0 0x100000000 4 0,
    .registerWrite 0 0 3 0,
    .postedWriteDiscard 18 0,
    .postedWriteDiscard 0 0x100000000,
    .readTimeout 18 0,
    .readTimeout 0 0x100000000,
    .fenceRead 18] : List Instr).all (fun c => c.wf == false) = true := by decide +kernel

/-- Each check of WellFormed refuses a term that fails it alone (2). -/
theorem test_wf_refuses_2 : ([.latchedPairRead 18 0,
    .latchedPairRead 0 0x100000000,
    .ringSeqRead 18,
    .temperatureTableLoad 18 1,
    .temperatureTableLoad 0 0,
    .tariffTableLoad 18 1,
    .tariffTableLoad 0 0,
    .sequenceTableLoad 18 1,
    .sequenceTableLoad 0 0,
    .displayTableLoad 18 1,
    .displayTableLoad 0 0,
    .bandPlanLoad 18 1,
    .bandPlanLoad 0 0,
    .rselWrite 18 0 0,
    .rselWrite 0 12 0,
    .isoWrite 18 0 0,
    .isoWrite 0 13 0,
    .applyPush 18 0 0,
    .applyPush 0 13 0,
    .applyDone 13,
    .laneEnableWrite 18 0 0,
    .laneEnableWrite 0 13 0,
    .referenceCheck 4 0,
    .referenceRecheck 4 0,
    .referenceSettled 4,
    .iretCheck 12 0,
    .tempReading 13 0,
    .calMeasureStart 18 1,
    .calMeasureStart 0 0,
    .gunFire 18 1,
    .gunFire 0 0,
    .strideIssue 4] : List Instr).all (fun c => c.wf == false) = true := by decide +kernel

/-- Each check of WellFormed refuses a term that fails it alone (3). -/
theorem test_wf_refuses_3 : ([.speculativePublish 4,
    .boundaryDecision 4 {},
    .replayComplete 16 0 0,
    .liveCatchUp 16,
    .trackerCycleEnd 4 true 0 0 0,
    .freq10Interval 4,
    .fixedBlockEnd 4,
    .frameConfigWrite 18 0 true 0,
    .frameConfigWrite 0 4 true 0,
    .pulseEnd 8,
    .pulseCalEnter 18 0x100,
    .pulseCalEnter 0 0,
    .pulseCalExit 18 0,
    .pulseCalExit 0 256,
    .pulseConfigWrite 18 0 true 0,
    .pulseConfigWrite 0 8 true 0,
    .harmonicWindowWrite 4,
    .captureClear 18 2,
    .captureClear 0 0,
    .captureRecordLock 18 1,
    .captureRecordLock 0 0,
    .captureRecordUnlock 18 2,
    .captureRecordUnlock 0 0,
    .captureRecordDelete 18 4,
    .captureRecordDelete 0 0,
    .eyeletScan 12 [],
    .eyeletRescan 18 1,
    .eyeletRescan 0 2,
    .eyeletXfer 18 2 [] 0,
    .eyeletXfer 0 3 [] 0,
    .eyeletWireFault 12,
    .bindingWrite 18 0 0] : List Instr).all (fun c => c.wf == false) = true := by decide +kernel

/-- Each check of WellFormed refuses a term that fails it alone (4). -/
theorem test_wf_refuses_4 : ([.bindingWrite 0 64 0,
    .billingApplyCycle 64,
    .demandSchemeWrite 18 0,
    .billCommitNow 18 1,
    .billCommitNow 0 2,
    .billManualSnapshot 18 2,
    .billManualSnapshot 0 3,
    .registerSelect 18 0,
    .tokenCheck 18 1,
    .tokenCheck 0 0,
    .prepayArm 18 1,
    .prepayArm 0 2,
    .prepayAcceptEc 18 2,
    .prepayAcceptEc 0 3,
    .prepayDisarm 18 3,
    .prepayDisarm 0 0,
    .discOpen 18 1,
    .discOpen 0 2,
    .discClose 18 2,
    .discClose 0 3,
    .discDisarm 18 3,
    .discDisarm 0 4,
    .tripBatch 8,
    .feedbackCheck 64 true,
    .feedbackRecheck 64 true,
    .dpConfigWrite 18 0 0,
    .dpConfigWrite 0 64 0,
    .dispNext 18 1,
    .dispNext 0 2,
    .dispSelect 18 2,
    .dispSelect 0 3,
    .dispResume 18 3] : List Instr).all (fun c => c.wf == false) = true := by decide +kernel

/-- Each check of WellFormed refuses a term that fails it alone (5). -/
theorem test_wf_refuses_5 : ([.dispResume 0 0,
    .caseTamper ⟨4, true⟩,
    .laceBurst 4 0,
    .laceRetry 4 0,
    .stickyClear 18 0 0,
    .nonceDraw 18,
    .secAuth 18 1,
    .secAuth 0 2,
    .secClose 18 2,
    .secClose 0 3,
    .secInstall 18 3,
    .secInstall 0 4,
    .secSeal 18 4,
    .secSeal 0 5,
    .secUnseal 18 5,
    .secUnseal 0 6,
    .secLoadToken 18 6,
    .secLoadToken 0 7,
    .secLoadLink 18 7,
    .secLoadLink 0 8,
    .secFuse 18 8 0,
    .secFuse 0 9 0,
    .secEraseTest 18 9,
    .secEraseTest 0 10,
    .alarmPulseEnd 2,
    .timeFreezeRead 18 0,
    .timeReleaseRead 18,
    .freezeCopyExpiry 18,
    .rtcSet 18 1 0,
    .rtcSet 0 2 0,
    .rtcShift 18 2 0,
    .rtcShift 0 3 0] : List Instr).all (fun c => c.wf == false) = true := by decide +kernel

/-- Each check of WellFormed refuses a term that fails it alone (6). -/
theorem test_wf_refuses_6 : ([.rateStart 18 3,
    .rateStart 0 4,
    .rateStop 18 4,
    .rateStop 0 5,
    .trimWrite 18 0,
    .osfClear 18 1,
    .osfClear 0 0,
    .evinEdge 2 true 0,
    .frameTransmit 256,
    .rxMapHoldExpiry 64,
    .tonemapRefreshPeriod 64,
    .ntSet 18 0,
    .meshJoin 18 1,
    .meshJoin 0 2,
    .meshLeave 18 2,
    .meshLeave 0 3,
    .meshAdvertise 18 3,
    .meshAdvertise 0 0,
    .meshConfigWrite 18 0,
    .routeQuery 18 0,
    .updActivate 18 1 0,
    .updActivate 0 2 0,
    .updDiscard 18 2,
    .updDiscard 0 3,
    .updConfirm 18 1,
    .updConfirm 0 0,
    .batonRelease 18 0,
    .flashErase 18 1,
    .flashErase 0 2,
    .flashProgram 18 2,
    .flashProgram 0 3,
    .splitSelect 18 0 0] : List Instr).all (fun c => c.wf == false) = true := by decide +kernel

/-- Each check of WellFormed refuses a term that fails it alone (7). -/
theorem test_wf_refuses_7 : ([.splitSelect 0 32 0,
    .splitLatch 18 0,
    .spiWrite true 0x100000000 0 true,
    .spiRead true 0x100000000 true,
    .spiBurstWrite true 0x100000000 [] true,
    .spiBurstWrite true 0 (List.replicate 257 0) true,
    .spiBurstRead true 0x100000000 0 true,
    .spiBurstRead true 0 256 true,
    .spiAbort 0x100000000 ⟨[], 0⟩ true,
    .spiAbort 0 ⟨List.replicate 257 0, 0⟩ true,
    .spiAbort 0 ⟨[], 257⟩ true,
    .doorbellSet 18 0,
    .uartDataWrite 18 0 0,
    .uartDataWrite 0 2 0,
    .uartDataRead 18 0,
    .uartDataRead 0 2,
    .uartRxByte 2 0 true true true,
    .ethTxKick 18 1,
    .ethTxKick 0 0,
    .mdioAccess 18 2147483648,
    .mdioAccess 0 0,
    .debugRead 128 true,
    .debugWrite 128 0 true,
    .gpioEdge 16 true,
    .neighbourAgedOut 64,
    .uartByteTransmitted 2] : List Instr).all (fun c => c.wf == false) = true := by decide +kernel

/-- The same commands with their operands in range are accepted (1). -/
theorem test_wf_accepts_1 : ([.pfCfgWrite 0 0 0,
    .overtempShutdown 0,
    .wdtConfigWrite 0 0 true,
    .wdtKick 0 1,
    .softwareReset 0 1,
    .pageSoftReset 0 0,
    .enterQuiet 0 1,
    .wakeFromQuiet 0,
    .shutdown 0 1,
    .pageEnableWrite 0 0 0,
    .freezeTimeout 0,
    .irqStatusClear 0 0 0,
    .injectionWrite 0 0 0,
    .pageLock 0 0 1,
    .registerWrite 0 0 4 0,
    .postedWriteDiscard 0 0,
    .readTimeout 0 0,
    .fenceRead 0,
    .latchedPairRead 0 0,
    .ringSeqRead 0,
    .temperatureTableLoad 0 1,
    .tariffTableLoad 0 1,
    .sequenceTableLoad 0 1,
    .displayTableLoad 0 1,
    .bandPlanLoad 0 1,
    .rselWrite 0 0 0,
    .isoWrite 0 0 0,
    .applyPush 0 0 0,
    .applyDone 0,
    .laneEnableWrite 0 0 0,
    .referenceCheck 0 0,
    .referenceRecheck 0 0] : List Instr).all (fun c => c.wf == true) = true := by decide +kernel

/-- The same commands with their operands in range are accepted (2). -/
theorem test_wf_accepts_2 : ([.referenceSettled 0,
    .iretCheck 0 0,
    .tempReading 0 0,
    .calMeasureStart 0 1,
    .gunFire 0 1,
    .strideIssue 0,
    .speculativePublish 0,
    .boundaryDecision 0 {},
    .replayComplete 0 0 0,
    .liveCatchUp 0,
    .trackerCycleEnd 0 true 0 0 0,
    .freq10Interval 0,
    .fixedBlockEnd 0,
    .frameConfigWrite 0 0 true 0,
    .pulseEnd 0,
    .pulseCalEnter 0 0x100,
    .pulseCalExit 0 0,
    .pulseConfigWrite 0 0 true 0,
    .harmonicWindowWrite 0,
    .captureClear 0 2,
    .captureRecordLock 0 1,
    .captureRecordUnlock 0 2,
    .captureRecordDelete 0 4,
    .eyeletScan 0 [],
    .eyeletRescan 0 1,
    .eyeletXfer 0 2 [] 0,
    .eyeletWireFault 0,
    .bindingWrite 0 0 0,
    .billingApplyCycle 0,
    .demandSchemeWrite 0 0,
    .billCommitNow 0 1,
    .billManualSnapshot 0 2] : List Instr).all (fun c => c.wf == true) = true := by decide +kernel

/-- The same commands with their operands in range are accepted (3). -/
theorem test_wf_accepts_3 : ([.registerSelect 0 0,
    .tokenCheck 0 1,
    .prepayArm 0 1,
    .prepayAcceptEc 0 2,
    .prepayDisarm 0 3,
    .discOpen 0 1,
    .discClose 0 2,
    .discDisarm 0 3,
    .tripBatch 0,
    .feedbackCheck 0 true,
    .feedbackRecheck 0 true,
    .dpConfigWrite 0 0 0,
    .dispNext 0 1,
    .dispSelect 0 2,
    .dispResume 0 3,
    .caseTamper ⟨0, true⟩,
    .laceBurst 0 0,
    .laceRetry 0 0,
    .stickyClear 0 0 0,
    .nonceDraw 0,
    .secAuth 0 1,
    .secClose 0 2,
    .secInstall 0 3,
    .secSeal 0 4,
    .secUnseal 0 5,
    .secLoadToken 0 6,
    .secLoadLink 0 7,
    .secFuse 0 8 0,
    .secEraseTest 0 9,
    .alarmPulseEnd 0,
    .timeFreezeRead 0 0,
    .timeReleaseRead 0] : List Instr).all (fun c => c.wf == true) = true := by decide +kernel

/-- The same commands with their operands in range are accepted (4). -/
theorem test_wf_accepts_4 : ([.freezeCopyExpiry 0,
    .rtcSet 0 1 0,
    .rtcShift 0 2 0,
    .rateStart 0 3,
    .rateStop 0 4,
    .trimWrite 0 0,
    .osfClear 0 1,
    .evinEdge 0 true 0,
    .frameTransmit 0,
    .rxMapHoldExpiry 0,
    .tonemapRefreshPeriod 0,
    .ntSet 0 0,
    .meshJoin 0 1,
    .meshLeave 0 2,
    .meshAdvertise 0 3,
    .meshConfigWrite 0 0,
    .routeQuery 0 0,
    .updActivate 0 1 0,
    .updDiscard 0 2,
    .updConfirm 0 1,
    .batonRelease 0 0,
    .flashErase 0 1,
    .flashProgram 0 2,
    .splitSelect 0 0 0,
    .splitLatch 0 0,
    .spiWrite true 0 0 true,
    .spiRead true 0 true,
    .spiBurstWrite true 0 [] true,
    .spiBurstRead true 0 0 true,
    .spiAbort 0 ⟨[], 0⟩ true,
    .doorbellSet 0 0,
    .uartDataWrite 0 0 0] : List Instr).all (fun c => c.wf == true) = true := by decide +kernel

/-- The same commands with their operands in range are accepted (5). -/
theorem test_wf_accepts_5 : ([.uartDataRead 0 0,
    .uartRxByte 0 0 true true true,
    .ethTxKick 0 1,
    .mdioAccess 0 2147483648,
    .debugRead 0 true,
    .debugWrite 0 0 true,
    .gpioEdge 0 true,
    .neighbourAgedOut 0,
    .uartByteTransmitted 0] : List Instr).all (fun c => c.wf == true) = true := by decide +kernel

/-! ### Worked examples of the spec and published vectors -/

/-- R264, "midnight at a month end": 1 600 000 µJ left over and 36 800 000 more give 10 mWh at T1 and leave 2 400 000. -/
theorem test_energy_month_end : ((({ rem := 1600000 :: List.replicate 9 0 } : Bp).add 0 36800000 0).1.mwh.head? = some 10) ∧ (({ rem := 1600000 :: List.replicate 9 0 } : Bp).add 0 36800000 0).1.rem.head? = some 2400000 := by decide +kernel

/-- R406, "a relay beats a direct link". -/
theorem test_link_costs : linkCost 40000 = 102 ∧ linkCost 25000 = 164 := by decide

/-- R253, "the tenant pod overloaded": 38 A in a pod rated 32 A costs 8400 units each cycle of 20 ms. -/
theorem test_overload : overload 32000 { rms := 38000000, span := 640 * 65536 } = 8400 := by decide +kernel

/-- R356, "trimming against the mains": 2 831 172 174 counts in a day of reference give ERR −50. -/
theorem test_rate_error : rateErr (24 * 3600 * 32768) 1 2831172174 = -50 := by decide +kernel

/-- R343, "midnight at a month end": 2025-03-01 00:00 is minute 13 235 040. -/
theorem test_minutes : ({ year := 25, month := 3, day := 1 } : Date).toSecs / 60 = 13235040 := by decide +kernel

/-- R73: the codes the chapter on register pages gives. -/
theorem test_event_codes : evCode 2 0 = 0x080 ∧ evCode Pg.FRAME 5 = 0x745 ∧ evCode (Pg.HEAT 11) 0 = 0x6C0 := by decide

/-- The published check values of CRC-32 (R84) and CRC-16/CCITT (R245) over "123456789". -/
theorem test_crcs : crc32 (ascii "123456789") = 0xCBF43926 ∧ crc16 (ascii "123456789") = 0x29B1 := by decide +kernel

/-- FIPS 180-4's digest of "abc". -/
theorem test_sha256 : ofBe (sha256 (ascii "abc")) = 0xba7816bf8f01cfea414140de5dae2223b00361a396177a9cb410ff61f20015ad := by decide +kernel

/-- FIPS 197's AES-256 example. -/
theorem test_aes256 : aesBlock (aesKeys ((List.range 32).map (BitVec.ofNat 8))) ((List.range 16).map (17 * ·)) = [0x8e, 0xa2, 0xb7, 0xca, 0x51, 0x67, 0x45, 0xbf, 0xea, 0xfc, 0x49, 0x90, 0x4b, 0x49, 0x60, 0x89] := by decide +kernel

/-- R4, R432: a write of DBELL_SET leaves the bits that were set. -/
theorem test_doorbell : ((landed up (exec (.doorbellSet 16 0x50) (set [(Fld.INTC_DBELL_BITS, 0x21)] up))).get Fld.INTC_DBELL_BITS) = 0x71 := by decide +kernel

/-- R69, R80: a write of three bytes to memory ends in DECODE, and stores nothing. -/
theorem test_three_bytes : (landed up (exec (.registerWrite 17 0x10000000 3 5) up)).mem = [] ∧ (landed up (exec (.registerWrite 17 0x10000000 3 5) up)).get Fld.SYS_BUSERR_INFO_KIND = BusKind.decode := by decide +kernel

/-- R3: a word is stored with its least significant byte at the lowest address. -/
theorem test_byte_order : (landed up (exec (.registerWrite 17 0x10000000 4 0x01020304) up)).mem.map (·.2.toNat) = [4, 3, 2, 1] := by decide +kernel

/-- On an empty queue one tick of MT passes (assumption log 1). -/
theorem test_idle : landed up (step up) = { up with toDev := { up.toDev with mt := 1 } } := by decide +kernel

/-- R437, IEEE 802.3: the quanta of a pause frame stand after its opcode, the high byte first. -/
theorem test_pause_quanta : pauseQuanta ([1, 0x80, 0xC2, 0, 0, 1] ++ List.replicate 6 0 ++ [0x88, 8, 0, 1, 2, 5] ++ List.replicate 46 0) = some 0x205 := by decide

/-! ### Witnesses -/

/-- The hypotheses of SupplyCommandsComplete can be met. -/
theorem witness_SupplyCommandsComplete :
    (∃ (s : State), s.mainPower = true) ∧
    (∃ (s : State), s.mainPower = true) ∧
    (∃ (s : State), s.power.bkpAlive = true) ∧
    (∃ (s : State), s.power.bkpAlive = false) ∧
    (∃ (s : State), s.power.st = .backupOnly ∧ s.power.hold = .none ∧ s.clk.xtal = true) ∧
    (∃ (s : State), s.power.st = .backupOnly ∧ s.power.por = true ∧ s.clk.xtal = true) :=
  ⟨⟨up, by decide +kernel⟩,
    ⟨State.reset, by decide +kernel⟩,
    ⟨up, by decide +kernel⟩,
    ⟨(pow (fun p => { p with bkpAlive := false }) up), by decide +kernel⟩,
    ⟨(pow (fun p => { p with st := .backupOnly }) up), by decide +kernel⟩,
    ⟨(pow (fun p => { p with st := .backupOnly }) up), by decide +kernel⟩⟩

/-- The hypotheses of PowerFailCommandsComplete can be met. -/
theorem witness_PowerFailCommandsComplete :
    (∃ (s : State) (v : Word) (mv : Nat), lands s Reg.PWR_PF_CFG ∧ bitsOf v 7 0 ≤ 245 ∧ 5500 + 100 * bitsOf v 7 0 + 1000 ≤ mv) ∧
    (∃ (s : State) (v : Word) (mv : Nat), lands s Reg.PWR_PF_CFG ∧ bitsOf v 7 0 ≤ 245 ∧ 5500 + 100 * bitsOf v 7 0 + 1000 ≤ mv) ∧
    (∃ (s : State) (v : Word) (mv : Nat), lands s Reg.PWR_PF_CFG ∧ (245 < bitsOf v 7 0 ∨ mv < 5500 + 100 * bitsOf v 7 0 + 1000)) ∧
    (∃ (s : State) (v : Word) (mv : Nat), lands s Reg.PWR_PF_CFG ∧ (245 < bitsOf v 7 0 ∨ mv < 5500 + 100 * bitsOf v 7 0 + 1000)) ∧
    (∃ (s : State) (mv : Nat), s.mainOn = true ∧ s.power.st ≠ .holdup ∧ s.warned = false ∧ s.on Fld.PWR_PF_CFG_ARMED = true ∧ mv < 5500 + 100 * s.get Fld.PWR_PF_CFG_THR) ∧
    (∃ (s : State), s.power.st = .holdup ∧ s.bill.frozen = false ∧ s.power.commitSkipped = false ∧ s.power.byOvertemp = false ∧ s.published = true ∧ s.pfWaits = false ∧ (s.power.before ≠ .shutdownTest ∨ s.warned = true)) ∧
    (∃ (s : State) (mv : Nat), s.power.st = .holdup ∧ s.warned = true ∧ s.power.byOvertemp = false ∧ s.power.before = .run ∧ 5500 + 100 * s.get Fld.PWR_PF_CFG_THR + 500 < mv) ∧
    (∃ (s : State), s.power.st = .holdup ∧ s.warned = true ∧ s.power.byOvertemp = false) ∧
    (∃ (s : State), s.power.st = .rideThrough ∧ s.rideDone = true) ∧
    (∃ (s : State), s.power.st = .rideThrough ∧ s.rideDone = true) ∧
    (∃ (s : State) (b : Nat), s.power.st = .run ∧ b < 13) ∧
    (∃ (s : State), s.power.st = .reset ∧ s.clk.xtal = true ∧ s.power.hold = .overtemp) :=
  ⟨⟨up, 0x1F5, 31000, by unfold lands; decide +kernel⟩,
    ⟨up, 0, 6500, by unfold lands; decide +kernel⟩,
    ⟨up, 0xF6, 60000, by unfold lands; decide +kernel⟩,
    ⟨up, 1, 6599, by unfold lands; decide +kernel⟩,
    ⟨(set [(Fld.PWR_PF_CFG_ARMED, 1), (Fld.PWR_PF_CFG_THR, 20)] up), 7499, by decide +kernel⟩,
    ⟨(pow (fun p => { p with st := .holdup }) bil), by decide +kernel⟩,
    ⟨(set [(Fld.PWR_PF_STAT_WARN, 1), (Fld.PWR_PF_CFG_THR, 0)] (pow (fun p => { p with st := .holdup, before := .run }) up)), 6001, by decide +kernel⟩,
    ⟨(set [(Fld.PWR_PF_STAT_WARN, 1)] (pow (fun p => { p with st := .holdup }) up)), by decide +kernel⟩,
    ⟨(pow (fun p => { p with st := .rideThrough, before := .quiet }) up), by decide +kernel⟩,
    ⟨(pow (fun p => { p with st := .rideThrough, before := .run }) up), by decide +kernel⟩,
    ⟨up, 12, by decide +kernel⟩,
    ⟨(pow (fun p => { p with st := .reset, hold := .overtemp }) up), by decide +kernel⟩⟩

/-- The hypotheses of ResetCommandsComplete can be met. -/
theorem witness_ResetCommandsComplete :
    (∃ (s : State), s.mainOn = true ∧ s.clk.onRc = false ∧ s.power.pending = none) ∧
    (∃ (s : State), s.mainPower = true) ∧
    (∃ (s : State), s.mainOn = true ∧ s.power.pending = none) ∧
    (∃ (s : State), s.mainOn = true ∧ s.wdtOn = true) ∧
    (∃ (s : State), s.mainOn = true ∧ s.wdtOn = true ∧ s.power.pending = none) ∧
    (∃ (s : State) (v : Word), lands s Reg.SYS_WDT ∧ keyOf v = 0x3C ∧ 100 ≤ bitsOf v 15 0 ∧ bitsOf v 15 0 ≤ 60000) ∧
    (∃ (s : State) (v : Word), lands s Reg.SYS_WDT ∧ keyOf v = 0x3C ∧ 100 ≤ bitsOf v 15 0 ∧ bitsOf v 15 0 ≤ 60000) ∧
    (∃ (s : State) (v : Word), lands s Reg.SYS_WDT ∧ keyOf v = 0x3C ∧ (bitsOf v 15 0 < 100 ∨ 60000 < bitsOf v 15 0)) ∧
    (∃ (s : State) (v : Word), lands s Reg.SYS_WDT ∧ keyOf v = 0x3C ∧ (bitsOf v 15 0 < 100 ∨ 60000 < bitsOf v 15 0)) ∧
    (∃ (s : State) (v : Word), lands s Reg.SYS_WDT_KICK ∧ keyOf v = 0xE1 ∧ bitAt v 0 = true) ∧
    (∃ (s : State) (v : Word), lands s Reg.SYS_WDT_KICK ∧ (¬ (keyOf v = 0xE1 ∧ bitAt v 0 = true))) ∧
    (∃ (s : State) (v : Word), lands s Reg.SYS_RESET ∧ keyOf v = 0xC3 ∧ bitAt v 0 = true ∧ s.power.pending = none) ∧
    (∃ (s : State) (k : ResetKind), s.mainOn = true ∧ s.power.pending = some k) :=
  ⟨⟨up, by decide +kernel⟩,
    ⟨up, by decide +kernel⟩,
    ⟨up, by decide +kernel⟩,
    ⟨(set [(Fld.SYS_WDT_EN, 1)] up), by decide +kernel⟩,
    ⟨(set [(Fld.SYS_WDT_EN, 1)] up), by decide +kernel⟩,
    ⟨up, 0x3C000064, by unfold lands; decide +kernel⟩,
    ⟨up, 0x3C01EA60, by unfold lands; decide +kernel⟩,
    ⟨up, 0x3C000063, by unfold lands; decide +kernel⟩,
    ⟨up, 0x3C00EA61, by unfold lands; decide +kernel⟩,
    ⟨up, 0xE1000001, by unfold lands; decide +kernel⟩,
    ⟨up, 0xE1000000, by unfold lands; decide +kernel⟩,
    ⟨up, 0xC3000001, by unfold lands; decide +kernel⟩,
    ⟨(pow (fun p => { p with pending := some .sw }) up), .sw, by decide +kernel⟩⟩

/-- The hypotheses of PowerStateCommandsComplete can be met. -/
theorem witness_PowerStateCommandsComplete :
    (∃ (s : State) (mv : Nat), s.power.st = .reset ∧ s.clk.xtal = true ∧ s.releasable mv = true) ∧
    (∃ (s : State) (mv : Nat), s.power.st = .reset ∧ s.clk.xtal = true ∧ s.releasable mv = true) ∧
    (∃ (s : State), s.power.st ≠ .reset) ∧
    (∃ (s : State) (v : Word), lands s Reg.PWR_CTRL ∧ bitAt v 0 = true ∧ s.power.st = .run) ∧
    (∃ (s : State) (v : Word), lands s Reg.PWR_CTRL ∧ bitAt v 0 = true ∧ s.power.st ≠ .run) ∧
    (∃ (s : State) (src : Nat), s.power.st = .quiet ∧ src < 8 ∧ bitAt (s.rd Reg.PWR_WAKE) src = true ∧ (src ≠ 0 ∨ ∃ k : Nat, k < 2 ∧ s.on (almStat k) = true ∧ s.on (Fld.RTC_ALM_CFG_WAKE k) = true)) ∧
    (∃ (s : State) (v : Word) (g : Nat), lands s Reg.SYS_SHUTDOWN ∧ keyOf v = 0x96 ∧ bitAt v 0 = true ∧ s.power.st = .run ∧ s.warned = false ∧ s.discBusy = false ∧ g < 4 ∧ s.framing g = true) ∧
    (∃ (s : State) (v : Word), lands s Reg.SYS_SHUTDOWN ∧ keyOf v = 0x96 ∧ bitAt v 0 = true ∧ (s.warned = true ∨ s.discBusy = true ∨ (s.power.st ≠ .run ∧ s.power.st ≠ .quiet))) ∧
    (∃ (s : State) (v : Word), lands s Reg.SYS_SHUTDOWN ∧ keyOf v = 0x96 ∧ bitAt v 0 = true ∧ (s.warned = true ∨ s.discBusy = true ∨ (s.power.st ≠ .run ∧ s.power.st ≠ .quiet))) :=
  ⟨⟨State.reset, 12000, by decide +kernel⟩,
    ⟨(set [(Fld.PWR_PF_CFG_THR, 0)] (pow (fun p => { p with st := .reset, hold := .vsup }) up)), 6001, by decide +kernel⟩,
    ⟨up, by decide +kernel⟩,
    ⟨up, 1, by unfold lands; decide +kernel⟩,
    ⟨(pow (fun p => { p with st := .quiet }) up), 1, by unfold lands; decide +kernel⟩,
    ⟨(set [(⟨Reg.PWR_WAKE, 7, 7⟩, 1)] (pow (fun p => { p with st := .quiet }) up)), 7, by decide +kernel⟩,
    ⟨(set [(Fld.FRAME_VG_STAT_STATE 3, 2)] up), 0x96000001, 3, by unfold lands; decide +kernel⟩,
    ⟨(pow (fun p => { p with st := .holdup }) up), 0x96000001, by unfold lands; decide +kernel⟩,
    ⟨(set [(Fld.PWR_PF_STAT_WARN, 1)] up), 0x96000001, by unfold lands; decide +kernel⟩⟩

/-- The hypotheses of PageHeaderCommandsComplete can be met. -/
theorem witness_PageHeaderCommandsComplete :
    (∃ (s : State) (p : Nat), regsOk s ∧ s.mainOn = true ∧ s.islIso p = false ∧ (p = Pg.INTC ∨ p = Pg.SPLIT ∨ p = Pg.GPIO)) ∧
    (∃ (s : State) (p : Nat), regsOk s ∧ s.mainOn = true ∧ s.islIso p = false ∧ (p = Pg.INTC ∨ p = Pg.SPLIT ∨ p = Pg.GPIO)) ∧
    (∃ (s : State) (p : Nat), regsOk s ∧ s.mainOn = true ∧ s.islIso p = false ∧ (p = Pg.INTC ∨ p = Pg.SPLIT ∨ p = Pg.GPIO)) ∧
    (∃ (s : State) (p : Nat), s.mainOn = true ∧ s.islIso p = false ∧ p < 0x3E ∧ srstBarred p = true) ∧
    (∃ (s : State) (p : Nat) (v : Word), s.mainOn = true ∧ s.islIso p = false ∧ p < 0x3E ∧ (p = Pg.SPLIT ∨ p = Pg.INTC ∨ (0x2E ≤ p ∧ p ≤ 0x35) ∨ (0x37 ≤ p ∧ p ≤ 0x3D)) ∧ bitAt v 0 = true ∧ bitAt v 1 = false ∧ bitAt v 2 = false) ∧
    (∃ (s : State) (p : Nat) (v : Word), s.mainOn = true ∧ s.islIso p = false ∧ p < 0x3E ∧ (p = Pg.SPLIT ∨ p = Pg.INTC ∨ (0x2E ≤ p ∧ p ≤ 0x35) ∨ (0x37 ≤ p ∧ p ≤ 0x3D)) ∧ bitAt v 0 = true ∧ bitAt v 1 = false ∧ bitAt v 2 = false) ∧
    (∃ (s : State) (p : Nat) (v : Word), s.mainOn = true ∧ s.islIso p = false ∧ p < 0x3E ∧ (p = Pg.SPLIT ∨ p = Pg.INTC ∨ (0x2E ≤ p ∧ p ≤ 0x35) ∨ (0x37 ≤ p ∧ p ≤ 0x3D)) ∧ bitAt v 0 = true ∧ bitAt v 1 = false ∧ bitAt v 2 = false) ∧
    (∃ (s : State) (p : Nat) (v : Word), s.mainOn = true ∧ s.islIso p = false ∧ p < 0x3E ∧ s.on (Hdr.EN p) = bitAt v 0 ∧ bitAt v 1 = false ∧ bitAt v 2 = true ∧ lookup s.bus.frozen p = none) ∧
    (∃ (s : State) (p : Nat) (v : Word), s.mainOn = true ∧ s.islIso p = false ∧ p < 0x3E ∧ s.on (Hdr.EN p) = bitAt v 0 ∧ bitAt v 1 = false ∧ bitAt v 2 = true ∧ lookup s.bus.frozen p = none) ∧
    (∃ (s : State) (p : Nat) (v : Word), s.mainOn = true ∧ s.islIso p = false ∧ p < 0x3E ∧ s.on (Hdr.EN p) = true ∧ s.offBarred p = true ∧ bitAt v 0 = false ∧ bitAt v 1 = false) ∧
    (∃ (s : State) (p : Nat), s.mainOn = true ∧ s.on (Hdr.FREEZE p) = true) ∧
    (∃ (s : State) (p : Nat), s.mainOn = true ∧ s.islIso p = false ∧ p < 0x3E) ∧
    (∃ (s : State) (m : Nat) (p : Nat) (v : Word), s.mainOn = true ∧ s.islIso p = false ∧ p < 0x3E ∧ p ≠ Pg.TAMP ∧ p ≠ Pg.CAP ∧ keyOf v = 0x5A ∧ (sealPage p && s.isSealed) = false ∧ (bitAt v 1 && !(s.session m && privMaster m)) = false ∧ bitsOf v 15 8 ≠ 0 ∧ s.injDefined p (bitsOf v 23 16) = true) ∧
    (∃ (s : State) (m : Nat) (p : Nat) (v : Word), s.mainOn = true ∧ s.islIso p = false ∧ p < 0x3E ∧ (keyOf v ≠ 0x5A ∨ (sealPage p && s.isSealed) = true ∨ (bitAt v 1 && !(s.session m && privMaster m)) = true)) ∧
    (∃ (s : State) (m : Nat) (p : Nat) (v : Word), s.mainOn = true ∧ s.islIso p = false ∧ p < 0x3E ∧ (keyOf v ≠ 0x5A ∨ (sealPage p && s.isSealed) = true ∨ (bitAt v 1 && !(s.session m && privMaster m)) = true)) ∧
    (∃ (s : State) (m : Nat) (p : Nat) (v : Word), s.mainOn = true ∧ s.islIso p = false ∧ p < 0x3E ∧ (keyOf v ≠ 0x5A ∨ (sealPage p && s.isSealed) = true ∨ (bitAt v 1 && !(s.session m && privMaster m)) = true)) ∧
    (∃ (s : State) (p : Nat) (v : Word), s.mainOn = true ∧ s.islIso p = false ∧ p < 0x3E ∧ keyOf v = 0xA5 ∧ bitAt v 0 = true) :=
  ⟨⟨up, Pg.INTC, by unfold regsOk; decide +kernel⟩,
    ⟨up, Pg.SPLIT, by unfold regsOk; decide +kernel⟩,
    ⟨up, Pg.GPIO, by unfold regsOk; decide +kernel⟩,
    ⟨up, Pg.SYS, by decide +kernel⟩,
    ⟨up, Pg.SPLIT, 1, by decide +kernel⟩,
    ⟨up, 0x2E, 1, by decide +kernel⟩,
    ⟨up, 0x3D, 1, by decide +kernel⟩,
    ⟨up, Pg.PLCMAC, 5, by decide +kernel⟩,
    ⟨(set [(Hdr.EN (Pg.HEAT 0), 1)] up), Pg.HEAT 0, 5, by decide +kernel⟩,
    ⟨(set [(Hdr.EN Pg.SYS, 1)] up), Pg.SYS, 0, by decide +kernel⟩,
    ⟨(set [(Hdr.FREEZE Pg.FRAME, 1)] up), Pg.FRAME, by decide +kernel⟩,
    ⟨up, 0x3D, by decide +kernel⟩,
    ⟨up, 16, Pg.FRAME, 0x5A000101, by decide +kernel⟩,
    ⟨up, 16, Pg.FRAME, 0x59000101, by decide +kernel⟩,
    ⟨up, 16, Pg.FRAME, 0x5A000103, by decide +kernel⟩,
    ⟨(set [(Fld.SEC_SEAL_SEAL, 1)] up), 16, Pg.FRAME, 0x5A000101, by decide +kernel⟩,
    ⟨up, 0x3D, 0xA5000001, by decide +kernel⟩⟩

/-- The hypotheses of BusCommandsComplete can be met. -/
theorem witness_BusCommandsComplete :
    (∃ (s : State) (m : Nat) (a : Nat) (size : Nat), s.mainOn = true ∧ s.writeErr m a size = none ∧ (¬ (0x40000000 ≤ a ∧ a < 0x40040000)) ∧ regionOf a ≠ some .result) ∧
    (∃ (s : State) (m : Nat) (a : Nat) (size : Nat), s.mainOn = true ∧ s.writeErr m a size = none ∧ (¬ (0x40000000 ≤ a ∧ a < 0x40040000)) ∧ regionOf a ≠ some .result) ∧
    (∃ (s : State) (m : Nat) (a : Nat) (size : Nat), s.mainOn = true ∧ s.writeErr m a size = none ∧ (¬ (0x40000000 ≤ a ∧ a < 0x40040000)) ∧ regionOf a ≠ some .result) ∧
    (∃ (s : State) (m : Nat) (a : Nat) (size : Nat), s.mainOn = true ∧ s.writeErr m a size = none ∧ regionOf a = some .result) ∧
    (∃ (s : State) (m : Nat) (a : Nat) (size : Nat), s.mainOn = true ∧ s.writeErr m a size = none ∧ regionOf a = some .result) ∧
    (∃ (s : State) (m : Nat) (a : Nat) (size : Nat) (kind : Nat), s.mainOn = true ∧ a < 2 ^ 32 ∧ m < 32 ∧ kind < 4 ∧ s.writeErr m a size = some kind ∧ s.on Fld.SYS_BUSERR_INFO_VALID = false) ∧
    (∃ (s : State) (m : Nat) (a : Nat) (size : Nat) (kind : Nat), s.mainOn = true ∧ a < 2 ^ 32 ∧ m < 32 ∧ kind < 4 ∧ s.writeErr m a size = some kind ∧ s.on Fld.SYS_BUSERR_INFO_VALID = false) ∧
    (∃ (s : State) (m : Nat) (a : Nat) (v : Word) (r : RegRow), s.mainOn = true ∧ pageOf a = Pg.PLCMAC ∧ 0x40 ≤ a % 0x1000 ∧ s.writeErr m a 4 = none ∧ s.islRun Pg.PLCMAC = true ∧ findRow PageKind.plcmac.rows (a % 0x1000) = some r ∧ r.key = 0 ∧ s.frozenRwl Pg.PLCMAC = false ∧ regOk .plcmac (a % 0x1000) (r.merge false (s.rd a) v) = true ∧ 0x40000000 ≤ a) ∧
    (∃ (s : State), s.mainOn = true) ∧
    (∃ (s : State), s.mainOn = true) ∧
    (∃ (s : State) (a : Nat), s.mainOn = true ∧ 0x40000000 ≤ a ∧ pageOf a < 0x3E ∧ (s.islIso (pageOf a) = true ∨ (0x40 ≤ a % 0x1000 ∧ s.islRun (pageOf a) = false))) ∧
    (∃ (s : State) (a : Nat), s.mainOn = true ∧ 0x40000000 ≤ a ∧ pageOf a < 0x3E ∧ (s.islIso (pageOf a) = true ∨ (0x40 ≤ a % 0x1000 ∧ s.islRun (pageOf a) = false))) ∧
    (∃ (s : State) (a : Nat) (h : Nat), s.mainOn = true ∧ pairHigh a = some h ∧ pageOf a < 0x3E ∧ s.islIso (pageOf a) = false ∧ s.islRun (pageOf a) = true ∧ s.bus.posted = []) ∧
    (∃ (s : State), s.mainOn = true ∧ s.islIso Pg.DRAM = false ∧ s.islRun Pg.DRAM = true ∧ s.bus.posted = []) :=
  ⟨⟨up, 0, 0x10000000, 4, by decide +kernel⟩,
    ⟨up, 0, 0x1007FFFE, 2, by decide +kernel⟩,
    ⟨up, 0, 0x1007FFFF, 1, by decide +kernel⟩,
    ⟨up, 4, 0x20000000, 4, by decide +kernel⟩,
    ⟨up, 15, 0x200FFFFE, 2, by decide +kernel⟩,
    ⟨up, 31, 0xFFFFFFFF, 1, BusKind.decode, by decide +kernel⟩,
    ⟨up, 17, 0x40000041, 4, BusKind.decode, by decide +kernel⟩,
    ⟨(set [(Hdr.EN Pg.PLCPHY, 1)] up), 16, Reg.PLCMAC_TM_CFG, 0x00030A62, ⟨0x044, 0x4, 1, 0x00, [⟨20, 20, .rw, 0⟩, ⟨19, 16, .rw, 3⟩, ⟨12, 8, .rw, 10⟩, ⟨7, 3, .rw, 12⟩, ⟨2, 2, .rw, 0⟩, ⟨1, 0, .rw, 3⟩]⟩, by decide +kernel⟩,
    ⟨up, by decide +kernel⟩,
    ⟨(dev (fun d => { d with bus := { d.bus with posted := [⟨16, 0x40000100, 1⟩] } }) up), by decide +kernel⟩,
    ⟨(set [(Hdr.EN Pg.PLCPHY, 0)] up), Reg.PLCPHY_CTRL, by decide +kernel⟩,
    ⟨(set [(Fld.CLK_ISL_ISO_ISL, 2 ^ 26)] up), Reg.DRAM_RING_SEQ, by decide +kernel⟩,
    ⟨up, Reg.SYS_GUN_MT_LO, Reg.SYS_GUN_MT_HI, by decide +kernel⟩,
    ⟨up, by decide +kernel⟩⟩

/-- The hypotheses of FrontEndWritesComplete can be met. -/
theorem witness_FrontEndWritesComplete :
    (∃ (s : State) (h : Nat) (v : Word), h < 12 ∧ lands s (Reg.HEAT_RSEL h) ∧ s.frozenRwl (Pg.HEAT h) = false ∧ 160 ≤ bitsOf v 24 16 ∧ bitsOf v 24 16 + 16 ≤ bitsOf v 8 0 ∧ bitsOf v 8 0 ≤ 480) ∧
    (∃ (s : State) (h : Nat) (v : Word), h < 12 ∧ lands s (Reg.HEAT_RSEL h) ∧ s.frozenRwl (Pg.HEAT h) = false ∧ 160 ≤ bitsOf v 24 16 ∧ bitsOf v 24 16 + 16 ≤ bitsOf v 8 0 ∧ bitsOf v 8 0 ≤ 480) ∧
    (∃ (s : State) (h : Nat) (v : Word), h < 12 ∧ lands s (Reg.HEAT_RSEL h) ∧ s.frozenRwl (Pg.HEAT h) = false ∧ (bitsOf v 24 16 < 160 ∨ bitsOf v 8 0 < bitsOf v 24 16 + 16 ∨ 480 < bitsOf v 8 0)) ∧
    (∃ (s : State) (h : Nat) (v : Word), h < 12 ∧ lands s (Reg.HEAT_RSEL h) ∧ s.frozenRwl (Pg.HEAT h) = false ∧ (bitsOf v 24 16 < 160 ∨ bitsOf v 8 0 < bitsOf v 24 16 + 16 ∨ 480 < bitsOf v 8 0)) ∧
    (∃ (s : State) (h : Nat) (v : Word), h < 12 ∧ lands s (Reg.HEAT_RSEL h) ∧ s.frozenRwl (Pg.HEAT h) = false ∧ (bitsOf v 24 16 < 160 ∨ bitsOf v 8 0 < bitsOf v 24 16 + 16 ∨ 480 < bitsOf v 8 0)) ∧
    (∃ (s : State) (b : Nat) (v : Word), b < 12 ∧ lands s (Reg.HEAT_ISO b) ∧ s.frozenRwl (Pg.HEAT b) = false ∧ bitsOf v 1 0 < 3) ∧
    (∃ (s : State) (b : Nat) (v : Word), b < 12 ∧ lands s (Reg.HEAT_ISO b) ∧ s.frozenRwl (Pg.HEAT b) = false ∧ bitsOf v 1 0 < 3) ∧
    (∃ (s : State) (v : Word), lands s Reg.UGRP_ISO ∧ s.frozenRwl Pg.UGRP = false ∧ bitsOf v 1 0 < 3) ∧
    (∃ (s : State) (b : Nat) (v : Word), b < 12 ∧ lands s (Reg.HEAT_ISO b) ∧ s.frozenRwl (Pg.HEAT b) = false ∧ bitsOf v 1 0 = 3) ∧
    (∃ (s : State) (b : Nat) (v : Word), b < 12 ∧ lands s (Reg.HEAT_APPLY b) ∧ bitsOf v 15 0 ≠ 0 ∧ s.frozenRwl (Pg.HEAT b) = false ∧ b < s.fe.blocks.length) ∧
    (∃ (s : State) (b : Nat), b < 12 ∧ s.mainOn = true ∧ (s.blk b).applying ≠ 0 ∧ b < s.fe.blocks.length) ∧
    (∃ (s : State) (b : Nat) (v : Word), b < 12 ∧ lands s (Reg.HEAT_LANE_EN b) ∧ (∃ j : Nat, j < 16 ∧ natBit (s.get (Fld.HEAT_LANE_EN_EN b)) j = true ∧ natBit (bitsOf v 15 0) j = false ∧ s.laneBound (16 * b + j) = true)) ∧
    (∃ (s : State) (b : Nat) (v : Word), b < 12 ∧ lands s (Reg.HEAT_LANE_EN b) ∧ (∀ j : Nat, j < 16 → natBit (s.get (Fld.HEAT_LANE_EN_EN b)) j = true → natBit (bitsOf v 15 0) j = true ∨ s.laneBound (16 * b + j) = false)) ∧
    (∃ (s : State) (b : Nat) (v : Word), b < 12 ∧ lands s (Reg.HEAT_LANE_EN b) ∧ (∀ j : Nat, j < 16 → natBit (s.get (Fld.HEAT_LANE_EN_EN b)) j = true → natBit (bitsOf v 15 0) j = true ∨ s.laneBound (16 * b + j) = false)) :=
  ⟨⟨(set [(Hdr.EN (Pg.HEAT 11), 1)] up), 11, 0x00A000B0, by unfold lands; decide +kernel⟩,
    ⟨(set [(Hdr.EN (Pg.HEAT 0), 1)] up), 0, 0x01D001E0, by unfold lands; decide +kernel⟩,
    ⟨(set [(Hdr.EN (Pg.HEAT 0), 1)] up), 0, 0x009F00B0, by unfold lands; decide +kernel⟩,
    ⟨(set [(Hdr.EN (Pg.HEAT 0), 1)] up), 0, 0x00A000AF, by unfold lands; decide +kernel⟩,
    ⟨(set [(Hdr.EN (Pg.HEAT 0), 1)] up), 0, 0x01D101E1, by unfold lands; decide +kernel⟩,
    ⟨(set [(Hdr.EN (Pg.HEAT 11), 1)] up), 11, 2, by unfold lands; decide +kernel⟩,
    ⟨(set [(Hdr.EN (Pg.HEAT 0), 1)] up), 0, 0, by unfold lands; decide +kernel⟩,
    ⟨(set [(Hdr.EN Pg.UGRP, 1)] up), 2, by unfold lands; decide +kernel⟩,
    ⟨(set [(Hdr.EN (Pg.HEAT 11), 1)] up), 11, 3, by unfold lands; decide +kernel⟩,
    ⟨(set [(Hdr.EN (Pg.HEAT 11), 1)] up), 11, 0x8000, by unfold lands; decide +kernel⟩,
    ⟨(dev (fun d => { d with fe := { d.fe with blocks := setAt d.fe.blocks 11 { applying := 1 } } }) up), 11, by decide +kernel⟩,
    ⟨(dev (fun d => { d with bill := { d.bill with bound := setAt d.bill.bound 0 ⟨0xFFFFFF0F, 0, 0x80000000⟩ } }) (set [(Hdr.EN (Pg.HEAT 0), 1), (Fld.HEAT_LANE_EN_EN 0, 0x8000)] up)), 0, 0x7FFF, by unfold lands; decide +kernel⟩,
    ⟨(set [(Hdr.EN (Pg.HEAT 0), 1), (Fld.HEAT_LANE_EN_EN 0, 0x8000)] up), 0, 0x7FFF, by unfold lands; decide +kernel⟩,
    ⟨(dev (fun d => { d with bill := { d.bill with bound := setAt d.bill.bound 0 ⟨0xFFFFFF0F, 0, 0x80000000⟩ } }) (set [(Hdr.EN (Pg.HEAT 0), 1), (Fld.HEAT_LANE_EN_EN 0, 0xC000)] up)), 0, 0x8000, by unfold lands; decide +kernel⟩⟩

/-- The hypotheses of ReferenceCommandsComplete can be met. -/
theorem witness_ReferenceCommandsComplete :
    (∃ (s : State) (r : Nat) (dev : Int), s.mainOn = true ∧ r < 4 ∧ (s.vref r).on = true ∧ (s.vref r).ok = true ∧ (s.vref r).suspect = false ∧ (∀ b ∈ refBlocks r, s.injArmed (blkPage b) 16 = false) ∧ (dev < -10000 ∨ 10000 < dev) ∧ r < s.fe.refs.length) ∧
    (∃ (s : State) (r : Nat) (dev : Int), s.mainOn = true ∧ r < 4 ∧ (s.vref r).on = true ∧ (s.vref r).ok = true ∧ (s.vref r).suspect = false ∧ (∀ b ∈ refBlocks r, s.injArmed (blkPage b) 16 = false) ∧ (dev < -10000 ∨ 10000 < dev) ∧ r < s.fe.refs.length) ∧
    (∃ (s : State) (r : Nat) (dev : Int), s.mainOn = true ∧ r < 4 ∧ (∀ b ∈ refBlocks r, s.injArmed (blkPage b) 16 = false) ∧ -10000 ≤ dev ∧ dev ≤ 10000) ∧
    (∃ (s : State) (r : Nat) (dev : Int), s.mainOn = true ∧ r < 4 ∧ (∀ b ∈ refBlocks r, s.injArmed (blkPage b) 16 = false) ∧ -10000 ≤ dev ∧ dev ≤ 10000) ∧
    (∃ (s : State) (r : Nat) (dev : Int), s.mainOn = true ∧ r < 4 ∧ (s.vref r).suspect = true ∧ (s.vref r).injected = none ∧ (∀ b ∈ refBlocks r, s.injArmed (blkPage b) 16 = false) ∧ -10000 ≤ dev ∧ dev ≤ 10000) ∧
    (∃ (s : State) (r : Nat) (b : Nat) (dev : Int), s.mainOn = true ∧ r < 4 ∧ (s.vref r).suspect = true ∧ (s.vref r).injected = none ∧ (∀ b ∈ refBlocks r, s.injArmed (blkPage b) 16 = false) ∧ (dev < -10000 ∨ 10000 < dev) ∧ b ∈ refBlocks r) ∧
    (∃ (s : State) (r : Nat) (b : Nat) (dev : Int), s.mainOn = true ∧ r < 4 ∧ (s.vref r).suspect = true ∧ (s.vref r).injected = none ∧ (∀ b ∈ refBlocks r, s.injArmed (blkPage b) 16 = false) ∧ (dev < -10000 ∨ 10000 < dev) ∧ b ∈ refBlocks r) ∧
    (∃ (s : State) (r : Nat) (b : Nat), s.mainOn = true ∧ r < 4 ∧ (s.vref r).on = true ∧ (s.vref r).ok = false ∧ b ∈ refBlocks r ∧ r < s.fe.refs.length) ∧
    (∃ (s : State) (r : Nat) (b : Nat), s.mainOn = true ∧ r < 4 ∧ (s.vref r).on = true ∧ (s.vref r).ok = false ∧ b ∈ refBlocks r ∧ r < s.fe.refs.length) ∧
    (∃ (s : State) (h : Nat), s.mainOn = true ∧ h < 13) ∧
    (∃ (s : State) (h : Nat) (mv : Int), s.mainOn = true ∧ h < 12 ∧ s.blkOn h = true ∧ (mv < -150 ∨ 150 < mv)) ∧
    (∃ (s : State) (h : Nat) (mv : Int), s.mainOn = true ∧ h < 12 ∧ s.blkOn h = true ∧ (mv < -150 ∨ 150 < mv)) ∧
    (∃ (s : State) (mv : Int), s.mainOn = true ∧ -150 ≤ mv ∧ mv ≤ 150) ∧
    (∃ (s : State) (mv : Int), s.mainOn = true ∧ -150 ≤ mv ∧ mv ≤ 150) ∧
    (∃ (s : State) (b : Nat) (tm : Int), s.mainOn = true ∧ b < 13 ∧ s.blkOn b = true ∧ -32768 ≤ tm ∧ tm ≤ 32767 ∧ s.bist.cooling = false) ∧
    (∃ (s : State) (b : Nat) (tm : Int), s.mainOn = true ∧ b < 13 ∧ s.blkOn b = true ∧ -32768 ≤ tm ∧ tm ≤ 32767 ∧ s.bist.cooling = false) :=
  ⟨⟨(dev (fun d => { d with fe := { d.fe with refs := setAt d.fe.refs 3 { on := true, ok := true } } }) up), 3, -10001, by decide +kernel⟩,
    ⟨(dev (fun d => { d with fe := { d.fe with refs := setAt d.fe.refs 0 { on := true, ok := true } } }) up), 0, 10001, by decide +kernel⟩,
    ⟨up, 3, 10000, by decide +kernel⟩,
    ⟨up, 0, -10000, by decide +kernel⟩,
    ⟨(dev (fun d => { d with fe := { d.fe with refs := setAt d.fe.refs 3 { suspect := true, ok := true } } }) up), 3, 10000, by decide +kernel⟩,
    ⟨(dev (fun d => { d with fe := { d.fe with refs := setAt d.fe.refs 3 { suspect := true, ok := true } } }) up), 3, 12, 10001, by decide +kernel⟩,
    ⟨(dev (fun d => { d with fe := { d.fe with refs := setAt d.fe.refs 2 { suspect := true } } }) up), 2, 11, -10001, by decide +kernel⟩,
    ⟨(dev (fun d => { d with fe := { d.fe with refs := setAt d.fe.refs 3 { on := true } } }) up), 3, 12, by decide +kernel⟩,
    ⟨(dev (fun d => { d with fe := { d.fe with refs := setAt d.fe.refs 0 { on := true, lasting := true } } }) up), 0, 3, by decide +kernel⟩,
    ⟨up, 12, by decide +kernel⟩,
    ⟨(set [(Hdr.EN (Pg.HEAT 11), 1)] up), 11, 151, by decide +kernel⟩,
    ⟨(set [(Hdr.EN (Pg.HEAT 0), 1)] up), 0, -151, by decide +kernel⟩,
    ⟨up, 150, by decide +kernel⟩,
    ⟨up, -150, by decide +kernel⟩,
    ⟨(set [(Hdr.EN Pg.UGRP, 1)] up), 12, 32767, by decide +kernel⟩,
    ⟨(set [(Hdr.EN (Pg.HEAT 0), 1)] up), 0, -32768, by decide +kernel⟩⟩

/-- The hypotheses of SampleAndGunCommandsComplete can be met. -/
theorem witness_SampleAndGunCommandsComplete :
    (∃ (s : State), s.mainOn = true ∧ s.clk.onRc = false ∧ s.power.st ≠ .shutdownTest ∧ s.fe.gunNext = false) ∧
    (∃ (s : State), s.mainOn = true ∧ s.clk.onRc = true) ∧
    (∃ (s : State), s.mainOn = true ∧ s.on Fld.SYS_GUN_IN_EN = true ∧ s.gunBarred = false) ∧
    (∃ (s : State), s.mainOn = true ∧ (s.on Fld.SYS_GUN_IN_EN = false ∨ s.gunBarred = true) ∧ s.on Fld.SYS_GUN_REPEAT = false) ∧
    (∃ (s : State), s.mainOn = true ∧ (s.on Fld.SYS_GUN_IN_EN = false ∨ s.gunBarred = true) ∧ s.on Fld.SYS_GUN_REPEAT = false) ∧
    (∃ (s : State) (v : Word), lands s Reg.SYS_GUN ∧ keyOf v = 0x47 ∧ bitAt v 0 = true ∧ s.gunBarred = false) ∧
    (∃ (s : State) (v : Word), lands s Reg.SYS_GUN ∧ keyOf v = 0x47 ∧ bitAt v 0 = true ∧ s.gunBarred = true) ∧
    (∃ (s : State) (v : Word), lands s Reg.UCH_CALM_CTRL ∧ bitAt v 0 = true ∧ bitsOf v 23 16 ≠ 0 ∧ bitsOf v 15 8 ≤ 207 ∧ s.on Fld.UCH_CALM_STAT_BUSY = false ∧ (bitsOf v 5 4 = 0 ∨ (bitsOf v 5 4 = 1 ∧ bitsOf v 15 8 < 192 ∧ s.get (Fld.FRAME_VG_STAT_STATE (s.chGrp (bitsOf v 15 8))) = 2))) ∧
    (∃ (s : State) (v : Word), lands s Reg.UCH_CALM_CTRL ∧ bitAt v 0 = true ∧ bitsOf v 23 16 ≠ 0 ∧ bitsOf v 15 8 ≤ 207 ∧ s.on Fld.UCH_CALM_STAT_BUSY = false ∧ (bitsOf v 5 4 = 0 ∨ (bitsOf v 5 4 = 1 ∧ bitsOf v 15 8 < 192 ∧ s.get (Fld.FRAME_VG_STAT_STATE (s.chGrp (bitsOf v 15 8))) = 2))) ∧
    (∃ (s : State) (v : Word), lands s Reg.UCH_CALM_CTRL ∧ bitAt v 0 = true ∧ bitsOf v 23 16 ≠ 0 ∧ bitsOf v 5 4 = 1 ∧ bitsOf v 15 8 < 192 ∧ s.on Fld.UCH_CALM_STAT_BUSY = false ∧ s.get (Fld.FRAME_VG_STAT_STATE (s.chGrp (bitsOf v 15 8))) ≠ 2) ∧
    (∃ (s : State) (v : Word), lands s Reg.UCH_CALM_CTRL ∧ (bitsOf v 23 16 = 0 ∨ 207 < bitsOf v 15 8 ∨ 1 < bitsOf v 5 4 ∨ (bitAt v 0 = true ∧ s.on Fld.UCH_CALM_STAT_BUSY = true) ∨ (bitAt v 0 = true ∧ bitsOf v 5 4 = 1 ∧ 192 ≤ bitsOf v 15 8))) ∧
    (∃ (s : State) (v : Word), lands s Reg.UCH_CALM_CTRL ∧ (bitsOf v 23 16 = 0 ∨ 207 < bitsOf v 15 8 ∨ 1 < bitsOf v 5 4 ∨ (bitAt v 0 = true ∧ s.on Fld.UCH_CALM_STAT_BUSY = true) ∨ (bitAt v 0 = true ∧ bitsOf v 5 4 = 1 ∧ 192 ≤ bitsOf v 15 8))) ∧
    (∃ (s : State) (v : Word), lands s Reg.UCH_CALM_CTRL ∧ (bitsOf v 23 16 = 0 ∨ 207 < bitsOf v 15 8 ∨ 1 < bitsOf v 5 4 ∨ (bitAt v 0 = true ∧ s.on Fld.UCH_CALM_STAT_BUSY = true) ∨ (bitAt v 0 = true ∧ bitsOf v 5 4 = 1 ∧ 192 ≤ bitsOf v 15 8))) ∧
    (∃ (s : State) (v : Word), lands s Reg.UCH_CALM_CTRL ∧ (bitsOf v 23 16 = 0 ∨ 207 < bitsOf v 15 8 ∨ 1 < bitsOf v 5 4 ∨ (bitAt v 0 = true ∧ s.on Fld.UCH_CALM_STAT_BUSY = true) ∨ (bitAt v 0 = true ∧ bitsOf v 5 4 = 1 ∧ 192 ≤ bitsOf v 15 8))) ∧
    (∃ (s : State) (v : Word), lands s Reg.UCH_CALM_CTRL ∧ (bitsOf v 23 16 = 0 ∨ 207 < bitsOf v 15 8 ∨ 1 < bitsOf v 5 4 ∨ (bitAt v 0 = true ∧ s.on Fld.UCH_CALM_STAT_BUSY = true) ∨ (bitAt v 0 = true ∧ bitsOf v 5 4 = 1 ∧ 192 ≤ bitsOf v 15 8))) ∧
    (∃ (s : State) (sel : Nat) (cyc : Nat), s.mainOn = true ∧ s.fe.calm = some (0, sel, cyc) ∧ 640 * cyc ≤ s.fe.calmN ∧ s.fe.calmN < 2 ^ 24) ∧
    (∃ (s : State) (sel : Nat) (cyc : Nat), s.mainOn = true ∧ s.fe.calm = some (0, sel, cyc) ∧ 640 * cyc ≤ s.fe.calmN ∧ s.fe.calmN < 2 ^ 24) ∧
    (∃ (s : State) (sel : Nat) (cyc : Nat), s.mainOn = true ∧ s.fe.calm = some (0, sel, cyc) ∧ s.fe.calmN < 640 * cyc) ∧
    (∃ (s : State) (sel : Nat) (cyc : Nat) (b : List Int), s.mainOn = true ∧ s.fe.calm = some (1, sel, cyc) ∧ s.calmSpan cyc = some b) ∧
    (∃ (s : State) (sel : Nat) (cyc : Nat), s.mainOn = true ∧ s.fe.calm = some (1, sel, cyc) ∧ s.calmSpan cyc = none ∧ s.get (Fld.FRAME_VG_STAT_STATE (s.chGrp sel)) ≠ 2) :=
  ⟨⟨up, by decide +kernel⟩,
    ⟨(dev (fun d => { d with clk := { d.clk with onRc := true } }) up), by decide +kernel⟩,
    ⟨(set [(Fld.SYS_GUN_IN_EN, 1)] up), by decide +kernel⟩,
    ⟨(set [(Fld.SYS_GUN_IN_EN, 0)] up), by decide +kernel⟩,
    ⟨(set [(Fld.SYS_GUN_IN_EN, 1)] (pow (fun p => { p with st := .holdup }) up)), by decide +kernel⟩,
    ⟨up, 0x47000301, by unfold lands; decide +kernel⟩,
    ⟨(pow (fun p => { p with st := .holdup }) up), 0x47000001, by unfold lands; decide +kernel⟩,
    ⟨up, 0x0001CF01, by unfold lands; decide +kernel⟩,
    ⟨(set [(Fld.FRAME_VG_STAT_STATE 0, 2)] up), 0x00FFBF11, by unfold lands; decide +kernel⟩,
    ⟨up, 0x00010011, by unfold lands; decide +kernel⟩,
    ⟨up, 0x0000CF01, by unfold lands; decide +kernel⟩,
    ⟨up, 0x0001D001, by unfold lands; decide +kernel⟩,
    ⟨up, 0x00010021, by unfold lands; decide +kernel⟩,
    ⟨(set [(Fld.UCH_CALM_STAT_BUSY, 1)] up), 0x00010001, by unfold lands; decide +kernel⟩,
    ⟨up, 0x0001C011, by unfold lands; decide +kernel⟩,
    ⟨(dev (fun d => { d with fe := { d.fe with calm := some (0, 0, 1), calmN := 2 ^ 24 - 1 } }) up), 0, 1, by decide +kernel⟩,
    ⟨(dev (fun d => { d with fe := { d.fe with calm := some (0, 0, 1), calmN := 640 } }) up), 0, 1, by decide +kernel⟩,
    ⟨(dev (fun d => { d with fe := { d.fe with calm := some (0, 0, 1), calmN := 639 } }) up), 0, 1, by decide +kernel⟩,
    ⟨(dev (fun d => { d with fe := { d.fe with calm := some (1, 0, 1), calmBounds := [0, 640 * q32] } }) up), 0, 1, [0, 640 * q32], by decide +kernel⟩,
    ⟨(dev (fun d => { d with fe := { d.fe with calm := some (1, 0, 1), calmBounds := [0] } }) up), 0, 1, by decide +kernel⟩⟩

/-- The hypotheses of TrackerCommandsComplete can be met. -/
theorem witness_TrackerCommandsComplete :
    (∃ (s : State) (g : Nat), s.mainOn = true ∧ s.clk.onRc = false ∧ g < 4 ∧ g < s.meter.trk.length ∧ s.framing g = true ∧ (s.trk g).strides.length < 2 ∧ (s.trk g).restartAt = none ∧ (s.trk g).job = none) ∧
    (∃ (s : State) (g : Nat), s.mainOn = true ∧ s.clk.onRc = false ∧ g < 4 ∧ (s.framing g = false ∨ 2 ≤ (s.trk g).strides.length)) ∧
    (∃ (s : State) (g : Nat), s.mainOn = true ∧ s.clk.onRc = false ∧ g < 4 ∧ (s.framing g = false ∨ 2 ≤ (s.trk g).strides.length)) ∧
    (∃ (s : State) (g : Nat) (st : Stride) (r : List Stride), s.mainOn = true ∧ s.clk.onRc = false ∧ g < 4 ∧ (s.trk g).strides = st :: r ∧ st.published = false) ∧
    (∃ (s : State) (g : Nat) (amp : Nat), s.mainOn = true ∧ s.clk.onRc = false ∧ g < 4 ∧ g < s.meter.trk.length ∧ s.trkState g = 2 ∧ (amp < s.get (Fld.FRAME_VG_AMIN_AMIN g) ∨ (s.trk g).lost = true)) ∧
    (∃ (s : State) (g : Nat) (amp : Nat), s.mainOn = true ∧ s.clk.onRc = false ∧ g < 4 ∧ g < s.meter.trk.length ∧ s.trkState g = 2 ∧ (amp < s.get (Fld.FRAME_VG_AMIN_AMIN g) ∨ (s.trk g).lost = true)) ∧
    (∃ (s : State) (g : Nat) (amp : Nat) (uhz : Nat), s.mainOn = true ∧ s.clk.onRc = false ∧ g < 4 ∧ g < s.meter.trk.length ∧ s.trkState g = 1 ∧ s.get (Fld.FRAME_VG_AMIN_AMIN g) ≤ amp ∧ (s.trk g).lost = false ∧ s.fixedOn g = false ∧ 42500000 ≤ uhz ∧ uhz ≤ 69000000 ∧ 7 ≤ (s.trk g).lockCnt) ∧
    (∃ (s : State) (g : Nat) (amp : Nat) (uhz : Nat), s.mainOn = true ∧ s.clk.onRc = false ∧ g < 4 ∧ g < s.meter.trk.length ∧ s.trkState g = 1 ∧ s.get (Fld.FRAME_VG_AMIN_AMIN g) ≤ amp ∧ (s.trk g).lost = false ∧ s.fixedOn g = false ∧ 42500000 ≤ uhz ∧ uhz ≤ 69000000 ∧ 7 ≤ (s.trk g).lockCnt) ∧
    (∃ (s : State) (g : Nat), s.mainOn = true ∧ s.clk.onRc = false ∧ g < 4 ∧ g < s.meter.trk.length ∧ s.trkState g = 3 ∧ s.get (Fld.FRAME_VG_CFG_COAST g) ≤ (s.trk g).coastCnt + 1) ∧
    (∃ (s : State) (g : Nat), s.mainOn = true ∧ s.clk.onRc = false ∧ g < 4 ∧ s.trkState g = 0) ∧
    (∃ (s : State) (g : Nat), s.mainOn = true ∧ s.clk.onRc = false ∧ g < 4 ∧ g < s.meter.trk.length ∧ ((s.trk g).f10Ok = false ∨ s.trkState g ≠ 2)) ∧
    (∃ (s : State) (g : Nat), s.mainOn = true ∧ s.clk.onRc = false ∧ g < 4 ∧ g < s.meter.trk.length ∧ ((s.trk g).f10Ok = false ∨ s.trkState g ≠ 2)) ∧
    (∃ (s : State) (g : Nat), s.mainOn = true ∧ s.clk.onRc = false ∧ g < 4 ∧ g < s.meter.trk.length ∧ (s.trk g).f10Ok = true ∧ s.trkState g = 2 ∧ (s.trk g).f10Due = none) ∧
    (∃ (s : Dev) (g : Nat) (b : Int) (e : Int), g < 4 ∧ g < s.meter.trk.length ∧ (s.trk g).f10Due = some e ∧ 0 < posDiff b e ∧ (0 < (s.trk g).f10Frames)) ∧
    (∃ (s : Dev) (g : Nat) (b : Int) (e : Int), g < 4 ∧ g < s.meter.trk.length ∧ (s.trk g).f10Due = some e ∧ 0 < posDiff b e) ∧
    (∃ (s : Dev) (g : Nat) (l : Int) (b : Int), g < 4 ∧ g < s.meter.trk.length ∧ (∀ e ∈ (s.trk g).f10Due, posDiff b e ≤ 0) ∧ (0 ≤ posDiff l (s.trk g).f10From)) ∧
    (∃ (s : Dev) (g : Nat) (l : Int) (b : Int), g < 4 ∧ g < s.meter.trk.length ∧ (∀ e ∈ (s.trk g).f10Due, posDiff b e ≤ 0) ∧ (posDiff l (s.trk g).f10From < 0)) :=
  ⟨⟨(set [(Fld.FRAME_VG_STAT_STATE 3, 2)] up), 3, by decide +kernel⟩,
    ⟨up, 3, by decide +kernel⟩,
    ⟨(dev (fun d => { d with meter := { d.meter with trk := setAt d.meter.trk 0 { strides := [stride0, stride0] } } }) (set [(Fld.FRAME_VG_STAT_STATE 0, 2)] up)), 0, by decide +kernel⟩,
    ⟨(dev (fun d => { d with meter := { d.meter with trk := setAt d.meter.trk 3 { strides := [stride0] } } }) up), 3, stride0, [], by decide +kernel⟩,
    ⟨(dev (fun d => { d with meter := { d.meter with trk := setAt d.meter.trk 3 { missing := 49 } } }) (set [(Fld.FRAME_VG_STAT_STATE 3, 2)] up)), 3, 0, by decide +kernel⟩,
    ⟨(set [(Fld.FRAME_VG_STAT_STATE 0, 2), (Fld.FRAME_VG_AMIN_AMIN 0, 5)] up), 0, 4, by decide +kernel⟩,
    ⟨(dev (fun d => { d with meter := { d.meter with trk := setAt d.meter.trk 3 { lockCnt := 7, missing := 48 } } }) (set [(Fld.FRAME_VG_STAT_STATE 3, 1)] up)), 3, 0x7FFF, 42500000, by decide +kernel⟩,
    ⟨(dev (fun d => { d with meter := { d.meter with trk := setAt d.meter.trk 0 { lockCnt := 7 } } }) (set [(Fld.FRAME_VG_STAT_STATE 0, 1)] up)), 0, 0x7FFF, 69000000, by decide +kernel⟩,
    ⟨(dev (fun d => { d with meter := { d.meter with trk := setAt d.meter.trk 3 { coastCnt := 254 } } }) (set [(Fld.FRAME_VG_STAT_STATE 3, 3)] up)), 3, by decide +kernel⟩,
    ⟨up, 3, by decide +kernel⟩,
    ⟨up, 3, by decide +kernel⟩,
    ⟨(dev (fun d => { d with meter := { d.meter with trk := setAt d.meter.trk 0 { f10Ok := true, f10Frames := 320000, f10Cycles := 500 } } }) up), 0, by decide +kernel⟩,
    ⟨(dev (fun d => { d with meter := { d.meter with trk := setAt d.meter.trk 3 { f10Ok := true, f10Frames := 320000, f10Cycles := 500 } } }) (set [(Fld.FRAME_VG_STAT_STATE 3, 2)] up)), 3, by decide +kernel⟩,
    ⟨(dev (fun d => { d with meter := { d.meter with trk := setAt d.meter.trk 3 { f10Due := some 0, f10Frames := 320000 * q32, f10Cycles := 500 } } }) up).toDev, 3, 1, 0, by decide +kernel⟩,
    ⟨(dev (fun d => { d with meter := { d.meter with trk := setAt d.meter.trk 0 { f10Due := some 0 } } }) up).toDev, 0, 1, 0, by decide +kernel⟩,
    ⟨(dev (fun d => { d with meter := { d.meter with trk := setAt d.meter.trk 3 { f10Due := some 5 } } }) up).toDev, 3, 0, 5, by decide +kernel⟩,
    ⟨(dev (fun d => { d with meter := { d.meter with trk := setAt d.meter.trk 0 { f10From := 7 } } }) up).toDev, 0, 6, 9, by decide +kernel⟩⟩

/-- The hypotheses of DecisionCommandsComplete can be met. -/
theorem witness_DecisionCommandsComplete :
    (∃ (s : State) (g : Nat) (st : Stride) (r : List Stride), s.mainOn = true ∧ s.clk.onRc = false ∧ g < 4 ∧ s.power.st = .run ∧ s.meter.holdup = [] ∧ (s.trk g).strides = st :: r ∧ s.trkState g ≠ 2) ∧
    (∃ (s : State) (g : Nat) (x : Int) (own : Int) (st : Stride) (r : List Stride), s.mainOn = true ∧ s.clk.onRc = false ∧ g < 4 ∧ s.power.st = .run ∧ s.meter.holdup = [] ∧ (s.trk g).strides = st :: r ∧ s.trkState g = 2 ∧ s.injArmed Pg.FRAME g = false ∧ s.covers g st (st.bMeas x own) = true ∧ -st.tol ≤ posDiff (st.bMeas x own) (st.start + st.len) ∧ posDiff (st.bMeas x own) (st.start + st.len) ≤ st.tol) ∧
    (∃ (s : State) (g : Nat) (x : Int) (own : Int) (st : Stride) (r : List Stride), s.mainOn = true ∧ s.clk.onRc = false ∧ g < 4 ∧ s.power.st = .run ∧ s.meter.holdup = [] ∧ (s.trk g).strides = st :: r ∧ s.trkState g = 2 ∧ s.injArmed Pg.FRAME g = false ∧ s.covers g st (st.bMeas x own) = true ∧ -st.tol ≤ posDiff (st.bMeas x own) (st.start + st.len) ∧ posDiff (st.bMeas x own) (st.start + st.len) ≤ st.tol) ∧
    (∃ (s : State) (g : Nat) (x : Int) (own : Int) (st : Stride) (r : List Stride), s.mainOn = true ∧ s.clk.onRc = false ∧ g < 4 ∧ s.power.st = .run ∧ s.meter.holdup = [] ∧ (s.trk g).strides = st :: r ∧ s.trkState g = 2 ∧ s.injArmed Pg.FRAME g = false ∧ s.covers g st (st.bMeas x own) = true ∧ -st.tol ≤ posDiff (st.bMeas x own) (st.start + st.len) ∧ posDiff (st.bMeas x own) (st.start + st.len) ≤ st.tol) ∧
    (∃ (s : State) (g : Nat) (x : Int) (own : Int) (st : Stride) (r : List Stride), s.mainOn = true ∧ s.clk.onRc = false ∧ g < 4 ∧ s.power.st = .run ∧ s.meter.holdup = [] ∧ (s.trk g).strides = st :: r ∧ s.trkState g = 2 ∧ s.injArmed Pg.FRAME g = false ∧ s.covers g st (st.bMeas x own) = true ∧ (posDiff (st.bMeas x own) (st.start + st.len) < -st.tol ∨ st.tol < posDiff (st.bMeas x own) (st.start + st.len))) ∧
    (∃ (s : State) (g : Nat) (x : Int) (own : Int) (st : Stride) (r : List Stride), s.mainOn = true ∧ s.clk.onRc = false ∧ g < 4 ∧ s.power.st = .run ∧ s.meter.holdup = [] ∧ (s.trk g).strides = st :: r ∧ s.trkState g = 2 ∧ s.injArmed Pg.FRAME g = false ∧ s.covers g st (st.bMeas x own) = true ∧ (posDiff (st.bMeas x own) (st.start + st.len) < -st.tol ∨ st.tol < posDiff (st.bMeas x own) (st.start + st.len))) ∧
    (∃ (s : State) (g : Nat) (x : Int) (own : Int) (st : Stride) (r : List Stride), s.mainOn = true ∧ s.clk.onRc = false ∧ g < 4 ∧ s.power.st = .run ∧ s.meter.holdup = [] ∧ (s.trk g).strides = st :: r ∧ s.trkState g = 2 ∧ s.injArmed Pg.FRAME g = false ∧ s.covers g st (st.bMeas x own) = true ∧ (posDiff (st.bMeas x own) (st.start + st.len) < -st.tol ∨ st.tol < posDiff (st.bMeas x own) (st.start + st.len))) ∧
    (∃ (s : State) (g : Nat) (x : Int) (own : Int) (st : Stride) (r : List Stride), s.mainOn = true ∧ s.clk.onRc = false ∧ g < 4 ∧ (s.trk g).strides = st :: r ∧ s.covers g st (st.bMeas x own) = false) ∧
    (∃ (s : State) (w : Nat) (bm : Int) (b : Int) (st : Stride), s.mainOn = true ∧ s.clk.onRc = false ∧ w < 12 ∧ s.power.st = .run ∧ s.meter.holdup = [] ∧ (s.pacer w).replay = some (st, b) ∧ (s.pacer w).todo = [] ∧ s.injArmed Pg.DRAM 0 = false ∧ s.injArmed Pg.DRAM 1 = false ∧ s.injArmed (Pg.PACER w) 0 = false ∧ s.spanLost (s.pacer w).sb (posDiff b (s.pacer w).sb / q32).toNat = false ∧ -st.tol ≤ posDiff bm b ∧ posDiff bm b ≤ st.tol) ∧
    (∃ (s : State) (w : Nat) (b : Int) (st : Stride), s.mainOn = true ∧ s.clk.onRc = false ∧ w < 12 ∧ s.power.st = .run ∧ s.meter.holdup = [] ∧ (s.pacer w).replay = some (st, b) ∧ (s.pacer w).attempt < 2 ∧ s.injArmed Pg.DRAM 0 = false ∧ s.injArmed Pg.DRAM 1 = false ∧ s.injArmed (Pg.PACER w) 0 = false) ∧
    (∃ (s : State) (w : Nat) (b : Int) (st : Stride), s.mainOn = true ∧ s.clk.onRc = false ∧ w < 12 ∧ s.power.st = .run ∧ s.meter.holdup = [] ∧ (s.pacer w).replay = some (st, b) ∧ 2 ≤ (s.pacer w).attempt ∧ (s.pacer w).todo = [] ∧ s.injArmed Pg.DRAM 0 = false ∧ s.injArmed Pg.DRAM 1 = false ∧ s.injArmed (Pg.PACER w) 0 = false) ∧
    (∃ (s : State) (w : Nat), s.mainOn = true ∧ s.clk.onRc = false ∧ w < 12 ∧ w < s.meter.pacers.length ∧ (s.pacer w).behind = true ∧ (s.pacer w).replay = none) ∧
    (∃ (s : State) (g : Nat) (p : Int), s.mainOn = true ∧ s.clk.onRc = false ∧ g < 4 ∧ s.power.st = .run ∧ s.meter.holdup = [] ∧ s.fixedOn g = true ∧ (s.trk g).stopped = false ∧ (s.trk g).job = none ∧ (s.trk g).blockStart = some p) ∧
    (∃ (s : State) (g : Nat), s.mainOn = true ∧ s.clk.onRc = false ∧ g < 4 ∧ s.power.st = .run ∧ s.meter.holdup = [] ∧ s.fixedOn g = true ∧ (s.trk g).stopped = false ∧ (s.trk g).job = none ∧ (s.trk g).blockStart = none ∧ g < s.meter.trk.length) ∧
    (∃ (s : State) (g : Nat), g < 4 ∧ lands s (Reg.FRAME_VG_AMIN g) ∧ s.frozenRwl Pg.FRAME = false) ∧
    (∃ (s : State) (g : Nat) (v : Word), g < 4 ∧ lands s (Reg.FRAME_VG_CFG g) ∧ s.frozenRwl Pg.FRAME = false ∧ s.grpHeats g = [] ∧ bitsOf v 23 16 ≠ 0 ∧ bitsOf v 5 4 ≠ 3 ∧ bitsOf v 1 0 ≠ 3) ∧
    (∃ (s : State) (g : Nat) (v : Word), g < 4 ∧ lands s (Reg.FRAME_VG_CFG g) ∧ s.frozenRwl Pg.FRAME = false ∧ (s.grpHeats g ≠ [] ∨ bitsOf v 23 16 = 0 ∨ bitsOf v 5 4 = 3 ∨ bitsOf v 1 0 = 3)) ∧
    (∃ (s : State) (g : Nat) (v : Word), g < 4 ∧ lands s (Reg.FRAME_VG_CFG g) ∧ s.frozenRwl Pg.FRAME = false ∧ (s.grpHeats g ≠ [] ∨ bitsOf v 23 16 = 0 ∨ bitsOf v 5 4 = 3 ∨ bitsOf v 1 0 = 3)) ∧
    (∃ (s : State) (g : Nat) (v : Word), g < 4 ∧ lands s (Reg.FRAME_VG_CFG g) ∧ s.frozenRwl Pg.FRAME = false ∧ (s.grpHeats g ≠ [] ∨ bitsOf v 23 16 = 0 ∨ bitsOf v 5 4 = 3 ∨ bitsOf v 1 0 = 3)) ∧
    (∃ (s : State) (g : Nat) (v : Word), g < 4 ∧ lands s (Reg.FRAME_VG_CFG g) ∧ s.frozenRwl Pg.FRAME = false ∧ (s.grpHeats g ≠ [] ∨ bitsOf v 23 16 = 0 ∨ bitsOf v 5 4 = 3 ∨ bitsOf v 1 0 = 3)) :=
  ⟨⟨(dev (fun d => { d with meter := { d.meter with trk := setAt d.meter.trk 3 { strides := [stride0] } }, fe := { d.fe with nextSeq := 0 } }) (set [(Fld.FRAME_VG_STAT_STATE 3, 3)] up)), 3, stride0, [], by decide +kernel⟩,
    ⟨(dev (fun d => { d with meter := { d.meter with trk := setAt d.meter.trk 3 { strides := [stride0] } }, fe := { d.fe with nextSeq := 802 } }) (set [(Fld.FRAME_VG_STAT_STATE 3, 2)] up)), 3, stride0.start + stride0.len + stride0.tol, 0, stride0, [], by decide +kernel⟩,
    ⟨(dev (fun d => { d with meter := { d.meter with trk := setAt d.meter.trk 0 { strides := [stride0] } }, fe := { d.fe with nextSeq := 802 } }) (set [(Fld.FRAME_VG_STAT_STATE 0, 2)] up)), 0, stride0.start + stride0.len - stride0.tol, 0, stride0, [], by decide +kernel⟩,
    ⟨(dev (fun d => { d with meter := { d.meter with trk := setAt d.meter.trk 0 { strides := [stride0] } }, fe := { d.fe with nextSeq := 802 } }) (set [(Fld.FRAME_VG_STAT_STATE 0, 2)] up)), 0, stride0.start + stride0.len + stride0.period / 4 + 1, stride0.start + stride0.len, stride0, [], by decide +kernel⟩,
    ⟨(dev (fun d => { d with meter := { d.meter with trk := setAt d.meter.trk 3 { strides := [stride0] } }, fe := { d.fe with nextSeq := 803 } }) (set [(Fld.FRAME_VG_STAT_STATE 3, 2)] up)), 3, stride0.start + stride0.len + stride0.tol + 1, 0, stride0, [], by decide +kernel⟩,
    ⟨(dev (fun d => { d with meter := { d.meter with trk := setAt d.meter.trk 0 { strides := [stride0] } }, fe := { d.fe with nextSeq := 802 } }) (set [(Fld.FRAME_VG_STAT_STATE 0, 2)] up)), 0, stride0.start + stride0.len - stride0.tol - 1, 0, stride0, [], by decide +kernel⟩,
    ⟨(dev (fun d => { d with meter := { d.meter with trk := setAt d.meter.trk 0 { strides := [stride0] } }, fe := { d.fe with nextSeq := 1000 } }) (set [(Fld.FRAME_VG_STAT_STATE 0, 2)] up)), 0, 0, stride0.start + stride0.len + stride0.tol + 1, stride0, [], by decide +kernel⟩,
    ⟨(dev (fun d => { d with meter := { d.meter with trk := setAt d.meter.trk 3 { strides := [stride0] } }, fe := { d.fe with nextSeq := 800 } }) (set [(Fld.FRAME_VG_STAT_STATE 3, 2)] up)), 3, stride0.start + stride0.len, 0, stride0, [], by decide +kernel⟩,
    ⟨(dev (fun d => { d with meter := { d.meter with pacers := setAt d.meter.pacers 11 { replay := some (stride0, 4294967296), sb := 4294967296 } } }) up), 11, 4294967296 + stride0.tol, 4294967296, stride0, by decide +kernel⟩,
    ⟨(dev (fun d => { d with meter := { d.meter with pacers := setAt d.meter.pacers 11 { replay := some (stride0, 5), attempt := 1 } } }) up), 11, 5, stride0, by decide +kernel⟩,
    ⟨(dev (fun d => { d with meter := { d.meter with pacers := setAt d.meter.pacers 11 { replay := some (stride0, 5), attempt := 2 } } }) up), 11, 5, stride0, by decide +kernel⟩,
    ⟨(dev (fun d => { d with meter := { d.meter with pacers := setAt d.meter.pacers 11 { behind := true } } }) up), 11, by decide +kernel⟩,
    ⟨(dev (fun d => { d with meter := { d.meter with trk := setAt d.meter.trk 3 { blockStart := some 0 } } }) (set [(Fld.FRAME_VG_CFG_MODE 3, 2), (Hdr.EN Pg.UGRP, 1)] up)), 3, 0, by decide +kernel⟩,
    ⟨(set [(Fld.FRAME_VG_CFG_MODE 3, 2), (Hdr.EN Pg.UGRP, 1)] up), 3, by decide +kernel⟩,
    ⟨up, 3, by unfold lands; decide +kernel⟩,
    ⟨up, 3, 0x00010302, by unfold lands; decide +kernel⟩,
    ⟨up, 3, 0x00000000, by unfold lands; decide +kernel⟩,
    ⟨up, 3, 0x00010030, by unfold lands; decide +kernel⟩,
    ⟨up, 3, 0x00010003, by unfold lands; decide +kernel⟩,
    ⟨(set [(Hdr.EN (Pg.HEAT 0), 1)] up), 0, 0x00010000, by unfold lands; decide +kernel⟩⟩

/-- The hypotheses of PulseCommandsComplete can be met. -/
theorem witness_PulseCommandsComplete :
    (∃ (s : State) (n : Nat), s.mainOn = true ∧ s.pulseFrozen = false ∧ s.on (Hdr.EN Pg.PULSE) = true ∧ n < 8 ∧ n < s.pulse.length ∧ s.on (Fld.PULSE_CH_CFG_EN n) = true) ∧
    (∃ (s : State) (n : Nat), s.mainOn = true ∧ s.pulseFrozen = false ∧ s.on (Hdr.EN Pg.PULSE) = true ∧ n < 8 ∧ s.on (Fld.PULSE_CH_CFG_EN n) = false) ∧
    (∃ (s : State), s.mainOn = true ∧ s.pulseFrozen = true) ∧
    (∃ (s : State), s.mainOn = true ∧ s.pulseFrozen = true) ∧
    (∃ (s : State) (n : Nat), s.mainOn = true ∧ n < 8 ∧ n < s.pulse.length ∧ s.pulseOn n = true ∧ (s.pulseCal ≠ 0 ∨ s.get Fld.PULSE_CTRL_CAL_MASK = 0)) ∧
    (∃ (s : State) (v : Word), lands s Reg.PULSE_CTRL ∧ keyOf v = 0x7C ∧ 1 ≤ bitsOf v 23 16 ∧ bitsOf v 23 16 ≤ 240 ∧ bitsOf v 15 8 ≠ 0) ∧
    (∃ (s : State) (v : Word), lands s Reg.PULSE_CTRL ∧ keyOf v = 0x7C ∧ 1 ≤ bitsOf v 23 16 ∧ bitsOf v 23 16 ≤ 240 ∧ bitsOf v 15 8 ≠ 0) ∧
    (∃ (s : State) (v : Word), lands s Reg.PULSE_CTRL ∧ keyOf v = 0x7C ∧ 1 ≤ bitsOf v 23 16 ∧ bitsOf v 23 16 ≤ 240 ∧ bitsOf v 15 8 = 0) ∧
    (∃ (s : State) (v : Word), lands s Reg.PULSE_CTRL ∧ keyOf v = 0x7C ∧ 1 ≤ bitsOf v 23 16 ∧ bitsOf v 23 16 ≤ 240 ∧ bitsOf v 15 8 = 0) ∧
    (∃ (s : State) (v : Word), lands s Reg.PULSE_CTRL ∧ keyOf v = 0x7C ∧ (bitsOf v 23 16 = 0 ∨ 240 < bitsOf v 23 16)) ∧
    (∃ (s : State) (v : Word), lands s Reg.PULSE_CTRL ∧ keyOf v = 0x7C ∧ (bitsOf v 23 16 = 0 ∨ 240 < bitsOf v 23 16)) ∧
    (∃ (s : State), s.mainOn = true) ∧
    (∃ (s : State) (n : Nat) (v : Word), n < 8 ∧ lands s (Reg.PULSE_CH_CFG n) ∧ s.frozenRwl Pg.PULSE = false ∧ pulseCfgOk v = true ∧ n < s.pulse.length) ∧
    (∃ (s : State) (n : Nat) (v : Word), n < 8 ∧ lands s (Reg.PULSE_CH_CFG n) ∧ s.frozenRwl Pg.PULSE = false ∧ pulseCfgOk v = true ∧ n < s.pulse.length) ∧
    (∃ (s : State) (n : Nat) (v : Word), n < 8 ∧ lands s (Reg.PULSE_CH_CONST n) ∧ s.frozenRwl Pg.PULSE = false ∧ 1 ≤ v.toNat ∧ v.toNat ≤ 1000000) ∧
    (∃ (s : State) (n : Nat) (v : Word), n < 8 ∧ lands s (Reg.PULSE_CH_CONST n) ∧ s.frozenRwl Pg.PULSE = false ∧ 1 ≤ v.toNat ∧ v.toNat ≤ 1000000) ∧
    (∃ (s : State) (n : Nat) (v : Word), n < 8 ∧ lands s (Reg.PULSE_CH_CONST n) ∧ s.frozenRwl Pg.PULSE = false ∧ (v.toNat = 0 ∨ 1000000 < v.toNat)) ∧
    (∃ (s : State) (n : Nat) (v : Word), n < 8 ∧ lands s (Reg.PULSE_CH_CONST n) ∧ s.frozenRwl Pg.PULSE = false ∧ (v.toNat = 0 ∨ 1000000 < v.toNat)) :=
  ⟨⟨(set [(Hdr.EN Pg.PULSE, 1), (Fld.PULSE_CH_CFG_EN 7, 1)] up), 7, by decide +kernel⟩,
    ⟨(set [(Hdr.EN Pg.PULSE, 1)] up), 7, by decide +kernel⟩,
    ⟨(pow (fun p => { p with st := .holdup }) up), by decide +kernel⟩,
    ⟨(pow (fun p => { p with st := .shutdownTest }) up), by decide +kernel⟩,
    ⟨(set [(Fld.PULSE_STAT_ON, 128)] up), 7, by decide +kernel⟩,
    ⟨up, 0x7C010100, by unfold lands; decide +kernel⟩,
    ⟨up, 0x7CF0FF00, by unfold lands; decide +kernel⟩,
    ⟨up, 0x7C010000, by unfold lands; decide +kernel⟩,
    ⟨up, 0x7CF00000, by unfold lands; decide +kernel⟩,
    ⟨up, 0x7C000100, by unfold lands; decide +kernel⟩,
    ⟨up, 0x7CF10100, by unfold lands; decide +kernel⟩,
    ⟨up, by decide +kernel⟩,
    ⟨up, 7, 0x8C3F0A00, by unfold lands; decide +kernel⟩,
    ⟨up, 0, 0xA7BF5000, by unfold lands; decide +kernel⟩,
    ⟨up, 7, 1, by unfold lands; decide +kernel⟩,
    ⟨up, 0, 1000000, by unfold lands; decide +kernel⟩,
    ⟨up, 7, 0, by unfold lands; decide +kernel⟩,
    ⟨up, 7, 1000001, by unfold lands; decide +kernel⟩⟩

/-- The hypotheses of HarmonicAndCaptureCommandsComplete can be met. -/
theorem witness_HarmonicAndCaptureCommandsComplete :
    (∃ (s : State) (g : Nat) (win : List (Nat × List HCyc)), s.mainOn = true ∧ g < 4 ∧ (s.hg g).done = some win) ∧
    (∃ (s : State) (g : Nat), s.mainOn = true ∧ (s.hg g).done = none) ∧
    (∃ (s : State) (g : Nat), s.mainOn = true ∧ s.on Fld.HARM_CTRL_AGG = true ∧ g < 4 ∧ g < s.harm.grp.length ∧ (s.hg g).tenDue = none ∧ s.harmPending g = false) ∧
    (∃ (s : State) (g : Nat), s.mainOn = true ∧ s.on Fld.HARM_CTRL_AGG = true ∧ g < 4 ∧ g < s.harm.grp.length ∧ (s.hg g).tenDue = none ∧ s.harmPending g = true) ∧
    (∃ (s : State), s.mainOn = true ∧ s.on Fld.HARM_CTRL_AGG = false ∧ (∀ g : Nat, g < 4 → (s.hg g).tenDue = none)) ∧
    (∃ (s : State) (k : Nat) (r : CapRec), s.mainOn = true ∧ (∀ j : Nat, j < 16 → s.get (Fld.CAP_TRIG_EV_CODE j) / 64 ≠ Pg.CAP ∧ s.get (Fld.CAP_TRIG_EV_CODE j) / 64 ≠ Pg.SPLIT) ∧ k < 256 ∧ nth s.cap.dir k none = some r ∧ r.due = true) ∧
    (∃ (s : State) (k : Nat) (r : CapRec), s.mainOn = true ∧ (∀ j : Nat, j < 16 → s.get (Fld.CAP_TRIG_EV_CODE j) / 64 ≠ Pg.CAP ∧ s.get (Fld.CAP_TRIG_EV_CODE j) / 64 ≠ Pg.SPLIT) ∧ k < 256 ∧ nth s.cap.dir k none = some r ∧ r.due = true) ∧
    (∃ (s : State) (k : Nat) (r : CapRec), s.mainOn = true ∧ (∀ j : Nat, j < 16 → s.get (Fld.CAP_TRIG_EV_CODE j) / 64 ≠ Pg.CAP ∧ s.get (Fld.CAP_TRIG_EV_CODE j) / 64 ≠ Pg.SPLIT) ∧ nth s.cap.dir k none = some r ∧ (r.complete = true ∨ (r.due = false ∧ (s.meter.pacers.any fun p => p.replay.isSome) = true))) ∧
    (∃ (s : State) (k : Nat) (r : CapRec), s.mainOn = true ∧ (∀ j : Nat, j < 16 → s.get (Fld.CAP_TRIG_EV_CODE j) / 64 ≠ Pg.CAP ∧ s.get (Fld.CAP_TRIG_EV_CODE j) / 64 ≠ Pg.SPLIT) ∧ nth s.cap.dir k none = some r ∧ (r.complete = true ∨ (r.due = false ∧ (s.meter.pacers.any fun p => p.replay.isSome) = true))) ∧
    (∃ (s : State) (v : Word), lands s Reg.CAP_CTRL ∧ bitAt v 1 = true ∧ s.cap.active = 0) ∧
    (∃ (s : State) (v : Word), lands s Reg.CAP_CTRL ∧ bitAt v 1 = true ∧ 0 < s.cap.active) ∧
    (∃ (s : State) (v : Word) (r : CapRec), lands s Reg.CAP_RECCTL ∧ keyOf v = 0x3A ∧ bitAt v 0 = true ∧ bitAt v 1 = false ∧ bitAt v 2 = false ∧ nth s.cap.dir (bitsOf v 15 8) none = some r) ∧
    (∃ (s : State) (v : Word), lands s Reg.CAP_RECCTL ∧ keyOf v = 0x3A ∧ bitAt v 0 = true ∧ bitAt v 1 = false ∧ bitAt v 2 = false ∧ nth s.cap.dir (bitsOf v 15 8) none = none) ∧
    (∃ (s : State) (v : Word) (r : CapRec), lands s Reg.CAP_RECCTL ∧ keyOf v = 0x3A ∧ bitAt v 0 = false ∧ bitAt v 1 = true ∧ bitAt v 2 = false ∧ nth s.cap.dir (bitsOf v 15 8) none = some r) ∧
    (∃ (s : State) (v : Word) (r : CapRec), lands s Reg.CAP_RECCTL ∧ keyOf v = 0x3A ∧ bitAt v 0 = false ∧ bitAt v 1 = false ∧ bitAt v 2 = true ∧ nth s.cap.dir (bitsOf v 15 8) none = some r ∧ r.complete = true ∧ r.locked = false) ∧
    (∃ (s : State) (v : Word) (r : CapRec), lands s Reg.CAP_RECCTL ∧ keyOf v = 0x3A ∧ bitAt v 0 = false ∧ bitAt v 1 = false ∧ bitAt v 2 = true ∧ nth s.cap.dir (bitsOf v 15 8) none = some r ∧ (r.complete = false ∨ r.locked = true)) ∧
    (∃ (s : State) (v : Word) (r : CapRec), lands s Reg.CAP_RECCTL ∧ keyOf v = 0x3A ∧ bitAt v 0 = false ∧ bitAt v 1 = false ∧ bitAt v 2 = true ∧ nth s.cap.dir (bitsOf v 15 8) none = some r ∧ (r.complete = false ∨ r.locked = true)) :=
  ⟨⟨(dev (fun d => { d with harm := { d.harm with grp := setAt d.harm.grp 3 { done := some [] } } }) up), 3, [], by decide +kernel⟩,
    ⟨up, 3, by decide +kernel⟩,
    ⟨(set [(Fld.HARM_CTRL_AGG, 1)] up), 3, by decide +kernel⟩,
    ⟨(dev (fun d => { d with harm := { d.harm with grp := setAt d.harm.grp 3 { done := some [] } } }) (set [(Fld.HARM_CTRL_AGG, 1)] up)), 3, by decide +kernel⟩,
    ⟨(set [(Fld.HARM_CTRL_AGG, 0)] up), by decide +kernel⟩,
    ⟨(dev (fun d => { d with cap := { d.cap with dir := setAt d.cap.dir 255 (some { rec0 with copied := 1 }) } }) up), 255, { rec0 with copied := 1 }, by decide +kernel⟩,
    ⟨(dev (fun d => { d with cap := { d.cap with dir := setAt d.cap.dir 255 (some { rec0 with lost := true, rows := 2 }) } }) up), 255, { rec0 with lost := true, rows := 2 }, by decide +kernel⟩,
    ⟨(dev (fun d => { d with cap := { d.cap with dir := setAt d.cap.dir 255 (some { rec0 with complete := true }) } }) up), 255, { rec0 with complete := true }, by decide +kernel⟩,
    ⟨(dev (fun d => { d with meter := { d.meter with pacers := setAt d.meter.pacers 0 { replay := some (stride0, 0) } } }) (dev (fun d => { d with cap := { d.cap with dir := setAt d.cap.dir 255 (some { rec0 with rows := 1 }) } }) up)), 255, { rec0 with rows := 1 }, by decide +kernel⟩,
    ⟨up, 3, by unfold lands; decide +kernel⟩,
    ⟨(dev (fun d => { d with cap := { d.cap with dir := setAt d.cap.dir 255 (some rec0) } }) up), 2, by unfold lands; decide +kernel⟩,
    ⟨(dev (fun d => { d with cap := { d.cap with dir := setAt d.cap.dir 255 (some { rec0 with locked := false }) } }) up), 0x3A00FF01, { rec0 with locked := false }, by unfold lands; decide +kernel⟩,
    ⟨up, 0x3A00FF01, by unfold lands; decide +kernel⟩,
    ⟨(dev (fun d => { d with cap := { d.cap with dir := setAt d.cap.dir 255 (some { rec0 with locked := true }) } }) up), 0x3A00FF02, { rec0 with locked := true }, by unfold lands; decide +kernel⟩,
    ⟨(dev (fun d => { d with cap := { d.cap with dir := setAt d.cap.dir 255 (some { rec0 with complete := true }) } }) up), 0x3A00FF04, { rec0 with complete := true }, by unfold lands; decide +kernel⟩,
    ⟨(dev (fun d => { d with cap := { d.cap with dir := setAt d.cap.dir 255 (some { rec0 with complete := true, locked := true }) } }) up), 0x3A00FF04, { rec0 with complete := true, locked := true }, by unfold lands; decide +kernel⟩,
    ⟨(dev (fun d => { d with cap := { d.cap with dir := setAt d.cap.dir 255 (some { rec0 with complete := false }) } }) up), 0x3A00FF04, { rec0 with complete := false }, by unfold lands; decide +kernel⟩⟩

/-- The hypotheses of EyeletCommandsComplete can be met. -/
theorem witness_EyeletCommandsComplete :
    (∃ (s : State) (wire : Nat) (found : List PodIn), s.mainOn = true ∧ wire < 12 ∧ natBit (s.get Fld.EYE_CTRL_HEATS) wire = true ∧ s.eyeMay = true ∧ (∀ i ∈ found, podIdOk i.id = true ∧ i.badIds.length < 2)) ∧
    (∃ (s : State) (wire : Nat) (found : List PodIn), s.mainOn = true ∧ wire < 12 ∧ natBit (s.get Fld.EYE_CTRL_HEATS) wire = true ∧ s.eyeMay = true ∧ (∃ i ∈ (enumSort found).take 17, podIdOk i.id = false ∨ 2 ≤ i.badIds.length)) ∧
    (∃ (s : State) (wire : Nat) (found : List PodIn), s.mainOn = true ∧ wire < 12 ∧ natBit (s.get Fld.EYE_CTRL_HEATS) wire = true ∧ s.eyeMay = true ∧ (∃ i ∈ (enumSort found).take 17, podIdOk i.id = false ∨ 2 ≤ i.badIds.length)) ∧
    (∃ (s : State) (wire : Nat), s.mainOn = true ∧ (12 ≤ wire ∨ natBit (s.get Fld.EYE_CTRL_HEATS) wire = false ∨ s.eyeMay = false)) ∧
    (∃ (s : State) (wire : Nat), s.mainOn = true ∧ (12 ≤ wire ∨ natBit (s.get Fld.EYE_CTRL_HEATS) wire = false ∨ s.eyeMay = false)) ∧
    (∃ (s : State) (wire : Nat), s.mainOn = true ∧ (12 ≤ wire ∨ natBit (s.get Fld.EYE_CTRL_HEATS) wire = false ∨ s.eyeMay = false)) ∧
    (∃ (s : State) (v : Word), lands s Reg.EYE_CMD ∧ keyOf v = 0x6E ∧ bitsOf v Fld.EYE_CMD_OP.hi Fld.EYE_CMD_OP.lo = 1 ∧ s.on Fld.EYE_STAT_BUSY = false ∧ s.get Fld.EYE_CTRL_HEATS ≠ 0) ∧
    (∃ (s : State) (v : Word), lands s Reg.EYE_CMD ∧ keyOf v = 0x6E ∧ bitsOf v Fld.EYE_CMD_OP.hi Fld.EYE_CMD_OP.lo = 1 ∧ s.on Fld.EYE_STAT_BUSY = true) ∧
    (∃ (s : State) (v : Word), lands s Reg.EYE_CMD ∧ keyOf v = 0x6E ∧ bitsOf v Fld.EYE_CMD_OP.hi Fld.EYE_CMD_OP.lo = 2 ∧ (s.on Fld.EYE_STAT_BUSY = true ∨ s.xferOk = false)) ∧
    (∃ (s : State) (v : Word), lands s Reg.EYE_CMD ∧ keyOf v = 0x6E ∧ bitsOf v Fld.EYE_CMD_OP.hi Fld.EYE_CMD_OP.lo = 2 ∧ (s.on Fld.EYE_STAT_BUSY = true ∨ s.xferOk = false)) ∧
    (∃ (s : State) (v : Word), lands s Reg.EYE_CMD ∧ keyOf v = 0x6E ∧ bitsOf v Fld.EYE_CMD_OP.hi Fld.EYE_CMD_OP.lo = 2 ∧ (s.on Fld.EYE_STAT_BUSY = true ∨ s.xferOk = false)) ∧
    (∃ (s : State) (v : Word), lands s Reg.EYE_CMD ∧ keyOf v = 0x6E ∧ bitsOf v Fld.EYE_CMD_OP.hi Fld.EYE_CMD_OP.lo = 2 ∧ s.on Fld.EYE_STAT_BUSY = false ∧ s.xferOk = true ∧ (s.eye.left ≠ 0 ∨ s.eyeMay = false)) ∧
    (∃ (s : State) (v : Word), lands s Reg.EYE_CMD ∧ keyOf v = 0x6E ∧ bitsOf v Fld.EYE_CMD_OP.hi Fld.EYE_CMD_OP.lo = 2 ∧ s.on Fld.EYE_STAT_BUSY = false ∧ s.xferOk = true ∧ (s.eye.left ≠ 0 ∨ s.eyeMay = false)) ∧
    (∃ (s : State) (fail : Nat) (v : Word), lands s Reg.EYE_CMD ∧ keyOf v = 0x6E ∧ bitsOf v Fld.EYE_CMD_OP.hi Fld.EYE_CMD_OP.lo = 2 ∧ s.on Fld.EYE_STAT_BUSY = false ∧ s.xferOk = true ∧ s.eye.left = 0 ∧ s.eyeMay = true ∧ s.on Fld.EYE_XADDR_WRITE = false ∧ s.injArmed Pg.EYE (s.get Fld.EYE_XADDR_LANE / 16) = false ∧ fail < 3) ∧
    (∃ (s : State) (fail : Nat) (v : Word), lands s Reg.EYE_CMD ∧ keyOf v = 0x6E ∧ bitsOf v Fld.EYE_CMD_OP.hi Fld.EYE_CMD_OP.lo = 2 ∧ s.on Fld.EYE_STAT_BUSY = false ∧ s.xferOk = true ∧ s.eye.left = 0 ∧ s.eyeMay = true ∧ s.on Fld.EYE_XADDR_WRITE = false ∧ s.injArmed Pg.EYE (s.get Fld.EYE_XADDR_LANE / 16) = false ∧ fail < 3) ∧
    (∃ (s : State) (v : Word), lands s Reg.EYE_CMD ∧ keyOf v = 0x6E ∧ bitsOf v Fld.EYE_CMD_OP.hi Fld.EYE_CMD_OP.lo = 2 ∧ s.on Fld.EYE_STAT_BUSY = false ∧ s.xferOk = true ∧ s.eye.left = 0 ∧ s.eyeMay = true ∧ s.on Fld.EYE_XADDR_WRITE = true) ∧
    (∃ (s : State) (v : Word), lands s Reg.EYE_CMD ∧ keyOf v = 0x6E ∧ bitsOf v Fld.EYE_CMD_OP.hi Fld.EYE_CMD_OP.lo = 2 ∧ s.on Fld.EYE_STAT_BUSY = false ∧ s.xferOk = true ∧ s.eye.left = 0 ∧ s.eyeMay = true ∧ s.on Fld.EYE_XADDR_WRITE = true) ∧
    (∃ (s : State) (wire : Nat), s.mainOn = true ∧ wire < 12 ∧ natBit (s.get Fld.EYE_CTRL_HEATS) wire = true) ∧
    (∃ (s : State) (wire : Nat), s.mainOn = true ∧ (12 ≤ wire ∨ natBit (s.get Fld.EYE_CTRL_HEATS) wire = false)) ∧
    (∃ (s : State) (wire : Nat), s.mainOn = true ∧ (12 ≤ wire ∨ natBit (s.get Fld.EYE_CTRL_HEATS) wire = false)) :=
  ⟨⟨(set [(Fld.EYE_CTRL_HEATS, 0x800)] up), 11, [], by decide +kernel⟩,
    ⟨(set [(Fld.EYE_CTRL_HEATS, 0x800)] up), 11, [{ id := 0, mem := [] }], by decide +kernel⟩,
    ⟨(set [(Fld.EYE_CTRL_HEATS, 0x800)] up), 11, [{ id := podId0, mem := [], badIds := [podId0, podId0] }], by decide +kernel⟩,
    ⟨up, 12, by decide +kernel⟩,
    ⟨(set [(Fld.EYE_CTRL_HEATS, 0)] up), 0, by decide +kernel⟩,
    ⟨(set [(Fld.EYE_CTRL_HEATS, 1)] (pow (fun p => { p with st := .holdup }) up)), 0, by decide +kernel⟩,
    ⟨(set [(Fld.EYE_CTRL_HEATS, 1)] up), 0x6E000001, by unfold lands; decide +kernel⟩,
    ⟨(set [(Fld.EYE_STAT_BUSY, 1)] up), 0x6E000001, by unfold lands; decide +kernel⟩,
    ⟨up, 0x6E000002, by unfold lands; decide +kernel⟩,
    ⟨(dev (fun d => { d with eye := { d.eye with pods := [pod0] } }) (set [(Fld.EYE_XADDR_LEN, 33), (Fld.EYE_XADDR_LANE, pod0.lane)] up)), 0x6E000002, by unfold lands; decide +kernel⟩,
    ⟨(set [(Fld.EYE_STAT_BUSY, 1)] up), 0x6E000002, by unfold lands; decide +kernel⟩,
    ⟨(dev (fun d => { d with eye := { d.eye with pods := [pod0], left := 1 } }) (set [(Fld.EYE_XADDR_LEN, 32), (Fld.EYE_XADDR_LANE, pod0.lane)] up)), 0x6E000002, by unfold lands; decide +kernel⟩,
    ⟨(pow (fun p => { p with st := .holdup }) (dev (fun d => { d with eye := { d.eye with pods := [pod0] } }) (set [(Fld.EYE_XADDR_LEN, 32), (Fld.EYE_XADDR_LANE, pod0.lane)] up))), 0x6E000002, by unfold lands; decide +kernel⟩,
    ⟨(dev (fun d => { d with eye := { d.eye with pods := [pod0] } }) (set [(Fld.EYE_XADDR_LEN, 32), (Fld.EYE_XADDR_LANE, pod0.lane)] up)), 2, 0x6E000002, by unfold lands; decide +kernel⟩,
    ⟨(dev (fun d => { d with eye := { d.eye with pods := [pod0] } }) (set [(Fld.EYE_XADDR_LEN, 1), (Fld.EYE_XADDR_LANE, pod0.lane)] up)), 0, 0x6E000002, by unfold lands; decide +kernel⟩,
    ⟨(set [(Fld.EYE_XADDR_WRITE, 1), (Fld.EYE_XADDR_ADDR, 0x7FF)] (dev (fun d => { d with eye := { d.eye with pods := [pod0] } }) (set [(Fld.EYE_XADDR_LEN, 1), (Fld.EYE_XADDR_LANE, pod0.lane)] up))), 0x6E000002, by unfold lands; decide +kernel⟩,
    ⟨(set [(Fld.EYE_XADDR_WRITE, 1), (Fld.EYE_XADDR_ADDR, 0x480)] (dev (fun d => { d with eye := { d.eye with pods := [pod0] } }) (set [(Fld.EYE_XADDR_LEN, 32), (Fld.EYE_XADDR_LANE, pod0.lane)] up))), 0x6E000002, by unfold lands; decide +kernel⟩,
    ⟨(set [(Fld.EYE_CTRL_HEATS, 0x800)] up), 11, by decide +kernel⟩,
    ⟨up, 12, by decide +kernel⟩,
    ⟨(set [(Fld.EYE_CTRL_HEATS, 0)] up), 0, by decide +kernel⟩⟩

/-- The hypotheses of TableLoadCommandsComplete can be met. -/
theorem witness_TableLoadCommandsComplete :
    (∃ (s : State) (v : Word), lands s Reg.UCH_TT_LOAD ∧ bitAt v 0 = true ∧ s.tblBusy Reg.UCH_TBL_STAT = false) ∧
    (∃ (s : State) (v : Word), lands s Reg.TARIFF_LOAD ∧ bitAt v 0 = true ∧ s.tblBusy Reg.TARIFF_TBL_STAT = false) ∧
    (∃ (s : State) (v : Word), lands s Reg.DISC_LOAD ∧ bitAt v 0 = true ∧ s.tblBusy Reg.DISC_TBL_STAT = false) ∧
    (∃ (s : State) (v : Word), lands s Reg.DISP_LOAD ∧ bitAt v 0 = true ∧ s.tblBusy Reg.DISP_TBL_STAT = false) ∧
    (∃ (s : State) (m : Nat) (v : Word), lands s Reg.PLCPHY_BP_LOAD ∧ bitAt v 0 = true ∧ (bitAt v 1 && !s.session m) = false ∧ s.tblBusy Reg.PLCPHY_TBL_STAT = false) ∧
    (∃ (s : State) (v : Word), bitAt v 0 = false ∧ (lands s Reg.UCH_TT_LOAD ∧ lands s Reg.TARIFF_LOAD ∧ lands s Reg.DISC_LOAD ∧ lands s Reg.DISP_LOAD ∧ lands s Reg.PLCPHY_BP_LOAD)) ∧
    (∃ (s : State) (v : Word), bitAt v 0 = true ∧ (lands s Reg.UCH_TT_LOAD ∧ lands s Reg.TARIFF_LOAD ∧ lands s Reg.DISC_LOAD ∧ lands s Reg.DISP_LOAD ∧ lands s Reg.PLCPHY_BP_LOAD ∧ s.tblBusy Reg.UCH_TBL_STAT = true ∧ s.tblBusy Reg.TARIFF_TBL_STAT = true ∧ s.tblBusy Reg.DISC_TBL_STAT = true ∧ s.tblBusy Reg.DISP_TBL_STAT = true ∧ s.tblBusy Reg.PLCPHY_TBL_STAT = true)) ∧
    (∃ (s : State) (m : Nat) (v : Word), lands s Reg.PLCPHY_BP_LOAD ∧ (bitAt v 1 && !s.session m) = true) ∧
    (∃ (a : Nat), tblStats.contains a = true) ∧
    (∃ (a : Nat), tblStats.contains a = true) ∧
    (∃ (a : Nat), tblStats.contains a = true) ∧
    (∃ (a : Nat), tblStats.contains a = true) ∧
    (∃ (a : Nat), tblStats.contains a = true) ∧
    (∃ (mem : List Host.Cell) (l : TblLoad), l.stat = Reg.UCH_TBL_STAT ∧ (let r := tblCheck mem l.src { type := 3, esize := 16, area := 4096, locked := l.locked, content := tempContent }; r.1 = 0)) ∧
    (∃ (mem : List Host.Cell) (l : TblLoad), l.stat = Reg.UCH_TBL_STAT ∧ (let r := tblCheck mem l.src { type := 3, esize := 16, area := 4096, locked := l.locked, content := tempContent }; r.1 ≠ 0)) ∧
    (∃ (mem : List Host.Cell) (l : TblLoad), l.stat = Reg.TARIFF_TBL_STAT ∧ (let r := tblCheck mem l.src { type := 1, esize := 32, area := 16384, locked := l.locked, content := tarContent }; r.1 = 0)) ∧
    (∃ (mem : List Host.Cell) (l : TblLoad), l.stat = Reg.TARIFF_TBL_STAT ∧ (let r := tblCheck mem l.src { type := 1, esize := 32, area := 16384, locked := l.locked, content := tarContent }; r.1 ≠ 0)) ∧
    (∃ (mem : List Host.Cell) (l : TblLoad), l.stat = Reg.DISC_TBL_STAT ∧ (let r := tblCheck mem l.src { type := 4, esize := 8, area := 1024, content := seqContent }; r.1 = 0)) ∧
    (∃ (mem : List Host.Cell) (l : TblLoad), l.stat = Reg.DISC_TBL_STAT ∧ (let r := tblCheck mem l.src { type := 4, esize := 8, area := 1024, content := seqContent }; r.1 ≠ 0)) ∧
    (∃ (mem : List Host.Cell) (l : TblLoad), l.stat = Reg.DISP_TBL_STAT ∧ (let r := tblCheck mem l.src { type := 2, esize := 20, area := 8192, content := dispContent }; r.1 = 0)) ∧
    (∃ (mem : List Host.Cell) (l : TblLoad), l.stat = Reg.DISP_TBL_STAT ∧ (let r := tblCheck mem l.src { type := 2, esize := 20, area := 8192, content := dispContent }; r.1 ≠ 0)) ∧
    (∃ (s : Dev) (mem : List Host.Cell) (l : TblLoad), l.stat = Reg.PLCPHY_TBL_STAT ∧ (let r := tblCheck mem l.src { type := 5, esize := 8, area := 4096, emptyOk := l.emptyOk, content := bandContent }; r.1 = 0 ∧ s.plc.txTo ≤ s.mt)) ∧
    (∃ (s : Dev) (mem : List Host.Cell) (l : TblLoad), l.stat = Reg.PLCPHY_TBL_STAT ∧ (let r := tblCheck mem l.src { type := 5, esize := 8, area := 4096, emptyOk := l.emptyOk, content := bandContent }; r.1 = 0 ∧ s.mt < s.plc.txTo)) ∧
    (∃ (mem : List Host.Cell) (l : TblLoad), l.stat = Reg.PLCPHY_TBL_STAT ∧ (let r := tblCheck mem l.src { type := 5, esize := 8, area := 4096, emptyOk := l.emptyOk, content := bandContent }; r.1 ≠ 0)) :=
  ⟨⟨up, 1, by unfold lands; decide +kernel⟩,
    ⟨up, 1, by unfold lands; decide +kernel⟩,
    ⟨up, 1, by unfold lands; decide +kernel⟩,
    ⟨up, 1, by unfold lands; decide +kernel⟩,
    ⟨(set [(Hdr.EN Pg.PLCPHY, 1)] up), 16, 1, by unfold lands; decide +kernel⟩,
    ⟨up, 0, by unfold lands; decide +kernel⟩,
    ⟨(dev (fun d => { d with clk := { d.clk with loading := [⟨Reg.UCH_TBL_STAT, 0x60C00000, 2 ^ 60, false, true⟩, ⟨Reg.TARIFF_TBL_STAT, 0x60C00000, 2 ^ 60, false, true⟩, ⟨Reg.DISC_TBL_STAT, 0x60C00000, 2 ^ 60, false, true⟩, ⟨Reg.DISP_TBL_STAT, 0x60C00000, 2 ^ 60, false, true⟩, ⟨Reg.PLCPHY_TBL_STAT, 0x60C00000, 2 ^ 60, false, true⟩] } }) up), 1, by unfold lands; decide +kernel⟩,
    ⟨(set [(Hdr.EN Pg.PLCPHY, 1)] up), 16, 3, by unfold lands; decide +kernel⟩,
    ⟨Reg.UCH_TBL_STAT, by decide +kernel⟩,
    ⟨Reg.TARIFF_TBL_STAT, by decide +kernel⟩,
    ⟨Reg.DISC_TBL_STAT, by decide +kernel⟩,
    ⟨Reg.DISP_TBL_STAT, by decide +kernel⟩,
    ⟨Reg.PLCPHY_TBL_STAT, by decide +kernel⟩,
    ⟨(tbl Fld.UCH_TT_SRC_ADDR 3 16 [List.replicate 16 0, [0, 0, 1] ++ List.replicate 13 0] up).mem, ⟨Reg.UCH_TBL_STAT, 0x60C00000, 0, false, true⟩, by decide +kernel⟩,
    ⟨[], ⟨Reg.UCH_TBL_STAT, 0x60C00000, 0, false, true⟩, by decide +kernel⟩,
    ⟨(tbl Fld.TARIFF_SRC_ADDR 1 32 [] up).mem, ⟨Reg.TARIFF_TBL_STAT, 0x60C00000, 0, false, true⟩, by decide +kernel⟩,
    ⟨[], ⟨Reg.TARIFF_TBL_STAT, 0x60C00000, 0, false, true⟩, by decide +kernel⟩,
    ⟨(tbl Fld.DISC_SRC_ADDR 4 8 [[63, 15, 15, 0, 16, 39, 0, 0]] up).mem, ⟨Reg.DISC_TBL_STAT, 0x60C00000, 0, false, true⟩, by decide +kernel⟩,
    ⟨[], ⟨Reg.DISC_TBL_STAT, 0x60C00000, 0, false, true⟩, by decide +kernel⟩,
    ⟨(tbl Fld.DISP_SRC_ADDR 2 20 [] up).mem, ⟨Reg.DISP_TBL_STAT, 0x60C00000, 0, false, true⟩, by decide +kernel⟩,
    ⟨[], ⟨Reg.DISP_TBL_STAT, 0x60C00000, 0, false, true⟩, by decide +kernel⟩,
    ⟨(tbl Fld.PLCPHY_BP_SRC_ADDR 5 8 [[100, 0, 100, 0, 0, 0, 0, 0]] (set [(Hdr.EN Pg.PLCPHY, 1)] up)).toDev, (tbl Fld.PLCPHY_BP_SRC_ADDR 5 8 [[100, 0, 100, 0, 0, 0, 0, 0]] (set [(Hdr.EN Pg.PLCPHY, 1)] up)).mem, ⟨Reg.PLCPHY_TBL_STAT, 0x60C00000, 0, false, true⟩, by decide +kernel⟩,
    ⟨(dev (fun d => { d with plc := { d.plc with txTo := 1 } }) (tbl Fld.PLCPHY_BP_SRC_ADDR 5 8 [[100, 0, 100, 0, 0, 0, 0, 0]] (set [(Hdr.EN Pg.PLCPHY, 1)] up))).toDev, (tbl Fld.PLCPHY_BP_SRC_ADDR 5 8 [[100, 0, 100, 0, 0, 0, 0, 0]] (set [(Hdr.EN Pg.PLCPHY, 1)] up)).mem, ⟨Reg.PLCPHY_TBL_STAT, 0x60C00000, 0, false, true⟩, by decide +kernel⟩,
    ⟨[], ⟨Reg.PLCPHY_TBL_STAT, 0x60C00000, 0, false, true⟩, by decide +kernel⟩⟩

/-- The hypotheses of BillingCommandsComplete can be met. -/
theorem witness_BillingCommandsComplete :
    (∃ (s : State) (b : Nat) (v : Word), b < 64 ∧ lands s (Reg.BILL_BP_CFG b) ∧ s.frozenRwl Pg.BILL = false ∧ (let w := BitVec.ofNat 32 (v.toNat &&& 0xEF700000); let k : Binding := ⟨s.get (Fld.BILL_BP_LANE_SLOTS b), (s.rd (Reg.BILL_BP_ROLE b)).toNat, w.toNat⟩; bitsOf w 22 20 ≤ 3 ∧ k.en = true ∧ s.bindOk b k = true)) ∧
    (∃ (s : State) (b : Nat) (v : Word), b < 64 ∧ lands s (Reg.BILL_BP_CFG b) ∧ s.frozenRwl Pg.BILL = false ∧ (let w := BitVec.ofNat 32 (v.toNat &&& 0xEF700000); let k : Binding := ⟨s.get (Fld.BILL_BP_LANE_SLOTS b), (s.rd (Reg.BILL_BP_ROLE b)).toNat, w.toNat⟩; bitsOf w 22 20 ≤ 3 ∧ k.en = false ∧ s.bindOk b k = true ∧ (nth s.bill.bound b {}).en = true)) ∧
    (∃ (s : State) (b : Nat) (v : Word), b < 64 ∧ lands s (Reg.BILL_BP_CFG b) ∧ s.frozenRwl Pg.BILL = false ∧ (let w := BitVec.ofNat 32 (v.toNat &&& 0xEF700000); let k : Binding := ⟨s.get (Fld.BILL_BP_LANE_SLOTS b), (s.rd (Reg.BILL_BP_ROLE b)).toNat, w.toNat⟩; bitsOf w 22 20 ≤ 3 ∧ k.en = false ∧ s.bindOk b k = true ∧ (nth s.bill.bound b {}).en = false)) ∧
    (∃ (s : State) (b : Nat) (v : Word), b < 64 ∧ lands s (Reg.BILL_BP_CFG b) ∧ s.frozenRwl Pg.BILL = false ∧ (let w := BitVec.ofNat 32 (v.toNat &&& 0xEF700000); let k : Binding := ⟨s.get (Fld.BILL_BP_LANE_SLOTS b), (s.rd (Reg.BILL_BP_ROLE b)).toNat, w.toNat⟩; 3 < bitsOf w 22 20 ∨ s.bindOk b k = false)) ∧
    (∃ (s : State) (b : Nat) (v : Word), b < 64 ∧ lands s (Reg.BILL_BP_CFG b) ∧ s.frozenRwl Pg.BILL = false ∧ (let w := BitVec.ofNat 32 (v.toNat &&& 0xEF700000); let k : Binding := ⟨s.get (Fld.BILL_BP_LANE_SLOTS b), (s.rd (Reg.BILL_BP_ROLE b)).toNat, w.toNat⟩; bitsOf w 22 20 ≤ 3 ∧ s.bindOk b k = false)) ∧
    (∃ (s : State) (b : Nat) (p : Posting) (l : List Posting), s.mainOn = true ∧ s.billUp = true ∧ s.bill.frozen = false ∧ b < 64 ∧ s.readyCycle b = some (p :: l) ∧ s.meter.holdup = [] ∧ s.awaits (((p :: l).map fun q => q.rcd.endMt).foldl max 0) = false) ∧
    (∃ (s : State) (b : Nat), s.mainOn = true ∧ (s.billUp = false ∨ s.bill.frozen = true ∨ (s.readyCycle b = none ∧ (s.inHoldup = true ∨ s.meter.holdup = [])))) ∧
    (∃ (s : State) (b : Nat), s.mainOn = true ∧ (s.billUp = false ∨ s.bill.frozen = true ∨ (s.readyCycle b = none ∧ (s.inHoldup = true ∨ s.meter.holdup = [])))) ∧
    (∃ (s : State) (b : Nat), s.mainOn = true ∧ (s.billUp = false ∨ s.bill.frozen = true ∨ (s.readyCycle b = none ∧ (s.inHoldup = true ∨ s.meter.holdup = [])))) ∧
    (∃ (s : State) (b : Nat), s.mainOn = true ∧ s.billUp = true ∧ s.bill.frozen = false ∧ b < 64 ∧ s.readyCycle b = none ∧ s.inHoldup = false ∧ s.meter.holdup ≠ []) ∧
    (∃ (s : State) (b : Nat), s.mainOn = true ∧ s.billUp = true ∧ s.bill.frozen = false ∧ b < 64 ∧ s.readyCycle b = none ∧ s.inHoldup = false ∧ s.meter.holdup ≠ []) ∧
    (∃ (s : State) (sec : Nat) (mt : Nat), s.mainOn = true ∧ s.billLive = true ∧ s.bill.due = [(sec, mt)] ∧ 0 < sec ∧ sec < calendarEnd) ∧
    (∃ (s : State) (sec : Nat) (mt : Nat), s.mainOn = true ∧ s.billLive = true ∧ s.bill.due = [(sec, mt)] ∧ 0 < sec ∧ sec < calendarEnd) ∧
    (∃ (s : State), s.mainOn = true ∧ (s.billLive = false ∨ s.bill.due = [])) ∧
    (∃ (s : State), s.mainOn = true ∧ (s.billLive = false ∨ s.bill.due = [])) ∧
    (∃ (s : State) (v : Word), lands s Reg.BILL_DEMAND ∧ s.frozenRwl Pg.BILL = false ∧ (let w := BitVec.ofNat 32 (v.toNat &&& 0x3F7); let ok := bitsOf w 2 0 ≤ 4 ∧ (bitsOf w 9 8 = 0 ∨ (bitsOf w 9 8 = 1 ∧ demPairOk (demLen (bitsOf w 2 0)) (bitsOf w 7 4) = true)); ok ∧ s.rd Reg.BILL_DEMAND ≠ w ∧ s.billUp = true)) ∧
    (∃ (s : State) (v : Word), lands s Reg.BILL_DEMAND ∧ s.frozenRwl Pg.BILL = false ∧ (let w := BitVec.ofNat 32 (v.toNat &&& 0x3F7); let ok := bitsOf w 2 0 ≤ 4 ∧ (bitsOf w 9 8 = 0 ∨ (bitsOf w 9 8 = 1 ∧ demPairOk (demLen (bitsOf w 2 0)) (bitsOf w 7 4) = true)); ok ∧ s.rd Reg.BILL_DEMAND ≠ w ∧ s.billUp = false)) ∧
    (∃ (s : State) (v : Word), lands s Reg.BILL_DEMAND ∧ s.frozenRwl Pg.BILL = false ∧ (let w := BitVec.ofNat 32 (v.toNat &&& 0x3F7); let ok := bitsOf w 2 0 ≤ 4 ∧ (bitsOf w 9 8 = 0 ∨ (bitsOf w 9 8 = 1 ∧ demPairOk (demLen (bitsOf w 2 0)) (bitsOf w 7 4) = true)); ok ∧ s.rd Reg.BILL_DEMAND = w)) ∧
    (∃ (s : State) (v : Word), lands s Reg.BILL_DEMAND ∧ s.frozenRwl Pg.BILL = false ∧ (let w := BitVec.ofNat 32 (v.toNat &&& 0x3F7); let ok := bitsOf w 2 0 ≤ 4 ∧ (bitsOf w 9 8 = 0 ∨ (bitsOf w 9 8 = 1 ∧ demPairOk (demLen (bitsOf w 2 0)) (bitsOf w 7 4) = true)); ¬ ok)) ∧
    (∃ (s : State) (v : Word), lands s Reg.BILL_DEMAND ∧ s.frozenRwl Pg.BILL = false ∧ (let w := BitVec.ofNat 32 (v.toNat &&& 0x3F7); let ok := bitsOf w 2 0 ≤ 4 ∧ (bitsOf w 9 8 = 0 ∨ (bitsOf w 9 8 = 1 ∧ demPairOk (demLen (bitsOf w 2 0)) (bitsOf w 7 4) = true)); ¬ ok)) ∧
    (∃ (s : State) (v : Word), lands s Reg.BILL_DEMAND ∧ s.frozenRwl Pg.BILL = false ∧ (let w := BitVec.ofNat 32 (v.toNat &&& 0x3F7); let ok := bitsOf w 2 0 ≤ 4 ∧ (bitsOf w 9 8 = 0 ∨ (bitsOf w 9 8 = 1 ∧ demPairOk (demLen (bitsOf w 2 0)) (bitsOf w 7 4) = true)); ¬ ok)) ∧
    (∃ (s : State) (v : Word), lands s Reg.BILL_CMD ∧ keyOf v = 0x5B ∧ bitsOf v 1 0 = 1 ∧ s.power.st ≠ .holdup ∧ s.billUp = true ∧ s.bill.frozen = false ∧ s.injArmed Pg.BILL 0 = false) ∧
    (∃ (s : State) (v : Word), lands s Reg.BILL_CMD ∧ keyOf v = 0x5B ∧ (bitsOf v 1 0 = 0 ∨ bitsOf v 1 0 = 3 ∨ s.power.st = .holdup)) ∧
    (∃ (s : State) (v : Word), lands s Reg.BILL_CMD ∧ keyOf v = 0x5B ∧ (bitsOf v 1 0 = 0 ∨ bitsOf v 1 0 = 3 ∨ s.power.st = .holdup)) ∧
    (∃ (s : State) (v : Word), lands s Reg.BILL_CMD ∧ keyOf v = 0x5B ∧ (bitsOf v 1 0 = 0 ∨ bitsOf v 1 0 = 3 ∨ s.power.st = .holdup)) ∧
    (∃ (s : State) (v : Word), lands s Reg.BILL_CMD ∧ keyOf v = 0x5B ∧ bitsOf v 1 0 = 2 ∧ s.power.st ≠ .holdup ∧ s.billUp = true ∧ s.bill.frozen = false ∧ s.get Fld.BILL_STAT_SNAP_NEXT < s.mram.snaps.length) ∧
    (∃ (s : State) (v : Word), lands s Reg.BILL_CMD ∧ keyOf v = 0x5B ∧ bitsOf v 1 0 = 2 ∧ s.power.st ≠ .holdup ∧ s.billUp = true ∧ s.bill.frozen = false ∧ s.get Fld.BILL_STAT_SNAP_NEXT < s.mram.snaps.length) ∧
    (∃ (s : State), s.mainOn = true ∧ s.power.st = .run ∧ s.billUp = true ∧ s.bill.frozen = false ∧ s.injArmed Pg.BILL 0 = false) ∧
    (∃ (s : State), s.mainOn = true ∧ s.power.st = .run ∧ s.billUp = true ∧ s.bill.frozen = false ∧ s.injArmed Pg.BILL 0 = false ∧ s.on (badBit (1 - s.commitTo)) = false) ∧
    (∃ (s : State), s.mainOn = true ∧ s.power.st = .shutdownTest) ∧
    (∃ (s : State) (v : Word), lands s Reg.BILL_RSEL ∧ bitsOf v 30 26 ≤ 23 ∧ bitsOf v 19 16 ≤ 9 ∧ bitsOf v 15 12 ≤ 8 ∧ bitAt v 31 = false) ∧
    (∃ (s : State) (v : Word), lands s Reg.BILL_RSEL ∧ (23 < bitsOf v 30 26 ∨ 9 < bitsOf v 19 16 ∨ 8 < bitsOf v 15 12)) ∧
    (∃ (s : State) (v : Word), lands s Reg.BILL_RSEL ∧ (23 < bitsOf v 30 26 ∨ 9 < bitsOf v 19 16 ∨ 8 < bitsOf v 15 12)) ∧
    (∃ (s : State) (v : Word), lands s Reg.BILL_RSEL ∧ (23 < bitsOf v 30 26 ∨ 9 < bitsOf v 19 16 ∨ 8 < bitsOf v 15 12)) :=
  ⟨⟨(set [(Hdr.EN (Pg.HEAT 0), 1), (Fld.HEAT_LANE_EN_EN 0, 1), (Fld.REC_ISCALE_MAPK (chRec 0), 1), (Fld.REC_ISCALE_MAPK (chRec 192), 1), (Fld.BILL_BP_LANE_SLOTS 63, 0xFFFFFF00)] up), 63, 0x80300000, by unfold lands; decide +kernel⟩,
    ⟨(dev (fun d => { d with bill := { d.bill with bound := setAt d.bill.bound 63 ⟨0xFFFFFF00, 0, 0x80000000⟩ } }) (set [(Hdr.EN (Pg.HEAT 0), 1), (Fld.HEAT_LANE_EN_EN 0, 1), (Fld.REC_ISCALE_MAPK (chRec 0), 1), (Fld.REC_ISCALE_MAPK (chRec 192), 1), (Fld.BILL_BP_LANE_SLOTS 63, 0xFFFFFF00)] up)), 63, 0x00300000, by unfold lands; decide +kernel⟩,
    ⟨(set [(Hdr.EN (Pg.HEAT 0), 1), (Fld.HEAT_LANE_EN_EN 0, 1), (Fld.REC_ISCALE_MAPK (chRec 0), 1), (Fld.REC_ISCALE_MAPK (chRec 192), 1), (Fld.BILL_BP_LANE_SLOTS 63, 0xFFFFFF00)] up), 63, 0x00300000, by unfold lands; decide +kernel⟩,
    ⟨up, 63, 0x00400000, by unfold lands; decide +kernel⟩,
    ⟨up, 0, 0x80000000, by unfold lands; decide +kernel⟩,
    ⟨(dev (fun d => { d with bill := { d.bill with posts := [post0] } }) bil), 63, post0, [], by decide +kernel⟩,
    ⟨up, 0, by decide +kernel⟩,
    ⟨(dev (fun d => { d with bill := { d.bill with frozen := true } }) bil), 0, by decide +kernel⟩,
    ⟨bil, 0, by decide +kernel⟩,
    ⟨(dev (fun d => { d with meter := { d.meter with holdup := [[]] } }) bil), 63, by decide +kernel⟩,
    ⟨(dev (fun d => { d with meter := { d.meter with holdup := [[], []] } }) bil), 0, by decide +kernel⟩,
    ⟨(dev (fun d => { d with bill := { d.bill with due := [(1, 7)] } }) bil), 1, 7, by decide +kernel⟩,
    ⟨(dev (fun d => { d with bill := { d.bill with due := [(calendarEnd - 1, 7)] } }) bil), calendarEnd - 1, 7, by decide +kernel⟩,
    ⟨bil, by decide +kernel⟩,
    ⟨(dev (fun d => { d with bill := { d.bill with due := [(1, 7)] } }) up), by decide +kernel⟩,
    ⟨bil, 0x144, by unfold lands; decide +kernel⟩,
    ⟨up, 0x144, by unfold lands; decide +kernel⟩,
    ⟨up, (up.rd Reg.BILL_DEMAND), by unfold lands; decide +kernel⟩,
    ⟨up, 5, by unfold lands; decide +kernel⟩,
    ⟨up, 0x154, by unfold lands; decide +kernel⟩,
    ⟨up, 0x200, by unfold lands; decide +kernel⟩,
    ⟨bil, 0x5B000001, by unfold lands; decide +kernel⟩,
    ⟨up, 0x5B000000, by unfold lands; decide +kernel⟩,
    ⟨up, 0x5B000003, by unfold lands; decide +kernel⟩,
    ⟨(pow (fun p => { p with st := .holdup }) up), 0x5B000001, by unfold lands; decide +kernel⟩,
    ⟨bil, 0x5B000002, by unfold lands; decide +kernel⟩,
    ⟨(set [(Fld.BILL_STAT_SNAP_NEXT, 23)] bil), 0x5B000002, by unfold lands; decide +kernel⟩,
    ⟨bil, by decide +kernel⟩,
    ⟨bil, by decide +kernel⟩,
    ⟨(pow (fun p => { p with st := .shutdownTest }) up), by decide +kernel⟩,
    ⟨up, 0x5FF98000, by unfold lands; decide +kernel⟩,
    ⟨up, 0x60000000, by unfold lands; decide +kernel⟩,
    ⟨up, 0x000A0000, by unfold lands; decide +kernel⟩,
    ⟨up, 0x00009000, by unfold lands; decide +kernel⟩⟩

/-- The hypotheses of PrepayCommandsComplete can be met. -/
theorem witness_PrepayCommandsComplete :
    (∃ (s : State) (v : Word) (k : List Byte), lands s Reg.PREPAY_TCMD ∧ keyOf v = 0x9D ∧ bitAt v 0 = true ∧ s.on Fld.PREPAY_TSTAT_BUSY = false ∧ s.power.st ≠ .holdup ∧ s.power.st ≠ .shutdownTest ∧ s.sec.tok = some k ∧ s.injArmed Pg.PREPAY 0 = false ∧ (let tok := s.wordBytes (Reg.PREPAY_TOKEN 0) 8; slice (hmac k (tok.take 24)) 0 8 = slice tok 24 8 ∧ s.tokContent tok = 0)) ∧
    (∃ (s : State) (v : Word) (k : List Byte), lands s Reg.PREPAY_TCMD ∧ keyOf v = 0x9D ∧ bitAt v 0 = true ∧ s.on Fld.PREPAY_TSTAT_BUSY = false ∧ s.power.st ≠ .holdup ∧ s.power.st ≠ .shutdownTest ∧ s.sec.tok = some k ∧ s.injArmed Pg.PREPAY 0 = false ∧ (let tok := s.wordBytes (Reg.PREPAY_TOKEN 0) 8; slice (hmac k (tok.take 24)) 0 8 = slice tok 24 8 ∧ s.tokContent tok ≠ 0)) ∧
    (∃ (s : State) (v : Word) (k : List Byte), lands s Reg.PREPAY_TCMD ∧ keyOf v = 0x9D ∧ bitAt v 0 = true ∧ s.on Fld.PREPAY_TSTAT_BUSY = false ∧ s.power.st ≠ .holdup ∧ s.power.st ≠ .shutdownTest ∧ s.sec.tok = some k ∧ s.injArmed Pg.PREPAY 0 = false ∧ (let tok := s.wordBytes (Reg.PREPAY_TOKEN 0) 8; slice (hmac k (tok.take 24)) 0 8 ≠ slice tok 24 8)) ∧
    (∃ (s : State) (v : Word), lands s Reg.PREPAY_TCMD ∧ keyOf v = 0x9D ∧ bitAt v 0 = true ∧ s.on Fld.PREPAY_TSTAT_BUSY = false ∧ (s.power.st = .holdup ∨ s.power.st = .shutdownTest)) ∧
    (∃ (s : State) (v : Word), lands s Reg.PREPAY_TCMD ∧ keyOf v = 0x9D ∧ bitAt v 0 = true ∧ s.on Fld.PREPAY_TSTAT_BUSY = false ∧ (s.power.st = .holdup ∨ s.power.st = .shutdownTest)) ∧
    (∃ (s : State) (v : Word), lands s Reg.PREPAY_TCMD ∧ keyOf v = 0x9D ∧ bitAt v 0 = true ∧ s.on Fld.PREPAY_TSTAT_BUSY = true) ∧
    (∃ (s : State) (tok : List Byte), s.mainOn = true ∧ s.prepay.todo = some tok ∧ s.billUp = true ∧ s.bill.frozen = false ∧ tokBp tok < s.bill.img.bp.length ∧ (tokKind tok = 1)) ∧
    (∃ (s : State) (tok : List Byte), s.mainOn = true ∧ s.prepay.todo = some tok ∧ s.billUp = true ∧ s.bill.frozen = false ∧ tokBp tok < s.bill.img.bp.length ∧ (tokKind tok = 2)) ∧
    (∃ (s : State) (tok : List Byte), s.mainOn = true ∧ s.prepay.todo = some tok ∧ s.billUp = true ∧ s.bill.frozen = false ∧ tokBp tok < s.bill.img.bp.length ∧ (tokKind tok = 3)) ∧
    (∃ (s : State) (v : Word), lands s Reg.PREPAY_TCMD ∧ keyOf v = 0x9D ∧ bitAt v 0 = true ∧ s.on Fld.PREPAY_TSTAT_BUSY = false ∧ s.power.st ≠ .holdup ∧ s.power.st ≠ .shutdownTest ∧ s.sec.tok = none) ∧
    (∃ (s : State), s.mainOn = true ∧ s.prepay.todo = none) ∧
    (∃ (s : State) (v : Word), lands s Reg.PREPAY_CMD ∧ keyOf v = 0x9E ∧ bitsOf v 1 0 = 1 ∧ bitsOf v 21 16 < s.bill.img.bp.length) ∧
    (∃ (s : State) (v : Word), lands s Reg.PREPAY_CMD ∧ keyOf v = 0x9E ∧ bitsOf v 1 0 = 2 ∧ s.ecOffer (bitsOf v 21 16) = true ∧ bitsOf v 21 16 < s.bill.img.bp.length) ∧
    (∃ (s : State) (v : Word), lands s Reg.PREPAY_CMD ∧ keyOf v = 0x9E ∧ (bitsOf v 1 0 = 0 ∨ (bitsOf v 1 0 = 2 ∧ s.ecOffer (bitsOf v 21 16) = false))) ∧
    (∃ (s : State) (v : Word), lands s Reg.PREPAY_CMD ∧ keyOf v = 0x9E ∧ (bitsOf v 1 0 = 0 ∨ (bitsOf v 1 0 = 2 ∧ s.ecOffer (bitsOf v 21 16) = false))) ∧
    (∃ (s : State) (v : Word), lands s Reg.PREPAY_CMD ∧ keyOf v = 0x9E ∧ bitsOf v 1 0 = 3 ∧ bitsOf v 21 16 < s.bill.img.bp.length) :=
  ⟨⟨(token 1 5 63 1 up), 0x9D000001, (List.replicate 32 0), by unfold lands; decide +kernel⟩,
    ⟨(token 1 5 64 1 up), 0x9D000001, (List.replicate 32 0), by unfold lands; decide +kernel⟩,
    ⟨(dev (fun d => { d with sec := { d.sec with tok := some (List.replicate 32 0) } }) up), 0x9D000001, (List.replicate 32 0), by unfold lands; decide +kernel⟩,
    ⟨(pow (fun p => { p with st := .holdup }) up), 0x9D000001, by unfold lands; decide +kernel⟩,
    ⟨(pow (fun p => { p with st := .shutdownTest }) up), 0x9D000001, by unfold lands; decide +kernel⟩,
    ⟨(set [(Fld.PREPAY_TSTAT_BUSY, 1)] up), 0x9D000001, by unfold lands; decide +kernel⟩,
    ⟨(dev (fun d => { d with prepay := { d.prepay with todo := some ([1, 0, 0, 0, 9, 0, 0, 0, 0, 0, 0, 0, 63, 1, 0, 0] ++ List.replicate 16 0) } }) bil), ([1, 0, 0, 0, 9, 0, 0, 0, 0, 0, 0, 0, 63, 1, 0, 0] ++ List.replicate 16 0), by decide +kernel⟩,
    ⟨(dev (fun d => { d with prepay := { d.prepay with todo := some ([1, 0, 0, 0, 9, 0, 0, 0, 0, 0, 0, 0, 63, 2, 0, 0] ++ List.replicate 16 0) } }) bil), ([1, 0, 0, 0, 9, 0, 0, 0, 0, 0, 0, 0, 63, 2, 0, 0] ++ List.replicate 16 0), by decide +kernel⟩,
    ⟨(dev (fun d => { d with prepay := { d.prepay with todo := some ([1, 0, 0, 0, 9, 0, 0, 0, 0, 0, 0, 0, 63, 3, 0, 0] ++ List.replicate 16 0) } }) bil), ([1, 0, 0, 0, 9, 0, 0, 0, 0, 0, 0, 0, 63, 3, 0, 0] ++ List.replicate 16 0), by decide +kernel⟩,
    ⟨up, 0x9D000001, by unfold lands; decide +kernel⟩,
    ⟨up, by decide +kernel⟩,
    ⟨up, 0x9E3F0001, by unfold lands; decide +kernel⟩,
    ⟨(dev (fun d => { d with bill := { d.bill with tariff := [[6, 0, 0, 0, 10, 0, 0, 0, 0, 0, 0, 0] ++ List.replicate 20 0] } }) up), 0x9E3F0002, by unfold lands; decide +kernel⟩,
    ⟨up, 0x9E000000, by unfold lands; decide +kernel⟩,
    ⟨up, 0x9E000002, by unfold lands; decide +kernel⟩,
    ⟨up, 0x9E3F0003, by unfold lands; decide +kernel⟩⟩

/-- The hypotheses of DisconnectCommandsComplete can be met. -/
theorem witness_DisconnectCommandsComplete :
    (∃ (s : State) (v : Word), lands s Reg.DISC_CMD ∧ keyOf v = 0xD5 ∧ bitsOf v 2 0 = 1 ∧ bitAt v 15 = false ∧ s.dpOn (bitsOf v 13 8) = true ∧ s.discMay = true) ∧
    (∃ (s : State) (v : Word), lands s Reg.DISC_CMD ∧ keyOf v = 0xD5 ∧ bitsOf v 2 0 = 1 ∧ s.discTargets v ≠ [] ∧ s.discMay = true) ∧
    (∃ (s : State) (v : Word), lands s Reg.DISC_CMD ∧ keyOf v = 0xD5 ∧ bitsOf v 2 0 = 1 ∧ s.discTargets v ≠ [] ∧ s.discMay = true) ∧
    (∃ (s : State) (v : Word), lands s Reg.DISC_CMD ∧ keyOf v = 0xD5 ∧ (s.discTargets v = [] ∨ s.discMay = false ∨ bitsOf v 2 0 = 0 ∨ 3 < bitsOf v 2 0)) ∧
    (∃ (s : State) (v : Word), lands s Reg.DISC_CMD ∧ keyOf v = 0xD5 ∧ (s.discTargets v = [] ∨ s.discMay = false ∨ bitsOf v 2 0 = 0 ∨ 3 < bitsOf v 2 0)) ∧
    (∃ (s : State) (v : Word), lands s Reg.DISC_CMD ∧ keyOf v = 0xD5 ∧ (s.discTargets v = [] ∨ s.discMay = false ∨ bitsOf v 2 0 = 0 ∨ 3 < bitsOf v 2 0)) ∧
    (∃ (s : State) (v : Word), lands s Reg.DISC_CMD ∧ keyOf v = 0xD5 ∧ (s.discTargets v = [] ∨ s.discMay = false ∨ bitsOf v 2 0 = 0 ∨ 3 < bitsOf v 2 0)) ∧
    (∃ (s : State) (v : Word), lands s Reg.DISC_CMD ∧ keyOf v = 0xD5 ∧ bitsOf v 2 0 = 2 ∧ bitAt v 15 = false ∧ s.dpOn (bitsOf v 13 8) = true ∧ s.discMay = true ∧ (s.on (Fld.DISC_DP_CFG_LOCAL (bitsOf v 13 8)) = false ∧ s.dpPrepaid (bitsOf v 13 8) = false)) ∧
    (∃ (s : State) (v : Word), lands s Reg.DISC_CMD ∧ keyOf v = 0xD5 ∧ bitsOf v 2 0 = 2 ∧ bitAt v 15 = false ∧ s.dpOn (bitsOf v 13 8) = true ∧ s.discMay = true ∧ ((s.on (Fld.DISC_DP_CFG_LOCAL (bitsOf v 13 8)) = true ∨ s.dpPrepaid (bitsOf v 13 8) = true) ∧ (s.dp (bitsOf v 13 8)).isOpen = true)) ∧
    (∃ (s : State) (v : Word), lands s Reg.DISC_CMD ∧ keyOf v = 0xD5 ∧ bitsOf v 2 0 = 3 ∧ bitAt v 15 = false ∧ s.dpOn (bitsOf v 13 8) = true ∧ s.discMay = true) ∧
    (∃ (s : State) (k : Nat), s.mainOn = true ∧ k < 8 ∧ (∃ x ∈ s.disc.trips, x.1 = k) ∧ s.dpOn (s.get (Fld.DISC_TRIP_DP k)) = true ∧ (s.dp (s.get (Fld.DISC_TRIP_DP k))).isOpen = false ∧ s.discMay = true ∧ s.dpRunning (s.get (Fld.DISC_TRIP_DP k)) = false ∧ s.get (Fld.DISC_TRIP_DP k) < s.disc.dps.length) ∧
    (∃ (s : State) (k : Nat), s.mainOn = true ∧ k < 8 ∧ (∃ x ∈ s.disc.trips, x.1 = k) ∧ s.dpOn (s.get (Fld.DISC_TRIP_DP k)) = true ∧ (s.dp (s.get (Fld.DISC_TRIP_DP k))).isOpen = false ∧ s.discMay = true ∧ s.dpRunning (s.get (Fld.DISC_TRIP_DP k)) = true) ∧
    (∃ (s : State) (k : Nat), s.mainOn = true ∧ k < 8 ∧ (∃ x ∈ s.disc.trips, x.1 = k) ∧ s.dpOn (s.get (Fld.DISC_TRIP_DP k)) = true ∧ (s.dp (s.get (Fld.DISC_TRIP_DP k))).isOpen = false ∧ s.discMay = true ∧ s.dpRunning (s.get (Fld.DISC_TRIP_DP k)) = true) ∧
    (∃ (s : State) (k : Nat), s.mainOn = true ∧ (∀ x ∈ s.disc.trips, x.1 ≠ k)) ∧
    (∃ (s : State) (r : Rank) (rest : List Rank) (o : DOp), s.mainOn = true ∧ s.discMay = true ∧ s.disc.ranks = r :: rest ∧ r.ops = [o] ∧ o.dp < s.disc.dps.length ∧ o.dp ∉ s.disc.tripWait) ∧
    (∃ (s : State), s.mainOn = true ∧ (s.discMay = false ∨ s.disc.ranks = [])) ∧
    (∃ (s : State), s.mainOn = true ∧ (s.discMay = false ∨ s.disc.ranks = [])) ∧
    (∃ (s : State), s.mainOn = true ∧ s.chainOn = true) ∧
    (∃ (s : State), s.mainOn = true ∧ s.chainOn = false) ∧
    (∃ (s : State) (n : Nat) (fb : Bool), s.mainOn = true ∧ n < 64 ∧ n < s.disc.dps.length ∧ s.fbOn n = true ∧ (s.dp n).recheck = none ∧ s.injArmed Pg.DISC n = false ∧ n ∉ s.disc.tripWait ∧ (s.fbOpen n fb = (s.dp n).isOpen)) ∧
    (∃ (s : State) (n : Nat) (fb : Bool), s.mainOn = true ∧ n < 64 ∧ n < s.disc.dps.length ∧ s.fbOn n = true ∧ (s.dp n).recheck = none ∧ s.injArmed Pg.DISC n = false ∧ n ∉ s.disc.tripWait ∧ (s.fbOpen n fb ≠ (s.dp n).isOpen)) ∧
    (∃ (s : State) (n : Nat) (fb : Bool), s.mainOn = true ∧ n < 64 ∧ s.fbOn n = true ∧ (s.dp n).recheck = some 1 ∧ s.injArmed Pg.DISC n = false ∧ n ∉ s.disc.tripWait ∧ (s.fbOpen n fb ≠ (s.dp n).isOpen)) ∧
    (∃ (s : State) (n : Nat), s.mainOn = true ∧ n < 64 ∧ s.fbOn n = true ∧ (s.dp n).recheck = some 1 ∧ s.injArmed Pg.DISC n = false ∧ n ∉ s.disc.tripWait) ∧
    (∃ (s : State) (n : Nat) (fb : Nat), s.mainOn = true ∧ n < 16 ∧ n < s.disc.dps.length ∧ s.fbOn n = true ∧ (s.dp n).verified = true ∧ (s.dp n).pending = false ∧ (s.dp n).recheck = none ∧ s.fbOpen n (natBit fb n) ≠ (s.dp n).isOpen) ∧
    (∃ (s : State) (n : Nat) (fb : Nat), s.mainOn = true ∧ n < 16 ∧ n < s.disc.dps.length ∧ s.fbOn n = true ∧ (s.dp n).verified = false ∧ (s.dp n).pending = false ∧ (s.dp n).recheck = none ∧ s.fbOpen n (natBit fb n) = (s.dp n).isOpen ∧ s.fbOpen n (natBit fb n) ≠ s.fbWas n) ∧
    (∃ (s : State) (n : Nat) (fb : Nat), s.mainOn = true ∧ n < 16 ∧ n < s.disc.dps.length ∧ s.fbOn n = true ∧ (s.dp n).verified = false ∧ (s.dp n).pending = false ∧ (s.dp n).recheck = none ∧ s.fbOpen n (natBit fb n) = (s.dp n).isOpen ∧ s.fbOpen n (natBit fb n) ≠ s.fbWas n) ∧
    (∃ (s : State) (n : Nat) (v : Word), n < 64 ∧ lands s (Reg.DISC_DP_CFG n) ∧ n < s.disc.dps.length ∧ (let w := BitVec.ofNat 32 (v.toNat &&& 0xFFF0FF00); let bad := s.dpPending n = true ∨ (16 ≤ n ∧ s.on Fld.DISC_CHAIN_CEN = false) ∨ (bitAt w 29 = true ∧ bitAt w 28 = false) ∨ (191 < bitsOf w 15 8 ∧ bitsOf w 15 8 ≠ 0xFF); bad)) ∧
    (∃ (s : State) (n : Nat) (v : Word), n < 64 ∧ lands s (Reg.DISC_DP_CFG n) ∧ n < s.disc.dps.length ∧ (let w := BitVec.ofNat 32 (v.toNat &&& 0xFFF0FF00); let bad := s.dpPending n = true ∨ (16 ≤ n ∧ s.on Fld.DISC_CHAIN_CEN = false) ∨ (bitAt w 29 = true ∧ bitAt w 28 = false) ∨ (191 < bitsOf w 15 8 ∧ bitsOf w 15 8 ≠ 0xFF); bad)) ∧
    (∃ (s : State) (n : Nat) (v : Word), n < 64 ∧ lands s (Reg.DISC_DP_CFG n) ∧ n < s.disc.dps.length ∧ (let w := BitVec.ofNat 32 (v.toNat &&& 0xFFF0FF00); let bad := s.dpPending n = true ∨ (16 ≤ n ∧ s.on Fld.DISC_CHAIN_CEN = false) ∨ (bitAt w 29 = true ∧ bitAt w 28 = false) ∨ (191 < bitsOf w 15 8 ∧ bitsOf w 15 8 ≠ 0xFF); bad)) ∧
    (∃ (s : State) (n : Nat) (v : Word), n < 64 ∧ lands s (Reg.DISC_DP_CFG n) ∧ n < s.disc.dps.length ∧ (let w := BitVec.ofNat 32 (v.toNat &&& 0xFFF0FF00); let bad := s.dpPending n = true ∨ (16 ≤ n ∧ s.on Fld.DISC_CHAIN_CEN = false) ∨ (bitAt w 29 = true ∧ bitAt w 28 = false) ∨ (191 < bitsOf w 15 8 ∧ bitsOf w 15 8 ≠ 0xFF); bad)) ∧
    (∃ (s : State) (n : Nat) (v : Word), n < 64 ∧ lands s (Reg.DISC_DP_CFG n) ∧ n < s.disc.dps.length ∧ (let w := BitVec.ofNat 32 (v.toNat &&& 0xFFF0FF00); let bad := s.dpPending n = true ∨ (16 ≤ n ∧ s.on Fld.DISC_CHAIN_CEN = false) ∨ (bitAt w 29 = true ∧ bitAt w 28 = false) ∨ (191 < bitsOf w 15 8 ∧ bitsOf w 15 8 ≠ 0xFF); ¬ bad)) ∧
    (∃ (s : State) (n : Nat) (v : Word), n < 64 ∧ lands s (Reg.DISC_DP_CFG n) ∧ n < s.disc.dps.length ∧ (let w := BitVec.ofNat 32 (v.toNat &&& 0xFFF0FF00); let bad := s.dpPending n = true ∨ (16 ≤ n ∧ s.on Fld.DISC_CHAIN_CEN = false) ∨ (bitAt w 29 = true ∧ bitAt w 28 = false) ∨ (191 < bitsOf w 15 8 ∧ bitsOf w 15 8 ≠ 0xFF); ¬ bad)) :=
  ⟨⟨(set [(Fld.DISC_DP_CFG_EN 63, 1)] up), 0xD5003F01, by unfold lands; decide +kernel⟩,
    ⟨(set [(Fld.DISC_DP_CFG_EN 63, 1)] up), 0xD5003F01, by unfold lands; decide +kernel⟩,
    ⟨(set [(Fld.DISC_DP_CFG_EN 63, 1), (Fld.DISC_DP_CFG_BPEN 63, 1), (Fld.DISC_DP_CFG_BP 63, 5)] up), 0xD5008501, by unfold lands; decide +kernel⟩,
    ⟨up, 0xD5000001, by unfold lands; decide +kernel⟩,
    ⟨(set [(Fld.DISC_DP_CFG_EN 0, 1)] (pow (fun p => { p with st := .holdup }) up)), 0xD5000001, by unfold lands; decide +kernel⟩,
    ⟨(set [(Fld.DISC_DP_CFG_EN 0, 1)] up), 0xD5000000, by unfold lands; decide +kernel⟩,
    ⟨(set [(Fld.DISC_DP_CFG_EN 0, 1)] up), 0xD5000004, by unfold lands; decide +kernel⟩,
    ⟨(set [(Fld.DISC_DP_CFG_EN 63, 1)] up), 0xD5003F02, by unfold lands; decide +kernel⟩,
    ⟨(dev (fun d => { d with disc := { d.disc with dps := setAt d.disc.dps 63 { isOpen := true } } }) (set [(Fld.DISC_DP_CFG_EN 63, 1), (Fld.DISC_DP_CFG_LOCAL 63, 1)] up)), 0xD5003F02, by unfold lands; decide +kernel⟩,
    ⟨(set [(Fld.DISC_DP_CFG_EN 63, 1)] up), 0xD5003F03, by unfold lands; decide +kernel⟩,
    ⟨(dev (fun d => { d with disc := { d.disc with trips := [(7, true)] } }) (set [(Fld.DISC_DP_CFG_EN 63, 1), (Fld.DISC_TRIP_DP 7, 63)] up)), 7, by decide +kernel⟩,
    ⟨(dev (fun d => { d with disc := { d.disc with trips := [(7, true)], ranks := [rank0] } }) (set [(Fld.DISC_DP_CFG_EN 63, 1), (Fld.DISC_TRIP_DP 7, 63)] up)), 7, by decide +kernel⟩,
    ⟨(dev (fun d => { d with disc := { d.disc with dps := setAt d.disc.dps 0 { pending := true } } }) (dev (fun d => { d with disc := { d.disc with trips := [(0, false)] } }) (set [(Fld.DISC_DP_CFG_EN 0, 1)] up))), 0, by decide +kernel⟩,
    ⟨up, 0, by decide +kernel⟩,
    ⟨(dev (fun d => { d with disc := { d.disc with ranks := [rank0] } }) up), rank0, [], ⟨63, true, 2⟩, by decide +kernel⟩,
    ⟨up, by decide +kernel⟩,
    ⟨(dev (fun d => { d with disc := { d.disc with ranks := [rank0] } }) (pow (fun p => { p with st := .holdup }) up)), by decide +kernel⟩,
    ⟨(set [(Fld.DISC_CHAIN_CEN, 1)] up), by decide +kernel⟩,
    ⟨up, by decide +kernel⟩,
    ⟨(set [(Fld.DISC_DP_CFG_EN 63, 1), (Fld.DISC_DP_CFG_FBEN 63, 1)] up), 63, false, by decide +kernel⟩,
    ⟨(set [(Fld.DISC_DP_CFG_EN 63, 1), (Fld.DISC_DP_CFG_FBEN 63, 1)] up), 63, true, by decide +kernel⟩,
    ⟨(dev (fun d => { d with disc := { d.disc with dps := setAt d.disc.dps 63 { recheck := some 1 } } }) (set [(Fld.DISC_DP_CFG_EN 63, 1), (Fld.DISC_DP_CFG_FBEN 63, 1)] up)), 63, true, by decide +kernel⟩,
    ⟨(dev (fun d => { d with disc := { d.disc with dps := setAt d.disc.dps 63 { recheck := some 1 } } }) (set [(Fld.DISC_DP_CFG_EN 63, 1), (Fld.DISC_DP_CFG_FBEN 63, 1)] up)), 63, by decide +kernel⟩,
    ⟨(dev (fun d => { d with disc := { d.disc with dps := setAt d.disc.dps 15 { verified := true } } }) (set [(Fld.DISC_DP_CFG_EN 15, 1), (Fld.DISC_DP_CFG_FBEN 15, 1)] up)), 15, 0x8000, by decide +kernel⟩,
    ⟨(set [(Fld.DISC_DP_CFG_EN 15, 1), (Fld.DISC_DP_CFG_FBEN 15, 1), (Fld.DISC_FB_LO_FB, 0x8000)] up), 15, 0, by decide +kernel⟩,
    ⟨(dev (fun d => { d with disc := { d.disc with dps := setAt d.disc.dps 0 { isOpen := true } } }) (set [(Fld.DISC_DP_CFG_EN 0, 1), (Fld.DISC_DP_CFG_FBEN 0, 1)] up)), 0, 1, by decide +kernel⟩,
    ⟨(dev (fun d => { d with disc := { d.disc with dps := setAt d.disc.dps 63 { pending := true } } }) up), 63, 0x80000000, by unfold lands; decide +kernel⟩,
    ⟨up, 63, 0x80000000, by unfold lands; decide +kernel⟩,
    ⟨up, 0, 0x20000000, by unfold lands; decide +kernel⟩,
    ⟨up, 0, 0x8000C000, by unfold lands; decide +kernel⟩,
    ⟨up, 15, 0x8000FF00, by unfold lands; decide +kernel⟩,
    ⟨(set [(Fld.DISC_CHAIN_CEN, 1)] up), 16, 0x8000BF00, by unfold lands; decide +kernel⟩⟩

/-- The hypotheses of DisplayCommandsComplete can be met. -/
theorem witness_DisplayCommandsComplete :
    (∃ (s : State), s.mainOn = true ∧ s.dispOn = true ∧ s.disp.table ≠ []) ∧
    (∃ (s : State), s.mainOn = true ∧ (s.dispOn = false ∨ s.disp.table = [])) ∧
    (∃ (s : State), s.mainOn = true ∧ (s.dispOn = false ∨ s.disp.table = [])) ∧
    (∃ (s : State), s.mainOn = true ∧ s.dispOn = true) ∧
    (∃ (s : State), s.mainOn = true ∧ s.discMay = true) ∧
    (∃ (s : State), s.mainOn = true ∧ s.discMay = true) ∧
    (∃ (s : State) (e : Entry), s.mainOn = true ∧ s.discMay = true ∧ s.pageEntry = some e) ∧
    (∃ (s : State) (e : Entry), s.mainOn = true ∧ s.discMay = true ∧ s.pageEntry = some e) ∧
    (∃ (s : State), s.mainOn = true ∧ s.discMay = true ∧ s.pageEntry = none) ∧
    (∃ (s : State), s.mainOn = true ∧ s.discMay = true ∧ s.disp.sel = none) ∧
    (∃ (s : State) (b : Nat), s.mainOn = true ∧ s.discMay = true ∧ s.disp.sel = some b) ∧
    (∃ (s : State), s.mainOn = true ∧ s.discMay = false) ∧
    (∃ (s : State), s.mainOn = true ∧ s.discMay = false) ∧
    (∃ (s : State), s.mainOn = true ∧ s.disp.holding = false ∧ s.dispOn = true ∧ s.scrolled ≠ []) ∧
    (∃ (s : State), s.mainOn = true ∧ s.disp.holding = true) ∧
    (∃ (s : State), s.mainOn = true) ∧
    (∃ (s : State) (v : Word), lands s Reg.DISP_CMD ∧ keyOf v = 0x4D ∧ bitsOf v 1 0 = 1 ∧ s.scrolled ≠ []) ∧
    (∃ (s : State) (v : Word), lands s Reg.DISP_CMD ∧ keyOf v = 0x4D ∧ bitsOf v 1 0 = 2) ∧
    (∃ (s : State) (v : Word), lands s Reg.DISP_CMD ∧ keyOf v = 0x4D ∧ bitsOf v 1 0 = 3) ∧
    (∃ (s : State) (v : Word), lands s Reg.DISP_CMD ∧ keyOf v ≠ 0x4D) :=
  ⟨⟨(dev (fun d => { d with disp := { d.disp with table := [[5, 0, 0, 63] ++ List.replicate 16 0, [5, 1, 0, 0xFF] ++ List.replicate 16 0] } }) up), by decide +kernel⟩,
    ⟨up, by decide +kernel⟩,
    ⟨(pow (fun p => { p with st := .quiet }) up), by decide +kernel⟩,
    ⟨up, by decide +kernel⟩,
    ⟨up, by decide +kernel⟩,
    ⟨(dev (fun d => { d with disp := { d.disp with table := [[5, 0, 0, 63] ++ List.replicate 16 0, [5, 1, 0, 0xFF] ++ List.replicate 16 0] } }) up), by decide +kernel⟩,
    ⟨(dev (fun d => { d with disp := { d.disp with table := [[5, 0, 0, 63] ++ List.replicate 16 0, [5, 1, 0, 0xFF] ++ List.replicate 16 0] } }) up), ([5, 0, 0, 63] ++ List.replicate 16 0), by decide +kernel⟩,
    ⟨(dev (fun d => { d with disp := { d.disp with table := [[5, 0, 0, 63] ++ List.replicate 16 0, [5, 1, 0, 0xFF] ++ List.replicate 16 0], page := 1 } }) up), ([5, 1, 0, 0xFF] ++ List.replicate 16 0), by decide +kernel⟩,
    ⟨up, by decide +kernel⟩,
    ⟨up, by decide +kernel⟩,
    ⟨(dev (fun d => { d with disp := { d.disp with sel := some 63 } }) up), 63, by decide +kernel⟩,
    ⟨(pow (fun p => { p with st := .holdup }) up), by decide +kernel⟩,
    ⟨(pow (fun p => { p with st := .shutdownTest }) up), by decide +kernel⟩,
    ⟨(dev (fun d => { d with disp := { d.disp with table := [[5, 0, 0, 63] ++ List.replicate 16 0, [5, 1, 0, 0xFF] ++ List.replicate 16 0], page := 1 } }) up), by decide +kernel⟩,
    ⟨(dev (fun d => { d with disp := { d.disp with holding := true } }) up), by decide +kernel⟩,
    ⟨up, by decide +kernel⟩,
    ⟨(dev (fun d => { d with disp := { d.disp with table := [[5, 0, 0, 63] ++ List.replicate 16 0, [5, 1, 0, 0xFF] ++ List.replicate 16 0], page := 1 } }) up), 0x4D000001, by unfold lands; decide +kernel⟩,
    ⟨up, 0x4D3F0002, by unfold lands; decide +kernel⟩,
    ⟨up, 0x4D000003, by unfold lands; decide +kernel⟩,
    ⟨up, 0x4C000001, by unfold lands; decide +kernel⟩⟩

/-- The hypotheses of TamperCommandsComplete can be met. -/
theorem witness_TamperCommandsComplete :
    (∃ (s : State) (n : Nat) (high : Bool), s.power.bkpAlive = true ∧ n < 4 ∧ s.tampActive n = true ∧ s.caseBad n high = true ∧ (s.get (Fld.TAMP_STAMP_T n) = 0 ∧ natBit (s.get Fld.TAMP_ERASE_SRC) n = true)) ∧
    (∃ (s : State) (n : Nat) (high : Bool), s.power.bkpAlive = true ∧ n < 4 ∧ s.tampActive n = true ∧ s.caseBad n high = true ∧ (s.get (Fld.TAMP_STAMP_T n) ≠ 0 ∧ natBit (s.get Fld.TAMP_ERASE_SRC) n = false)) ∧
    (∃ (s : State) (n : Nat) (high : Bool), s.power.bkpAlive = true ∧ n < 4 ∧ s.tampActive n = true ∧ s.caseBad n high = false) ∧
    (∃ (s : State) (n : Nat) (high : Bool), s.power.bkpAlive = true ∧ n < 4 ∧ s.tampActive n = true ∧ s.caseBad n high = false) ∧
    (∃ (s : State) (n : Nat), s.power.bkpAlive = true ∧ n < 4 ∧ s.tampActive n = false) ∧
    (∃ (s : State) (n : Nat), s.power.bkpAlive = true ∧ n < 4 ∧ s.tampActive n = false) ∧
    (∃ (s : State) (n : Nat), (s.power.bkpAlive = false ∨ 4 ≤ n)) ∧
    (∃ (s : State) (n : Nat), (s.power.bkpAlive = false ∨ 4 ≤ n)) ∧
    (∃ (s : State) (n : Nat) (bits : Nat), s.power.bkpAlive = true ∧ n < 4 ∧ s.tampActive (4 + n) = true ∧ n < s.tamp.lfsr.length ∧ (laceMiss (lfsrBits 16 (nth s.tamp.lfsr n 1)).1 bits ≤ 1)) ∧
    (∃ (s : State) (n : Nat) (bits : Nat), s.power.bkpAlive = true ∧ n < 4 ∧ s.tampActive (4 + n) = true ∧ n < s.tamp.lfsr.length ∧ (2 ≤ laceMiss (lfsrBits 16 (nth s.tamp.lfsr n 1)).1 bits ∧ n < s.tamp.retry.length)) ∧
    (∃ (s : State) (n : Nat) (bits : Nat), s.power.bkpAlive = true ∧ n < 4 ∧ s.tampActive (4 + n) = true ∧ nth s.tamp.retry n false = true ∧ s.injArmed Pg.TAMP (4 + n) = false ∧ (laceMiss (lfsrBits 16 (nth s.tamp.lfsr n 1)).1 bits ≤ 1)) ∧
    (∃ (s : State) (n : Nat) (bits : Nat), s.power.bkpAlive = true ∧ n < 4 ∧ s.tampActive (4 + n) = true ∧ nth s.tamp.retry n false = true ∧ s.injArmed Pg.TAMP (4 + n) = false ∧ (2 ≤ laceMiss (lfsrBits 16 (nth s.tamp.lfsr n 1)).1 bits)) ∧
    (∃ (s : State) (n : Nat) (bits : Nat), s.power.bkpAlive = true ∧ n < 4 ∧ s.tampActive (4 + n) = true ∧ nth s.tamp.retry n false = true ∧ s.injArmed Pg.TAMP (4 + n) = false ∧ (bits % 65536 = 0 ∧ 2 ≤ laceMiss (lfsrBits 16 (nth s.tamp.lfsr n 1)).1 bits)) ∧
    (∃ (s : State) (n : Nat) (bits : Nat), s.power.bkpAlive = true ∧ n < 4 ∧ s.tampActive (4 + n) = true ∧ nth s.tamp.retry n false = true ∧ s.injArmed Pg.TAMP (4 + n) = false ∧ (bits % 65536 = 65535 ∧ 2 ≤ laceMiss (lfsrBits 16 (nth s.tamp.lfsr n 1)).1 bits)) ∧
    (∃ (s : State) (n : Nat) (bits : Nat), s.power.bkpAlive = true ∧ n < 4 ∧ s.tampActive (4 + n) = true ∧ nth s.tamp.retry n false = true ∧ s.injArmed Pg.TAMP (4 + n) = false ∧ (laceMiss (lfsrBits 16 (nth s.tamp.lfsr n 1)).1 bits = 1)) ∧
    (∃ (s : State) (m : Nat) (n : Nat) (present : Nat) (v : Word), lands s Reg.TAMP_STICKY ∧ s.session m = true ∧ privMaster m = true ∧ n < 11 ∧ bitAt v n = true ∧ natBit (s.get Fld.TAMP_STICKY_SRC) n = true ∧ (natBit present n = false)) ∧
    (∃ (s : State) (m : Nat) (n : Nat) (present : Nat) (v : Word), lands s Reg.TAMP_STICKY ∧ s.session m = true ∧ privMaster m = true ∧ n < 11 ∧ bitAt v n = true ∧ natBit (s.get Fld.TAMP_STICKY_SRC) n = true ∧ (natBit present n = true)) ∧
    (∃ (s : State) (m : Nat) (n : Nat) (present : Nat) (v : Word), lands s Reg.TAMP_STICKY ∧ s.session m = true ∧ privMaster m = true ∧ n < 11 ∧ bitAt v n = true ∧ natBit (s.get Fld.TAMP_STICKY_SRC) n = true ∧ (natBit present n = false)) ∧
    (∃ (s : State) (m : Nat) (n : Nat) (present : Nat) (v : Word), lands s Reg.TAMP_STICKY ∧ s.session m = true ∧ privMaster m = true ∧ n < 11 ∧ bitAt v n = true ∧ natBit (s.get Fld.TAMP_STICKY_SRC) n = true ∧ (natBit present n = true)) ∧
    (∃ (s : State) (m : Nat) (n : Nat) (present : Nat) (v : Word), lands s Reg.TAMP_STICKY ∧ s.session m = true ∧ privMaster m = true ∧ n < 11 ∧ bitAt v n = true ∧ natBit (s.get Fld.TAMP_STICKY_SRC) n = true ∧ (natBit present n = false)) ∧
    (∃ (s : State) (m : Nat) (n : Nat) (present : Nat) (v : Word), lands s Reg.TAMP_STICKY ∧ s.session m = true ∧ privMaster m = true ∧ n < 11 ∧ bitAt v n = true ∧ natBit (s.get Fld.TAMP_STICKY_SRC) n = true ∧ (natBit present n = true)) ∧
    (∃ (s : State) (m : Nat) (n : Nat) (v : Word), lands s Reg.TAMP_STICKY ∧ s.session m = true ∧ privMaster m = true ∧ n < 11 ∧ bitAt v n = true ∧ natBit (s.get Fld.TAMP_STICKY_SRC) n = true ∧ (8 ≤ n ∧ natBit (s.get Fld.TAMP_LIVE_SRC) n = true)) ∧
    (∃ (s : State) (m : Nat), lands s Reg.TAMP_STICKY ∧ (s.session m = false ∨ privMaster m = false)) ∧
    (∃ (s : State) (m : Nat), lands s Reg.TAMP_STICKY ∧ (s.session m = false ∨ privMaster m = false)) :=
  ⟨⟨(set [(Fld.TAMP_EN_SRC, 0x7FF), (Fld.TAMP_ERASE_SRC, 8), (Fld.TAMP_CFG_CASE_POL, 8)] up), 3, true, by decide +kernel⟩,
    ⟨(set [(Fld.TAMP_EN_SRC, 0x7FF), (Fld.TAMP_ERASE_SRC, 0), (Fld.TAMP_STAMP_T 0, 5)] up), 0, false, by decide +kernel⟩,
    ⟨(set [(Fld.TAMP_EN_SRC, 0x7FF)] up), 3, true, by decide +kernel⟩,
    ⟨(set [(Fld.TAMP_EN_SRC, 0x7FF), (Fld.TAMP_CFG_CASE_POL, 1)] up), 0, false, by decide +kernel⟩,
    ⟨(set [(Fld.TAMP_EN_SRC, 0)] up), 0, by decide +kernel⟩,
    ⟨(set [(Fld.TAMP_EN_SRC, 0)] up), 3, by decide +kernel⟩,
    ⟨(pow (fun p => { p with bkpAlive := false }) up), 0, by decide +kernel⟩,
    ⟨up, 4, by decide +kernel⟩,
    ⟨(set [(Fld.TAMP_EN_SRC, 0x7FF)] up), 3, (lfsrBits 16 1).1 ^^^ 1, by decide +kernel⟩,
    ⟨(set [(Fld.TAMP_EN_SRC, 0x7FF)] up), 3, (lfsrBits 16 1).1 ^^^ 3, by decide +kernel⟩,
    ⟨(dev (fun d => { d with tamp := { d.tamp with retry := [false, false, false, true] } }) (set [(Fld.TAMP_EN_SRC, 0x7FF)] up)), 3, (lfsrBits 16 1).1 ^^^ 1, by decide +kernel⟩,
    ⟨(dev (fun d => { d with tamp := { d.tamp with retry := [false, false, false, true] } }) (set [(Fld.TAMP_EN_SRC, 0x7FF)] up)), 3, (lfsrBits 16 1).1 ^^^ 3, by decide +kernel⟩,
    ⟨(dev (fun d => { d with tamp := { d.tamp with retry := [true], lfsr := [0x5A5A] } }) (set [(Fld.TAMP_EN_SRC, 0x7FF)] up)), 0, 0, by decide +kernel⟩,
    ⟨(dev (fun d => { d with tamp := { d.tamp with retry := [true], lfsr := [0x5A5A] } }) (set [(Fld.TAMP_EN_SRC, 0x7FF)] up)), 0, 65535, by decide +kernel⟩,
    ⟨(dev (fun d => { d with tamp := { d.tamp with retry := [true], lfsr := [0x5A5A] } }) (set [(Fld.TAMP_EN_SRC, 0x7FF)] up)), 0, (lfsrBits 16 0x5A5A).1 ^^^ 0x8000, by decide +kernel⟩,
    ⟨(set [(Fld.SEC_STAT_SESSION, 1), (Fld.SEC_STAT_MASTER, 0), (Fld.TAMP_STICKY_SRC, 128)] up), 0, 7, 0, 128, by unfold lands; decide +kernel⟩,
    ⟨(set [(Fld.SEC_STAT_SESSION, 1), (Fld.SEC_STAT_MASTER, 0), (Fld.TAMP_STICKY_SRC, 128)] up), 0, 7, 128, 128, by unfold lands; decide +kernel⟩,
    ⟨(set [(Fld.SEC_STAT_SESSION, 1), (Fld.SEC_STAT_MASTER, 16), (Fld.TAMP_STICKY_SRC, 128)] up), 16, 7, 0, 128, by unfold lands; decide +kernel⟩,
    ⟨(set [(Fld.SEC_STAT_SESSION, 1), (Fld.SEC_STAT_MASTER, 16), (Fld.TAMP_STICKY_SRC, 128)] up), 16, 7, 128, 128, by unfold lands; decide +kernel⟩,
    ⟨(set [(Fld.SEC_STAT_SESSION, 1), (Fld.SEC_STAT_MASTER, 17), (Fld.TAMP_STICKY_SRC, 128)] up), 17, 7, 0, 128, by unfold lands; decide +kernel⟩,
    ⟨(set [(Fld.SEC_STAT_SESSION, 1), (Fld.SEC_STAT_MASTER, 17), (Fld.TAMP_STICKY_SRC, 128)] up), 17, 7, 128, 128, by unfold lands; decide +kernel⟩,
    ⟨(set [(Fld.SEC_STAT_SESSION, 1), (Fld.SEC_STAT_MASTER, 17), (Fld.TAMP_STICKY_SRC, 1024), (Fld.TAMP_LIVE_SRC, 1024)] up), 17, 10, 1024, by unfold lands; decide +kernel⟩,
    ⟨up, 16, by unfold lands; decide +kernel⟩,
    ⟨(set [(Fld.SEC_STAT_SESSION, 1), (Fld.SEC_STAT_MASTER, 15)] up), 15, by unfold lands; decide +kernel⟩⟩

/-- The hypotheses of SecurityCommandsComplete can be met. -/
theorem witness_SecurityCommandsComplete :
    (∃ (s : State), s.mainOn = true) ∧
    (∃ (s : State) (m : Nat) (v : Word) (k : List Byte) (n : List Byte), lands s Reg.SEC_CMD ∧ keyOf v = 0xA9 ∧ bitsOf v 3 0 = 1 ∧ s.on Fld.SEC_RESULT_BUSY = false ∧ s.lockedOut = false ∧ s.sec.okey = some k ∧ s.sec.nonce = some n ∧ m < 32 ∧ (s.wordBytes (Reg.SEC_AUTH 0) 8 = hmac k (n ++ s.otp.devid ++ [BitVec.ofNat 8 m]))) ∧
    (∃ (s : State) (m : Nat) (v : Word) (k : List Byte) (n : List Byte), lands s Reg.SEC_CMD ∧ keyOf v = 0xA9 ∧ bitsOf v 3 0 = 1 ∧ s.on Fld.SEC_RESULT_BUSY = false ∧ s.lockedOut = false ∧ s.sec.okey = some k ∧ s.sec.nonce = some n ∧ m < 32 ∧ (s.wordBytes (Reg.SEC_AUTH 0) 8 ≠ hmac k (n ++ s.otp.devid ++ [BitVec.ofNat 8 m]))) ∧
    (∃ (s : State) (m : Nat) (v : Word) (k : List Byte) (n : List Byte), lands s Reg.SEC_CMD ∧ keyOf v = 0xA9 ∧ bitsOf v 3 0 = 1 ∧ s.on Fld.SEC_RESULT_BUSY = false ∧ s.lockedOut = false ∧ s.sec.okey = some k ∧ s.sec.nonce = some n ∧ m < 32 ∧ (s.wordBytes (Reg.SEC_AUTH 0) 8 ≠ hmac k (n ++ s.otp.devid ++ [BitVec.ofNat 8 m]) ∧ s.mt < s.lockFrom (satN 255 (s.sec.fails + 1)))) ∧
    (∃ (s : State) (v : Word), lands s Reg.SEC_CMD ∧ keyOf v = 0xA9 ∧ bitsOf v 3 0 = 1 ∧ s.on Fld.SEC_RESULT_BUSY = false ∧ s.lockedOut = true) ∧
    (∃ (s : State) (v : Word), lands s Reg.SEC_CMD ∧ keyOf v = 0xA9 ∧ bitsOf v 3 0 = 1 ∧ s.on Fld.SEC_RESULT_BUSY = true) ∧
    (∃ (s : State) (m : Nat) (v : Word), lands s Reg.SEC_CMD ∧ keyOf v = 0xA9 ∧ bitsOf v 3 0 = 2 ∧ s.on Fld.SEC_RESULT_BUSY = false ∧ s.session m = true) ∧
    (∃ (s : State) (m : Nat) (v : Word), lands s Reg.SEC_CMD ∧ keyOf v = 0xA9 ∧ bitsOf v 3 0 = 3 ∧ s.on Fld.SEC_RESULT_BUSY = false ∧ ((m = 16 ∨ m = 17) ∧ s.sec.okey = none ∧ s.otp.oroot = none)) ∧
    (∃ (s : State) (m : Nat) (v : Word), lands s Reg.SEC_CMD ∧ keyOf v = 0xA9 ∧ bitsOf v 3 0 = 3 ∧ s.on Fld.SEC_RESULT_BUSY = false ∧ ((m = 16 ∨ m = 17) ∧ s.sec.okey = none ∧ s.otp.oroot = none)) ∧
    (∃ (s : State) (m : Nat) (v : Word), lands s Reg.SEC_CMD ∧ keyOf v = 0xA9 ∧ bitsOf v 3 0 = 3 ∧ s.on Fld.SEC_RESULT_BUSY = false ∧ (m ≠ 16 ∧ m ≠ 17)) ∧
    (∃ (s : State) (m : Nat) (v : Word), lands s Reg.SEC_CMD ∧ keyOf v = 0xA9 ∧ bitsOf v 3 0 = 3 ∧ s.on Fld.SEC_RESULT_BUSY = false ∧ (s.sec.okey.isSome = true ∧ s.session m = true)) ∧
    (∃ (s : State) (m : Nat) (v : Word), lands s Reg.SEC_CMD ∧ keyOf v = 0xA9 ∧ bitsOf v 3 0 = 3 ∧ s.on Fld.SEC_RESULT_BUSY = false ∧ (s.sec.okey.isSome = true ∧ s.session m = false)) ∧
    (∃ (s : State) (v : Word), lands s Reg.SEC_CMD ∧ keyOf v = 0xA9 ∧ bitsOf v 3 0 = 3 ∧ s.on Fld.SEC_RESULT_BUSY = false ∧ (s.sec.okey = none ∧ s.otp.oroot = some (List.replicate 32 0) ∧ s.ticketOk (List.replicate 32 0) = false)) ∧
    (∃ (s : State) (m : Nat) (v : Word), lands s Reg.SEC_CMD ∧ keyOf v = 0xA9 ∧ s.on Fld.SEC_RESULT_BUSY = false ∧ privMaster m = true ∧ s.session m = true ∧ (bitsOf v 3 0 = 4)) ∧
    (∃ (s : State) (m : Nat) (v : Word), lands s Reg.SEC_CMD ∧ keyOf v = 0xA9 ∧ s.on Fld.SEC_RESULT_BUSY = false ∧ privMaster m = true ∧ s.session m = true ∧ (bitsOf v 3 0 = 5 ∧ s.otp.sealPerm = false)) ∧
    (∃ (s : State) (m : Nat) (v : Word), lands s Reg.SEC_CMD ∧ keyOf v = 0xA9 ∧ s.on Fld.SEC_RESULT_BUSY = false ∧ privMaster m = true ∧ s.session m = true ∧ (bitsOf v 3 0 = 5 ∧ s.otp.sealPerm = true)) ∧
    (∃ (s : State) (m : Nat) (v : Word), lands s Reg.SEC_CMD ∧ keyOf v = 0xA9 ∧ s.on Fld.SEC_RESULT_BUSY = false ∧ privMaster m = true ∧ s.session m = true ∧ (bitsOf v 3 0 = 6 ∧ s.sec.okey.isSome = true)) ∧
    (∃ (s : State) (m : Nat) (v : Word), lands s Reg.SEC_CMD ∧ keyOf v = 0xA9 ∧ s.on Fld.SEC_RESULT_BUSY = false ∧ privMaster m = true ∧ s.session m = true ∧ (bitsOf v 3 0 = 7 ∧ s.sec.okey.isSome = true)) ∧
    (∃ (s : State) (m : Nat) (v : Word), lands s Reg.SEC_CMD ∧ keyOf v = 0xA9 ∧ s.on Fld.SEC_RESULT_BUSY = false ∧ privMaster m = true ∧ s.session m = true ∧ (bitsOf v 3 0 = 8 ∧ s.get Fld.PWR_VSUP_MEAS_MV < 10000)) ∧
    (∃ (s : State) (m : Nat) (v : Word), lands s Reg.SEC_CMD ∧ keyOf v = 0xA9 ∧ s.on Fld.SEC_RESULT_BUSY = false ∧ privMaster m = true ∧ s.session m = true ∧ (bitsOf v 3 0 = 9)) ∧
    (∃ (s : State) (m : Nat) (v : Word), lands s Reg.SEC_CMD ∧ keyOf v = 0xA9 ∧ s.on Fld.SEC_RESULT_BUSY = false ∧ privMaster m = true ∧ s.session m = true ∧ (bitsOf v 3 0 = 8 ∧ 10000 ≤ s.get Fld.PWR_VSUP_MEAS_MV ∧ s.power.st ≠ .holdup ∧ s.power.st ≠ .shutdownTest ∧ (s.on Fld.SEC_FUSE_OROOT && s.otp.oroot.isSome) = false ∧ s.fuseBits ≠ [])) ∧
    (∃ (s : State) (m : Nat) (v : Word), lands s Reg.SEC_CMD ∧ keyOf v = 0xA9 ∧ s.on Fld.SEC_RESULT_BUSY = false ∧ privMaster m = true ∧ s.session m = true ∧ (bitsOf v 3 0 = 8 ∧ 10000 ≤ s.get Fld.PWR_VSUP_MEAS_MV ∧ (s.power.st = .holdup ∨ s.power.st = .shutdownTest))) ∧
    (∃ (s : State) (m : Nat) (v : Word), lands s Reg.SEC_CMD ∧ keyOf v = 0xA9 ∧ s.on Fld.SEC_RESULT_BUSY = false ∧ privMaster m = true ∧ s.session m = true ∧ (bitsOf v 3 0 = 8 ∧ 10000 ≤ s.get Fld.PWR_VSUP_MEAS_MV ∧ s.power.st ≠ .holdup ∧ s.power.st ≠ .shutdownTest ∧ (s.on Fld.SEC_FUSE_OROOT && s.otp.oroot.isSome) = true)) ∧
    (∃ (s : State) (r : SecOp), s.mainOn = true ∧ s.sec.running = some r) ∧
    (∃ (s : State), s.mainOn = true ∧ s.sec.running = none) :=
  ⟨⟨up, by decide +kernel⟩,
    ⟨(put (Reg.SEC_AUTH 0) (hmac (List.replicate 32 0) (List.replicate 16 0 ++ up.otp.devid ++ [31])) (dev (fun d => { d with sec := { d.sec with okey := some (List.replicate 32 0), nonce := some (List.replicate 16 0) } }) up)), 31, 0xA9000001, (List.replicate 32 0), (List.replicate 16 0), by unfold lands; decide +kernel⟩,
    ⟨(dev (fun d => { d with sec := { d.sec with okey := some (List.replicate 32 0), nonce := some (List.replicate 16 0) } }) up), 31, 0xA9000001, (List.replicate 32 0), (List.replicate 16 0), by unfold lands; decide +kernel⟩,
    ⟨(dev (fun d => { d with sec := { d.sec with okey := some (List.replicate 32 0), nonce := some (List.replicate 16 0), fails := 4 } }) up), 31, 0xA9000001, (List.replicate 32 0), (List.replicate 16 0), by unfold lands; decide +kernel⟩,
    ⟨(dev (fun d => { d with sec := { d.sec with fails := 5, lockEnd := 1000000000000 } }) up), 0xA9000001, by unfold lands; decide +kernel⟩,
    ⟨(set [(Fld.SEC_RESULT_BUSY, 1)] up), 0xA9000001, by unfold lands; decide +kernel⟩,
    ⟨(set [(Fld.SEC_STAT_SESSION, 1), (Fld.SEC_STAT_MASTER, 15)] up), 15, 0xA9000002, by unfold lands; decide +kernel⟩,
    ⟨up, 16, 0xA9000003, by unfold lands; decide +kernel⟩,
    ⟨up, 17, 0xA9000003, by unfold lands; decide +kernel⟩,
    ⟨up, 0, 0xA9000003, by unfold lands; decide +kernel⟩,
    ⟨(dev (fun d => { d with sec := { d.sec with okey := some (List.replicate 32 0) } }) (set [(Fld.SEC_STAT_SESSION, 1), (Fld.SEC_STAT_MASTER, 16)] up)), 16, 0xA9000003, by unfold lands; decide +kernel⟩,
    ⟨(dev (fun d => { d with sec := { d.sec with okey := some (List.replicate 32 0) } }) up), 17, 0xA9000003, by unfold lands; decide +kernel⟩,
    ⟨(dev (fun d => { d with otp := { d.otp with oroot := some (List.replicate 32 0) } }) up), 0xA9000003, by unfold lands; decide +kernel⟩,
    ⟨(set [(Fld.SEC_STAT_SESSION, 1), (Fld.SEC_STAT_MASTER, 0)] up), 0, 0xA9000004, by unfold lands; decide +kernel⟩,
    ⟨(set [(Fld.SEC_STAT_SESSION, 1), (Fld.SEC_STAT_MASTER, 16)] up), 16, 0xA9000005, by unfold lands; decide +kernel⟩,
    ⟨(set [(Fld.SEC_STAT_SESSION, 1), (Fld.SEC_STAT_MASTER, 17)] (dev (fun d => { d with otp := { d.otp with sealPerm := true } }) up)), 17, 0xA9000005, by unfold lands; decide +kernel⟩,
    ⟨(set [(Fld.SEC_STAT_SESSION, 1), (Fld.SEC_STAT_MASTER, 16)] (dev (fun d => { d with sec := { d.sec with okey := some (List.replicate 32 0), nonce := some (List.replicate 16 0) } }) up)), 16, 0xA9000006, by unfold lands; decide +kernel⟩,
    ⟨(set [(Fld.SEC_STAT_SESSION, 1), (Fld.SEC_STAT_MASTER, 16)] (dev (fun d => { d with sec := { d.sec with okey := some (List.replicate 32 0), nonce := some (List.replicate 16 0) } }) up)), 16, 0xA9000007, by unfold lands; decide +kernel⟩,
    ⟨(set [(Fld.SEC_STAT_SESSION, 1), (Fld.SEC_STAT_MASTER, 16), (Fld.PWR_VSUP_MEAS_MV, 9999)] up), 16, 0xA9000008, by unfold lands; decide +kernel⟩,
    ⟨(set [(Fld.SEC_STAT_SESSION, 1), (Fld.SEC_STAT_MASTER, 16)] up), 16, 0xA9000009, by unfold lands; decide +kernel⟩,
    ⟨(set [(Fld.SEC_STAT_SESSION, 1), (Fld.SEC_STAT_MASTER, 16), (Fld.PWR_VSUP_MEAS_MV, 10000), (Fld.SEC_FUSE_SRC, 0x7FF), (Fld.SEC_FUSE_SEAL_PERM, 1), (Fld.SEC_FUSE_OROOT, 1)] up), 16, 0xA9000008, by unfold lands; decide +kernel⟩,
    ⟨(set [(Fld.SEC_STAT_SESSION, 1), (Fld.SEC_STAT_MASTER, 16), (Fld.PWR_VSUP_MEAS_MV, 10000), (Fld.SEC_FUSE_SRC, 0x7FF), (Fld.SEC_FUSE_SEAL_PERM, 1), (Fld.SEC_FUSE_OROOT, 1)] (pow (fun p => { p with st := .holdup }) up)), 16, 0xA9000008, by unfold lands; decide +kernel⟩,
    ⟨(set [(Fld.SEC_STAT_SESSION, 1), (Fld.SEC_STAT_MASTER, 16), (Fld.PWR_VSUP_MEAS_MV, 10000), (Fld.SEC_FUSE_SRC, 0x7FF), (Fld.SEC_FUSE_SEAL_PERM, 1), (Fld.SEC_FUSE_OROOT, 1)] (dev (fun d => { d with otp := { d.otp with oroot := some [] } }) up)), 16, 0xA9000008, by unfold lands; decide +kernel⟩,
    ⟨(dev (fun d => { d with sec := { d.sec with running := some ⟨8, 11⟩, fusing := [10, 16] } }) up), ⟨8, 11⟩, by decide +kernel⟩,
    ⟨up, by decide +kernel⟩⟩

/-- The hypotheses of PrivilegedOperationsRefused can be met. -/
theorem witness_PrivilegedOperationsRefused :
    (∃ (s : State) (m : Nat) (v : Word), lands s Reg.SEC_CMD ∧ keyOf v = 0xA9 ∧ s.on Fld.SEC_RESULT_BUSY = false ∧ (privMaster m = false ∨ s.session m = false) ∧ (bitsOf v 3 0 = 4)) ∧
    (∃ (s : State) (m : Nat) (v : Word), lands s Reg.SEC_CMD ∧ keyOf v = 0xA9 ∧ s.on Fld.SEC_RESULT_BUSY = false ∧ (privMaster m = false ∨ s.session m = false) ∧ (bitsOf v 3 0 = 5)) ∧
    (∃ (s : State) (m : Nat) (v : Word), lands s Reg.SEC_CMD ∧ keyOf v = 0xA9 ∧ s.on Fld.SEC_RESULT_BUSY = false ∧ (privMaster m = false ∨ s.session m = false) ∧ (bitsOf v 3 0 = 6)) ∧
    (∃ (s : State) (m : Nat) (v : Word), lands s Reg.SEC_CMD ∧ keyOf v = 0xA9 ∧ s.on Fld.SEC_RESULT_BUSY = false ∧ (privMaster m = false ∨ s.session m = false) ∧ (bitsOf v 3 0 = 7)) ∧
    (∃ (s : State) (m : Nat) (v : Word), lands s Reg.SEC_CMD ∧ keyOf v = 0xA9 ∧ s.on Fld.SEC_RESULT_BUSY = false ∧ (privMaster m = false ∨ s.session m = false) ∧ (bitsOf v 3 0 = 8)) ∧
    (∃ (s : State) (m : Nat) (v : Word), lands s Reg.SEC_CMD ∧ keyOf v = 0xA9 ∧ s.on Fld.SEC_RESULT_BUSY = false ∧ (privMaster m = false ∨ s.session m = false) ∧ (bitsOf v 3 0 = 9)) ∧
    (∃ (s : State) (m : Nat) (v : Word), lands s Reg.SEC_CMD ∧ keyOf v = 0xA9 ∧ s.on Fld.SEC_RESULT_BUSY = false ∧ (privMaster m = false ∨ s.session m = false) ∧ (bitsOf v 3 0 = 4)) :=
  ⟨⟨up, 16, 0xA9000004, by unfold lands; decide +kernel⟩,
    ⟨up, 16, 0xA9000005, by unfold lands; decide +kernel⟩,
    ⟨up, 16, 0xA9000006, by unfold lands; decide +kernel⟩,
    ⟨up, 16, 0xA9000007, by unfold lands; decide +kernel⟩,
    ⟨up, 16, 0xA9000008, by unfold lands; decide +kernel⟩,
    ⟨up, 16, 0xA9000009, by unfold lands; decide +kernel⟩,
    ⟨(set [(Fld.SEC_STAT_SESSION, 1), (Fld.SEC_STAT_MASTER, 15)] up), 15, 0xA9000004, by unfold lands; decide +kernel⟩⟩

/-- The hypotheses of ClockCommandsComplete can be met. -/
theorem witness_ClockCommandsComplete :
    (∃ (s : State), s.power.bkpAlive = true ∧ s.secs + 1 < calendarEnd) ∧
    (∃ (s : State), s.power.bkpAlive = true ∧ s.secs + 1 < calendarEnd) ∧
    (∃ (s : State), s.power.bkpAlive = true) ∧
    (∃ (s : State), s.power.bkpAlive = true) ∧
    (∃ (s : State), s.power.bkpAlive = true ∧ s.secs + 1 = calendarEnd) ∧
    (∃ (s : State) (k : Nat), s.power.bkpAlive = true ∧ k < 2 ∧ k < s.rtc.pulse.length ∧ nth s.rtc.pulse k 0 < (s.secs + 1) * 32768) ∧
    (∃ (s : State) (k : Nat), s.power.bkpAlive = true ∧ k < 2 ∧ k < s.rtc.pulse.length ∧ nth s.rtc.pulse k 0 < (s.secs + 1) * 32768) ∧
    (∃ (s : State) (k : Nat), (2 ≤ k ∨ (s.secs + 1) * 32768 ≤ nth s.rtc.pulse k 0)) ∧
    (∃ (s : State) (k : Nat), (2 ≤ k ∨ (s.secs + 1) * 32768 ≤ nth s.rtc.pulse k 0)) ∧
    (∃ (s : State), s.power.bkpAlive = false) ∧
    (∃ (s : State), s.mainOn = true) ∧
    (∃ (s : State), s.mainOn = true) ∧
    (∃ (s : State) (v : Word), lands s Reg.RTC_CMD ∧ keyOf v = 0x2B ∧ bitsOf v 2 0 = 1 ∧ s.power.st ≠ .holdup ∧ s.power.st ≠ .shutdownTest ∧ (let d := dateOf (s.rd Reg.RTC_SET_LO) (s.rd Reg.RTC_SET_HI); d.valid = true)) ∧
    (∃ (s : State) (v : Word), lands s Reg.RTC_CMD ∧ keyOf v = 0x2B ∧ bitsOf v 2 0 = 1 ∧ s.power.st ≠ .holdup ∧ s.power.st ≠ .shutdownTest ∧ (let d := dateOf (s.rd Reg.RTC_SET_LO) (s.rd Reg.RTC_SET_HI); d.valid = false)) ∧
    (∃ (s : State) (v : Word), lands s Reg.RTC_CMD ∧ keyOf v = 0x2B ∧ bitsOf v 2 0 = 2 ∧ s.getI Fld.RTC_SHIFT_VAL ≠ 0 ∧ (s.getI Fld.RTC_SHIFT_VAL).natAbs ≤ 32768 ∧ s.on Fld.RTC_STAT_SHIFT_BUSY = false) ∧
    (∃ (s : State) (v : Word), lands s Reg.RTC_CMD ∧ keyOf v = 0x2B ∧ bitsOf v 2 0 = 2 ∧ s.getI Fld.RTC_SHIFT_VAL ≠ 0 ∧ (s.getI Fld.RTC_SHIFT_VAL).natAbs ≤ 32768 ∧ s.on Fld.RTC_STAT_SHIFT_BUSY = false) ∧
    (∃ (s : State) (v : Word), lands s Reg.RTC_CMD ∧ keyOf v = 0x2B ∧ bitsOf v 2 0 = 2 ∧ (s.getI Fld.RTC_SHIFT_VAL = 0 ∨ 32768 < (s.getI Fld.RTC_SHIFT_VAL).natAbs ∨ s.on Fld.RTC_STAT_SHIFT_BUSY = true)) ∧
    (∃ (s : State) (v : Word), lands s Reg.RTC_CMD ∧ keyOf v = 0x2B ∧ bitsOf v 2 0 = 2 ∧ (s.getI Fld.RTC_SHIFT_VAL = 0 ∨ 32768 < (s.getI Fld.RTC_SHIFT_VAL).natAbs ∨ s.on Fld.RTC_STAT_SHIFT_BUSY = true)) ∧
    (∃ (s : State) (v : Word), lands s Reg.RTC_CMD ∧ keyOf v = 0x2B ∧ bitsOf v 2 0 = 2 ∧ (s.getI Fld.RTC_SHIFT_VAL = 0 ∨ 32768 < (s.getI Fld.RTC_SHIFT_VAL).natAbs ∨ s.on Fld.RTC_STAT_SHIFT_BUSY = true)) ∧
    (∃ (s : State), s.power.bkpAlive = true ∧ s.on Fld.RTC_STAT_SHIFT_BUSY = true) ∧
    (∃ (s : State) (v : Word), lands s Reg.RTC_STAT ∧ bitAt v 0 = true ∧ s.on Fld.RTC_STAT_OSF = true ∧ (s.on Fld.RTC_STAT_SETSINCE = true)) ∧
    (∃ (s : State) (v : Word), lands s Reg.RTC_STAT ∧ bitAt v 0 = true ∧ s.on Fld.RTC_STAT_OSF = true ∧ (s.on Fld.RTC_STAT_SETSINCE = false)) ∧
    (∃ (s : State) (k : Nat) (v : Word), lands s Reg.RTC_STAT ∧ k < 2 ∧ bitAt v (almStat k).lo = true ∧ (bitAt v 0 = false ∨ s.on Fld.RTC_STAT_OSF = false)) :=
  ⟨⟨(dev (fun d => { d with rtc := { d.rtc with lin := (calendarEnd - 2) * 32768 + 32767 } }) up), by decide +kernel⟩,
    ⟨(set [(almEn 1, 1)] up), by decide +kernel⟩,
    ⟨(dev (fun d => { d with rtc := { d.rtc with trimNew := true } }) up), by decide +kernel⟩,
    ⟨up, by decide +kernel⟩,
    ⟨(dev (fun d => { d with rtc := { d.rtc with lin := (calendarEnd - 1) * 32768 } }) up), by decide +kernel⟩,
    ⟨up, 1, by decide +kernel⟩,
    ⟨(dev (fun d => { d with rtc := { d.rtc with pulse := [32767, 0] } }) up), 0, by decide +kernel⟩,
    ⟨up, 2, by decide +kernel⟩,
    ⟨(dev (fun d => { d with rtc := { d.rtc with pulse := [32768, 0] } }) up), 0, by decide +kernel⟩,
    ⟨(pow (fun p => { p with bkpAlive := false }) up), by decide +kernel⟩,
    ⟨up, by decide +kernel⟩,
    ⟨(dev (fun d => { d with rtc := { d.rtc with frozen := [(16, 9)] } }) up), by decide +kernel⟩,
    ⟨(regs [(Reg.RTC_SET_LO, 0x077DFFFF), (Reg.RTC_SET_HI, 0x142E8017)] up), 0x2B000001, by unfold lands; decide +kernel⟩,
    ⟨(regs [(Reg.RTC_SET_LO, 0x077DFFFF), (Reg.RTC_SET_HI, 0x152E8017)] up), 0x2B000001, by unfold lands; decide +kernel⟩,
    ⟨(set [(Fld.RTC_SHIFT_VAL, unsignedOf (32768) 17)] up), 0x2B000002, by unfold lands; decide +kernel⟩,
    ⟨(set [(Fld.RTC_SHIFT_VAL, unsignedOf (-32768) 17)] up), 0x2B000002, by unfold lands; decide +kernel⟩,
    ⟨up, 0x2B000002, by unfold lands; decide +kernel⟩,
    ⟨(set [(Fld.RTC_SHIFT_VAL, unsignedOf 32769 17)] up), 0x2B000002, by unfold lands; decide +kernel⟩,
    ⟨(set [(Fld.RTC_SHIFT_VAL, 1), (Fld.RTC_STAT_SHIFT_BUSY, 1)] up), 0x2B000002, by unfold lands; decide +kernel⟩,
    ⟨(set [(Fld.RTC_STAT_SHIFT_BUSY, 1)] up), by decide +kernel⟩,
    ⟨(set [(Fld.RTC_STAT_OSF, 1), (Fld.RTC_STAT_SETSINCE, 1)] up), 1, by unfold lands; decide +kernel⟩,
    ⟨(set [(Fld.RTC_STAT_OSF, 1)] up), 1, by unfold lands; decide +kernel⟩,
    ⟨(set [(almStat 1, 1), (almStat 0, 1)] up), 1, 0x100, by unfold lands; decide +kernel⟩⟩

/-- The hypotheses of RateAndInputCommandsComplete can be met. -/
theorem witness_RateAndInputCommandsComplete :
    (∃ (s : State) (v : Word), lands s Reg.RTC_CMD ∧ keyOf v = 0x2B ∧ bitsOf v 2 0 = 3 ∧ 1 ≤ s.get Fld.RTC_RATE_CFG_HOURS ∧ s.get Fld.RTC_RATE_CFG_HOURS ≤ 48) ∧
    (∃ (s : State) (v : Word), lands s Reg.RTC_CMD ∧ keyOf v = 0x2B ∧ bitsOf v 2 0 = 3 ∧ 1 ≤ s.get Fld.RTC_RATE_CFG_HOURS ∧ s.get Fld.RTC_RATE_CFG_HOURS ≤ 48) ∧
    (∃ (s : State) (v : Word), lands s Reg.RTC_CMD ∧ keyOf v = 0x2B ∧ bitsOf v 2 0 = 3 ∧ (s.get Fld.RTC_RATE_CFG_HOURS = 0 ∨ 48 < s.get Fld.RTC_RATE_CFG_HOURS)) ∧
    (∃ (s : State) (v : Word), lands s Reg.RTC_CMD ∧ keyOf v = 0x2B ∧ bitsOf v 2 0 = 3 ∧ (s.get Fld.RTC_RATE_CFG_HOURS = 0 ∨ 48 < s.get Fld.RTC_RATE_CFG_HOURS)) ∧
    (∃ (s : State) (v : Word), lands s Reg.RTC_CMD ∧ keyOf v = 0x2B ∧ bitsOf v 2 0 = 4 ∧ s.rtc.rate.isSome = true) ∧
    (∃ (s : State) (sub : Nat) (l0 : Nat) (l1 : Nat) (r : RateM), s.mainOn = true ∧ s.rtc.rate = some r ∧ r.lin0 = some l0 ∧ (if r.src = 1 then (if r.hours * 3600000000 ≤ s.ntNow - r.count then some (s.secs * 32768 + sub % 32768) else none) else r.lin1) = some l1) ∧
    (∃ (s : State) (r : RateM), s.mainOn = true ∧ s.rtc.rate = some r ∧ (r.lin0 = none ∨ (r.src = 1 ∧ s.ntNow - r.count < r.hours * 3600000000) ∨ (r.src ≠ 1 ∧ r.lin1 = none))) ∧
    (∃ (s : State) (r : RateM), s.mainOn = true ∧ s.rtc.rate = some r ∧ (r.lin0 = none ∨ (r.src = 1 ∧ s.ntNow - r.count < r.hours * 3600000000) ∨ (r.src ≠ 1 ∧ r.lin1 = none))) ∧
    (∃ (s : State) (r : RateM), s.mainOn = true ∧ s.rtc.rate = some r ∧ (r.lin0 = none ∨ (r.src = 1 ∧ s.ntNow - r.count < r.hours * 3600000000) ∨ (r.src ≠ 1 ∧ r.lin1 = none))) ∧
    (∃ (s : State) (v : Word), lands s Reg.RTC_TRIM ∧ keyOf v = 0x2B ∧ (s.rtc.autoDue = none)) ∧
    (∃ (s : State), s.mainOn = true ∧ s.on Fld.RTC_CTRL_TC_EN = true ∧ s.on Fld.UGRP_TEMP_VALID = true) ∧
    (∃ (s : State), (s.mainOn = false ∨ s.on Fld.RTC_CTRL_TC_EN = false ∨ s.on Fld.UGRP_TEMP_VALID = false)) ∧
    (∃ (s : State), (s.mainOn = false ∨ s.on Fld.RTC_CTRL_TC_EN = false ∨ s.on Fld.UGRP_TEMP_VALID = false)) ∧
    (∃ (s : State) (n : Nat) (rising : Bool), s.power.bkpAlive = true ∧ n < 2 ∧ s.evinOn n rising = true) ∧
    (∃ (s : State) (n : Nat) (rising : Bool), (2 ≤ n ∨ s.evinOn n rising = false)) ∧
    (∃ (s : State) (n : Nat) (rising : Bool), (2 ≤ n ∨ s.evinOn n rising = false)) ∧
    (∃ (s : State) (mv : Nat), s.mainOn = true ∧ (mv < 2500)) ∧
    (∃ (s : State) (mv : Nat), s.mainOn = true ∧ (2550 < mv)) ∧
    (∃ (s : State) (mv : Nat), s.mainOn = true ∧ (2500 ≤ mv ∧ mv ≤ 2550)) ∧
    (∃ (s : State) (mv : Nat), s.mainOn = true ∧ (2500 ≤ mv ∧ mv ≤ 2550)) :=
  ⟨⟨(set [(Fld.RTC_RATE_CFG_HOURS, 1)] up), 0x2B000003, by unfold lands; decide +kernel⟩,
    ⟨(set [(Fld.RTC_RATE_CFG_HOURS, 48)] up), 0x2B000003, by unfold lands; decide +kernel⟩,
    ⟨(set [(Fld.RTC_RATE_CFG_HOURS, 0)] up), 0x2B000003, by unfold lands; decide +kernel⟩,
    ⟨(set [(Fld.RTC_RATE_CFG_HOURS, 49)] up), 0x2B000003, by unfold lands; decide +kernel⟩,
    ⟨(dev (fun d => { d with rtc := { d.rtc with rate := some { src := 0, grp := 0, hours := 1 } } }) up), 0x2B000004, by unfold lands; decide +kernel⟩,
    ⟨(dev (fun d => { d with rtc := { d.rtc with rate := some { src := 0, grp := 0, hours := 1, lin0 := some 0, lin1 := some 5 } } }) up), 32767, 0, 5, { src := 0, grp := 0, hours := 1, lin0 := some 0, lin1 := some 5 }, by decide +kernel⟩,
    ⟨(dev (fun d => { d with rtc := { d.rtc with rate := some { src := 0, grp := 0, hours := 1 } } }) up), { src := 0, grp := 0, hours := 1 }, by decide +kernel⟩,
    ⟨(dev (fun d => { d with rtc := { d.rtc with rate := some { src := 1, grp := 0, hours := 1, lin0 := some 0, count := 0 } } }) up), { src := 1, grp := 0, hours := 1, lin0 := some 0, count := 0 }, by decide +kernel⟩,
    ⟨(dev (fun d => { d with rtc := { d.rtc with rate := some { src := 0, grp := 0, hours := 48, lin0 := some 0 } } }) up), { src := 0, grp := 0, hours := 48, lin0 := some 0 }, by decide +kernel⟩,
    ⟨up, 0x2B00FFFF, by unfold lands; decide +kernel⟩,
    ⟨(set [(Fld.RTC_CTRL_TC_EN, 1), (Fld.UGRP_TEMP_VALID, 1)] up), by decide +kernel⟩,
    ⟨(set [(Fld.RTC_CTRL_TC_EN, 1)] up), by decide +kernel⟩,
    ⟨up, by decide +kernel⟩,
    ⟨(set [(Fld.RTC_EVIN_CFG_EN 1, 1), (Fld.RTC_EVIN_CFG_EDGE 1, 1)] up), 1, true, by decide +kernel⟩,
    ⟨up, 2, true, by decide +kernel⟩,
    ⟨up, 0, true, by decide +kernel⟩,
    ⟨up, 2499, by decide +kernel⟩,
    ⟨up, 2551, by decide +kernel⟩,
    ⟨up, 2500, by decide +kernel⟩,
    ⟨up, 2550, by decide +kernel⟩⟩

set_option maxRecDepth 100000 in
/-- The hypotheses of FrameReceptionCommandsComplete can be met. -/
theorem witness_FrameReceptionCommandsComplete :
    (∃ (s : State), s.mainOn = true ∧ (s.plcMayRx = false ∨ s.plcSends = true)) ∧
    (∃ (s : State), s.mainOn = true ∧ (s.plcMayRx = false ∨ s.plcSends = true)) ∧
    (∃ (s : State) (rx : RxInfo) (fc : List Byte), s.mainOn = true ∧ s.plcMayRx = true ∧ s.plcSends = false ∧ (fcGood rx fc = false ∨ s.lineHeard rx = false)) ∧
    (∃ (s : State) (rx : RxInfo) (fc : List Byte), s.mainOn = true ∧ s.plcMayRx = true ∧ s.plcSends = false ∧ (fcGood rx fc = false ∨ s.lineHeard rx = false)) ∧
    (∃ (s : State) (rx : RxInfo) (fc : List Byte), s.mainOn = true ∧ s.plcMayRx = true ∧ s.plcSends = false ∧ (fcGood rx fc = false ∨ s.lineHeard rx = false)) ∧
    (∃ (s : State) (rx : RxInfo) (fc : List Byte), s.mainOn = true ∧ s.plcMayRx = true ∧ s.plcSends = false ∧ fcGood rx fc = true ∧ s.lineHeard rx = true ∧ 4 < (FC.ofBytes fc).type) ∧
    (∃ (s : State) (rx : RxInfo) (fc : List Byte) (i : Nat), s.mainOn = true ∧ frameHere s.toDev rx fc ∧ (FC.ofBytes fc).type = 2 ∧ s.nbFind (FC.ofBytes fc).src = some i) ∧
    (∃ (s : State) (rx : RxInfo) (fc : List Byte) (p : List Byte) (i : Nat), s.mainOn = true ∧ frameHere s.toDev rx fc ∧ payloadGood s.toDev rx fc p ∧ (FC.ofBytes fc).type = 3 ∧ 50 ≤ (FC.ofBytes fc).len ∧ s.nbFind (FC.ofBytes fc).src = some i ∧ s.plc.nbs.length = 64 ∧ s.mapOk (TMap.ofBytes p) p = true ∧ s.repeats (FC.ofBytes fc) = false) ∧
    (∃ (s : State) (rx : RxInfo) (fc : List Byte) (p : List Byte) (i : Nat), s.mainOn = true ∧ frameHere s.toDev rx fc ∧ payloadGood s.toDev rx fc p ∧ (FC.ofBytes fc).type = 3 ∧ s.nbFind (FC.ofBytes fc).src = some i ∧ s.plc.nbs.length = 64 ∧ s.repeats (FC.ofBytes fc) = true) ∧
    (∃ (s : State) (rx : RxInfo) (fc : List Byte) (p : List Byte) (i : Nat), s.mainOn = true ∧ frameHere s.toDev rx fc ∧ payloadGood s.toDev rx fc p ∧ (FC.ofBytes fc).type = 3 ∧ ((FC.ofBytes fc).len < 50 ∨ s.mapOk (TMap.ofBytes p) p = false) ∧ s.nbFind (FC.ofBytes fc).src = some i ∧ s.plc.nbs.length = 64 ∧ s.repeats (FC.ofBytes fc) = false) ∧
    (∃ (s : State) (rx : RxInfo) (fc : List Byte) (p : List Byte) (i : Nat), s.mainOn = true ∧ frameHere s.toDev rx fc ∧ payloadGood s.toDev rx fc p ∧ (FC.ofBytes fc).type = 3 ∧ ((FC.ofBytes fc).len < 50 ∨ s.mapOk (TMap.ofBytes p) p = false) ∧ s.nbFind (FC.ofBytes fc).src = some i ∧ s.plc.nbs.length = 64 ∧ s.repeats (FC.ofBytes fc) = false) ∧
    (∃ (s : State) (rx : RxInfo) (fc : List Byte) (q : TxFrame), s.mainOn = true ∧ frameHere s.toDev rx fc ∧ (FC.ofBytes fc).type = 1 ∧ s.plc.inflight = some q ∧ (FC.ofBytes fc).src = q.dst ∧ (FC.ofBytes fc).seq = q.seq ∧ natBit (FC.ofBytes fc).len 0 = true ∧ (s.injArmed Pg.PLCMAC 0 = false ∨ s.injLive Pg.PLCMAC = false)) ∧
    (∃ (s : State) (rx : RxInfo) (fc : List Byte) (q : TxFrame), s.mainOn = true ∧ frameHere s.toDev rx fc ∧ (FC.ofBytes fc).type = 1 ∧ s.plc.inflight = some q ∧ (FC.ofBytes fc).src = q.dst ∧ (FC.ofBytes fc).seq = q.seq ∧ natBit (FC.ofBytes fc).len 0 = false ∧ q.retx < 3) ∧
    (∃ (s : State) (q : TxFrame), s.mainOn = true ∧ s.plc.inflight = some q ∧ q.retx < 3) ∧
    (∃ (s : State) (q : TxFrame), s.mainOn = true ∧ s.plc.inflight = some q ∧ 3 ≤ q.retx) ∧
    (∃ (s : State), s.mainOn = true ∧ s.plc.inflight = none) :=
  ⟨⟨up, by decide +kernel⟩,
    ⟨(dev (fun d => { d with plc := { d.plc with txTo := 1 } }) (set [(Fld.UPD_ENG_RUN, 4), (Hdr.EN Pg.PLCPHY, 1), (Fld.PLCPHY_CTRL_RXMASK, 7), (Fld.PLCMAC_CFG_ADDR, 5), (Fld.PLCMAC_NB_INFO_VALID 63, 1), (Fld.PLCMAC_NB_INFO_ADDR 63, 9)] up)), by decide +kernel⟩,
    ⟨(set [(Fld.UPD_ENG_RUN, 4), (Hdr.EN Pg.PLCPHY, 1), (Fld.PLCPHY_CTRL_RXMASK, 7), (Fld.PLCMAC_CFG_ADDR, 5), (Fld.PLCMAC_NB_INFO_VALID 63, 1), (Fld.PLCMAC_NB_INFO_ADDR 63, 9)] up), {}, [], by decide +kernel⟩,
    ⟨(set [(Fld.UPD_ENG_RUN, 4), (Hdr.EN Pg.PLCPHY, 1), (Fld.PLCPHY_CTRL_RXMASK, 7), (Fld.PLCMAC_CFG_ADDR, 5), (Fld.PLCMAC_NB_INFO_VALID 63, 1), (Fld.PLCMAC_NB_INFO_ADDR 63, 9)] up), { fcOk := false }, (FC.bytes ⟨0, 0, false, 9, 5, false, false, 0, 0, 0, 0, 0, 0⟩), by decide +kernel⟩,
    ⟨(set [(Fld.UPD_ENG_RUN, 4), (Hdr.EN Pg.PLCPHY, 1), (Fld.PLCPHY_CTRL_RXMASK, 7), (Fld.PLCMAC_CFG_ADDR, 5), (Fld.PLCMAC_NB_INFO_VALID 63, 1), (Fld.PLCMAC_NB_INFO_ADDR 63, 9)] up), { sat := 7 }, (FC.bytes ⟨0, 0, false, 9, 5, false, false, 0, 0, 0, 0, 0, 0⟩), by decide +kernel⟩,
    ⟨(set [(Fld.UPD_ENG_RUN, 4), (Hdr.EN Pg.PLCPHY, 1), (Fld.PLCPHY_CTRL_RXMASK, 7), (Fld.PLCMAC_CFG_ADDR, 5), (Fld.PLCMAC_NB_INFO_VALID 63, 1), (Fld.PLCMAC_NB_INFO_ADDR 63, 9)] up), {}, (FC.bytes ⟨5, 0, false, 9, 5, false, false, 0, 0, 0, 0, 0, 0⟩), by decide +kernel⟩,
    ⟨(set [(Fld.UPD_ENG_RUN, 4), (Hdr.EN Pg.PLCPHY, 1), (Fld.PLCPHY_CTRL_RXMASK, 7), (Fld.PLCMAC_CFG_ADDR, 5), (Fld.PLCMAC_NB_INFO_VALID 63, 1), (Fld.PLCMAC_NB_INFO_ADDR 63, 9)] up), {}, (FC.bytes ⟨2, 0, false, 9, 5, false, false, 0, 0, 0, 0, 0, 0⟩), 63, by unfold frameHere; decide +kernel⟩,
    ⟨(set [(Fld.UPD_ENG_RUN, 4), (Hdr.EN Pg.PLCPHY, 1), (Fld.PLCPHY_CTRL_RXMASK, 7), (Fld.PLCMAC_CFG_ADDR, 5), (Fld.PLCMAC_NB_INFO_VALID 63, 1), (Fld.PLCMAC_NB_INFO_ADDR 63, 9)] up), {}, (FC.bytes ⟨3, 0, false, 9, 5, false, false, 0, 50, 0, 0, 0, 0⟩), (withCrc ([7, 15, 31, 20] ++ List.replicate 792 0)), 63, by unfold frameHere payloadGood; decide +kernel⟩,
    ⟨(dev (fun d => { d with plc := { d.plc with lastSeq := [(9, 0)] } }) (set [(Fld.UPD_ENG_RUN, 4), (Hdr.EN Pg.PLCPHY, 1), (Fld.PLCPHY_CTRL_RXMASK, 7), (Fld.PLCMAC_CFG_ADDR, 5), (Fld.PLCMAC_NB_INFO_VALID 63, 1), (Fld.PLCMAC_NB_INFO_ADDR 63, 9)] up)), {}, (FC.bytes ⟨3, 0, false, 9, 5, false, false, 0, 50, 0, 0, 0, 0⟩), (withCrc ([7, 15, 31, 20] ++ List.replicate 792 0)), 63, by unfold frameHere payloadGood; decide +kernel⟩,
    ⟨(set [(Fld.UPD_ENG_RUN, 4), (Hdr.EN Pg.PLCPHY, 1), (Fld.PLCPHY_CTRL_RXMASK, 7), (Fld.PLCMAC_CFG_ADDR, 5), (Fld.PLCMAC_NB_INFO_VALID 63, 1), (Fld.PLCMAC_NB_INFO_ADDR 63, 9)] up), {}, (FC.bytes ⟨3, 0, false, 9, 5, false, false, 0, 48, 0, 0, 0, 0⟩), (withCrc ([7, 15, 31, 20] ++ List.replicate 760 0)), 63, by unfold frameHere payloadGood; decide +kernel⟩,
    ⟨(set [(Fld.UPD_ENG_RUN, 4), (Hdr.EN Pg.PLCPHY, 1), (Fld.PLCPHY_CTRL_RXMASK, 7), (Fld.PLCMAC_CFG_ADDR, 5), (Fld.PLCMAC_NB_INFO_VALID 63, 1), (Fld.PLCMAC_NB_INFO_ADDR 63, 9)] up), {}, (FC.bytes ⟨3, 0, false, 9, 5, false, false, 0, 50, 0, 0, 0, 0⟩), (withCrc ([7, 15, 31, 20] ++ List.replicate 792 0xFF)), 63, by unfold frameHere payloadGood; decide +kernel⟩,
    ⟨(dev (fun d => { d with plc := { d.plc with inflight := some frame0 } }) (set [(Fld.UPD_ENG_RUN, 4), (Hdr.EN Pg.PLCPHY, 1), (Fld.PLCPHY_CTRL_RXMASK, 7), (Fld.PLCMAC_CFG_ADDR, 5), (Fld.PLCMAC_NB_INFO_VALID 63, 1), (Fld.PLCMAC_NB_INFO_ADDR 63, 9)] up)), {}, (FC.bytes ⟨1, 0, false, 2, 5, false, false, 0, 1, 9, 0, 0, 0⟩), frame0, by unfold frameHere; decide +kernel⟩,
    ⟨(dev (fun d => { d with plc := { d.plc with inflight := some frame0 } }) (set [(Fld.UPD_ENG_RUN, 4), (Hdr.EN Pg.PLCPHY, 1), (Fld.PLCPHY_CTRL_RXMASK, 7), (Fld.PLCMAC_CFG_ADDR, 5), (Fld.PLCMAC_NB_INFO_VALID 63, 1), (Fld.PLCMAC_NB_INFO_ADDR 63, 9)] up)), {}, (FC.bytes ⟨1, 0, false, 2, 5, false, false, 0, 0, 9, 0, 0, 0⟩), frame0, by unfold frameHere; decide +kernel⟩,
    ⟨(dev (fun d => { d with plc := { d.plc with inflight := some frame0 } }) up), frame0, by decide +kernel⟩,
    ⟨(dev (fun d => { d with plc := { d.plc with inflight := some { frame0 with retx := 3 } } }) up), { frame0 with retx := 3 }, by decide +kernel⟩,
    ⟨up, by decide +kernel⟩⟩

/-- The hypotheses of FrameSendingCommandsComplete can be met. -/
theorem witness_FrameSendingCommandsComplete :
    (∃ (s : State) (z : Nat) (f : TxFrame) (r : List TxFrame), s.mainOn = true ∧ s.plc.queue = f :: r ∧ s.plc.rxTo ≠ 0 ∧ s.mt < s.plc.rxTo + usTicks (100 + 20 * (z % ([15, 31, 63, 127].getD f.retx 255 + 1))) ∧ f.retx < 4) ∧
    (∃ (s : State) (z : Nat) (f : TxFrame) (r : List TxFrame), s.mainOn = true ∧ s.plc.queue = f :: r ∧ s.plc.rxTo ≠ 0 ∧ s.mt < s.plc.rxTo + usTicks (100 + 20 * (z % ([15, 31, 63, 127].getD f.retx 255 + 1))) ∧ f.retx < 4) ∧
    (∃ (s : State), s.mainOn = true ∧ (s.plc.queue = [] ∨ s.plc.inflight.isSome = true ∨ s.mt < s.plc.txTo)) ∧
    (∃ (s : State), s.mainOn = true ∧ (s.plc.queue = [] ∨ s.plc.inflight.isSome = true ∨ s.mt < s.plc.txTo)) ∧
    (∃ (s : State), s.mainOn = true ∧ (s.plc.queue = [] ∨ s.plc.inflight.isSome = true ∨ s.mt < s.plc.txTo)) ∧
    (∃ (s : State) (z : Nat) (f : TxFrame) (r : List TxFrame), s.mainOn = true ∧ s.plc.queue = f :: r ∧ s.plc.inflight = none ∧ s.plc.txTo ≤ s.mt ∧ s.lineQuiet (z % (backoffMax f.retx + 1)) = true ∧ s.plcMayTx = false) ∧
    (∃ (s : State) (z : Nat) (f : TxFrame) (r : List TxFrame), s.mainOn = true ∧ s.plc.queue = f :: r ∧ s.plc.inflight = none ∧ s.plc.txTo ≤ s.mt ∧ s.lineQuiet (z % (backoffMax f.retx + 1)) = true ∧ s.plcMayTx = true ∧ f.enc = false ∧ f.type ≠ 4) ∧
    (∃ (s : State) (z : Nat) (f : TxFrame) (r : List TxFrame), s.mainOn = true ∧ s.plc.queue = f :: r ∧ s.plc.inflight = none ∧ s.plc.txTo ≤ s.mt ∧ s.lineQuiet (z % (backoffMax f.retx + 1)) = true ∧ s.plcMayTx = true ∧ (f.enc = true ∨ f.type = 4) ∧ s.sec.net.isSome = true) ∧
    (∃ (s : State) (z : Nat) (f : TxFrame) (r : List TxFrame), s.mainOn = true ∧ s.plc.queue = f :: r ∧ s.plc.inflight = none ∧ s.plc.txTo ≤ s.mt ∧ s.lineQuiet (z % (backoffMax f.retx + 1)) = true ∧ s.plcMayTx = true ∧ (f.enc = true ∨ f.type = 4) ∧ s.sec.net.isSome = true) ∧
    (∃ (s : State) (z : Nat) (f : TxFrame) (r : List TxFrame), s.mainOn = true ∧ s.plc.queue = f :: r ∧ s.plc.inflight = none ∧ s.plc.txTo ≤ s.mt ∧ s.lineQuiet (z % (backoffMax f.retx + 1)) = true ∧ s.plcMayTx = true ∧ (f.enc = true ∨ f.type = 4) ∧ s.sec.net = none) ∧
    (∃ (s : State) (z : Nat) (f : TxFrame) (r : List TxFrame), s.mainOn = true ∧ s.plc.queue = f :: r ∧ s.plc.inflight = none ∧ s.plc.txTo ≤ s.mt ∧ s.lineQuiet (z % (backoffMax f.retx + 1)) = true ∧ s.plcMayTx = true ∧ (f.enc = true ∨ f.type = 4) ∧ s.sec.net = none) ∧
    (∃ (s : State) (i : Nat), s.mainOn = true ∧ i < 64) ∧
    (∃ (s : State) (i : Nat), s.mainOn = true ∧ 64 ≤ i) ∧
    (∃ (s : State) (i : Nat), s.mainOn = true ∧ i < 64 ∧ i < s.plc.nbs.length ∧ (s.nb i).txMt.isSome = true ∧ s.negotiates i = false) ∧
    (∃ (s : State) (i : Nat), s.mainOn = true ∧ (64 ≤ i ∨ (s.nb i).txMt = none ∨ s.negotiates i = true)) ∧
    (∃ (s : State) (i : Nat), s.mainOn = true ∧ (64 ≤ i ∨ (s.nb i).txMt = none ∨ s.negotiates i = true)) ∧
    (∃ (s : State) (i : Nat), s.mainOn = true ∧ (64 ≤ i ∨ (s.nb i).txMt = none ∨ s.negotiates i = true)) ∧
    (∃ (s : State), s.mainOn = true ∧ s.joined = true) ∧
    (∃ (s : State), s.mainOn = true ∧ s.joined = false) ∧
    (∃ (s : State) (i : Nat), s.mainOn = true ∧ i < 64 ∧ s.on (Fld.PLCMAC_NB_INFO_VALID i) = true) ∧
    (∃ (s : State) (i : Nat), s.mainOn = true ∧ (64 ≤ i ∨ s.on (Fld.PLCMAC_NB_INFO_VALID i) = false)) ∧
    (∃ (s : State) (i : Nat), s.mainOn = true ∧ (64 ≤ i ∨ s.on (Fld.PLCMAC_NB_INFO_VALID i) = false)) :=
  ⟨⟨(dev (fun d => { d with plc := { d.plc with queue := [frame0], plan := some [], rxTo := 1 } }) (set [(Fld.UPD_ENG_RUN, 4), (Hdr.EN Pg.PLCPHY, 1), (Fld.PLCPHY_CTRL_TXEN, 1)] up)), 63, frame0, [], by decide +kernel⟩,
    ⟨(dev (fun d => { d with plc := { d.plc with queue := [frame0], plan := some [], rxTo := 1 } }) (set [(Fld.UPD_ENG_RUN, 4), (Hdr.EN Pg.PLCPHY, 1), (Fld.PLCPHY_CTRL_TXEN, 1)] up)), 0, frame0, [], by decide +kernel⟩,
    ⟨up, by decide +kernel⟩,
    ⟨(dev (fun d => { d with plc := { d.plc with inflight := some frame0 } }) up), by decide +kernel⟩,
    ⟨(dev (fun d => { d with plc := { d.plc with txTo := 1 } }) up), by decide +kernel⟩,
    ⟨(dev (fun d => { d with plc := { d.plc with queue := [frame0] } }) up), 0, frame0, [], by decide +kernel⟩,
    ⟨(dev (fun d => { d with plc := { d.plc with queue := [frame0], plan := some [] } }) (set [(Fld.UPD_ENG_RUN, 4), (Hdr.EN Pg.PLCPHY, 1), (Fld.PLCPHY_CTRL_TXEN, 1)] up)), 0, frame0, [], by decide +kernel⟩,
    ⟨(dev (fun d => { d with sec := { d.sec with net := some (List.replicate 32 0) } }) (dev (fun d => { d with plc := { d.plc with queue := [{ frame0 with enc := true }], plan := some [] } }) (set [(Fld.UPD_ENG_RUN, 4), (Hdr.EN Pg.PLCPHY, 1), (Fld.PLCPHY_CTRL_TXEN, 1)] up))), 0, { frame0 with enc := true }, [], by decide +kernel⟩,
    ⟨(dev (fun d => { d with sec := { d.sec with net := some (List.replicate 32 0) } }) (dev (fun d => { d with plc := { d.plc with queue := [{ frame0 with type := 4 }], plan := some [] } }) (set [(Fld.UPD_ENG_RUN, 4), (Hdr.EN Pg.PLCPHY, 1), (Fld.PLCPHY_CTRL_TXEN, 1)] up))), 0, { frame0 with type := 4 }, [], by decide +kernel⟩,
    ⟨(dev (fun d => { d with plc := { d.plc with queue := [{ frame0 with enc := true }], plan := some [] } }) (set [(Fld.UPD_ENG_RUN, 4), (Hdr.EN Pg.PLCPHY, 1), (Fld.PLCPHY_CTRL_TXEN, 1)] up)), 0, { frame0 with enc := true }, [], by decide +kernel⟩,
    ⟨(dev (fun d => { d with plc := { d.plc with queue := [{ frame0 with type := 4 }], plan := some [] } }) (set [(Fld.UPD_ENG_RUN, 4), (Hdr.EN Pg.PLCPHY, 1), (Fld.PLCPHY_CTRL_TXEN, 1)] up)), 0, { frame0 with type := 4 }, [], by decide +kernel⟩,
    ⟨up, 63, by decide +kernel⟩,
    ⟨up, 64, by decide +kernel⟩,
    ⟨(dev (fun d => { d with plc := { d.plc with nbs := setAt d.plc.nbs 63 { txMt := some 0 } } }) up), 63, by decide +kernel⟩,
    ⟨up, 64, by decide +kernel⟩,
    ⟨up, 0, by decide +kernel⟩,
    ⟨(dev (fun d => { d with plc := { d.plc with nbs := setAt d.plc.nbs 63 { txMt := some 0, negEnd := some 7 } } }) up), 63, by decide +kernel⟩,
    ⟨(set [(Fld.MESH_CFG_EN, 1), (Fld.MESH_STAT_JOIN, 3)] up), by decide +kernel⟩,
    ⟨up, by decide +kernel⟩,
    ⟨(dev (fun d => { d with mesh := { d.mesh with routes := [⟨7, 9, 5, 2, 4, false⟩] } }) (set [(Fld.PLCMAC_NB_INFO_VALID 63, 1), (Fld.PLCMAC_NB_INFO_ADDR 63, 9)] up)), 63, by decide +kernel⟩,
    ⟨up, 64, by decide +kernel⟩,
    ⟨up, 63, by decide +kernel⟩⟩

/-- The hypotheses of MeshMembershipCommandsComplete can be met. -/
theorem witness_MeshMembershipCommandsComplete :
    (∃ (s : State) (v : Word), lands s Reg.MESH_CMD ∧ keyOf v = 0x4E ∧ bitsOf v 1 0 = 1 ∧ s.on Fld.MESH_CFG_EN = true ∧ (s.on Fld.MESH_CFG_ROOT = true)) ∧
    (∃ (s : State) (v : Word), lands s Reg.MESH_CMD ∧ keyOf v = 0x4E ∧ bitsOf v 1 0 = 1 ∧ s.on Fld.MESH_CFG_EN = true ∧ (s.on Fld.MESH_CFG_ROOT = false)) ∧
    (∃ (s : State) (v : Word), lands s Reg.MESH_CMD ∧ keyOf v = 0x4E ∧ (bitsOf v 1 0 = 0 ∨ (bitsOf v 1 0 = 1 ∧ s.on Fld.MESH_CFG_EN = false))) ∧
    (∃ (s : State) (v : Word), lands s Reg.MESH_CMD ∧ keyOf v = 0x4E ∧ (bitsOf v 1 0 = 0 ∨ (bitsOf v 1 0 = 1 ∧ s.on Fld.MESH_CFG_EN = false))) ∧
    (∃ (s : State) (v : Word), lands s Reg.MESH_CMD ∧ keyOf v = 0x4E ∧ bitsOf v 1 0 = 2) ∧
    (∃ (s : State) (v : Word), lands s Reg.MESH_CFG ∧ (bitsOf v 23 16 = 0 ∨ (bitAt v 31 = true ∧ s.get Fld.MESH_NETID_ID = 0))) ∧
    (∃ (s : State) (v : Word), lands s Reg.MESH_CFG ∧ (bitsOf v 23 16 = 0 ∨ (bitAt v 31 = true ∧ s.get Fld.MESH_NETID_ID = 0))) ∧
    (∃ (s : State) (v : Word), lands s Reg.MESH_CFG ∧ bitsOf v 23 16 ≠ 0 ∧ bitAt v 31 = true ∧ s.get Fld.MESH_NETID_ID ≠ 0 ∧ s.on Fld.MESH_CFG_EN = false) ∧
    (∃ (s : State) (v : Word), lands s Reg.MESH_CFG ∧ bitsOf v 23 16 ≠ 0 ∧ bitAt v 31 = true ∧ s.get Fld.MESH_NETID_ID ≠ 0 ∧ s.on Fld.MESH_CFG_EN = false) ∧
    (∃ (s : State) (v : Word), lands s Reg.MESH_CFG ∧ bitsOf v 23 16 ≠ 0 ∧ bitAt v 31 = false ∧ s.on Fld.MESH_CFG_EN = true) ∧
    (∃ (s : State) (c : Cand), s.mainOn = true ∧ s.on Fld.MESH_CFG_EN = true ∧ s.get Fld.MESH_STAT_JOIN = 1 ∧ s.sec.net.isSome = true ∧ s.bestParent = some c) ∧
    (∃ (s : State), s.mainOn = true ∧ (s.on Fld.MESH_CFG_EN = false ∨ s.get Fld.MESH_STAT_JOIN ≠ 1 ∨ s.sec.net = none ∨ s.bestParent = none)) ∧
    (∃ (s : State), s.mainOn = true ∧ (s.on Fld.MESH_CFG_EN = false ∨ s.get Fld.MESH_STAT_JOIN ≠ 1 ∨ s.sec.net = none ∨ s.bestParent = none)) ∧
    (∃ (s : State), s.mainOn = true ∧ (s.on Fld.MESH_CFG_EN = false ∨ s.get Fld.MESH_STAT_JOIN ≠ 1 ∨ s.sec.net = none ∨ s.bestParent = none)) ∧
    (∃ (s : State), s.mainOn = true ∧ (s.on Fld.MESH_CFG_EN = false ∨ s.get Fld.MESH_STAT_JOIN ≠ 1 ∨ s.sec.net = none ∨ s.bestParent = none)) ∧
    (∃ (s : State), s.mainOn = true ∧ s.get Fld.MESH_STAT_JOIN = 2) ∧
    (∃ (s : State), s.mainOn = true ∧ s.get Fld.MESH_STAT_JOIN ≠ 2) ∧
    (∃ (s : State) (body : List Byte) (net : List Byte) (a : Nat) (m : Mesh), s.mainOn = true ∧ s.on Fld.MESH_CFG_EN = true ∧ s.on Fld.MESH_CFG_ROOT = true ∧ s.sec.net = some net ∧ body.length = 36 ∧ slice body 20 16 = (hmac net (ascii "JOIN" ++ slice body 0 8 ++ slice body 8 8 ++ leBytes 2 (leAt body 16 2))).take 16 ∧ s.mesh.allocate (slice body 0 8) (leAt body 16 2) = some (a, m)) ∧
    (∃ (s : State), s.mainOn = true ∧ s.on Fld.MESH_CFG_EN = true ∧ s.on Fld.MESH_CFG_ROOT = false ∧ s.joined = true) ∧
    (∃ (s : State), s.mainOn = true ∧ s.on Fld.MESH_CFG_EN = false) ∧
    (∃ (s : State) (body : List Byte) (net : List Byte) (c : Cand), s.mainOn = true ∧ s.on Fld.MESH_CFG_EN = true ∧ s.get Fld.MESH_STAT_JOIN = 2 ∧ s.sec.net = some net ∧ s.mesh.asked = some c ∧ body.length = 46 ∧ slice body 0 8 = s.otp.devid ∧ slice body 8 8 = c.bnonce ∧ leAt body 16 2 < 4096 ∧ slice body 30 16 = (hmac net (ascii "JRSP" ++ slice body 0 8 ++ slice body 8 8 ++ leBytes 2 (leAt body 16 2) ++ leBytes 1 (leAt body 18 1) ++ leBytes 2 (leAt body 20 2))).take 16) ∧
    (∃ (s : State) (body : List Byte), s.mainOn = true ∧ s.on Fld.MESH_CFG_EN = true ∧ slice body 0 8 ≠ s.otp.devid ∧ slice body 0 8 ∈ s.mesh.relays) ∧
    (∃ (s : State), s.mainOn = true ∧ s.on Fld.MESH_CFG_ROOT = true) ∧
    (∃ (s : State), s.mainOn = true ∧ s.on Fld.MESH_CFG_ROOT = false) :=
  ⟨⟨(set [(Fld.MESH_CFG_EN, 1), (Fld.MESH_CFG_ROOT, 1)] up), 0x4E000001, by unfold lands; decide +kernel⟩,
    ⟨(set [(Fld.MESH_CFG_EN, 1)] up), 0x4E000001, by unfold lands; decide +kernel⟩,
    ⟨up, 0x4E000000, by unfold lands; decide +kernel⟩,
    ⟨up, 0x4E000001, by unfold lands; decide +kernel⟩,
    ⟨up, 0x4E000002, by unfold lands; decide +kernel⟩,
    ⟨up, 0x00000000, by unfold lands; decide +kernel⟩,
    ⟨up, 0x80010000, by unfold lands; decide +kernel⟩,
    ⟨(set [(Fld.MESH_NETID_ID, 1)] up), 0xC0FF0700, by unfold lands; decide +kernel⟩,
    ⟨(set [(Fld.MESH_NETID_ID, 1)] up), 0x80010000, by unfold lands; decide +kernel⟩,
    ⟨(set [(Fld.MESH_CFG_EN, 1)] up), 0x00010000, by unfold lands; decide +kernel⟩,
    ⟨(dev (fun d => { d with sec := { d.sec with net := some (List.replicate 32 0) } }) (dev (fun d => { d with mesh := { d.mesh with cands := [cand0] } }) (set [(Fld.MESH_CFG_EN, 1), (Fld.MESH_STAT_JOIN, 1)] up))), cand0, by decide +kernel⟩,
    ⟨up, by decide +kernel⟩,
    ⟨(set [(Fld.MESH_CFG_EN, 1)] up), by decide +kernel⟩,
    ⟨(set [(Fld.MESH_CFG_EN, 1), (Fld.MESH_STAT_JOIN, 1)] up), by decide +kernel⟩,
    ⟨(dev (fun d => { d with sec := { d.sec with net := some (List.replicate 32 0) } }) (set [(Fld.MESH_CFG_EN, 1), (Fld.MESH_STAT_JOIN, 1)] up)), by decide +kernel⟩,
    ⟨(set [(Fld.MESH_STAT_JOIN, 2)] up), by decide +kernel⟩,
    ⟨up, by decide +kernel⟩,
    ⟨(dev (fun d => { d with sec := { d.sec with net := some (List.replicate 32 0) } }) (set [(Fld.MESH_CFG_EN, 1), (Fld.MESH_CFG_ROOT, 1)] up)), join0, (List.replicate 32 0), 9, (net0 (State.reset.mesh)), by decide +kernel⟩,
    ⟨(set [(Fld.MESH_CFG_EN, 1), (Fld.MESH_STAT_JOIN, 3)] up), by decide +kernel⟩,
    ⟨up, by decide +kernel⟩,
    ⟨(dev (fun d => { d with sec := { d.sec with net := some (List.replicate 32 0) } }) (dev (fun d => { d with mesh := { d.mesh with asked := some cand0 } }) (set [(Fld.MESH_CFG_EN, 1), (Fld.MESH_STAT_JOIN, 2)] up))), resp0, (List.replicate 32 0), cand0, by decide +kernel⟩,
    ⟨(dev (fun d => { d with mesh := { d.mesh with relays := [List.replicate 8 7] } }) (set [(Fld.MESH_CFG_EN, 1)] up)), (List.replicate 8 7), by decide +kernel⟩,
    ⟨(set [(Fld.MESH_CFG_EN, 1), (Fld.MESH_CFG_ROOT, 1)] up), by decide +kernel⟩,
    ⟨up, by decide +kernel⟩⟩

/-- The hypotheses of MeshRoutingCommandsComplete can be met. -/
theorem witness_MeshRoutingCommandsComplete :
    (∃ (s : State) (rx : RxInfo) (fc : List Byte) (p : List Byte) (net : List Byte), s.mainOn = true ∧ frameHere s.toDev rx fc ∧ payloadGood s.toDev rx fc p ∧ (FC.ofBytes fc).type = 4 ∧ s.on Fld.MESH_CFG_EN = true ∧ s.get Fld.MESH_STAT_JOIN = 1 ∧ s.sec.net = some net ∧ leAt p 0 2 = s.get Fld.MESH_NETID_ID ∧ slice p 20 8 = (hmac (s.linkKey net 0xFFF 0xFFF) (p.take 20 ++ leBytes 2 (FC.ofBytes fc).src ++ leBytes 4 (FC.ofBytes fc).ntTx)).take 8) ∧
    (∃ (s : State) (rx : RxInfo) (fc : List Byte) (p : List Byte) (hdr : List Byte) (body : List Byte) (i : Nat), s.mainOn = true ∧ frameHere s.toDev rx fc ∧ payloadGood s.toDev rx fc p ∧ (FC.ofBytes fc).type = 0 ∧ (FC.ofBytes fc).enc = true ∧ s.on Fld.MESH_CFG_EN = true ∧ s.injArmed Pg.MESH 0 = false ∧ s.nbFind (FC.ofBytes fc).src = some i ∧ s.repeats (FC.ofBytes fc) = false ∧ (s.nb i).fcAny = false ∧ s.meshOpen (FC.ofBytes fc) p = some (hdr, body) ∧ leAt hdr 0 2 % 4096 = s.plcAddr ∧ (leAt hdr 6 1 = 0 ∨ leAt hdr 6 1 = 4)) ∧
    (∃ (s : State) (rx : RxInfo) (fc : List Byte) (p : List Byte) (hdr : List Byte) (body : List Byte) (i : Nat), s.mainOn = true ∧ frameHere s.toDev rx fc ∧ payloadGood s.toDev rx fc p ∧ (FC.ofBytes fc).type = 0 ∧ (FC.ofBytes fc).enc = true ∧ s.on Fld.MESH_CFG_EN = true ∧ s.injArmed Pg.MESH 0 = false ∧ s.nbFind (FC.ofBytes fc).src = some i ∧ s.repeats (FC.ofBytes fc) = false ∧ (s.nb i).fcAny = false ∧ s.meshOpen (FC.ofBytes fc) p = some (hdr, body) ∧ leAt hdr 0 2 % 4096 = s.plcAddr ∧ (leAt hdr 6 1 = 0 ∨ leAt hdr 6 1 = 4)) ∧
    (∃ (s : State), s.mainOn = true ∧ s.joined = true) ∧
    (∃ (s : State) (v : Word), lands s Reg.MESH_CMD ∧ keyOf v = 0x4E ∧ bitsOf v 1 0 = 3 ∧ s.joined = true) ∧
    (∃ (s : State), s.mainOn = true ∧ s.joined = true ∧ (∃ r ∈ s.mesh.routes, r.changed = true) ∧ (∀ m ∈ s.mesh.advMt, m + usTicks 1000000 ≤ s.mt)) ∧
    (∃ (s : State), s.mainOn = true ∧ s.joined = false) ∧
    (∃ (s : State) (dest : Nat) (seq : Nat) (metric : Nat) (hops : Nat), s.mainOn = true ∧ s.joined = true ∧ dest < 4096 ∧ seq < 65536 ∧ metric < unreachable ∧ hops < 255 ∧ dest ≠ s.plcAddr ∧ hops + 1 ≤ s.get Fld.MESH_CFG_HOPLIM ∧ s.route dest = none) ∧
    (∃ (s : State) (dest : Nat) (seq : Nat) (metric : Nat) (hops : Nat), s.mainOn = true ∧ s.joined = true ∧ dest < 4096 ∧ seq < 65536 ∧ metric ≤ unreachable ∧ hops < 256 ∧ (dest = s.plcAddr ∨ s.get Fld.MESH_CFG_HOPLIM < hops + 1)) ∧
    (∃ (s : State) (dest : Nat) (seq : Nat) (metric : Nat) (hops : Nat), s.mainOn = true ∧ s.joined = true ∧ dest < 4096 ∧ seq < 65536 ∧ metric ≤ unreachable ∧ hops < 256 ∧ (dest = s.plcAddr ∨ s.get Fld.MESH_CFG_HOPLIM < hops + 1)) ∧
    (∃ (s : State), s.mainOn = true) ∧
    (∃ (s : State), s.mainOn = true ∧ (s.ntState = 1 ∨ s.ntState = 2)) ∧
    (∃ (s : State), s.mainOn = true ∧ (s.ntState = 1 ∨ s.ntState = 2)) ∧
    (∃ (s : State), s.mainOn = true ∧ s.ntState ≠ 1 ∧ s.ntState ≠ 2) ∧
    (∃ (s : State), s.mainOn = true ∧ s.ntState ≠ 1 ∧ s.ntState ≠ 2) ∧
    (∃ (s : State), s.mainOn = true ∧ s.ntState ≠ 0 ∧ s.ntState ≠ 4) ∧
    (∃ (s : State), s.mainOn = true ∧ s.ntState ≠ 0 ∧ s.ntState ≠ 4) ∧
    (∃ (s : State), s.mainOn = true ∧ (s.ntState = 0 ∨ s.ntState = 4)) ∧
    (∃ (s : State), s.mainOn = true ∧ (s.ntState = 0 ∨ s.ntState = 4)) ∧
    (∃ (s : State), lands s Reg.MESH_NT_SET ∧ s.ntState = 4) ∧
    (∃ (s : State), lands s Reg.MESH_NT_SET ∧ s.ntState ≠ 4) ∧
    (∃ (s : State) (v : Word) (r : Route), lands s Reg.MESH_RQ ∧ s.route (bitsOf v 11 0) = some r ∧ r.next < 4096 ∧ r.hops < 256 ∧ r.seq < 65536) ∧
    (∃ (s : State) (v : Word), lands s Reg.MESH_RQ ∧ s.route (bitsOf v 11 0) = none) :=
  ⟨⟨(dev (fun d => { d with sec := { d.sec with net := some (List.replicate 32 0) } }) (set [(Fld.UPD_ENG_RUN, 4), (Hdr.EN Pg.PLCPHY, 1), (Fld.PLCMAC_CFG_ADDR, 5), (Fld.PLCMAC_NB_INFO_VALID 63, 1), (Fld.PLCMAC_NB_INFO_ADDR 63, 9), (Fld.MESH_CFG_EN, 1), (Fld.MESH_STAT_JOIN, 1)] up)), {}, (FC.bytes ⟨4, 0, false, 9, 5, false, false, 0, 2, 0, 0, 0, 0⟩), beacon0, (List.replicate 32 0), by unfold frameHere payloadGood; decide +kernel⟩,
    ⟨(dev (fun d => { d with sec := { d.sec with net := some (List.replicate 32 0) } }) (set [(Fld.UPD_ENG_RUN, 4), (Hdr.EN Pg.PLCPHY, 1), (Fld.PLCMAC_CFG_ADDR, 5), (Fld.PLCMAC_NB_INFO_VALID 63, 1), (Fld.PLCMAC_NB_INFO_ADDR 63, 9), (Fld.MESH_CFG_EN, 1), (Fld.MESH_STAT_JOIN, 3)] up)), {}, (FC.bytes ⟨0, 0, false, 9, 5, true, false, 0, 3, 0, 0, 0, 0⟩), (data0 0), (hdr0 0), [], 63, by unfold frameHere payloadGood; decide +kernel⟩,
    ⟨(dev (fun d => { d with sec := { d.sec with net := some (List.replicate 32 0) } }) (set [(Fld.UPD_ENG_RUN, 4), (Hdr.EN Pg.PLCPHY, 1), (Fld.PLCMAC_CFG_ADDR, 5), (Fld.PLCMAC_NB_INFO_VALID 63, 1), (Fld.PLCMAC_NB_INFO_ADDR 63, 9), (Fld.MESH_CFG_EN, 1), (Fld.MESH_STAT_JOIN, 3)] up)), {}, (FC.bytes ⟨0, 0, false, 9, 5, true, false, 0, 3, 0, 0, 0, 0⟩), (data0 4), (hdr0 4), [], 63, by unfold frameHere payloadGood; decide +kernel⟩,
    ⟨(set [(Fld.MESH_CFG_EN, 1), (Fld.MESH_STAT_JOIN, 3), (Fld.MESH_CFG_HOPLIM, 255)] up), by decide +kernel⟩,
    ⟨(set [(Fld.MESH_CFG_EN, 1), (Fld.MESH_STAT_JOIN, 3), (Fld.MESH_CFG_HOPLIM, 255)] up), 0x4E000003, by unfold lands; decide +kernel⟩,
    ⟨(dev (fun d => { d with mesh := { d.mesh with routes := [⟨4095, 9, 5, 255, 65535, true⟩] } }) (set [(Fld.MESH_CFG_EN, 1), (Fld.MESH_STAT_JOIN, 3), (Fld.MESH_CFG_HOPLIM, 255)] up)), by decide +kernel⟩,
    ⟨up, by decide +kernel⟩,
    ⟨(set [(Fld.MESH_CFG_EN, 1), (Fld.MESH_STAT_JOIN, 3), (Fld.MESH_CFG_HOPLIM, 255)] up), 4095, 65535, unreachable - 1, 254, by decide +kernel⟩,
    ⟨(set [(Fld.MESH_CFG_EN, 1), (Fld.MESH_STAT_JOIN, 3), (Fld.MESH_CFG_HOPLIM, 255)] up), 0, 0, 0, 0, by decide +kernel⟩,
    ⟨(set [(Fld.MESH_CFG_EN, 1), (Fld.MESH_STAT_JOIN, 3), (Fld.MESH_CFG_HOPLIM, 255)] up), 7, 0, 0, 255, by decide +kernel⟩,
    ⟨up, by decide +kernel⟩,
    ⟨(set [(Fld.MESH_NT_STAT_STATE, 1)] up), by decide +kernel⟩,
    ⟨(set [(Fld.MESH_NT_STAT_STATE, 2)] up), by decide +kernel⟩,
    ⟨up, by decide +kernel⟩,
    ⟨(set [(Fld.MESH_NT_STAT_STATE, 3)] up), by decide +kernel⟩,
    ⟨(set [(Fld.MESH_NT_STAT_STATE, 1)] up), by decide +kernel⟩,
    ⟨(set [(Fld.MESH_NT_STAT_STATE, 3)] up), by decide +kernel⟩,
    ⟨up, by decide +kernel⟩,
    ⟨(set [(Fld.MESH_NT_STAT_STATE, 4)] up), by decide +kernel⟩,
    ⟨(set [(Fld.MESH_NT_STAT_STATE, 4)] up), by unfold lands; decide +kernel⟩,
    ⟨up, by unfold lands; decide +kernel⟩,
    ⟨(dev (fun d => { d with mesh := { d.mesh with routes := [⟨4095, 9, 5, 255, 65535, true⟩] } }) up), 4095, ⟨4095, 9, 5, 255, 65535, true⟩, by unfold lands; decide +kernel⟩,
    ⟨up, 4095, by unfold lands; decide +kernel⟩⟩

set_option maxRecDepth 100000 in
/-- The hypotheses of BundleReceptionCommandsComplete can be met. -/
theorem witness_BundleReceptionCommandsComplete :
    (∃ (s : State) (src : Nat) (body : List Byte), s.mainOn = true ∧ s.updServes src = true ∧ leAt body 0 1 = 1 ∧ s.upd.recep = none ∧ s.on Fld.UPD_STAT_TRIAL = false) ∧
    (∃ (s : State) (src : Nat) (body : List Byte), s.mainOn = true ∧ s.updServes src = true ∧ leAt body 0 1 = 1 ∧ s.upd.recep = none ∧ s.on Fld.UPD_STAT_TRIAL = false) ∧
    (∃ (s : State) (src : Nat) (body : List Byte), s.mainOn = true ∧ (s.updServes src = false ∨ leAt body 0 1 ≠ 1 ∨ (s.upd.recep = none ∧ s.on Fld.UPD_STAT_TRIAL = true))) ∧
    (∃ (s : State) (src : Nat) (body : List Byte), s.mainOn = true ∧ (s.updServes src = false ∨ leAt body 0 1 ≠ 1 ∨ (s.upd.recep = none ∧ s.on Fld.UPD_STAT_TRIAL = true))) ∧
    (∃ (s : State) (src : Nat) (body : List Byte), s.mainOn = true ∧ (s.updServes src = false ∨ leAt body 0 1 ≠ 1 ∨ (s.upd.recep = none ∧ s.on Fld.UPD_STAT_TRIAL = true))) ∧
    (∃ (s : State) (src : Nat) (body : List Byte) (r : Recep), s.mainOn = true ∧ s.updServes src = true ∧ s.upd.recep = some r ∧ leAt body 0 1 = 2 ∧ slice body 2 8 = r.bid) ∧
    (∃ (s : State) (src : Nat) (body : List Byte) (r : Recep), s.mainOn = true ∧ s.updServes src = true ∧ s.upd.recep = some r ∧ leAt body 0 1 = 4 ∧ slice body 2 8 = r.bid) ∧
    (∃ (s : State), s.mainOn = true ∧ s.upd.recep = none) ∧
    (∃ (s : State) (src : Nat) (i : Nat) (body : List Byte) (data : List Byte) (r : Recep), s.mainOn = true ∧ s.updServes src = true ∧ s.upd.recep = some r ∧ r.complete = false ∧ leAt body 0 1 = 3 ∧ body.length = 4108 ∧ slice body 4 8 = r.bid ∧ leAt body 2 2 = i ∧ slice body 12 4096 = data ∧ i ≠ 0 ∧ i < r.ntot ∧ i ∉ r.held ∧ 0 ∈ r.held ∧ s.injArmed Pg.UPD 0 = false ∧ blockOk s.mem r i data = true ∧ (r.tableOk = true ∨ (i ≤ hdrT (slotBlock s.mem r.slot 0) ∧ ∃ j, j ≤ hdrT (slotBlock s.mem r.slot 0) ∧ j ≠ i ∧ j ∉ r.held))) ∧
    (∃ (s : State) (src : Nat) (body : List Byte) (r : Recep), s.mainOn = true ∧ s.updServes src = true ∧ s.upd.recep = some r ∧ r.complete = false ∧ leAt body 0 1 = 3 ∧ body.length = 4108 ∧ slice body 4 8 = r.bid ∧ leAt body 2 2 = 0 ∧ 0 < r.ntot ∧ 0 ∉ r.held ∧ s.headReason r (slice body 12 4096) ≠ 0) ∧
    (∃ (s : State) (r : Recep), s.mainOn = true ∧ s.upd.recep = some r ∧ 0 ∈ r.held ∧ s.updServes (0x1000 + 0xFFFF) = true) ∧
    (∃ (s : State) (r : Recep) (src : Nat) (l : List Nat), s.mainOn = true ∧ s.upd.recep = some r ∧ r.complete = false ∧ s.upd.offers = src :: l ∧ 0x1000 ≤ src ∧ s.updServes src = true ∧ r.missing (hdrT (slotBlock s.mem r.slot 0)) ≠ []) :=
  ⟨⟨(set [(Fld.UART_CTRL_CHAIN 1, 1), (Fld.UPD_ENG_RUN, 1)] up), 0x1000, [1], by decide +kernel⟩,
    ⟨(set [(Fld.UPD_ENG_RUN, 12), (Fld.UPD_SRC_MESH, 1)] up), 0xFFF, [1], by decide +kernel⟩,
    ⟨up, 0, [], by decide +kernel⟩,
    ⟨(set [(Fld.UART_CTRL_CHAIN 1, 1), (Fld.UPD_ENG_RUN, 1)] up), 0x1000, [], by decide +kernel⟩,
    ⟨(set [(Fld.UART_CTRL_CHAIN 1, 1), (Fld.UPD_ENG_RUN, 1), (Fld.UPD_STAT_TRIAL, 1)] up), 0x1000, [1], by decide +kernel⟩,
    ⟨(dev (fun d => { d with upd := { d.upd with recep := some recep0 } }) (set [(Fld.UART_CTRL_CHAIN 1, 1), (Fld.UPD_ENG_RUN, 1)] up)), 0x1000, ([2, 0] ++ recep0.bid), recep0, by decide +kernel⟩,
    ⟨(dev (fun d => { d with upd := { d.upd with recep := some recep0 } }) (set [(Fld.UART_CTRL_CHAIN 1, 1), (Fld.UPD_ENG_RUN, 1)] up)), 0x1000, ([4, 0] ++ recep0.bid), recep0, by decide +kernel⟩,
    ⟨up, by decide +kernel⟩,
    ⟨(dev (fun d => { d with upd := { d.upd with recep := some { recep0 with held := [0] } } }) (set [(Fld.UART_CTRL_CHAIN 1, 1), (Fld.UPD_ENG_RUN, 1)] up)), 0x1000, 1, body1, (slice body1 12 4096), { recep0 with held := [0] }, by decide +kernel⟩,
    ⟨(dev (fun d => { d with upd := { d.upd with recep := some recep0 } }) (set [(Fld.UART_CTRL_CHAIN 1, 1), (Fld.UPD_ENG_RUN, 1)] up)), 0x1000, ([3, 0, 0, 0] ++ recep0.bid ++ List.replicate 4096 0), recep0, by decide +kernel⟩,
    ⟨(dev (fun d => { d with upd := { d.upd with recep := some { recep0 with held := [0] } } }) (set [(Fld.UART_CTRL_CHAIN 1, 1), (Fld.UPD_ENG_RUN, 1)] up)), { recep0 with held := [0] }, by decide +kernel⟩,
    ⟨(dev (fun d => { d with upd := { d.upd with recep := some recep0, offers := [0x1000] } }) (set [(Fld.UART_CTRL_CHAIN 1, 1), (Fld.UPD_ENG_RUN, 1)] up)), recep0, 0x1000, [], by decide +kernel⟩⟩

/-- The hypotheses of ActivationCommandsComplete can be met. -/
theorem witness_ActivationCommandsComplete :
    (∃ (s : State) (m : Nat) (bad : Nat) (v : Word) (r : Recep), lands s Reg.UPD_CMD ∧ keyOf v = 0x75 ∧ bitsOf v 1 0 = 1 ∧ (bitAt v 8 = false ∨ s.session m = true) ∧ s.upd.recep = some r ∧ s.actState = 0 ∧ bad % 256 < 3 ∧ s.actSlot s.mem r.slot (bitAt v 8) (decide (256 ≤ bad)) = 0) ∧
    (∃ (s : State) (m : Nat) (v : Word), lands s Reg.UPD_CMD ∧ keyOf v = 0x75 ∧ bitsOf v 1 0 = 1 ∧ (bitAt v 8 = false ∨ s.session m = true) ∧ s.actState ≠ 0) ∧
    (∃ (s : State) (m : Nat) (v : Word), lands s Reg.UPD_CMD ∧ keyOf v = 0x75 ∧ bitsOf v 1 0 = 1 ∧ (bitAt v 8 = false ∨ s.session m = true) ∧ s.actState ≠ 0) ∧
    (∃ (s : State) (m : Nat) (v : Word), lands s Reg.UPD_CMD ∧ keyOf v = 0x75 ∧ bitAt v 8 = true ∧ s.session m = false) ∧
    (∃ (s : State) (m : Nat) (v : Word), lands s Reg.UPD_CMD ∧ keyOf v = 0x75 ∧ bitsOf v 1 0 = 2 ∧ (bitAt v 8 = false ∨ s.session m = true)) ∧
    (∃ (s : State) (m : Nat) (v : Word), lands s Reg.UPD_CMD ∧ keyOf v = 0x75 ∧ bitsOf v 1 0 = 2 ∧ (bitAt v 8 = false ∨ s.session m = true)) ∧
    (∃ (s : State) (v : Word), lands s Reg.UPD_CONFIRM ∧ keyOf v = 0xC5 ∧ bitAt v 0 = true ∧ s.on Fld.UPD_STAT_TRIAL = true ∧ s.selfOk = true ∧ s.power.st ≠ .holdup ∧ s.power.st ≠ .shutdownTest) ∧
    (∃ (s : State) (v : Word), lands s Reg.UPD_CONFIRM ∧ keyOf v = 0xC5 ∧ bitAt v 0 = true ∧ (s.on Fld.UPD_STAT_TRIAL = false ∨ s.selfOk = false ∨ s.power.st = .holdup ∨ s.power.st = .shutdownTest)) ∧
    (∃ (s : State) (v : Word), lands s Reg.UPD_CONFIRM ∧ keyOf v = 0xC5 ∧ bitAt v 0 = true ∧ (s.on Fld.UPD_STAT_TRIAL = false ∨ s.selfOk = false ∨ s.power.st = .holdup ∨ s.power.st = .shutdownTest)) ∧
    (∃ (s : State), s.mainOn = true ∧ s.on Fld.UPD_STAT_TRIAL = true ∧ s.get Fld.UPD_WLEFT_S = 0 ∧ s.power.st ≠ .holdup ∧ (s.billUp = false ∨ s.on Fld.RTC_STAT_OSF = true ∨ s.nearBoundary = false) ∧ s.power.pending = none) ∧
    (∃ (s : State), s.mainOn = true ∧ s.on Fld.UPD_STAT_TRIAL = true ∧ s.get Fld.UPD_WLEFT_S = 0 ∧ s.power.st = .holdup) ∧
    (∃ (s : State), s.mainOn = true ∧ (s.on Fld.UPD_STAT_TRIAL = false ∨ s.get Fld.UPD_WLEFT_S ≠ 0)) ∧
    (∃ (s : State), s.mainOn = true ∧ (s.on Fld.UPD_STAT_TRIAL = false ∨ s.get Fld.UPD_WLEFT_S ≠ 0)) ∧
    (∃ (s : State) (v : Word), lands s Reg.UPD_BATON_CTL ∧ keyOf v = 0x3B) ∧
    (∃ (s : State) (m : Nat), lands s Reg.UPD_BATON_CTL ∧ m ≠ 0) :=
  ⟨⟨received, 16, 0, 0x75000001, { recep0 with complete := true }, by unfold lands; decide +kernel⟩,
    ⟨up, 16, 0x75000001, by unfold lands; decide +kernel⟩,
    ⟨(set [(Fld.SEC_STAT_SESSION, 1), (Fld.SEC_STAT_MASTER, 16)] up), 16, 0x75000101, by unfold lands; decide +kernel⟩,
    ⟨up, 16, 0x75000101, by unfold lands; decide +kernel⟩,
    ⟨up, 16, 0x75000002, by unfold lands; decide +kernel⟩,
    ⟨(set [(Fld.SEC_STAT_SESSION, 1), (Fld.SEC_STAT_MASTER, 16)] up), 16, 0x75000102, by unfold lands; decide +kernel⟩,
    ⟨(dev (fun d => { d with upd := { d.upd with kat := 0x1FFF } }) (set [(Fld.UPD_STAT_TRIAL, 1)] up)), 0xC5000001, by unfold lands; decide +kernel⟩,
    ⟨up, 0xC5000001, by unfold lands; decide +kernel⟩,
    ⟨(set [(Fld.UPD_STAT_TRIAL, 1)] up), 0xC5000001, by unfold lands; decide +kernel⟩,
    ⟨(set [(Fld.UPD_STAT_TRIAL, 1)] up), by decide +kernel⟩,
    ⟨(set [(Fld.UPD_STAT_TRIAL, 1)] (pow (fun p => { p with st := .holdup }) up)), by decide +kernel⟩,
    ⟨up, by decide +kernel⟩,
    ⟨(set [(Fld.UPD_STAT_TRIAL, 1), (Fld.UPD_WLEFT_S, 1)] up), by decide +kernel⟩,
    ⟨up, 0x3B000002, by unfold lands; decide +kernel⟩,
    ⟨up, 16, by unfold lands; decide +kernel⟩⟩

/-- The hypotheses of SelfTestCommandsComplete can be met. -/
theorem witness_SelfTestCommandsComplete :
    (∃ (s : State), s.mainOn = true ∧ (s.bist.running = false ∨ s.bist.cooling = true) ∧ (∀ r ∈ s.bus.stalled, s.islIso (pageOf r.2) = true) ∧ (∀ x ∈ s.host.held, (16, x.1) ∈ s.bus.stalled)) ∧
    (∃ (s : State), s.mainOn = true ∧ (s.bist.running = false ∨ s.bist.cooling = true) ∧ (∀ r ∈ s.bus.stalled, s.islIso (pageOf r.2) = true) ∧ (∀ x ∈ s.host.held, (16, x.1) ∈ s.bus.stalled)) ∧
    (∃ (s : State) (k : Nat) (r : BistRec), s.mainOn = true ∧ s.bist.running = true ∧ s.bist.cooling = false ∧ s.bist.second = false ∧ s.bist.newest = some (k, r) ∧ s.bist.slice < r.ents.length ∧ s.bist.slice < s.lastSlice ∧ s.injArmed Pg.BIST s.bist.slice = false ∧ s.hottest ≤ 1600 ∧ s.fe.blocks.length = 13) ∧
    (∃ (s : State) (k : Nat) (r : BistRec), s.mainOn = true ∧ s.bist.running = true ∧ s.bist.cooling = false ∧ s.bist.second = false ∧ s.bist.newest = some (k, r) ∧ s.bist.slice < r.ents.length ∧ s.bist.slice < s.lastSlice ∧ s.injArmed Pg.BIST s.bist.slice = false ∧ s.hottest ≤ 1600 ∧ s.fe.blocks.length = 13) ∧
    (∃ (s : State) (k : Nat) (r : BistRec), s.mainOn = true ∧ s.bist.running = true ∧ s.bist.cooling = false ∧ s.bist.second = false ∧ s.bist.newest = some (k, r) ∧ s.bist.slice < r.ents.length ∧ s.injArmed Pg.BIST s.bist.slice = false) ∧
    (∃ (s : State) (k : Nat) (r : BistRec), s.mainOn = true ∧ s.bist.running = true ∧ s.bist.cooling = false ∧ s.bist.second = true ∧ s.bist.newest = some (k, r) ∧ s.bist.slice < r.ents.length ∧ s.bist.slice < s.lastSlice ∧ s.injArmed Pg.BIST s.bist.slice = false ∧ s.hottest ≤ 1600 ∧ s.fe.blocks.length = 13) ∧
    (∃ (s : State) (k : Nat) (r : BistRec), s.mainOn = true ∧ s.bist.running = true ∧ s.bist.cooling = false ∧ s.bist.second = true ∧ s.bist.newest = some (k, r) ∧ s.bist.slice < r.ents.length ∧ s.bist.slice < s.lastSlice ∧ s.injArmed Pg.BIST s.bist.slice = false ∧ s.hottest ≤ 1600 ∧ s.fe.blocks.length = 13) ∧
    (∃ (s : State) (k : Nat) (r : BistRec), s.mainOn = true ∧ s.bist.running = true ∧ s.bist.cooling = false ∧ s.bist.second = false ∧ s.bist.newest = some (k, r) ∧ s.bist.slice < r.ents.length ∧ s.lastSlice ≤ s.bist.slice ∧ s.bist.slice ≠ 14 ∧ s.injArmed Pg.BIST s.bist.slice = false) ∧
    (∃ (s : State) (k : Nat) (r : BistRec), s.mainOn = true ∧ s.bist.running = true ∧ s.bist.cooling = false ∧ s.bist.newest = some (k, r) ∧ s.bist.slice < r.ents.length ∧ s.bist.slice < s.lastSlice ∧ s.hottest ≤ 1600 ∧ s.fe.blocks.length = 13) ∧
    (∃ (s : State) (k : Nat) (r : BistRec), s.mainOn = true ∧ s.bist.running = true ∧ s.bist.cooling = true ∧ s.bist.newest = some (k, r)) ∧
    (∃ (s : State), s.mainOn = true ∧ (s.bist.running = false ∨ s.bist.cooling = false) ∧ (∀ r ∈ s.bus.stalled, s.islIso (pageOf r.2) = true) ∧ (∀ x ∈ s.host.held, (16, x.1) ∈ s.bus.stalled)) ∧
    (∃ (s : State), s.mainOn = true ∧ (s.bist.running = false ∨ s.bist.cooling = false) ∧ (∀ r ∈ s.bus.stalled, s.islIso (pageOf r.2) = true) ∧ (∀ x ∈ s.host.held, (16, x.1) ∈ s.bus.stalled)) :=
  ⟨⟨up, by decide +kernel⟩,
    ⟨(dev (fun d => { d with bist := { d.bist with running := true, slice := 0, rec0 := some {}, cooling := true } }) up), by decide +kernel⟩,
    ⟨(dev (fun d => { d with bist := { d.bist with running := true, slice := 44, rec0 := some {} } }) up), 0, {}, by decide +kernel⟩,
    ⟨(dev (fun d => { d with bist := { d.bist with running := true, slice := 14, rec0 := some {} } }) up), 0, {}, by decide +kernel⟩,
    ⟨(dev (fun d => { d with bist := { d.bist with running := true, slice := 45, rec0 := some {} } }) up), 0, {}, by decide +kernel⟩,
    ⟨(dev (fun d => { d with bist := { d.bist with running := true, slice := 44, rec0 := some {}, second := true } }) up), 0, {}, by decide +kernel⟩,
    ⟨(dev (fun d => { d with bist := { d.bist with running := true, slice := 0, rec0 := some {}, second := true } }) up), 0, {}, by decide +kernel⟩,
    ⟨(dev (fun d => { d with bist := { d.bist with running := true, slice := 45, rec0 := some {} } }) up), 0, {}, by decide +kernel⟩,
    ⟨(dev (fun d => { d with bist := { d.bist with running := true, slice := 44, rec0 := some {} } }) up), 0, {}, by decide +kernel⟩,
    ⟨(dev (fun d => { d with bist := { d.bist with running := true, slice := 45, rec0 := some {}, cooling := true } }) up), 0, {}, by decide +kernel⟩,
    ⟨up, by decide +kernel⟩,
    ⟨(dev (fun d => { d with bist := { d.bist with running := true, slice := 0, rec0 := some {} } }) up), by decide +kernel⟩⟩

/-- The hypotheses of FlashAndSplitCommandsComplete can be met. -/
theorem witness_FlashAndSplitCommandsComplete :
    (∃ (s : State) (v : Word), lands s Reg.FLASH_PCMD ∧ keyOf v = 0x8F ∧ bitsOf v 1 0 = 1 ∧ s.flashOk 1 (s.get Fld.FLASH_PADDR_ADDR) = true) ∧
    (∃ (s : State) (v : Word), lands s Reg.FLASH_PCMD ∧ keyOf v = 0x8F ∧ bitsOf v 1 0 = 2 ∧ s.flashOk 2 (s.get Fld.FLASH_PADDR_ADDR) = true) ∧
    (∃ (s : State) (v : Word), lands s Reg.FLASH_PCMD ∧ keyOf v = 0x8F ∧ s.flashOk (bitsOf v 1 0) (s.get Fld.FLASH_PADDR_ADDR) = false) ∧
    (∃ (s : State) (v : Word), lands s Reg.FLASH_PCMD ∧ keyOf v = 0x8F ∧ s.flashOk (bitsOf v 1 0) (s.get Fld.FLASH_PADDR_ADDR) = false) ∧
    (∃ (s : State) (v : Word), lands s Reg.FLASH_PCMD ∧ keyOf v = 0x8F ∧ s.flashOk (bitsOf v 1 0) (s.get Fld.FLASH_PADDR_ADDR) = false) ∧
    (∃ (s : State) (a : Nat) (data : List Byte), s.mainOn = true ∧ s.host.flashOp = some (1, a, data)) ∧
    (∃ (s : State) (ok1 : Bool) (ok2 : Bool) (a : Nat) (data : List Byte), s.mainOn = true ∧ s.host.flashOp = some (2, a, data) ∧ (ok1 = true ∨ ok2 = true)) ∧
    (∃ (s : State) (ok1 : Bool) (ok2 : Bool) (a : Nat) (data : List Byte), s.mainOn = true ∧ s.host.flashOp = some (2, a, data) ∧ (ok1 = true ∨ ok2 = true)) ∧
    (∃ (s : State) (a : Nat) (data : List Byte), s.mainOn = true ∧ s.host.flashOp = some (2, a, data)) ∧
    (∃ (s : State), s.mainOn = true ∧ s.host.flashOp = none) ∧
    (∃ (s : State) (n : Nat) (v : Word), n < 32 ∧ lands s (Reg.SPLIT_SEL n) ∧ bitsOf v 13 12 ≠ 3 ∧ codeDefined (bitsOf v 11 0) = true) ∧
    (∃ (s : State) (n : Nat) (v : Word), n < 32 ∧ lands s (Reg.SPLIT_SEL n) ∧ (bitsOf v 13 12 = 3 ∨ codeDefined (bitsOf v 11 0) = false)) ∧
    (∃ (s : State) (n : Nat) (v : Word), n < 32 ∧ lands s (Reg.SPLIT_SEL n) ∧ (bitsOf v 13 12 = 3 ∨ codeDefined (bitsOf v 11 0) = false)) ∧
    (∃ (s : State) (n : Nat), n < 32 ∧ lands s Reg.SPLIT_LATCH ∧ s.mt < 2 ^ 64) :=
  ⟨⟨(set [(Fld.FLASH_PADDR_ADDR, 0x60FFF000)] up), 0x8F000001, by unfold lands; decide +kernel⟩,
    ⟨(set [(Fld.FLASH_PADDR_ADDR, 0x60FFFF00)] up), 0x8F000002, by unfold lands; decide +kernel⟩,
    ⟨(set [(Fld.FLASH_PADDR_ADDR, 0x60BFF000)] up), 0x8F000001, by unfold lands; decide +kernel⟩,
    ⟨(set [(Fld.FLASH_PADDR_ADDR, 0x60C00080)] up), 0x8F000002, by unfold lands; decide +kernel⟩,
    ⟨(set [(Fld.FLASH_PADDR_ADDR, 0x60C00000)] up), 0x8F000003, by unfold lands; decide +kernel⟩,
    ⟨(dev (fun d => { d with host := { d.host with flashOp := some (1, 0x60C00000, List.replicate 256 0) } }) up), 0x60C00000, (List.replicate 256 0), by decide +kernel⟩,
    ⟨(dev (fun d => { d with host := { d.host with flashOp := some (2, 0x60C00000, List.replicate 256 0) } }) up), true, false, 0x60C00000, (List.replicate 256 0), by decide +kernel⟩,
    ⟨(dev (fun d => { d with host := { d.host with flashOp := some (2, 0x60C00000, List.replicate 256 0) } }) up), false, true, 0x60C00000, (List.replicate 256 0), by decide +kernel⟩,
    ⟨(dev (fun d => { d with host := { d.host with flashOp := some (2, 0x60C00000, List.replicate 256 0) } }) up), 0x60C00000, (List.replicate 256 0), by decide +kernel⟩,
    ⟨up, by decide +kernel⟩,
    ⟨up, 31, 0x80002000, by unfold lands; decide +kernel⟩,
    ⟨up, 0, 0x80003000, by unfold lands; decide +kernel⟩,
    ⟨up, 0, 0x80000FFF, by unfold lands; decide +kernel⟩,
    ⟨up, 31, by unfold lands; decide +kernel⟩⟩

/-- The hypotheses of SpiCommandsComplete can be met. -/
theorem witness_SpiCommandsComplete :
    (∃ (s : State) (crc : Bool), s.mainOn = true ∧ s.toDev.spiBegin.crcAbsent crc = true) ∧
    (∃ (s : State) (crc : Bool) (crcOk : Bool) (a : Nat) (w : Word) (d : Dev), s.mainOn = true ∧ s.toDev.spiBegin.crcAbsent crc = false ∧ s.toDev.spiBegin.crcCheck crc crcOk = (d, true) ∧ (d.busRead s.mem 16 a).2 = .word w) ∧
    (∃ (s : State) (crc : Bool) (crcOk : Bool) (a : Nat) (w : Word) (d : Dev), s.mainOn = true ∧ s.toDev.spiBegin.crcAbsent crc = false ∧ s.toDev.spiBegin.crcCheck crc crcOk = (d, true) ∧ (d.busRead s.mem 16 a).2 = .word w) ∧
    (∃ (s : State) (crc : Bool) (crcOk : Bool) (a : Nat) (d : Dev), s.mainOn = true ∧ s.toDev.spiBegin.crcAbsent crc = false ∧ s.toDev.spiBegin.crcCheck crc crcOk = (d, true) ∧ (d.busRead s.mem 16 a).2 = .stalled) ∧
    (∃ (s : State) (crc : Bool) (crcOk : Bool) (a : Nat) (len : Nat) (d : Dev) (e : Dev) (ws : List Word), s.mainOn = true ∧ s.toDev.spiBegin.crcAbsent crc = false ∧ s.toDev.spiBegin.crcCheck crc crcOk = (d, true) ∧ Dev.spiGather s.mem (burstLen len) a [] d = (e, ws, 0xA5)) ∧
    (∃ (s : State) (crc : Bool) (crcOk : Bool) (d : Dev), s.mainOn = true ∧ s.toDev.spiBegin.crcAbsent crc = false ∧ s.toDev.spiBegin.crcCheck crc crcOk = (d, false)) ∧
    (∃ (s : State) (crc : Bool) (crcOk : Bool) (a : Nat) (w : Word) (d : Dev) (r : RegRow), s.mainOn = true ∧ s.toDev.spiBegin.crcAbsent crc = false ∧ s.toDev.spiBegin.crcCheck crc crcOk = (d, true) ∧ d.writeErr 16 a 4 = none ∧ 0x40000000 ≤ a ∧ pageOf a = Pg.PLCMAC ∧ 0x40 ≤ a % 0x1000 ∧ d.islRun Pg.PLCMAC = true ∧ findRow PageKind.plcmac.rows (a % 0x1000) = some r ∧ r.key = 0 ∧ d.frozenRwl Pg.PLCMAC = false ∧ regOk .plcmac (a % 0x1000) (r.merge false (d.rd a) w) = true) ∧
    (∃ (s : State) (crc : Bool) (crcOk : Bool) (a : Nat) (kind : Nat) (d : Dev), s.mainOn = true ∧ s.toDev.spiBegin.crcAbsent crc = false ∧ s.toDev.spiBegin.crcCheck crc crcOk = (d, true) ∧ d.writeErr 16 a 4 = some kind) ∧
    (∃ (s : State) (crc : Bool) (crcOk : Bool) (a : Nat) (kind : Nat) (d : Dev), s.mainOn = true ∧ s.toDev.spiBegin.crcAbsent crc = false ∧ s.toDev.spiBegin.crcCheck crc crcOk = (d, true) ∧ d.writeErr 16 a 4 = some kind) ∧
    (∃ (s : State) (crc : Bool) (crcOk : Bool) (a : Nat) (ws : List Word) (d : Dev), s.mainOn = true ∧ s.toDev.spiBegin.crcAbsent crc = false ∧ s.toDev.spiBegin.crcCheck crc crcOk = (d, true) ∧ ws.length ≤ 256 ∧ a % 4 = 0 ∧ 0x40000000 ≤ a ∧ a + 4 * ws.length ≤ 0x4003E000) ∧
    (∃ (s : State), s.mainOn = true) ∧
    (∃ (s : State) (crc : Bool) (ws : List Word), s.mainOn = true ∧ s.toDev.spiBegin.crcAbsent crc = false ∧ (crc = true ∨ ws = [])) ∧
    (∃ (s : State) (crc : Bool) (ws : List Word), s.mainOn = true ∧ s.toDev.spiBegin.crcAbsent crc = false ∧ (crc = true ∨ ws = [])) ∧
    (∃ (s : State) (a : Nat) (ws : List Word), s.mainOn = true ∧ s.toDev.spiBegin.crcAbsent false = false ∧ ws.length ≤ 256 ∧ a % 4 = 0 ∧ 0x40000000 ≤ a ∧ a + 4 * ws.length ≤ 0x4003E000) :=
  ⟨⟨(set [(Fld.SPIH_CFG_CRCREQ, 1)] up), false, by decide +kernel⟩,
    ⟨(set [(Fld.SPIH_CFG_CRCREQ, 0)] up), false, true, Reg.SYS_CHIP_ID, 0x019200B1, (set [(Fld.SPIH_CFG_CRCREQ, 0)] up).toDev.spiBegin, by decide +kernel⟩,
    ⟨(set [(Fld.SPIH_CFG_CRCREQ, 1)] up), true, true, Reg.SYS_CHIP_ID, 0x019200B1, ((set [(Fld.SPIH_CFG_CRCREQ, 1)] up).toDev.spiBegin.crcCheck true true).1, by decide +kernel⟩,
    ⟨(set [(Fld.SPIH_CFG_CRCREQ, 0), (Fld.CLK_ISL_ISO_ISL, 0xFFFFFFFF)] up), false, true, Reg.PLCMAC_TM_CFG, (set [(Fld.SPIH_CFG_CRCREQ, 0), (Fld.CLK_ISL_ISO_ISL, 0xFFFFFFFF)] up).toDev.spiBegin, by decide +kernel⟩,
    ⟨(set [(Fld.SPIH_CFG_CRCREQ, 0)] up), false, true, Reg.SYS_CHIP_ID, 1, (set [(Fld.SPIH_CFG_CRCREQ, 0)] up).toDev.spiBegin, (Dev.spiGather (set [(Fld.SPIH_CFG_CRCREQ, 0)] up).mem 1 Reg.SYS_CHIP_ID [] (set [(Fld.SPIH_CFG_CRCREQ, 0)] up).toDev.spiBegin).1, [0x019200B1], by decide +kernel⟩,
    ⟨(set [(Fld.SPIH_CFG_CRCREQ, 1)] up), true, false, ((set [(Fld.SPIH_CFG_CRCREQ, 1)] up).toDev.spiBegin.crcCheck true false).1, by decide +kernel⟩,
    ⟨(set [(Hdr.EN Pg.PLCPHY, 1), (Hdr.EN Pg.PLCMAC, 1), (Fld.SPIH_CFG_CRCREQ, 0)] up), false, true, Reg.PLCMAC_TM_CFG, 0x00030A62, (set [(Hdr.EN Pg.PLCPHY, 1), (Hdr.EN Pg.PLCMAC, 1), (Fld.SPIH_CFG_CRCREQ, 0)] up).toDev.spiBegin, ⟨0x044, 0x4, 1, 0x00, [⟨20, 20, .rw, 0⟩, ⟨19, 16, .rw, 3⟩, ⟨12, 8, .rw, 10⟩, ⟨7, 3, .rw, 12⟩, ⟨2, 2, .rw, 0⟩, ⟨1, 0, .rw, 3⟩]⟩, by decide +kernel⟩,
    ⟨(set [(Fld.SPIH_CFG_CRCREQ, 0)] up), false, true, 0x40000001, BusKind.decode, (set [(Fld.SPIH_CFG_CRCREQ, 0)] up).toDev.spiBegin, by decide +kernel⟩,
    ⟨(set [(Fld.SPIH_CFG_CRCREQ, 1)] up), true, true, 0x10000000, BusKind.refused, ((set [(Fld.SPIH_CFG_CRCREQ, 1)] up).toDev.spiBegin.crcCheck true true).1, by decide +kernel⟩,
    ⟨(set [(Hdr.EN Pg.PLCPHY, 1), (Hdr.EN Pg.PLCMAC, 1), (Fld.SPIH_CFG_CRCREQ, 0)] up), false, true, Reg.PLCMAC_TM_CFG, [0x00030A62, 1], (set [(Hdr.EN Pg.PLCPHY, 1), (Hdr.EN Pg.PLCMAC, 1), (Fld.SPIH_CFG_CRCREQ, 0)] up).toDev.spiBegin, by decide +kernel⟩,
    ⟨up, by decide +kernel⟩,
    ⟨up, true, [1, 2], by decide +kernel⟩,
    ⟨(set [(Fld.SPIH_CFG_CRCREQ, 0)] up), false, [], by decide +kernel⟩,
    ⟨(set [(Hdr.EN Pg.PLCPHY, 1), (Hdr.EN Pg.PLCMAC, 1), (Fld.SPIH_CFG_CRCREQ, 0)] up), Reg.PLCMAC_TM_CFG, [0x00030A62], by decide +kernel⟩⟩

/-- The hypotheses of SerialAndPinCommandsComplete can be met. -/
theorem witness_SerialAndPinCommandsComplete :
    (∃ (s : State), lands s Reg.INTC_DBELL_SET) ∧
    (∃ (s : State) (u : Nat) (b : Byte), u < 2 ∧ u < s.host.uarts.length ∧ lands s (Reg.UART_DATA u) ∧ (s.uart u).tx.length < 64 ∧ (s.uart u).shift = some b) ∧
    (∃ (s : State) (u : Nat), u < 2 ∧ u < s.host.uarts.length ∧ lands s (Reg.UART_DATA u) ∧ (s.uart u).tx = [] ∧ (s.uart u).shift = none ∧ s.on (Fld.UART_CTRL_TXEN u) = true ∧ s.uartChain u = false) ∧
    (∃ (s : State) (u : Nat), u < 2 ∧ lands s (Reg.UART_DATA u) ∧ 64 ≤ (s.uart u).tx.length) ∧
    (∃ (u : Nat), 2 ≤ u) ∧
    (∃ (s : State) (u : Nat), s.mainOn = true ∧ u < 2 ∧ s.islIso (Pg.UART u) = false ∧ s.islRun (Pg.UART u) = true ∧ s.bus.posted = []) ∧
    (∃ (s : State) (u : Nat), s.mainOn = true ∧ u < 2 ∧ u < s.host.uarts.length ∧ s.on (Fld.UART_CTRL_RXEN u) = true ∧ s.uartChain u = false ∧ (s.uart u).rx.length < 64) ∧
    (∃ (s : State) (u : Nat), s.mainOn = true ∧ u < 2 ∧ s.on (Fld.UART_CTRL_RXEN u) = true ∧ s.uartChain u = false ∧ 64 ≤ (s.uart u).rx.length) ∧
    (∃ (s : State) (u : Nat), s.mainOn = true ∧ (2 ≤ u ∨ s.on (Fld.UART_CTRL_RXEN u) = false ∨ s.uartChain u = true)) ∧
    (∃ (s : State) (u : Nat), s.mainOn = true ∧ (2 ≤ u ∨ s.on (Fld.UART_CTRL_RXEN u) = false ∨ s.uartChain u = true)) ∧
    (∃ (s : State) (u : Nat), s.mainOn = true ∧ (2 ≤ u ∨ s.on (Fld.UART_CTRL_RXEN u) = false ∨ s.uartChain u = true)) ∧
    (∃ (s : State) (u : Nat) (x : Byte) (b : Byte) (r : List Byte), s.mainOn = true ∧ u < s.host.uarts.length ∧ (s.uart u).shift = some x ∧ (s.uart u).tx = b :: r ∧ s.on (Fld.UART_CTRL_TXEN u) = true ∧ s.uartChain u = false) ∧
    (∃ (s : State) (u : Nat) (x : Byte), s.mainOn = true ∧ u < s.host.uarts.length ∧ (s.uart u).shift = some x ∧ (s.uart u).tx = []) ∧
    (∃ (s : State) (u : Nat), s.mainOn = true ∧ (s.uart u).shift = none) ∧
    (∃ (s : State), s.mainOn = true ∧ (s.uartChain 1 = false ∨ s.on (Fld.UART_CTRL_RXEN 1) = false ∨ s.power.st = .holdup)) ∧
    (∃ (s : State), s.mainOn = true ∧ (s.uartChain 1 = false ∨ s.on (Fld.UART_CTRL_RXEN 1) = false ∨ s.power.st = .holdup)) ∧
    (∃ (s : State), s.mainOn = true ∧ (s.uartChain 1 = false ∨ s.on (Fld.UART_CTRL_RXEN 1) = false ∨ s.power.st = .holdup)) ∧
    (∃ (s : State) (f : List Byte), s.mainOn = true ∧ s.uartChain 1 = true ∧ s.on (Fld.UART_CTRL_RXEN 1) = true ∧ s.power.st ≠ .holdup ∧ (f.length < 11 ∨ crc32 (f.take (f.length - 4)) ≠ ofLe (f.drop (f.length - 4)))) ∧
    (∃ (s : State) (f : List Byte), s.mainOn = true ∧ s.uartChain 1 = true ∧ s.on (Fld.UART_CTRL_RXEN 1) = true ∧ s.power.st ≠ .holdup ∧ (f.length < 11 ∨ crc32 (f.take (f.length - 4)) ≠ ofLe (f.drop (f.length - 4)))) ∧
    (∃ (s : State) (f : List Byte), s.mainOn = true ∧ s.uartChain 1 = true ∧ s.on (Fld.UART_CTRL_RXEN 1) = true ∧ s.power.st ≠ .holdup ∧ 11 ≤ f.length ∧ crc32 (f.take (f.length - 4)) = ofLe (f.drop (f.length - 4)) ∧ (leAt f 2 1 ≠ 0x51 ∨ s.updServes (0x1000 + Config.headAddr % 65536) = false ∨ (leAt f 0 2 ≠ s.get (Fld.UART_CADDR_ADDR 1) ∧ leAt f 0 2 ≠ 0xFFFF ∧ s.inRecovery = false))) ∧
    (∃ (n : Nat), 16 ≤ n) ∧
    (∃ (n : Nat), n < 16) ∧
    (∃ (s : State) (n : Nat) (l : Bool), n < 16 ∧ s.mainOn = true ∧ s.gpioLevel n ≠ ({ s.toDev with pins := { s.pins with gpioIn := putBit s.pins.gpioIn n l } } : Dev).gpioLevel n ∧ natBit (s.get Fld.GPIO_EDGE_MODE / 4 ^ n % 4) (if l then 0 else 1) = true) ∧
    (∃ (s : State) (n : Nat) (l : Bool), n < 16 ∧ s.mainOn = true ∧ s.gpioLevel n ≠ ({ s.toDev with pins := { s.pins with gpioIn := putBit s.pins.gpioIn n l } } : Dev).gpioLevel n ∧ natBit (s.get Fld.GPIO_EDGE_MODE / 4 ^ n % 4) (if l then 0 else 1) = true) ∧
    (∃ (s : State) (n : Nat) (l : Bool), n < 16 ∧ (s.gpioLevel n = ({ s.toDev with pins := { s.pins with gpioIn := putBit s.pins.gpioIn n l } } : Dev).gpioLevel n ∨ natBit (s.get Fld.GPIO_EDGE_MODE / 4 ^ n % 4) (if l then 0 else 1) = false)) ∧
    (∃ (s : State) (n : Nat) (l : Bool), n < 16 ∧ (s.gpioLevel n = ({ s.toDev with pins := { s.pins with gpioIn := putBit s.pins.gpioIn n l } } : Dev).gpioLevel n ∨ natBit (s.get Fld.GPIO_EDGE_MODE / 4 ^ n % 4) (if l then 0 else 1) = false)) :=
  ⟨⟨up, by unfold lands; decide +kernel⟩,
    ⟨(dev (fun d => { d with host := { d.host with uarts := setAt d.host.uarts 1 { tx := List.replicate 63 0, shift := some 0 } } }) up), 1, 0, by unfold lands; decide +kernel⟩,
    ⟨(set [(Fld.UART_CTRL_TXEN 1, 1)] up), 1, by unfold lands; decide +kernel⟩,
    ⟨(dev (fun d => { d with host := { d.host with uarts := setAt d.host.uarts 1 { tx := List.replicate 64 0 } } }) up), 1, by unfold lands; decide +kernel⟩,
    ⟨2, by decide +kernel⟩,
    ⟨up, 1, by decide +kernel⟩,
    ⟨(dev (fun d => { d with host := { d.host with uarts := setAt d.host.uarts 1 { rx := List.replicate 63 0 } } }) (set [(Fld.UART_CTRL_RXEN 1, 1)] up)), 1, by decide +kernel⟩,
    ⟨(dev (fun d => { d with host := { d.host with uarts := setAt d.host.uarts 1 { rx := List.replicate 64 0 } } }) (set [(Fld.UART_CTRL_RXEN 1, 1)] up)), 1, by decide +kernel⟩,
    ⟨up, 2, by decide +kernel⟩,
    ⟨up, 0, by decide +kernel⟩,
    ⟨(set [(Fld.UART_CTRL_CHAIN 1, 1), (Fld.UART_CTRL_RXEN 1, 1)] up), 1, by decide +kernel⟩,
    ⟨(dev (fun d => { d with host := { d.host with uarts := setAt d.host.uarts 1 { tx := [7], shift := some 0 } } }) (set [(Fld.UART_CTRL_TXEN 1, 1)] up)), 1, 0, 7, [], by decide +kernel⟩,
    ⟨(dev (fun d => { d with host := { d.host with uarts := setAt d.host.uarts 1 { shift := some 0 } } }) up), 1, 0, by decide +kernel⟩,
    ⟨up, 1, by decide +kernel⟩,
    ⟨up, by decide +kernel⟩,
    ⟨(set [(Fld.UART_CTRL_CHAIN 1, 1)] up), by decide +kernel⟩,
    ⟨(set [(Fld.UART_CTRL_CHAIN 1, 1), (Fld.UART_CTRL_RXEN 1, 1)] (pow (fun p => { p with st := .holdup }) up)), by decide +kernel⟩,
    ⟨(set [(Fld.UART_CTRL_CHAIN 1, 1), (Fld.UART_CTRL_RXEN 1, 1)] up), (List.replicate 10 0), by decide +kernel⟩,
    ⟨(set [(Fld.UART_CTRL_CHAIN 1, 1), (Fld.UART_CTRL_RXEN 1, 1)] up), (List.replicate 11 0), by decide +kernel⟩,
    ⟨(set [(Fld.UART_CTRL_CHAIN 1, 1), (Fld.UART_CTRL_RXEN 1, 1)] up), (List.replicate 7 0 ++ leBytes 4 (crc32 (List.replicate 7 0))), by decide +kernel⟩,
    ⟨16, by decide +kernel⟩,
    ⟨15, by decide +kernel⟩,
    ⟨(set [(Fld.GPIO_EDGE_MODE, 1 * 4 ^ 15)] up), 15, true, by decide +kernel⟩,
    ⟨(dev (fun d => { d with pins := { d.pins with gpioIn := 1 } }) (set [(Fld.GPIO_EDGE_MODE, 2)] up)), 0, false, by decide +kernel⟩,
    ⟨up, 15, false, by decide +kernel⟩,
    ⟨up, 15, true, by decide +kernel⟩⟩

/-- The hypotheses of EthernetCommandsComplete can be met. -/
theorem witness_EthernetCommandsComplete :
    (∃ (s : State) (v : Word), lands s Reg.ETH_TXKICK ∧ bitAt v 0 = true ∧ s.ethOn = true ∧ s.on Fld.ETH_CTRL_TXEN = true ∧ s.host.ethOut = none ∧ s.host.ethPause = none ∧ 0 < (s.rd Reg.ETH_TXRING).toNat / 2 ^ 24 ∧ bitAt (ethDesc s.mem (s.rd Reg.ETH_TXRING).toNat s.host.txIdx).1 31 = true) ∧
    (∃ (s : State) (v : Word), lands s Reg.ETH_TXKICK ∧ bitAt v 0 = true ∧ s.ethOn = true ∧ s.on Fld.ETH_CTRL_TXEN = true ∧ s.host.ethOut = none ∧ s.host.ethPause.isSome = true ∧ 0 < (s.rd Reg.ETH_TXRING).toNat / 2 ^ 24 ∧ bitAt (ethDesc s.mem (s.rd Reg.ETH_TXRING).toNat s.host.txIdx).1 31 = true) ∧
    (∃ (s : State) (v : Word), lands s Reg.ETH_TXKICK ∧ (bitAt v 0 = false ∨ s.ethOn = false ∨ s.on Fld.ETH_CTRL_TXEN = false ∨ s.host.ethOut.isSome = true)) ∧
    (∃ (s : State) (v : Word), lands s Reg.ETH_TXKICK ∧ (bitAt v 0 = false ∨ s.ethOn = false ∨ s.on Fld.ETH_CTRL_TXEN = false ∨ s.host.ethOut.isSome = true)) ∧
    (∃ (s : State) (v : Word), lands s Reg.ETH_TXKICK ∧ (bitAt v 0 = false ∨ s.ethOn = false ∨ s.on Fld.ETH_CTRL_TXEN = false ∨ s.host.ethOut.isSome = true)) ∧
    (∃ (s : State) (v : Word), lands s Reg.ETH_TXKICK ∧ (bitAt v 0 = false ∨ s.ethOn = false ∨ s.on Fld.ETH_CTRL_TXEN = false ∨ s.host.ethOut.isSome = true)) ∧
    (∃ (s : State) (f : List Byte), s.mainOn = true ∧ s.ethOn = true ∧ s.host.ethOut = some f) ∧
    (∃ (s : State) (f : List Byte), s.mainOn = true ∧ s.ethOn = true ∧ s.host.ethOut = some f) ∧
    (∃ (s : State), s.mainOn = true ∧ (s.ethOn = false ∨ s.host.ethOut = none)) ∧
    (∃ (s : State), s.mainOn = true ∧ (s.ethOn = false ∨ s.host.ethOut = none)) ∧
    (∃ (s : State) (f : List Byte), s.mainOn = true ∧ (pauseQuanta f = none ∨ s.on Fld.ETH_CTRL_PAUSE = false) ∧ (s.ethOn = false ∨ s.on Fld.ETH_CTRL_RXEN = false ∨ s.ethAccepts (slice f 0 6) = false)) ∧
    (∃ (s : State) (f : List Byte), s.mainOn = true ∧ (pauseQuanta f = none ∨ s.on Fld.ETH_CTRL_PAUSE = false) ∧ (s.ethOn = false ∨ s.on Fld.ETH_CTRL_RXEN = false ∨ s.ethAccepts (slice f 0 6) = false)) ∧
    (∃ (s : State) (f : List Byte), s.mainOn = true ∧ (pauseQuanta f = none ∨ s.on Fld.ETH_CTRL_PAUSE = false) ∧ (s.ethOn = false ∨ s.on Fld.ETH_CTRL_RXEN = false ∨ s.ethAccepts (slice f 0 6) = false)) ∧
    (∃ (s : State) (f : List Byte), s.mainOn = true ∧ (pauseQuanta f = none ∨ s.on Fld.ETH_CTRL_PAUSE = false) ∧ (s.ethOn = false ∨ s.on Fld.ETH_CTRL_RXEN = false ∨ s.ethAccepts (slice f 0 6) = false)) ∧
    (∃ (s : State) (f : List Byte), s.mainOn = true ∧ (pauseQuanta f = none ∨ s.on Fld.ETH_CTRL_PAUSE = false) ∧ s.ethOn = true ∧ s.on Fld.ETH_CTRL_RXEN = true ∧ s.ethAccepts (slice f 0 6) = true ∧ (f.length < 64 ∨ 1522 < f.length)) ∧
    (∃ (s : State) (f : List Byte), s.mainOn = true ∧ (pauseQuanta f = none ∨ s.on Fld.ETH_CTRL_PAUSE = false) ∧ s.ethOn = true ∧ s.on Fld.ETH_CTRL_RXEN = true ∧ s.ethAccepts (slice f 0 6) = true ∧ (f.length < 64 ∨ 1522 < f.length)) ∧
    (∃ (s : State) (f : List Byte), s.mainOn = true ∧ (pauseQuanta f = none ∨ s.on Fld.ETH_CTRL_PAUSE = false) ∧ s.ethOn = true ∧ s.on Fld.ETH_CTRL_RXEN = true ∧ s.ethAccepts (slice f 0 6) = true ∧ 64 ≤ f.length ∧ f.length ≤ 1522 ∧ ((s.rd Reg.ETH_RXRING).toNat / 2 ^ 24 = 0 ∨ bitAt (ethDesc s.mem (s.rd Reg.ETH_RXRING).toNat s.host.rxIdx).1 31 = false)) ∧
    (∃ (s : State) (f : List Byte), s.mainOn = true ∧ (pauseQuanta f = none ∨ s.on Fld.ETH_CTRL_PAUSE = false) ∧ s.ethOn = true ∧ s.on Fld.ETH_CTRL_RXEN = true ∧ s.ethAccepts (slice f 0 6) = true ∧ 64 ≤ f.length ∧ f.length ≤ 1522 ∧ ((s.rd Reg.ETH_RXRING).toNat / 2 ^ 24 = 0 ∨ bitAt (ethDesc s.mem (s.rd Reg.ETH_RXRING).toNat s.host.rxIdx).1 31 = false)) ∧
    (∃ (s : State) (f : List Byte), s.mainOn = true ∧ (pauseQuanta f = none ∨ s.on Fld.ETH_CTRL_PAUSE = false) ∧ s.ethOn = true ∧ s.on Fld.ETH_CTRL_RXEN = true ∧ s.ethAccepts (slice f 0 6) = true ∧ 64 ≤ f.length ∧ f.length ≤ 1522 ∧ 0 < (s.rd Reg.ETH_RXRING).toNat / 2 ^ 24 ∧ bitAt (ethDesc s.mem (s.rd Reg.ETH_RXRING).toNat s.host.rxIdx).1 31 = true) ∧
    (∃ (s : State) (f : List Byte), s.mainOn = true ∧ (pauseQuanta f = none ∨ s.on Fld.ETH_CTRL_PAUSE = false) ∧ s.ethOn = true ∧ s.on Fld.ETH_CTRL_RXEN = true ∧ s.ethAccepts (slice f 0 6) = true ∧ 64 ≤ f.length ∧ f.length ≤ 1522 ∧ 0 < (s.rd Reg.ETH_RXRING).toNat / 2 ^ 24 ∧ bitAt (ethDesc s.mem (s.rd Reg.ETH_RXRING).toNat s.host.rxIdx).1 31 = true) ∧
    (∃ (s : State) (f : List Byte) (q : Nat), s.mainOn = true ∧ s.ethOn = true ∧ s.on Fld.ETH_CTRL_RXEN = true ∧ s.on Fld.ETH_CTRL_PAUSE = true ∧ pauseQuanta f = some q ∧ 0 < q) ∧
    (∃ (s : State), lands s Reg.ETH_MDIO ∧ s.host.mdio = false) ∧
    (∃ (s : State), lands s Reg.ETH_MDIO ∧ s.host.mdio = true) ∧
    (∃ (s : State) (data : Nat), s.mainOn = true ∧ s.host.mdio = true ∧ data < 2 ^ 16) ∧
    (∃ (s : State), s.mainOn = true ∧ s.host.mdio = false) :=
  ⟨⟨(ring0 Reg.ETH_TXRING 0x80 (set [(Fld.ETH_CTRL_TXEN, 1)] up)), 1, by unfold lands; decide +kernel⟩,
    ⟨(dev (fun d => { d with host := { d.host with ethPause := some 7 } }) (ring0 Reg.ETH_TXRING 0x80 (set [(Fld.ETH_CTRL_TXEN, 1)] up))), 1, by unfold lands; decide +kernel⟩,
    ⟨(ring0 Reg.ETH_TXRING 0x80 (set [(Fld.ETH_CTRL_TXEN, 1)] up)), 0, by unfold lands; decide +kernel⟩,
    ⟨(set [(Fld.ETH_CTRL_TXEN, 1)] (pow (fun p => { p with st := .quiet }) up)), 1, by unfold lands; decide +kernel⟩,
    ⟨up, 1, by unfold lands; decide +kernel⟩,
    ⟨(dev (fun d => { d with host := { d.host with ethOut := some [] } }) (set [(Fld.ETH_CTRL_TXEN, 1)] up)), 1, by unfold lands; decide +kernel⟩,
    ⟨(dev (fun d => { d with host := { d.host with ethOut := some [] } }) (ring0 Reg.ETH_TXRING 0x80 (set [(Fld.ETH_CTRL_TXEN, 1)] up))), [], by decide +kernel⟩,
    ⟨(dev (fun d => { d with host := { d.host with ethOut := some [] } }) (ring0 Reg.ETH_TXRING 0x80 (set [(Fld.ETH_CTRL_TXEN, 1), (Fld.ETH_CTRL_FDX, 1)] up))), [], by decide +kernel⟩,
    ⟨up, by decide +kernel⟩,
    ⟨(pow (fun p => { p with st := .quiet }) up), by decide +kernel⟩,
    ⟨up, [], by decide +kernel⟩,
    ⟨(pow (fun p => { p with st := .quiet }) up), [], by decide +kernel⟩,
    ⟨(set [(Fld.ETH_CTRL_RXEN, 1), (Fld.ETH_CTRL_PROMISC, 0)] up), [1], by decide +kernel⟩,
    ⟨(set [(Fld.ETH_CTRL_RXEN, 1), (Fld.ETH_CTRL_PROMISC, 0)] up), (List.replicate 1 1 ++ [0x80, 0xC2, 0, 0, 1] ++ List.replicate 6 0 ++ [0x88, 8, 0, 1, 0, 5] ++ List.replicate 46 0), by decide +kernel⟩,
    ⟨(set [(Fld.ETH_CTRL_RXEN, 1), (Fld.ETH_CTRL_PROMISC, 1)] up), (List.replicate 63 0), by decide +kernel⟩,
    ⟨(set [(Fld.ETH_CTRL_RXEN, 1), (Fld.ETH_CTRL_PROMISC, 1)] up), (List.replicate 1523 0), by decide +kernel⟩,
    ⟨(set [(Fld.ETH_CTRL_RXEN, 1), (Fld.ETH_CTRL_PROMISC, 1)] up), (List.replicate 64 0), by decide +kernel⟩,
    ⟨(ring0 Reg.ETH_RXRING 0 (set [(Fld.ETH_CTRL_RXEN, 1), (Fld.ETH_CTRL_PROMISC, 1)] up)), (List.replicate 1522 0), by decide +kernel⟩,
    ⟨(ring0 Reg.ETH_RXRING 0x80 (set [(Fld.ETH_CTRL_RXEN, 1), (Fld.ETH_CTRL_PROMISC, 1)] up)), (List.replicate 64 0), by decide +kernel⟩,
    ⟨(ring0 Reg.ETH_RXRING 0x80 (set [(Fld.ETH_CTRL_RXEN, 1), (Fld.ETH_CTRL_PROMISC, 1)] up)), (List.replicate 1522 0), by decide +kernel⟩,
    ⟨(set [(Fld.ETH_CTRL_RXEN, 1), (Fld.ETH_CTRL_PROMISC, 1), (Fld.ETH_CTRL_PAUSE, 1)] up), (List.replicate 1 1 ++ [0x80, 0xC2, 0, 0, 1] ++ List.replicate 6 0 ++ [0x88, 8, 0, 1, 0, 5] ++ List.replicate 46 0), 5, by decide +kernel⟩,
    ⟨up, by unfold lands; decide +kernel⟩,
    ⟨(dev (fun d => { d with host := { d.host with mdio := true } }) up), by unfold lands; decide +kernel⟩,
    ⟨(dev (fun d => { d with host := { d.host with mdio := true } }) up), 65535, by decide +kernel⟩,
    ⟨up, by decide +kernel⟩⟩

/-- The hypotheses of DebugCommandsComplete can be met. -/
theorem witness_DebugCommandsComplete :
    (∃ (s : State), s.mainOn = true ∧ s.host.dbgen = false) ∧
    (∃ (s : State), s.mainOn = true ∧ s.host.dbgen = true) ∧
    (∃ (s : State) (a : Nat), s.mainOn = true ∧ s.host.dbgen = true ∧ (a % 128 ≠ 0x3C ∨ bitAt (s.dm 0x38) 15 = false)) ∧
    (∃ (s : State) (a : Nat), s.mainOn = true ∧ s.host.dbgen = true ∧ (a % 128 ≠ 0x3C ∨ bitAt (s.dm 0x38) 15 = false)) ∧
    (∃ (s : State) (a : Nat), s.mainOn = true ∧ s.host.dbgen = true ∧ a < 128 ∧ a ∉ [0x10, 0x11, 0x17, 0x38, 0x39, 0x3C, 0x40]) ∧
    (∃ (s : State) (a : Nat), s.mainOn = true ∧ s.host.dbgen = true ∧ a < 128 ∧ a ∉ [0x10, 0x11, 0x17, 0x38, 0x39, 0x3C, 0x40]) ∧
    (∃ (s : State) (v : Word), s.mainOn = true ∧ s.host.dbgen = true ∧ bitAt v 0 = true ∧ bitAt v 31 = true ∧ s.haltDenied (bitsOf v 25 16 + bitsOf v 15 6 * 1024) = true) ∧
    (∃ (s : State) (v : Word), s.mainOn = true ∧ s.host.dbgen = true ∧ bitAt v 0 = true ∧ bitAt v 31 = true ∧ s.haltDenied (bitsOf v 25 16 + bitsOf v 15 6 * 1024) = true) ∧
    (∃ (s : State) (v : Word) (h : Nat), s.mainOn = true ∧ s.host.dbgen = true ∧ bitAt v 0 = true ∧ bitAt v 31 = true ∧ h = bitsOf v 25 16 + bitsOf v 15 6 * 1024 ∧ h < 16 ∧ s.haltDenied h = false ∧ s.released h = true) ∧
    (∃ (s : State) (v : Word) (h : Nat), s.mainOn = true ∧ s.host.dbgen = true ∧ bitAt v 0 = true ∧ bitAt v 31 = true ∧ h = bitsOf v 25 16 + bitsOf v 15 6 * 1024 ∧ h < 16 ∧ s.haltDenied h = false ∧ s.released h = true) ∧
    (∃ (s : State) (a : Nat), s.mainOn = true ∧ s.host.dbgen = true ∧ bitsOf (s.dm 0x38) 14 12 = 0 ∧ bitsOf (s.dm 0x38) 19 17 = 2 ∧ a = (s.dm 0x39).toNat ∧ s.writeErr 17 a 4 = none ∧ (¬ (0x40000000 ≤ a ∧ a < 0x40040000))) ∧
    (∃ (s : State), s.mainOn = true) :=
  ⟨⟨up, by decide +kernel⟩,
    ⟨(dev (fun d => { d with host := { d.host with dbgen := true } }) up), by decide +kernel⟩,
    ⟨(dev (fun d => { d with host := { d.host with dbgen := true } }) up), 0x3D, by decide +kernel⟩,
    ⟨(dev (fun d => { d with host := { d.host with dbgen := true } }) up), 0x3C, by decide +kernel⟩,
    ⟨(dev (fun d => { d with host := { d.host with dbgen := true } }) up), 127, by decide +kernel⟩,
    ⟨(dev (fun d => { d with host := { d.host with dbgen := true } }) up), 0, by decide +kernel⟩,
    ⟨(dev (fun d => { d with host := { d.host with dbgen := true } }) up), 0x80010001, by decide +kernel⟩,
    ⟨(dev (fun d => { d with host := { d.host with dbgen := true } }) up), 0x800F0001, by decide +kernel⟩,
    ⟨(dev (fun d => { d with host := { d.host with dbgen := true } }) (set [(Fld.UPD_ENG_RUN, 12)] up)), 0x80030001, 3, by decide +kernel⟩,
    ⟨(dev (fun d => { d with host := { d.host with dbgen := true } }) (set [(Fld.UPD_ENG_RUN, 1)] up)), 0x80000001, 0, by decide +kernel⟩,
    ⟨(dev (fun d => { d with host := { d.host with dbgen := true, dmi := [(0x38, 0x00040000), (0x39, 0x10000000)] } }) up), 0x10000000, by decide +kernel⟩,
    ⟨up, by decide +kernel⟩⟩

/-- The hypotheses of StepRunsFront can be met. -/
theorem witness_StepRunsFront :
    (∃ (c : Instr) (r : List Instr) (s : State), s.pending = c :: r) :=
  ⟨.xtalOk, [.gunInput], { up with pending := [.xtalOk, .gunInput] }, by decide +kernel⟩

/-- The hypotheses of IdleStepTicks can be met. -/
theorem witness_IdleStepTicks :
    (∃ (s : State), s.pending = [] ∧ (s.mainOn = true)) ∧
    (∃ (s : State), s.pending = [] ∧ (s.mainOn = false)) ∧
    (∃ (s : State), s.pending = [] ∧ (s.mainOn = true ∧ s.host.ethPause = some 1)) ∧
    (∃ (s : State), s.pending = [] ∧ (s.mainOn = true ∧ (∃ l ∈ s.clk.loading, l.endMt ≤ 1))) ∧
    (∃ (s : State), s.pending = [] ∧ (s.mainOn = true ∧ s.bist.stimMt = some 1 ∧ s.bist.slice < 13)) ∧
    (∃ (s : State), s.pending = [] ∧ (s.mainOn = true ∧ s.pins.btn0 = true ∧ s.pins.btn1 = true)) ∧
    (∃ (s : State), s.pending = [] ∧ (s.mainOn = true ∧ s.upd.floorGo = some 1)) ∧
    (∃ (s : State), s.pending = [] ∧ (s.mainOn = true ∧ s.plc.planNext.isSome = true ∧ s.plc.txTo ≤ 1)) ∧
    (∃ (s : State), s.pending = [] ∧ (s.mainOn = true ∧ (∃ a ∈ s.plc.arriving, a.endMt ≤ 1))) :=
  ⟨⟨up, by decide +kernel⟩,
    ⟨(pow (fun p => { p with st := .backupOnly }) up), by decide +kernel⟩,
    ⟨(dev (fun d => { d with host := { d.host with ethPause := some 1 } }) up), by decide +kernel⟩,
    ⟨(dev (fun d => { d with clk := { d.clk with loading := [⟨0, 0, 1, false, true⟩] } }) up), by decide +kernel⟩,
    ⟨(dev (fun d => { d with bist := { d.bist with slice := 12, stimMt := some 1 } }) up), by decide +kernel⟩,
    ⟨(dev (fun d => { d with pins := { d.pins with btn0 := true, btn1 := true, btn0End := 1, btn1End := 2 } }) up), by decide +kernel⟩,
    ⟨(dev (fun d => { d with upd := { d.upd with floorGo := some 1 } }) up), by decide +kernel⟩,
    ⟨(dev (fun d => { d with plc := { d.plc with planNext := some ([], 0), txTo := 1 } }) up), by decide +kernel⟩,
    ⟨(dev (fun d => { d with plc := { d.plc with arriving := [⟨{}, [], [], 1, false⟩] } }) up), by decide +kernel⟩⟩

/-- The hypotheses of CommandsNeedTheMainDomain can be met. -/
theorem witness_CommandsNeedTheMainDomain :
    (∃ (c : Instr) (s : State), withoutMain c = false ∧ s.mainOn = false) :=
  ⟨.gunInput, State.reset, by decide +kernel⟩

/-- The hypotheses of WritesToStoppedIslandsWait can be met. -/
theorem witness_WritesToStoppedIslandsWait :
    (∃ (c : Instr) (s : State) (m : Nat) (a : Nat) (v : Word), writeOf c = some (m, a, v) ∧ s.mainOn = true ∧ s.islRun (pageOf a) = false) :=
  ⟨(.rselWrite 16 11 5), up, 16, Reg.HEAT_RSEL 11, 5, by decide +kernel⟩

/-- The hypotheses of WrongKeyIsIgnored can be met. -/
theorem witness_WrongKeyIsIgnored :
    (∃ (c : Instr) (s : State) (m : Nat) (a : Nat) (k : Nat) (v : Word), writeOf c = some (m, a, v) ∧ keyAt a = some k ∧ lands s a ∧ keyOf v ≠ k) :=
  ⟨(.gunFire 16 0x46000001), up, 16, Reg.SYS_GUN, 0x47, 0x46000001, by unfold lands; decide +kernel⟩

/-- The hypotheses of RaisingAnEvent can be met. -/
theorem witness_RaisingAnEvent :
    (∃ (s : Dev) (p : Nat) (no : Nat), s.mainOn = true ∧ p < 64 ∧ no < 32) ∧
    (∃ (m : Regs) (e : Event) (n : Nat), n < 32 ∧ Regs.get m (Hdr.EN Pg.SPLIT) = 1 ∧ Regs.splitWraps m e = false) ∧
    (∃ (m : Regs) (n : Nat), n < 32 ∧ Regs.get m (Hdr.EN Pg.SPLIT) ≠ 1) ∧
    (∃ (s : Dev), s.mainOn = false) :=
  ⟨⟨up.toDev, 63, 31, by decide +kernel⟩,
    ⟨[], { code := 5 }, 31, by decide +kernel⟩,
    ⟨[(pageBase Pg.SPLIT + 8, 0)], 31, by decide +kernel⟩,
    ⟨State.reset.toDev, by decide +kernel⟩⟩

/-- The hypotheses of WarmResetKeepsAndClears can be met. -/
theorem witness_WarmResetKeepsAndClears :
    (∃ (s : State), regsOk s) :=
  ⟨up, by unfold regsOk; decide +kernel⟩

/-- The hypotheses of ClearNeverLosesAnEvent can be met. -/
theorem witness_ClearNeverLosesAnEvent :
    (∃ (s : Dev) (p : Nat) (no : Nat), s.mainOn = true ∧ p < 64 ∧ no < 32) :=
  ⟨up.toDev, 63, 31, by decide +kernel⟩

/-- The hypotheses of MisalignedAccessDecodes can be met. -/
theorem witness_MisalignedAccessDecodes :
    (∃ (s : State) (a : Nat) (size : Nat), s.mainOn = true ∧ (a % size ≠ 0 ∨ (0x40000000 ≤ a ∧ a < 0x40040000 ∧ size ≠ 4))) ∧
    (∃ (s : State) (a : Nat) (size : Nat), s.mainOn = true ∧ (a % size ≠ 0 ∨ (0x40000000 ≤ a ∧ a < 0x40040000 ∧ size ≠ 4))) ∧
    (∃ (a : Nat), a % 4 ≠ 0) ∧
    (∃ (s : Dev) (n : Nat) (a : Nat), bitsOf (s.dm 0x38) 14 12 = 0 ∧ bitsOf (s.dm 0x38) 19 17 = n ∧ n < 3 ∧ a = (s.dm 0x39).toNat ∧ (a % 2 ^ n ≠ 0 ∨ (n < 2 ∧ 0x40000000 ≤ a ∧ a < 0x40040000))) :=
  ⟨⟨up, 0x10000002, 4, by decide +kernel⟩,
    ⟨up, 0x40000040, 2, by decide +kernel⟩,
    ⟨0x40000041, by decide +kernel⟩,
    ⟨(dev (fun d => { d with host := { d.host with dmi := [(0x38, 0x00020000), (0x39, 0x10000001)] } }) up).toDev, 1, 0x10000001, by decide +kernel⟩⟩

/-- The hypotheses of DoorbellIsPending can be met. -/
theorem witness_DoorbellIsPending :
    (∃ (s : State), lands s Reg.INTC_DBELL_SET) :=
  ⟨up, by unfold lands; decide +kernel⟩

/-- The hypotheses of TestPinHoldsReset can be met. -/
theorem witness_TestPinHoldsReset :
    (∃ (s : State) (mv : Nat), s.power.st = .reset ∧ s.clk.xtal = true ∧ s.releasable mv = true) ∧
    (∃ (s : State), s.power.st = .reset ∧ s.clk.xtal = true ∧ s.power.hold = .overtemp) :=
  ⟨⟨State.reset, 12000, by decide +kernel⟩,
    ⟨(pow (fun p => { p with st := .reset, hold := .overtemp }) up), by decide +kernel⟩⟩

/-- The hypotheses of SetAbandonsShift can be met. -/
theorem witness_SetAbandonsShift :
    (∃ (s : State) (v : Word), lands s Reg.RTC_CMD ∧ keyOf v = 0x2B ∧ bitsOf v 2 0 = 1 ∧ s.power.st ≠ .holdup ∧ s.power.st ≠ .shutdownTest ∧ (dateOf (s.rd Reg.RTC_SET_LO) (s.rd Reg.RTC_SET_HI)).valid = true ∧ s.on Fld.RTC_STAT_SHIFT_BUSY = true) :=
  ⟨(set [(Fld.RTC_STAT_SHIFT_BUSY, 1)] (regs [(Reg.RTC_SET_LO, 0x077DFFFF), (Reg.RTC_SET_HI, 0x142E8017)] up)), 0x2B000001, by unfold lands; decide +kernel⟩

/-- The hypotheses of BadPodIdsAreCounted can be met. -/
theorem witness_BadPodIdsAreCounted :
    (∃ (wire : Nat) (l : List PodIn), wire < 12 ∧ l ≠ [] ∧ (let bad := fun (k : Nat) => ∃ i ∈ l.take 17, (podBadAt i k).isSome = true; ¬ bad 0)) ∧
    (∃ (wire : Nat) (l : List PodIn), wire < 12 ∧ l ≠ [] ∧ (let bad := fun (k : Nat) => ∃ i ∈ l.take 17, (podBadAt i k).isSome = true; bad 0 ∧ ¬ bad 1)) ∧
    (∃ (wire : Nat) (l : List PodIn), wire < 12 ∧ l ≠ [] ∧ (let bad := fun (k : Nat) => ∃ i ∈ l.take 17, (podBadAt i k).isSome = true; bad 0 ∧ bad 1)) ∧
    (∃ (s : State) (wire : Nat) (found : List PodIn), s.mainOn = true ∧ wire < 12 ∧ natBit (s.get Fld.EYE_CTRL_HEATS) wire = true ∧ s.eyeMay = true ∧ (let d : Dev := { s.toDev with eye := { s.eye with txs := [], left := if s.eye.left = 0 then s.get Fld.EYE_CTRL_HEATS else s.eye.left } }; let r := d.enumWire wire (enumSort found); r.2 = true)) ∧
    (∃ (s : State) (wire : Nat) (found : List PodIn), s.mainOn = true ∧ wire < 12 ∧ natBit (s.get Fld.EYE_CTRL_HEATS) wire = true ∧ s.eyeMay = true ∧ (let d : Dev := { s.toDev with eye := { s.eye with txs := [], left := if s.eye.left = 0 then s.get Fld.EYE_CTRL_HEATS else s.eye.left } }; let r := d.enumWire wire (enumSort found); r.2 = false ∧ s.eye.xfer = none)) :=
  ⟨⟨11, [{ id := podId0, mem := [] }], by decide +kernel⟩,
    ⟨11, [{ id := podId0, mem := [], badIds := [1] }], by decide +kernel⟩,
    ⟨11, [{ id := 0, mem := [] }], by decide +kernel⟩,
    ⟨(set [(Fld.EYE_CTRL_HEATS, 0x800)] up), 11, [{ id := podId0, mem := [], badIds := [1] }], by decide +kernel⟩,
    ⟨(set [(Fld.EYE_CTRL_HEATS, 0x800)] up), 11, [{ id := 0, mem := [] }], by decide +kernel⟩⟩

/-- A table image that is accepted. -/
theorem witness_TableAcceptedIff :
    ∃ (mem : List Host.Cell) (addr : Nat) (k : TblSpec), (tblCheck mem addr k).1 = 0 ∧ (tblCheck mem addr k).2.count = 1 :=
  ⟨(tbl Fld.PLCPHY_BP_SRC_ADDR 5 8 [[100, 0, 100, 0, 0, 0, 0, 0]] up).mem, 0x60C00000, ⟨5, 8, 0x1000, true, false, fun _ => true⟩, by decide +kernel⟩

/-- A step that stores to memory, from a state in canonical form. -/
theorem witness_MemoryStaysCanonical :
    ∃ s t : State, memOk s ∧ step s = .next t ∧ t.mem ≠ [] :=
  ⟨storing, landed storing (step storing), by unfold memOk; decide +kernel, next_landed _ _ (by decide +kernel), by decide +kernel⟩

/-- A step that writes a register, from a state in canonical form. -/
theorem witness_RegistersStayCanonical :
    ∃ s t : State, regsOk s ∧ step s = .next t ∧ t.rd Reg.INTC_DBELL = 5 :=
  ⟨ringing, landed ringing (step ringing), by unfold regsOk; decide +kernel, next_landed _ _ (by decide +kernel), by decide +kernel⟩

/-- A step from a state whose one-time memory holds something. -/
theorem witness_FusesNeverClear :
    ∃ s t : State, step s = .next t ∧ natBit s.otp.fused 99 = true ∧ s.otp.sealPerm = true ∧ s.otp.oroot = some [] :=
  ⟨burnt, landed burnt (step burnt), next_landed _ _ (by decide +kernel), by decide +kernel⟩

/-- A command that stores nothing. -/
theorem witness_OnlyStoresChangeMemory :
    ∃ (c : Instr) (s t : State), stores c = false ∧ exec c s = .next t :=
  ⟨.doorbellSet 16 5, up, landed up (exec (.doorbellSet 16 5) up), by decide, next_landed _ _ (by decide +kernel)⟩

/-- A sum that stays below 2^64 mWh, in the last quantity and tariff. -/
theorem witness_EnergyIsConserved :
    ∃ (p : Bp) (q e t : Nat), q < p.rem.length ∧ t < 8 ∧ q * 8 + t < p.mwh.length ∧ nth p.mwh (q * 8 + t) 0 + (p.add q e t).2 < 2 ^ 64 :=
  ⟨{}, 9, 2 ^ 62, 7, by decide +kernel⟩

/-- Each clause about links: the lowest and the highest rates, and one between. -/
theorem witness_LinkCostRule :
    (∃ k, 0 < k ∧ linkCost k ≠ 1 ∧ linkCost k ≠ 65535) ∧ (∃ k, 0 < k ∧ linkCost k = 1) ∧ ∃ k, 0 < k ∧ linkCost k = 65535 :=
  ⟨⟨63, by decide⟩, ⟨4096000, by decide⟩, ⟨1, by decide⟩⟩

/-- Carriers at the edges of the thresholds, a channel that loads 32 carriers or more, and one that does not. -/
theorem witness_CarrierLoadingRule :
    (∃ (snr : Int) (rate margin c : Nat), rate < 4 ∧ 1 ≤ c ∧ c ≤ 6 ∧ codeFor snr rate margin = c) ∧
    (∃ (s : Dev) (snrs : List Int), 32 ≤ ((loaded s snrs).filter (0 < ·)).length) ∧ ∃ (s : Dev) (snrs : List Int), ((loaded s snrs).filter (0 < ·)).length < 32 :=
  ⟨⟨130, 3, 0, 6, by decide +kernel⟩, ⟨up.toDev, List.replicate 60 200, many_spec _ _ (by decide +kernel)⟩, up.toDev, [], few_spec _ _ (by decide +kernel)⟩

set_option maxRecDepth 100000 in
/-- A map that is accepted. -/
theorem witness_CarrierLoadingRule_map : ∃ (s : Dev) (m : TMap) (raw : List Byte), s.mapOk m raw = true ∧ m.codes.length ≤ 1567 :=
  ⟨up.toDev, map0, map0.bytes, by decide +kernel⟩

/-- A command of each of the four families. -/
theorem witness_FamiliesKeepApart :
    (∃ (c : Instr) (s t : State), exec c s = .next t ∧ lineFamily c = true) ∧ (∃ (c : Instr) (s t : State), exec c s = .next t ∧ serialFamily c = true) ∧
    (∃ (c : Instr) (s t : State), exec c s = .next t ∧ keyFamily c = true) ∧ ∃ (c : Instr) (s t : State), exec c s = .next t ∧ bundleFamily c = true :=
  ⟨⟨.ackTimeout, up, landed up (exec .ackTimeout up), next_landed _ _ (by decide +kernel), by decide⟩, ⟨.doorbellSet 16 5, up, landed up (exec (.doorbellSet 16 5) up), next_landed _ _ (by decide +kernel), by decide⟩, ⟨.sessionExpiry, up, landed up (exec .sessionExpiry up), next_landed _ _ (by decide +kernel), by decide⟩, ⟨.needRetryTimer, up, landed up (exec .needRetryTimer up), next_landed _ _ (by decide +kernel), by decide⟩⟩

/-- An update frame to all that the engine takes. -/
theorem witness_SerialAndPinCommandsComplete_chain :
    ∃ (s : State) (f : List Byte), s.mainOn = true ∧ s.uartChain 1 = true ∧ s.on (Fld.UART_CTRL_RXEN 1) = true ∧ s.power.st ≠ .holdup ∧ 11 ≤ f.length ∧ crc32 (f.take (f.length - 4)) = ofLe (f.drop (f.length - 4)) ∧
      leAt f 2 1 = 0x51 ∧ s.updServes (0x1000 + Config.headAddr % 65536) = true ∧ leAt f 0 2 = 0xFFFF :=
  ⟨set [(Fld.UART_CTRL_CHAIN 1, 1), (Fld.UART_CTRL_RXEN 1, 1), (Fld.UPD_ENG_RUN, 8), (Fld.UPD_SRC_CHAIN, 1)] up, let f : List Byte := [255, 255, 0x51, 0, 0, 0, 0]; f ++ leBytes 4 (crc32 f),
    by decide +kernel, by decide +kernel, by decide +kernel, by decide +kernel, by decide +kernel, by decide +kernel, by decide +kernel,
    by unfold Dev.updServes; rw [if_pos (Nat.le_add_right _ _)]; decide +kernel, by decide +kernel⟩

end Sys2Proof.Tests
end

/-! ### TEST_N (R21) -/

namespace Sys2Proof.Machine

open Sys2Proof.Safety

/-- With TEST_N low a release only notes the pin and, where nothing else holds the device, what holds it now (R21). -/
theorem State.start_testN_low (s : State) (boot1 boot0 : Bool) (vsupMv bad : Nat) :
    s.start boot1 boot0 false vsupMv bad =
      { s with toDev := s.toDev.powUpd fun (w : Power) => { w with testN := false, hold := if w.hold == .none then .testN else w.hold } } := rfl

theorem exec_internalResetRelease (boot1 boot0 testN : Bool) (vsupMv bad : Nat) (s : State) (hst : s.power.st = .reset) (hx : s.clk.xtal = true)
    (hr : s.releasable vsupMv = true) :
    exec (.internalResetRelease boot1 boot0 testN vsupMv bad) s = .next (s.start boot1 boot0 testN vsupMv bad) := by
  simp only [exec, execInternalResetRelease, hst, hx, hr, and_self, if_true]

theorem exec_overtempRelease (boot1 boot0 testN : Bool) (vsupMv bad : Nat) (s : State) (hst : s.power.st = .reset) (hx : s.clk.xtal = true)
    (hh : s.power.hold = .overtemp) :
    exec (.overtempRelease boot1 boot0 testN vsupMv bad) s = .next (s.start boot1 boot0 testN vsupMv bad) := by
  simp only [exec, execOvertempRelease, hst, hx, hh, and_self, if_true]

/-- Released with TEST_N low, a device in reset stays there, its registers as they were. -/
theorem State.start_testN_low_stays (s : State) (boot1 boot0 : Bool) (vsupMv bad : Nat) (hst : s.power.st = .reset) :
    let t := s.start boot1 boot0 false vsupMv bad
    keepsQueue s t ∧ t.power.st = .reset ∧ t.regs = s.regs := by
  rw [State.start_testN_low]
  exact ⟨⟨rfl, rfl⟩, hst, rfl⟩

end Sys2Proof.Machine

namespace Sys2Proof.Certificates

open Sys2Proof Sys2Proof.Machine Sys2Proof.Safety

/-- Settles O58: both releases run the start, which with TEST_N low keeps the device in reset. -/
theorem testPinHoldsReset : Obligations.TestPinHoldsReset := by
  unfold Obligations.TestPinHoldsReset
  refine ⟨fun s b1 b0 mv bad hst hx hr => ?_, fun s b1 b0 mv bad hst hx hh => ?_⟩
  · exact ⟨_, exec_internalResetRelease b1 b0 false mv bad s hst hx hr, s.start_testN_low_stays b1 b0 mv bad hst⟩
  · exact ⟨_, exec_overtempRelease b1 b0 false mv bad s hst hx hh, s.start_testN_low_stays b1 b0 mv bad hst⟩

end Sys2Proof.Certificates

/-! ### What the shared operations leave of `power` (R52): one lemma per function -/

namespace Sys2Proof.Machine

open Sys2Proof.Safety

/-- A choice between two devices with one power state. -/
@[simp] theorem Dev.ite_power (c : Prop) [Decidable c] (s t : Dev) : (if c then s else t).power = if c then s.power else t.power :=
  apply_ite Dev.power c s t

/-- What every step of a fold keeps of `power`, the fold keeps. -/
theorem Dev.foldl_power {α : Type} (f : Dev → α → Dev) (h : ∀ s x, (f s x).power = s.power) (l : List α) (s : Dev) : (l.foldl f s).power = s.power :=
  foldl_keep Dev.power f h l s

theorem Dev.forN_power (f : Dev → Nat → Dev) (h : ∀ s x, (f s x).power = s.power) (n : Nat) (s : Dev) : (forN n s f).power = s.power :=
  forN_keep Dev.power f h n s

@[simp] theorem Dev.raiseItem_power (s : Dev) (p no item : Nat) : (s.raiseItem p no item).power = s.power := Dev.raiseEv_power ..
@[simp] theorem Dev.raiseBp_power (s : Dev) (p no b : Nat) : (s.raiseBp p no b).power = s.power := Dev.raiseEv_power ..
@[simp] theorem Dev.raise0_power (s : Dev) (e : Event) (live : Bool) : (s.raise0 e live).power = s.power := (Dev.raise0_eventsOnly ..).power
@[simp] theorem Dev.capStat_power (s : Dev) : s.capStat.power = s.power := (Dev.capStat_eventsOnly s).power
@[simp] theorem Dev.capture_power (s : Dev) (e : Event) : (s.capture e).power = s.power := (Dev.capture_eventsOnly ..).power
@[simp] theorem Dev.driveAlarm_power (s : Dev) : s.driveAlarm.power = s.power := rfl

/-- The main domain is up or not by the power state alone (R52). -/
theorem Dev.mainOn_congr {s t : Dev} (h : t.power.st = s.power.st) : t.mainOn = s.mainOn := by simp only [Dev.mainOn, h]

/-! ### Measurements, alarms, fuses and tests that a reset or a warning ends -/

@[simp] theorem Dev.rateVoid_power (s : Dev) : s.rateVoid.power = s.power := by
  unfold Dev.rateVoid; split <;> simp

@[simp] theorem Dev.almLost_power (s : Dev) : s.almLost.power = s.power := by
  simp only [Dev.almLost, Dev.rtcUpd_power]
  exact Dev.foldl_power _ (fun t a => by simp) _ _

@[simp] theorem Dev.fuseStop_power (s : Dev) : s.fuseStop.power = s.power := by
  simp [Dev.fuseStop, Dev.fuseBlow]

@[simp] theorem Dev.floorStop_power (s : Dev) : s.floorStop.power = s.power := by
  unfold Dev.floorStop
  split
  · rfl
  · simp [Dev.floorBlow]

@[simp] theorem Dev.bistShow_power (s : Dev) : s.bistShow.power = s.power := by
  unfold Dev.bistShow; split <;> simp

@[simp] theorem Dev.bistRec_power (s : Dev) (f : BistRec → BistRec) : (s.bistRec f).power = s.power := by
  unfold Dev.bistRec; split <;> simp

@[simp] theorem Dev.bistEnt_power (s : Dev) (n : Nat) (f : SliceEnt → SliceEnt) : (s.bistEnt n f).power = s.power := s.bistRec_power _

@[simp] theorem Dev.bistAbandon_power (s : Dev) : s.bistAbandon.power = s.power := by
  simp [Dev.bistAbandon, Dev.bistOff]

@[simp] theorem Dev.haltEnd_power (s : Dev) (h : Nat) : (s.haltEnd h).power = s.power := by
  unfold Dev.haltEnd; split <;> simp

@[simp] theorem Dev.haltsEnd_power (s : Dev) : s.haltsEnd.power = s.power := Dev.foldl_power _ Dev.haltEnd_power _ _

@[simp] theorem Dev.mainClear_power (s : Dev) (mask : Nat → Nat) (warm lost : Bool) : (s.mainClear mask warm lost).power = s.power := rfl

end Sys2Proof.Machine

/-! ### The backup switch and the backup domain (R30, R31, R350) -/

namespace Sys2Proof.Machine

open Sys2Proof.Safety

/-- Meter time, MRAM, OTP, the key store and the clock are as before. -/
def Dev.storesKept (s t : Dev) : Prop := t.mt = s.mt ∧ t.mram = s.mram ∧ t.otp = s.otp ∧ t.sec = s.sec ∧ t.rtc = s.rtc

theorem Dev.storesKept_refl (s : Dev) : s.storesKept s := ⟨rfl, rfl, rfl, rfl, rfl⟩

/-- A move is reported at once where the main domain runs, and owed where it does not. -/
theorem Dev.switchTo_cases (s : Dev) (vbat : Bool) :
    s.switchTo vbat = ((s.setB Fld.RTC_VBAT_ON_VBAT vbat).bump Fld.RTC_VBAT_SWITCHES).raise Pg.RTC 10 ∨
    s.switchTo vbat = ((s.setB Fld.RTC_VBAT_ON_VBAT vbat).bump Fld.RTC_VBAT_SWITCHES).powUpd fun (w : Power) => { w with swOwed := w.swOwed + 1 } := by
  unfold Dev.switchTo
  dsimp only
  split
  · exact .inl rfl
  · exact .inr rfl

theorem Dev.switchTo_rd (s : Dev) (vbat : Bool) (a : Nat) (h : eventReg a = false) :
    (s.switchTo vbat).rd a = ((s.setB Fld.RTC_VBAT_ON_VBAT vbat).bump Fld.RTC_VBAT_SWITCHES).rd a := by
  rcases s.switchTo_cases vbat with e | e <;> rw [e]
  · exact Dev.rd_raise _ _ _ _ h
  · rfl

theorem Dev.switchTo_rd_ne (s : Dev) (vbat : Bool) (a : Nat) (ha : a ≠ Reg.RTC_VBAT) (h : eventReg a = false) : (s.switchTo vbat).rd a = s.rd a := by
  rw [s.switchTo_rd vbat a h, Dev.rd_bump_ne ha, Dev.rd_setB_ne ha]

@[simp] theorem Dev.switchTo_on_vbat (s : Dev) (vbat : Bool) : (s.switchTo vbat).on Fld.RTC_VBAT_ON_VBAT = vbat := by
  rw [Dev.on_congr (s.switchTo_rd vbat Reg.RTC_VBAT (by decide)), Dev.on_bump_apart _ _ _ rfl rfl rfl, Dev.on_setB_same _ _ _ rfl]

/-- A move is counted up to 255. -/
theorem Dev.switchTo_switches (s : Dev) (vbat : Bool) (h : s.get Fld.RTC_VBAT_SWITCHES < 255) :
    (s.switchTo vbat).get Fld.RTC_VBAT_SWITCHES = s.get Fld.RTC_VBAT_SWITCHES + 1 := by
  rw [Dev.get_congr (s.switchTo_rd vbat Reg.RTC_VBAT (by decide)), Dev.get_bump _ _ rfl, Dev.get_setB_apart _ _ _ _ rfl rfl rfl]
  exact if_pos (Nat.succ_lt_succ h)

theorem Dev.switchTo_keeps (s : Dev) (vbat : Bool) : s.storesKept (s.switchTo vbat) := by
  rcases s.switchTo_cases vbat with e | e <;> rw [e] <;> simp [Dev.storesKept]

/-- Of the power state a move changes the owed reports alone. -/
theorem Dev.switchTo_power (s : Dev) (vbat : Bool) : (s.switchTo vbat).power = { s.power with swOwed := (s.switchTo vbat).power.swOwed } := by
  rcases s.switchTo_cases vbat with e | e <;> rw [e] <;> simp

theorem Dev.onBattery_keeps (s : Dev) : s.storesKept s.onBattery := by
  unfold Dev.onBattery
  split
  · exact s.switchTo_keeps true
  · exact s.storesKept_refl

theorem Dev.onBattery_power (s : Dev) : s.onBattery.power = { s.power with swOwed := s.onBattery.power.swOwed } := by
  unfold Dev.onBattery
  split
  · exact s.switchTo_power true
  · rfl

/-- A comparison moves the switch exactly to where the supplies say (R30). -/
theorem Dev.switchEval_eq (s : Dev) (v3v3 vbat : Nat) :
    let p := s.powUpd fun (w : Power) => { w with v3v3Mv := v3v3, vbatMv := vbat }
    let side := if s.on Fld.RTC_VBAT_ON_VBAT then !decide (2850 < v3v3 ∧ vbat + 100 < v3v3) else decide (v3v3 < 2700 ∨ v3v3 + 50 < vbat)
    s.switchEval v3v3 vbat = if side = s.on Fld.RTC_VBAT_ON_VBAT then p else p.switchTo side := by
  dsimp only
  unfold Dev.switchEval
  cases s.on Fld.RTC_VBAT_ON_VBAT
  · by_cases h : v3v3 < 2700 ∨ v3v3 + 50 < vbat <;> simp [h]
  · by_cases h : 2850 < v3v3 ∧ vbat + 100 < v3v3 <;> simp [h]

/-- The seed of a lace register is a nonzero number of 15 bits (R323). -/
theorem lfsrSeed_range (seed n : Nat) : 0 < lfsrSeed seed n ∧ lfsrSeed seed n < 2 ^ 15 := by
  unfold lfsrSeed
  split <;> omega

/-- A backup domain that powers up shows OSF. -/
theorem Dev.bkpUp_osf (s : Dev) (seed : Nat) : (s.bkpUp seed).on Fld.RTC_STAT_OSF = true := Dev.on_set_one s.bkpGone _ rfl

/-! ### The loss of the main domain (R53) -/

/-- With no fuse being programmed there is nothing to stop. -/
theorem Dev.fuseStop_idle (s : Dev) (h : s.sec.fusing = []) : s.fuseStop = s := by
  simp [Dev.fuseStop, h]

theorem Dev.rateVoid_keeps (s : Dev) : s.rateVoid.mram = s.mram ∧ s.rateVoid.otp = s.otp ∧ s.rateVoid.sec = s.sec := by
  unfold Dev.rateVoid; split <;> simp

theorem Dev.almLost_keeps (s : Dev) : s.almLost.mram = s.mram ∧ s.almLost.otp = s.otp ∧ s.almLost.sec = s.sec := by
  refine ⟨?_, ?_, ?_⟩
  · exact foldl_keep Dev.mram _ (fun t a => by simp) _ _
  · exact foldl_keep Dev.otp _ (fun t a => by simp) _ _
  · exact foldl_keep Dev.sec _ (fun t a => by simp) _ _

theorem Dev.fuseStop_keeps (s : Dev) : s.fuseStop.mram = s.mram ∧ s.fuseStop.sec.okey = s.sec.okey := by
  unfold Dev.fuseStop
  dsimp only
  split
  · exact ⟨rfl, rfl⟩
  · split <;> exact ⟨rfl, rfl⟩

theorem Dev.bistShow_keeps (s : Dev) : s.bistShow.mram = s.mram ∧ s.bistShow.otp = s.otp ∧ s.bistShow.sec = s.sec := by
  unfold Dev.bistShow; split <;> simp

theorem Dev.bistRec_keeps (s : Dev) (f : BistRec → BistRec) :
    (s.bistRec f).mram = s.mram ∧ (s.bistRec f).otp = s.otp ∧ (s.bistRec f).sec = s.sec := by
  unfold Dev.bistRec
  split
  · exact Dev.bistShow_keeps _
  · exact Dev.bistShow_keeps _
  · exact ⟨rfl, rfl, rfl⟩

theorem Dev.bistAbandon_keeps (s : Dev) :
    s.bistAbandon.mram = s.mram ∧ s.bistAbandon.otp = s.otp ∧ s.bistAbandon.sec = s.sec := by
  unfold Dev.bistAbandon
  split
  · simp [Dev.bistOff, Dev.bistEnt, Dev.bistRec_keeps]
  · exact ⟨rfl, rfl, rfl⟩

/-- What the endings of a main domain that stops leave: MRAM, the owner key, and OTP where no fuse was being programmed. -/
theorem Dev.stopped_keeps (s : Dev) :
    let t := s.rateVoid.almLost.fuseStop.bistAbandon
    t.mram = s.mram ∧ t.sec.okey = s.sec.okey ∧ (s.sec.fusing = [] → t.otp = s.otp) := by
  dsimp only
  obtain ⟨rm, ro, rs⟩ := s.rateVoid_keeps
  obtain ⟨am, ao, as⟩ := s.rateVoid.almLost_keeps
  obtain ⟨fm, fk⟩ := s.rateVoid.almLost.fuseStop_keeps
  obtain ⟨bm, bo, bs⟩ := s.rateVoid.almLost.fuseStop.bistAbandon_keeps
  refine ⟨bm.trans (fm.trans (am.trans rm)), by rw [bs, fk, as, rs], fun h => ?_⟩
  have hf : s.rateVoid.almLost.sec.fusing = [] := by rw [as, rs, h]
  rw [bo, Dev.fuseStop_idle _ hf, ao, ro]

end Sys2Proof.Machine

/-! ### Supply commands (R30, R31, R53) -/

namespace Sys2Proof.Machine

open Sys2Proof.Safety

/-- The lockout of a powered device (R53): the main domain's state is lost, MRAM, the owner key and OTP stay. -/
theorem Dev.mainLost_spec (s : Dev) :
    s.mainLost.power.st = .backupOnly ∧ s.mainLost.mainOn = false ∧ s.mainLost.mt = 0 ∧ s.mainLost.mram = s.mram ∧
      (s.sec.fusing = [] → s.mainLost.otp = s.otp) ∧ s.mainLost.sec.okey = s.sec.okey := by
  obtain ⟨hmram, hokey, hotp⟩ := s.stopped_keeps
  unfold Dev.mainLost
  set c := ((s.rateVoid.almLost.fuseStop.bistAbandon).mainClear bkpMask false true).powUpd
    fun (w : Power) => { st := .backupOnly, bkpAlive := w.bkpAlive, bkpLost := w.bkpLost, swOwed := w.swOwed, v3v3Mv := 0, vbatMv := w.vbatMv } with hc
  obtain ⟨bmt, bmram, botp, bsec, -⟩ := c.onBattery_keeps
  have hst : c.onBattery.power.st = .backupOnly := by rw [c.onBattery_power]; rfl
  refine ⟨hst, ?_, bmt, bmram.trans hmram, fun h => botp.trans (hotp h), ?_⟩
  · simp only [Dev.mainOn, hst]
  · rw [bsec]; exact hokey

/-- A comparison of the supplies (R30): what it notes, where the switch stands after it, and what it leaves. -/
theorem Dev.switchEval_spec (s : Dev) (v3v3 vbat : Nat) :
    let t := s.switchEval v3v3 vbat
    t.power.v3v3Mv = v3v3 ∧ t.power.vbatMv = vbat ∧
    t.on Fld.RTC_VBAT_ON_VBAT = (if s.on Fld.RTC_VBAT_ON_VBAT then !decide (2850 < v3v3 ∧ vbat + 100 < v3v3) else decide (v3v3 < 2700 ∨ v3v3 + 50 < vbat)) ∧
    (t.on Fld.RTC_VBAT_ON_VBAT ≠ s.on Fld.RTC_VBAT_ON_VBAT → s.get Fld.RTC_VBAT_SWITCHES < 255 → t.get Fld.RTC_VBAT_SWITCHES = s.get Fld.RTC_VBAT_SWITCHES + 1) ∧
    (∀ a, a ≠ Reg.RTC_VBAT → eventReg a = false → t.rd a = s.rd a) ∧ s.storesKept t := by
  dsimp only
  rw [s.switchEval_eq v3v3 vbat]
  set side := if s.on Fld.RTC_VBAT_ON_VBAT then !decide (2850 < v3v3 ∧ vbat + 100 < v3v3) else decide (v3v3 < 2700 ∨ v3v3 + 50 < vbat)
  set p := s.powUpd fun (w : Power) => { w with v3v3Mv := v3v3, vbatMv := vbat }
  split
  · rename_i stays
    exact ⟨rfl, rfl, stays.symm, fun moved => absurd rfl moved, fun _ _ _ => rfl, s.storesKept_refl⟩
  · refine ⟨?_, ?_, p.switchTo_on_vbat side, fun _ => p.switchTo_switches side, p.switchTo_rd_ne side, p.switchTo_keeps side⟩
    · rw [p.switchTo_power]; rfl
    · rw [p.switchTo_power]; rfl

/-- VSUP rises in BACKUP ONLY with the crystal valid: the device as the start finds it (R30, R55). -/
def Dev.vsupBack (s : Dev) : Dev := (s.onBattery.set Fld.SYS_RST_CAUSE_MAINPOR 1).powUpd fun (w : Power) => { w with st := .reset, offMt := 0 }

theorem Dev.vsupBack_power (s : Dev) :
    s.vsupBack.power.st = .reset ∧ s.vsupBack.power.hold = s.power.hold ∧ s.vsupBack.power.lost = s.power.lost ∧ s.vsupBack.power.por = s.power.por := by
  unfold Dev.vsupBack
  rw [Dev.powUpd_power, Dev.set_power, Dev.onBattery_power]
  exact ⟨rfl, rfl, rfl, rfl⟩

theorem exec_vsupRiseStart (s : State) (boot1 boot0 testN : Bool) (vsupMv bad : Nat) (hst : s.power.st = .backupOnly) (hx : s.clk.xtal = true) :
    exec (.vsupRiseStart boot1 boot0 testN vsupMv bad) s = .next (State.start { s with toDev := s.toDev.vsupBack } boot1 boot0 testN vsupMv bad) := by
  simp only [exec, execVsupRiseStart, hst, hx, if_true]
  rfl

end Sys2Proof.Machine

/-! ### The start sequence up to the choice of the slot (R55) -/

namespace Sys2Proof.Machine

open Sys2Proof.Safety

theorem Dev.startPower_power (s : Dev) (vsupMv : Nat) :
    (s.startPower vsupMv).power = { s.power with st := .start, hold := .none, pending := none, also := [], startFrom := none, startStep := 4, before := .start, byOvertemp := false, commitSkipped := false, shutStage := 0, vsupMv := vsupMv } := by
  simp [Dev.startPower]

@[simp] theorem Dev.stagingLost_power (s : Dev) : s.stagingLost.power = s.power := rfl

theorem Dev.startOwed_power (s : Dev) : s.startOwed.power = { s.power with swOwed := 0 } := by
  simp only [Dev.startOwed, Dev.ite_power, Dev.set_power, ite_self]
  rw [Dev.forN_power _ (fun t _ => Dev.raise_power t Pg.RTC 10), Dev.powUpd_power, Dev.foldl_power _ fun t e => Dev.raiseEv_power t e true]

@[simp] theorem Dev.tblReject_power (s : Dev) (a reason : Nat) : (s.tblReject a reason).power = s.power := by simp only [Dev.tblReject, Dev.set_power]
@[simp] theorem Dev.tblShow_power (s : Dev) (a : Nat) (i : TblImage) : (s.tblShow a i).power = s.power := by simp only [Dev.tblShow, Dev.set_power]

@[simp] theorem Dev.bootSeal_power (s : Dev) : s.bootSeal.power = s.power := by
  unfold Dev.bootSeal; split <;> simp

@[simp] theorem Dev.tempLoad_power (s : Dev) (mem : List Host.Cell) (src : Nat) (locked : Bool) : (s.tempLoad mem src locked).power = s.power := by
  simp [Dev.tempLoad]

@[simp] theorem Dev.unwrapOne_power (s : Dev) (slot : Nat) (rcd okey : List Byte) : (s.unwrapOne slot rcd okey).power = s.power := by
  unfold Dev.unwrapOne
  split
  · rfl
  · split <;> simp only [Dev.raise_power]

@[simp] theorem Dev.unwrapKeys_power (s : Dev) : s.unwrapKeys.power = s.power := by
  unfold Dev.unwrapKeys
  split
  · rfl
  · rw [Dev.unwrapOne_power, Dev.unwrapOne_power]

@[simp] theorem Dev.bootRom_power (s : Dev) (mem : List Host.Cell) : (s.bootRom mem).power = s.power := by
  simp [Dev.bootRom]

/-! ### The choice of the slot (R446, R447) -/

@[simp] theorem Dev.bootPut_power (s : Dev) (r : BootRec) : (s.bootPut r).power = s.power := by
  unfold Dev.bootPut; split <;> rfl

@[simp] theorem Dev.recepShow_power (s : Dev) : s.recepShow.power = s.power := by
  unfold Dev.recepShow
  dsimp only
  split <;> simp

@[simp] theorem Dev.bootShow_power (s : Dev) (r : BootRec) : (s.bootShow r).power = s.power := by
  simp [Dev.bootShow]

@[simp] theorem Dev.fallBack_power (s : Dev) (r : BootRec) (cause : Nat) : (s.fallBack r cause).1.power = s.power := by
  simp [Dev.fallBack]

@[simp] theorem Dev.bootTrial_power (s : Dev) (r : BootRec) (good : Bool) : (s.bootTrial r good).1.power = s.power := by
  unfold Dev.bootTrial
  split_ifs <;> simp

@[simp] theorem Dev.bootOther_power (s : Dev) (r : BootRec) (good : Bool) : (s.bootOther r good).1.power = s.power := by
  unfold Dev.bootOther
  split <;> simp

@[simp] theorem Dev.bootVerify_power (s : Dev) (r : BootRec) (good other : Bool) : (s.bootVerify r good other).1.power = s.power := by
  unfold Dev.bootVerify
  dsimp only
  split_ifs <;> simp

@[simp] theorem Dev.bootSelect_power (s : Dev) (mem : List Host.Cell) (boot1 boot0 : Bool) (bad : Nat) :
    (s.bootSelect mem boot1 boot0 bad).1.power = s.power := by
  unfold Dev.bootSelect
  dsimp only
  cases boot0 <;> cases boot1 <;> cases s.upd.bootNow <;> simp <;> split <;> simp

/-- With BOOT0 high the boot ROM chooses no slot (R446). -/
theorem Dev.bootSelect_boot0 (s : Dev) (mem : List Host.Cell) (boot1 : Bool) (bad : Nat) : (s.bootSelect mem boot1 true bad).2 = none := rfl

/-! ### The outcomes of a start with TEST_N high (R55, R446) -/

/-- BOOT1 and BOOT0 as the start takes them: sampled after a main power-on or a fall of RESET_N, else as last sampled (R22). -/
def State.straps (s : State) (boot1 boot0 : Bool) : Bool × Bool :=
  if s.power.por || s.power.pinLow then (boot1, boot0) else (s.power.boot1, s.power.boot0)

/-- The device when the boot ROM chooses the slot: steps 2 to 4 of R55 and step 1 of R447 are done. -/
def State.atBootRom (s : State) (straps : Bool × Bool) (vsupMv : Nat) : Dev :=
  let d0 := (s.toDev.powUpd fun (w : Power) => { w with boot1 := straps.1, boot0 := straps.2, testN := true, por := false, pinLow := false }).startPower vsupMv
  let d1 := if s.power.lost then (d0.stagingLost).powUpd fun (w : Power) => { w with lost := false } else d0
  ((d1.set Fld.RTC_VBAT_MV 0).startOwed).bootRom (memWipe s.mem s.power.lost)

/-- The boot ROM's choice at a start. -/
def State.slotChosen (s : State) (boot1 boot0 : Bool) (vsupMv bad : Nat) : Dev × Option Nat :=
  let b := s.straps boot1 boot0
  (s.atBootRom b vsupMv).bootSelect (memWipe s.mem s.power.lost) b.1 b.2 bad

/-- No slot chosen: recovery, over the memory that the reset left. -/
theorem State.start_recovery (s : State) (boot1 boot0 : Bool) (vsupMv bad : Nat) (h : (s.slotChosen boot1 boot0 vsupMv bad).2 = none) :
    s.start boot1 boot0 true vsupMv bad =
      { s with toDev := (s.slotChosen boot1 boot0 vsupMv bad).1.recovery, mem := memWipe s.mem s.power.lost } := by
  unfold State.slotChosen State.straps State.atBootRom at h ⊢
  unfold State.start
  rw [if_neg (by decide)]
  dsimp only at h ⊢
  cases hs : s.power.por || s.power.pinLow <;> simp only [hs, if_true, Bool.false_eq_true, if_false] at h ⊢ <;> rw [h]

/-- A slot chosen: its sections are copied, the engines run and billing recovers. -/
theorem State.start_slot (s : State) (boot1 boot0 : Bool) (vsupMv bad k : Nat) (h : (s.slotChosen boot1 boot0 vsupMv bad).2 = some k) :
    s.start boot1 boot0 true vsupMv bad =
      { s with
        toDev := ((((s.slotChosen boot1 boot0 vsupMv bad).1.engines).startBilling (memWipe s.mem s.power.lost) s.power.hold).floorStart (memWipe s.mem s.power.lost)).startPath
        mem := memLoad (memWipe s.mem s.power.lost) k sectWindows } := by
  unfold State.slotChosen State.straps State.atBootRom at h ⊢
  unfold State.start
  rw [if_neg (by decide)]
  dsimp only at h ⊢
  cases hs : s.power.por || s.power.pinLow <;> simp only [hs, if_true, Bool.false_eq_true, if_false] at h ⊢ <;> rw [h]

/-- When the slot is chosen the main domain is in START and nothing holds it. -/
theorem State.slotChosen_power (s : State) (boot1 boot0 : Bool) (vsupMv bad : Nat) :
    (s.slotChosen boot1 boot0 vsupMv bad).1.power.st = .start ∧ (s.slotChosen boot1 boot0 vsupMv bad).1.power.hold = .none := by
  unfold State.slotChosen State.atBootRom
  dsimp only
  rw [Dev.bootSelect_power, Dev.bootRom_power, Dev.startOwed_power, Dev.set_power, Dev.ite_power, Dev.powUpd_power, Dev.stagingLost_power, Dev.startPower_power]
  split <;> exact ⟨rfl, rfl⟩

end Sys2Proof.Machine

/-! ### Recovery (R446) and the settlement of the supply commands -/

namespace Sys2Proof.Machine

open Sys2Proof.Safety

@[simp] theorem Dev.get_powUpd (s : Dev) (f : Power → Power) (fld : Field) : (s.powUpd f).get fld = s.get fld := rfl
@[simp] theorem Dev.on_powUpd (s : Dev) (f : Power → Power) (fld : Field) : (s.powUpd f).on fld = s.on fld := rfl
@[simp] theorem Dev.get_updUpd (s : Dev) (f : Upd → Upd) (fld : Field) : (s.updUpd f).get fld = s.get fld := rfl

/-- Recovery changes of the power state the note of a lost backup domain alone. -/
theorem Dev.recovery_power (s : Dev) : s.recovery.power = { s.power with bkpLost := false } := by
  simp only [Dev.recovery, Dev.powUpd_power, Dev.set_power, Dev.updUpd_power, Dev.ite_power, Dev.journal_power, ite_self]

/-- In recovery the Starter alone runs (R446). -/
theorem Dev.recovery_engines (s : Dev) : s.recovery.get Fld.UPD_ENG_RUN = 1 := by
  unfold Dev.recovery
  rw [Dev.get_powUpd, Dev.get_set_apart _ _ _ _ rfl rfl rfl, Dev.get_set_apart _ _ _ _ rfl rfl rfl, Dev.get_set_apart _ _ _ _ rfl rfl rfl,
    Dev.get_set_apart _ _ _ _ rfl rfl rfl, Dev.get_updUpd, Dev.get_set_lt _ _ _ rfl (by decide)]

/-- In recovery UART1 takes chain frames (R446). -/
theorem Dev.recovery_chain (s : Dev) : s.recovery.on (Fld.UART_CTRL_CHAIN 1) = true := by
  unfold Dev.recovery
  rw [Dev.on_powUpd, Dev.on_set_one _ _ rfl]

/-- After a power-on with BOOT0 high the device is in recovery (R22, R446). -/
theorem State.start_boot0 (s : State) (boot1 : Bool) (vsupMv bad : Nat) (hpor : s.power.por = true) :
    s.start boot1 true true vsupMv bad =
      { s with toDev := (s.slotChosen boot1 true vsupMv bad).1.recovery, mem := memWipe s.mem s.power.lost } := by
  refine s.start_recovery boot1 true vsupMv bad ?_
  simp only [State.slotChosen, State.straps, hpor, Bool.true_or, if_true, Dev.bootSelect_boot0]

end Sys2Proof.Machine

namespace Sys2Proof.Certificates

open Sys2Proof Sys2Proof.Machine Sys2Proof.Safety

theorem undervoltageLockout_completes (s : State) (h : s.mainPower = true) : completes .undervoltageLockout s fun t =>
    keepsQueue s t ∧ t.power.st = .backupOnly ∧ t.mainOn = false ∧ t.mt = 0 ∧ t.mram = s.mram ∧ (s.sec.fusing = [] → t.otp = s.otp) ∧
      t.sec.okey = s.sec.okey := by
  have hexec : exec .undervoltageLockout s = .next { s with toDev := s.toDev.mainLost } := by
    show execUndervoltageLockout s = _
    simp only [execUndervoltageLockout, act_eq, h, if_true]
  exact ⟨_, hexec, ⟨rfl, rfl⟩, s.toDev.mainLost_spec⟩

theorem backupSwitchTransition_completes (s : State) (v3 vb : Nat) (h : s.power.bkpAlive = true) : completes (.backupSwitchTransition v3 vb) s fun t =>
    keepsQueue s t ∧ t.power.v3v3Mv = v3 ∧ t.power.vbatMv = vb ∧
    t.on Fld.RTC_VBAT_ON_VBAT = (if s.on Fld.RTC_VBAT_ON_VBAT then !decide (2850 < v3 ∧ vb + 100 < v3) else decide (v3 < 2700 ∨ v3 + 50 < vb)) ∧
    (t.on Fld.RTC_VBAT_ON_VBAT ≠ s.on Fld.RTC_VBAT_ON_VBAT → s.get Fld.RTC_VBAT_SWITCHES < 255 → t.get Fld.RTC_VBAT_SWITCHES = s.get Fld.RTC_VBAT_SWITCHES + 1) ∧
    (∀ a, a ≠ Reg.RTC_VBAT → eventReg a = false → t.rd a = s.rd a) ∧ t.rtc = s.rtc ∧ t.sec = s.sec ∧ t.mram = s.mram := by
  have hexec : exec (.backupSwitchTransition v3 vb) s = .next { s with toDev := s.toDev.switchEval v3 vb } := by
    show execBackupSwitchTransition v3 vb s = _
    simp only [execBackupSwitchTransition, act_eq, h, if_true]
  obtain ⟨hv3, hvb, hon, hcount, hrd, -, hmram, -, hsec, hrtc⟩ := s.toDev.switchEval_spec v3 vb
  exact ⟨_, hexec, ⟨rfl, rfl⟩, hv3, hvb, hon, hcount, hrd, hrtc, hsec, hmram⟩

theorem backupDomainPowerUp_completes (s : State) (seed : Nat) (h : s.power.bkpAlive = false) : completes (.backupDomainPowerUp seed) s fun t =>
    keepsQueue s t ∧ t.power.bkpAlive = true ∧ t.power.bkpLost = true ∧ t.on Fld.RTC_STAT_OSF = true ∧ t.sec.okey = none ∧
    t.tamp.lfsr.length = 4 ∧ (∀ x ∈ t.tamp.lfsr, 0 < x ∧ x < 2 ^ 15) ∧ t.mram = s.mram ∧ t.otp = s.otp := by
  have hexec : exec (.backupDomainPowerUp seed) s = .next { s with toDev := s.toDev.bkpUp seed } := by
    show execBackupDomainPowerUp seed s = _
    simp only [execBackupDomainPowerUp, act_eq, h, Bool.false_eq_true, if_false]
  have hseed : ∀ x ∈ (s.toDev.bkpUp seed).tamp.lfsr, 0 < x ∧ x < 2 ^ 15 := by
    intro x hx
    obtain ⟨n, -, rfl⟩ := List.mem_map.mp hx
    exact lfsrSeed_range seed n
  exact ⟨_, hexec, ⟨rfl, rfl⟩, rfl, rfl, s.toDev.bkpUp_osf seed, rfl, rfl, hseed, rfl, rfl⟩

/-- A rise of VSUP with TEST_N low: the device waits in reset (R21, R30). -/
theorem vsupRise_testN_low (s : State) (boot1 boot0 : Bool) (vsupMv bad : Nat) (hst : s.power.st = .backupOnly) (hh : s.power.hold = .none)
    (hx : s.clk.xtal = true) : completes (.vsupRiseStart boot1 boot0 false vsupMv bad) s fun t =>
      keepsQueue s t ∧ t.power.st = .reset ∧ t.power.hold = .testN ∧ t.mainOn = false := by
  refine ⟨_, exec_vsupRiseStart s boot1 boot0 false vsupMv bad hst hx, ?_⟩
  obtain ⟨kst, khold, -, -⟩ := s.toDev.vsupBack_power
  rw [State.start_testN_low]
  refine ⟨⟨rfl, rfl⟩, kst, ?_, ?_⟩
  · simp [khold, hh]
  · simp [Dev.mainOn, kst]

/-- A rise of VSUP with BOOT0 high: recovery, the Starter alone running (R30, R446). -/
theorem vsupRise_boot0 (s : State) (boot1 : Bool) (vsupMv bad : Nat) (hst : s.power.st = .backupOnly) (hpor : s.power.por = true)
    (hx : s.clk.xtal = true) : completes (.vsupRiseStart boot1 true true vsupMv bad) s fun t =>
      t.pending = s.pending ∧ t.mem = memWipe s.mem s.power.lost ∧ t.power.st = .start ∧ t.mainOn = true ∧ t.get Fld.UPD_ENG_RUN = 1 ∧
        t.on (Fld.UART_CTRL_CHAIN 1) = true := by
  obtain ⟨-, -, klost, kpor⟩ := s.toDev.vsupBack_power
  refine ⟨_, exec_vsupRiseStart s boot1 true true vsupMv bad hst hx, ?_⟩
  rw [State.start_boot0 _ boot1 vsupMv bad (kpor.trans hpor)]
  obtain ⟨cst, -⟩ := State.slotChosen_power { s with toDev := s.toDev.vsupBack } boot1 true vsupMv bad
  generalize (State.slotChosen { s with toDev := s.toDev.vsupBack } boot1 true vsupMv bad).1 = d at cst ⊢
  have rst : d.recovery.power.st = .start := by rw [d.recovery_power]; exact cst
  refine ⟨rfl, ?_, rst, ?_, d.recovery_engines, d.recovery_chain⟩
  · exact congrArg (memWipe s.mem) klost
  · simp only [Dev.mainOn, rst]

/-- Settles O1: each command of the supplies by the lemma about it. -/
theorem supplyCommandsComplete : Obligations.SupplyCommandsComplete := by
  unfold Obligations.SupplyCommandsComplete
  exact ⟨undervoltageLockout_completes, backupSwitchTransition_completes, fun s => ⟨_, rfl, ⟨rfl, rfl⟩, rfl, rfl, rfl, rfl, rfl, rfl, rfl, rfl⟩,
    backupDomainPowerUp_completes, vsupRise_testN_low, vsupRise_boot0⟩

end Sys2Proof.Certificates

/-! ### What reads leave of the power page (R65, R80, R421)

A warning ends the reads that an abandoned slice held. Those reads log errors, pop bytes and draw nonces, but nothing of theirs is on page PWR. -/

namespace Sys2Proof.Machine

open Sys2Proof.Safety

/-- The power state and page PWR are as before; of the page, events alone may have been raised. -/
def Dev.pwrKept (s t : Dev) : Prop := t.power = s.power ∧ ∀ a, pageOf a = Pg.PWR → eventReg a = false → t.rd a = s.rd a

theorem Dev.pwrKept_refl (s : Dev) : s.pwrKept s := ⟨rfl, fun _ _ _ => rfl⟩

theorem Dev.pwrKept.trans {s t u : Dev} (h : s.pwrKept t) (k : t.pwrKept u) : s.pwrKept u :=
  ⟨k.1.trans h.1, fun a ha he => (k.2 a ha he).trans (h.2 a ha he)⟩

theorem Dev.pwrKept_of_regs {s t : Dev} (hp : t.power = s.power) (hr : t.regs = s.regs) : s.pwrKept t :=
  ⟨hp, fun a _ _ => by simp only [Dev.rd, hr]⟩

theorem Dev.pwrKept_of_eventsOnly {s t : Dev} (h : eventsOnly s t) : s.pwrKept t := ⟨h.power, fun a _ he => h.1 a he⟩

/-- A register of another page may change. -/
theorem Dev.pwrKept_of_addr {s t : Dev} {b : Nat} (hp : t.power = s.power) (hb : pageOf b ≠ Pg.PWR) (h : ∀ a, a ≠ b → t.rd a = s.rd a) : s.pwrKept t :=
  ⟨hp, fun a ha _ => h a fun e => hb (e ▸ ha)⟩

theorem Dev.pwrKept_set (s : Dev) (f : Field) (v : Nat) (h : pageOf f.addr ≠ Pg.PWR) : s.pwrKept (s.set f v) :=
  Dev.pwrKept_of_addr (s.set_power f v) h fun _ => Dev.rd_set_ne

theorem Dev.pwrKept_setB (s : Dev) (f : Field) (b : Bool) (h : pageOf f.addr ≠ Pg.PWR) : s.pwrKept (s.setB f b) := s.pwrKept_set f _ h

theorem Dev.pwrKept_bump (s : Dev) (f : Field) (h : pageOf f.addr ≠ Pg.PWR) : s.pwrKept (s.bump f) :=
  Dev.pwrKept_of_addr (s.bump_power f) h fun _ => Dev.rd_bump_ne

theorem Dev.pwrKept_foldl {α : Type} (f : Dev → α → Dev) (h : ∀ (s : Dev) (x : α), s.pwrKept (f s x)) (l : List α) (s : Dev) : s.pwrKept (l.foldl f s) :=
  foldl_inv (fun t : Dev => Dev.pwrKept s t) f (fun t x ht => Dev.pwrKept.trans ht (h t x)) l s s.pwrKept_refl

theorem Dev.pwrKept_ite (c : Prop) [Decidable c] {s t u : Dev} (ht : s.pwrKept t) (hu : s.pwrKept u) : s.pwrKept (if c then t else u) := by
  split
  · exact ht
  · exact hu

/-! #### Bus errors and discarded writes -/

theorem Dev.busErr_pwrKept (s : Dev) (m a kind : Nat) (write : Bool) : s.pwrKept (s.busErr m a kind write) := by
  refine Dev.pwrKept.trans (Dev.pwrKept_ite _ ?_ ?_) (Dev.pwrKept_of_eventsOnly (Dev.raise_eventsOnly _ Pg.SYS 0))
  · exact s.pwrKept_set _ _ (by decide)
  · exact ((((s.pwrKept_set _ _ (by decide)).trans (Dev.pwrKept_set _ _ _ (by decide))).trans (Dev.pwrKept_set _ _ _ (by decide))).trans
      (Dev.pwrKept_set _ _ _ (by decide))).trans (Dev.pwrKept_setB _ _ _ (by decide))

theorem Dev.busUpd_pwrKept (s : Dev) (f : Bus → Bus) : s.pwrKept (s.busUpd f) := Dev.pwrKept_of_regs rfl rfl
theorem Dev.answer_pwrKept (s : Dev) (m a : Nat) (x : Answer) : s.pwrKept (s.answer m a x) := Dev.pwrKept_of_regs rfl rfl
theorem Dev.latch_pwrKept (s : Dev) (m a : Nat) (v : Word) : s.pwrKept (s.latch m a v) := s.busUpd_pwrKept _

theorem Dev.discardOne_pwrKept (s : Dev) (w : Posted) : s.pwrKept (s.discardOne w) := (s.busUpd_pwrKept _).trans (Dev.busErr_pwrKept _ _ _ _ _)

theorem Dev.discardAll_pwrKept (s : Dev) (p : Posted → Bool) : s.pwrKept (s.discardAll p) :=
  (s.busUpd_pwrKept _).trans (Dev.pwrKept_foldl _ Dev.discardOne_pwrKept _ _)

/-! #### Register reads with effects -/

theorem Dev.unlatch_pwrKept (s : Dev) (m a : Nat) : s.pwrKept (s.unlatch m a).1 := by
  unfold Dev.unlatch
  split <;> dsimp only
  · exact s.busUpd_pwrKept _
  · exact s.pwrKept_refl

theorem Dev.fenceRead_pwrKept (s : Dev) (m : Nat) : s.pwrKept (s.fenceRead m).1 := (s.discardAll_pwrKept _).trans (Dev.busUpd_pwrKept _ _)

/-- The two kinds of register read. The definition is unfolded as a function: at its arguments the kernel would have to compute `pairHigh`. -/
theorem Dev.pairRead_cases (P : Dev × Word → Prop) (s : Dev) (m a : Nat) (high : ∀ h, P (s.latch m h (s.regWord m h), s.regWord m a))
    (single : P (s.unlatch m a)) : P (s.pairRead m a) := by
  have unfolded : ∀ read, read = Dev.pairRead → P (read s m a) := by
    intro read hread
    delta Dev.pairRead at hread
    rw [hread]
    beta_reduce
    generalize pairHigh a = high
    cases high with
    | none => exact single
    | some h => exact high h
  exact unfolded _ rfl

theorem Dev.pairRead_pwrKept (s : Dev) (m a : Nat) : s.pwrKept (s.pairRead m a).1 :=
  Dev.pairRead_cases (fun r => s.pwrKept r.1) s m a (fun h => s.latch_pwrKept m h _) (s.unlatch_pwrKept m a)

/-- The clock's catching up changes RTC.SHIFT_LEFT alone. -/
theorem Dev.linSync_pwrKept (s : Dev) : s.pwrKept s.linSync := by
  obtain ⟨-, heq, hrd⟩ := s.linRun_spec s.linNow
  refine Dev.pwrKept_of_addr (b := Reg.RTC_SHIFT_LEFT) ?_ (by decide) ?_
  · rw [Dev.linSync, heq]
  · exact hrd

theorem Dev.readTimeLo_pwrKept (s : Dev) (m : Nat) : s.pwrKept (s.readTimeLo m) := Dev.pwrKept_of_regs rfl rfl
theorem Dev.readTimeHi_pwrKept (s : Dev) (m : Nat) : s.pwrKept (s.readTimeHi m) := Dev.pwrKept_of_regs rfl rfl
theorem Dev.uartPop_pwrKept (s : Dev) (u : Nat) : s.pwrKept (s.uartPop u).1 := Dev.pwrKept_of_regs rfl rfl

theorem nonceReg_page (i : Nat) (hi : i < 4) : pageOf (Fld.SEC_NONCE_N i).addr ≠ Pg.PWR := by
  interval_cases i <;> decide

theorem Dev.nonceDraw_pwrKept (s : Dev) : s.pwrKept s.nonceDraw := by
  unfold Dev.nonceDraw
  simp only [List.range, List.range.loop, List.foldl]
  refine Dev.pwrKept.trans (t := { (s.draw 16).2 with sec := { (s.draw 16).2.sec with nonce := some (s.draw 16).1 } }) (Dev.pwrKept_of_regs rfl rfl) ?_
  exact (((Dev.pwrKept_set _ _ _ (nonceReg_page 0 (by decide))).trans (Dev.pwrKept_set _ _ _ (nonceReg_page 1 (by decide)))).trans
    (Dev.pwrKept_set _ _ _ (nonceReg_page 2 (by decide)))).trans (Dev.pwrKept_set _ _ _ (nonceReg_page 3 (by decide)))

theorem Dev.regRead_pwrKept (s : Dev) (m a : Nat) : s.pwrKept (s.regRead m a).1 := by
  unfold Dev.regRead
  split_ifs
  · exact s.fenceRead_pwrKept m
  · exact s.latch_pwrKept _ _ _
  · exact s.linSync_pwrKept.trans (Dev.readTimeLo_pwrKept _ m)
  · exact s.readTimeHi_pwrKept m
  · exact s.nonceDraw_pwrKept
  · exact s.uartPop_pwrKept 0
  · exact s.uartPop_pwrKept 1
  · exact s.pairRead_pwrKept m a

theorem Dev.pageRead_pwrKept (s : Dev) (m a : Nat) : s.pwrKept (s.pageRead m a).1 := by
  simp only [Dev.pageRead]
  split_ifs
  · exact s.busErr_pwrKept _ _ _ _
  · exact s.busUpd_pwrKept _
  · exact (s.discardAll_pwrKept _).trans (Dev.busErr_pwrKept _ _ _ _ _)
  · exact (s.discardAll_pwrKept _).trans (Dev.regRead_pwrKept _ m a)

/-! #### Memory reads through SECDED -/

/-- The pages with memory behind SECDED are not page PWR. -/
def eccPg (p : Nat) : Prop := p = Pg.MRAM ∨ p = Pg.FLASH ∨ p = Pg.DRAM

theorem eccPage_eccPg {a p : Nat} (h : eccPage a = some p) : eccPg p := by
  unfold eccPage at h
  split_ifs at h <;> cases h
  · exact .inl rfl
  · exact .inr (.inl rfl)
  · exact .inr (.inr rfl)

/-- A field within such a page. -/
theorem eccPg.field {p : Nat} (h : eccPg p) (f : Field) {o : Nat} (ho : o < 0x1000) (hf : f.addr = pageBase p + o) : pageOf f.addr ≠ Pg.PWR := by
  have hp : pageOf f.addr = p := by rw [hf]; unfold pageOf pageBase; omega
  rw [hp]
  rcases h with rfl | rfl | rfl <;> decide

theorem Dev.eccLog_pwrKept (s : Dev) {p : Nat} (h : eccPg p) (addr master : Nat) (ue : Bool) : s.pwrKept (s.eccLog p addr master ue) := by
  have hovf := h.field (Ecc.OVF p) (o := 0x4C) (by decide) rfl
  have haddr := h.field (Ecc.ADDR p) (o := 0x48) (by decide) rfl
  have hvalid := h.field (Ecc.VALID p) (o := 0x4C) (by decide) rfl
  have hue := h.field (Ecc.UE p) (o := 0x4C) (by decide) rfl
  have hmaster := h.field (Ecc.MASTER p) (o := 0x4C) (by decide) rfl
  unfold Dev.eccLog
  split
  · exact s.pwrKept_set _ _ hovf
  · exact ((((s.pwrKept_set _ _ haddr).trans (Dev.pwrKept_set _ _ _ hvalid)).trans (Dev.pwrKept_set _ _ _ hovf)).trans
      (Dev.pwrKept_setB _ _ _ hue)).trans (Dev.pwrKept_set _ _ _ hmaster)

theorem Dev.raiseMark_pwrKept (s : Dev) (p no : Nat) (inj : Bool) : s.pwrKept (s.raiseMark p no inj) :=
  Dev.pwrKept_of_eventsOnly (Dev.raiseInj_eventsOnly _ _ _ _ _)

theorem Dev.injUse_pwrKept (s : Dev) {p : Nat} (h : eccPg p) : s.pwrKept (s.injUse p) := by
  have hcount := h.field (Hdr.INJ_COUNT p) (o := 0x1C) (by decide) rfl
  have harm := h.field (Hdr.INJ_ARM p) (o := 0x1C) (by decide) rfl
  unfold Dev.injUse
  dsimp only
  split
  · exact (s.pwrKept_set _ _ hcount).trans (Dev.pwrKept_set _ _ _ harm)
  · exact s.pwrKept_set _ _ hcount

theorem Dev.eccCorrect_pwrKept (s : Dev) {p : Nat} (h : eccPg p) (addr master : Nat) (inj : Bool) : s.pwrKept (s.eccCorrect p addr master inj) := by
  have hce := h.field (Ecc.CE p) (o := 0x40) (by decide) rfl
  have hstuck := h.field (Ecc.CE_STUCK p) (o := 0x40) (by decide) rfl
  have hc : s.pwrKept ((s.bump (Ecc.CE p)).raiseMark p 0 inj) := (s.pwrKept_bump _ hce).trans (Dev.raiseMark_pwrKept _ _ _ _)
  unfold Dev.eccCorrect
  dsimp only
  split
  · exact ((hc.trans (Dev.pwrKept_bump _ _ hstuck)).trans (Dev.eccLog_pwrKept _ h _ _ _)).trans (Dev.raiseMark_pwrKept _ _ _ _)
  · exact hc.trans (Dev.busUpd_pwrKept _ fun b => { b with corrected := (p, addr) :: b.corrected })

theorem Dev.eccTransient_pwrKept (s : Dev) {p : Nat} (h : eccPg p) (inj : Bool) : s.pwrKept (s.eccTransient p inj) := by
  have htrans := h.field (Ecc.UE_TRANS p) (o := 0x44) (by decide) rfl
  exact (s.pwrKept_bump _ htrans).trans (Dev.raiseMark_pwrKept _ _ _ _)

theorem Dev.eccLasting_pwrKept (s : Dev) {p : Nat} (h : eccPg p) (addr master : Nat) (inj : Bool) : s.pwrKept (s.eccLasting p addr master inj) := by
  have hlast := h.field (Ecc.UE_LAST p) (o := 0x44) (by decide) rfl
  exact ((s.pwrKept_bump _ hlast).trans (Dev.eccLog_pwrKept _ h _ _ _)).trans (Dev.raiseMark_pwrKept _ _ _ _)

/-- A word that is read corrects or clears the note of its last correction. -/
theorem Dev.eccForget_pwrKept (s : Dev) (p addr : Nat) :
    s.pwrKept (if p = Pg.FLASH then s else { s with bus := { s.bus with corrected := s.bus.corrected.filter fun x => x != (p, addr) } }) := by
  split
  · exact s.pwrKept_refl
  · exact s.busUpd_pwrKept fun b => { b with corrected := b.corrected.filter fun x => x != (p, addr) }

theorem Dev.eccRead_pwrKept (s : Dev) {p : Nat} (h : eccPg p) (addr master : Nat) : s.pwrKept (s.eccRead p addr master).1 := by
  have hs0 := s.eccForget_pwrKept p addr
  unfold Dev.eccRead
  split
  · exact (s.injUse_pwrKept h).trans (Dev.eccCorrect_pwrKept _ h _ _ _)
  · revert hs0
    generalize (if p = Pg.FLASH then s else { s with bus := { s.bus with corrected := s.bus.corrected.filter fun x => x != (p, addr) } }) = s0
    intro hs0
    have hs1 := hs0.trans (s0.injUse_pwrKept h)
    dsimp only
    split_ifs <;> dsimp only
    · exact hs1.trans ((Dev.injUse_pwrKept _ h).trans (Dev.eccLasting_pwrKept _ h _ _ _))
    · exact hs1.trans (Dev.eccTransient_pwrKept _ h _)
    · exact hs0

theorem Dev.memRead_pwrKept (mem : List Host.Cell) (s : Dev) (m a : Nat) : s.pwrKept (s.memRead mem m a).1 := by
  unfold Dev.memRead
  split
  · exact s.busErr_pwrKept _ _ _ _
  · split
    · exact s.busErr_pwrKept _ _ _ _
    · split
      · exact s.pwrKept_refl
      · rename_i p hp
        have he := s.eccRead_pwrKept (eccPage_eccPg hp) a m
        dsimp only
        split
        · exact he.trans (Dev.busErr_pwrKept _ _ _ _ _)
        · exact he

theorem Dev.busRead_pwrKept (mem : List Host.Cell) (s : Dev) (m a : Nat) : s.pwrKept (s.busRead mem m a).1 := by
  unfold Dev.busRead
  split_ifs
  · exact s.busErr_pwrKept _ _ _ _
  · exact s.pageRead_pwrKept m a
  · exact Dev.memRead_pwrKept mem s m a

/-! #### The reads that a slice held, and the host's read that goes on -/

theorem Dev.spiEnd_pwrKept (s : Dev) : s.pwrKept s.spiEnd := s.pwrKept_set _ _ (by decide)

theorem Dev.spiBusErr_pwrKept (s : Dev) : s.pwrKept (s.spiMark Spi.BUSERR) :=
  Dev.pwrKept.trans (t := { s with host := { s.host with prev := s.host.prev ||| 2 ^ Spi.BUSERR } }) (Dev.pwrKept_of_regs rfl rfl)
    (Dev.pwrKept_set _ _ _ (by decide))

theorem Dev.spiReply_pwrKept (g : Dev × List Word × Nat) : g.1.pwrKept (Dev.spiReply g) := by
  have ht : g.1.pwrKept { g.1 with host := { g.1.host with token := g.2.2, reply := g.2.1 } } := Dev.pwrKept_of_regs rfl rfl
  unfold Dev.spiReply
  dsimp only
  split_ifs
  · exact ht
  · exact ht.trans ((Dev.spiBusErr_pwrKept _).trans (Dev.spiEnd_pwrKept _))
  · exact ht.trans (Dev.spiEnd_pwrKept _)

/-- A read burst after the answer to one of its words, `n` words remaining (R421). -/
def Dev.spiNext (mem : List Host.Cell) (n a : Nat) (l : List Word) (r : Dev × Answer) : Dev × List Word × Nat :=
  match r.2 with
  | .word w => Dev.spiGather mem n (a + 4) (l ++ [w]) r.1
  | .stalled => ({ r.1 with host := { r.1.host with held := some (a, n + 1, l) } }, [], 0xFF)
  | _ => (r.1, l ++ List.replicate (n + 1) 0, 0xAE)

theorem Dev.spiGather_succ (mem : List Host.Cell) (n a : Nat) (l : List Word) (s : Dev) :
    Dev.spiGather mem (n + 1) a l s = Dev.spiNext mem n a l (s.busRead mem 16 a) := by
  delta Dev.spiGather Dev.spiNext
  exact Eq.refl _

theorem Dev.spiNext_pwrKept (mem : List Host.Cell) (n a : Nat) (l : List Word) (r : Dev × Answer)
    (ih : ∀ (a : Nat) (l : List Word) (s : Dev), s.pwrKept (Dev.spiGather mem n a l s).1) : r.1.pwrKept (Dev.spiNext mem n a l r).1 := by
  obtain ⟨t, answer⟩ := r
  cases answer with
  | word w => exact ih _ _ _
  | stalled => exact Dev.pwrKept_of_regs rfl rfl
  | timeout => exact t.pwrKept_refl
  | decode => exact t.pwrKept_refl
  | refused => exact t.pwrKept_refl

theorem Dev.spiGather_pwrKept (mem : List Host.Cell) (n a : Nat) (l : List Word) (s : Dev) : s.pwrKept (Dev.spiGather mem n a l s).1 := by
  induction n generalizing a l s with
  | zero => exact s.pwrKept_refl
  | succ n ih =>
    have hnext := (Dev.busRead_pwrKept mem s 16 a).trans (Dev.spiNext_pwrKept mem n a l _ ih)
    rw [← Dev.spiGather_succ] at hnext
    exact hnext

theorem Dev.spiGo_pwrKept (mem : List Host.Cell) (s : Dev) : s.pwrKept (Dev.spiGo mem s) := by
  unfold Dev.spiGo
  split
  · exact s.pwrKept_refl
  · rename_i a n l _
    have ht : s.pwrKept { s with host := { s.host with held := none } } := Dev.pwrKept_of_regs rfl rfl
    split
    · exact s.pwrKept_refl
    · dsimp only
      split
      · exact (ht.trans (Dev.spiGather_pwrKept mem _ _ _ _)).trans (Dev.spiReply_pwrKept _)
      · exact ht.trans (Dev.spiReply_pwrKept _)

theorem Dev.stalledRead_pwrKept (s : Dev) (r : Nat × Nat) : s.pwrKept ((s.pageRead r.1 r.2).1.answer r.1 r.2 (s.pageRead r.1 r.2).2) :=
  (s.pageRead_pwrKept r.1 r.2).trans (Dev.answer_pwrKept _ _ _ _)

theorem Dev.stalledLost_pwrKept (s : Dev) (r : Nat × Nat) : s.pwrKept ((s.busErr r.1 r.2 BusKind.timeout false).answer r.1 r.2 .timeout) :=
  (s.busErr_pwrKept _ _ _ _).trans (Dev.answer_pwrKept _ _ _ _)

theorem Dev.stalledEnd_pwrKept (s : Dev) : s.pwrKept s.stalledEnd := by
  unfold Dev.stalledEnd
  exact (s.busUpd_pwrKept _).trans (Dev.pwrKept_foldl _ Dev.stalledRead_pwrKept _ _)

theorem Dev.stalledDrop_pwrKept (s : Dev) : s.pwrKept s.stalledDrop := by
  unfold Dev.stalledDrop
  split
  · exact s.pwrKept_refl
  · exact (s.busUpd_pwrKept _).trans (Dev.pwrKept_foldl _ Dev.stalledLost_pwrKept _ _)

/-- A command that may abandon a test: the reads that follow it leave the power page as the command left it. -/
theorem warnAct_pwrKept (s : State) (f : Dev → Dev) (h : s.mainOn = true) :
    ∃ t : Dev, warnAct s f = .next { s with toDev := t } ∧ (f s.toDev).pwrKept t :=
  ⟨_, mainAct_eq s _ h, ((Dev.stalledEnd_pwrKept _).trans (Dev.stalledDrop_pwrKept _)).trans (Dev.spiGo_pwrKept _ _)⟩

end Sys2Proof.Machine

/-! ### The warning's threshold, HOLDUP and its ends (R33, R53, R57, R58) -/

namespace Sys2Proof.Machine

open Sys2Proof.Safety

/-! #### PWR.PF_CFG -/

/-- A setting that the supply allows is stored and arms the warning. -/
theorem Dev.pfCfg_stored (s : Dev) (v : Word) (mv : Nat) (hthr : bitsOf v 7 0 ≤ 245) (hmv : 5500 + 100 * bitsOf v 7 0 + 1000 ≤ mv) :
    let t := s.pfCfg v mv
    t.get Fld.PWR_PF_CFG_THR = bitsOf v 7 0 ∧ t.get Fld.PWR_PF_CFG_FILT = bitsOf v 9 8 ∧ t.on Fld.PWR_PF_CFG_ARMED = true ∧
      ∀ a, a ≠ Reg.PWR_PF_CFG → a ≠ Reg.PWR_VSUP_MEAS → t.rd a = s.rd a := by
  have hok : ¬ (245 < bitsOf v 7 0 ∨ mv < 5500 + 100 * bitsOf v 7 0 + 1000) := by omega
  have hset : s.pfCfg v mv = (((s.vsupSet mv).set Fld.PWR_PF_CFG_FILT (bitsOf v 9 8)).set Fld.PWR_PF_CFG_THR (bitsOf v 7 0)).set Fld.PWR_PF_CFG_ARMED 1 := by
    simp only [Dev.pfCfg, if_neg hok]
  dsimp only
  rw [hset]
  refine ⟨?_, ?_, Dev.on_set_one _ _ rfl, fun a ha hm => ?_⟩
  · rw [Dev.get_set_apart _ _ _ _ rfl rfl rfl, Dev.get_set_lt _ _ _ rfl (bitsOf_lt v 7 0)]
  · rw [Dev.get_set_apart _ _ _ _ rfl rfl rfl, Dev.get_set_apart _ _ _ _ rfl rfl rfl, Dev.get_set_lt _ _ _ rfl (bitsOf_lt v 9 8)]
  · rw [Dev.rd_set_ne ha, Dev.rd_set_ne ha, Dev.rd_set_ne ha]
    exact Dev.rd_set_ne (s := s.powUpd fun (w : Power) => { w with vsupMv := mv }) hm

/-- A refused setting leaves PF_CFG and sets CFGERR. -/
theorem Dev.pfCfg_refused (s : Dev) (v : Word) (mv : Nat) (h : 245 < bitsOf v 7 0 ∨ mv < 5500 + 100 * bitsOf v 7 0 + 1000) :
    (s.pfCfg v mv).rd Reg.PWR_PF_CFG = s.rd Reg.PWR_PF_CFG ∧ (s.pfCfg v mv).on (Hdr.CFGERR Pg.PWR) = true := by
  have hset : s.pfCfg v mv = (s.vsupSet mv).cfgErr Pg.PWR := by simp only [Dev.pfCfg, if_pos h]
  rw [hset]
  refine ⟨?_, Dev.on_cfgErr _ _⟩
  rw [Dev.rd_cfgErr_ne (by decide)]
  exact Dev.rd_set_ne (s := s.powUpd fun (w : Power) => { w with vsupMv := mv }) (by decide)

/-! #### Entering HOLDUP -/

/-- HOLDUP holds: what a warning leaves, after step 1 of R57, in the power state, in PF_MT and PF_STAT, and in the trackers. -/
def Dev.holdupHolds (s : Dev) (note : Power → Power) (edge : Nat) (fromStart : Bool) : Dev :=
  let s2 := (s.powUpd note).setPower .holdup
  let s3 := ((s2.set64 Reg.PWR_PF_MT_LO Reg.PWR_PF_MT_HI edge).set Fld.PWR_PF_STAT_WARN 1).bump Fld.PWR_PF_STAT_COUNT
  let s4 := { s3 with meter := { s3.meter with trk := s3.meter.trk.map fun (t : Tracker) => { t with committed := t.committed && fromStart } } }
  s4.raise Pg.PWR 0

theorem Dev.holdupHolds_power (s : Dev) (note : Power → Power) (edge : Nat) (fromStart : Bool) :
    (s.holdupHolds note edge fromStart).power = { note s.power with st := .holdup } := by
  simp only [Dev.holdupHolds, Dev.raise_power, Dev.bump_power, Dev.set_power, Dev.set64_power, Dev.setPower_power, Dev.powUpd_power]

/-- Beside events the registers are those of the warning. -/
theorem Dev.holdupHolds_rd (s : Dev) (note : Power → Power) (edge : Nat) (fromStart : Bool) (a : Nat) (h : eventReg a = false) :
    (s.holdupHolds note edge fromStart).rd a =
      (((((s.powUpd note).setPower .holdup).set64 Reg.PWR_PF_MT_LO Reg.PWR_PF_MT_HI edge).set Fld.PWR_PF_STAT_WARN 1).bump Fld.PWR_PF_STAT_COUNT).rd a := by
  unfold Dev.holdupHolds
  rw [Dev.rd_raise _ _ _ _ h]
  rfl

theorem Dev.holdupHolds_warn (s : Dev) (note : Power → Power) (edge : Nat) (fromStart : Bool) :
    (s.holdupHolds note edge fromStart).on Fld.PWR_PF_STAT_WARN = true := by
  rw [Dev.on_congr (s.holdupHolds_rd note edge fromStart Reg.PWR_PF_STAT (by decide)), Dev.on_bump_apart _ _ _ rfl rfl rfl, Dev.on_set_one _ _ rfl]

/-- The edge's time is in the pair PF_MT. -/
theorem Dev.holdupHolds_edge (s : Dev) (note : Power → Power) (edge : Nat) (fromStart : Bool) :
    (s.holdupHolds note edge fromStart).get64 Reg.PWR_PF_MT_LO Reg.PWR_PF_MT_HI = edge % 2 ^ 64 := by
  have hkept (a : Nat) (ha : a ≠ Reg.PWR_PF_STAT) (he : eventReg a = false) : (s.holdupHolds note edge fromStart).rd a =
      (((s.powUpd note).setPower .holdup).set64 Reg.PWR_PF_MT_LO Reg.PWR_PF_MT_HI edge).rd a := by
    rw [s.holdupHolds_rd note edge fromStart a he, Dev.rd_bump_ne ha, Dev.rd_set_ne ha]
  rw [← Dev.get64_set64 ((s.powUpd note).setPower .holdup) Reg.PWR_PF_MT_LO Reg.PWR_PF_MT_HI edge (by decide)]
  simp only [Dev.get64, hkept Reg.PWR_PF_MT_LO (by decide) (by decide), hkept Reg.PWR_PF_MT_HI (by decide) (by decide)]

/-- Step 1 of R57: what a warning ends before HOLDUP holds. -/
def Dev.shed (s : Dev) : Dev := (((((s.plcAbort.ethStop).harmWarn).pfMark.pulseRelease).discDiscard).eyeAbort).rateVoid.bistAbandon.fuseStop.floorStop

/-- The commit of this HOLDUP is skipped: billing state is unchanged since the last commit (R56, R60). -/
def Dev.commitNotDue (s : Dev) : Bool :=
  (s.beforeWarning == .start && !(List.range 4).any fun g => (s.trk g).committed) || (s.beforeWarning == .shutdownTest && s.bill.frozen)

/-- What the power state notes of a warning. -/
def Dev.noteEdge (s : Dev) (hot : Bool) (w : Power) : Power :=
  { w with before := s.beforeWarning, byOvertemp := hot, edgeMt := s.mt, closeMt := s.posMt s.closePos, commitSkipped := s.commitNotDue }

/-- Where a commit is due, or the supply is what failed, HOLDUP goes on. -/
theorem Dev.enterHoldup_eq (s : Dev) (hot : Bool) (h : (hot && s.commitNotDue) = false) :
    s.enterHoldup hot = s.shed.holdupHolds (s.noteEdge hot) s.mt (s.beforeWarning == PState.start) := by
  unfold Dev.commitNotDue at h
  unfold Dev.enterHoldup
  dsimp only
  rw [h, if_neg Bool.false_ne_true]
  rfl

/-- HOLDUP entered: the state it came from, the edge's time, and the warning as the registers show it. -/
theorem Dev.enterHoldup_spec (s : Dev) (hot : Bool) (h : (hot && s.commitNotDue) = false) :
    let t := s.enterHoldup hot
    t.power.st = .holdup ∧ t.power.before = s.beforeWarning ∧ t.power.byOvertemp = hot ∧ t.power.edgeMt = s.mt ∧
      t.on Fld.PWR_PF_STAT_WARN = true ∧ t.get64 Reg.PWR_PF_MT_LO Reg.PWR_PF_MT_HI = s.mt % 2 ^ 64 := by
  dsimp only
  rw [s.enterHoldup_eq hot h, Dev.holdupHolds_power]
  exact ⟨rfl, rfl, rfl, rfl, Dev.holdupHolds_warn _ _ _ _, Dev.holdupHolds_edge _ _ _ _⟩

end Sys2Proof.Machine

/-! ### The commands of the warning (R53, R57) -/

namespace Sys2Proof.Machine

open Sys2Proof.Safety

/-- A device in RUN, HOLDUP or RIDE-THROUGH has its main domain up (R52). -/
theorem Dev.mainOn_of_run {s : Dev} (h : s.power.st = .run) : s.mainOn = true := by simp only [Dev.mainOn, h]
theorem Dev.mainOn_of_holdup {s : Dev} (h : s.power.st = .holdup) : s.mainOn = true := by simp only [Dev.mainOn, h]
theorem Dev.mainOn_of_rideThrough {s : Dev} (h : s.power.st = .rideThrough) : s.mainOn = true := by simp only [Dev.mainOn, h]
theorem Dev.mainOn_of_reset {s : Dev} (h : s.power.st = .reset) : s.mainOn = false := by simp only [Dev.mainOn, h]

/-! #### The internal reset -/

/-- What the endings of a reset leave of the power state: all of it. -/
theorem Dev.assertReset_ends_power (s : Dev) (ks : List ResetKind) (lost : Bool) :
    (ks.foldl (fun (t : Dev) j => if j.cause < 18 then t.set ⟨Reg.SYS_RST_CAUSE, j.cause, j.cause⟩ 1 else t)
      (((s.rateVoid.almLost.fuseStop.floorStop.bistAbandon.haltsEnd).mainClear warmMask true lost).set Fld.SYS_WDT_EN 1)).power = s.power := by
  rw [Dev.foldl_power _ fun t j => by simp]
  simp

/-- The device is in reset, held by over-temperature where that had ended it, else by what the cause says (R46). -/
theorem Dev.assertReset_power (s : Dev) (k : ResetKind) :
    (s.assertReset k).power.st = .reset ∧ (s.assertReset k).power.hold = if s.power.byOvertemp then .overtemp else k.hold (s.on Fld.SYS_SHUTDOWN_EXIT) := by
  unfold Dev.assertReset
  dsimp only
  rw [Dev.powUpd_power, Dev.assertReset_ends_power s]
  exact ⟨rfl, rfl⟩

/-- A reset keeps no holdup cycle (R47). -/
theorem Dev.assertReset_holdup (s : Dev) (k : ResetKind) : (s.assertReset k).meter.holdup = [] := by
  unfold Dev.assertReset
  rw [Dev.powUpd_meter, foldl_keep Dev.meter _ fun t j => by split <;> simp]
  rfl

end Sys2Proof.Machine

namespace Sys2Proof.Certificates

open Sys2Proof Sys2Proof.Machine Sys2Proof.Safety

theorem pfCfgWrite_stores (s : State) (m : Nat) (v : Word) (mv : Nat) (hl : lands s Reg.PWR_PF_CFG) (hthr : bitsOf v 7 0 ≤ 245)
    (hmv : 5500 + 100 * bitsOf v 7 0 + 1000 ≤ mv) : completes (.pfCfgWrite m v mv) s fun t =>
      keepsQueue s t ∧ t.get Fld.PWR_PF_CFG_THR = bitsOf v 7 0 ∧ t.get Fld.PWR_PF_CFG_FILT = bitsOf v 9 8 ∧ t.on Fld.PWR_PF_CFG_ARMED = true ∧
        (∀ a, a ≠ Reg.PWR_PF_CFG → a ≠ Reg.PWR_VSUP_MEAS → t.rd a = s.rd a) :=
  ⟨_, wrAct_eq m _ v s _ hl, ⟨rfl, rfl⟩, s.toDev.pfCfg_stored v mv hthr hmv⟩

theorem pfCfgWrite_refuses (s : State) (m : Nat) (v : Word) (mv : Nat) (hl : lands s Reg.PWR_PF_CFG)
    (h : 245 < bitsOf v 7 0 ∨ mv < 5500 + 100 * bitsOf v 7 0 + 1000) : completes (.pfCfgWrite m v mv) s fun t =>
      keepsQueue s t ∧ t.rd Reg.PWR_PF_CFG = s.rd Reg.PWR_PF_CFG ∧ t.on (Hdr.CFGERR Pg.PWR) = true :=
  ⟨_, wrAct_eq m _ v s _ hl, ⟨rfl, rfl⟩, s.toDev.pfCfg_refused v mv h⟩

/-- What the reads after a warning leave of the edge as the power page shows it. -/
theorem pwrKept_edge {s t : Dev} (h : s.pwrKept t) :
    t.on Fld.PWR_PF_STAT_WARN = s.on Fld.PWR_PF_STAT_WARN ∧ t.get64 Reg.PWR_PF_MT_LO Reg.PWR_PF_MT_HI = s.get64 Reg.PWR_PF_MT_LO Reg.PWR_PF_MT_HI := by
  refine ⟨Dev.on_congr (h.2 _ (by decide) (by decide)), ?_⟩
  simp only [Dev.get64, h.2 Reg.PWR_PF_MT_LO (by decide) (by decide), h.2 Reg.PWR_PF_MT_HI (by decide) (by decide)]

theorem powerFailWarning_completes (s : State) (mv : Nat) (hon : s.mainOn = true) (_hst : s.power.st ≠ .holdup) (hw : s.warned = false)
    (harmed : s.on Fld.PWR_PF_CFG_ARMED = true) (hmv : mv < 5500 + 100 * s.get Fld.PWR_PF_CFG_THR) :
    completes (.powerFailWarning mv) s fun t => keepsQueue s t ∧ t.power.st = .holdup ∧
      t.power.before = (if s.power.st = .rideThrough then s.power.before else s.power.st) ∧
      t.power.edgeMt = s.mt ∧ t.on Fld.PWR_PF_STAT_WARN = true ∧ t.get64 Reg.PWR_PF_MT_LO Reg.PWR_PF_MT_HI = s.mt % 2 ^ 64 := by
  obtain ⟨t, ht, kept⟩ := warnAct_pwrKept s (fun d => d.pfWarn mv) hon
  have hwarn : s.toDev.pfWarn mv = (s.toDev.vsupSet mv).enterHoldup false := by
    simp only [Dev.pfWarn, Dev.pfThreshold, harmed, hmv, hw, decide_true, Bool.not_false, Bool.and_self, if_true]
  rw [hwarn] at kept
  obtain ⟨est, ebefore, -, eedge, ewarn, emt⟩ := (s.toDev.vsupSet mv).enterHoldup_spec false rfl
  obtain ⟨kwarn, kmt⟩ := pwrKept_edge kept
  refine ⟨_, ht, ⟨rfl, rfl⟩, ?_, ?_, ?_, kwarn.trans ewarn, kmt.trans emt⟩
  · rw [kept.1]; exact est
  · rw [kept.1]; exact ebefore
  · rw [kept.1]; exact eedge

theorem powerFailTimeout_completes (s : State) (hst : s.power.st = .holdup) (hw : s.warned = true) (hot : s.power.byOvertemp = false) :
    completes .powerFailTimeout s fun t => keepsQueue s t ∧ t.power.st = .reset ∧ t.power.hold = .vsup ∧ t.mainOn = false ∧ t.meter.holdup = [] := by
  refine ⟨_, mainAct_eq s _ (Dev.mainOn_of_holdup hst), ⟨rfl, rfl⟩, ?_⟩
  simp only [Dev.pfTimeout, hst, hw, beq_self_eq_true, Bool.and_self, if_true]
  generalize hd : Dev.raise _ Pg.PWR 3 = d
  have hpow : d.power = s.power := by rw [← hd, Dev.raise_power]
  obtain ⟨rst, rhold⟩ := d.assertReset_power .pfTimeout
  refine ⟨rst, ?_, Dev.mainOn_of_reset rst, d.assertReset_holdup _⟩
  rw [rhold, hpow, hot]
  rfl

theorem rideThroughComplete_completes (s : State) (hst : s.power.st = .rideThrough) (hdone : s.rideDone = true) :
    completes .rideThroughComplete s fun t => keepsQueue s t ∧ t.power.st = (if s.power.before = .quiet then .quiet else .run) := by
  have hexec : exec .rideThroughComplete s =
      .next { s with toDev := (s.toDev.holdupRest.raise Pg.PWR 2).setPower (if s.power.before = .quiet then .quiet else .run) } := by
    show execRideThroughComplete s = _
    simp only [execRideThroughComplete, mainAct_eq _ _ (Dev.mainOn_of_rideThrough hst), hst, hdone, beq_self_eq_true, Bool.and_self, if_true]
  refine ⟨_, hexec, ⟨rfl, rfl⟩, ?_⟩
  rw [Dev.setPower_power]

theorem overtempShutdown_completes (s : State) (b : Nat) (hst : s.power.st = .run) (hb : b < 13) :
    completes (.overtempShutdown b) s fun t => keepsQueue s t ∧ t.power.st = .holdup ∧ t.power.byOvertemp = true ∧ t.power.before = .run := by
  obtain ⟨t, ht, kept⟩ := warnAct_pwrKept s (fun d => if b < 13 then d.overtemp b else d) (Dev.mainOn_of_run hst)
  have hpow : (s.toDev.raiseItem Pg.PWR 8 b).power.st = .run := by rw [Dev.raiseItem_power]; exact hst
  have hbefore : (s.toDev.raiseItem Pg.PWR 8 b).beforeWarning = .run := by simp only [Dev.beforeWarning, hpow]; rfl
  have hent : (if b < 13 then s.toDev.overtemp b else s.toDev) = (s.toDev.raiseItem Pg.PWR 8 b).enterHoldup true := by
    simp only [Dev.overtemp, hb, hst, if_true, reduceCtorEq, if_false]
  rw [hent] at kept
  obtain ⟨est, ebefore, ehot, -⟩ := (s.toDev.raiseItem Pg.PWR 8 b).enterHoldup_spec true (by simp only [Dev.commitNotDue, hbefore]; rfl)
  refine ⟨_, ht, ⟨rfl, rfl⟩, ?_, ?_, ?_⟩
  · rw [kept.1]; exact est
  · rw [kept.1]; exact ehot
  · rw [kept.1]; exact ebefore.trans hbefore

end Sys2Proof.Certificates

/-! ### What metering leaves of `power`: events, power quality, harmonics, pods, pulses -/

namespace Sys2Proof.Machine

open Sys2Proof.Safety

/-! #### Speculative events -/

theorem Dev.capReconfirm_power {s t : Dev} {e : Event} (h : s.capReconfirm e = some t) : t.power = s.power := by
  unfold Dev.capReconfirm at h
  dsimp only at h
  split at h
  · cases h; simp
  · cases h

@[simp] theorem Dev.raiseSpec_power (s : Dev) (g : Nat) (e : Event) (live : Bool) : (s.raiseSpec g e live).power = s.power := by
  unfold Dev.raiseSpec
  dsimp only
  generalize hs1 : (if e.spec then { s with meter := _ } else s) = s1
  have hnoted : s1.power = s.power := by rw [← hs1]; split <;> rfl
  split
  · exact hnoted
  · split
    · rename_i t ht
      rw [Dev.raise0_power]
      split at ht
      · exact (Dev.capReconfirm_power ht).trans hnoted
      · cases ht
    · rw [Dev.raiseEv_power, hnoted]

@[simp] theorem Dev.tcClamp_power (s : Dev) (c : Nat) : (s.tcClamp c).power = s.power := s.set_power _ _
@[simp] theorem Dev.coverAll_power (s : Dev) (l : List Nat) (n : Nat) : (s.coverAll l n).power = s.power := rfl

/-! #### Power quality (PQE) -/

@[simp] theorem Dev.pqStep_power (s : Dev) (g : Nat) (spec : Bool) (i : PqInst) : (s.pqStep g spec i).power = s.power := by
  unfold Dev.pqStep
  dsimp only
  rw [Dev.foldl_power _ fun t no => Dev.raiseSpec_power .., Dev.foldl_power _ fun t no => Dev.raiseSpec_power ..]
  split <;> simp

@[simp] theorem Dev.pqEval_power (s : Dev) (g : Nat) (start : Int) (recs : List (Nat × Rec)) (spec replayed : Bool) :
    (s.pqEval g start recs spec replayed).power = s.power := by
  unfold Dev.pqEval
  split
  · exact Dev.foldl_power _ (fun t i => t.pqStep_power g spec i) _ _
  · rfl

@[simp] theorem Dev.pqDrop_power (s : Dev) (g : Nat) : (s.pqDrop g).power = s.power := rfl

@[simp] theorem Dev.pqWrite_power (s : Dev) (r : PqRec) : (s.pqWrite r).power = s.power := by
  unfold Dev.pqWrite
  dsimp only
  split <;> simp

@[simp] theorem Dev.pqShow_power (s : Dev) (g : Nat) (old new : PqGrp) : (s.pqShow g old new).power = s.power := by
  unfold Dev.pqShow
  dsimp only
  rw [Dev.forN_power _ fun t _ => Dev.bump_power .., Dev.forN_power _ fun t _ => Dev.bump_power .., Dev.forN_power _ fun t _ => Dev.bump_power ..]
  simp

@[simp] theorem Dev.pqCommit_power (s : Dev) (g : Nat) : (s.pqCommit g).power = s.power := by
  unfold Dev.pqCommit
  dsimp only
  rw [Dev.foldl_power _ fun t r => t.pqWrite_power r]
  exact s.pqShow_power g _ _

/-! #### Harmonics (HARM) -/

@[simp] theorem Dev.harmShow_power (s : Dev) (g : Nat) : (s.harmShow g).power = s.power := s.setB_power _ _

@[simp] theorem Dev.harmMiss_power (s : Dev) (g : Nat) : (s.harmMiss g).power = s.power := by
  unfold Dev.harmMiss; split <;> rfl

@[simp] theorem Dev.aggCover_power (s : Dev) (recs : List (Nat × AggRec)) (volts lanes : Nat) : (s.aggCover recs volts lanes).power = s.power := rfl

@[simp] theorem Dev.shortClose_power (s : Dev) (g flags : Nat) : (s.shortClose g flags).power = s.power := by
  simp [Dev.shortClose]

@[simp] theorem Dev.tenClose_power (s : Dev) (g flags next slot : Nat) : (s.tenClose g flags next slot).power = s.power := by
  unfold Dev.tenClose
  split
  · simp
  · rfl

@[simp] theorem Dev.tenFlush_power (s : Dev) (g : Nat) : (s.tenFlush g).power = s.power := by
  unfold Dev.tenFlush; split <;> simp

@[simp] theorem Dev.harmMissed_power (s : Dev) (g : Nat) (inj live : Bool) (ev flags : Nat) : (s.harmMissed g inj live ev flags).power = s.power := by
  simp [Dev.harmMissed]

@[simp] theorem Dev.harmDrop_power (s : Dev) (g : Nat) (cyc : Option Nat) (flags : Nat) : (s.harmDrop g cyc flags).power = s.power := by
  unfold Dev.harmDrop
  simp only [Dev.ite_power, Dev.harmShow_power, Dev.harmMissed_power, Dev.hgUpd_power, ite_self]

@[simp] theorem Dev.harmClose_power (s : Dev) (g first : Nat) (cover : List Nat) : (s.harmClose g first cover).power = s.power := by
  unfold Dev.harmClose
  simp only [Dev.ite_power, Dev.harmShow_power, Dev.harmMissed_power, Dev.hgUpd_power, Dev.injUse_power, ite_self]

@[simp] theorem Dev.harmGather_power (s : Dev) (g c : Nat) (r : Rec) (b : ChanBlock) : (s.harmGather g c r b).power = s.power := by
  unfold Dev.harmGather
  simp only [Dev.ite_power, Dev.harmShow_power, Dev.harmDrop_power, Dev.harmClose_power, Dev.hgUpd_power, ite_self]

/-! #### Pods and their life records (EYE) -/

@[simp] theorem Dev.podUpd_power (s : Dev) (l : Nat) (f : Pod → Pod) : (s.podUpd l f).power = s.power := rfl
@[simp] theorem Dev.setPodx_power (s : Dev) (l v : Nat) : (s.setPodx l v).power = s.power := rfl
@[simp] theorem Dev.eyeSend_power (s : Dev) (wire : Nat) (sent back : List Byte) : (s.eyeSend wire sent back).power = s.power := rfl

/-- The last write of a series, or none. -/
theorem Dev.lastSend_power (s : Dev) (wire id : Nat) (w : Option (Nat × List Byte)) (ok : Bool) :
    (match w with | some w => s.eyeSend wire (eyeWriteTx id w.1 w.2) [if ok then 0x96 else 0x69] | none => s).power = s.power := by
  cases w <;> rfl

@[simp] theorem Dev.eyeWrite_power (s : Dev) (wire id : Nat) (ws : List (Nat × List Byte)) (fault : Nat) : (s.eyeWrite wire id ws fault).1.power = s.power := by
  have hsent : (ws.dropLast.foldl (fun (t : Dev) w => t.eyeSend wire (eyeWriteTx id w.1 w.2) [if true then 0x96 else 0x69]) s).power = s.power :=
    Dev.foldl_power _ (fun _ _ => Dev.eyeSend_power ..) _ _
  unfold Dev.eyeWrite
  dsimp only
  cases ws.getLast? <;> split <;> (try split) <;> simpa using hsent

@[simp] theorem Dev.lifeWriteAt_power (s : Dev) (wire l fault : Nat) : (s.lifeWriteAt wire l fault).power = s.power := by
  unfold Dev.lifeWriteAt
  split
  · rfl
  · split
    · rfl
    · dsimp only
      split <;> simp

@[simp] theorem Dev.lifeWriteNow_power (s : Dev) (l : Nat) : (s.lifeWriteNow l).power = s.power := by
  simp [Dev.lifeWriteNow, Dev.lifeWrite]

@[simp] theorem Dev.unverify_power (s : Dev) (l no : Nat) : (s.unverify l no).power = s.power := by
  unfold Dev.unverify
  split
  · rfl
  · split
    · rfl
    · rw [Dev.raiseItem_power]; rfl

@[simp] theorem Dev.podCount_power (s : Dev) (l : Nat) (r : Rec) : (s.podCount l r).power = s.power := by
  unfold Dev.podCount
  split
  · rfl
  · simp only [Dev.ite_power, Dev.unverify_power, Dev.lifeWriteNow_power, Dev.setPodx_power, ite_self]

/-! #### Pulses and the disconnect points -/


@[simp] theorem Dev.pulseAdd_power (s : Dev) (n e span : Nat) : (s.pulseAdd n e span).power = s.power := by
  unfold Dev.pulseAdd; split <;> rfl

@[simp] theorem Dev.pulseLane_power (s : Dev) (c : Nat) (r : Rec) : (s.pulseLane c r).power = s.power := by
  unfold Dev.pulseLane
  split
  · rfl
  · exact Dev.forN_power _ (fun t n => by simp) _ _

@[simp] theorem Dev.pulseBill_power (s : Dev) (b q e span : Nat) : (s.pulseBill b q e span).power = s.power :=
  Dev.forN_power _ (fun t n => by simp) _ _

@[simp] theorem Dev.dpCurrent_power (s : Dev) (lane : Nat) (r : Rec) : (s.dpCurrent lane r).power = s.power :=
  Dev.forN_power _ (fun t n => by simp) _ _

end Sys2Proof.Machine

/-! ### The partial records of a warning and the commit keep `power` (R57) -/

namespace Sys2Proof.Machine

open Sys2Proof.Safety

/-! #### Records and blocks -/

@[simp] theorem Dev.onPacer_power (s : Dev) (w : Nat) (f : Dev → Dev) (h : (f s).power = s.power) : (s.onPacer w f).power = s.power := by
  unfold Dev.onPacer
  split
  · exact h
  · rfl

@[simp] theorem Dev.joinAt_power (s : Dev) (g w : Nat) (pos : Int) (volts : Bool) : (s.joinAt g w pos volts).power = s.power := by
  unfold Dev.joinAt
  dsimp only
  rw [Dev.pacerUpd_power]
  refine Dev.foldl_power _ (fun t c => ?_) _ _
  rfl

@[simp] theorem Dev.noteClamps_power (s : Dev) (w : Nat) (sc : List Scale) : (s.noteClamps w sc).power = s.power :=
  Dev.foldl_power _ (fun t c => by simp) _ _

@[simp] theorem Dev.putLive_power (s : Dev) (c : Nat) (r : Rec) : (s.putLive c r).power = s.power := rfl
@[simp] theorem Dev.putCommitted_power (s : Dev) (c : Nat) (r : Rec) : (s.putCommitted c r).power = s.power := rfl
@[simp] theorem Dev.putHoldup_power (s : Dev) (c : Nat) (r : Rec) : (s.putHoldup c r).power = s.power := rfl

@[simp] theorem Dev.postRec_power (s : Dev) (bd : List Binding) (g c : Nat) (r : Rec) : (s.postRec bd g c r).power = s.power := by
  unfold Dev.postRec
  dsimp only
  generalize hs1 : (if c < 192 then s.podCount c r else { s with bill := _ }) = s1
  have hpod : s1.power = s.power := by rw [← hs1]; split <;> simp
  split
  · split <;> exact hpod
  · exact hpod

/-- A record that commits. -/
@[simp] theorem Dev.commitRec_power (s : Dev) (bd : List Binding) (g c : Nat) (r : Rec) (b : ChanBlock) : (s.commitRec bd g c r b).power = s.power := by
  unfold Dev.commitRec
  simp only [Dev.ite_power, Dev.putHoldup_power, Dev.harmGather_power, Dev.pulseLane_power, Dev.dpCurrent_power, Dev.postRec_power, Dev.putLive_power,
    Dev.putCommitted_power, ite_self]

/-- A holdup slot passed to billing. -/
@[simp] theorem Dev.holdupStep_power (s : Dev) : s.holdupStep.power = s.power := by
  unfold Dev.holdupStep
  exact Dev.foldl_power _ (fun u e => by simp) _ _

@[simp] theorem Dev.lastShow_power (s : Dev) (g w : Nat) (step : Int) (last : Option Int) : (s.lastShow g w step last).power = s.power := by
  unfold Dev.lastShow
  apply Dev.onPacer_power
  dsimp only
  split <;> simp

/-- In HOLDUP no interval without metering ends (R59). -/
theorem Dev.startCounted_inHoldup {s : Dev} (h : s.power.st = .holdup) (pos : Int) : s.startCounted pos = s := by
  have hin : s.inHoldup = true := by simp [Dev.inHoldup, h]
  unfold Dev.startCounted
  split
  · rw [if_pos hin]
  · rfl

/-- A cycle that commits in HOLDUP. -/
theorem Dev.commitWork_power {s : Dev} (h : s.power.st = .holdup) (g w : Nat) (bd : List Binding) (cyc : Nat) (work : Work) (pos : Int) (f : Rec → Rec) :
    (s.commitWork g w bd cyc work pos f).power = s.power := by
  have hin : s.inHoldup = true := by simp [Dev.inHoldup, h]
  unfold Dev.commitWork
  simp only [hin, if_true, Dev.startCounted_inHoldup h, Dev.ite_power, Dev.raise_power, Dev.set_power, Dev.pacerUpd_power, Dev.trkUpd_power, Dev.pqCommit_power,
    Dev.set64_power, ite_self]
  exact Dev.foldl_power _ (fun t e => Dev.commitRec_power ..) _ _

theorem Dev.partialOne_power {s : Dev} (h : s.power.st = .holdup) (g : Nat) (k : ClosePlan) (pos : Int) (gun : Bool) (w : Nat) :
    (s.partialOne g k pos gun w).power = s.power := by
  unfold Dev.partialOne
  dsimp only
  split
  · rfl
  · generalize ht : (if w < 12 then (_ : Dev) else _) = t
    have hshown : t.power = s.power := by rw [← ht]; simp
    rw [Dev.commitWork_power (by rw [hshown]; exact h), hshown]

theorem Dev.blockBegin_power (s : Dev) (g : Nat) (pos : Int) (fresh : Bool) : (s.blockBegin g pos fresh).power = s.power := by
  unfold Dev.blockBegin
  dsimp only
  rw [Dev.foldl_power _ fun t w => Dev.lastShow_power .., Dev.trkUpd_power, Dev.ite_power, Dev.foldl_power _ fun t w => Dev.joinAt_power .., ite_self]

/-- What each step of a fold keeps of `power` in HOLDUP, the fold keeps. -/
theorem Dev.foldl_power_inHoldup {α : Type} (f : Dev → α → Dev) (hf : ∀ (t : Dev) (x : α), t.power.st = .holdup → (f t x).power = t.power) {s : Dev}
    (h : s.power.st = .holdup) (l : List α) : (l.foldl f s).power = s.power :=
  foldl_inv (fun t : Dev => t.power = s.power) f (fun t x ht => (hf t x (by rw [ht]; exact h)).trans ht) l s rfl

theorem Dev.blockClose_power {s : Dev} (h : s.power.st = .holdup) (g : Nat) (start pos : Int) (short : Bool) (f : Rec → Rec) :
    (s.blockClose g start pos short f).power = s.power := by
  unfold Dev.blockClose
  dsimp only
  rw [Dev.blockBegin_power]
  generalize hs2 : (if (posDiff pos start / s.fixedStep g).toNat = 0 then (_ : Dev) else Dev.trkUpd _ _ _) = s2
  have hs : s2.power = s.power := by
    rw [← hs2, Dev.ite_power, Dev.trkUpd_power, Dev.foldl_power _ fun u w => by simp]
    exact ite_self _
  split
  · exact hs
  · rw [Dev.foldl_power_inHoldup _ _ (by rw [hs]; exact h), hs]
    intro u w hu
    have hshown : ∀ t : Dev, t.power = u.power → t.power.st = .holdup := fun t ht => by rw [ht]; exact hu
    rw [Dev.commitWork_power (hshown _ (by simp))]
    simp

/-- The partial records of a warning. -/
theorem Dev.pfForm_power {s : Dev} (h : s.power.st = .holdup) : s.pfForm.power = s.power := by
  unfold Dev.pfForm forN
  refine Dev.foldl_power_inHoldup _ (fun t g ht => ?_) h _
  split
  · rfl
  · dsimp only
    generalize ht1 : t.trkUpd g _ = t1
    have hpow : t1.power = t.power := by rw [← ht1, Dev.trkUpd_power]
    have hin : t1.power.st = .holdup := by rw [hpow]; exact ht
    split
    · split
      · rw [Dev.blockClose_power hin, hpow]
      · exact hpow
    · rw [Dev.foldl_power_inHoldup _ (fun u w hu => Dev.partialOne_power hu ..) hin, hpow]

end Sys2Proof.Machine

/-! ### What billing leaves of `power`: the engine's cycles, its commits, and tamper -/

namespace Sys2Proof.Machine

open Sys2Proof.Safety

/-! #### Tamper conditions found in a cycle (R325, R337) -/

@[simp] theorem Dev.raiseOrOwe_power (s : Dev) (e : Event) (live : Bool) : (s.raiseOrOwe e live).power = s.power := by
  unfold Dev.raiseOrOwe; split <;> simp

@[simp] theorem Dev.tampTell_power (s : Dev) (e : Event) (live : Bool) : (s.tampTell e live).power = s.power := by
  unfold Dev.tampTell; split <;> simp

@[simp] theorem Dev.closeSession_power (s : Dev) : s.closeSession.power = s.power := by
  unfold Dev.closeSession; split <;> simp

@[simp] theorem Dev.erase_power (s : Dev) : s.erase.power = s.power := by
  simp [Dev.erase]

@[simp] theorem Dev.stick_power (s : Dev) (n : Nat) : (s.stick n).power = s.power := by
  unfold Dev.stick
  dsimp only
  split <;> simp

@[simp] theorem Dev.qualifyInj_power (s : Dev) (n : Nat) (live : Bool) : (s.qualifyInj n live).power = s.power := by
  have heq : s.qualifyInj n live =
      @ite Dev _ _ (@ite Dev _ _ (Dev.erase _) (Dev.tampTell (Dev.driveAlarm (Dev.set (Dev.stick { s with sec := _ } _) _ _)) _ _))
        (Dev.tampTell { s with sec := _ } _ _) := rfl
  rw [heq]
  split
  · rw [Dev.ite_power, Dev.erase_power, ite_self, Dev.tampTell_power, Dev.driveAlarm_power, Dev.set_power, Dev.stick_power]
  · rw [Dev.tampTell_power]

@[simp] theorem Dev.tampInj_power (s : Dev) (n : Nat) : (s.tampInj n).power = s.power := by
  unfold Dev.tampInj; split <;> simp

@[simp] theorem Dev.tampLive_power (s : Dev) (n : Nat) (b : Bool) : (s.tampLive n b).power = s.power := by
  rw [Dev.tampLive, Dev.set_power]

@[simp] theorem Dev.meterCond_power (s : Dev) (n item bp : Nat) (e : Option Bool) : (s.meterCond n item bp e).power = s.power := by
  unfold Dev.meterCond; split <;> simp

@[simp] theorem Dev.meterShow_power (s : Dev) : s.meterShow.power = s.power := by
  simp only [Dev.meterShow, Dev.tampLive_power, Dev.set_power, Dev.set64_power]

@[simp] theorem Dev.revLane_power (s : Dev) (b : Nat) (psum : Int) (lane : Nat) (r : Rec) (iso : Bool) : (s.revLane b psum lane r iso).power = s.power := by
  simp only [Dev.revLane, Dev.meterCond_power]

@[simp] theorem Dev.bypPoint_power (s : Dev) (b : Nat) (hasN isolated : Bool) (phase neutral : List Rec) :
    (s.bypPoint b hasN isolated phase neutral).power = s.power := by
  unfold Dev.bypPoint
  split
  · rfl
  · simp only [Dev.meterCond_power]

@[simp] theorem Dev.neutGrp_power (s : Dev) (g cyc : Nat) : (s.neutGrp g cyc).power = s.power := by
  simp only [Dev.neutGrp, Dev.meterCond_power]

/-! #### A billing cycle (R264, R265) -/

@[simp] theorem Dev.billNote_power (s : Dev) (no bp : Nat) (late : Bool) (data : List Byte) : (s.billNote no bp late data).power = s.power := by
  simp [Dev.billNote]

@[simp] theorem Dev.creditRule_power (s : Dev) (b q n t : Nat) : (s.creditRule b q n t).power = s.power := by
  unfold Dev.creditRule
  dsimp only
  split
  · rfl
  · split
    · simp
    · split
      · simp
      · split <;> simp

@[simp] theorem Dev.billAdd_power (s : Dev) (b : Nat) (key : Binding) (q e span : Nat) : (s.billAdd b key q e span).power = s.power := by
  simp only [Dev.billAdd, Dev.pulseBill_power, Dev.creditRule_power, Dev.ite_power, Dev.billNote_power, Dev.bpUpd_power, ite_self]

@[simp] theorem Dev.imgPublish_power (s : Dev) : s.imgPublish.power = s.power := by
  unfold Dev.imgPublish; split <;> simp

@[simp] theorem Dev.applyCycle_power (s : Dev) (b : Nat) (ps : List Posting) : (s.applyCycle b ps).power = s.power := by
  have hout (t : Dev) (l : List Posting) : (l.foldl (fun (t : Dev) p => t.raiseEv { code := evCode Pg.BILL 8, seq := t.newestSeq, item := p.lane, bp := b }) t).power = t.power :=
    Dev.foldl_power _ (fun t p => Dev.raiseEv_power ..) l t
  have hadd (t : Dev) (k : Binding) (span : Nat) (l : List (Nat × Nat)) : (l.foldl (fun (t : Dev) i => t.billAdd b k i.1 i.2 span) t).power = t.power :=
    Dev.foldl_power _ (fun t i => Dev.billAdd_power ..) l t
  have hrev (t : Dev) (psum : Int) (l : List Posting) : (l.foldl (fun (t : Dev) p => t.revLane b psum p.lane p.rcd p.rcd.isolated) t).power = t.power :=
    Dev.foldl_power _ (fun t p => Dev.revLane_power ..) l t
  cases ps with
  | nil => rfl
  | cons p0 r =>
    simp only [Dev.applyCycle, Dev.imgPublish_power, Dev.imgUpd_power, Dev.meterShow_power, Dev.ite_power, Dev.neutGrp_power, Dev.tampInj_power, Dev.bypPoint_power,
      hrev, hadd, hout, Dev.bpUpd_power, ite_self]

@[simp] theorem Dev.dropPosts_power (s : Dev) (b : Nat) (l : List Posting) : (s.dropPosts b l).power = s.power := rfl

@[simp] theorem Dev.applyNext_power (s : Dev) (b : Nat) (force : Bool) : (s.applyNext b force).power = s.power := by
  unfold Dev.applyNext
  split
  · rfl
  · simp only [Dev.ite_power, Dev.dropPosts_power, Dev.applyCycle_power, Dev.raiseBp_power, ite_self]

@[simp] theorem Dev.applyAll_power (s : Dev) : s.applyAll.power = s.power := by
  unfold Dev.applyAll
  split
  · exact Dev.forN_power _ (fun t b => Dev.foldl_power _ (fun u _ => u.applyNext_power b true) _ _) _ _
  · rfl

/-! #### Commits to MRAM (R279, R284) -/

@[simp] theorem Dev.commitPut_power (s : Dev) (buf : Nat) (i : Image) : (s.commitPut buf i).power = s.power := by
  simp only [Dev.commitPut, Dev.raise_power, Dev.set_power]

@[simp] theorem Dev.commitTry_power (s : Dev) (ok : Bool) : (s.commitTry ok).1.power = s.power := by
  unfold Dev.commitTry; split <;> simp

@[simp] theorem Dev.escalated_power (s : Dev) (buf : Nat) (inj live : Bool) : (s.escalated buf inj live).power = s.power := by
  simp only [Dev.escalated, Dev.raiseInj_power, Dev.journal_power, Dev.raiseEv_power]

@[simp] theorem Dev.escalate_power (s : Dev) (buf : Nat) (i : Image) (inj : Bool) : (s.escalate buf i inj).power = s.power := by
  simp only [Dev.escalate, Dev.escalated_power, Dev.ite_power, Dev.commitPut_power, Dev.set_power, ite_self]

@[simp] theorem Dev.commitImg_power (s : Dev) (ok1 ok2 : Bool) (j : Option JEntry) : (s.commitImg ok1 ok2 j).power = s.power := by
  simp only [Dev.commitImg, Dev.ite_power, Dev.commitPut_power, Dev.raiseInj_power, Dev.escalated_power, Dev.escalate_power, Dev.commitTry_power, ite_self]

@[simp] theorem Dev.stageCommit_power (s : Dev) (ok1 ok2 : Bool) (j : Option JEntry) : (s.stageCommit ok1 ok2 j).1.power = s.power := s.commitImg_power ok1 ok2 j

/-! #### The power-fail commit (R57) -/

/-- Step 6 of R57: the commit freezes billing, and what it shows and raises keeps it so. -/
def Dev.pfFreeze (s : Dev) (stored : Bool) (us : Nat) : Dev :=
  let s2 := s.billUpd fun (b : Bill) => { b with frozen := true }
  let s3 := if stored then (s2.set Fld.PWR_PF_STAT_COMMIT_DONE 1).set Fld.PWR_PF_TIMES_COMMIT_US (satN 0xFFFF us) else s2
  if 4000 < us then (s3.set Fld.PWR_PF_STAT_LATE 1).raise Pg.PWR 4 else s3

theorem Dev.pfFreeze_power (s : Dev) (stored : Bool) (us : Nat) : (s.pfFreeze stored us).power = s.power := by
  simp only [Dev.pfFreeze, Dev.ite_power, Dev.raise_power, Dev.set_power, Dev.billUpd_power, ite_self]

/-- Raised events leave billing frozen or not. -/
theorem eventsOnly_frozen {s t : Dev} (h : eventsOnly s t) : t.bill.frozen = s.bill.frozen := by
  obtain ⟨-, _, _, _, _, _, _, rfl⟩ := h
  rfl

theorem Dev.pfFreeze_frozen (s : Dev) (stored : Bool) (us : Nat) : (s.pfFreeze stored us).bill.frozen = true := by
  unfold Dev.pfFreeze
  dsimp only
  generalize hs3 : (if stored then (_ : Dev) else Dev.billUpd _ _) = s3
  have hfrozen : s3.bill.frozen = true := by rw [← hs3]; split <;> rfl
  split
  · rw [eventsOnly_frozen (Dev.raise_eventsOnly _ _ _), Dev.set_bill, hfrozen]
  · exact hfrozen

/-- What the commit's image is made of: the partial records posted, every complete cycle applied, and, where billing runs, the image published with its entry. -/
def Dev.pfImage (s : Dev) : Dev :=
  let s1 := s.pfForm.applyAll
  if s.billUp then s1.imgPublish.journal (evCode Pg.PWR 0) 0xFF false false (leBytes 8 s.power.closeMt ++ leBytes 8 s.mt) else s1

theorem Dev.pfImage_power {s : Dev} (h : s.power.st = .holdup) : s.pfImage.power = s.power := by
  simp only [Dev.pfImage, Dev.ite_power, Dev.journal_power, Dev.imgPublish_power, Dev.applyAll_power, Dev.pfForm_power h, ite_self]

/-- A commit of the power-fail warning that no reset follows. -/
theorem Dev.pfCommit_spec {s : Dev} (ok1 ok2 : Bool) (h : s.power.st = .holdup) (hot : s.power.byOvertemp = false)
    (hgo : s.power.before ≠ .shutdownTest ∨ s.warned = true) :
    (s.pfCommit ok1 ok2).bill.frozen = true ∧ (s.pfCommit ok1 ok2).power = s.power := by
  have hstay : (s.power.before == .shutdownTest && !s.warned) = false := by
    rcases hgo with hb | hw
    · simp [hb]
    · simp [hw]
  have heq : s.pfCommit ok1 ok2 =
      (s.pfImage.stageCommit ok1 ok2 (if s.billUp then s.pfImage.bill.journal.head? else none)).1.pfFreeze
        (s.pfImage.stageCommit ok1 ok2 (if s.billUp then s.pfImage.bill.journal.head? else none)).2 ((s.mt - s.power.edgeMt) * 1000 / 24576) := by
    unfold Dev.pfCommit
    dsimp only
    rw [hot, hstay]
    rfl
  rw [heq]
  exact ⟨Dev.pfFreeze_frozen _ _ _, by rw [Dev.pfFreeze_power, Dev.stageCommit_power, Dev.pfImage_power h]⟩

end Sys2Proof.Machine

namespace Sys2Proof.Certificates

open Sys2Proof Sys2Proof.Machine Sys2Proof.Safety

theorem powerFailCommit_completes (s : State) (ok1 ok2 : Bool) (hst : s.power.st = .holdup) (hfree : s.bill.frozen = false)
    (hdue : s.power.commitSkipped = false) (hot : s.power.byOvertemp = false) (hpub : s.published = true) (hnow : s.pfWaits = false)
    (hgo : s.power.before ≠ .shutdownTest ∨ s.warned = true) :
    completes (.powerFailCommit ok1 ok2) s fun t => keepsQueue s t ∧ t.bill.frozen = true ∧ t.power = { s.power with startFrom := t.power.startFrom } := by
  have howed : s.pfOwed = true := by simp [Dev.pfOwed, hst, hfree, hdue, hpub]
  have hexec : exec (.powerFailCommit ok1 ok2) s = .next { s with toDev := s.toDev.pfCommit ok1 ok2 } := by
    show execPowerFailCommit ok1 ok2 s = _
    simp only [execPowerFailCommit, mainAct_eq _ _ (Dev.mainOn_of_holdup hst), howed, hnow, Bool.not_false, Bool.and_self, if_true]
  obtain ⟨hfrozen, hpow⟩ := s.toDev.pfCommit_spec ok1 ok2 hst hot hgo
  refine ⟨_, hexec, ⟨rfl, rfl⟩, hfrozen, ?_⟩
  show (s.toDev.pfCommit ok1 ok2).power = _
  rw [hpow]

end Sys2Proof.Certificates

/-! ### What a clearing resumes leaves of `power` (R53, R58): alarms, pods, PLC -/

namespace Sys2Proof.Machine

open Sys2Proof.Safety

/-! #### The PLC's maps and neighbours -/

@[simp] theorem Dev.nbRate_power (s : Dev) (i : Nat) : (s.nbRate i).power = s.power := by
  simp only [Dev.nbRate, Dev.set_power]

@[simp] theorem Dev.plcQueue_power (s : Dev) (f : TxFrame) : (s.plcQueue f).power = s.power := rfl
@[simp] theorem Dev.rxLose_power (s : Dev) (p : FC → Bool) : (s.rxLose p).power = s.power := rfl

@[simp] theorem Dev.refreshStart_power (s : Dev) (i : Nat) : (s.refreshStart i).power = s.power := by
  unfold Dev.refreshStart
  split
  · rfl
  · rw [Dev.raise_power, Dev.plcQueue_power, Dev.nbUpd_power, Dev.tick_power]

@[simp] theorem Dev.mapsDrop_power (s : Dev) : s.mapsDrop.power = s.power := by
  have heq : s.mapsDrop = List.foldl _ (List.foldl _ (s.rxLose _) _) _ := rfl
  rw [heq, Dev.foldl_power _ fun t i => by simp, Dev.foldl_power _ fun t i => by simp, Dev.rxLose_power]

@[simp] theorem Dev.plcRestart_power (s : Dev) : s.plcRestart.power = s.power := by
  rw [Dev.plcRestart, Dev.mapsDrop_power, Dev.foldl_power _ fun t i => by simp]

/-! #### Pod transfers that a warning had stopped -/

@[simp] theorem Dev.eyeTry_power (s : Dev) (wire : Nat) (bad : Bool) : (s.eyeTry wire bad).1.power = s.power := by
  unfold Dev.eyeTry
  split
  · exact s.injUse_power _
  · rfl

@[simp] theorem Dev.eyeRead1_power (s : Dev) (wire id : Nat) (r : Nat × List Byte) (fault : Nat) : (s.eyeRead1 wire id r fault).1.power = s.power := by
  unfold Dev.eyeRead1
  dsimp only
  split_ifs <;> simp

@[simp] theorem Dev.eyeRead_power (wire id : Nat) (rs : List (Nat × List Byte)) (f : List Nat) (s : Dev) : (Dev.eyeRead wire id rs f s).1.power = s.power := by
  induction rs generalizing f s with
  | nil => rfl
  | cons r rs ih =>
    rw [Dev.eyeRead]
    split
    · rw [ih, Dev.eyeRead1_power]
    · exact s.eyeRead1_power wire id r _

@[simp] theorem Dev.xferEnd_power (s : Dev) (data : List Byte) (fail : Nat) : (s.xferEnd data fail).power = s.power := by
  have hwords (t : Dev) (v : Nat → Word) : (forN 8 t fun t i => t.wr (Reg.EYE_XDATA i) (v i)).power = t.power :=
    Dev.forN_power _ (fun t i => Dev.wr_power ..) _ _
  unfold Dev.xferEnd
  dsimp only
  rw [Dev.set_power, Dev.set_power, Dev.setB_power, Dev.ite_power, hwords, ite_self]
  split <;> simp

@[simp] theorem Dev.scanEnd_power (s : Dev) : s.scanEnd.power = s.power := by
  unfold Dev.scanEnd
  dsimp only
  split
  · rw [Dev.xferEnd_power]; simp
  · split <;> simp

@[simp] theorem Dev.eyeResume_power (s : Dev) : s.eyeResume.power = s.power := by
  unfold Dev.eyeResume
  split
  · rfl
  · split
    · rw [Dev.xferEnd_power]
    · split <;> simp

/-! #### Snapshots and the alarms that waited -/

@[simp] theorem Dev.commit_power (s : Dev) (ok1 ok2 : Bool) : (s.commit ok1 ok2).power = s.power := by
  unfold Dev.commit; split <;> simp

@[simp] theorem Dev.commitFree_power (s : Dev) : s.commitFree.power = s.power := by
  simp only [Dev.commitFree, Dev.commit_power, Dev.tick_power]

@[simp] theorem Dev.snapshot_power (s : Dev) (minute snapf : Nat) : (s.snapshot minute snapf).power = s.power := by
  simp only [Dev.snapshot, Dev.set_power]

@[simp] theorem Dev.extraSnapshot_power (s : Dev) (minute snapf : Nat) : (s.extraSnapshot minute snapf).power = s.power := by
  simp only [Dev.extraSnapshot, Dev.commitFree_power, Dev.snapshot_power, Dev.imgPublish_power]

@[simp] theorem Dev.snapMark_power (s : Dev) (sec : Nat) : (s.snapMark sec).power = s.power := s.billUpd_power _

@[simp] theorem Dev.almNote_power (s : Dev) (a : AlmDue) : (s.almNote a).power = s.power := by
  unfold Dev.almNote; split <;> simp

/-- In the ride-through of a device that was in RUN nothing wakes (R54). -/
theorem Dev.wake_rideThrough {s : Dev} (hst : s.power.st = .rideThrough) (hb : s.power.before = .run) (src : Nat) : s.wake src = s := by
  unfold Dev.wake
  simp [hst, hb]

theorem Dev.almGive_power {s : Dev} (hst : s.power.st = .rideThrough) (hb : s.power.before = .run) (late : Bool) (a : AlmDue) :
    (Dev.almGive late s a).power = s.power := by
  unfold Dev.almGive
  dsimp only
  generalize hs2 : (if a.caught then (_ : Dev) else _) = s2
  have hraised : s2.power = s.power := by rw [← hs2]; split <;> simp
  have hasleep : (if a.wake then s2.wake 0 else s2) = s2 := by
    split
    · exact Dev.wake_rideThrough (by rw [hraised]; exact hst) (by rw [hraised]; exact hb) 0
    · rfl
  rw [hasleep]
  split_ifs <;> simp [hraised]

/-- The alarms that waited are given without a change of state. -/
theorem Dev.almRide_power {s : Dev} (hst : s.power.st = .rideThrough) (hb : s.power.before = .run) : s.almRide.power = s.power := by
  unfold Dev.almRide Dev.almTake
  refine foldl_inv (fun t : Dev => t.power = s.power) _ (fun t a ht => ?_) _ _ (s.rtcUpd_power _)
  rw [Dev.almGive_power (by rw [ht]; exact hst) (by rw [ht]; exact hb), ht]

/-! #### Ride-through (R58) -/

/-- The time of a clearing is noted, billing goes on, and the 10-minute records in progress are flagged. -/
def Dev.clearNoted (s : Dev) : Dev :=
  let s1 := (s.powUpd fun (w : Power) => { w with clearMt := s.mt }).billUpd fun (b : Bill) => { b with frozen := false, holdups := b.holdups ++ [(s.power.edgeMt, s.mt)] }
  { s1 with harm := { s1.harm with grp := s1.harm.grp.map fun (h : HarmGrp) => { h with tenFlags := h.tenFlags ||| 0x00800000 } } }

theorem Dev.clearNoted_power (s : Dev) : s.clearNoted.power = { s.power with clearMt := s.mt } := rfl

theorem Dev.pfResume_eq (s : Dev) : s.pfResume = s.clearNoted.holdupStep.almRide.eyeResume.plcRestart := rfl

/-- A clearing in the ride-through of a device that was in RUN notes its time alone. -/
theorem Dev.pfResume_power {s : Dev} (hst : s.power.st = .rideThrough) (hb : s.power.before = .run) : s.pfResume.power = { s.power with clearMt := s.mt } := by
  have hnoted : s.clearNoted.holdupStep.power = { s.power with clearMt := s.mt } := by rw [Dev.holdupStep_power, Dev.clearNoted_power]
  rw [Dev.pfResume_eq, Dev.plcRestart_power, Dev.eyeResume_power, Dev.almRide_power (by rw [hnoted]; exact hst) (by rw [hnoted]; exact hb), hnoted]

/-- No tracker has committed a normal cycle yet. -/
def Dev.noneCommitted (s : Dev) : Dev := { s with meter := { s.meter with trk := s.meter.trk.map fun (t : Tracker) => { t with committed := false } } }

theorem Dev.noneCommitted_power (s : Dev) : s.noneCommitted.power = s.power := rfl

theorem Dev.rideThrough_eq (s : Dev) :
    s.rideThrough = ((((s.set Fld.PWR_PF_STAT_RT 1).set Fld.PWR_PF_TIMES_HOLD_MS (satN 0xFFFF ((s.mt - s.power.edgeMt) / 24576))).setPower
      .rideThrough).pfResume).noneCommitted := rfl

theorem Dev.rideThrough_power {s : Dev} (hb : s.power.before = .run) : s.rideThrough.power = { s.power with st := .rideThrough, clearMt := s.mt } := by
  rw [Dev.rideThrough_eq, Dev.noneCommitted_power, Dev.pfResume_power (by rw [Dev.setPower_power])
    (by rw [Dev.setPower_power, Dev.set_power, Dev.set_power]; exact hb), Dev.setPower_power, Dev.set_power, Dev.set_power, Dev.setPower_mt, Dev.set_mt, Dev.set_mt]

/-- A warning that clears in HOLDUP after RUN (R53). -/
theorem Dev.pfClear_afterRun {s : Dev} (mv : Nat) (hst : s.power.st = .holdup) (hw : s.warned = true) (hot : s.power.byOvertemp = false)
    (hb : s.power.before = .run) (hmv : 5500 + 100 * s.get Fld.PWR_PF_CFG_THR + 500 < mv) :
    (s.pfClear mv).power.st = .rideThrough ∧ (s.pfClear mv).power.before = .run := by
  have heq : s.pfClear mv = ((((s.vsupSet mv).set Fld.PWR_PF_STAT_WARN 0).set Fld.PWR_PF_STAT_COMMIT_DONE 0).raise Pg.PWR 1).rideThrough := by
    simp only [Dev.pfClear, Dev.pfThreshold, hst, hw, hot, hb, hmv, beq_self_eq_true, Bool.not_false, decide_true, Bool.and_self, if_true]
  rw [heq, Dev.rideThrough_power]
  · exact ⟨rfl, by simpa using hb⟩
  · simpa using hb

end Sys2Proof.Machine

namespace Sys2Proof.Certificates

open Sys2Proof Sys2Proof.Machine Sys2Proof.Safety

theorem powerFailWarningClear_completes (s : State) (mv : Nat) (hst : s.power.st = .holdup) (hw : s.warned = true) (hot : s.power.byOvertemp = false)
    (hb : s.power.before = .run) (hmv : 5500 + 100 * s.get Fld.PWR_PF_CFG_THR + 500 < mv) :
    completes (.powerFailWarningClear mv) s fun t => keepsQueue s t ∧ t.power.st = .rideThrough ∧ t.power.before = .run := by
  obtain ⟨t, ht, kept⟩ := warnAct_pwrKept s (fun d => d.pfClear mv) (Dev.mainOn_of_holdup hst)
  obtain ⟨cst, cbefore⟩ := s.toDev.pfClear_afterRun mv hst hw hot hb hmv
  refine ⟨_, ht, ⟨rfl, rfl⟩, ?_, ?_⟩
  · rw [kept.1]; exact cst
  · rw [kept.1]; exact cbefore

end Sys2Proof.Certificates

/-! ### What the start sequence leaves of `power` (R55): billing's recovery, the disconnect points, the outage, the blocks -/

namespace Sys2Proof.Machine

open Sys2Proof.Safety

/-! #### Tariff (R270) -/

@[simp] theorem Dev.tarEval_power (s : Dev) (sec : Nat) : (s.tarEval sec).power = s.power := by
  unfold Dev.tarEval
  split
  · rfl
  · refine Dev.forN_power _ (fun t k => ?_) 4 s
    simp only [Dev.ite_power, Dev.raiseItem_power, ite_self]

@[simp] theorem Dev.tarInstall_power (s : Dev) (sec : Nat) : (s.tarInstall sec).power = s.power := by
  unfold Dev.tarInstall
  split
  · rfl
  · rw [Dev.tarEval_power, Dev.tblShow_power]

@[simp] theorem Dev.tarLoad_power (s : Dev) (mem : List Host.Cell) (src : Nat) (locked : Bool) : (s.tarLoad mem src locked).power = s.power := by
  simp only [Dev.tarLoad, Dev.ite_power, Dev.raise_power, Dev.tblReject_power, ite_self]

/-! #### The disconnect points -/

@[simp] theorem Dev.dpDrive_power (s : Dev) (n : Nat) : (s.dpDrive n).power = s.power := by
  simp only [Dev.dpDrive, Dev.ite_power, Dev.dpUpd_power, ite_self]

@[simp] theorem Dev.chainFrame_power (s : Dev) : s.chainFrame.power = s.power := by
  have hdriven : (forN 48 s fun t k => t.dpDrive (16 + k)).power = s.power := Dev.forN_power _ (fun t k => t.dpDrive_power _) 48 s
  simp only [Dev.chainFrame, Dev.ite_power, Dev.discUpd_power, hdriven, ite_self]

@[simp] theorem Dev.dpWear_power (s : Dev) (n : Nat) (isOpen : Bool) : (s.dpWear n isOpen).power = s.power := by
  simp only [Dev.dpWear, Dev.ite_power, Dev.raiseItem_power, Dev.dpUpd_power, Dev.set_power, Dev.bump_power, ite_self]

@[simp] theorem Dev.dpVerify_power (s : Dev) (n : Nat) : (s.dpVerify n).power = s.power := by
  simp only [Dev.dpVerify, Dev.ite_power, Dev.raiseItem_power, Dev.dpUpd_power, ite_self]

@[simp] theorem Dev.dpRun_power (s : Dev) (o : DOp) : (s.dpRun o).power = s.power := by
  simp only [Dev.dpRun, Dev.ite_power, Dev.dpVerify_power, Dev.raiseJ_power, Dev.raiseItem_power, Dev.dpWear_power, Dev.set_power, Dev.discUpd_power,
    Dev.dpDrive_power, Dev.dpUpd_power, ite_self]

@[simp] theorem Dev.dpRestore_power (s : Dev) (n : Nat) : (s.dpRestore n).power = s.power := by
  simp only [Dev.dpRestore, Dev.ite_power, Dev.journal_power, Dev.dpRun_power, ite_self]

@[simp] theorem Dev.discRestore_power (s : Dev) (i : Image) : (s.discRestore i).power = s.power := by
  have hpoints (t : Dev) : ((List.range 64).foldl Dev.dpRestore t).power = t.power := Dev.foldl_power _ Dev.dpRestore_power _ t
  simp only [Dev.discRestore, Dev.discUpd_power, Dev.ite_power, Dev.chainFrame_power, hpoints, ite_self]

/-! #### The recovery of billing (R280) -/

@[simp] theorem Dev.bpAll_power (s : Dev) (f : Bp → Bp) : (s.bpAll f).power = s.power := rfl
@[simp] theorem Dev.flagAll_power (s : Dev) (m : Nat) : (s.flagAll m).power = s.power := rfl

@[simp] theorem Dev.restoreRegs_power (s : Dev) (i : Image) : (s.restoreRegs i).power = s.power := by
  have hcfg (t : Dev) (v : Nat → Word) : (forN 64 t fun t b => t.wr (Reg.PREPAY_BP_CFG b) (v b)).power = t.power :=
    Dev.forN_power _ (fun t b => Dev.wr_power ..) 64 t
  simp only [Dev.restoreRegs, hcfg, Dev.set_power]

@[simp] theorem Dev.restoreImage_power (s : Dev) (i : Image) : (s.restoreImage i).power = s.power := by
  simp only [Dev.restoreImage, Dev.discRestore_power, Dev.restoreRegs_power, Dev.billUpd_power]

@[simp] theorem Dev.restorePend_power (s : Dev) (i : Image) : (s.restorePend i).power = s.power := by
  unfold Dev.restorePend
  split
  · split
    · rfl
    · rw [Dev.set_power, Dev.billUpd_power]
  · rfl

@[simp] theorem Dev.noImage_power (s : Dev) (slot seq : Nat) : (s.noImage slot seq).power = s.power := by
  simp only [Dev.noImage, Dev.raise_power, Dev.raiseJ_power, Dev.flagAll_power, Dev.set_power]

/-- The journal's head as recovery shows it. -/
def Dev.headShown (s : Dev) : Dev := match s.bill.journal with | e :: _ => s.set Fld.BILL_JHEAD_SEQ e.seq | [] => s

theorem Dev.headShown_power (s : Dev) : s.headShown.power = s.power := by
  unfold Dev.headShown
  split
  · rw [Dev.set_power]
  · rfl

/-- Billing restored from the newest image in MRAM, else from the newest snapshot, else empty (R280). -/
def Dev.restored (s : Dev) : Dev :=
  match s.mram.newest with
  | some (buf, i) => (((s.restoreImage i).restorePend i).set Fld.BILL_STAT_BUF buf).set Fld.BILL_SEQ_SEQ i.seq
  | none =>
    match s.mram.newestSnap with
    | some (k, i) => (s.restoreImage i).noImage k i.seq
    | none => (s.restoreImage {}).noImage 0xFF 0

theorem Dev.restored_power (s : Dev) : s.restored.power = s.power := by
  unfold Dev.restored
  split
  · rw [Dev.set_power, Dev.set_power, Dev.restorePend_power, Dev.restoreImage_power]
  · split <;> rw [Dev.noImage_power, Dev.restoreImage_power]

theorem Dev.recover_eq (s : Dev) :
    s.recover = (s.set Fld.BILL_STAT_SNAP_NEXT (match s.mram.newestSnap with | some (k, _) => (k + 1) % 24 | none => 0)).headShown.restored := rfl

@[simp] theorem Dev.recover_power (s : Dev) : s.recover.power = s.power := by
  rw [Dev.recover_eq, Dev.restored_power, Dev.headShown_power, Dev.set_power]

/-! #### The outage (R276) -/

@[simp] theorem Dev.periodBoundary_power (s : Dev) (minute snapf : Nat) : (s.periodBoundary minute snapf).power = s.power := by
  simp only [Dev.periodBoundary, Dev.ite_power, Dev.raise_power, Dev.billNote_power, Dev.commitFree_power, Dev.bpAll_power, Dev.set_power, Dev.snapshot_power,
    Dev.imgPublish_power, Dev.flagAll_power, ite_self]

@[simp] theorem Dev.demClose_power (s : Dev) (endMin mt flags : Nat) : (s.demClose endMin mt flags).power = s.power := by
  simp only [Dev.demClose, Dev.raise_power]

@[simp] theorem Dev.billEntry_power (s : Dev) (no : Nat) (late : Bool) (data : List Byte) : (s.billEntry no late data).power = s.power := s.journal_power ..

@[simp] theorem Dev.outageEntries_power (s : Dev) (e i j : Nat) : (s.outageEntries e i j).power = s.power :=
  Dev.foldl_power _ (fun _ _ => Dev.billEntry_power ..) _ _

@[simp] theorem Dev.outageTo_power (e : Nat) (p : Dev × Option Nat) (x : Nat) : (Dev.outageTo e p x).1.power = p.1.power := by
  unfold Dev.outageTo
  split
  · rfl
  · simp only [Dev.outageEntries_power, Dev.ite_power, Dev.outageClose, Dev.demClose_power, ite_self]

@[simp] theorem Dev.outageNote_power (s : Dev) (old new n : Nat) : (s.outageNote old new n).power = s.power := by
  simp only [Dev.outageNote, Dev.billNote_power, Dev.billUpd_power]

/-- The boundaries passed in an outage, each with its demand period and its snapshot. -/
theorem Dev.outageBoundaries_power (e : Nat) (l : List Nat) (p : Dev × Option Nat) :
    (l.foldl (fun (p : Dev × Option Nat) x => ((Dev.outageTo e p x).1.periodBoundary x Snap.LATE, (Dev.outageTo e p x).2)) p).1.power = p.1.power :=
  foldl_keep (fun p : Dev × Option Nat => p.1.power) _ (fun p x => by simp only [Dev.periodBoundary_power, Dev.outageTo_power]) l p

@[simp] theorem Dev.outageSteps_power (s : Dev) (om nm : Nat) : (s.outageSteps om nm).1.power = s.power := by
  simp only [Dev.outageSteps]
  split <;> simp only [Dev.imgUpd_power, Dev.ite_power, Dev.bpAll_power, Dev.billEntry_power, ite_self, Dev.outageTo_power, Dev.outageBoundaries_power]
  · split <;> simp only [Dev.billEntry_power]
  · split <;> simp only [Dev.billEntry_power]

@[simp] theorem Dev.outage_power (s : Dev) : s.outage.power = s.power := by
  unfold Dev.outage
  simp only [Dev.outageNote_power]
  split_ifs <;> simp only [Dev.raise_power, Dev.tarEval_power, Dev.outageSteps_power, Dev.imgUpd_power, Dev.set_power]

/-! #### Blocks and references (R55 step 8), and the GUN (R125) -/

@[simp] theorem Dev.chanUpd_power (s : Dev) (c : Nat) (f : Chan → Chan) : (s.chanUpd c f).power = s.power := by
  unfold Dev.chanUpd; split <;> rfl

@[simp] theorem Dev.blkRestart_power (s : Dev) (b : Nat) : (s.blkRestart b).power = s.power := Dev.foldl_power _ (fun t c => t.chanUpd_power c _) _ _

@[simp] theorem Dev.refShow_power (s : Dev) (r : Nat) : (s.refShow r).power = s.power :=
  Dev.foldl_power _ (fun t b => by simp only [Dev.setB_power]) _ _

@[simp] theorem Dev.blocksOn_power (s : Dev) : s.blocksOn.power = s.power := by
  have hblocks (t : Dev) : (forN 13 t fun t b => (t.set (Hdr.EN (blkPage b)) 1).blkRestart b).power = t.power :=
    Dev.forN_power _ (fun t b => by simp only [Dev.blkRestart_power, Dev.set_power]) 13 t
  have hrefs (t : Dev) : (forN 4 t fun t r => (t.vrefUpd r fun _ => { on := true }).refShow r).power = t.power :=
    Dev.forN_power _ (fun t r => by simp only [Dev.refShow_power, Dev.vrefUpd_power]) 4 t
  have heq : s.blocksOn = forN 4 (forN 13 s fun t b => (t.set (Hdr.EN (blkPage b)) 1).blkRestart b) fun t r => (t.vrefUpd r fun _ => { on := true }).refShow r := rfl
  rw [heq, hrefs, hblocks]

@[simp] theorem Dev.gunOut_power (s : Dev) : s.gunOut.power = s.power := rfl

@[simp] theorem Dev.gun_power (s : Dev) : s.gun.power = s.power := by
  have hblocks (t : Dev) : ((List.range 13).foldl (fun t b => if t.blkOn b then ((t.blkRestart b).bump (Fld.BLK_GUNS b)).raise (blkPage b) 12 else t) t).power = t.power :=
    Dev.foldl_power _ (fun t b => by simp only [Dev.ite_power, Dev.raise_power, Dev.bump_power, Dev.blkRestart_power, ite_self]) _ t
  simp only [Dev.gun, hblocks, Dev.bump_power, Dev.set64_power]

@[simp] theorem Dev.isoSet_power (s : Dev) (b mode amp : Nat) : (s.isoSet b mode amp).power = s.power := by
  simp only [Dev.isoSet, Dev.ite_power, Dev.raise_power, Dev.blkRestart_power, Dev.setB_power, Dev.wr_power, ite_self]

/-! #### The test slices (R467) -/

@[simp] theorem Dev.secretsClear_power (s : Dev) : s.secretsClear.power = s.power := by
  simp only [Dev.secretsClear, Dev.set_power, Dev.closeSession_power]

@[simp] theorem Dev.sliceIso_power (s : Dev) (n : Nat) : (s.sliceIso n).power = s.power := s.set_power _ _

@[simp] theorem Dev.shortRun_power (s : Dev) (n : Nat) : (s.shortRun n).power = s.power := by
  simp only [Dev.shortRun, Dev.ite_power, Dev.tick_power, Dev.bistUpd_power, Dev.isoSet_power, ite_self]

@[simp] theorem Dev.sliceBegin_power (s : Dev) (n : Nat) : (s.sliceBegin n).power = s.power := by
  simp only [Dev.sliceBegin, Dev.ite_power, Dev.raise_power, Dev.bistRec_power, Dev.set_power, Dev.bistUpd_power, Dev.shortRun_power, Dev.sliceIso_power, ite_self]

@[simp] theorem Dev.bistStart_power (s : Dev) (origin : Nat) : (s.bistStart origin).power = s.power := by
  simp only [Dev.bistStart, Dev.sliceBegin_power, Dev.bistShow_power, Dev.set_power, Dev.bistUpd_power, Dev.secretsClear_power]

/-! #### Floor fuses (R336, R454) -/

@[simp] theorem Dev.floorTry_power (s : Dev) (target : Nat) : (s.floorTry target).power = s.power := by
  simp only [Dev.floorTry, Dev.ite_power, Dev.tick_power, Dev.updUpd_power, Dev.set_power, ite_self]

@[simp] theorem Dev.floorStart_power (s : Dev) (mem : List Host.Cell) : (s.floorStart mem).power = s.power := by
  unfold Dev.floorStart
  split
  · split
    · exact s.floorTry_power _
    · rfl
  · rfl

@[simp] theorem Dev.engines_power (s : Dev) : s.engines.power = s.power := by
  simp only [Dev.engines, Dev.updUpd_power, Dev.set_power]

end Sys2Proof.Machine

/-! ### The start sequence: its outcome and the memory it leaves (R47, R55, R444) -/

namespace Sys2Proof.Machine

open Sys2Proof.Safety

/-! #### Memory -/

/-- What a wipe that spares staging keeps, a wipe of all may not lose. -/
theorem volatileAddr_of_all {a : Nat} (h : volatileAddr true a = false) (all : Bool) : volatileAddr all a = false := by
  cases all with
  | true => exact h
  | false =>
    simp only [volatileAddr, Bool.or_eq_false_iff] at h ⊢
    exact ⟨h.1, by simp⟩

/-- A reset keeps every byte outside the volatile memories. -/
theorem read_memWipe (mem : List Host.Cell) (all : Bool) {a : Nat} (h : volatileAddr all a = false) : Memory.read (memWipe mem all) a = Memory.read mem a := by
  have hfind : (memWipe mem all).find? (fun c => c.1 == a) = mem.find? (fun c => c.1 == a) := by
    rw [memWipe, List.find?_filter]
    congr 1
    funext c
    by_cases hc : c.1 = a
    · simp [hc, h]
    · simp [hc]
  simp only [Memory.read, Store.read, hfind]

/-- A section's window and its length limit lie within the volatile memories. -/
theorem sectWindow_volatile {type w a : Nat} (hw : w ∈ sectWindows type) (ha : w ≤ a ∧ a < w + sectLimit type) : volatileAddr true a = true := by
  unfold sectWindows at hw
  simp only [volatileAddr, Bool.or_eq_true, Bool.and_eq_true, decide_eq_true_eq]
  split at hw
  · next starter =>
    have hlimit : sectLimit type = 384 * 1024 := by rw [sectLimit, if_pos starter]
    rw [List.mem_singleton] at hw
    omega
  · split at hw
    · next notStarter engine =>
      have hlimit : sectLimit type = 64 * 1024 := by rw [sectLimit, if_neg notStarter, if_pos engine]
      obtain ⟨k, hk, rfl⟩ := List.mem_map.mp hw
      rw [List.mem_range] at hk
      omega
    · split at hw
      · next shared =>
        have hlimit : sectLimit type = 128 * 1024 := by rw [shared]; rfl
        rw [List.mem_singleton] at hw
        omega
      · exact absurd hw List.not_mem_nil

/-- The copy of a section leaves every byte outside the volatile memories. -/
theorem read_section (mem : List Host.Cell) (data : List Byte) (type : Nat) (hlen : data.length ≤ sectLimit type) {a : Nat} (h : volatileAddr true a = false)
    (l : List Nat) (hl : ∀ w ∈ l, w ∈ sectWindows type) :
    Memory.read (l.foldl (fun (u : List Host.Cell) w => Memory.writeAll u w data) mem) a = Memory.read mem a := by
  induction l generalizing mem with
  | nil => rfl
  | cons w r ih =>
    have hout : a < w ∨ w + data.length ≤ a := by
      by_contra hin
      have hvol := sectWindow_volatile (hl w List.mem_cons_self) (a := a) (by omega)
      rw [h] at hvol
      exact Bool.false_ne_true hvol
    rw [List.foldl_cons, ih _ fun x hx => hl x (List.mem_cons_of_mem w hx), Memory.read_writeAll_ne _ _ _ _ hout]

theorem read_memLoad (mem : List Host.Cell) (k : Nat) {a : Nat} (h : volatileAddr true a = false) : Memory.read (memLoad mem k sectWindows) a = Memory.read mem a := by
  unfold memLoad
  split
  · rfl
  · refine foldl_keep (fun m : List Host.Cell => Memory.read m a) _ (fun t i => ?_) _ mem
    refine read_section t _ _ ?_ h _ fun w hw => hw
    simp [Memory.readAll]

/-! #### The way to RUN -/

/-- The main domain is up and nothing holds it. -/
def Dev.unheld (s : Dev) : Prop := s.mainOn = true ∧ s.power.hold = .none

theorem Dev.unheld_congr {s t : Dev} (hst : t.power.st = s.power.st) (hhold : t.power.hold = s.power.hold) (h : s.unheld) : t.unheld :=
  ⟨(Dev.mainOn_congr hst).trans h.1, hhold.trans h.2⟩

theorem Dev.unheld_of_power {s t : Dev} (hp : t.power = s.power) (h : s.unheld) : t.unheld :=
  Dev.unheld_congr (by rw [hp]) (by rw [hp]) h

theorem Dev.unheld_of_start {s : Dev} (hst : s.power.st = .start) (hhold : s.power.hold = .none) : s.unheld :=
  ⟨by simp only [Dev.mainOn, hst], hhold⟩

theorem Dev.runCheck_unheld {s : Dev} (h : s.unheld) : s.runCheck.unheld := by
  unfold Dev.runCheck
  split
  · exact ⟨rfl, h.2⟩
  · exact h

/-- Billing's start clears notes of the power state alone. -/
theorem Dev.startBilling_unheld {s : Dev} (mem : List Host.Cell) (hold : Hold) (h : s.unheld) : (s.startBilling mem hold).unheld := by
  have howed (t : Dev) (l : List Event) : (l.foldl (fun (t : Dev) e => t.journal e.code 0xFF e.inj false []) t).power = t.power :=
    Dev.foldl_power _ (fun _ _ => Dev.journal_power ..) l t
  refine Dev.unheld_congr ?_ ?_ h <;>
    simp only [Dev.startBilling, Dev.powUpd_power, Dev.outage_power, howed, Dev.ite_power, Dev.raiseJ_power, Dev.updUpd_power, Dev.journal_power,
      Dev.tarInstall_power, Dev.recover_power, Dev.tarLoad_power, ite_self] <;>
    split <;> rfl

theorem Dev.startFinish_unheld {s : Dev} (h : s.unheld) : s.startFinish.unheld := by
  unfold Dev.startFinish
  apply Dev.runCheck_unheld
  refine Dev.unheld_congr ?_ ?_ h <;>
    simp only [Dev.powUpd_power, Dev.gun_power, Dev.ite_power, Dev.gunOut_power, ite_self]

/-- The choice of the path leads to the GUN or to the first test slice (R475). -/
theorem Dev.startPath_unheld {s : Dev} (h : s.unheld) : s.startPath.unheld := by
  have hshown : (if s.bist.owed then (s.bistUpd fun (b : Bist) => { b with owed := false }).raise Pg.BIST 4 else s).bistShow.power = s.power := by
    simp only [Dev.bistShow_power, Dev.ite_power, Dev.raise_power, Dev.bistUpd_power, ite_self]
  unfold Dev.startPath
  simp only
  generalize Dev.bistShow _ = s2 at hshown ⊢
  split
  · exact Dev.startFinish_unheld (Dev.unheld_of_power ((Dev.blocksOn_power _).trans hshown) h)
  · refine Dev.unheld_congr ?_ ?_ h <;>
      simp only [Dev.bistStart_power, Dev.blocksOn_power, Dev.powUpd_power, Dev.set_power, hshown]

theorem Dev.recovery_unheld {s : Dev} (h : s.unheld) : s.recovery.unheld := by
  refine Dev.unheld_congr ?_ ?_ h <;> rw [s.recovery_power]

/-- The start with TEST_N high: the device is up, nothing holds it, and what a reset keeps of memory is as it was. -/
theorem State.start_spec (s : State) (boot1 boot0 : Bool) (vsupMv bad : Nat) :
    let t := s.start boot1 boot0 true vsupMv bad
    t.pending = s.pending ∧ t.unheld ∧ ∀ a, volatileAddr true a = false → Memory.read t.mem a = Memory.read s.mem a := by
  obtain ⟨cst, chold⟩ := s.slotChosen_power boot1 boot0 vsupMv bad
  have hchosen := Dev.unheld_of_start cst chold
  have hwiped (a : Nat) (ha : volatileAddr true a = false) : Memory.read (memWipe s.mem s.power.lost) a = Memory.read s.mem a :=
    read_memWipe _ _ (volatileAddr_of_all ha _)
  dsimp only
  cases hslot : (s.slotChosen boot1 boot0 vsupMv bad).2 with
  | none =>
    rw [s.start_recovery boot1 boot0 vsupMv bad hslot]
    exact ⟨rfl, Dev.recovery_unheld hchosen, hwiped⟩
  | some k =>
    rw [s.start_slot boot1 boot0 vsupMv bad k hslot]
    refine ⟨rfl, ?_, fun a ha => (read_memLoad _ k ha).trans (hwiped a ha)⟩
    have hengines := Dev.unheld_of_power (Dev.engines_power _) hchosen
    have hbilling := Dev.startBilling_unheld (memWipe s.mem s.power.lost) s.power.hold hengines
    exact Dev.startPath_unheld (Dev.unheld_of_power (Dev.floorStart_power _ _) hbilling)

end Sys2Proof.Machine

namespace Sys2Proof.Certificates

open Sys2Proof Sys2Proof.Machine Sys2Proof.Safety

theorem overtempRelease_completes (s : State) (boot1 boot0 : Bool) (mv bad : Nat) (hst : s.power.st = .reset) (hx : s.clk.xtal = true)
    (hh : s.power.hold = .overtemp) : completes (.overtempRelease boot1 boot0 true mv bad) s fun t => t.pending = s.pending ∧ t.mainOn = true ∧
      t.power.hold = .none ∧ ∀ a, volatileAddr true a = false → Memory.read t.mem a = Memory.read s.mem a := by
  obtain ⟨hqueue, ⟨hon, hhold⟩, hmem⟩ := s.start_spec boot1 boot0 mv bad
  exact ⟨_, exec_overtempRelease boot1 boot0 true mv bad s hst hx hh, hqueue, hon, hhold, hmem⟩

/-- Settles O2: each command of the warning and of HOLDUP by the lemma about it. -/
theorem powerFailCommandsComplete : Obligations.PowerFailCommandsComplete := by
  unfold Obligations.PowerFailCommandsComplete
  exact ⟨pfCfgWrite_stores, pfCfgWrite_refuses, powerFailWarning_completes, powerFailCommit_completes, powerFailWarningClear_completes,
    powerFailTimeout_completes, rideThroughComplete_completes, overtempShutdown_completes, overtempRelease_completes⟩

end Sys2Proof.Certificates

/-! ### Without the main domain a command does nothing (R52, log 23) -/

namespace Sys2Proof.Machine

open Sys2Proof.Safety

theorem wrAct_off (m a : Nat) (v : Word) (s : State) (f : Dev → Dev) (h : s.mainOn = false) : wrAct m a v s f = .next s := mainAct_off s _ h
theorem wrMem_off (m a : Nat) (v : Word) (s : State) (f : List Host.Cell → Dev → Dev) (h : s.mainOn = false) : wrMem m a v s f = .next s := wrAct_off m a v s _ h
theorem engAct_off (s : State) (f : Dev → Dev) (h : s.mainOn = false) : engAct s f = .next s := mainAct_off s _ h
theorem warnAct_off (s : State) (f : Dev → Dev) (h : s.mainOn = false) : warnAct s f = .next s := mainAct_off s _ h

theorem updAct_off (s : State) (f : List Host.Cell → Dev → Dev × List Host.Cell) (h : s.mainOn = false) : updAct s f = .next s := by
  simp only [updAct, h, Bool.false_eq_true, if_false]

theorem updWr_off (m a : Nat) (v : Word) (s : State) (f : List Host.Cell → Dev → Dev × List Host.Cell) (h : s.mainOn = false) : updWr m a v s f = .next s :=
  updAct_off s _ h

theorem spiAct_off (s : State) (f : State → State) (h : s.mainOn = false) : spiAct s f = .next s := by
  simp only [spiAct, h, Bool.false_eq_true, if_false]

theorem testAct_off (s : State) (f : Dev → Dev) (h : s.mainOn = false) : testAct s f = .next s := by
  simp only [testAct, h, Bool.false_eq_true, if_false]

theorem execUartDataWrite_off (m u : Nat) (v : Word) (s : State) (h : s.mainOn = false) : execUartDataWrite m u v s = .next s := by
  unfold execUartDataWrite
  split
  · exact mainAct_off s _ h
  · rfl

theorem execFlashOpDone_off (ok1 ok2 : Bool) (s : State) (h : s.mainOn = false) : execFlashOpDone ok1 ok2 s = .next s := by
  unfold execFlashOpDone
  split
  · simp only [h, Bool.not_false, if_true]
  · rfl

theorem execRegisterWrite_off (m a size : Nat) (v : Word) (s : State) (h : s.mainOn = false) : execRegisterWrite m a size v s = .next s := by
  simp only [execRegisterWrite, h, Bool.false_eq_true, if_false]

theorem execDebugWrite_off (a : Nat) (v : Word) (crcOk : Bool) (s : State) (h : s.mainOn = false) : execDebugWrite a v crcOk s = .next s := by
  simp only [execDebugWrite, h, Bool.false_eq_true, if_false]

end Sys2Proof.Machine

namespace Sys2Proof.Certificates

open Sys2Proof Sys2Proof.Machine Sys2Proof.Safety

/-- Settles O46: every command outside `withoutMain` acts through one of the shapes that do nothing where the main domain is down, `mainAct` for most. -/
theorem commandsNeedTheMainDomain : Obligations.CommandsNeedTheMainDomain := by
  unfold Obligations.CommandsNeedTheMainDomain
  intro c s hw hoff
  cases c <;> dsimp only [exec]
  case undervoltageLockout | backupSwitchTransition | backupDomainLoss | backupDomainPowerUp | clockFailure | pinReset | caseTamper | laceBurst | laceRetry
    | gpioEdge | xtalOk | vsupRiseStart | overtempRelease | internalResetRelease | rtcSecondTick | alarmPulseEnd | shiftComplete | crystalStop | crystalResume
    | evinEdge => cases hw
  case registerWrite => exact execRegisterWrite_off _ _ _ _ s hoff
  case debugWrite => exact execDebugWrite_off _ _ _ s hoff
  case uartDataWrite => exact execUartDataWrite_off _ _ _ s hoff
  case flashOpDone => exact execFlashOpDone_off _ _ s hoff
  case ethTxKick => exact wrMem_off _ _ _ s _ hoff
  case pfCfgWrite | wdtConfigWrite | wdtKick | softwareReset | enterQuiet | shutdown | temperatureTableLoad | tariffTableLoad | sequenceTableLoad | displayTableLoad
    | bandPlanLoad | rselWrite | isoWrite | applyPush | laneEnableWrite | calMeasureStart | gunFire | frameConfigWrite | pulseCalEnter | pulseCalExit
    | pulseConfigWrite | captureClear | captureRecordLock | captureRecordUnlock | captureRecordDelete | eyeletRescan | eyeletXfer | bindingWrite | demandSchemeWrite
    | billCommitNow | billManualSnapshot | registerSelect | tokenCheck | prepayArm | prepayAcceptEc | prepayDisarm | discOpen | discClose | discDisarm
    | dpConfigWrite | dispNext | dispSelect | dispResume | stickyClear | secAuth | secClose | secInstall | secSeal | secUnseal | secLoadToken | secLoadLink | secFuse
    | secEraseTest | rtcSet | rtcShift | rateStart | rateStop | trimWrite | osfClear | ntSet | meshJoin | meshLeave | meshAdvertise | meshConfigWrite | routeQuery
    | batonRelease | flashErase | flashProgram | splitSelect | splitLatch | doorbellSet | mdioAccess => exact wrAct_off _ _ _ s _ hoff
  case sampleRelease | strideIssue | speculativePublish | boundaryDecision | replayComplete | liveCatchUp | trackerCycleEnd | freq10Interval
    | fixedBlockEnd => exact engAct_off s _ hoff
  case powerFailWarning | powerFailWarningClear | overtempShutdown => exact warnAct_off s _ hoff
  case offerMsg | needMsg | blockMsg | haveMsg | needRetryTimer | dataFrame | chainFrameReceive | ethTxDone | ethFrameReceive => exact updAct_off s _ hoff
  case updActivate | updDiscard | updConfirm => exact updWr_off _ _ _ s _ hoff
  case spiWrite | spiBurstWrite | spiRead | spiBurstRead | spiStatus | spiAbort => exact spiAct_off s _ hoff
  case sliceEnd | sliceTimeout | coolingTimeout => exact testAct_off s _ hoff
  all_goals exact mainAct_off s _ hoff

end Sys2Proof.Certificates

/-! ### A raised event shows in RAW (R73) -/

namespace Sys2Proof.Machine

open Sys2Proof.Safety

theorem natBit_eq_testBit (v n : Nat) : natBit v n = v.testBit n := by
  rw [natBit, Nat.testBit_eq_decide_div_mod_eq]
  exact beq_eq_decide _ _

theorem natBit_or (v w n : Nat) : natBit (v ||| w) n = (natBit v n || natBit w n) := by
  simp only [natBit_eq_testBit, Nat.testBit_or]

theorem natBit_two_pow_self (n : Nat) : natBit (2 ^ n) n = true := by
  rw [natBit_eq_testBit, Nat.testBit_two_pow_self]

/-- A word of 32 bits keeps the bits below 32. -/
theorem natBit_mod_word (v : Nat) {n : Nat} (h : n < 32) : natBit (v % 2 ^ 32) n = natBit v n := by
  simp only [natBit_eq_testBit, Nat.testBit_mod_two_pow, h, decide_true, Bool.true_and]

/-- Bit `i` of page `p`'s RAW word is set. -/
def Regs.shows (m : Regs) (p i : Nat) : Prop := natBit (Regs.get m (Hdr.RAW p)) i = true

/-- What is no RAW word leaves the bits of one as they are. -/
theorem Regs.shows_set {m : Regs} {f : Field} {v p i : Nat} (hf : f.addr % 0x1000 ≠ 0x10) (h : m.shows p i) : (Regs.set m f v).shows p i := by
  have hne : (Hdr.RAW p).addr ≠ f.addr := fun e => hf (by rw [← e]; simp only [Hdr.RAW, pageBase]; omega)
  simp only [Regs.shows, Regs.get, Regs.rd_set_ne hne]
  exact h

theorem Regs.get_raw (m : Regs) (p : Nat) {no : Nat} (hno : no < 32) :
    Regs.get (Regs.raw m (evCode p no)) (Hdr.RAW p) = (Regs.get m (Hdr.RAW p) ||| 2 ^ no) % 2 ^ 32 := by
  have hpage : evCode p no / 64 = p := by unfold evCode; omega
  have hbit : evCode p no % 64 = no := by unfold evCode; omega
  rw [Regs.raw, hpage, hbit, if_pos hno]
  exact Regs.get_set_same m (Hdr.RAW p) _ rfl

theorem Regs.raw_shows (m : Regs) (p : Nat) {no : Nat} (hno : no < 32) : (Regs.raw m (evCode p no)).shows p no := by
  rw [Regs.shows, Regs.get_raw m p hno, natBit_mod_word _ hno, natBit_or, natBit_two_pow_self, Bool.or_true]

/-- A raising clears no RAW bit. -/
theorem Regs.shows_raw {m : Regs} {p i : Nat} (c : Nat) (hi : i < 32) (h : m.shows p i) : (Regs.raw m c).shows p i := by
  unfold Regs.raw
  split
  · by_cases hp : c / 64 = p
    · subst hp
      rw [Regs.shows, Regs.get_set_same _ (Hdr.RAW (c / 64)) _ rfl]
      exact (natBit_mod_word _ hi).trans ((natBit_or _ _ _).trans (by rw [h, Bool.true_or]))
    · have hne : (Hdr.RAW p).addr ≠ (Hdr.RAW (c / 64)).addr := by simp only [Hdr.RAW, pageBase]; omega
      simp only [Regs.shows, Regs.get, Regs.rd_set_ne hne]
      exact h
  · exact h

theorem Regs.shows_splitOne {m : Regs} {p i : Nat} (e : Event) {n : Nat} (_hn : n < 32) (hi : i < 32) (h : m.shows p i) : (Regs.splitOne e m n).shows p i := by
  have hlo : (Fld.SPLIT_CNT_LO_N n).addr % 0x1000 ≠ 0x10 := by simp only [Fld.SPLIT_CNT_LO_N, Reg.SPLIT_CNT_LO]; omega
  have hhi : (Fld.SPLIT_CNT_HI_N n).addr % 0x1000 ≠ 0x10 := by simp only [Fld.SPLIT_CNT_HI_N, Reg.SPLIT_CNT_HI]; omega
  unfold Regs.splitOne
  split
  · dsimp only
    split
    · exact Regs.shows_raw _ hi (Regs.shows_set (by decide) (Regs.shows_set hhi (Regs.shows_set hlo h)))
    · exact Regs.shows_set hhi (Regs.shows_set hlo h)
  · exact h

theorem Regs.shows_splitAll {m : Regs} {p i : Nat} (e : Event) (hi : i < 32) (h : m.shows p i) : (Regs.splitAll m e).shows p i := by
  have key : ∀ (l : List Nat) (k : Regs), (∀ n ∈ l, n < 32) → k.shows p i → (l.foldl (Regs.splitOne e) k).shows p i := by
    intro l
    induction l with
    | nil => exact fun _ _ hk => hk
    | cons x r ih =>
      intro k hl hk
      exact ih _ (fun n hn => hl n (List.mem_cons_of_mem _ hn)) (Regs.shows_splitOne e (hl x List.mem_cons_self) hi hk)
  unfold Regs.splitAll
  split
  · exact key _ _ (fun n hn => List.mem_range.1 hn) h
  · exact h

theorem Regs.shows_event {m : Regs} {p i : Nat} (e : Event) (hi : i < 32) (h : (Regs.raw m e.code).shows p i) : (Regs.event m e).shows p i := by
  unfold Regs.event
  dsimp only
  split
  · exact Regs.shows_splitAll _ hi (Regs.shows_splitAll _ hi h)
  · exact Regs.shows_splitAll _ hi h

/-! #### The device -/

/-- Bit `i` of page `p`'s RAW word is set. -/
def Dev.shows (s : Dev) (p i : Nat) : Prop := Regs.shows s.regs p i

theorem Dev.shows_set {s : Dev} {f : Field} {v p i : Nat} (hf : f.addr % 0x1000 ≠ 0x10) (h : s.shows p i) : (s.set f v).shows p i := Regs.shows_set hf h

theorem Dev.shows_bump {s : Dev} {f : Field} {p i : Nat} (hf : f.addr % 0x1000 ≠ 0x10) (h : s.shows p i) : (s.bump f).shows p i := by
  unfold Dev.bump
  split
  · exact Dev.shows_set hf h
  · exact h

theorem Dev.shows_raiseOut {s : Dev} {p i : Nat} (e : Event) (live : Bool) (h : s.shows p i) : (s.raiseOut e live).shows p i := by
  unfold Dev.raiseOut
  dsimp only
  split
  · exact Regs.shows_set (f := Fld.BILL_JHEAD_SEQ) (by decide) h
  · exact h

theorem Dev.shows_raise0_of_raw {s : Dev} {p i : Nat} (e : Event) (live : Bool) (hi : i < 32) (hon : s.mainOn = true)
    (h : (Regs.raw s.regs e.code).shows p i) : (s.raise0 e live).shows p i := by
  have hev : Dev.shows { s with regs := Regs.event s.regs e } p i := Regs.shows_event e hi h
  unfold Dev.raise0
  rw [if_pos hon]
  dsimp only
  split
  · exact Dev.shows_raiseOut _ _ (Dev.shows_raiseOut _ _ hev)
  · exact Dev.shows_raiseOut _ _ hev

theorem Dev.shows_raise0 {s : Dev} {p i : Nat} (e : Event) (live : Bool) (hi : i < 32) (h : s.shows p i) : (s.raise0 e live).shows p i := by
  by_cases hon : s.mainOn = true
  · exact Dev.shows_raise0_of_raw e live hi hon (Regs.shows_raw _ hi h)
  · unfold Dev.raise0
    rw [if_neg hon]
    exact h

theorem Dev.shows_capStat {s : Dev} {p i : Nat} (h : s.shows p i) : s.capStat.shows p i := by
  unfold Dev.capStat Dev.capLast
  dsimp only
  split <;>
    exact Dev.shows_set (by decide) (Dev.shows_set (by decide) (Dev.shows_set (by decide) (Dev.shows_set (by decide) (Dev.shows_set (by decide) (Dev.shows_set (by decide) h)))))

theorem Dev.shows_capEvict {s : Dev} {p i : Nat} (f : CapRec → Bool) (hi : i < 32) (h : s.shows p i) : (s.capEvict f).shows p i :=
  foldl_inv (fun t : Dev => t.shows p i) _ (fun _ _ ht => Dev.shows_raise0 _ _ hi (Dev.shows_bump (by decide) ht)) _ _ h

theorem Dev.shows_capTrigger {s : Dev} {p i : Nat} (e : Event) (k : Nat) (hi : i < 32) (h : s.shows p i) : (s.capTrigger e k).shows p i := by
  have hcounted {t : Dev} {f : Field} (c : Event) (hf : f.addr % 0x1000 ≠ 0x10) (ht : t.shows p i) : ((t.bump f).raise0 c true).shows p i :=
    Dev.shows_raise0 _ _ hi (Dev.shows_bump hf ht)
  have hevicted (f : CapRec → Bool) : (s.capEvict f).shows p i := Dev.shows_capEvict f hi h
  unfold Dev.capTrigger
  dsimp only
  split
  · exact h
  split
  · exact hcounted _ (by decide) h
  split
  · exact hcounted _ (by decide) h
  split
  · exact hcounted _ (by decide) (hevicted _)
  · refine Dev.shows_raise0 _ _ hi (Dev.shows_capStat ?_)
    exact hevicted _

theorem Dev.shows_capture {s : Dev} {p i : Nat} (e : Event) (hi : i < 32) (h : s.shows p i) : (s.capture e).shows p i := by
  unfold Dev.capture
  split
  · split
    · exact h
    · split
      · exact h
      · exact foldl_inv (fun t : Dev => t.shows p i) _ (fun _ k ht => Dev.shows_capTrigger e k hi ht) _ _ h
  · exact h

/-- A raised event shows in its page's RAW word (R73). -/
theorem Dev.raiseEv_shows {s : Dev} {p no : Nat} (e : Event) (live : Bool) (hon : s.mainOn = true) (hc : e.code = evCode p no) (hno : no < 32) :
    (s.raiseEv e live).shows p no := by
  have h0 : (s.raise0 e live).shows p no := Dev.shows_raise0_of_raw e live hno hon (by rw [hc]; exact Regs.raw_shows _ _ hno)
  unfold Dev.raiseEv
  rw [if_pos hon]
  dsimp only
  split
  · exact Dev.shows_capture _ hno (Dev.shows_capture _ hno h0)
  · exact Dev.shows_capture _ hno h0

theorem Dev.raise_shows (s : Dev) (p : Nat) {no : Nat} (hon : s.mainOn = true) (hno : no < 32) : natBit ((s.raise p no).get (Hdr.RAW p)) no = true :=
  Dev.raiseEv_shows { code := evCode p no, seq := s.newestSeq } true hon rfl hno

end Sys2Proof.Machine

/-! ### Resets: clock monitor, watchdog, pre-reset commit (R43–R51) -/

namespace Sys2Proof.Machine

open Sys2Proof.Safety

/-! #### A reset that is due -/

/-- The first cause starts the pre-reset commit (R45, R46). -/
theorem Dev.resetDue_first (s : Dev) (k : ResetKind) (hon : s.mainOn = true) (hp : s.power.pending = none) :
    s.resetDue k = s.powUpd fun (w : Power) => { w with pending := some k, causeMt := s.mt } := by
  simp only [Dev.resetDue, hon, hp, Bool.not_true, Bool.false_eq_true, if_false]

theorem Dev.mainPower_of_mainOn {s : Dev} (h : s.mainOn = true) : s.mainPower = true := by
  unfold Dev.mainOn at h
  unfold Dev.mainPower
  cases hst : s.power.st <;> simp_all

/-! #### The clock monitor (R43) -/

/-- What CLK.STAT shows of a failed crystal. -/
def Dev.clkShown (s : Dev) : Dev :=
  ((({ s with clk := { s.clk with onRc := true, xtal := false } }.set Fld.CLK_STAT_FAIL 1).set Fld.CLK_STAT_XTAL_OK 0).set Fld.CLK_STAT_PLL_LOCK 0).set
    Fld.CLK_STAT_BUCK_SYNC 0

theorem Dev.clkFail_eq (s : Dev) : s.clkFail = (s.clkShown.raise Pg.CLK 0).resetDue .clkFail := rfl

theorem Dev.clkShown_rd {s : Dev} {a : Nat} (ha : a ≠ Reg.CLK_STAT) : s.clkShown.rd a = s.rd a := by
  unfold Dev.clkShown
  rw [Dev.rd_set_ne ha, Dev.rd_set_ne ha, Dev.rd_set_ne ha, Dev.rd_set_ne ha]
  rfl

theorem Dev.clkShown_fail (s : Dev) : s.clkShown.on Fld.CLK_STAT_FAIL = true ∧ s.clkShown.on Fld.CLK_STAT_XTAL_OK = false := by
  unfold Dev.clkShown
  constructor
  · rw [Dev.on_set_apart _ _ _ _ rfl rfl rfl, Dev.on_set_apart _ _ _ _ rfl rfl rfl, Dev.on_set_apart _ _ _ _ rfl rfl rfl, Dev.on_set_one _ _ rfl]
  · rw [Dev.on_set_apart _ _ _ _ rfl rfl rfl, Dev.on_set_apart _ _ _ _ rfl rfl rfl, Dev.on_set_zero _ _ rfl]

theorem Dev.clkFail_spec (s : Dev) (hon : s.mainOn = true) (hp : s.power.pending = none) :
    s.clkFail.clk.onRc = true ∧ s.clkFail.on Fld.CLK_STAT_FAIL = true ∧ s.clkFail.on Fld.CLK_STAT_XTAL_OK = false ∧
      s.clkFail.power = { s.power with pending := some .clkFail, causeMt := s.mt } ∧
      ∀ a, a ≠ Reg.CLK_STAT → eventReg a = false → s.clkFail.rd a = s.rd a := by
  obtain ⟨hfail, hok⟩ := s.clkShown_fail
  have hpow : (s.clkShown.raise Pg.CLK 0).power = s.power := Dev.raise_power ..
  have hmt : (s.clkShown.raise Pg.CLK 0).mt = s.mt := Dev.raise_mt ..
  have hclk : (s.clkShown.raise Pg.CLK 0).clk = s.clkShown.clk := Dev.raise_clk ..
  rw [s.clkFail_eq, Dev.resetDue_first _ _ ((Dev.mainOn_congr (by rw [hpow])).trans hon) (by rw [hpow]; exact hp)]
  refine ⟨?_, ?_, ?_, ?_, fun a ha he => ?_⟩
  · rw [Dev.powUpd_clk, hclk]; rfl
  · exact (Dev.on_raise _ _ _ Fld.CLK_STAT_FAIL (by decide)).trans hfail
  · exact (Dev.on_raise _ _ _ Fld.CLK_STAT_XTAL_OK (by decide)).trans hok
  · rw [Dev.powUpd_power, hpow, hmt]
  · exact (Dev.rd_raise _ _ _ a he).trans (Dev.clkShown_rd ha)

/-! #### The watchdog (R51) -/

theorem Dev.wdtWrite_taken (s : Dev) (v : Word) (rom : Bool) (hk : keyOf v = 0x3C) (hlo : 100 ≤ bitsOf v 15 0) (hhi : bitsOf v 15 0 ≤ 60000) :
    s.wdtWrite v rom = (s.set Fld.SYS_WDT_TIMEOUT (bitsOf v 15 0)).setB Fld.SYS_WDT_EN (bitAt v 16 || (s.on Fld.SYS_WDT_EN && !rom)) := by
  have hrange : ¬ (bitsOf v 15 0 < 100 ∨ 60000 < bitsOf v 15 0) := by omega
  rw [Dev.wdtWrite, keyed_eq _ _ _ _ _ hk]
  dsimp only
  rw [if_neg hrange]

theorem Dev.wdtWrite_refused (s : Dev) (v : Word) (rom : Bool) (hk : keyOf v = 0x3C) (h : bitsOf v 15 0 < 100 ∨ 60000 < bitsOf v 15 0) :
    s.wdtWrite v rom = s.cfgErr Pg.SYS := by
  rw [Dev.wdtWrite, keyed_eq _ _ _ _ _ hk]
  exact if_pos h

/-! #### What a reset keeps (R46, R47, R49) -/

/-- Meter time, MRAM, OTP, the key store, and the update service. -/
def Dev.vault (s : Dev) : Nat × Mram × Otp × Sec × Upd := (s.mt, s.mram, s.otp, s.sec, s.upd)

theorem Dev.set_vault (s : Dev) (f : Field) (v : Nat) : (s.set f v).vault = s.vault := (rfl)
theorem Dev.wr_vault (s : Dev) (a : Nat) (v : Word) : (s.wr a v).vault = s.vault := (rfl)
theorem Dev.bistUpd_vault (s : Dev) (f : Bist → Bist) : (s.bistUpd f).vault = s.vault := (rfl)
theorem Dev.rtcUpd_vault (s : Dev) (f : Rtc → Rtc) : (s.rtcUpd f).vault = s.vault := (rfl)
theorem Dev.raise_vault (s : Dev) (p no : Nat) : (s.raise p no).vault = s.vault := by simp [Dev.vault]

theorem Dev.rateVoid_vault (s : Dev) : s.rateVoid.vault = s.vault := by
  unfold Dev.rateVoid
  split
  · rfl
  · simp only [Dev.raise_vault, Dev.set_vault]
    rfl

theorem Dev.almLost_vault (s : Dev) : s.almLost.vault = s.vault := by
  rw [Dev.almLost, Dev.rtcUpd_vault]
  exact foldl_keep Dev.vault _ (fun t a => by simp only [Dev.set_vault]) _ _

theorem Dev.bistShow_vault (s : Dev) : s.bistShow.vault = s.vault := by
  unfold Dev.bistShow
  split <;> simp only [Dev.set_vault, Dev.wr_vault]

theorem Dev.bistRec_vault (s : Dev) (f : BistRec → BistRec) : (s.bistRec f).vault = s.vault := by
  unfold Dev.bistRec
  split <;> simp only [Dev.bistShow_vault, Dev.bistUpd_vault]

theorem Dev.bistAbandon_vault (s : Dev) : s.bistAbandon.vault = s.vault := by
  unfold Dev.bistAbandon
  split
  · simp only [Dev.bistUpd_vault, Dev.set_vault, Dev.bistOff, Dev.bistRec_vault, Dev.bistEnt]
  · rfl

theorem Dev.haltEnd_vault (s : Dev) (h : Nat) : (s.haltEnd h).vault = s.vault := by
  unfold Dev.haltEnd
  split
  · simp [Dev.vault]
  · rfl

theorem Dev.haltsEnd_vault (s : Dev) : s.haltsEnd.vault = s.vault := foldl_keep Dev.vault _ Dev.haltEnd_vault _ _

theorem Dev.floorStop_idle (s : Dev) (h : s.upd.floorGo = none) : s.floorStop = s := by
  simp only [Dev.floorStop, h]

theorem Dev.floorStop_keeps (s : Dev) : s.floorStop.mt = s.mt ∧ s.floorStop.mram = s.mram ∧ s.floorStop.sec = s.sec := by
  unfold Dev.floorStop
  split
  · exact ⟨rfl, rfl, rfl⟩
  · dsimp only
    split <;> simp [Dev.floorBlow]

theorem Dev.fuseStop_mt (s : Dev) : s.fuseStop.mt = s.mt := by
  simp only [Dev.fuseStop, Dev.fuseBlow, Dev.tick_mt]
  split_ifs <;> rfl

/-- What ends at a reset, before the blocks are cleared. -/
def Dev.resetEnds (s : Dev) : Dev := s.rateVoid.almLost.fuseStop.floorStop.bistAbandon.haltsEnd

theorem Dev.resetEnds_keeps (s : Dev) :
    s.resetEnds.mt = s.mt ∧ s.resetEnds.mram = s.mram ∧ s.resetEnds.sec.okey = s.sec.okey ∧
      (s.sec.fusing = [] → s.upd.floorGo = none → s.resetEnds.otp = s.otp) := by
  have hfirst : s.rateVoid.almLost.vault = s.vault := by simp only [Dev.almLost_vault, Dev.rateVoid_vault]
  have hlast : s.resetEnds.vault = s.rateVoid.almLost.fuseStop.floorStop.vault := by simp only [Dev.resetEnds, Dev.haltsEnd_vault, Dev.bistAbandon_vault]
  simp only [Dev.vault, Prod.mk.injEq] at hfirst hlast
  obtain ⟨amt, amram, aotp, asec, aupd⟩ := hfirst
  obtain ⟨lmt, lmram, lotp, lsec, -⟩ := hlast
  obtain ⟨fmram, fokey⟩ := s.rateVoid.almLost.fuseStop_keeps
  obtain ⟨gmt, gmram, gsec⟩ := s.rateVoid.almLost.fuseStop.floorStop_keeps
  refine ⟨by rw [lmt, gmt, Dev.fuseStop_mt, amt], by rw [lmram, gmram, fmram, amram], by rw [lsec, gsec, fokey, asec], fun hf hg => ?_⟩
  rw [lotp, Dev.fuseStop_idle _ (by rw [asec, hf]), Dev.floorStop_idle _ (by rw [aupd, hg]), aotp]

/-- One cause noted in SYS.RST_CAUSE (R49). -/
def Dev.causeNoted (s : Dev) (k : ResetKind) : Dev := if k.cause < 18 then s.set ⟨Reg.SYS_RST_CAUSE, k.cause, k.cause⟩ 1 else s

/-- The bit of a cause. -/
def causeBit (c : Nat) : Field := ⟨Reg.SYS_RST_CAUSE, c, c⟩

theorem causeBit_ok {c : Nat} (h : c < 18) : (causeBit c).ok = true := by
  simp only [Field.ok, Bool.and_eq_true]
  exact ⟨decide_eq_true (Nat.le_refl c), decide_eq_true (Nat.lt_trans h (by decide))⟩

theorem Dev.causeNoted_same (s : Dev) {k : ResetKind} (h : k.cause < 18) : (s.causeNoted k).on (causeBit k.cause) = true := by
  rw [Dev.causeNoted, if_pos h]
  exact Dev.on_set_one _ _ (causeBit_ok h)

/-- A cause noted stays noted. -/
theorem Dev.causeNoted_stays (s : Dev) (k : ResetKind) {c : Nat} (hc : c < 18) (h : s.on (causeBit c) = true) : (s.causeNoted k).on (causeBit c) = true := by
  unfold Dev.causeNoted
  split
  · next hk =>
    by_cases heq : k.cause = c
    · subst heq; exact Dev.on_set_one _ _ (causeBit_ok hk)
    · have hapart : (causeBit c).apart (causeBit k.cause) = true := by
        simp only [Field.apart, Bool.or_eq_true]
        rcases Nat.lt_or_gt_of_ne heq with hlt | hgt
        · exact .inr (decide_eq_true hlt)
        · exact .inl (.inr (decide_eq_true hgt))
      exact (Dev.on_set_apart _ _ _ _ (causeBit_ok hk) (causeBit_ok hc) hapart).trans h
  · exact h

/-- The causes of a reset: its kind, and what waited with it (R45, R49). -/
def Dev.resetCauses (s : Dev) (k : ResetKind) : List ResetKind := k :: (s.power.pending.toList ++ s.power.also)

/-- The blocks after a reset with the causes `ks`, the watchdog enabled (R47, R51). -/
def Dev.resetCleared (s : Dev) (ks : List ResetKind) : Dev := (s.resetEnds.mainClear warmMask true (ks.contains .clkFail)).set Fld.SYS_WDT_EN 1

/-- What a reset leaves, its causes noted but not yet its power state. -/
def Dev.resetNoted (s : Dev) (k : ResetKind) : Dev := (s.resetCauses k).foldl Dev.causeNoted (s.resetCleared (s.resetCauses k))

/-- The reset: the causes noted, then the power state. -/
theorem Dev.assertReset_eq (s : Dev) (k : ResetKind) : ∃ f : Power → Power, s.assertReset k = (s.resetNoted k).powUpd f ∧ ∀ w, (f w).pending = none := by
  unfold Dev.assertReset
  dsimp only
  exact ⟨_, rfl, fun _ => rfl⟩

theorem Dev.causeNoted_vault (s : Dev) (k : ResetKind) : (s.causeNoted k).vault = s.vault := by
  unfold Dev.causeNoted
  split
  · exact Dev.set_vault ..
  · rfl

theorem Dev.resetCleared_keeps (s : Dev) (ks : List ResetKind) : (s.resetCleared ks).mt = s.resetEnds.mt ∧ (s.resetCleared ks).mram = s.resetEnds.mram ∧
    (s.resetCleared ks).otp = s.resetEnds.otp ∧ (s.resetCleared ks).sec.okey = s.resetEnds.sec.okey := by
  simp only [Dev.resetCleared, Dev.set_mt, Dev.set_mram, Dev.set_otp, Dev.set_sec]
  exact ⟨rfl, rfl, rfl, rfl⟩

theorem Dev.resetNoted_keeps (s : Dev) (k : ResetKind) : (s.resetNoted k).mt = s.resetEnds.mt ∧ (s.resetNoted k).mram = s.resetEnds.mram ∧
    (s.resetNoted k).otp = s.resetEnds.otp ∧ (s.resetNoted k).sec.okey = s.resetEnds.sec.okey := by
  have h : (s.resetNoted k).vault = (s.resetCleared (s.resetCauses k)).vault := foldl_keep Dev.vault _ Dev.causeNoted_vault _ _
  simp only [Dev.vault, Prod.mk.injEq] at h
  obtain ⟨hmt, hmram, hotp, hsec, -⟩ := h
  rw [hmt, hmram, hotp, hsec]
  exact s.resetCleared_keeps _

theorem Dev.assertReset_keeps (s : Dev) (k : ResetKind) :
    (s.assertReset k).mt = s.mt ∧ (s.assertReset k).mram = s.mram ∧ (s.assertReset k).sec.okey = s.sec.okey ∧
      (s.sec.fusing = [] → s.upd.floorGo = none → (s.assertReset k).otp = s.otp) := by
  obtain ⟨f, heq, -⟩ := s.assertReset_eq k
  obtain ⟨nmt, nmram, notp, nokey⟩ := s.resetNoted_keeps k
  obtain ⟨emt, emram, eokey, eotp⟩ := s.resetEnds_keeps
  rw [heq]
  exact ⟨nmt.trans emt, nmram.trans emram, nokey.trans eokey, fun hf hg => notp.trans (eotp hf hg)⟩

theorem Dev.assertReset_pending (s : Dev) (k : ResetKind) : (s.assertReset k).power.pending = none := by
  obtain ⟨f, heq, hf⟩ := s.assertReset_eq k
  rw [heq]; exact hf _

/-- The reset's own cause shows in SYS.RST_CAUSE (R49). -/
theorem Dev.resetNoted_cause (s : Dev) (k : ResetKind) (h : k.cause < 18) : (s.resetNoted k).on (causeBit k.cause) = true := by
  have hkept (l : List ResetKind) (t : Dev) (ht : t.on (causeBit k.cause) = true) : (l.foldl Dev.causeNoted t).on (causeBit k.cause) = true :=
    foldl_inv (fun t : Dev => t.on (causeBit k.cause) = true) Dev.causeNoted (fun t j ht => t.causeNoted_stays j h ht) l t ht
  rw [Dev.resetNoted, Dev.resetCauses, List.foldl_cons]
  exact hkept _ _ (Dev.causeNoted_same _ h)

theorem Dev.assertReset_cause (s : Dev) (k : ResetKind) (h : k.cause < 18) : (s.assertReset k).on ⟨Reg.SYS_RST_CAUSE, k.cause, k.cause⟩ = true := by
  obtain ⟨f, heq, -⟩ := s.assertReset_eq k
  rw [heq, Dev.powUpd_on]
  exact s.resetNoted_cause k h

/-! #### The pre-reset commit (R46) -/

/-- Meter time, OTP, the key store, and the update service: what a commit to MRAM leaves. -/
def Dev.beside (s : Dev) : Nat × Otp × Sec × Upd := (s.mt, s.otp, s.sec, s.upd)

theorem Dev.set_beside (s : Dev) (f : Field) (v : Nat) : (s.set f v).beside = s.beside := (rfl)
theorem Dev.raiseInj_beside (s : Dev) (p no : Nat) (inj live : Bool) : (s.raiseInj p no inj live).beside = s.beside := by simp [Dev.beside]
theorem Dev.raise_beside (s : Dev) (p no : Nat) : (s.raise p no).beside = s.beside := by simp [Dev.beside]

theorem Dev.commitPut_beside (s : Dev) (buf : Nat) (i : Image) : (s.commitPut buf i).beside = s.beside := by
  simp only [Dev.commitPut, Dev.raise_beside, Dev.set_beside]
  simp only [Dev.beside]

theorem Dev.injUse_beside (s : Dev) (p : Nat) : (s.injUse p).beside = s.beside := by
  unfold Dev.injUse
  dsimp only
  split <;> simp only [Dev.set_beside]

theorem Dev.commitTry_beside (s : Dev) (ok : Bool) : (s.commitTry ok).1.beside = s.beside := by
  unfold Dev.commitTry
  split
  · exact Dev.injUse_beside ..
  · rfl

theorem Dev.escalated_beside (s : Dev) (buf : Nat) (inj live : Bool) : (s.escalated buf inj live).beside = s.beside := by
  simp [Dev.escalated, Dev.beside]

theorem Dev.escalate_beside (s : Dev) (buf : Nat) (i : Image) (inj : Bool) : (s.escalate buf i inj).beside = s.beside := by
  simp only [Dev.escalate, Dev.escalated_beside]
  split
  · exact s.set_beside _ _
  · rw [Dev.commitPut_beside]; exact s.set_beside (badBit buf) 1

theorem Dev.commitImg_beside (s : Dev) (ok1 ok2 : Bool) (j : Option JEntry) : (s.commitImg ok1 ok2 j).beside = s.beside := by
  simp only [Dev.commitImg, apply_ite Dev.beside, Dev.commitPut_beside, Dev.raiseInj_beside, Dev.escalated_beside, Dev.escalate_beside, Dev.commitTry_beside, ite_self]

/-- The reset that follows a pre-reset commit, from a device that the commit left. -/
theorem Dev.preCommit_eq (s : Dev) (k : ResetKind) (ok1 ok2 : Bool) : ∃ d : Dev, s.preCommit k ok1 ok2 = d.assertReset k ∧ d.beside = s.beside := by
  unfold Dev.preCommit
  split
  · exact ⟨_, rfl, (Dev.set_beside _ _ _).trans ((Dev.set_beside _ _ _).trans (s.commitImg_beside ok1 ok2 none))⟩
  · exact ⟨s, rfl, rfl⟩

end Sys2Proof.Machine

namespace Sys2Proof.Certificates

open Sys2Proof Sys2Proof.Machine Sys2Proof.Safety

theorem clockFailure_completes (s : State) (hon : s.mainOn = true) (hrc : s.clk.onRc = false) (hp : s.power.pending = none) :
    completes .clockFailure s fun t =>
      keepsQueue s t ∧ t.clk.onRc = true ∧ t.on Fld.CLK_STAT_FAIL = true ∧ t.on Fld.CLK_STAT_XTAL_OK = false ∧
      t.power = { s.power with pending := some .clkFail, causeMt := s.mt } ∧ (∀ a, a ≠ Reg.CLK_STAT → eventReg a = false → t.rd a = s.rd a) := by
  have hexec : exec .clockFailure s = .next { s with toDev := s.toDev.clkFail } := by
    show execClockFailure s = _
    simp only [execClockFailure, act_eq, hon, hrc, if_true, Bool.false_eq_true, if_false]
  exact ⟨_, hexec, ⟨rfl, rfl⟩, s.toDev.clkFail_spec hon hp⟩

theorem exec_xtalOk (s : State) (h : s.mainPower = true) :
    exec .xtalOk s = .next { s with toDev := { s.toDev with clk := { s.clk with xtal := true } } } := by
  show execXtalOk s = _
  simp only [execXtalOk, act_eq, h, if_true]

theorem exec_pinReset (s : State) (hon : s.mainOn = true) (hp : s.power.pending = none) :
    exec .pinReset s = .next { s with toDev := s.toDev.powUpd fun (w : Power) => { w with pinLow := true, pending := some .pin, causeMt := s.mt } } := by
  have hlow : (s.toDev.powUpd fun (w : Power) => { w with pinLow := true }).mainOn = true := hon
  show execPinReset s = _
  simp only [execPinReset, act_eq, hon, Dev.mainPower_of_mainOn hon, if_true]
  rw [Dev.resetDue_first _ _ hlow hp]
  rfl

theorem watchdogHalf_completes (s : State) (hon : s.mainOn = true) (hw : s.wdtOn = true) : completes .watchdogHalf s fun t =>
    keepsQueue s t ∧ eventsOnly { s.toDev with clk := { s.clk with wdtMs := s.get Fld.SYS_WDT_TIMEOUT / 2 } } t.toDev ∧
      natBit (t.get (Hdr.RAW Pg.SYS)) 1 = true := by
  have hexec : exec .watchdogHalf s =
      .next { s with toDev := { s.toDev with clk := { s.clk with wdtMs := s.get Fld.SYS_WDT_TIMEOUT / 2 } }.raise Pg.SYS 1 } := by
    show execWatchdogHalf s = _
    simp only [execWatchdogHalf, mainAct_eq s _ hon, hw, if_true]
  exact ⟨_, hexec, ⟨rfl, rfl⟩, Dev.raise_eventsOnly _ _ _, Dev.raise_shows _ Pg.SYS hon (by decide)⟩

theorem exec_watchdogTimeout (s : State) (hon : s.mainOn = true) (hw : s.wdtOn = true) (hp : s.power.pending = none) :
    exec .watchdogTimeout s = .next { s with toDev := { s.toDev with
      clk := { s.clk with wdtMs := s.get Fld.SYS_WDT_TIMEOUT }, power := { s.power with pending := some .wdt, causeMt := s.mt } } } := by
  have hcount : ({ s.toDev with clk := { s.clk with wdtMs := s.get Fld.SYS_WDT_TIMEOUT } } : Dev).mainOn = true := hon
  show execWatchdogTimeout s = _
  simp only [execWatchdogTimeout, mainAct_eq s _ hon, hw, if_true]
  rw [Dev.resetDue_first _ _ hcount hp]
  rfl

theorem wdtConfigWrite_stores (s : State) (m : Nat) (v : Word) (rom : Bool) (hl : lands s Reg.SYS_WDT) (hk : keyOf v = 0x3C) (hlo : 100 ≤ bitsOf v 15 0)
    (hhi : bitsOf v 15 0 ≤ 60000) : completes (.wdtConfigWrite m v rom) s fun t => keepsQueue s t ∧ t.get Fld.SYS_WDT_TIMEOUT = bitsOf v 15 0 ∧
      t.on Fld.SYS_WDT_EN = (bitAt v 16 || (s.on Fld.SYS_WDT_EN && !rom)) ∧ ∀ a, a ≠ Reg.SYS_WDT → t.rd a = s.rd a := by
  refine ⟨_, wrAct_eq m _ v s _ hl, ⟨rfl, rfl⟩, ?_⟩
  rw [Dev.wdtWrite_taken _ v rom hk hlo hhi]
  refine ⟨?_, Dev.on_setB_same _ _ _ rfl, fun a ha => ?_⟩
  · rw [Dev.get_setB_apart _ _ _ _ rfl rfl rfl, Dev.get_set_lt _ _ _ rfl (bitsOf_lt v 15 0)]
  · rw [Dev.rd_setB_ne ha, Dev.rd_set_ne ha]

theorem exec_wdtConfigWrite_refused (s : State) (m : Nat) (v : Word) (rom : Bool) (hl : lands s Reg.SYS_WDT) (hk : keyOf v = 0x3C)
    (h : bitsOf v 15 0 < 100 ∨ 60000 < bitsOf v 15 0) : exec (.wdtConfigWrite m v rom) s = .next { s with toDev := s.toDev.cfgErr Pg.SYS } := by
  rw [← Dev.wdtWrite_refused _ v rom hk h]
  exact wrAct_eq m _ v s _ hl

theorem exec_wdtKick (s : State) (m : Nat) (v : Word) (hl : lands s Reg.SYS_WDT_KICK) (hk : keyOf v = 0xE1) (hb : bitAt v 0 = true) :
    exec (.wdtKick m v) s = .next { s with toDev := { s.toDev with clk := { s.clk with wdtMs := 0 } } } := by
  have hkick : s.toDev.wdtKick v = { s.toDev with clk := { s.clk with wdtMs := 0 } } := if_pos ⟨hk, hb⟩
  rw [← hkick]
  exact wrAct_eq m _ v s _ hl

theorem exec_wdtKick_refused (s : State) (m : Nat) (v : Word) (hl : lands s Reg.SYS_WDT_KICK) (h : ¬ (keyOf v = 0xE1 ∧ bitAt v 0 = true)) :
    exec (.wdtKick m v) s = .next { s with toDev := s.toDev.lockErr Pg.SYS } := by
  have hkick : s.toDev.wdtKick v = s.toDev.lockErr Pg.SYS := if_neg h
  rw [← hkick]
  exact wrAct_eq m _ v s _ hl

theorem exec_softwareReset (s : State) (m : Nat) (v : Word) (hl : lands s Reg.SYS_RESET) (hk : keyOf v = 0xC3) (hb : bitAt v 0 = true)
    (hp : s.power.pending = none) :
    exec (.softwareReset m v) s = .next { s with toDev := s.toDev.powUpd fun (w : Power) => { w with pending := some .sw, causeMt := s.mt } } := by
  have hreset : s.toDev.softReset v = s.toDev.powUpd fun (w : Power) => { w with pending := some .sw, causeMt := s.mt } := by
    rw [Dev.softReset, keyed_eq _ _ _ _ _ hk, if_pos hb, Dev.resetDue_first _ _ hl.1 hp]
  rw [← hreset]
  exact wrAct_eq m _ v s _ hl

theorem preResetCommitDone_completes (s : State) (ok1 ok2 : Bool) (k : ResetKind) (hon : s.mainOn = true) (hp : s.power.pending = some k) :
    completes (.preResetCommitDone ok1 ok2) s fun t =>
      keepsQueue s t ∧ t.power.st = .reset ∧ t.power.pending = none ∧ t.mainOn = false ∧ t.mt = s.mt ∧
      (s.sec.fusing = [] → s.upd.floorGo = none → t.otp = s.otp) ∧ t.sec.okey = s.sec.okey ∧
      (k.cause < 18 → t.on ⟨Reg.SYS_RST_CAUSE, k.cause, k.cause⟩ = true) := by
  have hexec : exec (.preResetCommitDone ok1 ok2) s = .next { s with toDev := s.toDev.preCommit k ok1 ok2 } := by
    show execPreResetCommitDone ok1 ok2 s = _
    simp only [execPreResetCommitDone, mainAct_eq s _ hon, hp]
  obtain ⟨d, hd, hbeside⟩ := s.toDev.preCommit_eq k ok1 ok2
  simp only [Dev.beside, Prod.mk.injEq] at hbeside
  obtain ⟨bmt, botp, bsec, bupd⟩ := hbeside
  obtain ⟨kmt, -, kokey, kotp⟩ := d.assertReset_keeps k
  have hst := (d.assertReset_power k).1
  refine ⟨_, hexec, ⟨rfl, rfl⟩, ?_⟩
  rw [hd]
  refine ⟨hst, d.assertReset_pending k, Dev.mainOn_of_reset hst, kmt.trans bmt, fun hf hg => ?_, ?_, d.assertReset_cause k⟩
  · rw [kotp (by rw [bsec, hf]) (by rw [bupd, hg]), botp]
  · rw [kokey, bsec]

theorem preResetCommitTimeout_completes (s : State) (k : ResetKind) (hon : s.mainOn = true) (hp : s.power.pending = some k) :
    completes .preResetCommitTimeout s fun t =>
      keepsQueue s t ∧ t.power.st = .reset ∧ t.power.pending = none ∧ t.mainOn = false ∧ t.mt = s.mt ∧ t.mram = s.mram ∧
      (s.sec.fusing = [] → s.upd.floorGo = none → t.otp = s.otp) ∧ (k.cause < 18 → t.on ⟨Reg.SYS_RST_CAUSE, k.cause, k.cause⟩ = true) := by
  have hexec : exec .preResetCommitTimeout s =
      .next { s with toDev := ((s.toDev.set Fld.SYS_RST_CAUSE_COMMIT_OK 0).set Fld.SYS_RST_CAUSE_COMMIT_MISSED 1).assertReset k } := by
    show execPreResetCommitTimeout s = _
    simp only [execPreResetCommitTimeout, mainAct_eq s _ hon, hp]
  obtain ⟨kmt, kmram, -, kotp⟩ := ((s.toDev.set Fld.SYS_RST_CAUSE_COMMIT_OK 0).set Fld.SYS_RST_CAUSE_COMMIT_MISSED 1).assertReset_keeps k
  have hst := (((s.toDev.set Fld.SYS_RST_CAUSE_COMMIT_OK 0).set Fld.SYS_RST_CAUSE_COMMIT_MISSED 1).assertReset_power k).1
  simp only [Dev.set_mt, Dev.set_mram, Dev.set_sec, Dev.set_upd, Dev.set_otp] at kmt kmram kotp
  exact ⟨_, hexec, ⟨rfl, rfl⟩, hst, Dev.assertReset_pending _ k, Dev.mainOn_of_reset hst, kmt, kmram, kotp, Dev.assertReset_cause _ k⟩

/-- Settles O3: each command of the clock monitor, the watchdog and the resets by the lemma about it. -/
theorem resetCommandsComplete : Obligations.ResetCommandsComplete := by
  unfold Obligations.ResetCommandsComplete
  exact ⟨clockFailure_completes, exec_xtalOk, exec_pinReset, watchdogHalf_completes, exec_watchdogTimeout, wdtConfigWrite_stores, exec_wdtConfigWrite_refused,
    exec_wdtKick, exec_wdtKick_refused, exec_softwareReset, preResetCommitDone_completes, preResetCommitTimeout_completes⟩

end Sys2Proof.Certificates

/-! ### A reloaded network key touches the mesh (R416) -/

namespace Sys2Proof.Certificates

open Sys2Proof Sys2Proof.Machine Sys2Proof.Safety

/-- A mesh node that heard one beacon and lost its network key, with a session of the host open. -/
def keyGone : State :=
  let s := Tests.set [(Fld.SEC_STAT_SESSION, 1), (Fld.SEC_STAT_MASTER, 16), (Fld.MESH_CFG_EN, 1)] Tests.up
  { s with toDev := { s.toDev with
      sec := { s.sec with okey := some [] }
      mesh := { s.mesh with cands := [{ addr := 5, metric := 0, bnonce := [] }] } } }

/-- LOAD_LINK by the host: the key pattern 0xA9 and OP 7. -/
def loadLink : Instr := .secLoadLink 16 0xA9000007

/-- `keyGone` after LOAD_LINK. -/
def keyReloaded : State := Tests.landed keyGone (exec loadLink keyGone)

theorem exec_loadLink_keyGone : exec loadLink keyGone = .next keyReloaded := Tests.next_landed _ _ (by decide +kernel)

theorem keyGone_heard_one : keyGone.mesh.cands.length = 1 := by decide +kernel

/-- The node listens again and forgets the beacon it heard (R402, R416). -/
theorem keyReloaded_heard_none : keyReloaded.mesh.cands.length = 0 := by decide +kernel

/-- Refutes O52: LOAD_LINK is a command of the key family, and where it reloads a network key that was gone the node rejoins (R416), which forgets the candidates of the mesh. -/
theorem not_familiesKeepApart : ¬ Obligations.FamiliesKeepApart := by
  unfold Obligations.FamiliesKeepApart
  intro h
  obtain ⟨-, -, -, -, -, hkey, -⟩ := h loadLink keyGone keyReloaded exec_loadLink_keyGone
  obtain ⟨-, -, hmesh, -⟩ := hkey rfl
  have hone := keyGone_heard_one
  rw [← hmesh, keyReloaded_heard_none] at hone
  exact absurd hone (by decide)

end Sys2Proof.Certificates

/-! ### Frames: what a function leaves alone -/

namespace Sys2Proof.Machine

open Sys2Proof.Safety

/-! #### What a function leaves alone: a part of the state, and all registers but some -/

/-- `core` looks at neither the registers nor what an event changes. -/
def Dev.blind {β : Type} (core : Dev → β) : Prop :=
  (∀ (s : Dev) (r : Regs), core { s with regs := r } = core s) ∧ ∀ s t : Dev, eventsOnly s t → core t = core s

/-- From `s` to `t` the part `core` is kept, and of the registers only those of `may` and what events change may differ. -/
def Dev.framed {β : Type} (core : Dev → β) (may : Nat → Bool) (s t : Dev) : Prop :=
  core t = core s ∧ ∀ a, may a = false → eventReg a = false → t.rd a = s.rd a

section
variable {β : Type} {core : Dev → β} {may : Nat → Bool}

theorem Dev.framed_refl (s : Dev) : Dev.framed core may s s := ⟨rfl, fun _ _ _ => rfl⟩

theorem Dev.framed.trans {s t u : Dev} (h : Dev.framed core may s t) (k : Dev.framed core may t u) : Dev.framed core may s u :=
  ⟨k.1.trans h.1, fun a ha he => (k.2 a ha he).trans (h.2 a ha he)⟩

theorem Dev.framed_of_regs {s t : Dev} (hc : core t = core s) (hr : t.regs = s.regs) : Dev.framed core may s t :=
  ⟨hc, fun a _ _ => by simp only [Dev.rd, hr]⟩

theorem Dev.framed_of_events (hb : Dev.blind core) {s t : Dev} (h : eventsOnly s t) : Dev.framed core may s t :=
  ⟨hb.2 s t h, fun a _ he => h.1 a he⟩

theorem Dev.framed_raise (hb : Dev.blind core) (s : Dev) (p no : Nat) : Dev.framed core may s (s.raise p no) :=
  Dev.framed_of_events hb (s.raise_eventsOnly p no)

theorem Dev.framed_raiseJ (hb : Dev.blind core) (s : Dev) (p no bp : Nat) (inj : Bool) (d : List Byte) : Dev.framed core may s (s.raiseJ p no bp inj d) :=
  Dev.framed_of_events hb (s.raiseJ_eventsOnly p no bp inj d)

theorem Dev.framed_wr (hb : Dev.blind core) (s : Dev) (a : Nat) (v : Word) (h : may a = true) : Dev.framed core may s (s.wr a v) := by
  refine ⟨hb.1 s _, fun b hp _ => Regs.rd_wr_ne fun e => ?_⟩
  rw [e, h] at hp
  cases hp

theorem Dev.framed_set (hb : Dev.blind core) (s : Dev) (f : Field) (v : Nat) (h : may f.addr = true) : Dev.framed core may s (s.set f v) := by
  refine ⟨hb.1 s _, fun b hp _ => Dev.rd_set_ne fun e => ?_⟩
  rw [e, h] at hp
  cases hp

theorem Dev.framed_setB (hb : Dev.blind core) (s : Dev) (f : Field) (b : Bool) (h : may f.addr = true) : Dev.framed core may s (s.setB f b) :=
  Dev.framed_set hb s f _ h

theorem Dev.framed_bump (hb : Dev.blind core) (s : Dev) (f : Field) (h : may f.addr = true) : Dev.framed core may s (s.bump f) := by
  unfold Dev.bump
  split
  · exact Dev.framed_set hb s f _ h
  · exact Dev.framed_refl s

theorem Dev.framed_ite (c : Prop) [Decidable c] {s t u : Dev} (ht : c → Dev.framed core may s t) (hu : ¬c → Dev.framed core may s u) :
    Dev.framed core may s (if c then t else u) := by
  split
  · exact ht ‹_›
  · exact hu ‹_›

theorem Dev.framed_foldl {α : Type} (f : Dev → α → Dev) (l : List α) (h : ∀ (s : Dev), ∀ x ∈ l, Dev.framed core may s (f s x)) (s : Dev) :
    Dev.framed core may s (l.foldl f s) := by
  induction l generalizing s with
  | nil => exact Dev.framed_refl s
  | cons x r ih => exact (h s x (List.mem_cons_self ..)).trans (ih (fun t y hy => h t y (List.mem_cons_of_mem _ hy)) _)

theorem Dev.framed_forN (n : Nat) (f : Dev → Nat → Dev) (h : ∀ (s : Dev) (i : Nat), i < n → Dev.framed core may s (f s i)) (s : Dev) :
    Dev.framed core may s (forN n s f) :=
  Dev.framed_foldl f _ (fun t i hi => h t i (List.mem_range.1 hi)) s

theorem Dev.framed.get {s t : Dev} (h : Dev.framed core may s t) (f : Field) (hp : may f.addr = false) (he : eventReg f.addr = false) :
    t.get f = s.get f := Dev.get_congr (h.2 _ hp he)

/-- Looking at less, or allowing more registers, a frame stays a frame. -/
theorem Dev.framed.mono {γ : Type} {less : Dev → γ} {more : Nat → Bool} (g : β → γ) (hg : ∀ s, less s = g (core s)) (hmay : ∀ a, may a = true → more a = true)
    {s t : Dev} (h : Dev.framed core may s t) : Dev.framed less more s t := by
  refine ⟨by rw [hg, hg, h.1], fun a ha he => h.2 a ?_ he⟩
  cases hp : may a with
  | false => rfl
  | true => rw [hmay _ hp] at ha; cases ha

end

end Sys2Proof.Machine

/-! ### Power states: start, QUIET, waking, orderly shutdown (R46, R53–R64) -/

namespace Sys2Proof.Machine

open Sys2Proof.Safety

/-! #### What QUIET ends (R55) -/

@[simp] theorem Dev.planApply_power (s : Dev) (plan : List (Nat × Nat)) (id : Nat) : (s.planApply plan id).power = s.power := by
  simp [Dev.planApply]

@[simp] theorem Dev.planDue_power (s : Dev) : s.planDue.power = s.power := by
  unfold Dev.planDue
  split
  · split
    · rfl
    · exact s.planApply_power _ _
  · rfl

@[simp] theorem Dev.plcAbort_power (s : Dev) : s.plcAbort.power = s.power := Dev.planDue_power _

@[simp] theorem Dev.ethStop_power (s : Dev) : s.ethStop.power = s.power := (rfl)

@[simp] theorem Dev.harmLose_power (s : Dev) (g flags : Nat) : (s.harmLose g flags).power = s.power := by
  unfold Dev.harmLose
  split <;> simp

/-- The powerline, the Ethernet port and the harmonic windows stop. -/
def Dev.hushed (s : Dev) : Dev := forN 4 s.plcAbort.ethStop fun t g => t.harmLose g 0

theorem Dev.hushed_power (s : Dev) : s.hushed.power = s.power := by
  unfold Dev.hushed
  rw [forN_keep Dev.power _ fun t g => t.harmLose_power g 0]
  simp

theorem Dev.quietWrite_eq {s : Dev} {v : Word} (hv : bitAt v 0 = true) (hst : s.power.st = .run) :
    s.quietWrite v = ((forN 4 (s.hushed.setPower .quiet) fun t g => t.harmShow g).set Fld.PWR_CTRL_QUIET 1).raise Pg.PWR 5 := by
  unfold Dev.quietWrite
  rw [hv, if_neg (by decide), if_pos hst]
  rfl

theorem Dev.power_blind : Dev.blind Dev.power := ⟨fun _ _ => rfl, fun _ _ h => h.power⟩

/-- A register of HARM's page. -/
def harmReg (a : Nat) : Bool := pageOf a == Pg.HARM

theorem harmActive_harmReg {g : Nat} (h : g < 4) : harmReg (Fld.HARM_GRP_STAT_ACTIVE g).addr = true := by
  revert g
  decide

/-- Showing the windows writes HARM's page alone. -/
theorem Dev.harmShows_framed (s : Dev) : Dev.framed Dev.power harmReg s (forN 4 s fun t g => t.harmShow g) :=
  Dev.framed_forN 4 _ (fun t _ hg => Dev.framed_setB Dev.power_blind t _ _ (harmActive_harmReg hg)) s

theorem Dev.quietWrite_spec {s : Dev} {v : Word} (hv : bitAt v 0 = true) (hst : s.power.st = .run) :
    (s.quietWrite v).power = { s.power with st := .quiet } ∧ (s.quietWrite v).on Fld.PWR_CTRL_QUIET = true ∧
      (s.quietWrite v).get Fld.PWR_STATE_STATE = 2 := by
  rw [Dev.quietWrite_eq hv hst]
  have hshown := (s.hushed.setPower .quiet).harmShows_framed
  refine ⟨?_, ?_, ?_⟩
  · rw [Dev.raise_power, Dev.set_power, hshown.1, Dev.setPower_power, Dev.hushed_power]
  · rw [Dev.on_raise _ _ _ _ (by decide), Dev.on_set_one _ _ rfl]
  · rw [Dev.get_raise _ _ _ _ (by decide), Dev.get_set_apart _ _ _ _ rfl rfl rfl, hshown.get _ (by decide) (by decide), Dev.setPower,
      Dev.get_set_lt _ _ _ rfl (by decide)]
    rfl

/-! #### Waking (R55) -/

theorem Dev.wakeBy_quiet {s : Dev} {src : Nat} (hst : s.power.st = .quiet) (hsrc : src < 8) (hen : bitAt (s.rd Reg.PWR_WAKE) src = true)
    (hwhy : src ≠ 0 ∨ ∃ k, k < 2 ∧ s.on (almStat k) = true ∧ s.on (Fld.RTC_ALM_CFG_WAKE k) = true) :
    s.wakeBy src = (((forN 4 (s.setPower .run) fun t g => t.harmShow g).set Fld.PWR_CTRL_QUIET 0).plcRestart).raise Pg.PWR 6 := by
  have halm : src ≠ 0 ∨ (List.range 2).any (fun k => s.on (almStat k) && s.on (Fld.RTC_ALM_CFG_WAKE k)) = true := by
    refine hwhy.imp_right fun ⟨k, hk, hstat, hwake⟩ => List.any_eq_true.2 ⟨k, List.mem_range.2 hk, ?_⟩
    rw [hstat, hwake, Bool.and_self]
  unfold Dev.wakeBy Dev.wake
  rw [if_pos halm, if_pos ⟨hsrc, hen⟩, if_pos hst]

theorem Dev.wakeBy_power {s : Dev} {src : Nat} (hst : s.power.st = .quiet) (hsrc : src < 8) (hen : bitAt (s.rd Reg.PWR_WAKE) src = true)
    (hwhy : src ≠ 0 ∨ ∃ k, k < 2 ∧ s.on (almStat k) = true ∧ s.on (Fld.RTC_ALM_CFG_WAKE k) = true) :
    (s.wakeBy src).power = { s.power with st := .run } := by
  rw [Dev.wakeBy_quiet hst hsrc hen hwhy, Dev.raise_power, Dev.plcRestart_power, Dev.set_power, (Dev.harmShows_framed _).1, Dev.setPower_power]

/-! #### What an orderly shutdown stops first (R63, R64) -/

/-- The parts that ending the pulses and the Ethernet port leaves alone. -/
def Dev.powerAndMeter (s : Dev) : Power × Meter := (s.power, s.meter)

theorem Dev.powerAndMeter_blind : Dev.blind Dev.powerAndMeter := ⟨fun _ _ => rfl, fun s t h => by simp only [Dev.powerAndMeter, h.power, h.meter]⟩

/-- A register of the pages that they write. -/
def portReg (a : Nat) : Bool := pageOf a == Pg.ETH || pageOf a == Pg.PULSE

/-- Only the pulses and the Ethernet port change. -/
def Dev.portsOnly (s t : Dev) : Prop := Dev.framed Dev.powerAndMeter portReg s t

theorem Dev.ethStop_portsOnly (s : Dev) : s.portsOnly s.ethStop :=
  (Dev.framed_set Dev.powerAndMeter_blind s Fld.ETH_STAT_TXACT 0 (by decide)).trans (Dev.framed_of_regs rfl rfl)

theorem Dev.poUpd_portsOnly (s : Dev) (n : Nat) (f : PulseOut → PulseOut) : s.portsOnly (s.poUpd n f) := Dev.framed_of_regs rfl rfl

theorem Dev.pulseDrive_portsOnly (s : Dev) (n : Nat) (b : Bool) : s.portsOnly (s.pulseDrive n b) :=
  (Dev.framed_set Dev.powerAndMeter_blind s Fld.PULSE_STAT_ON _ (by decide)).trans (Dev.framed_of_regs rfl rfl)

theorem pulseBacklog_portReg {n : Nat} (h : n < 8) : portReg (Fld.PULSE_CH_BACKLOG_N n).addr = true := by
  revert n
  decide

theorem Dev.calLeave_portsOnly (s : Dev) {n : Nat} (h : n < 8) : s.portsOnly (s.calLeave n) :=
  (s.poUpd_portsOnly n _).trans (Dev.framed_set Dev.powerAndMeter_blind _ _ _ (pulseBacklog_portReg h))

theorem Dev.calExpire_portsOnly (s : Dev) : s.portsOnly s.calExpire := by
  unfold Dev.calExpire
  dsimp only
  refine Dev.framed_ite _ (fun _ => Dev.framed_refl s) fun _ => ?_
  have hleave := (Dev.framed_set Dev.powerAndMeter_blind s Fld.PULSE_CTRL_CAL_MASK (s.get Fld.PULSE_CTRL_CAL_MASK &&& s.get Fld.PULSE_STAT_ON) (by decide)).trans
    (Dev.framed_forN (may := portReg) 8
      (fun t n => if natBit (s.get Fld.PULSE_CTRL_CAL_MASK) n && !natBit (s.get Fld.PULSE_CTRL_CAL_MASK &&& s.get Fld.PULSE_STAT_ON) n then t.calLeave n else t)
      (fun t n hn => Dev.framed_ite _ (fun _ => t.calLeave_portsOnly hn) fun _ => Dev.framed_refl t) _)
  exact Dev.framed_ite _ (fun _ => hleave.trans (Dev.framed_raiseJ Dev.powerAndMeter_blind _ _ _ _ _ _)) fun _ => hleave

theorem Dev.pulseEnd_portsOnly (s : Dev) (n : Nat) : s.portsOnly (s.pulseEnd n) := by
  unfold Dev.pulseEnd
  dsimp only
  have hoff := (s.pulseDrive_portsOnly n false).trans (Dev.poUpd_portsOnly _ n fun p => { p with offAt := some s.mt })
  exact Dev.framed_ite _ (fun _ => Dev.framed_ite _ (fun _ => hoff.trans (Dev.calExpire_portsOnly _)) fun _ => hoff) fun _ => Dev.framed_refl s

theorem Dev.pulseRelease_portsOnly (s : Dev) : s.portsOnly s.pulseRelease := Dev.framed_forN 8 _ (fun t n _ => t.pulseEnd_portsOnly n) s

theorem Dev.portsEnd_portsOnly (s : Dev) : s.portsOnly s.ethStop.pulseRelease := s.ethStop_portsOnly.trans (Dev.pulseRelease_portsOnly _)

theorem frameCfg_page {g : Nat} (h : g < 4) : pageOf (Fld.FRAME_VG_CFG_MODE g).addr = Pg.FRAME ∧ pageOf (Fld.FRAME_VG_STAT_STATE g).addr = Pg.FRAME ∧
    eventReg (Fld.FRAME_VG_CFG_MODE g).addr = false ∧ eventReg (Fld.FRAME_VG_STAT_STATE g).addr = false := by
  revert g
  decide

/-- Whether a group frames is read from FRAME's page and the tracker. -/
theorem Dev.framing_congr {s t : Dev} {g : Nat} (hg : g < 4) (hm : t.meter = s.meter)
    (hr : ∀ a, pageOf a = Pg.FRAME → eventReg a = false → t.rd a = s.rd a) : t.framing g = s.framing g := by
  obtain ⟨hcfg, hstat, hcfge, hstate⟩ := frameCfg_page hg
  unfold Dev.framing Dev.trkState Dev.trk
  rw [hm, Dev.get_congr (hr _ hcfg hcfge), Dev.get_congr (hr _ hstat hstate)]

/-- An orderly shutdown under way, before it looks whether the groups have stopped. -/
def Dev.shutdownBegun (s : Dev) (v : Word) : Dev :=
  ((((s.setB Fld.SYS_SHUTDOWN_EXIT (bitAt v 2)).setB Fld.SYS_SHUTDOWN_TEST (bitAt v 1)).ethStop.pulseRelease).setPower .shutdownTest).powUpd
    fun (w : Power) => { w with shutStage := 1 }

theorem Dev.shutdownBegun_power (s : Dev) (v : Word) : (s.shutdownBegun v).power = { s.power with st := .shutdownTest, shutStage := 1 } := by
  have hpow := congrArg Prod.fst (Dev.portsEnd_portsOnly ((s.setB Fld.SYS_SHUTDOWN_EXIT (bitAt v 2)).setB Fld.SYS_SHUTDOWN_TEST (bitAt v 1))).1
  dsimp only [Dev.powerAndMeter] at hpow
  rw [Dev.shutdownBegun, Dev.powUpd_power, Dev.setPower_power, hpow, Dev.setB_power, Dev.setB_power]

/-- Beside the ports and PWR.STATE only SYS.SHUTDOWN changes. -/
theorem Dev.shutdownBegun_rd (s : Dev) (v : Word) {a : Nat} (hp : portReg a = false) (he : eventReg a = false) (ha : a ≠ Reg.PWR_STATE) :
    (s.shutdownBegun v).rd a = ((s.setB Fld.SYS_SHUTDOWN_EXIT (bitAt v 2)).setB Fld.SYS_SHUTDOWN_TEST (bitAt v 1)).rd a := by
  rw [Dev.shutdownBegun, Dev.powUpd_rd, Dev.setPower, Dev.rd_set_ne ha, Dev.powUpd_rd]
  exact (Dev.portsEnd_portsOnly _).2 a hp he

theorem Dev.shutdownBegun_meter (s : Dev) (v : Word) : (s.shutdownBegun v).meter = s.meter :=
  congrArg Prod.snd (Dev.portsEnd_portsOnly ((s.setB Fld.SYS_SHUTDOWN_EXIT (bitAt v 2)).setB Fld.SYS_SHUTDOWN_TEST (bitAt v 1))).1

theorem Dev.shutdownBegun_framing (s : Dev) (v : Word) {g : Nat} (hg : g < 4) : (s.shutdownBegun v).framing g = s.framing g := by
  refine Dev.framing_congr hg (s.shutdownBegun_meter v) fun a hp he => ?_
  have hne {b : Nat} (hb : pageOf b ≠ Pg.FRAME) : a ≠ b := fun e => hb (e ▸ hp)
  rw [s.shutdownBegun_rd v (by rw [portReg, hp]; decide) he (hne (by decide)), Dev.setB, Dev.rd_set_ne (hne (by decide)), Dev.setB, Dev.rd_set_ne (hne (by decide))]

/-- While a group frames the shutdown waits (R64). -/
theorem Dev.shutdownCheck_waits {s : Dev} {g : Nat} (hg : g < 4) (h : s.framing g = true) : s.shutdownCheck = s := by
  have hrun : (s.trk g).stopped = false := by
    simp only [Dev.framing, Bool.and_eq_true, Bool.not_eq_true'] at h
    exact h.2
  have hall : (List.range 4).all (fun g => (s.trk g).stopped || !(s.fixedOn g || s.framing g)) = false := by
    refine List.all_eq_false.2 ⟨g, List.mem_range.2 hg, ?_⟩
    rw [h, hrun, Bool.or_true]
    decide
  rw [Dev.shutdownCheck, hall, Bool.and_false, if_neg Bool.false_ne_true]

theorem Dev.shutdownWrite_begins {s : Dev} {v : Word} (hk : keyOf v = 0x96) (hb : bitAt v 0 = true) (hw : s.warned = false) (hd : s.discBusy = false)
    (hst : s.power.st = .run) {g : Nat} (hg : g < 4) (hf : s.framing g = true) : s.shutdownWrite v = s.shutdownBegun v := by
  have hwaits : (s.shutdownBegun v).shutdownCheck = s.shutdownBegun v := Dev.shutdownCheck_waits hg ((s.shutdownBegun_framing v hg).trans hf)
  rw [Dev.shutdownWrite, keyed_eq _ _ _ _ _ hk, hb, hw, hd, hst]
  exact hwaits

theorem Dev.shutdownBegun_bits (s : Dev) (v : Word) :
    (s.shutdownBegun v).on Fld.SYS_SHUTDOWN_TEST = bitAt v 1 ∧ (s.shutdownBegun v).on Fld.SYS_SHUTDOWN_EXIT = bitAt v 2 := by
  have hrd := s.shutdownBegun_rd v (a := Reg.SYS_SHUTDOWN) (by decide) (by decide) (by decide)
  constructor
  · rw [Dev.on_congr hrd, Dev.on_setB_same _ _ _ rfl]
  · rw [Dev.on_congr hrd, Dev.on_setB_apart _ _ _ _ rfl rfl rfl, Dev.on_setB_same _ _ _ rfl]

theorem Dev.shutdownWrite_refused {s : Dev} {v : Word} (hk : keyOf v = 0x96) (hb : bitAt v 0 = true)
    (h : s.warned = true ∨ s.discBusy = true ∨ (s.power.st ≠ .run ∧ s.power.st ≠ .quiet)) : s.shutdownWrite v = s.cfgErr Pg.SYS := by
  have hno : (bitAt v 0 && (s.warned || s.discBusy || (s.power.st != .run && s.power.st != .quiet))) = true := by
    rw [hb, Bool.true_and]
    simp only [Bool.or_eq_true, Bool.and_eq_true, bne_iff_ne, or_assoc]
    exact h
  rw [Dev.shutdownWrite, keyed_eq _ _ _ _ _ hk, if_pos hno]

end Sys2Proof.Machine

namespace Sys2Proof.Certificates

open Sys2Proof Sys2Proof.Machine Sys2Proof.Safety

theorem internalResetRelease_completes (s : State) (boot1 boot0 : Bool) (mv bad : Nat) (hst : s.power.st = .reset) (hx : s.clk.xtal = true)
    (hr : s.releasable mv = true) : completes (.internalResetRelease boot1 boot0 true mv bad) s fun t =>
      t.pending = s.pending ∧ t.mainOn = true ∧ t.power.hold = .none ∧ ∀ a, volatileAddr true a = false → Memory.read t.mem a = Memory.read s.mem a := by
  obtain ⟨hpend, ⟨hon, hhold⟩, hmem⟩ := s.start_spec boot1 boot0 mv bad
  exact ⟨_, exec_internalResetRelease _ _ _ _ _ s hst hx hr, hpend, hon, hhold, hmem⟩

theorem exec_internalResetRelease_started (s : State) (boot1 boot0 testN : Bool) (mv bad : Nat) (h : s.power.st ≠ .reset) :
    exec (.internalResetRelease boot1 boot0 testN mv bad) s = .next s := by
  simp only [exec, execInternalResetRelease, h, false_and, if_false]

theorem enterQuiet_completes (s : State) (m : Nat) (v : Word) (hl : lands s Reg.PWR_CTRL) (hv : bitAt v 0 = true) (hst : s.power.st = .run) :
    completes (.enterQuiet m v) s fun t =>
      keepsQueue s t ∧ t.power = { s.power with st := .quiet } ∧ t.on Fld.PWR_CTRL_QUIET = true ∧ t.get Fld.PWR_STATE_STATE = 2 :=
  ⟨_, wrAct_eq m _ v s _ hl, ⟨rfl, rfl⟩, Dev.quietWrite_spec hv hst⟩

theorem exec_enterQuiet_refused (s : State) (m : Nat) (v : Word) (hl : lands s Reg.PWR_CTRL) (hv : bitAt v 0 = true) (hst : s.power.st ≠ .run) :
    exec (.enterQuiet m v) s = .next { s with toDev := s.toDev.cfgErr Pg.PWR } := by
  dsimp only [exec, execEnterQuiet]
  rw [wrAct_eq _ _ _ _ _ hl, Dev.quietWrite, hv, if_neg (by decide), if_neg hst]

theorem wakeFromQuiet_completes (s : State) (src : Nat) (hst : s.power.st = .quiet) (hsrc : src < 8) (hen : bitAt (s.rd Reg.PWR_WAKE) src = true)
    (hwhy : src ≠ 0 ∨ ∃ k, k < 2 ∧ s.on (almStat k) = true ∧ s.on (Fld.RTC_ALM_CFG_WAKE k) = true) :
    completes (.wakeFromQuiet src) s fun t => keepsQueue s t ∧ t.power = { s.power with st := .run } := by
  have hon : s.mainOn = true := by simp only [Dev.mainOn, hst]
  exact ⟨_, mainAct_eq s _ hon, ⟨rfl, rfl⟩, Dev.wakeBy_power hst hsrc hen hwhy⟩

theorem shutdown_completes (s : State) (m : Nat) (v : Word) (g : Nat) (hl : lands s Reg.SYS_SHUTDOWN) (hk : keyOf v = 0x96) (hb : bitAt v 0 = true)
    (hst : s.power.st = .run) (hw : s.warned = false) (hd : s.discBusy = false) (hg : g < 4) (hf : s.framing g = true) :
    completes (.shutdown m v) s fun t => keepsQueue s t ∧ t.power = { s.power with st := .shutdownTest, shutStage := 1 } ∧
      t.on Fld.SYS_SHUTDOWN_TEST = bitAt v 1 ∧ t.on Fld.SYS_SHUTDOWN_EXIT = bitAt v 2 := by
  refine ⟨{ s with toDev := s.shutdownBegun v }, ?_, ⟨rfl, rfl⟩, s.shutdownBegun_power v, s.shutdownBegun_bits v⟩
  dsimp only [exec, execShutdown]
  rw [wrAct_eq _ _ _ _ _ hl, Dev.shutdownWrite_begins hk hb hw hd hst hg hf]

theorem exec_shutdown_refused (s : State) (m : Nat) (v : Word) (hl : lands s Reg.SYS_SHUTDOWN) (hk : keyOf v = 0x96) (hb : bitAt v 0 = true)
    (h : s.warned = true ∨ s.discBusy = true ∨ (s.power.st ≠ .run ∧ s.power.st ≠ .quiet)) :
    exec (.shutdown m v) s = .next { s with toDev := s.toDev.cfgErr Pg.SYS } := by
  dsimp only [exec, execShutdown]
  rw [wrAct_eq _ _ _ _ _ hl, Dev.shutdownWrite_refused hk hb h]

/-- Settles O4: each power state's command by the lemma that says where it leads; a group still framing is what keeps the shutdown at its first stage. -/
theorem powerStateCommandsComplete : Obligations.PowerStateCommandsComplete := by
  unfold Obligations.PowerStateCommandsComplete
  exact ⟨internalResetRelease_completes, exec_internalResetRelease_started, enterQuiet_completes, exec_enterQuiet_refused, wakeFromQuiet_completes,
    shutdown_completes, exec_shutdown_refused⟩

end Sys2Proof.Certificates

/-! ### The page header (R48, R73–R77) -/

namespace Sys2Proof.Machine

open Sys2Proof.Safety

/-! #### Clearing bits of a word -/

theorem and_mod_two (x y : Nat) : (x &&& y) % 2 = min (x % 2) (y % 2) := by
  have hbit := Nat.testBit_and x y 0
  rw [Bool.eq_iff_iff] at hbit
  simp only [Nat.testBit_zero, Bool.and_eq_true, decide_eq_true_eq] at hbit
  omega

/-- Taking the common bits away clears them. -/
theorem testBit_sub_and (x y n : Nat) : (x - (x &&& y)).testBit n = (x.testBit n && !y.testBit n) := by
  have hle : x &&& y ≤ x := Nat.and_le_left
  have hlow := and_mod_two x y
  induction n generalizing x y with
  | zero =>
    rw [Bool.eq_iff_iff]
    simp only [Nat.testBit_zero, Bool.and_eq_true, Bool.not_eq_true', decide_eq_true_eq, decide_eq_false_iff_not]
    omega
  | succ n ih =>
    have hhalf : (x - (x &&& y)) / 2 = x / 2 - (x / 2 &&& y / 2) := by
      rw [← Nat.and_div_two]
      omega
    rw [Nat.testBit_succ, Nat.testBit_succ, Nat.testBit_succ, hhalf, ih _ _ Nat.and_le_left (and_mod_two _ _)]

theorem bitAt_eq_testBit (v : Word) (n : Nat) : bitAt v n = v.toNat.testBit n := by
  rw [← natBit_eq_testBit]
  simp only [bitAt, bitsOf, natBit, Nat.add_sub_cancel_left, pow_one]

/-! #### The header's words -/

theorem pageOf_hdr {p o : Nat} (ho : o < 0x1000) : pageOf (pageBase p + o) = p := by
  unfold pageOf pageBase
  omega

/-- A header write to a page of an island that is not isolated lands. -/
theorem Dev.hdrWrite_eq {s : Dev} {m p o : Nat} {v : Word} {f : Dev → Dev} (hi : s.islIso p = false) (hp : p < 0x3E) (ho : o < 0x1000) :
    s.hdrWrite m p o v f = f s := by
  rw [Dev.hdrWrite, if_pos hp, Dev.hdrLanding, pageOf_hdr ho, hi, if_neg Bool.false_ne_true]

/-- Clearing by 1 clears the bits written and no other (R73, R74). -/
theorem Dev.irqClear_raw (s : Dev) (p : Nat) (v : Word) {i : Nat} (h : i < 32) :
    natBit ((s.irqClear p v).get (Hdr.RAW p)) i = (natBit (s.get (Hdr.RAW p)) i && !bitAt v i) := by
  rw [Dev.irqClear, Dev.get_set_same _ _ _ rfl, show (Hdr.RAW p).hi + 1 - (Hdr.RAW p).lo = 32 from rfl, natBit_mod_word _ h, natBit_eq_testBit, testBit_sub_and,
    natBit_eq_testBit, bitAt_eq_testBit]

theorem Dev.irqClear_rd (s : Dev) (p : Nat) (v : Word) {a : Nat} (h : a ≠ pageBase p + 0x10) : (s.irqClear p v).rd a = s.rd a := Dev.rd_set_ne h

/-! #### Enable and freeze (R73, R75) -/

theorem lookup_filter_ne {β : Type} (l : List (Nat × β)) (k : Nat) : lookup (l.filter fun c => c.1 != k) k = none := by
  simp [lookup]

theorem Dev.thawPage_spec (s : Dev) (p : Nat) :
    (s.thawPage p).on (Hdr.FREEZE p) = false ∧ lookup (s.thawPage p).bus.frozen p = none ∧ ∀ a, a ≠ pageBase p + 8 → (s.thawPage p).rd a = s.rd a :=
  ⟨Dev.on_set_zero s _ rfl, lookup_filter_ne _ _, fun _ ha => Dev.rd_set_ne ha⟩

theorem Dev.thawPage_en (s : Dev) (p : Nat) : (s.thawPage p).on (Hdr.EN p) = s.on (Hdr.EN p) :=
  Dev.on_set_apart s (Hdr.EN p) (Hdr.FREEZE p) 0 rfl rfl (by simp [Field.apart, Hdr.EN, Hdr.FREEZE])

theorem Dev.freezePage_spec {s : Dev} {p : Nat} (h : lookup s.bus.frozen p = none) :
    (s.freezePage p).on (Hdr.FREEZE p) = true ∧ lookup (s.freezePage p).bus.frozenMt p = some s.mt ∧
      lookup (s.freezePage p).bus.frozen p = some ((freezable p).map fun a => (a, s.shownWord 0 a)) ∧
      ∀ a, a ≠ pageBase p + 8 → (s.freezePage p).rd a = s.rd a := by
  rw [Dev.freezePage, h, if_neg (by decide)]
  exact ⟨Dev.on_set_one s _ rfl, lookup_assign_same _ _ _, lookup_assign_same _ _ _, fun _ ha => Dev.rd_set_ne ha⟩

theorem Dev.freezePage_keeps (s : Dev) (p : Nat) (f : Field) (hf : f.ok = true) (ha : f.apart (Hdr.FREEZE p) = true) : (s.freezePage p).on f = s.on f := by
  unfold Dev.freezePage
  split
  · rfl
  · exact Dev.on_set_apart s f (Hdr.FREEZE p) 1 rfl hf ha

/-- A page whose EN switches nothing beside itself: not a heat, the U block or PLCPHY. -/
def enAlone (p : Nat) : Bool :=
  match pageKind p with
  | some (.heat, _, _) | some (.ugrp, _, _) | some (.plcphy, _, _) => false
  | _ => true

theorem enAlone_of_page {p : Nat} (h : p = Pg.SPLIT ∨ p = Pg.INTC ∨ (0x2E ≤ p ∧ p ≤ 0x35) ∨ (0x37 ≤ p ∧ p ≤ 0x3D)) : enAlone p = true := by
  have hp : p < 0x3E := by
    rcases h with rfl | rfl | h | h
    · decide
    · decide
    · omega
    · omega
  have hall : ∀ p < 0x3E, p = Pg.SPLIT ∨ p = Pg.INTC ∨ (0x2E ≤ p ∧ p ≤ 0x35) ∨ (0x37 ≤ p ∧ p ≤ 0x3D) → enAlone p = true := by decide
  exact hall p hp h

/-- EN of such a page is stored and nothing follows. -/
theorem Dev.enWrite_alone {s : Dev} {p : Nat} (h : enAlone p = true) : s.enWrite p true = if s.on (Hdr.EN p) = true then s else s.setB (Hdr.EN p) true := by
  unfold Dev.enWrite Dev.enabled Dev.islandStart
  unfold enAlone at h
  simp only [Bool.not_true, Bool.false_and, Bool.false_eq_true, if_false, if_true]
  split
  · rfl
  · split at h <;> simp_all

theorem Dev.enWrite_same {s : Dev} {p : Nat} {on : Bool} (h : s.on (Hdr.EN p) = on) : s.enWrite p on = s := by
  rw [Dev.enWrite, if_pos h]

theorem Dev.enRefused_same {s : Dev} {p : Nat} {on : Bool} (h : s.on (Hdr.EN p) = on) : s.enRefused p on = false := by
  rw [Dev.enRefused, h, Bool.and_not_self, Bool.false_and, Bool.false_and]

theorem Dev.enRefused_on (s : Dev) (p : Nat) : s.enRefused p true = false := by
  rw [Dev.enRefused, Bool.not_true, Bool.and_false, Bool.false_and, Bool.false_and]

theorem Dev.pgCtrl_enables {s : Dev} {p : Nat} {v : Word} (h : enAlone p = true) (hen : bitAt v 0 = true) (hrst : bitAt v 1 = false) (hfrz : bitAt v 2 = false) :
    s.pgCtrl p v = (if s.on (Hdr.EN p) = true then s else s.setB (Hdr.EN p) true).thawPage p := by
  rw [Dev.pgCtrl, hen, hrst, hfrz, s.enRefused_on p, Dev.enWrite_alone h]
  rfl

theorem Dev.pgCtrl_freezes {s : Dev} {p : Nat} {v : Word} (hen : s.on (Hdr.EN p) = bitAt v 0) (hrst : bitAt v 1 = false) (hfrz : bitAt v 2 = true) :
    s.pgCtrl p v = s.freezePage p := by
  rw [Dev.pgCtrl, Dev.enRefused_same hen, Dev.enWrite_same hen, hrst, hfrz]
  rfl

/-- EN = 0 where the page may not stop: refused whole, or ignored on a page that never stops. -/
theorem Dev.pgCtrl_barred {s : Dev} {p : Nat} {v : Word} (hon : s.on (Hdr.EN p) = true) (hbar : s.offBarred p = true) (hen : bitAt v 0 = false)
    (hrst : bitAt v 1 = false) :
    s.pgCtrl p v = if unstoppable p = true then (if bitAt v 2 = true then (s.cfgErr p).freezePage p else (s.cfgErr p).thawPage p) else s.cfgErr p := by
  have hrefused : s.enRefused p false = !unstoppable p := by
    rw [Dev.enRefused, hon, hbar, Bool.not_false, Bool.and_self, Bool.and_self, Bool.true_and]
  rw [Dev.pgCtrl, hen, hrefused, hrst]
  cases hu : unstoppable p with
  | false => rfl
  | true => simp [Dev.enWrite, hon, hu]

theorem Dev.cfgErr_bits {s : Dev} {p : Nat} (hon : s.on (Hdr.EN p) = true) : (s.cfgErr p).on (Hdr.EN p) = true ∧ (s.cfgErr p).on (Hdr.CFGERR p) = true :=
  ⟨(Dev.on_set_apart s (Hdr.EN p) (Hdr.CFGERR p) 1 rfl rfl (by simp [Field.apart, Hdr.EN, Hdr.CFGERR])).trans hon, Dev.on_set_one s _ rfl⟩

theorem Dev.pgCtrl_barred_bits {s : Dev} {p : Nat} {v : Word} (hon : s.on (Hdr.EN p) = true) (hbar : s.offBarred p = true) (hen : bitAt v 0 = false)
    (hrst : bitAt v 1 = false) : (s.pgCtrl p v).on (Hdr.EN p) = true ∧ (s.pgCtrl p v).on (Hdr.CFGERR p) = true := by
  have hbits := Dev.cfgErr_bits (p := p) hon
  have henFrz : (Hdr.EN p).apart (Hdr.FREEZE p) = true := by simp [Field.apart, Hdr.EN, Hdr.FREEZE]
  have hcfgFrz : (Hdr.CFGERR p).apart (Hdr.FREEZE p) = true := by simp [Field.apart, Hdr.CFGERR, Hdr.FREEZE]
  rw [Dev.pgCtrl_barred hon hbar hen hrst]
  split_ifs
  · exact ⟨(Dev.freezePage_keeps _ p _ rfl henFrz).trans hbits.1, (Dev.freezePage_keeps _ p _ rfl hcfgFrz).trans hbits.2⟩
  · exact ⟨(Dev.on_set_apart _ _ (Hdr.FREEZE p) 0 rfl rfl henFrz).trans hbits.1, (Dev.on_set_apart _ _ (Hdr.FREEZE p) 0 rfl rfl hcfgFrz).trans hbits.2⟩
  · exact hbits

/-! #### Soft reset (R48) -/

/-- The row of a register is one of its page's table. (`rowAt` is unfolded as a function: unfolded at `a`, the kernel would count down the base address.) -/
theorem mem_rows_of_rowAt {a p : Nat} {k : PageKind} {x : Nat × Nat} {r : RegRow} (hp : pageOf a = p) (hk : pageKind p = some (k, x)) (hr : rowAt a = some r) :
    r ∈ k.rows := by
  generalize hF : rowAt = F at hr
  delta rowAt at hF
  subst hF
  beta_reduce at hr
  rw [hp, hk] at hr
  exact List.mem_of_find?_eq_some hr

/-- A table none of whose fields is sticky or locked: a soft reset keeps nothing of it. -/
def keepsNothing (k : PageKind) : Prop := ∀ r ∈ k.rows, ∀ f ∈ r.fields, f.acc ≠ .stk ∧ f.acc ≠ .rwl

theorem keepsNothing.accMask {k : PageKind} (h : keepsNothing k) (locked : Bool) {r : RegRow} (hr : r ∈ k.rows) :
    accMask r (fun c => c == .stk || (locked && c == .rwl)) = 0 := by
  refine List.sum_eq_zero fun n hn => ?_
  obtain ⟨f, hf, rfl⟩ := List.mem_map.1 hn
  obtain ⟨hstk, hrwl⟩ := h r hr f hf
  simp [hstk, hrwl]

theorem intc_keepsNothing : keepsNothing .intc := by
  unfold keepsNothing
  decide

theorem split_keepsNothing : keepsNothing .split := by
  unfold keepsNothing
  decide

theorem gpio_keepsNothing : keepsNothing .gpio := by
  unfold keepsNothing
  decide

/-- A page of registers alone: nothing else starts afresh, and a soft reset keeps none of them. -/
def plainPage (p : Nat) : Prop := p = Pg.INTC ∨ p = Pg.SPLIT ∨ p = Pg.GPIO

theorem plainPage.kind {p : Nat} (h : plainPage p) : ∃ k x, pageKind p = some (k, x) ∧ keepsNothing k ∧ (k = .intc ∨ k = .split ∨ k = .gpio) := by
  rcases h with rfl | rfl | rfl
  · exact ⟨.intc, _, rfl, intc_keepsNothing, .inl rfl⟩
  · exact ⟨.split, _, rfl, split_keepsNothing, .inr (.inl rfl)⟩
  · exact ⟨.gpio, _, rfl, gpio_keepsNothing, .inr (.inr rfl)⟩

theorem plainPage.apart {p : Nat} (h : plainPage p) : p < 0x3E ∧ srstBarred p = false ∧ p ≠ Pg.TAMP ∧ p ≠ Pg.UPD ∧ p ≠ Pg.SEC ∧ p ≠ Pg.RTC ∧ p ≠ Pg.BIST := by
  rcases h with rfl | rfl | rfl <;> decide

theorem Dev.blockInit_plain (s : Dev) {p : Nat} (h : plainPage p) : s.blockInit p = s := by
  obtain ⟨k, x, hk, -, hkind⟩ := h.kind
  unfold Dev.blockInit
  rw [hk]
  rcases hkind with rfl | rfl | rfl <;> rfl

/-- No register of such a page is in the backup domain. -/
theorem bkpMask_plain {p a : Nat} (h : plainPage p) (ha : pageOf a = p) : bkpMask a = 0 := by
  obtain ⟨-, -, htamp, hupd, -, hrtc, hbist⟩ := h.apart
  unfold bkpMask
  refine if_neg fun hb => ?_
  simp only [pageOf, Pg.TAMP, Pg.UPD, Pg.RTC, Pg.BIST, Reg.UPD_WLEFT, Reg.UPD_LOCK, Reg.BIST_CTRL] at ha htamp hupd hrtc hbist hb
  omega

/-- A soft reset keeps the other pages and the header, and nothing of such a page. -/
theorem Dev.srstKeep_other (s : Dev) {p a : Nat} (h : pageOf a ≠ p) : s.srstKeep p a = 0xFFFFFFFF := by
  rw [Dev.srstKeep, if_pos (.inl h)]

theorem Dev.srstKeep_plain (s : Dev) {p a : Nat} (h : plainPage p) (ha : pageOf a = p) (ho : 0x40 ≤ a % 0x1000) : s.srstKeep p a = 0 := by
  obtain ⟨k, x, hk, hnone, -⟩ := h.kind
  have hsec : a ≠ Reg.SEC_SEAL := fun e => h.apart.2.2.2.2.1 (by rw [← ha, e]; rfl)
  have hown : ¬(pageOf a ≠ p ∨ a % 0x1000 < 0x40 ∨ bkpMask a ≠ 0 ∨ a = Reg.SEC_SEAL) := by
    simp only [ha, bkpMask_plain h ha, hsec, ne_eq, not_true_eq_false, false_or, or_false]
    omega
  rw [Dev.srstKeep, if_neg hown]
  cases hr : rowAt a with
  | none => rfl
  | some r => exact hnone.accMask _ (mem_rows_of_rowAt ha hk hr)

/-- The registers of page `p` after a soft reset, before its header follows. -/
def Dev.srstRegs (s : Dev) (p : Nat) : Dev :=
  { s with regs := Regs.keep s.regs fun a => s.srstKeep p a
           clk := { s.clk with loading := s.clk.loading.filter fun l => pageOf l.stat != p } }

theorem Dev.softResetPage_plain (s : Dev) {p : Nat} (h : plainPage p) :
    s.softResetPage p = ((((s.srstRegs p).thawPage p).set (Hdr.INJ_ARM p) 0).set (Hdr.INJ_COUNT p) 0).set (Hdr.BUSY p) 0 := by
  obtain ⟨-, hbar, htamp, hupd, -⟩ := h.apart
  unfold Dev.softResetPage
  dsimp only
  rw [if_neg (by rw [hbar]; exact Bool.false_ne_true), if_neg htamp, if_neg hupd, Dev.blockInit_plain _ h]
  rfl

theorem Dev.softResetPage_bits (s : Dev) {p : Nat} (h : plainPage p) :
    (s.softResetPage p).on (Hdr.FREEZE p) = false ∧ (s.softResetPage p).on (Hdr.INJ_ARM p) = false := by
  rw [s.softResetPage_plain h]
  constructor
  · rw [Dev.on_set_apart _ _ _ _ rfl rfl (by simp [Field.apart, Hdr.FREEZE, Hdr.BUSY]), Dev.on_set_apart _ _ _ _ rfl rfl (by simp [Field.apart, Hdr.FREEZE, Hdr.INJ_COUNT]),
      Dev.on_set_apart _ _ _ _ rfl rfl (by simp [Field.apart, Hdr.FREEZE, Hdr.INJ_ARM]), (Dev.thawPage_spec _ p).1]
  · rw [Dev.on_set_apart _ _ _ _ rfl rfl (by simp [Field.apart, Hdr.INJ_ARM, Hdr.BUSY]), Dev.on_set_apart _ _ _ _ rfl rfl (by simp [Field.apart, Hdr.INJ_ARM, Hdr.INJ_COUNT]),
      Dev.on_set_zero _ _ rfl]

/-- Beside three words of the page's header the registers are those of `srstRegs`. -/
theorem Dev.softResetPage_rd (s : Dev) {p a : Nat} (h : plainPage p) (hctrl : a ≠ pageBase p + 0x8) (hstat : a ≠ pageBase p + 0xC) (hinj : a ≠ pageBase p + 0x1C) :
    (s.softResetPage p).rd a = (s.srstRegs p).rd a := by
  rw [s.softResetPage_plain h, Dev.rd_set_ne hstat, Dev.rd_set_ne hinj, Dev.rd_set_ne hinj, (Dev.thawPage_spec _ p).2.2 a hctrl]

theorem Dev.softResetPage_own (s : Dev) {p a : Nat} (h : plainPage p) (hwf : Store.wf regReset s.regs = true) (ha : pageOf a = p) (ho : 0x40 ≤ a % 0x1000) :
    (s.softResetPage p).rd a = regReset a := by
  have hne {o : Nat} (hlt : o < 0x40) : a ≠ pageBase p + o := fun e => by
    rw [e, pageBase] at ho
    omega
  rw [s.softResetPage_rd h (hne (by decide)) (hne (by decide)) (hne (by decide))]
  exact (Regs.rd_keep _ _ a hwf).trans (if_pos (s.srstKeep_plain h ha ho))

theorem Dev.softResetPage_other (s : Dev) {p a : Nat} (h : plainPage p) (hwf : Store.wf regReset s.regs = true) (ha : pageOf a ≠ p) :
    (s.softResetPage p).rd a = s.rd a := by
  have hne {o : Nat} (hlt : o < 0x1000) : a ≠ pageBase p + o := fun e => ha (by rw [e, pageOf_hdr hlt])
  rw [s.softResetPage_rd h (hne (by decide)) (hne (by decide)) (hne (by decide))]
  exact Regs.rd_keep_all _ _ a hwf (s.srstKeep_other ha)

/-! #### Injection (R77) -/

theorem Dev.injWrite_stores {s : Dev} {m p : Nat} {v : Word} (htamp : p ≠ Pg.TAMP) (hcap : p ≠ Pg.CAP) (hk : keyOf v = 0x5A)
    (hseal : (sealPage p && s.isSealed) = false) (hses : (bitAt v 1 && !(s.session m && privMaster m)) = false) (hn : bitsOf v 15 8 ≠ 0)
    (hdef : s.injDefined p (bitsOf v 23 16) = true) : s.injWrite m p v = s.wr (pageBase p + 0x1C) (BitVec.ofNat 32 (v.toNat &&& 0x00FFFF03)) := by
  rw [Dev.injWrite, if_neg (by rw [hk, hseal, hses]; decide), if_neg (by simp [hn, hdef])]
  dsimp only
  rw [if_neg htamp, if_neg hcap]

theorem Dev.injWrite_refused {s : Dev} {m p : Nat} {v : Word}
    (h : keyOf v ≠ 0x5A ∨ (sealPage p && s.isSealed) = true ∨ (bitAt v 1 && !(s.session m && privMaster m)) = true) : s.injWrite m p v = s.lockErr p := by
  rw [Dev.injWrite, if_pos h]

theorem ofNat_and_toNat (v : Word) (k : Nat) : BitVec.ofNat 32 (v.toNat &&& k) = v &&& BitVec.ofNat 32 k := by
  apply BitVec.eq_of_toNat_eq
  rw [BitVec.toNat_and, BitVec.toNat_ofNat, BitVec.toNat_ofNat, Nat.and_mod_two_pow, Nat.mod_eq_of_lt v.isLt]

end Sys2Proof.Machine

namespace Sys2Proof.Certificates

open Sys2Proof Sys2Proof.Machine Sys2Proof.Safety

/-- A header write with the main domain up, to a page of an island that is not isolated. -/
theorem exec_header {s : State} {m p o : Nat} {v : Word} {f : Dev → Dev} (hon : s.mainOn = true) (hi : s.islIso p = false) (hp : p < 0x3E) (ho : o < 0x1000) :
    mainAct s (fun d => d.hdrWrite m p o v f) = .next { s with toDev := f s.toDev } := by
  rw [mainAct_eq _ _ hon, Dev.hdrWrite_eq hi hp ho]

theorem pageSoftReset_completes (s : State) (m p : Nat) (hwf : regsOk s) (hon : s.mainOn = true) (hi : s.islIso p = false) (hp : plainPage p) :
    completes (.pageSoftReset m p) s fun t => keepsQueue s t ∧ (∀ a, pageOf a = p → 0x40 ≤ a % 0x1000 → t.rd a = regReset a) ∧
      (∀ a, pageOf a ≠ p → t.rd a = s.rd a) ∧ t.on (Hdr.FREEZE p) = false ∧ t.on (Hdr.INJ_ARM p) = false :=
  ⟨_, exec_header hon hi hp.apart.1 (by decide), ⟨rfl, rfl⟩, fun _ => s.softResetPage_own hp hwf, fun _ => s.softResetPage_other hp hwf, s.softResetPage_bits hp⟩

theorem exec_pageSoftReset_barred (s : State) (m p : Nat) (hon : s.mainOn = true) (hi : s.islIso p = false) (hp : p < 0x3E) (h : srstBarred p = true) :
    exec (.pageSoftReset m p) s = .next { s with toDev := s.toDev.cfgErr p } := by
  dsimp only [exec, execPageSoftReset]
  rw [exec_header hon hi hp (by decide), Dev.softResetPage, if_pos h]

theorem pageEnableWrite_enables (s : State) (m p : Nat) (v : Word) (hon : s.mainOn = true) (hi : s.islIso p = false) (hp : p < 0x3E)
    (halone : p = Pg.SPLIT ∨ p = Pg.INTC ∨ (0x2E ≤ p ∧ p ≤ 0x35) ∨ (0x37 ≤ p ∧ p ≤ 0x3D)) (hen : bitAt v 0 = true) (hrst : bitAt v 1 = false)
    (hfrz : bitAt v 2 = false) : completes (.pageEnableWrite m p v) s fun t => keepsQueue s t ∧ t.on (Hdr.EN p) = true ∧ t.on (Hdr.FREEZE p) = false ∧
      lookup t.bus.frozen p = none ∧ (∀ a, a ≠ pageBase p + 8 → t.rd a = s.rd a) := by
  refine ⟨{ s with toDev := s.pgCtrl p v }, exec_header hon hi hp (by decide), ⟨rfl, rfl⟩, ?_⟩
  dsimp only
  rw [Dev.pgCtrl_enables (enAlone_of_page halone) hen hrst hfrz]
  obtain ⟨hthaw, hfrozen, hrd⟩ := Dev.thawPage_spec (if s.on (Hdr.EN p) = true then s.toDev else s.setB (Hdr.EN p) true) p
  refine ⟨?_, hthaw, hfrozen, fun a ha => (hrd a ha).trans ?_⟩
  · rw [Dev.thawPage_en]
    split
    · assumption
    · exact Dev.on_setB_same _ _ _ rfl
  · split
    · rfl
    · exact Dev.rd_set_ne ha

theorem pageEnableWrite_freezes (s : State) (m p : Nat) (v : Word) (hon : s.mainOn = true) (hi : s.islIso p = false) (hp : p < 0x3E)
    (hen : s.on (Hdr.EN p) = bitAt v 0) (hrst : bitAt v 1 = false) (hfrz : bitAt v 2 = true) (hnone : lookup s.bus.frozen p = none) :
    completes (.pageEnableWrite m p v) s fun t => keepsQueue s t ∧ t.on (Hdr.FREEZE p) = true ∧ lookup t.bus.frozenMt p = some s.mt ∧
      lookup t.bus.frozen p = some ((freezable p).map fun a => (a, s.shownWord 0 a)) ∧ (∀ a, a ≠ pageBase p + 8 → t.rd a = s.rd a) := by
  refine ⟨{ s with toDev := s.pgCtrl p v }, exec_header hon hi hp (by decide), ⟨rfl, rfl⟩, ?_⟩
  dsimp only
  rw [Dev.pgCtrl_freezes hen hrst hfrz]
  exact Dev.freezePage_spec hnone

theorem pageEnableWrite_barred (s : State) (m p : Nat) (v : Word) (hon : s.mainOn = true) (hi : s.islIso p = false) (hp : p < 0x3E)
    (hrun : s.on (Hdr.EN p) = true) (hbar : s.offBarred p = true) (hen : bitAt v 0 = false) (hrst : bitAt v 1 = false) :
    completes (.pageEnableWrite m p v) s fun t => keepsQueue s t ∧ t.on (Hdr.EN p) = true ∧ t.on (Hdr.CFGERR p) = true ∧
      (unstoppable p = false → t.toDev = s.toDev.cfgErr p) := by
  obtain ⟨hstays, herr⟩ := Dev.pgCtrl_barred_bits hrun hbar hen hrst
  refine ⟨{ s with toDev := s.pgCtrl p v }, exec_header hon hi hp (by decide), ⟨rfl, rfl⟩, hstays, herr, fun hu => ?_⟩
  exact (Dev.pgCtrl_barred hrun hbar hen hrst).trans (by rw [hu, if_neg Bool.false_ne_true])

theorem freezeTimeout_completes (s : State) (p : Nat) (hon : s.mainOn = true) (h : s.on (Hdr.FREEZE p) = true) : completes (.freezeTimeout p) s fun t =>
    keepsQueue s t ∧ t.on (Hdr.FREEZE p) = false ∧ lookup t.bus.frozen p = none ∧ (∀ a, a ≠ pageBase p + 8 → t.rd a = s.rd a) := by
  refine ⟨{ s with toDev := s.thawPage p }, ?_, ⟨rfl, rfl⟩, s.thawPage_spec p⟩
  dsimp only [exec, execFreezeTimeout]
  rw [mainAct_eq _ _ hon, if_pos h]

theorem irqStatusClear_completes (s : State) (m p : Nat) (v : Word) (hon : s.mainOn = true) (hi : s.islIso p = false) (hp : p < 0x3E) :
    completes (.irqStatusClear m p v) s fun t => keepsQueue s t ∧
      (∀ i, i < 32 → natBit (t.get (Hdr.RAW p)) i = (natBit (s.get (Hdr.RAW p)) i && !bitAt v i)) ∧ (∀ a, a ≠ pageBase p + 0x10 → t.rd a = s.rd a) :=
  ⟨_, exec_header hon hi hp (by decide), ⟨rfl, rfl⟩, fun _ => s.irqClear_raw p v, fun _ => s.irqClear_rd p v⟩

theorem injectionWrite_completes (s : State) (m p : Nat) (v : Word) (hon : s.mainOn = true) (hi : s.islIso p = false) (hp : p < 0x3E) (htamp : p ≠ Pg.TAMP)
    (hcap : p ≠ Pg.CAP) (hk : keyOf v = 0x5A) (hseal : (sealPage p && s.isSealed) = false) (hses : (bitAt v 1 && !(s.session m && privMaster m)) = false)
    (hn : bitsOf v 15 8 ≠ 0) (hdef : s.injDefined p (bitsOf v 23 16) = true) : completes (.injectionWrite m p v) s fun t =>
      keepsQueue s t ∧ t.rd (pageBase p + 0x1C) = v &&& 0x00FFFF03 ∧ (∀ a, a ≠ pageBase p + 0x1C → t.rd a = s.rd a) := by
  refine ⟨{ s with toDev := s.injWrite m p v }, exec_header hon hi hp (by decide), ⟨rfl, rfl⟩, ?_⟩
  dsimp only
  rw [Dev.injWrite_stores htamp hcap hk hseal hses hn hdef, ofNat_and_toNat]
  exact ⟨Regs.rd_wr_same _ _ _, fun _ ha => Regs.rd_wr_ne ha⟩

theorem exec_injectionWrite_refused (s : State) (m p : Nat) (v : Word) (hon : s.mainOn = true) (hi : s.islIso p = false) (hp : p < 0x3E)
    (h : keyOf v ≠ 0x5A ∨ (sealPage p && s.isSealed) = true ∨ (bitAt v 1 && !(s.session m && privMaster m)) = true) :
    exec (.injectionWrite m p v) s = .next { s with toDev := s.toDev.lockErr p } := by
  dsimp only [exec, execInjectionWrite]
  rw [exec_header hon hi hp (by decide), Dev.injWrite_refused h]

theorem exec_pageLock (s : State) (m p : Nat) (v : Word) (hon : s.mainOn = true) (hi : s.islIso p = false) (hp : p < 0x3E) (hk : keyOf v = 0xA5)
    (hb : bitAt v 0 = true) : exec (.pageLock m p v) s = .next { s with toDev := s.toDev.set (Hdr.LOCK p) 1 } := by
  dsimp only [exec, execPageLock]
  rw [exec_header hon hi hp (by decide), Dev.pgLock, keyed_eq _ _ _ _ _ hk, if_pos hb]

/-- Settles O5: a header write lands as its word's function says, and each clause is what that function does to the page's words. -/
theorem pageHeaderCommandsComplete : Obligations.PageHeaderCommandsComplete := by
  unfold Obligations.PageHeaderCommandsComplete
  exact ⟨pageSoftReset_completes, exec_pageSoftReset_barred, pageEnableWrite_enables, pageEnableWrite_freezes, pageEnableWrite_barred, freezeTimeout_completes,
    irqStatusClear_completes, injectionWrite_completes, exec_injectionWrite_refused, exec_pageLock⟩

end Sys2Proof.Certificates

/-! ### The line's work beside the tick (R382–R418, R455–R458) -/

namespace Sys2Proof.Machine

open Sys2Proof.Safety

/-! #### What the line's frames leave alone -/

/-- What ends at a tick: the MAC's pause, the checks of tables, the test slice, the buttons, the floor's fuses. -/
structure TickParts where
  pause : Option Nat × Bool
  clk : Clk
  bist : Bist
  otp : Otp
  mt : Nat
  floorGo : Option Nat
  btn0 : Bool × Nat
  btn1 : Bool × Nat

def Dev.tickParts (s : Dev) : TickParts :=
  ⟨(s.host.ethPause, s.host.ethHeld), s.clk, s.bist, s.otp, s.mt, s.upd.floorGo, (s.pins.btn0, s.pins.btn0End), (s.pins.btn1, s.pins.btn1End)⟩

/-- What the line has besides: the band plan in force and the one that waits, the ends of the frames that arrive, and what PLDEN follows beside the time and PLCPHY.CTRL (R376). -/
structure LineParts where
  tick : TickParts
  plan : Option (List (Nat × Nat))
  planNext : Option (List (Nat × Nat) × Nat)
  ends : List Nat
  plden : Bool
  txFrom : Nat
  txTo : Nat

def Dev.lineParts (s : Dev) : LineParts :=
  ⟨s.tickParts, s.plc.plan, s.plc.planNext, s.plc.arriving.map fun a => a.endMt, s.pins.plden, s.plc.txFrom, s.plc.txTo⟩

theorem Dev.tickParts_blind : Dev.blind Dev.tickParts :=
  ⟨fun _ _ => rfl, fun s t h => by simp only [Dev.tickParts, h.host, h.clk, h.bist, h.otp, h.mt, h.upd, h.pins]⟩

theorem Dev.lineParts_blind : Dev.blind Dev.lineParts :=
  ⟨fun _ _ => rfl, fun s t h => by simp only [Dev.lineParts, Dev.tickParts_blind.2 s t h, h.plc, h.pins]⟩

/-- All registers but those of the heats, the U block and PLCPHY.CTRL. -/
def lineReg (a : Nat) : Bool := (decide (a < 0x40010000) || decide (0x4001D000 ≤ a)) && a != Reg.PLCPHY_CTRL

theorem lineReg_above {a : Nat} (h : 0x40037000 ≤ a) : lineReg a = true := by
  have hne : a ≠ Reg.PLCPHY_CTRL := by
    unfold Reg.PLCPHY_CTRL
    omega
  have hge : 0x4001D000 ≤ a := Nat.le_trans (by decide) h
  simp [lineReg, hne, hge]

/-- The line's work: nothing that ends at a tick, no plan, nothing that PLDEN follows, and none of the registers kept. -/
def Dev.lined (s t : Dev) : Prop := Dev.framed Dev.lineParts lineReg s t

theorem Dev.lined_set (s : Dev) (f : Field) (v : Nat) (h : lineReg f.addr = true) : s.lined (s.set f v) := Dev.framed_set Dev.lineParts_blind s f v h
theorem Dev.lined_setI (s : Dev) (f : Field) (v : Int) (h : lineReg f.addr = true) : s.lined (s.setI f v) := s.lined_set f _ h
theorem Dev.lined_setB (s : Dev) (f : Field) (b : Bool) (h : lineReg f.addr = true) : s.lined (s.setB f b) := s.lined_set f _ h
theorem Dev.lined_bump (s : Dev) (f : Field) (h : lineReg f.addr = true) : s.lined (s.bump f) := Dev.framed_bump Dev.lineParts_blind s f h
theorem Dev.lined_raise (s : Dev) (p no : Nat) : s.lined (s.raise p no) := Dev.framed_raise Dev.lineParts_blind s p no
theorem Dev.lined_raiseInj (s : Dev) (p no : Nat) (inj live : Bool) : s.lined (s.raiseInj p no inj live) :=
  Dev.framed_of_events Dev.lineParts_blind (s.raiseInj_eventsOnly p no inj live)
theorem Dev.lined_refl (s : Dev) : s.lined s := Dev.framed_refl s
theorem Dev.lined_of_regs {s t : Dev} (hc : t.lineParts = s.lineParts) (hr : t.regs = s.regs) : s.lined t := Dev.framed_of_regs hc hr

theorem Dev.injUse_lined (s : Dev) {p : Nat} (h : lineReg (pageBase p + 0x1C) = true) : s.lined (s.injUse p) := by
  have hcount := s.lined_set (Hdr.INJ_COUNT p) (s.get (Hdr.INJ_COUNT p) - 1) h
  exact Dev.framed_ite _ (fun _ => hcount.trans (Dev.lined_set _ (Hdr.INJ_ARM p) 0 h)) fun _ => hcount

/-! ##### Neighbours and the queue -/

theorem Dev.nbUpd_lined (s : Dev) (i : Nat) (f : Nb → Nb) : s.lined (s.nbUpd i f) := Dev.lined_of_regs rfl rfl

theorem Dev.nbRate_lined (s : Dev) (i : Nat) : s.lined (s.nbRate i) := by
  have htm : lineReg (Reg.PLCMAC_NB_TM i) = true := lineReg_above (by unfold Reg.PLCMAC_NB_TM; omega)
  have hrate : lineReg (Reg.PLCMAC_NB_RATE i) = true := lineReg_above (by unfold Reg.PLCMAC_NB_RATE; omega)
  have hlink : lineReg (Reg.PLCMAC_NB_LINK i) = true := lineReg_above (by unfold Reg.PLCMAC_NB_LINK; omega)
  exact ((((s.lined_set _ _ htm).trans (Dev.lined_set _ _ _ htm)).trans (Dev.lined_set _ _ _ htm)).trans (Dev.lined_set _ _ _ hrate)).trans (Dev.lined_set _ _ _ hlink)

theorem Dev.rxLose_lined (s : Dev) (p : FC → Bool) : s.lined (s.rxLose p) := by
  refine Dev.lined_of_regs ?_ rfl
  simp only [Dev.lineParts, Dev.tickParts, Dev.rxLose, List.map_map, Function.comp_def]

theorem Dev.tick_lined (s : Dev) : s.lined s.tick := Dev.lined_of_regs rfl rfl

theorem Dev.plcQueue_lined (s : Dev) (f : TxFrame) : s.lined (s.plcQueue f) := Dev.lined_of_regs rfl rfl

theorem Dev.refreshStart_lined (s : Dev) (i : Nat) : s.lined (s.refreshStart i) :=
  Dev.framed_ite _ (fun _ => s.lined_refl) fun _ => ((s.tick_lined.trans (Dev.nbUpd_lined _ _ _)).trans (Dev.plcQueue_lined _ _)).trans (Dev.lined_raise _ _ _)

theorem Dev.mapsDrop_lined (s : Dev) : s.lined s.mapsDrop := by
  have hdrop (t : Dev) (i : Nat) : t.lined ((t.nbUpd i fun n => { n with tx := none, rx := none, rxOld := none, refSnr := none, negEnd := none, txMt := none }).nbRate i) :=
    (t.nbUpd_lined i _).trans (Dev.nbRate_lined _ i)
  have hstart (t : Dev) (i : Nat) : t.lined (if t.on (Fld.PLCMAC_NB_INFO_VALID i) then t.refreshStart i else t) :=
    Dev.framed_ite _ (fun _ => t.refreshStart_lined i) fun _ => t.lined_refl
  exact ((s.rxLose_lined _).trans (Dev.framed_foldl _ _ (fun t i _ => hdrop t i) _)).trans (Dev.framed_foldl _ _ (fun t i _ => hstart t i) _)

theorem Dev.meshQueue_lined (s : Dev) (dst : Nat) (enc : Bool) (src : Nat) (payload : List Byte) : s.lined (s.meshQueue dst enc src payload) :=
  Dev.framed_ite _ (fun _ => s.lined_bump _ (by decide)) fun _ => s.plcQueue_lined _

theorem Dev.meshSend_lined (s : Dev) (kind fdst : Nat) (body : List Byte) : s.lined (s.meshSend kind fdst body) := by
  refine Dev.framed_ite _ (fun _ => s.meshQueue_lined _ _ _ _) fun _ => ?_
  split
  · exact Dev.framed_ite _ (fun _ => s.lined_bump _ (by decide)) fun _ => s.meshQueue_lined _ _ _ _
  · exact s.lined_bump _ (by decide)

/-! ##### The mesh -/

theorem Dev.meshPublish_lined (s : Dev) : s.lined s.meshPublish := by
  have hroutes := s.lined_set Fld.MESH_ROUTES_N (satN 8191 s.mesh.routes.length) (by decide)
  have hroot (t : Dev) (parent hops metric : Nat) : t.lined (((t.set Fld.MESH_STAT_PARENT parent).set Fld.MESH_ROOTMET_HOPS hops).set Fld.MESH_ROOTMET_METRIC metric) :=
    ((t.lined_set _ _ (by decide)).trans (Dev.lined_set _ _ _ (by decide))).trans (Dev.lined_set _ _ _ (by decide))
  refine Dev.framed_ite _ (fun _ => hroutes.trans (hroot _ _ _ _)) fun _ => ?_
  split
  · exact hroutes.trans (hroot _ _ _ _)
  · exact hroutes.trans (hroot _ _ _ _)

theorem Dev.setRoutes_lined (s : Dev) (r : List Route) : s.lined (s.setRoutes r) :=
  Dev.framed.trans (t := { s with mesh := { s.mesh with routes := r } }) (Dev.lined_of_regs rfl rfl) (Dev.meshPublish_lined _)

theorem Dev.routeEntry_lined (s : Dev) (nbr dest seq metric hops : Nat) : s.lined (s.routeEntry nbr dest seq metric hops) := by
  refine Dev.framed_ite _ (fun _ => s.lined_refl) fun _ => ?_
  split
  · exact (s.setRoutes_lined _).trans (Dev.lined_raise _ _ _)
  · exact Dev.framed_ite _ (fun _ => Dev.framed_ite _ (fun _ => (s.setRoutes_lined _).trans (Dev.lined_raise _ _ _)) fun _ => s.setRoutes_lined _) fun _ => s.lined_refl

theorem Dev.adv_lined (s : Dev) (nbr : Nat) (body : List Byte) : s.lined (s.adv nbr body) := Dev.framed_foldl _ _ (fun t _ _ => t.routeEntry_lined _ _ _ _ _) s

theorem Dev.joinFrame_lined (s : Dev) (src dst kind : Nat) (body : List Byte) : s.lined (s.joinFrame src dst kind body) := s.meshQueue_lined _ _ _ _

theorem Dev.meshState_lined (s : Dev) (m : Mesh) : s.lined { s with mesh := m } := Dev.lined_of_regs rfl rfl

theorem Dev.joinReq_lined (s : Dev) (nbr : Nat) (body : List Byte) : s.lined (s.joinReq nbr body) := by
  refine Dev.framed_ite _ (fun _ => ?_) fun _ =>
    Dev.framed_ite _ (fun _ => (s.meshState_lined _).trans (Dev.meshSend_lined _ _ _ _)) fun _ => s.lined_refl
  split
  · exact s.lined_bump _ (by decide)
  · refine Dev.framed_ite _ (fun _ => s.lined_bump _ (by decide)) fun _ => ?_
    split
    · exact s.lined_refl
    · exact Dev.framed_ite _ (fun _ => (s.meshState_lined _).trans (Dev.joinFrame_lined _ _ _ _ _)) fun _ => (s.meshState_lined _).trans (Dev.meshSend_lined _ _ _ _)

theorem Dev.joinResp_lined (s : Dev) (body : List Byte) : s.lined (s.joinResp body) := by
  refine Dev.framed_ite _ (fun _ => ?_) fun _ =>
    Dev.framed_ite _ (fun _ => (s.meshState_lined _).trans (Dev.joinFrame_lined _ _ _ _ _)) fun _ => s.lined_refl
  split
  · refine Dev.framed_ite _ (fun _ => ?_) fun _ => s.lined_refl
    exact ((((s.meshState_lined _).trans (Dev.lined_set _ _ _ (by decide))).trans (Dev.lined_set _ _ _ (by decide))).trans (Dev.meshPublish_lined _)).trans
      (Dev.lined_raise _ _ _)
  · exact s.lined_refl

theorem Dev.leaveMsg_lined (s : Dev) (osrc : Nat) : s.lined (s.leaveMsg osrc) := Dev.framed_ite _ (fun _ => s.meshState_lined _) fun _ => s.lined_refl

theorem Dev.deliver_lined (s : Dev) (kind osrc : Nat) (body : List Byte) : s.lined (s.deliver kind osrc body) := s.meshState_lined _

theorem Dev.deliverKind_lined (s : Dev) (nbr kind osrc : Nat) (body : List Byte) : s.lined (s.deliverKind nbr kind osrc body).1 := by
  unfold Dev.deliverKind
  split_ifs
  · exact s.deliver_lined _ _ _
  · exact s.adv_lined _ _
  · exact s.joinReq_lined _ _
  · exact s.joinResp_lined _
  · exact s.deliver_lined _ _ _
  · exact s.lined_refl
  · exact s.leaveMsg_lined _
  · exact s.lined_refl

theorem Dev.forward_lined (s : Dev) (hdr body : List Byte) : s.lined (s.forward hdr body) := by
  refine Dev.framed_ite _ (fun _ => (s.lined_bump _ (by decide)).trans (Dev.lined_raise _ _ _)) fun _ => ?_
  split
  · refine Dev.framed_ite _ (fun _ => s.lined_bump _ (by decide)) fun _ => ?_
    exact Dev.framed_ite _ (fun _ => s.meshQueue_lined _ _ _ _) fun _ => (s.meshQueue_lined _ _ _ _).trans (Dev.lined_set _ _ _ (by decide))
  · exact s.lined_bump _ (by decide)

theorem Dev.authFail_lined (s : Dev) : s.lined s.authFail := (s.lined_bump _ (by decide)).trans (Dev.lined_raise _ _ _)

theorem Dev.replayOk_lined {s t : Dev} {src fcnt : Nat} (h : s.replayOk src fcnt = some t) : s.lined t := by
  unfold Dev.replayOk at h
  split at h
  · cases h
    exact s.lined_refl
  · obtain ⟨w, -, rfl⟩ := Option.map_eq_some_iff.1 h
    exact s.nbUpd_lined _ _

/-- A payload under the injected failure of its tag. -/
theorem Dev.meshInject_lined (s : Dev) (live : Bool) :
    s.lined (if s.injArmed Pg.MESH 0 then ((s.injUse Pg.MESH).bump Fld.MESH_CNT_SEC_AUTHFAIL).raiseInj Pg.MESH 10 true live else s) :=
  Dev.framed_ite _ (fun _ => ((s.injUse_lined (by decide)).trans (Dev.lined_bump _ _ (by decide))).trans (Dev.lined_raiseInj _ _ _ _ _)) fun _ => s.lined_refl

theorem Dev.meshPayload_lined (s : Dev) (f : FC) (p : List Byte) : s.lined (s.meshPayload f p).1 := by
  unfold Dev.meshPayload
  dsimp only
  have hinj := s.meshInject_lined (s.injLive Pg.MESH)
  generalize (if s.injArmed Pg.MESH 0 then ((s.injUse Pg.MESH).bump Fld.MESH_CNT_SEC_AUTHFAIL).raiseInj Pg.MESH 10 true (s.injLive Pg.MESH) else s) = s0 at hinj ⊢
  split
  · split
    · exact hinj
    · split
      · split
        · exact (hinj.trans (s0.lined_bump _ (by decide))).trans (Dev.lined_raise _ _ _)
        · next s1 hreplay =>
          have hopen := hinj.trans (Dev.replayOk_lined hreplay)
          split_ifs
          · exact hopen.trans (s1.deliverKind_lined _ _ _ _)
          · exact hopen
          · exact hopen.trans (s1.forward_lined _ _)
      · exact hinj.trans s0.authFail_lined
  · split_ifs
    · exact s.joinReq_lined _ _
    · exact s.joinResp_lined _
    · exact s.authFail_lined

theorem Dev.listen_lined (s : Dev) : s.lined s.listen :=
  Dev.framed.trans (t := { s with mesh := { s.mesh with cands := [], asked := none } }) (s.meshState_lined _) (Dev.lined_set _ _ _ (by decide))

theorem Dev.rateVoid_lined (s : Dev) : s.lined s.rateVoid := by
  unfold Dev.rateVoid
  split
  · exact s.lined_refl
  · have hgone : s.lined { s with rtc := { s.rtc with rate := none } } := Dev.lined_of_regs rfl rfl
    exact ((hgone.trans (Dev.lined_set _ _ _ (by decide))).trans (Dev.lined_set _ _ _ (by decide))).trans (Dev.lined_raise _ _ _)

theorem Dev.ntLose_lined (s : Dev) : s.lined s.ntLose := by
  refine Dev.framed_ite _ (fun _ => s.lined_refl) fun _ => ?_
  have hlost := ((s.meshState_lined { s.mesh with within := 0 }).trans (Dev.lined_set _ Fld.MESH_NT_STAT_STATE 0 (by decide))).trans (Dev.lined_raise _ Pg.MESH 7)
  exact Dev.framed_ite _ (fun _ => hlost.trans (Dev.rateVoid_lined _)) fun _ => hlost

theorem Dev.beaconPayload_lined (s : Dev) (f : FC) (p : List Byte) : s.lined (s.beaconPayload f p) := by
  unfold Dev.beaconPayload
  split
  · exact s.lined_refl
  · dsimp only
    split_ifs
    · exact s.lined_refl
    · exact s.meshState_lined _
    · exact (((((s.tick_lined.trans (Dev.lined_set _ _ _ (by decide))).trans (Dev.lined_set _ _ _ (by decide))).trans (Dev.lined_raise _ _ _)).trans (Dev.listen_lined _)).trans
        (Dev.ntLose_lined _))
    · exact s.tick_lined
    · exact s.lined_refl

end Sys2Proof.Machine

/-! ### Update messages and arriving frames beside the tick (R389, R455–R458) -/

namespace Sys2Proof.Machine

open Sys2Proof.Safety

/-! ##### The update service -/

theorem Dev.updUpd_lined (s : Dev) (f : Upd → Upd) (h : (f s.upd).floorGo = s.upd.floorGo) : s.lined (s.updUpd f) := by
  refine Dev.lined_of_regs ?_ rfl
  simp only [Dev.lineParts, Dev.tickParts, Dev.updUpd, h]

theorem Dev.set64_lined (s : Dev) (lo hi v : Nat) (hlo : lineReg lo = true) (hhi : lineReg hi = true) : s.lined (s.set64 lo hi v) :=
  (Dev.framed_wr Dev.lineParts_blind s lo _ hlo).trans (Dev.framed_wr Dev.lineParts_blind _ hi _ hhi)

theorem Dev.recepShow_lined (s : Dev) : s.lined s.recepShow := by
  have hheld (gen bid n ntot : Nat) : s.lined ((((s.set Fld.UPD_GEN_HELD gen).set64 Reg.UPD_BID_LO Reg.UPD_BID_HI bid).set Fld.UPD_RX_HELD n).set Fld.UPD_RX_NTOT ntot) :=
    (((s.lined_set _ _ (by decide)).trans (Dev.set64_lined _ _ _ _ (by decide) (by decide))).trans (Dev.lined_set _ _ _ (by decide))).trans (Dev.lined_set _ _ _ (by decide))
  unfold Dev.recepShow
  dsimp only
  split
  · exact (((hheld _ _ _ _).trans (Dev.lined_setB _ _ _ (by decide))).trans (Dev.lined_setB _ _ _ (by decide))).trans (Dev.lined_setB _ _ _ (by decide))
  · exact ((hheld _ _ _ _).trans (Dev.lined_setB _ _ _ (by decide))).trans (Dev.lined_set _ _ _ (by decide))

theorem Dev.recepUpd_lined (s : Dev) (f : Recep → Recep) : s.lined (s.recepUpd f) := (s.updUpd_lined _ rfl).trans (Dev.recepShow_lined _)

theorem Dev.chainSend_lined (s : Dev) (dst : Nat) (body : List Byte) : s.lined (s.chainSend dst body) := Dev.lined_of_regs rfl rfl

theorem Dev.updSend_lined (s : Dev) (dst : Nat) (body : List Byte) : s.lined (s.updSend dst body) :=
  Dev.framed_ite _ (fun _ => s.lined_refl) fun _ => Dev.framed_ite _ (fun _ => s.chainSend_lined _ _) fun _ => s.meshSend_lined _ _ _

theorem Dev.needSend_lined (s : Dev) (mem : List Host.Cell) (src : Nat) : s.lined (s.needSend mem src) := by
  unfold Dev.needSend
  split
  · exact Dev.framed_ite _ (fun _ => s.lined_refl) fun _ => s.updSend_lined _ _
  · exact s.lined_refl

theorem Dev.offer_lined (s : Dev) (mem : List Host.Cell) (src : Nat) (body : List Byte) : s.lined (s.offer mem src body) := by
  refine Dev.framed_ite _ (fun _ => s.lined_refl) fun _ => Dev.framed_ite _ (fun _ => s.updUpd_lined _ rfl) fun _ => Dev.framed_ite _ (fun _ => ?_) fun _ => s.lined_refl
  exact ((s.updUpd_lined _ rfl).trans (Dev.recepShow_lined _)).trans (Dev.needSend_lined _ _ _)

theorem Dev.needIn_lined (s : Dev) (mem : List Host.Cell) (src : Nat) (body : List Byte) : s.lined (s.needIn mem src body) := by
  refine Dev.framed_ite _ (fun _ => s.lined_refl) fun _ => ?_
  split
  · exact s.lined_refl
  · exact Dev.framed.trans (Dev.framed_ite _ (fun _ => s.updUpd_lined _ rfl) fun _ => s.lined_refl) (Dev.framed_foldl _ _ (fun t _ _ => t.updSend_lined _ _) _)

theorem Dev.haveIn_lined (s : Dev) (src : Nat) (body : List Byte) : s.lined (s.haveIn src body) := by
  unfold Dev.haveIn
  split
  · exact s.lined_refl
  · exact Dev.framed_ite _ (fun _ => s.lined_refl) fun _ => (s.updUpd_lined _ rfl).trans (Dev.recepUpd_lined _ _)

theorem Dev.bundleReject_lined (s : Dev) (reason : Nat) : s.lined (s.bundleReject reason) :=
  (((s.updUpd_lined _ rfl).trans (Dev.lined_set _ _ _ (by decide))).trans (Dev.recepShow_lined _)).trans (Dev.lined_raise _ _ _)

theorem Dev.bootPut_lined (s : Dev) (r : BootRec) : s.lined (s.bootPut r) := by
  unfold Dev.bootPut
  split
  · exact s.updUpd_lined _ rfl
  · exact s.updUpd_lined _ rfl
  · exact s.updUpd_lined _ rfl

theorem Dev.slotDrop_lined (s : Dev) (k : Nat) : s.lined (s.slotDrop k) := by
  unfold Dev.slotDrop
  split
  · exact Dev.framed_ite _ (fun _ => s.bootPut_lined _) fun _ => s.lined_refl
  · exact s.lined_refl

/-- A counted block event of the update service. -/
theorem Dev.countedMark_lined (s : Dev) (f : Field) (no : Nat) (inj : Bool) (h : lineReg f.addr = true) : s.lined ((s.bump f).raiseMark Pg.UPD no inj) :=
  (s.lined_bump f h).trans (Dev.lined_raiseInj _ _ _ _ _)

theorem Dev.blockKeep_lined (s : Dev) (r : Recep) (i : Nat) (data : List Byte) : s.lined (s.blockKeep r i data) := by
  have hdrop : s.lined (if i = 0 then s.slotDrop r.slot else s) := Dev.framed_ite _ (fun _ => s.slotDrop_lined _) fun _ => s.lined_refl
  unfold Dev.blockKeep
  dsimp only
  refine Dev.framed.trans (Dev.framed.trans ?_ (Dev.framed_foldl _ _ (fun t a _ => t.updSend_lined _ _) _)) (Dev.lined_raise _ _ _)
  split
  · exact (hdrop.trans (Dev.recepUpd_lined _ _)).trans (Dev.countedMark_lined _ _ _ _ (by decide))
  · exact hdrop.trans (Dev.recepUpd_lined _ _)

theorem Dev.blockFail_lined (s : Dev) (src i : Nat) (inj : Bool) : s.lined (s.blockFail src i inj) := by
  unfold Dev.blockFail
  split
  · exact s.lined_refl
  · refine Dev.framed_ite _ (fun _ => ?_) fun _ => Dev.framed_ite _ (fun _ => s.recepUpd_lined _) fun _ => (s.recepUpd_lined _).trans (Dev.updSend_lined _ _ _)
    split
    · exact ((s.recepUpd_lined _).trans (Dev.countedMark_lined _ _ _ _ (by decide))).trans (Dev.updSend_lined _ _ _)
    · exact (s.recepUpd_lined _).trans (Dev.countedMark_lined _ _ _ _ (by decide))

theorem Dev.blockFake_lined (s : Dev) : s.lined s.blockFake :=
  Dev.framed_ite _
    (fun _ => (((s.injUse_lined (by decide)).trans (Dev.injUse_lined _ (by decide))).trans (Dev.lined_bump _ _ (by decide))).trans (Dev.lined_raiseInj _ _ _ _ _))
    fun _ => ((s.injUse_lined (by decide)).trans (Dev.lined_bump _ _ (by decide))).trans (Dev.lined_raiseInj _ _ _ _ _)

theorem Dev.recepRecord_lined (s : Dev) (src : Nat) : s.lined (s.recepRecord src) := by
  unfold Dev.recepRecord
  split
  · exact (s.recepUpd_lined _).trans (Dev.updSend_lined _ _ _)
  · exact s.lined_refl

theorem Dev.recepDone_lined (s : Dev) (mem : List Host.Cell) (src : Nat) : s.lined (s.recepDone mem src) := by
  unfold Dev.recepDone
  split
  · refine Dev.framed_ite _ (fun _ => ?_) fun _ => Dev.framed_ite _ (fun _ => s.recepRecord_lined _) fun _ => s.lined_refl
    exact (((s.bootPut_lined _).trans (Dev.recepUpd_lined _ _)).trans (Dev.recepRecord_lined _ _)).trans (Dev.lined_raise _ _ _)
  · exact s.lined_refl

theorem Dev.tableCheck_lined (s : Dev) (mem : List Host.Cell) (r : Recep) : s.lined (s.tableCheck mem r) := by
  unfold Dev.tableCheck
  dsimp only
  split_ifs
  · exact s.recepUpd_lined _
  · exact s.recepUpd_lined _
  · exact s.bundleReject_lined _
  · exact s.recepUpd_lined _

theorem Dev.blockOther_lined (s : Dev) (mem : List Host.Cell) (r : Recep) (src i : Nat) (data : List Byte) : s.lined (s.blockOther mem r src i data).1 := by
  have hinj : s.lined (if s.injArmed Pg.UPD 0 then (if s.injLive Pg.UPD then s.injUse Pg.UPD else s.blockFake) else s) :=
    Dev.framed_ite _ (fun _ => Dev.framed_ite _ (fun _ => s.injUse_lined (by decide)) fun _ => s.blockFake_lined) fun _ => s.lined_refl
  unfold Dev.blockOther
  dsimp only
  split
  · exact hinj.trans (Dev.blockFail_lined _ _ _ _)
  · refine Dev.framed.trans ?_ (Dev.recepDone_lined _ _ _)
    split
    · exact Dev.framed_ite _ (fun _ => (hinj.trans (Dev.blockKeep_lined _ _ _ _)).trans (Dev.tableCheck_lined _ _ _)) fun _ => hinj.trans (Dev.blockKeep_lined _ _ _ _)
    · exact hinj.trans (Dev.blockKeep_lined _ _ _ _)

theorem Dev.blockIn_lined (s : Dev) (mem : List Host.Cell) (src : Nat) (body : List Byte) : s.lined (s.blockIn mem src body).1 := by
  unfold Dev.blockIn
  dsimp only
  split
  · exact s.lined_refl
  · split_ifs
    · exact s.lined_refl
    · exact (s.blockKeep_lined _ _ _).trans (Dev.needSend_lined _ _ _)
    · exact s.bundleReject_lined _
    · exact s.lined_refl
    · exact s.blockOther_lined _ _ _ _ _

theorem Dev.updateIn_lined (s : Dev) (mem : List Host.Cell) (src : Nat) (body : List Byte) : s.lined (s.updateIn mem src body).1 := by
  unfold Dev.updateIn
  split
  · exact s.offer_lined _ _ _
  · exact s.needIn_lined _ _ _
  · exact s.blockIn_lined _ _ _
  · exact s.haveIn_lined _ _
  · exact s.lined_refl

/-! #### Frames that arrive, and their ACKs (R382, R383, R389) -/

/-- PLDEN and the registers that time it agree (R376). -/
def Dev.levelled (s : Dev) : Prop := s.pins.plden = s.pldenHigh

/-- What arrives leaves alone: as `lined`, but an ACK may move PLDEN, which then has its level. -/
def Dev.linked (s t : Dev) : Prop :=
  Dev.framed (fun u => { u.lineParts with plden := false, txFrom := 0, txTo := 0 }) lineReg s t ∧ (s.levelled → t.levelled)

theorem Dev.linked.trans {s t u : Dev} (h : s.linked t) (k : t.linked u) : s.linked u := ⟨h.1.trans k.1, fun hs => k.2 (h.2 hs)⟩

theorem Dev.linked_of_lined {s t : Dev} (h : s.lined t) : s.linked t := by
  obtain ⟨hparts, hregs⟩ := h
  refine ⟨⟨by simp only [hparts], hregs⟩, fun hs => ?_⟩
  have hctrl : t.rd Reg.PLCPHY_CTRL = s.rd Reg.PLCPHY_CTRL := hregs _ (by decide) (by decide)
  have hplden : t.pins.plden = s.pins.plden := congrArg LineParts.plden hparts
  have hfrom : t.plc.txFrom = s.plc.txFrom := congrArg LineParts.txFrom hparts
  have hto : t.plc.txTo = s.plc.txTo := congrArg LineParts.txTo hparts
  have hmt : t.mt = s.mt := congrArg (fun p => p.tick.mt) hparts
  rw [Dev.levelled, hplden, hs, Dev.pldenHigh, Dev.pldenHigh, hfrom, hto, hmt, Dev.get_congr (f := Fld.PLCPHY_CTRL_LEAD) hctrl, Dev.get_congr (f := Fld.PLCPHY_CTRL_LAG) hctrl]

theorem Dev.plcLevels_levelled (s : Dev) : s.plcLevels.levelled := rfl

theorem Dev.plcAck_linked (s : Dev) (f : FC) (endMt : Nat) (ok refresh : Bool) : s.linked (s.plcAck f endMt ok refresh) := by
  unfold Dev.plcAck
  split
  · dsimp only
    refine ⟨(Dev.linked_of_lined ?_).1.trans (Dev.framed_of_regs (s := match s.nbFind f.src with
      | some i => s.nbUpd i fun n => { n with askRefresh := false }
      | none => s) rfl rfl), fun _ => Dev.plcLevels_levelled _⟩
    split
    · exact s.nbUpd_lined _ _
    · exact s.lined_refl
  · exact Dev.linked_of_lined s.lined_refl

theorem Dev.phaseSnr_lined (s : Dev) (rx : RxInfo) (p : Nat) (f : Field) (snr : Int) (h : lineReg f.addr = true) : s.lined (s.phaseSnr rx p f snr) :=
  Dev.framed_ite _ (fun _ => s.lined_setI f _ h) fun _ => s.lined_refl

theorem Dev.phaseSnrs_lined (s : Dev) (rx : RxInfo) : s.lined (s.phaseSnrs rx) :=
  ((s.phaseSnr_lined _ _ _ _ (by decide)).trans (Dev.phaseSnr_lined _ _ _ _ _ (by decide))).trans (Dev.phaseSnr_lined _ _ _ _ _ (by decide))

theorem Dev.accepted_linked (s : Dev) (rx : RxInfo) (f : FC) (endMt : Nat) : s.linked (s.accepted rx f endMt) := by
  have hseq (t : Dev) (l : List (Nat × Nat)) : t.lined { t with plc := { t.plc with lastSeq := l } } := Dev.lined_of_regs rfl rfl
  have hnoted := Dev.linked_of_lined ((s.phaseSnrs_lined rx).trans (hseq _ ((f.src, f.seq) :: (s.phaseSnrs rx).plc.lastSeq.filter fun e => e.1 != f.src)))
  unfold Dev.accepted
  dsimp only
  split
  · exact hnoted.trans (Dev.plcAck_linked _ _ _ _ _)
  · exact hnoted

theorem Dev.phyStats_lined (s : Dev) (rx : RxInfo) : s.lined (s.phyStats rx) :=
  ((s.lined_set _ _ (by decide)).trans (Dev.lined_set _ _ _ (by decide))).trans (Dev.framed_foldl _ _ (fun t _ _ => t.lined_raise _ _) _)

/-- The state a reception stopped in or goes on from. -/
def RxStep.dev : RxStep → Dev
  | .stop s => s
  | .go s => s

theorem Dev.rxPayload_linked (s : Dev) (rx : RxInfo) (f : FC) (p : List Byte) (endMt : Nat) : s.linked (s.rxPayload rx f p endMt).dev := by
  have hphy := Dev.linked_of_lined (s.phyStats_lined rx)
  have hpass (t : Dev) : t.linked (if s.repeats f then RxStep.stop (t.accepted rx f endMt) else RxStep.go (t.accepted rx f endMt)).dev := by
    split
    · exact t.accepted_linked rx f endMt
    · exact t.accepted_linked rx f endMt
  unfold Dev.rxPayload
  dsimp only
  generalize s.phyStats rx = s0 at hphy ⊢
  have hinj := hphy.trans (Dev.linked_of_lined (((s0.injUse_lined (p := Pg.PLCPHY) (by decide)).trans (Dev.lined_bump _ Fld.PLCPHY_CNT_CRC_CRCERR (by decide))).trans
    (Dev.lined_raiseInj _ Pg.PLCPHY 2 true (s0.injLive Pg.PLCPHY))))
  split
  · split
    · exact hinj
    · exact hinj.trans (hpass _)
  · split
    · exact hphy.trans (hpass _)
    · exact hphy.trans (Dev.linked_of_lined ((s0.lined_bump _ (by decide)).trans (Dev.lined_raise _ _ _)))

/-- What follows a reception, where it goes on, keeps what the line keeps. -/
theorem RxStep.linked_of_cases {s : Dev} {r : RxStep} (h : s.linked r.dev) {t : Dev} (hstop : ∀ u, r = .stop u → t = u) (hgo : ∀ u, r = .go u → u.lined t) :
    s.linked t := by
  cases r with
  | stop u => rw [hstop u rfl]; exact h
  | go u => exact Dev.linked.trans h (Dev.linked_of_lined (hgo u rfl))

theorem Dev.mapRefused_lined (s : Dev) (n : Nat) : s.lined { s with plc := { s.plc with mapRefused := n } } := Dev.lined_of_regs rfl rfl

theorem Dev.tonemapPayload_linked (s : Dev) (rx : RxInfo) (f : FC) (p : List Byte) (endMt : Nat) : s.linked (s.tonemapPayload rx f p endMt) := by
  refine RxStep.linked_of_cases (s.rxPayload_linked rx f p endMt) (fun u hu => ?_) fun u hu => ?_
  · rw [Dev.tonemapPayload, hu]
  · rw [Dev.tonemapPayload, hu]
    dsimp only
    split
    · exact u.lined_refl
    · split
      · exact (u.nbUpd_lined _ _).trans (Dev.mapRefused_lined _ _)
      · exact (((u.nbUpd_lined _ _).trans (Dev.nbUpd_lined _ _ _)).trans (Dev.nbRate_lined _ _)).trans (Dev.lined_raise _ _ _)

theorem Dev.dataEnd_linked (s : Dev) (rx : RxInfo) (f : FC) (p : List Byte) (endMt : Nat) : s.linked (s.dataEnd rx f p endMt).1 := by
  refine RxStep.linked_of_cases (s.rxPayload_linked rx f p endMt) (fun u hu => ?_) fun u hu => ?_
  · rw [Dev.dataEnd, hu]
  · rw [Dev.dataEnd, hu]
    dsimp only
    split
    · exact u.meshPayload_lined f p
    · exact u.lined_refl

theorem Dev.beaconEnd_linked (s : Dev) (rx : RxInfo) (f : FC) (p : List Byte) (endMt : Nat) : s.linked (s.beaconEnd rx f p endMt) := by
  refine RxStep.linked_of_cases (s.rxPayload_linked rx f p endMt) (fun u hu => ?_) fun u hu => ?_
  · rw [Dev.beaconEnd, hu]
  · rw [Dev.beaconEnd, hu]
    exact Dev.framed_ite _ (fun _ => u.beaconPayload_lined f p) fun _ => u.lined_refl

theorem Dev.arrived_linked (s : Dev) (a : Arriving) : s.linked (s.arrived a).1 := by
  unfold Dev.arrived
  dsimp only
  split_ifs
  · exact Dev.linked_of_lined ((s.lined_bump _ (by decide)).trans (Dev.lined_raise _ _ _))
  · exact s.dataEnd_linked _ _ _ _
  · exact s.tonemapPayload_linked _ _ _ _
  · exact s.beaconEnd_linked _ _ _ _

/-- A frame that arrives, and the update body it may bring. -/
def Dev.arrivedServed (r : Dev × List Host.Cell) (a : Arriving) : Dev × List Host.Cell :=
  match (r.1.arrived a).2 with
  | some (src, body) => (r.1.arrived a).1.updateIn r.2 src body
  | none => ((r.1.arrived a).1, r.2)

theorem Dev.arrivedServed_linked (r : Dev × List Host.Cell) (a : Arriving) : r.1.linked (Dev.arrivedServed r a).1 := by
  unfold Dev.arrivedServed
  split
  · exact (r.1.arrived_linked a).trans (Dev.linked_of_lined (Dev.updateIn_lined _ _ _ _))
  · exact r.1.arrived_linked a

theorem Dev.arrivedAll_linked (l : List Arriving) (r : Dev × List Host.Cell) : r.1.linked (l.foldl Dev.arrivedServed r).1 := by
  induction l generalizing r with
  | nil => exact Dev.linked_of_lined r.1.lined_refl
  | cons a l ih => exact (Dev.arrivedServed_linked r a).trans (ih _)

/-- The frames that are over leave the list. -/
def Dev.arrivalsLeft (s : Dev) : Dev := { s with plc := { s.plc with arriving := s.plc.arriving.filter fun a => !decide (a.endMt ≤ s.mt) } }

theorem Dev.framesOver_eq (s : Dev) (mem : List Host.Cell) :
    s.framesOver mem = (s.plc.arriving.filter fun a => decide (a.endMt ≤ s.mt)).foldl Dev.arrivedServed (s.arrivalsLeft, mem) := by
  unfold Dev.framesOver Dev.arrivalsLeft
  congr 1

theorem Dev.framesOver_linked (s : Dev) (mem : List Host.Cell) : s.arrivalsLeft.linked (s.framesOver mem).1 := by
  rw [Dev.framesOver_eq]
  exact Dev.arrivedAll_linked _ _

end Sys2Proof.Machine

/-! ### Tables and band plans beside the tick (R85, R87, R374) -/

namespace Sys2Proof.Machine

open Sys2Proof.Safety

/-! #### Each thing that ends at a tick -/

/-- Nothing that ends at a tick changes, and none of the registers kept. -/
def Dev.ticked (s t : Dev) : Prop := Dev.framed Dev.tickParts lineReg s t

theorem Dev.ticked_of_lined {s t : Dev} (h : s.lined t) : s.ticked t := h.mono LineParts.tick (fun _ => rfl) fun _ ha => ha
theorem Dev.ticked_of_regs {s t : Dev} (hc : t.tickParts = s.tickParts) (hr : t.regs = s.regs) : s.ticked t := Dev.framed_of_regs hc hr

/-! ##### The band plan (R374) -/

/-- A plan put in force, its maps still held. -/
def Dev.planPut (s : Dev) (plan : List (Nat × Nat)) : Dev := { s with plc := { s.plc with plan := some plan, planNext := none } }

theorem Dev.planApply_lined (s : Dev) (plan : List (Nat × Nat)) (id : Nat) : (s.planPut plan).lined (s.planApply plan id) := by
  have hshow (t : Dev) (n : Nat) : t.lined (((t.set Fld.PLCPHY_BP_INFO_PLAN_ID id).set Fld.PLCPHY_BP_INFO_NDATA n).set Fld.PLCPHY_STAT_NOPLAN 0) :=
    ((t.lined_set _ _ (by decide)).trans (Dev.lined_set _ _ _ (by decide))).trans (Dev.lined_set _ _ _ (by decide))
  unfold Dev.planApply
  dsimp only
  generalize (dataCarriers plan).length = n
  exact (hshow (s.planPut plan) n).trans (Dev.mapsDrop_lined _)

theorem Dev.planPut_ticked (s : Dev) (plan : List (Nat × Nat)) : s.ticked (s.planPut plan) := Dev.ticked_of_regs rfl rfl

theorem Dev.planDue_ticked (s : Dev) : s.ticked s.planDue := by
  unfold Dev.planDue
  split
  · exact Dev.framed_ite _ (fun _ => Dev.framed_refl s) fun _ => (s.planPut_ticked _).trans (Dev.ticked_of_lined (s.planApply_lined _ _))
  · exact Dev.framed_refl s

theorem Dev.planDue_waits {s : Dev} (h : s.plc.planNext = none ∨ s.mt < s.plc.txTo) : s.planDue = s := by
  unfold Dev.planDue
  split
  · next hp => rw [if_pos (h.resolve_left (by rw [hp]; exact Option.some_ne_none _))]
  · rfl

theorem Dev.planDue_eq_planApply {s : Dev} {p : List (Nat × Nat) × Nat} (h : s.plc.planNext = some p) (ht : s.plc.txTo ≤ s.mt) :
    s.planDue = s.planApply p.1 p.2 := by
  rw [Dev.planDue, h]
  exact if_neg (Nat.not_lt.2 ht)

theorem Dev.planDue_applies {s : Dev} {p : List (Nat × Nat) × Nat} (h : s.plc.planNext = some p) (ht : s.plc.txTo ≤ s.mt) :
    s.planDue.plc.planNext = none ∧ s.planDue.plc.plan = some p.1 := by
  have happly := (s.planApply_lined p.1 p.2).1
  rw [← Dev.planDue_eq_planApply h ht] at happly
  generalize s.planDue = t at happly ⊢
  exact ⟨congrArg LineParts.planNext happly, congrArg LineParts.plan happly⟩

/-! ##### Tables (R85, R87) -/

theorem Dev.tblShow_lined (s : Dev) (a : Nat) (i : TblImage) (h : lineReg a = true) : s.lined (s.tblShow a i) :=
  (s.lined_set ⟨a, 31, 16⟩ _ h).trans (Dev.lined_set _ ⟨a, 15, 8⟩ _ h)

theorem Dev.tblReject_lined (s : Dev) (a reason : Nat) (h : lineReg a = true) : s.lined (s.tblReject a reason) :=
  (s.lined_set ⟨a, 7, 4⟩ _ h).trans (Dev.lined_set _ ⟨a, 3, 3⟩ _ h)

theorem Dev.temps_lined (s : Dev) (l : List TempEntry) : s.lined { s with temps := l } := Dev.lined_of_regs rfl rfl
theorem Dev.billState_lined (s : Dev) (b : Bill) : s.lined { s with bill := b } := Dev.lined_of_regs rfl rfl
theorem Dev.discUpd_lined (s : Dev) (f : Disc → Disc) : s.lined (s.discUpd f) := Dev.lined_of_regs rfl rfl
theorem Dev.dispState_lined (s : Dev) (d : Disp) : s.lined { s with disp := d } := Dev.lined_of_regs rfl rfl

theorem Dev.tempLoad_lined (s : Dev) (mem : List Host.Cell) (src : Nat) (locked : Bool) : s.lined (s.tempLoad mem src locked) := by
  unfold Dev.tempLoad
  dsimp only
  split
  · exact (s.tblShow_lined _ _ (by decide)).trans (Dev.temps_lined _ _)
  · exact s.tblReject_lined _ _ (by decide)

theorem Dev.tarLoad_lined (s : Dev) (mem : List Host.Cell) (src : Nat) (locked : Bool) : s.lined (s.tarLoad mem src locked) := by
  unfold Dev.tarLoad
  dsimp only
  split
  · exact (s.billState_lined _).trans (Dev.lined_raise _ _ _)
  · exact (s.tblReject_lined _ _ (by decide)).trans (Dev.lined_raise _ _ _)

theorem Dev.seqLoad_lined (s : Dev) (mem : List Host.Cell) (src : Nat) : s.lined (s.seqLoad mem src) := by
  unfold Dev.seqLoad
  dsimp only
  split
  · exact (s.tblShow_lined _ _ (by decide)).trans (Dev.discUpd_lined _ _)
  · exact s.tblReject_lined _ _ (by decide)

theorem Dev.dispLoad_lined (s : Dev) (mem : List Host.Cell) (src : Nat) : s.lined (s.dispLoad mem src) := by
  unfold Dev.dispLoad
  dsimp only
  split
  · exact ((s.tblShow_lined _ _ (by decide)).trans (Dev.dispState_lined _ _)).trans (Dev.lined_raise _ _ _)
  · exact (s.tblReject_lined _ _ (by decide)).trans (Dev.lined_raise _ _ _)

theorem Dev.bandTake_ticked (s : Dev) (plan : List (Nat × Nat)) (id : Nat) : s.ticked (s.bandTake plan id) :=
  Dev.framed.trans (t := { s with plc := { s.plc with planNext := some (plan, id) } }) (Dev.ticked_of_regs rfl rfl) (Dev.planDue_ticked _)

theorem Dev.bandTry_ticked (s : Dev) (mem : List Host.Cell) (src : Nat) (emptyOk : Bool) : s.ticked (s.bandTry mem src emptyOk) := by
  unfold Dev.bandTry
  dsimp only
  split
  · exact ((Dev.ticked_of_lined (s.tblShow_lined _ _ (by decide))).trans (Dev.bandTake_ticked _ _ _)).trans (Dev.ticked_of_lined (Dev.lined_raise _ _ _))
  · exact Dev.ticked_of_lined ((s.tblReject_lined _ _ (by decide)).trans (Dev.lined_raise _ _ _))

theorem Dev.loadEnd_ticked (mem : List Host.Cell) (s : Dev) (l : TblLoad) : s.ticked (s.loadEnd mem l) := by
  unfold Dev.loadEnd
  split_ifs
  · exact Dev.ticked_of_lined (s.tempLoad_lined _ _ _)
  · exact Dev.ticked_of_lined (s.tarLoad_lined _ _ _)
  · exact Dev.ticked_of_lined (s.seqLoad_lined _ _)
  · exact Dev.ticked_of_lined (s.dispLoad_lined _ _)
  · exact s.bandTry_ticked _ _ _

end Sys2Proof.Machine

/-! ### What ends at a tick (log 1) -/

namespace Sys2Proof.Machine

open Sys2Proof.Safety

/-! ##### The stages of a tick -/

/-- The pause, or none where it is over by now (R437). -/
def TickParts.pauseLeft (p : TickParts) : Option Nat × Bool :=
  match p.pause.1 with
  | some e => if e ≤ p.mt then (none, false) else p.pause
  | none => p.pause

theorem Dev.ethScan_parts {s : Dev} (mem : List Host.Cell) (h : s.host.ethPause = none) : (s.ethScan mem).tickParts = s.tickParts ∧ (s.ethScan mem).plc = s.plc := by
  unfold Dev.ethScan
  dsimp only
  split
  · rw [if_neg (by rw [h]; exact Bool.false_ne_true)]
    exact ⟨rfl, rfl⟩
  · exact ⟨rfl, rfl⟩

theorem Dev.ethResume_parts (s : Dev) (mem : List Host.Cell) :
    (s.ethResume mem).tickParts = { s.tickParts with pause := (none, false) } ∧ (s.ethResume mem).plc = s.plc := by
  unfold Dev.ethResume
  dsimp only
  split
  · exact Dev.ethScan_parts (s := { s with host := { s.host with ethPause := none, ethHeld := false } }) mem rfl
  · exact ⟨rfl, rfl⟩

theorem Dev.pauseOver_parts (s : Dev) (mem : List Host.Cell) :
    (s.pauseOver mem).tickParts = { s.tickParts with pause := s.tickParts.pauseLeft } ∧ (s.pauseOver mem).plc = s.plc := by
  unfold Dev.pauseOver TickParts.pauseLeft
  cases hp : s.host.ethPause with
  | none =>
    have hpause : s.tickParts.pause.1 = none := hp
    rw [hpause]
    exact ⟨rfl, rfl⟩
  | some e =>
    have hpause : s.tickParts.pause.1 = some e := hp
    rw [hpause]
    dsimp only
    split
    · next he =>
      rw [if_pos (show e ≤ s.tickParts.mt from he)]
      exact s.ethResume_parts mem
    · next he =>
      rw [if_neg (show ¬e ≤ s.tickParts.mt from he)]
      exact ⟨rfl, rfl⟩

theorem Dev.pauseOver_none {s : Dev} (mem : List Host.Cell) (h : ∀ e, s.host.ethPause = some e → s.mt < e) : s.pauseOver mem = s := by
  unfold Dev.pauseOver
  split
  · next e he => exact if_neg (Nat.not_le.2 (h e he))
  · rfl

/-- The checks that still run (R87). -/
def TickParts.loadsLeft (p : TickParts) : Clk := { p.clk with loading := p.clk.loading.filter fun l => !decide (l.endMt ≤ p.mt) }

theorem Dev.loadsOver_parts (s : Dev) (mem : List Host.Cell) : (s.loadsOver mem).tickParts = { s.tickParts with clk := s.tickParts.loadsLeft } :=
  (Dev.framed_foldl (may := lineReg) (Dev.loadEnd mem) _ (fun t l _ => Dev.loadEnd_ticked mem t l) { s with clk := s.tickParts.loadsLeft }).1

theorem Dev.loadsOver_none {s : Dev} (mem : List Host.Cell) (h : ∀ l ∈ s.clk.loading, s.mt < l.endMt) : s.loadsOver mem = s := by
  have hover : (s.clk.loading.filter fun l => decide (l.endMt ≤ s.mt)) = [] :=
    List.filter_eq_nil_iff.2 fun l hl => by simpa using h l hl
  have hleft : (s.clk.loading.filter fun l => !decide (l.endMt ≤ s.mt)) = s.clk.loading :=
    List.filter_eq_self.2 fun l hl => by simpa using h l hl
  rw [Dev.loadsOver, hover, hleft]
  rfl

/-- The self-test, its SHORT measurement done where it is over by now (R468). -/
def TickParts.stimLeft (p : TickParts) : Bist :=
  match p.bist.stimMt with
  | some e => if e ≤ p.mt then { p.bist with stimMt := none } else p.bist
  | none => p.bist

theorem Dev.chanUpd_parts (s : Dev) (c : Nat) (f : Chan → Chan) :
    (s.chanUpd c f).tickParts = s.tickParts ∧ (s.chanUpd c f).plc = s.plc ∧ (s.chanUpd c f).regs = s.regs := by
  unfold Dev.chanUpd
  split
  · exact ⟨rfl, rfl, rfl⟩
  · exact ⟨rfl, rfl, rfl⟩

theorem Dev.blkRestart_parts (s : Dev) (b : Nat) :
    (s.blkRestart b).tickParts = s.tickParts ∧ (s.blkRestart b).plc = s.plc ∧ (s.blkRestart b).regs = s.regs := by
  unfold Dev.blkRestart
  refine foldl_inv (fun t : Dev => t.tickParts = s.tickParts ∧ t.plc = s.plc ∧ t.regs = s.regs) _ (fun t c ht => ?_) _ s ⟨rfl, rfl, rfl⟩
  obtain ⟨htick, hplc, hregs⟩ := t.chanUpd_parts c fun k => k.restart true
  exact ⟨htick.trans ht.1, hplc.trans ht.2.1, hregs.trans ht.2.2⟩

/-- The register that holds the isolation of block `b`. -/
def isoReg (b : Nat) : Nat := if b < 12 then Reg.HEAT_ISO b else Reg.UGRP_ISO

theorem isoReg_kept {b : Nat} (h : b < 13) : lineReg (isoReg b) = false ∧ eventReg (isoReg b) = false ∧ isoReg b ≠ (Fld.BLK_ISOACT b).addr := by
  revert b
  decide

/-- Isolation set anew: its register, ACTIVE, the block's channels. -/
def Dev.isoWritten (s : Dev) (b mode : Nat) (w : Word) : Dev := ((s.wr (isoReg b) w).setB (Fld.BLK_ISOACT b) (mode != 0)).blkRestart b

theorem Dev.isoSet_cases (s : Dev) (b mode amp : Nat) {w : Word} (hw : putBits (putBits 0 11 8 amp) 1 0 mode = w) :
    (w = s.rd (isoReg b) ∧ s.isoSet b mode amp = s) ∨ eventsOnly (s.isoWritten b mode w) (s.isoSet b mode amp) := by
  subst hw
  by_cases hold : putBits (putBits 0 11 8 amp) 1 0 mode = s.rd (isoReg b)
  · exact .inl ⟨hold, if_pos hold⟩
  · generalize hw : putBits (putBits 0 11 8 amp) 1 0 mode = w at hold
    have hnew : s.isoSet b mode amp = if bitsOf (s.rd (isoReg b)) 1 0 = mode then s.isoWritten b mode w else (s.isoWritten b mode w).raise (blkPage b) 5 := by
      subst hw
      exact if_neg hold
    rw [hnew]
    split
    · exact .inr (eventsOnly_refl _)
    · exact .inr (Dev.raise_eventsOnly _ _ _)

theorem Dev.isoWritten_parts (s : Dev) (b mode : Nat) (w : Word) : (s.isoWritten b mode w).tickParts = s.tickParts ∧ (s.isoWritten b mode w).plc = s.plc :=
  have h := Dev.blkRestart_parts ((s.wr (isoReg b) w).setB (Fld.BLK_ISOACT b) (mode != 0)) b
  ⟨h.1, h.2.1⟩

theorem Dev.isoWritten_rd (s : Dev) {b : Nat} (mode : Nat) (w : Word) (h : b < 13) : (s.isoWritten b mode w).rd (isoReg b) = w := by
  rw [Dev.isoWritten, Dev.rd, (Dev.blkRestart_parts _ b).2.2]
  exact (Dev.rd_set_ne (isoReg_kept h).2.2).trans (Regs.rd_wr_same _ _ _)

theorem Dev.isoSet_parts (s : Dev) (b mode amp : Nat) : (s.isoSet b mode amp).tickParts = s.tickParts ∧ (s.isoSet b mode amp).plc = s.plc := by
  rcases s.isoSet_cases b mode amp rfl with ⟨-, hsame⟩ | hev
  · rw [hsame]
    exact ⟨rfl, rfl⟩
  · obtain ⟨htick, hplc⟩ := s.isoWritten_parts b mode (putBits (putBits 0 11 8 amp) 1 0 mode)
    exact ⟨(Dev.tickParts_blind.2 _ _ hev).trans htick, hev.plc.trans hplc⟩

/-- STIM on a block's isolation amplifiers with an amplitude of 1. -/
theorem Dev.isoSet_rd (s : Dev) {b : Nat} (h : b < 13) : (s.isoSet b 2 1).rd (isoReg b) = 0x102 := by
  rcases s.isoSet_cases b 2 1 (w := 0x102) (by decide) with ⟨hold, hsame⟩ | hev
  · rw [hsame]
    exact hold.symm
  · exact (hev.1 _ (isoReg_kept h).2.1).trans (s.isoWritten_rd 2 _ h)

theorem Dev.stimOver_due {s : Dev} {e : Nat} (h : s.bist.stimMt = some e) (he : e ≤ s.mt) :
    s.stimOver = (s.isoSet s.bist.slice 2 1).bistUpd fun (b : Bist) => { b with stimMt := none } := by
  rw [Dev.stimOver, h]
  dsimp only
  rw [if_pos he, Dev.stimRun, h]
  rfl

theorem Dev.stimOver_none {s : Dev} (h : ∀ e, s.bist.stimMt = some e → s.mt < e) : s.stimOver = s := by
  unfold Dev.stimOver
  split
  · next e he => exact if_neg (Nat.not_le.2 (h e he))
  · rfl

theorem Dev.stimOver_parts (s : Dev) : s.stimOver.tickParts = { s.tickParts with bist := s.tickParts.stimLeft } ∧ s.stimOver.plc = s.plc := by
  unfold TickParts.stimLeft
  cases hs : s.bist.stimMt with
  | none =>
    have hstim : s.tickParts.bist.stimMt = none := hs
    rw [hstim, Dev.stimOver_none (by simp [hs])]
    exact ⟨rfl, rfl⟩
  | some e =>
    have hstim : s.tickParts.bist.stimMt = some e := hs
    rw [hstim]
    dsimp only
    split
    · next he =>
      obtain ⟨htick, hplc⟩ := s.isoSet_parts s.bist.slice 2 1
      rw [Dev.stimOver_due hs he]
      generalize s.isoSet s.bist.slice 2 1 = t at htick hplc ⊢
      refine ⟨?_, hplc⟩
      rw [← htick]
      rfl
    · next he =>
      rw [Dev.stimOver_none fun e' h => by rw [← Option.some.inj (hs.symm.trans h)]; exact Nat.not_le.1 he]
      exact ⟨rfl, rfl⟩

/-- A button, released where its press is over by now (R319). -/
def buttonLeft (b : Bool × Nat) (mt : Nat) : Bool × Nat := (b.1 && decide (mt < b.2), b.2)

theorem Dev.buttonsOver_parts (s : Dev) :
    s.buttonsOver.tickParts = { s.tickParts with btn0 := buttonLeft s.tickParts.btn0 s.mt, btn1 := buttonLeft s.tickParts.btn1 s.mt } ∧
      s.buttonsOver.plc = s.plc ∧ s.buttonsOver.regs = s.regs := ⟨rfl, rfl, rfl⟩

theorem button_stays {b : Bool} {mt e : Nat} (h : b = true → mt < e) : (b && decide (mt < e)) = b := by
  cases b with
  | false => rfl
  | true => exact decide_eq_true (h rfl)

theorem Dev.buttonsOver_none {s : Dev} (h0 : s.pins.btn0 = true → s.mt < s.pins.btn0End) (h1 : s.pins.btn1 = true → s.mt < s.pins.btn1End) : s.buttonsOver = s := by
  rw [Dev.buttonsOver, button_stays h0, button_stays h1]

/-- What a floor fuse leaves alone: everything of the tick but the fuses and the time of the next one. -/
def Dev.besideFloor (s : Dev) : TickParts × Plc := ({ s.tickParts with otp := {}, floorGo := none }, s.plc)

theorem Dev.besideFloor_blind : Dev.blind Dev.besideFloor :=
  ⟨fun _ _ => rfl, fun s t h => by simp only [Dev.besideFloor, Dev.tickParts_blind.2 s t h, h.plc]⟩

/-- A floor fuse is blown (R454). -/
theorem Dev.floorBlow_framed (s : Dev) : Dev.framed Dev.besideFloor lineReg s s.floorBlow :=
  Dev.framed.trans (t := { s with otp := { s.otp with floor := s.otp.floor + 1 } }) (Dev.framed_of_regs rfl rfl) (Dev.framed_raiseJ Dev.besideFloor_blind _ _ _ _ _ _)

theorem Dev.floorBlow_floor (s : Dev) : s.floorBlow.otp.floor = s.otp.floor + 1 := by
  rw [Dev.floorBlow, (Dev.raiseJ_eventsOnly _ _ _ _ _ _).otp]

theorem Dev.floorOver_framed (s : Dev) : Dev.framed Dev.besideFloor lineReg s s.floorOver := by
  unfold Dev.floorOver
  split
  · exact Dev.framed_refl s
  · refine Dev.framed_ite _ (fun _ => Dev.framed_refl s) fun _ => s.floorBlow_framed.trans ?_
    generalize s.floorBlow = t
    refine Dev.framed_ite _ (fun _ => Dev.framed_of_regs rfl rfl) fun _ => ?_
    exact Dev.framed.trans (t := { t with upd := { t.upd with floorGo := none } }) (Dev.framed_of_regs rfl rfl) (Dev.framed_set Dev.besideFloor_blind _ _ _ (by decide))

theorem Dev.floorOver_blows {s : Dev} {e : Nat} (h : s.upd.floorGo = some e) (he : e ≤ s.mt) : s.floorOver.otp.floor = s.otp.floor + 1 := by
  rw [← s.floorBlow_floor, Dev.floorOver, h]
  dsimp only
  rw [if_neg (Nat.not_lt.2 he)]
  generalize s.floorBlow = t
  split
  · rfl
  · rw [Dev.set_otp]

theorem Dev.floorOver_none {s : Dev} (h : ∀ e, s.upd.floorGo = some e → s.mt < e) : s.floorOver = s := by
  unfold Dev.floorOver
  split
  · rfl
  · next e he => exact if_pos (h e he)

/-! ##### The tick as a whole -/

/-- What is due at this instant ends, but for the frames that arrive. -/
def Dev.dueOver (s : Dev) (mem : List Host.Cell) : Dev := ((s.pauseOver mem).loadsOver mem).stimOver.buttonsOver.floorOver.planDue.plcLevels

/-- The device as the floor's fuse finds it. -/
def Dev.beforeFloor (s : Dev) (mem : List Host.Cell) : Dev := ((s.pauseOver mem).loadsOver mem).stimOver.buttonsOver

/-- What is left of a tick's parts, the floor's fuses aside. -/
def TickParts.left (p : TickParts) : TickParts :=
  { p with pause := p.pauseLeft, clk := p.loadsLeft, bist := p.stimLeft, btn0 := buttonLeft p.btn0 p.mt, btn1 := buttonLeft p.btn1 p.mt }

theorem Dev.beforeFloor_parts (s : Dev) (mem : List Host.Cell) : (s.beforeFloor mem).tickParts = s.tickParts.left := by
  have hpause := (s.pauseOver_parts mem).1
  have hloads := (s.pauseOver mem).loadsOver_parts mem
  rw [hpause] at hloads
  have hstim := ((s.pauseOver mem).loadsOver mem).stimOver_parts.1
  rw [hloads] at hstim
  have hmt : ((s.pauseOver mem).loadsOver mem).stimOver.mt = s.mt := congrArg TickParts.mt hstim
  rw [Dev.beforeFloor, (Dev.buttonsOver_parts _).1, hmt, hstim]
  rfl

theorem Dev.plcLevels_ticked (s : Dev) : s.ticked s.plcLevels := Dev.ticked_of_regs rfl rfl

theorem Dev.dueOver_ticked (s : Dev) (mem : List Host.Cell) : (s.beforeFloor mem).floorOver.ticked (s.dueOver mem) :=
  (Dev.planDue_ticked _).trans (Dev.plcLevels_ticked _)

theorem Dev.dueOver_parts (s : Dev) (mem : List Host.Cell) :
    { (s.dueOver mem).tickParts with otp := {}, floorGo := none } = { s.tickParts.left with otp := {}, floorGo := none } := by
  rw [(s.dueOver_ticked mem).1, ← s.beforeFloor_parts mem]
  exact congrArg Prod.fst (Dev.floorOver_framed _).1

theorem Dev.dueOver_floor (s : Dev) (mem : List Host.Cell) {e : Nat} (h : s.upd.floorGo = some e) (he : e ≤ s.mt) :
    (s.dueOver mem).otp.floor = s.otp.floor + 1 := by
  have hotp : (s.dueOver mem).otp = (s.beforeFloor mem).floorOver.otp := congrArg TickParts.otp (s.dueOver_ticked mem).1
  have hbefore := s.beforeFloor_parts mem
  generalize s.beforeFloor mem = t at hotp hbefore
  have hgo : t.upd.floorGo = s.upd.floorGo := congrArg TickParts.floorGo hbefore
  have hmt : t.mt = s.mt := congrArg TickParts.mt hbefore
  have hwas : t.otp = s.otp := congrArg TickParts.otp hbefore
  rw [hotp, Dev.floorOver_blows (hgo.trans h) (by rw [hmt]; exact he), hwas]

/-- Once the SHORT measurement is over its block is in STIM (R468). -/
theorem Dev.dueOver_stim (s : Dev) (mem : List Host.Cell) {e : Nat} (h : s.bist.stimMt = some e) (he : e ≤ s.mt) (hb : s.bist.slice < 13) :
    (s.dueOver mem).rd (isoReg s.bist.slice) = 0x102 := by
  obtain ⟨hkept, hevent, -⟩ := isoReg_kept hb
  have hafter : (s.dueOver mem).rd (isoReg s.bist.slice) = (s.beforeFloor mem).rd (isoReg s.bist.slice) :=
    ((s.dueOver_ticked mem).2 _ hkept hevent).trans ((Dev.floorOver_framed _).2 _ hkept hevent)
  have hloads := (s.pauseOver mem).loadsOver_parts mem
  rw [(s.pauseOver_parts mem).1] at hloads
  rw [hafter, Dev.beforeFloor]
  generalize (s.pauseOver mem).loadsOver mem = t at hloads ⊢
  have hbist : t.bist = s.bist := congrArg TickParts.bist hloads
  have hmt : t.mt = s.mt := congrArg TickParts.mt hloads
  have hstim : t.stimOver = _ := Dev.stimOver_due (e := e) (by rw [hbist]; exact h) (by rw [hmt]; exact he)
  have hiso := t.isoSet_rd hb
  rw [← hbist] at hiso ⊢
  rw [Dev.rd, (Dev.buttonsOver_parts _).2.2, hstim]
  exact hiso

theorem Dev.dueOver_plan (s : Dev) (mem : List Host.Cell) {p : List (Nat × Nat) × Nat} (h : s.plc.planNext = some p) (ht : s.plc.txTo ≤ s.mt)
    (hloads : ∀ l ∈ s.clk.loading, s.mt < l.endMt) : (s.dueOver mem).plc.planNext = none ∧ (s.dueOver mem).plc.plan = some p.1 := by
  obtain ⟨hpause, hpauseplc⟩ := s.pauseOver_parts mem
  have hclk : (s.pauseOver mem).clk = s.clk := congrArg TickParts.clk hpause
  have hmt1 : (s.pauseOver mem).mt = s.mt := congrArg TickParts.mt hpause
  have hnone := Dev.loadsOver_none (s := s.pauseOver mem) mem (by rw [hclk, hmt1]; exact hloads)
  have hbefore : (s.beforeFloor mem).plc = s.plc := by
    rw [Dev.beforeFloor, (Dev.buttonsOver_parts _).2.1, (Dev.stimOver_parts _).2, hnone, hpauseplc]
  have hparts := s.beforeFloor_parts mem
  have hplan : (s.dueOver mem).plc = ((s.beforeFloor mem).floorOver.planDue).plc := rfl
  rw [hplan]
  have hfloor := (s.beforeFloor mem).floorOver_framed.1
  generalize (s.beforeFloor mem).floorOver = t at hfloor ⊢
  have hplc : t.plc = s.plc := (congrArg Prod.snd hfloor).trans hbefore
  have hmt : t.mt = s.mt := (congrArg (fun q => q.1.mt) hfloor).trans (congrArg TickParts.mt hparts)
  exact Dev.planDue_applies (by rw [hplc]; exact h) (by rw [hplc, hmt]; exact ht)

theorem Dev.dueOver_levelled (s : Dev) (mem : List Host.Cell) : (s.dueOver mem).levelled := Dev.plcLevels_levelled _

/-- Nothing is due: only PLDEN and the pairs driven take their levels. -/
theorem Dev.dueOver_none {s : Dev} (mem : List Host.Cell) (hpause : ∀ e, s.host.ethPause = some e → s.mt < e) (hloads : ∀ l ∈ s.clk.loading, s.mt < l.endMt)
    (hstim : ∀ e, s.bist.stimMt = some e → s.mt < e) (h0 : s.pins.btn0 = true → s.mt < s.pins.btn0End) (h1 : s.pins.btn1 = true → s.mt < s.pins.btn1End)
    (hfloor : ∀ e, s.upd.floorGo = some e → s.mt < e) (hplan : s.plc.planNext = none ∨ s.mt < s.plc.txTo) : s.dueOver mem = s.plcLevels := by
  rw [Dev.dueOver, Dev.pauseOver_none mem hpause, Dev.loadsOver_none mem hloads, Dev.stimOver_none hstim, Dev.buttonsOver_none h0 h1, Dev.floorOver_none hfloor,
    Dev.planDue_waits hplan]

theorem Dev.framesOver_none {s : Dev} (mem : List Host.Cell) (h : ∀ a ∈ s.plc.arriving, s.mt < a.endMt) : s.framesOver mem = (s, mem) := by
  have hover : (s.plc.arriving.filter fun a => decide (a.endMt ≤ s.mt)) = [] := List.filter_eq_nil_iff.2 fun a ha => by simpa using h a ha
  have hleft : (s.plc.arriving.filter fun a => !decide (a.endMt ≤ s.mt)) = s.plc.arriving := List.filter_eq_self.2 fun a ha => by simpa using h a ha
  rw [Dev.framesOver_eq, hover, Dev.arrivalsLeft, hleft]
  rfl

/-- No frame whose end has come is left (R389). -/
theorem Dev.framesOver_arriving (s : Dev) (mem : List Host.Cell) : ∀ a ∈ (s.framesOver mem).1.plc.arriving, s.mt < a.endMt := by
  intro a ha
  have hends : ((s.framesOver mem).1.plc.arriving.map fun a => a.endMt) = s.arrivalsLeft.plc.arriving.map fun a => a.endMt :=
    congrArg LineParts.ends (s.framesOver_linked mem).1.1
  have hmem : a.endMt ∈ s.arrivalsLeft.plc.arriving.map fun a => a.endMt := hends ▸ List.mem_map_of_mem ha
  obtain ⟨b, hb, hend⟩ := List.mem_map.1 hmem
  have hover := (List.mem_filter.1 hb).2
  simp only [Bool.not_eq_true', decide_eq_false_iff_not, Nat.not_le] at hover
  rw [← hend]
  exact hover

/-- The frames' ends leave alone what a tick ends, the plan, and the level of PLDEN. -/
theorem Dev.framesOver_parts (s : Dev) (mem : List Host.Cell) :
    (s.framesOver mem).1.tickParts = s.tickParts ∧ (s.framesOver mem).1.plc.plan = s.plc.plan ∧ (s.framesOver mem).1.plc.planNext = s.plc.planNext := by
  have hparts := (s.framesOver_linked mem).1.1
  generalize (s.framesOver mem).1 = t at hparts ⊢
  exact ⟨congrArg LineParts.tick hparts, congrArg LineParts.plan hparts, congrArg LineParts.planNext hparts⟩

theorem Dev.framesOver_levelled {s : Dev} (mem : List Host.Cell) (h : s.levelled) : (s.framesOver mem).1.levelled := (s.framesOver_linked mem).2 h

theorem Dev.framesOver_rd (s : Dev) (mem : List Host.Cell) {a : Nat} (h : lineReg a = false) (he : eventReg a = false) : (s.framesOver mem).1.rd a = s.rd a :=
  (s.framesOver_linked mem).1.2 a h he

end Sys2Proof.Machine

/-! ### The idle step (log 1) -/

namespace Sys2Proof.Certificates

open Sys2Proof Sys2Proof.Machine Sys2Proof.Safety

/-- The device after all that is due at its instant has ended. -/
def tickDone (d : Dev) (mem : List Host.Cell) : Dev := ((d.dueOver mem).framesOver mem).1

theorem tickDone_parts (d : Dev) (mem : List Host.Cell) : { (tickDone d mem).tickParts with otp := {}, floorGo := none } = { d.tickParts.left with otp := {}, floorGo := none } := by
  rw [tickDone, (Dev.framesOver_parts _ mem).1]
  exact d.dueOver_parts mem

theorem tickDone_mt (d : Dev) (mem : List Host.Cell) : (tickDone d mem).mt = d.mt := congrArg TickParts.mt (tickDone_parts d mem)

theorem tickDone_pause (d : Dev) (mem : List Host.Cell) {e : Nat} (h : d.host.ethPause = some e) (he : e ≤ d.mt) :
    (tickDone d mem).host.ethPause = none ∧ (tickDone d mem).host.ethHeld = false := by
  have hleft : d.tickParts.left.pause = (none, false) := by
    have hpause : d.tickParts.pause.1 = some e := h
    simp only [TickParts.left, TickParts.pauseLeft, hpause]
    exact if_pos he
  have hpause := (congrArg TickParts.pause (tickDone_parts d mem)).trans hleft
  exact ⟨congrArg Prod.fst hpause, congrArg Prod.snd hpause⟩

theorem tickDone_loading (d : Dev) (mem : List Host.Cell) : (tickDone d mem).clk.loading = d.clk.loading.filter fun l => !decide (l.endMt ≤ d.mt) :=
  congrArg (fun p => p.clk.loading) (tickDone_parts d mem)

theorem tickDone_stim (d : Dev) (mem : List Host.Cell) {e : Nat} (h : d.bist.stimMt = some e) (he : e ≤ d.mt) (hb : d.bist.slice < 13) :
    (tickDone d mem).bist.stimMt = none ∧ (tickDone d mem).rd (isoReg d.bist.slice) = 0x102 := by
  have hleft : d.tickParts.left.bist.stimMt = none := by
    have hstim : d.tickParts.bist.stimMt = some e := h
    simp only [TickParts.left, TickParts.stimLeft, hstim]
    rw [if_pos (show e ≤ d.tickParts.mt from he)]
  obtain ⟨hkept, hevent, -⟩ := isoReg_kept hb
  exact ⟨(congrArg (fun p => p.bist.stimMt) (tickDone_parts d mem)).trans hleft, (Dev.framesOver_rd _ mem hkept hevent).trans (d.dueOver_stim mem h he hb)⟩

theorem tickDone_buttons (d : Dev) (mem : List Host.Cell) :
    (tickDone d mem).pins.btn0 = (d.pins.btn0 && decide (d.mt < d.pins.btn0End)) ∧ (tickDone d mem).pins.btn1 = (d.pins.btn1 && decide (d.mt < d.pins.btn1End)) :=
  ⟨congrArg (fun p => p.btn0.1) (tickDone_parts d mem), congrArg (fun p => p.btn1.1) (tickDone_parts d mem)⟩

theorem tickDone_floor (d : Dev) (mem : List Host.Cell) {e : Nat} (h : d.upd.floorGo = some e) (he : e ≤ d.mt) : (tickDone d mem).otp.floor = d.otp.floor + 1 :=
  (congrArg (fun p => p.otp.floor) ((d.dueOver mem).framesOver_parts mem).1).trans (d.dueOver_floor mem h he)

theorem tickDone_plan (d : Dev) (mem : List Host.Cell) {p : List (Nat × Nat) × Nat} (h : d.plc.planNext = some p) (ht : d.plc.txTo ≤ d.mt)
    (hloads : ∀ l ∈ d.clk.loading, d.mt < l.endMt) : (tickDone d mem).plc.planNext = none ∧ (tickDone d mem).plc.plan = some p.1 := by
  obtain ⟨-, hplan, hnext⟩ := (d.dueOver mem).framesOver_parts mem
  obtain ⟨hdone, hforce⟩ := d.dueOver_plan mem h ht hloads
  exact ⟨hnext.trans hdone, hplan.trans hforce⟩

theorem tickDone_plden (d : Dev) (mem : List Host.Cell) : (tickDone d mem).pins.plden = (tickDone d mem).pldenHigh :=
  Dev.framesOver_levelled mem (d.dueOver_levelled mem)

theorem tickDone_arriving (d : Dev) (mem : List Host.Cell) : ∀ a ∈ (tickDone d mem).plc.arriving, d.mt < a.endMt := by
  have hmt : (d.dueOver mem).mt = d.mt := congrArg TickParts.mt (d.dueOver_parts mem)
  rw [← hmt]
  exact (d.dueOver mem).framesOver_arriving mem

/-! #### The idle step (log 1) -/

/-- The instant after an idle step. -/
def idleMt (s : State) : Nat := if s.mainPower = true ∧ s.clk.xtal = true then (s.mt + 1) % 2 ^ 64 else s.mt

/-- The device at that instant, before anything ends. -/
def idleDev (s : State) : Dev := { s.toDev with mt := idleMt s }

theorem idle_eq (s : State) : s.idle = { s with toDev := idleDev s } := by
  unfold State.idle idleDev idleMt
  by_cases hrun : s.mainPower = true ∧ s.clk.xtal = true
  · rw [if_pos hrun, hrun.1, hrun.2]
    rfl
  · have hoff : (s.mainPower && s.clk.xtal) = false := Bool.eq_false_iff.2 fun h => hrun (by simpa using h)
    rw [if_neg hrun, hoff]
    rfl

theorem idleStep_off (s : State) (h : s.mainOn = false) : s.idleStep = { s with toDev := idleDev s } := by
  have hoff : s.idle.mainOn = false := by rw [idle_eq]; exact h
  rw [State.idleStep, hoff]
  exact idle_eq s

/-- With the main domain up the tick ends what is due. -/
theorem idleStep_on (s : State) (h : s.mainOn = true) :
    s.idleStep = { s with toDev := tickDone (idleDev s) s.mem
                          mem := (((idleDev s).dueOver s.mem).framesOver s.mem).2 } := by
  have hon : s.idle.mainOn = true := by rw [idle_eq]; exact h
  rw [State.idleStep, hon, idle_eq]
  rfl

theorem idleStep_mt (s : State) : s.idleStep.mt = idleMt s := by
  cases h : s.mainOn with
  | false => rw [idleStep_off s h]; rfl
  | true => rw [idleStep_on s h]; exact tickDone_mt _ _

theorem idleStep_pending (s : State) : s.idleStep.pending = s.pending := by
  cases h : s.mainOn with
  | false => rw [idleStep_off s h]
  | true => rw [idleStep_on s h]

/-- Where nothing is due the line's pins take their levels, and nothing else changes. -/
theorem idleStep_nothingDue (s : State) (h : s.mainOn = true) (hpause : ∀ e, s.host.ethPause = some e → idleMt s < e)
    (hloads : ∀ l ∈ s.clk.loading, idleMt s < l.endMt) (hstim : ∀ e, s.bist.stimMt = some e → idleMt s < e)
    (h0 : s.pins.btn0 = true → idleMt s < s.pins.btn0End) (h1 : s.pins.btn1 = true → idleMt s < s.pins.btn1End)
    (hfloor : ∀ e, s.upd.floorGo = some e → idleMt s < e) (hplan : s.plc.planNext = none ∨ idleMt s < s.plc.txTo)
    (hframes : ∀ a ∈ s.plc.arriving, idleMt s < a.endMt) :
    s.idleStep = { s with toDev := (idleDev s).plcLevels } := by
  have hdue : (idleDev s).dueOver s.mem = (idleDev s).plcLevels :=
    Dev.dueOver_none s.mem hpause hloads hstim h0 h1 hfloor hplan
  have hline : (idleDev s).plcLevels.framesOver s.mem = ((idleDev s).plcLevels, s.mem) :=
    Dev.framesOver_none s.mem hframes
  rw [idleStep_on s h, tickDone, hdue, hline]

/-- Settles O39: each stage of the tick is known by what it does to the parts that end at a tick, and the frames' ends leave all of them alone. -/
theorem idleStepTicks : Obligations.IdleStepTicks := by
  unfold Obligations.IdleStepTicks
  intro s hp
  refine ⟨s.idleStep, by rw [step, hp], (idleStep_pending s).trans hp, idleStep_mt s, fun hoff => ?_, fun hon => ?_⟩
  · rw [idleStep_mt]
    exact idleStep_off s hoff
  · rw [idleStep_mt]
    refine ⟨idleStep_nothingDue s hon, ?_⟩
    rw [idleStep_on s hon]
    obtain ⟨hbtn0, hbtn1⟩ := tickDone_buttons (idleDev s) s.mem
    exact ⟨tickDone_plden (idleDev s) s.mem, fun _ => tickDone_pause (idleDev s) s.mem, tickDone_loading (idleDev s) s.mem, fun _ => tickDone_stim (idleDev s) s.mem,
      hbtn0, hbtn1, fun _ => tickDone_floor (idleDev s) s.mem, fun _ => tickDone_plan (idleDev s) s.mem, tickDone_arriving (idleDev s) s.mem⟩

end Sys2Proof.Certificates

/-! ### What reads leave of the self-test (R65, R80, R421) -/

namespace Sys2Proof.Machine

open Sys2Proof.Safety

theorem Dev.foldl_bist {α : Type} (f : Dev → α → Dev) (h : ∀ (t : Dev) (x : α), (f t x).bist = t.bist) (l : List α) (s : Dev) : (l.foldl f s).bist = s.bist :=
  foldl_keep Dev.bist f h l s

@[simp] theorem Dev.busErr_bist (s : Dev) (m a kind : Nat) (write : Bool) : (s.busErr m a kind write).bist = s.bist := by
  rw [Dev.busErr, Dev.raise_bist]
  split
  · rw [Dev.set_bist]
  · simp only [Dev.setB_bist, Dev.set_bist]

@[simp] theorem Dev.answer_bist (s : Dev) (m a : Nat) (x : Answer) : (s.answer m a x).bist = s.bist := rfl
@[simp] theorem Dev.latch_bist (s : Dev) (m a : Nat) (v : Word) : (s.latch m a v).bist = s.bist := rfl

@[simp] theorem Dev.discardOne_bist (s : Dev) (w : Posted) : (s.discardOne w).bist = s.bist := by rw [Dev.discardOne, Dev.busErr_bist, Dev.busUpd_bist]

@[simp] theorem Dev.discardAll_bist (s : Dev) (p : Posted → Bool) : (s.discardAll p).bist = s.bist := Dev.foldl_bist _ Dev.discardOne_bist _ _

/-! #### Register reads -/

@[simp] theorem Dev.unlatch_bist (s : Dev) (m a : Nat) : (s.unlatch m a).1.bist = s.bist := by
  unfold Dev.unlatch
  split <;> rfl

@[simp] theorem Dev.fenceRead_bist (s : Dev) (m : Nat) : (s.fenceRead m).1.bist = s.bist := s.discardAll_bist _

@[simp] theorem Dev.pairRead_bist (s : Dev) (m a : Nat) : (s.pairRead m a).1.bist = s.bist :=
  Dev.pairRead_cases (fun r => r.1.bist = s.bist) s m a (fun h => s.latch_bist m h _) (s.unlatch_bist m a)

@[simp] theorem Dev.linSync_bist (s : Dev) : s.linSync.bist = s.bist := by
  obtain ⟨-, heq, -⟩ := s.linRun_spec s.linNow
  rw [Dev.linSync, heq]

@[simp] theorem Dev.readTimeLo_bist (s : Dev) (m : Nat) : (s.readTimeLo m).bist = s.bist := rfl
@[simp] theorem Dev.readTimeHi_bist (s : Dev) (m : Nat) : (s.readTimeHi m).bist = s.bist := rfl

@[simp] theorem Dev.nonceDraw_bist (s : Dev) : s.nonceDraw.bist = s.bist := Dev.foldl_bist _ (fun t _ => t.set_bist _ _) _ _

@[simp] theorem Dev.regRead_bist (s : Dev) (m a : Nat) : (s.regRead m a).1.bist = s.bist := by
  unfold Dev.regRead
  split_ifs
  · exact s.fenceRead_bist m
  · exact s.latch_bist _ _ _
  · exact (Dev.readTimeLo_bist _ m).trans s.linSync_bist
  · exact s.readTimeHi_bist m
  · exact s.nonceDraw_bist
  · rfl
  · rfl
  · exact s.pairRead_bist m a

@[simp] theorem Dev.pageRead_bist (s : Dev) (m a : Nat) : (s.pageRead m a).1.bist = s.bist := by
  simp only [Dev.pageRead]
  split_ifs
  · exact s.busErr_bist _ _ _ _
  · rfl
  · rw [Dev.busErr_bist, Dev.discardAll_bist]
  · rw [Dev.regRead_bist, Dev.discardAll_bist]

/-! #### Memory reads -/

@[simp] theorem Dev.raiseMark_bist (s : Dev) (p no : Nat) (inj : Bool) : (s.raiseMark p no inj).bist = s.bist := s.raiseInj_bist _ _ _ _

@[simp] theorem Dev.eccLog_bist (s : Dev) (p addr master : Nat) (ue : Bool) : (s.eccLog p addr master ue).bist = s.bist := by
  unfold Dev.eccLog
  split <;> simp only [Dev.set_bist, Dev.setB_bist]

@[simp] theorem Dev.eccCorrect_bist (s : Dev) (p addr master : Nat) (inj : Bool) : (s.eccCorrect p addr master inj).bist = s.bist := by
  unfold Dev.eccCorrect
  dsimp only
  split
  · simp only [Dev.raiseMark_bist, Dev.eccLog_bist, Dev.bump_bist]
  · simp only [Dev.raiseMark_bist, Dev.bump_bist]

@[simp] theorem Dev.eccTransient_bist (s : Dev) (p : Nat) (inj : Bool) : (s.eccTransient p inj).bist = s.bist := by
  rw [Dev.eccTransient, Dev.raiseMark_bist, Dev.bump_bist]

@[simp] theorem Dev.eccLasting_bist (s : Dev) (p addr master : Nat) (inj : Bool) : (s.eccLasting p addr master inj).bist = s.bist := by
  rw [Dev.eccLasting, Dev.raiseMark_bist, Dev.eccLog_bist, Dev.bump_bist]

@[simp] theorem Dev.eccRead_bist (s : Dev) (p addr master : Nat) : (s.eccRead p addr master).1.bist = s.bist := by
  have forgotten : (if p = Pg.FLASH then s else { s with bus := { s.bus with corrected := s.bus.corrected.filter fun x => x != (p, addr) } }).bist = s.bist := by
    split <;> rfl
  unfold Dev.eccRead
  split
  · rw [Dev.eccCorrect_bist, Dev.injUse_bist]
  · revert forgotten
    generalize (if p = Pg.FLASH then s else { s with bus := { s.bus with corrected := s.bus.corrected.filter fun x => x != (p, addr) } }) = s0
    intro forgotten
    dsimp only
    split_ifs <;> simp only [Dev.eccLasting_bist, Dev.eccTransient_bist, Dev.injUse_bist, forgotten]

@[simp] theorem Dev.memRead_bist (mem : List Host.Cell) (s : Dev) (m a : Nat) : (s.memRead mem m a).1.bist = s.bist := by
  unfold Dev.memRead
  split
  · exact s.busErr_bist _ _ _ _
  · split
    · exact s.busErr_bist _ _ _ _
    · split
      · rfl
      · dsimp only
        split <;> simp only [Dev.busErr_bist, Dev.eccRead_bist]

@[simp] theorem Dev.busRead_bist (mem : List Host.Cell) (s : Dev) (m a : Nat) : (s.busRead mem m a).1.bist = s.bist := by
  unfold Dev.busRead
  split_ifs
  · exact s.busErr_bist _ _ _ _
  · exact s.pageRead_bist m a
  · exact Dev.memRead_bist mem s m a

/-! #### The host's read, and the reads that a slice held -/

@[simp] theorem Dev.spiMark_bist (s : Dev) (n : Nat) : (s.spiMark n).bist = s.bist := Dev.set_bist _ _ _
@[simp] theorem Dev.spiEnd_bist (s : Dev) : s.spiEnd.bist = s.bist := s.count_bist _

@[simp] theorem Dev.spiReply_bist (g : Dev × List Word × Nat) : (Dev.spiReply g).bist = g.1.bist := by
  unfold Dev.spiReply
  dsimp only
  split_ifs <;> simp only [Dev.spiEnd_bist, Dev.spiMark_bist]

theorem Dev.spiGather_bist (mem : List Host.Cell) (n a : Nat) (l : List Word) (s : Dev) : (Dev.spiGather mem n a l s).1.bist = s.bist := by
  induction n generalizing a l s with
  | zero => rfl
  | succ n ih =>
    rw [Dev.spiGather_succ, ← Dev.busRead_bist mem s 16 a]
    generalize s.busRead mem 16 a = r
    obtain ⟨t, answer⟩ := r
    cases answer with
    | word w => exact ih _ _ _
    | stalled | timeout | decode | refused => rfl

@[simp] theorem Dev.spiGo_bist (mem : List Host.Cell) (s : Dev) : (Dev.spiGo mem s).bist = s.bist := by
  unfold Dev.spiGo
  split
  · rfl
  · split
    · rfl
    · dsimp only
      split
      · rw [Dev.spiReply_bist, Dev.spiGather_bist]
      · rw [Dev.spiReply_bist]

@[simp] theorem Dev.stalledEnd_bist (s : Dev) : s.stalledEnd.bist = s.bist :=
  Dev.foldl_bist _ (fun t r => by rw [Dev.answer_bist, Dev.pageRead_bist]) _ _

end Sys2Proof.Machine

/-! ### Commands that act on the device alone (R65, R66) -/

namespace Sys2Proof.Machine

open Sys2Proof.Safety

theorem updAct_keepsMem (s : State) (f : List Host.Cell → Dev → Dev × List Host.Cell) (h : ∀ d, (f s.mem d).2 = s.mem) : keepsMem (updAct s f) s := by
  refine ⟨if s.mainOn then (f s.mem s.toDev).1 else s.toDev, ?_⟩
  unfold updAct
  split
  · exact congrArg (fun mem => Host.Outcome.next { s with toDev := (f s.mem s.toDev).1, mem := mem }) (h s.toDev)
  · rfl

/-- The condition is a variable here: at `updWr`'s own the kernel would compute a page. -/
theorem updAct_ite_keepsMem (s : State) (c : Dev → Bool) (f : List Host.Cell → Dev → Dev × List Host.Cell) (g : Dev → Dev) (h : ∀ d, (f s.mem d).2 = s.mem) :
    keepsMem (updAct s fun mem d => if c d then f mem d else (g d, mem)) s := by
  refine updAct_keepsMem s _ fun d => ?_
  split
  · exact h d
  · rfl

theorem updWr_keepsMem (m a : Nat) (v : Word) (s : State) (f : List Host.Cell → Dev → Dev × List Host.Cell) (h : ∀ d, (f s.mem d).2 = s.mem) :
    keepsMem (updWr m a v s f) s :=
  updAct_ite_keepsMem s (fun d => d.islRun (pageOf a)) f (fun d => d.landing m a v id) h

theorem spiAct_keepsMem (s : State) (f : List Host.Cell → Dev → Dev) : keepsMem (spiAct s fun t => { t with toDev := f t.mem t.toDev }) s := by
  refine ⟨if s.mainOn then f s.mem s.toDev else s.toDev, ?_⟩
  unfold spiAct
  split <;> rfl

theorem execUartDataWrite_keepsMem (m u : Nat) (v : Word) (s : State) : keepsMem (execUartDataWrite m u v s) s := by
  unfold execUartDataWrite
  split
  · exact wrAct_keepsMem _ _ _ s _
  · exact ⟨s.toDev, rfl⟩

/-- While a slice runs no cooling time is over. -/
theorem Dev.coolingOver_running {s : Dev} (h : s.bist.cooling = false) : s.coolingOver = s := by
  rw [Dev.coolingOver, h, Bool.and_false]
  rfl

theorem Dev.sliceOver_self (s : Dev) : s.sliceOver s = s := by
  unfold Dev.sliceOver
  rw [if_neg]
  cases s.bist.running <;> simp

theorem Dev.testOver_self (s : Dev) : s.testOver s = s := by
  unfold Dev.testOver
  rw [if_neg]
  cases s.bist.running <;> simp

/-- The capture memory falls at the end of slice 14 alone, and the end of a cooling time ends no slice. -/
theorem execCoolingTimeout_keepsMem (s : State) : keepsMem (execCoolingTimeout s) s := by
  unfold execCoolingTimeout testAct
  split
  · dsimp only
    split
    · next _ h =>
      obtain ⟨-, hcool, hslice, hleft⟩ := h
      rw [Dev.coolingOver_running hcool, Dev.sliceOver_self, Dev.testOver_self, Dev.spiGo_bist, Dev.stalledEnd_bist] at hleft
      exact absurd hslice hleft
    · exact ⟨_, rfl⟩
  · exact ⟨s.toDev, rfl⟩

/-- A command outside `stores` acts on the device alone. -/
theorem exec_keepsMem (c : Instr) (s : State) (h : stores c = false) : keepsMem (exec c s) s := by
  cases c <;> dsimp only [exec]
  case vsupRiseStart | overtempRelease | internalResetRelease | registerWrite | flashOpDone | debugWrite | spiWrite | spiBurstWrite | spiAbort | dataFrame | blockMsg
    | chainFrameReceive | ethTxDone | ethFrameReceive | sliceEnd | sliceTimeout => cases h
  case offerMsg | needMsg | haveMsg | needRetryTimer => exact updAct_keepsMem s _ fun _ => rfl
  case updActivate | updDiscard | updConfirm => exact updWr_keepsMem _ _ _ s _ fun _ => rfl
  case spiRead | spiBurstRead => exact spiAct_keepsMem s fun mem d => Dev.spiRead mem d _ _ _ _
  case spiStatus => exact spiAct_keepsMem s fun _ d => d.spiStatus
  case uartDataWrite => exact execUartDataWrite_keepsMem _ _ _ s
  case coolingTimeout => exact execCoolingTimeout_keepsMem s
  all_goals exact act_keepsMem s _

end Sys2Proof.Machine

/-! ### The canonical form of memory, and the storing commands (R65, R66) -/

namespace Sys2Proof.Machine

open Sys2Proof.Safety

/-! #### What is stored -/

theorem memWipe_wf {mem : List Host.Cell} (all : Bool) (h : Memory.wf mem = true) : Memory.wf (memWipe mem all) = true := Store.filter_wf _ h
theorem dramWipe_wf {mem : List Host.Cell} (h : Memory.wf mem = true) : Memory.wf (dramWipe mem) = true := Store.filter_wf _ h

theorem memLoad_wf {mem : List Host.Cell} (k : Nat) (windows : Nat → List Nat) (h : Memory.wf mem = true) : Memory.wf (memLoad mem k windows) = true := by
  unfold memLoad
  split
  · exact h
  · exact foldl_inv (fun m => Memory.wf m = true) _ (fun _ _ hm => foldl_inv (fun m => Memory.wf m = true) _ (fun _ _ => Memory.writeAll_wf _) _ _ hm) _ _ h

theorem ethReturn_wf {mem : List Host.Cell} (ring i : Nat) (w : Word) (err : Bool) (len : Nat) (h : Memory.wf mem = true) :
    Memory.wf (ethReturn mem ring i w err len) = true := Memory.writeAll_wf _ h

theorem Dev.blockOther_wf (s : Dev) {mem : List Host.Cell} (r : Recep) (src i : Nat) (data : List Byte) (h : Memory.wf mem = true) :
    Memory.wf (s.blockOther mem r src i data).2 = true := by
  unfold Dev.blockOther
  dsimp only
  split
  · exact h
  · exact Memory.writeAll_wf _ h

theorem Dev.blockIn_wf (s : Dev) {mem : List Host.Cell} (src : Nat) (body : List Byte) (h : Memory.wf mem = true) : Memory.wf (s.blockIn mem src body).2 = true := by
  unfold Dev.blockIn
  dsimp only
  split
  · exact h
  · split_ifs
    · exact h
    · exact Memory.writeAll_wf _ h
    · exact h
    · exact h
    · exact s.blockOther_wf _ _ _ _ h

theorem Dev.updateIn_wf (s : Dev) {mem : List Host.Cell} (src : Nat) (body : List Byte) (h : Memory.wf mem = true) : Memory.wf (s.updateIn mem src body).2 = true := by
  unfold Dev.updateIn
  split
  · exact h
  · exact h
  · exact s.blockIn_wf src body h
  · exact h
  · exact h

theorem Dev.arrivedServed_wf (r : Dev × List Host.Cell) (a : Arriving) (h : Memory.wf r.2 = true) : Memory.wf (Dev.arrivedServed r a).2 = true := by
  unfold Dev.arrivedServed
  split
  · exact Dev.updateIn_wf _ _ _ h
  · exact h

theorem Dev.framesOver_wf (s : Dev) {mem : List Host.Cell} (h : Memory.wf mem = true) : Memory.wf (s.framesOver mem).2 = true := by
  rw [Dev.framesOver_eq]
  exact foldl_inv (fun r : Dev × List Host.Cell => Memory.wf r.2 = true) _ Dev.arrivedServed_wf _ _ h

theorem Dev.chainFrameIn_wf (s : Dev) {mem : List Host.Cell} (frame : List Byte) (h : Memory.wf mem = true) : Memory.wf (s.chainFrameIn mem frame).2 = true := by
  unfold Dev.chainFrameIn
  dsimp only
  split_ifs
  · exact h
  · exact h
  · exact s.updateIn_wf _ _ h
  · exact h

theorem wf_ite (c : Prop) [Decidable c] {x y : Dev × List Host.Cell} (hx : Memory.wf x.2 = true) (hy : Memory.wf y.2 = true) :
    Memory.wf (if c then x else y).2 = true := by
  split
  · exact hx
  · exact hy

theorem Dev.ethDone_wf (s : Dev) {mem : List Host.Cell} (abort under : Bool) (colls : Nat) (h : Memory.wf mem = true) :
    Memory.wf (s.ethDone mem abort under colls).2 = true :=
  wf_ite _ h (ethReturn_wf _ _ _ _ _ h)

theorem Dev.ethFrameIn_wf (s : Dev) {mem : List Host.Cell} (frame : List Byte) (fcsOk : Bool) (h : Memory.wf mem = true) :
    Memory.wf (s.ethFrameIn mem frame fcsOk).2 = true :=
  wf_ite _ h (wf_ite _ h (wf_ite _ h (ethReturn_wf _ _ _ _ _ (foldl_inv (fun m => Memory.wf m = true) _ (fun _ _ => Memory.write_wf) _ _ h))))

/-! #### What the storing commands keep -/

/-- From `s` to `t` the waiting commands are kept, and of memory the canonical form. -/
def State.formKept (s t : State) : Prop := t.pending = s.pending ∧ (memOk s → memOk t)

theorem State.formKept_refl (s : State) : s.formKept s := ⟨rfl, id⟩
theorem State.formKept.trans {s t u : State} (h : s.formKept t) (k : t.formKept u) : s.formKept u := ⟨k.1.trans h.1, fun hs => k.2 (h.2 hs)⟩
theorem State.formKept_dev (s : State) (d : Dev) : s.formKept { s with toDev := d } := ⟨rfl, id⟩
theorem State.formKept_mem (s : State) (d : Dev) (mem : List Host.Cell) (h : Memory.wf s.mem = true → Memory.wf mem = true) :
    s.formKept { s with toDev := d, mem := mem } := ⟨rfl, h⟩
theorem State.formKept_store (s : State) (d : Dev) (a : Nat) (l : List Byte) : s.formKept { s with toDev := d, mem := Memory.writeAll s.mem a l } :=
  s.formKept_mem d _ (Memory.writeAll_wf l)

theorem State.formKept_ite (c : Prop) [Decidable c] {s t u : State} (ht : s.formKept t) (hu : s.formKept u) : s.formKept (if c then t else u) := by
  split
  · exact ht
  · exact hu

theorem State.start_formKept (s : State) (boot1 boot0 testN : Bool) (vsupMv bad : Nat) : s.formKept (s.start boot1 boot0 testN vsupMv bad) := by
  unfold State.start
  dsimp only
  split
  · exact s.formKept_dev _
  · split
    · exact s.formKept_mem _ _ (memWipe_wf _)
    · exact s.formKept_mem _ _ fun h => memLoad_wf _ _ (memWipe_wf _ h)

theorem State.busWrite_formKept (s : State) (m a size : Nat) (v : Word) : s.formKept (s.busWrite m a size v) := by
  unfold State.busWrite
  split
  · exact s.formKept_dev _
  · split_ifs
    · exact s.formKept_dev _
    · exact s.formKept_dev _
    · exact s.formKept_store _ _ _

theorem State.sbWrite_formKept (s : State) (w : Word) : s.formKept (s.sbWrite w) := by
  have hput (d : Dev) (m a size : Nat) : s.formKept (({ s with toDev := d } : State).busWrite m a size w) :=
    (s.formKept_dev d).trans (State.busWrite_formKept _ m a size w)
  unfold State.sbWrite
  dsimp only
  split
  · exact s.formKept_refl
  · split
    · exact s.formKept_dev _
    · split
      · exact (hput _ _ _ _).trans (State.formKept_dev _ _)
      · exact (hput _ _ _ _).trans (State.formKept_dev _ _)

/-- Of the Debug Module's registers only sbdata0 reaches the bus. -/
theorem State.dbgWrite_formKept (s : State) (addr : Nat) (v : Word) (crcOk : Bool) : s.formKept (s.dbgWrite addr v crcOk) := by
  have hdev (d : Dev) : s.formKept { s with toDev := d } := s.formKept_dev d
  have hsbdata : s.formKept { s.sbWrite v with toDev := (s.sbWrite v).toDev.dbgSay Dmi.DONE } := (s.sbWrite_formKept v).trans (State.formKept_dev _ _)
  have hsbaddress (c c' : Prop) [Decidable c] [Decidable c'] (x y z : Dev) :
      s.formKept (if c then { s with toDev := x } else if c' then { s with toDev := y } else { s with toDev := z }) :=
    State.formKept_ite _ (hdev x) (State.formKept_ite _ (hdev y) (hdev z))
  unfold State.dbgWrite
  refine State.formKept_ite _ s.formKept_refl (State.formKept_ite _ (hdev _) ?_)
  refine State.formKept_ite _ (hdev _) (State.formKept_ite _ (hdev _) (State.formKept_ite _ (hdev _) ?_))
  exact State.formKept_ite _ (hsbaddress _ _ _ _ _) (State.formKept_ite _ hsbdata (State.formKept_ite _ (hdev _) (hdev _)))

theorem State.spiPut_formKept (s : State) (a : Nat) (v : Word) : s.formKept (s.spiPut a v) := by
  unfold State.spiPut
  exact State.formKept_ite _ ((s.busWrite_formKept _ _ _ _).trans (State.formKept_dev _ _)) (s.busWrite_formKept _ _ _ _)

theorem State.spiPuts_formKept (s : State) (a : Nat) (l : List Word) : s.formKept (s.spiPuts a l) := by
  induction l generalizing s a with
  | nil => exact s.formKept_refl
  | cons v r ih => exact (s.spiPut_formKept a v).trans (ih _ _)

theorem State.spiWrite_formKept (s : State) (crc : Bool) (addr : Nat) (data : List Word) (crcOk : Bool) : s.formKept (s.spiWrite crc addr data crcOk) := by
  unfold State.spiWrite
  dsimp only
  split
  · exact s.formKept_dev _
  · refine State.formKept.trans (State.formKept_ite _ ?_ ?_) (State.formKept_dev _ _)
    · exact (s.formKept_dev _).trans (State.spiPuts_formKept _ _ _)
    · exact s.formKept_dev _

theorem State.spiAbort_formKept (s : State) (addr : Nat) (data : List Word) (words : Nat) (crc : Bool) : s.formKept (s.spiAbort addr data words crc) := by
  unfold State.spiAbort
  dsimp only
  split
  · exact s.formKept_dev _
  · refine State.formKept.trans (State.formKept_ite _ ?_ ?_) (State.formKept_dev _ _)
    · exact s.formKept_dev _
    · exact (s.formKept_dev _).trans (State.spiPuts_formKept _ _ _)

theorem flashProgrammed_formKept (s : State) (a : Nat) (data : List Byte) (ok1 ok2 : Bool) : s.formKept (flashProgrammed s a data ok1 ok2) := by
  unfold flashProgrammed
  dsimp only
  split_ifs <;> exact s.formKept_store _ _ _

/-! #### Commands -/

/-- A command completes with a next state that keeps the waiting commands, and of memory the canonical form. -/
def keepsForm (o : Out) (s : State) : Prop := ∃ t, o = .next t ∧ s.formKept t

theorem keepsForm_of_keepsMem {o : Out} {s : State} (h : keepsMem o s) : keepsForm o s := by
  obtain ⟨d, rfl⟩ := h
  exact ⟨_, rfl, s.formKept_dev d⟩

theorem ite_keepsForm (c : Prop) [Decidable c] {s t : State} (h : s.formKept t) : keepsForm (.next (if c then t else s)) s :=
  ⟨_, rfl, State.formKept_ite c h s.formKept_refl⟩

theorem updAct_keepsForm (s : State) (f : List Host.Cell → Dev → Dev × List Host.Cell) (h : ∀ d, Memory.wf s.mem = true → Memory.wf (f s.mem d).2 = true) :
    keepsForm (updAct s f) s := ite_keepsForm _ (s.formKept_mem _ _ (h s.toDev))

theorem execDataFrame_keepsForm (rx : RxInfo) (fc payload : List Byte) (s : State) : keepsForm (execDataFrame rx fc payload s) s := by
  refine updAct_keepsForm s _ fun d h => ?_
  dsimp only
  split
  · exact Dev.updateIn_wf _ _ _ h
  · exact h

theorem testAct_keepsForm (s : State) (f : Dev → Dev) : keepsForm (testAct s f) s :=
  ite_keepsForm _ (State.formKept_ite _ (s.formKept_mem _ _ dramWipe_wf) (s.formKept_dev _))

theorem execVsupRiseStart_keepsForm (boot1 boot0 testN : Bool) (vsupMv bad : Nat) (s : State) : keepsForm (execVsupRiseStart boot1 boot0 testN vsupMv bad s) s :=
  ite_keepsForm _ (State.formKept_ite _ ((s.formKept_dev _).trans (State.start_formKept _ _ _ _ _ _)) (s.formKept_dev _))

theorem execFlashOpDone_keepsForm (ok1 ok2 : Bool) (s : State) : keepsForm (execFlashOpDone ok1 ok2 s) s := by
  refine ⟨_, rfl, ?_⟩
  split
  · split_ifs
    · exact s.formKept_refl
    · exact s.formKept_store _ _ _
    · exact flashProgrammed_formKept s _ _ _ _
  · exact s.formKept_refl

/-- Every command completes so. -/
theorem exec_keepsForm (c : Instr) (s : State) : keepsForm (exec c s) s := by
  cases hstores : stores c with
  | false => exact keepsForm_of_keepsMem (exec_keepsMem c s hstores)
  | true =>
    cases c <;> dsimp only [exec]
    case vsupRiseStart => exact execVsupRiseStart_keepsForm _ _ _ _ _ s
    case overtempRelease | internalResetRelease => exact ite_keepsForm _ (s.start_formKept _ _ _ _ _)
    case registerWrite => exact ite_keepsForm _ (s.busWrite_formKept _ _ _ _)
    case flashOpDone => exact execFlashOpDone_keepsForm _ _ s
    case debugWrite => exact ite_keepsForm _ (s.dbgWrite_formKept _ _ _)
    case spiWrite | spiBurstWrite => exact ite_keepsForm _ (s.spiWrite_formKept _ _ _ _)
    case spiAbort => exact ite_keepsForm _ (s.spiAbort_formKept _ _ _ _)
    case dataFrame => exact execDataFrame_keepsForm _ _ _ s
    case blockMsg => exact updAct_keepsForm s _ fun d => d.blockIn_wf _ _
    case chainFrameReceive => exact updAct_keepsForm s _ fun d => d.chainFrameIn_wf _
    case ethTxDone => exact updAct_keepsForm s _ fun d => d.ethDone_wf _ _ _
    case ethFrameReceive => exact updAct_keepsForm s _ fun d => Dev.ethFrameIn_wf _ _ _
    case sliceEnd | sliceTimeout => exact testAct_keepsForm s _
    all_goals cases hstores

end Sys2Proof.Machine

namespace Sys2Proof.Certificates

open Sys2Proof Sys2Proof.Machine Sys2Proof.Safety

theorem idleStep_formKept (s : State) : s.formKept s.idleStep := by
  refine ⟨idleStep_pending s, fun h => ?_⟩
  cases hon : s.mainOn with
  | false => rw [idleStep_off s hon]; exact h
  | true => rw [idleStep_on s hon]; exact Dev.framesOver_wf _ h

/-- Settles O42: a step is a command or a tick, and both keep the canonical form. -/
theorem memoryStaysCanonical : Obligations.MemoryStaysCanonical := by
  unfold Obligations.MemoryStaysCanonical
  intro s t hs hstep
  unfold step at hstep
  split at hstep
  · cases hstep
    exact (idleStep_formKept s).2 hs
  · next c r _ =>
    obtain ⟨u, hu, hkept⟩ := exec_keepsForm c { s with pending := r }
    cases hu.symm.trans hstep
    exact hkept.2 hs

/-- Settles O41: the shape of every command's meaning is a next state, with the queue as it was. -/
theorem everyCommandCompletes : Obligations.EveryCommandCompletes := by
  unfold Obligations.EveryCommandCompletes
  intro c s
  obtain ⟨t, ht, hkept⟩ := exec_keepsForm c s
  exact ⟨t, ht, hkept.1⟩

/-- Settles O45: a command outside `stores` has a meaning on the device alone. -/
theorem onlyStoresChangeMemory : Obligations.OnlyStoresChangeMemory := by
  unfold Obligations.OnlyStoresChangeMemory
  intro c s t hc ht
  obtain ⟨d, hd⟩ := exec_keepsMem c s hc
  cases hd.symm.trans ht
  rfl

end Sys2Proof.Certificates

/-! ### Accesses that the interconnect refuses or holds (R69, R78, R80) -/

namespace Sys2Proof.Machine

open Sys2Proof.Safety

/-- A write that is not aligned, or not of a whole word on a register page, is a DECODE error (R69). -/
theorem Dev.writeErr_decode (s : Dev) {m a size : Nat} (h : a % size ≠ 0 ∨ (0x40000000 ≤ a ∧ a < 0x40040000 ∧ size ≠ 4)) :
    s.writeErr m a size = some BusKind.decode := by
  unfold Dev.writeErr
  split
  · rfl
  · next aligned =>
    have hpage : 0x40000000 ≤ a ∧ a < 0x40040000 ∧ size ≠ 4 := h.resolve_left fun hmis => aligned (.inr hmis)
    rw [if_pos ⟨hpage.1, hpage.2.1⟩, if_neg fun hword => hpage.2.2 hword.1]

theorem State.busWrite_decode (s : State) {m a size : Nat} (v : Word) (h : a % size ≠ 0 ∨ (0x40000000 ≤ a ∧ a < 0x40040000 ∧ size ≠ 4)) :
    s.busWrite m a size v = { s with toDev := s.toDev.busErr m a BusKind.decode true } := by
  rw [State.busWrite, Dev.writeErr_decode _ h]

theorem Dev.sbSize_pow (s : Dev) {n : Nat} (hn : bitsOf (s.dm Dmi.sbcs) 19 17 = n) (h : n < 3) : s.sbSize = some (2 ^ n) := by
  rw [Dev.sbSize, hn]
  exact if_pos h

/-- A system-bus read that is not aligned, or narrow on a register page, fails at once. -/
theorem Dev.sbRead_decode (mem : List Host.Cell) (s : Dev) {n a : Nat} (herr : bitsOf (s.dm Dmi.sbcs) 14 12 = 0) (hsize : bitsOf (s.dm Dmi.sbcs) 19 17 = n)
    (hn : n < 3) (ha : a = (s.dm Dmi.sbaddress0).toNat) (h : a % 2 ^ n ≠ 0 ∨ (n < 2 ∧ 0x40000000 ≤ a ∧ a < 0x40040000)) :
    ∃ e, Dev.sbRead mem s = (s.busErr 17 a BusKind.decode false).sbFail e := by
  subst ha
  unfold Dev.sbRead
  rw [s.sbSize_pow hsize hn]
  dsimp only
  rw [if_neg (not_not.2 herr)]
  by_cases hmis : (s.dm Dmi.sbaddress0).toNat % 2 ^ n ≠ 0
  · exact ⟨3, if_pos hmis⟩
  · obtain ⟨hnarrow, hpage⟩ := h.resolve_left hmis
    have hless : 2 ^ n < 2 ^ 2 := Nat.pow_lt_pow_right (by decide) hnarrow
    rw [if_neg hmis]
    exact ⟨2, if_pos ⟨hless, hpage⟩⟩

/-- The condition is a variable here: at `updWr`'s own the kernel would compute a page. -/
theorem updAct_ite_eq (s : State) (c : Dev → Bool) (f : List Host.Cell → Dev → Dev × List Host.Cell) (g : Dev → Dev) (hm : s.mainOn = true) (hc : c s.toDev = false) :
    (updAct s fun mem d => if c d then f mem d else (g d, mem)) = .next { s with toDev := g s.toDev } := by
  rw [updAct_eq _ _ hm, hc]
  rfl

theorem updWr_posted (m a : Nat) (v : Word) (s : State) (f : List Host.Cell → Dev → Dev × List Host.Cell) (hm : s.mainOn = true) (hi : s.islRun (pageOf a) = false) :
    updWr m a v s f = .next { s with toDev := { s.toDev with bus := { s.bus with posted := s.bus.posted ++ [⟨m, a, v⟩] } } } := by
  have hwaits : s.toDev.landing m a v id = { s.toDev with bus := { s.bus with posted := s.bus.posted ++ [⟨m, a, v⟩] } } := by
    rw [Dev.landing, hi, if_neg Bool.false_ne_true]
  rw [← hwaits]
  exact updAct_ite_eq s (fun d => d.islRun (pageOf a)) f (fun d => d.landing m a v id) hm hi

end Sys2Proof.Machine

namespace Sys2Proof.Certificates

open Sys2Proof Sys2Proof.Machine Sys2Proof.Safety

/-- Settles O54: each access meets the rule of R69 before anything else of it is done. -/
theorem misalignedAccessDecodes : Obligations.MisalignedAccessDecodes := by
  unfold Obligations.MisalignedAccessDecodes
  refine ⟨fun s m a size v hon h => ?_, fun mem s m a h => if_pos h, fun mem s n a herr hsize hn ha h => Dev.sbRead_decode mem s herr hsize hn ha h⟩
  dsimp only [exec]
  rw [execRegisterWrite, if_pos hon, State.busWrite_decode _ _ h]

/-- Settles O47: every command that writes a register lands through `wrAct` or `updWr`, which hold the write of a stopped island. -/
theorem writesToStoppedIslandsWait : Obligations.WritesToStoppedIslandsWait := by
  unfold Obligations.WritesToStoppedIslandsWait
  intro c s m a v hw hon hoff
  cases c <;> cases hw <;> dsimp only [exec]
  case updActivate | updDiscard | updConfirm => exact updWr_posted _ _ _ s _ hon hoff
  all_goals exact wrAct_posted _ _ _ s _ hon hoff

end Sys2Proof.Certificates

/-! ### A raising and the split counters (R73, R83, R483) -/

namespace Sys2Proof.Machine

open Sys2Proof.Safety

/-- Counter `n` is selected in `t` as in `m`, and has counted as much. -/
def Regs.sameCounter (n : Nat) (m t : Regs) : Prop :=
  Regs.rd t (Reg.SPLIT_SEL n) = Regs.rd m (Reg.SPLIT_SEL n) ∧ Regs.rd t (Reg.SPLIT_CNT_LO n) = Regs.rd m (Reg.SPLIT_CNT_LO n) ∧
    Regs.rd t (Reg.SPLIT_CNT_HI n) = Regs.rd m (Reg.SPLIT_CNT_HI n)

/-- The registers of counter `n`: SEL, CNT_LO and CNT_HI, which lie in a row. -/
def counterReg (n a : Nat) : Prop := 0x40004100 + n * 0x20 ≤ a ∧ a < 0x4000410C + n * 0x20

theorem counterReg_own (n : Nat) : counterReg n (Reg.SPLIT_SEL n) ∧ counterReg n (Reg.SPLIT_CNT_LO n) ∧ counterReg n (Reg.SPLIT_CNT_HI n) := by
  unfold counterReg Reg.SPLIT_SEL Reg.SPLIT_CNT_LO Reg.SPLIT_CNT_HI
  omega

theorem counterReg_disjoint {n k a : Nat} (hk : k ≠ n) (h : counterReg k a) : ¬ counterReg n a := by
  unfold counterReg at *
  omega

theorem counterReg_ovf (n : Nat) : ¬ counterReg n Fld.SPLIT_OVF_CNT.addr := by
  unfold counterReg Fld.SPLIT_OVF_CNT Reg.SPLIT_OVF
  dsimp only
  omega

theorem counterReg_raw (n p : Nat) : ¬ counterReg n (Hdr.RAW p).addr := by
  unfold counterReg Hdr.RAW pageBase
  dsimp only
  omega

variable {m t u : Regs} {n k : Nat}

theorem Regs.sameCounter_refl : Regs.sameCounter n m m := ⟨rfl, rfl, rfl⟩

theorem Regs.sameCounter.trans (h : Regs.sameCounter n m t) (h' : Regs.sameCounter n t u) : Regs.sameCounter n m u :=
  ⟨h'.1.trans h.1, h'.2.1.trans h.2.1, h'.2.2.trans h.2.2⟩

theorem Regs.sameCounter.count (h : Regs.sameCounter n m t) : Regs.splitCount t n = Regs.splitCount m n := by
  obtain ⟨-, hlo, hhi⟩ := h
  simp only [Regs.splitCount, Regs.get, Fld.SPLIT_CNT_LO_N, Fld.SPLIT_CNT_HI_N, hlo, hhi]

theorem Regs.sameCounter.hits (h : Regs.sameCounter n m t) (e : Event) : Regs.splitHits t n e = Regs.splitHits m n e := by
  simp only [Regs.splitHits, Regs.get, Fld.SPLIT_SEL_EN, Fld.SPLIT_SEL_CODE, Fld.SPLIT_SEL_FILT, h.1]

theorem Regs.sameCounter_set {f : Field} {v : Nat} (h : ¬ counterReg n f.addr) : Regs.sameCounter n m (Regs.set m f v) := by
  obtain ⟨hsel, hlo, hhi⟩ := counterReg_own n
  exact ⟨Regs.rd_set_ne fun e => h (e ▸ hsel), Regs.rd_set_ne fun e => h (e ▸ hlo), Regs.rd_set_ne fun e => h (e ▸ hhi)⟩

/-- A RAW word is no counter's register. -/
theorem Regs.sameCounter_raw (c : Nat) : Regs.sameCounter n m (Regs.raw m c) := by
  unfold Regs.raw
  split
  · exact Regs.sameCounter_set (counterReg_raw _ _)
  · exact Regs.sameCounter_refl

/-- A counter's step leaves the other counters alone. -/
theorem Regs.sameCounter_splitOne (e : Event) (hk : k ≠ n) : Regs.sameCounter n m (Regs.splitOne e m k) := by
  obtain ⟨-, hlo, hhi⟩ := counterReg_own k
  have hcount (v w : Nat) : Regs.sameCounter n m (Regs.set (Regs.set m (Fld.SPLIT_CNT_LO_N k) v) (Fld.SPLIT_CNT_HI_N k) w) :=
    (Regs.sameCounter_set (counterReg_disjoint hk hlo)).trans (Regs.sameCounter_set (counterReg_disjoint hk hhi))
  unfold Regs.splitOne
  dsimp only
  split_ifs
  · exact ((hcount _ _).trans (Regs.sameCounter_set (counterReg_ovf n))).trans (Regs.sameCounter_raw _)
  · exact hcount _ _
  · exact Regs.sameCounter_refl

theorem Regs.splitCount_lt (m : Regs) (n : Nat) : Regs.splitCount m n < 2 ^ 48 := by
  have hlo : Regs.get m (Fld.SPLIT_CNT_LO_N n) < 2 ^ 32 := bitsOf_lt _ _ _
  have hhi : Regs.get m (Fld.SPLIT_CNT_HI_N n) < 2 ^ 16 := bitsOf_lt _ _ _
  unfold Regs.splitCount
  omega

/-- What a counter is set to it has counted. -/
theorem Regs.splitCount_set (m : Regs) (n : Nat) {c : Nat} (hc : c < 2 ^ 48) :
    Regs.splitCount (Regs.set (Regs.set m (Fld.SPLIT_CNT_LO_N n) (c % 2 ^ 32)) (Fld.SPLIT_CNT_HI_N n) (c / 2 ^ 32)) n = c := by
  have hapart : (Fld.SPLIT_CNT_LO_N n).addr ≠ (Fld.SPLIT_CNT_HI_N n).addr := by
    unfold Fld.SPLIT_CNT_LO_N Fld.SPLIT_CNT_HI_N Reg.SPLIT_CNT_LO Reg.SPLIT_CNT_HI
    dsimp only
    omega
  have hhi : Regs.get (Regs.set (Regs.set m (Fld.SPLIT_CNT_LO_N n) (c % 2 ^ 32)) (Fld.SPLIT_CNT_HI_N n) (c / 2 ^ 32)) (Fld.SPLIT_CNT_HI_N n) = c / 2 ^ 32 % 2 ^ 16 :=
    Regs.get_set_same _ _ _ rfl
  have hlo : Regs.get (Regs.set m (Fld.SPLIT_CNT_LO_N n) (c % 2 ^ 32)) (Fld.SPLIT_CNT_LO_N n) = c % 2 ^ 32 % 2 ^ 32 := Regs.get_set_same _ _ _ rfl
  rw [Regs.splitCount, hhi, Regs.get, Regs.rd_set_ne hapart, ← Regs.get, hlo]
  omega

/-- A counter's own step (R483). -/
theorem Regs.splitCount_splitOne (e : Event) (m : Regs) :
    Regs.splitCount (Regs.splitOne e m n) n = if Regs.splitHits m n e then (Regs.splitCount m n + 1) % 2 ^ 48 else Regs.splitCount m n := by
  have hset := m.splitCount_set n (Nat.mod_lt (Regs.splitCount m n + 1) (Nat.two_pow_pos 48))
  unfold Regs.splitOne
  dsimp only
  split_ifs
  · rw [((Regs.sameCounter_set (counterReg_ovf n)).trans (Regs.sameCounter_raw _)).count, hset]
  · exact hset
  · rfl

theorem Regs.sameCounter_foldl (e : Event) (l : List Nat) (hl : n ∉ l) (m : Regs) : Regs.sameCounter n m (l.foldl (Regs.splitOne e) m) := by
  induction l generalizing m with
  | nil => exact Regs.sameCounter_refl
  | cons k r ih =>
    obtain ⟨hk, hr⟩ := not_or.1 (mt List.mem_cons.2 hl)
    exact (Regs.sameCounter_splitOne e (Ne.symm hk)).trans (ih hr _)

/-- Of the counters of a list, each one counts once. -/
theorem Regs.splitCount_foldl (e : Event) (l : List Nat) (hd : l.Nodup) (hl : n ∈ l) (m : Regs) :
    Regs.splitCount (l.foldl (Regs.splitOne e) m) n = if Regs.splitHits m n e then (Regs.splitCount m n + 1) % 2 ^ 48 else Regs.splitCount m n := by
  induction l generalizing m with
  | nil => exact absurd hl List.not_mem_nil
  | cons k r ih =>
    obtain ⟨hk, hr⟩ := List.nodup_cons.1 hd
    rw [List.foldl_cons]
    by_cases hkn : k = n
    · subst hkn
      rw [(Regs.sameCounter_foldl e r hk _).count, Regs.splitCount_splitOne e m]
    · have hsame : Regs.sameCounter n m (Regs.splitOne e m k) := Regs.sameCounter_splitOne e hkn
      rw [ih hr ((List.mem_cons.1 hl).resolve_left (Ne.symm hkn)) _, hsame.hits, hsame.count]

theorem Regs.get_splitEn_raw (m : Regs) (c : Nat) : Regs.get (Regs.raw m c) (Hdr.EN Pg.SPLIT) = Regs.get m (Hdr.EN Pg.SPLIT) := by
  have hapart : (Hdr.EN Pg.SPLIT).addr ≠ (Hdr.RAW (c / 64)).addr := by
    unfold Hdr.EN Hdr.RAW pageBase
    dsimp only
    omega
  unfold Regs.raw
  split
  · rw [Regs.get, Regs.rd_set_ne hapart, ← Regs.get]
  · rfl

/-- With the page enabled, a raising on which no counter wraps counts in each counter that selects it. -/
theorem Regs.splitCount_event (e : Event) (hn : n < 32) (hen : Regs.get m (Hdr.EN Pg.SPLIT) = 1) (hw : Regs.splitWraps m e = false) :
    Regs.splitCount (Regs.event m e) n = if Regs.splitHits m n e then Regs.splitCount m n + 1 else Regs.splitCount m n := by
  have hraw : Regs.sameCounter n m (Regs.raw m e.code) := Regs.sameCounter_raw _
  have hevent : Regs.event m e = (List.range 32).foldl (Regs.splitOne e) (Regs.raw m e.code) := by
    rw [Regs.event, hw, Bool.and_false]
    exact if_pos ((m.get_splitEn_raw _).trans hen)
  rw [hevent, Regs.splitCount_foldl e _ List.nodup_range (List.mem_range.2 hn), hraw.hits, hraw.count]
  refine if_ctx_congr Iff.rfl (fun hhit => ?_) fun _ => rfl
  have hnowrap := List.any_eq_false.1 hw n (List.mem_range.2 hn)
  have hlt := m.splitCount_lt n
  rw [hhit, Bool.true_and, beq_iff_eq] at hnowrap
  omega

theorem Regs.splitCount_event_disabled (e : Event) (hen : Regs.get m (Hdr.EN Pg.SPLIT) ≠ 1) :
    Regs.splitCount (Regs.event m e) n = Regs.splitCount m n := by
  have hevent : Regs.event m e = Regs.raw m e.code := by
    rw [Regs.event, decide_eq_false hen, Bool.false_and]
    exact if_neg fun h => hen ((m.get_splitEn_raw _).symm.trans h)
  rw [hevent, (Regs.sameCounter_raw _).count]

theorem Dev.raise_off (s : Dev) (p no : Nat) (h : s.mainOn = false) : s.raise p no = s := by
  rw [Dev.raise, Dev.raiseEv, if_neg (by rw [h]; exact Bool.false_ne_true)]

end Sys2Proof.Machine

namespace Sys2Proof.Certificates

open Sys2Proof Sys2Proof.Machine Sys2Proof.Safety

/-- Settles O49: RAW by `Dev.raise_shows`, the frame by `Dev.raise_eventsOnly`, the counters by `Regs.splitCount_event`. -/
theorem raisingAnEvent : Obligations.RaisingAnEvent := by
  unfold Obligations.RaisingAnEvent
  exact ⟨fun s p no hon _ hno => ⟨s.raise_shows p hon hno, s.raise_eventsOnly p no⟩, fun _ e _ hn hen hw => Regs.splitCount_event e hn hen hw,
    fun _ e _ _ hen => Regs.splitCount_event_disabled e hen, fun s p no h => s.raise_off p no h⟩

/-- Settles O53: what a raising shows does not depend on the RAW word that it finds. -/
theorem clearNeverLosesAnEvent : Obligations.ClearNeverLosesAnEvent := by
  unfold Obligations.ClearNeverLosesAnEvent
  intro s p no v hon _ hno
  exact (s.irqClear p v).raise_shows p ((Dev.mainOn_congr (by rw [Dev.irqClear, Dev.set_power])).trans hon) hno

end Sys2Proof.Certificates

/-! ### Table images (R84, R85) -/

namespace Sys2Proof.Machine

/-- The header of the image at `addr`. -/
def tblHeader (mem : List Host.Cell) (addr : Nat) : List Byte := Memory.readAll mem addr 16

/-- The bytes that follow it, as many as its COUNT says. -/
def tblBody (mem : List Host.Cell) (addr : Nat) (k : TblSpec) : List Byte := Memory.readAll mem (addr + 16) (leAt (tblHeader mem addr) 8 2 * k.esize)

/-- A body cut into `n` entries of `size` bytes, in order. -/
def entriesOf (body : List Byte) (n size : Nat) : List Entry := (List.range n).map fun i => slice body (i * size) size

theorem length_entriesOf (body : List Byte) (n size : Nat) : (entriesOf body n size).length = n := by
  rw [entriesOf, List.length_map, List.length_range]

/-- The nine checks of R85 on a header and a body, in their order. -/
structure TblPasses (k : TblSpec) (h body : List Byte) : Prop where
  magic : leAt h 0 4 = 0x4C425447
  type : leAt h 4 2 = k.type
  version : leAt h 6 2 / 256 = 1
  esize : leAt h 10 2 = k.esize
  area : 16 + leAt h 8 2 * k.esize ≤ k.area
  nonempty : leAt h 8 2 = 0 → k.emptyOk = true
  crc : crc32 (h.take 12 ++ body) = leAt h 12 4
  content : k.content (entriesOf body (leAt h 8 2) k.esize) = true
  unlocked : k.locked = false

/-- What a check of a header and a body answers: the image with its entries where it passes, else the number of a check that failed. -/
def tblVerdict (k : TblSpec) (h body : List Byte) (r : Nat × TblImage) : Prop :=
  (TblPasses k h body ∧ r = (0, ⟨leAt h 8 2, 1, entriesOf body (leAt h 8 2) k.esize⟩)) ∨ (¬ TblPasses k h body ∧ r.1 ≠ 0 ∧ r.1 ≤ 9)

theorem tblVerdict_rejected {k : TblSpec} {h body : List Byte} (n : Nat) (i : TblImage) (hn : n ≠ 0 ∧ n ≤ 9) (hfail : ¬ TblPasses k h body) :
    tblVerdict k h body (n, i) := .inr ⟨hfail, hn⟩

theorem tblCheck_verdict (mem : List Host.Cell) (addr : Nat) (k : TblSpec) : tblVerdict k (tblHeader mem addr) (tblBody mem addr k) (tblCheck mem addr k) := by
  unfold tblCheck
  refine iteInduction (fun hmagic => tblVerdict_rejected 1 _ (by decide) fun p => hmagic p.magic) fun hmagic => ?_
  refine iteInduction (fun htype => tblVerdict_rejected 2 _ (by decide) fun p => htype p.type) fun htype => ?_
  refine iteInduction (fun hver => tblVerdict_rejected 3 _ (by decide) fun p => hver p.version) fun hver => ?_
  refine iteInduction (fun hsize => tblVerdict_rejected 4 _ (by decide) fun p => hsize p.esize) fun hsize => ?_
  refine iteInduction (fun harea => tblVerdict_rejected 5 _ (by decide) fun p => Nat.not_le.2 harea p.area) fun harea => ?_
  refine iteInduction (fun hempty => tblVerdict_rejected 6 _ (by decide) fun p => hempty.2 (p.nonempty hempty.1)) fun hempty => ?_
  refine iteInduction (fun hcrc => tblVerdict_rejected 7 _ (by decide) fun p => hcrc p.crc) fun hcrc => ?_
  refine iteInduction (fun hcontent => tblVerdict_rejected 8 _ (by decide) fun p => ?_) fun hcontent => ?_
  · rw [Bool.not_eq_true'] at hcontent
    exact Bool.false_ne_true (hcontent.symm.trans p.content)
  refine iteInduction (fun hlocked => tblVerdict_rejected 9 _ (by decide) fun p => Bool.false_ne_true (p.unlocked.symm.trans hlocked)) fun hlocked => ?_
  have hversion := not_not.1 hver
  refine .inl ⟨⟨not_not.1 hmagic, not_not.1 htype, hversion, not_not.1 hsize, Nat.not_lt.1 harea, fun hzero => ?_, not_not.1 hcrc, ?_, Bool.eq_false_of_not_eq_true hlocked⟩, ?_⟩
  · exact by_contra fun hne => hempty ⟨hzero, hne⟩
  · exact (Bool.not_eq_false' _).mp (Bool.eq_false_of_not_eq_true hcontent)
  · rw [hversion]
    rfl

theorem tblCheck_reason_le (mem : List Host.Cell) (addr : Nat) (k : TblSpec) : (tblCheck mem addr k).1 ≤ 9 := by
  rcases tblCheck_verdict mem addr k with ⟨-, htaken⟩ | ⟨-, -, hle⟩
  · rw [htaken]
    exact Nat.zero_le 9
  · exact hle

theorem tblCheck_passes_iff (mem : List Host.Cell) (addr : Nat) (k : TblSpec) :
    (tblCheck mem addr k).1 = 0 ↔ TblPasses k (tblHeader mem addr) (tblBody mem addr k) := by
  rcases tblCheck_verdict mem addr k with ⟨hpass, htaken⟩ | ⟨hfail, hreason, -⟩
  · exact iff_of_true (congrArg Prod.fst htaken) hpass
  · exact iff_of_false hreason hfail

/-- The image of an accepted table: COUNT entries, in order, of version 1. -/
theorem tblCheck_image {mem : List Host.Cell} {addr : Nat} {k : TblSpec} (h : (tblCheck mem addr k).1 = 0) :
    (tblCheck mem addr k).2 = ⟨leAt (tblHeader mem addr) 8 2, 1, entriesOf (tblBody mem addr k) (leAt (tblHeader mem addr) 8 2) k.esize⟩ := by
  rcases tblCheck_verdict mem addr k with ⟨-, htaken⟩ | ⟨-, hreason, -⟩
  · exact congrArg Prod.snd htaken
  · exact absurd h hreason

end Sys2Proof.Machine

namespace Sys2Proof.Certificates

open Sys2Proof Sys2Proof.Machine Sys2Proof.Safety

/-- Settles O7: an image is accepted where it passes each of the nine checks, and the image taken is the one that was checked. -/
theorem tableAcceptedIff : Obligations.TableAcceptedIff := by
  unfold Obligations.TableAcceptedIff
  refine fun mem addr k => ⟨(tblCheck_passes_iff mem addr k).trans ⟨fun h => ?_, fun h => ?_⟩, tblCheck_reason_le mem addr k, fun h => ?_⟩
  · exact ⟨h.magic, h.type, h.version, h.esize, h.area, h.nonempty, h.crc, h.content, h.unlocked⟩
  · obtain ⟨magic, type, version, esize, area, nonempty, crc, content, unlocked⟩ := h
    exact ⟨magic, type, version, esize, area, nonempty, crc, content, unlocked⟩
  · rw [tblCheck_image h]
    exact ⟨length_entriesOf _ _ _, rfl⟩

end Sys2Proof.Certificates

/-! ### Table loads (R85–R87, R205, R303, R310, R374) -/

namespace Sys2Proof.Machine

open Sys2Proof.Safety

/-! #### A load's GO -/

/-- The check of an image begins: it joins those that run, its end a free number of ticks away (log 95). -/
def Dev.tblBegun (s : Dev) (l : TblLoad) : Dev :=
  { s with clk := { s.clk with loading := s.clk.loading ++ [{ l with endMt := s.mt + 1 + Config.checkTicks s.free }] }, free := s.free + 1 }

theorem Dev.tblGo_free {s : Dev} {l : TblLoad} (h : s.tblBusy l.stat = false) : s.tblGo l = s.tblBegun l := by
  rw [Dev.tblGo, h, if_neg Bool.false_ne_true]
  rfl

theorem Dev.tblGo_busy {s : Dev} {l : TblLoad} (h : s.tblBusy l.stat = true) : s.tblGo l = s.cfgErr (pageOf l.stat) := by
  rw [Dev.tblGo, if_pos h]

theorem pageOf_UCH_TBL_STAT : pageOf Reg.UCH_TBL_STAT = Pg.UCH := by decide
theorem pageOf_TARIFF_TBL_STAT : pageOf Reg.TARIFF_TBL_STAT = Pg.TARIFF := by decide
theorem pageOf_DISC_TBL_STAT : pageOf Reg.DISC_TBL_STAT = Pg.DISC := by decide
theorem pageOf_DISP_TBL_STAT : pageOf Reg.DISP_TBL_STAT = Pg.DISP := by decide
theorem pageOf_PLCPHY_TBL_STAT : pageOf Reg.PLCPHY_TBL_STAT = Pg.PLCPHY := by decide

section
variable {s : Dev} {m : Nat} {v : Word} (hgo : bitAt v 0 = true)
include hgo

theorem Dev.tempGo_go : s.tempGo m v = s.tblGo { stat := Reg.UCH_TBL_STAT, src := s.get Fld.UCH_TT_SRC_ADDR, locked := s.tblLocked Pg.UCH m } := if_pos hgo
theorem Dev.tarGo_go : s.tarGo m v = s.tblGo { stat := Reg.TARIFF_TBL_STAT, src := s.get Fld.TARIFF_SRC_ADDR, locked := s.tblLocked Pg.TARIFF m } := if_pos hgo
theorem Dev.seqGo_go : s.seqGo v = s.tblGo { stat := Reg.DISC_TBL_STAT, src := s.get Fld.DISC_SRC_ADDR } := if_pos hgo
theorem Dev.dispGo_go : s.dispGo v = s.tblGo { stat := Reg.DISP_TBL_STAT, src := s.get Fld.DISP_SRC_ADDR } := if_pos hgo

end

section
variable {s : Dev} {m : Nat} {v : Word} (hgo : bitAt v 0 = false)
include hgo

theorem Dev.tempGo_idle : s.tempGo m v = s := by rw [Dev.tempGo, hgo, if_neg Bool.false_ne_true]
theorem Dev.tarGo_idle : s.tarGo m v = s := by rw [Dev.tarGo, hgo, if_neg Bool.false_ne_true]
theorem Dev.seqGo_idle : s.seqGo v = s := by rw [Dev.seqGo, hgo, if_neg Bool.false_ne_true]
theorem Dev.dispGo_idle : s.dispGo v = s := by rw [Dev.dispGo, hgo, if_neg Bool.false_ne_true]

end

/-! #### The band plan's GO: OVERRIDE is stored first (R374) -/

/-- The device with the override of a BP_LOAD write stored. -/
def Dev.bpOverride (s : Dev) (v : Word) : Dev := s.setB Fld.PLCPHY_BP_LOAD_OVERRIDE (bitAt v 1)

/-- What a GO takes of the band plan's source and its override. -/
def Dev.bpTaken (s : Dev) (v : Word) : TblLoad := { stat := Reg.PLCPHY_TBL_STAT, src := s.get Fld.PLCPHY_BP_SRC_ADDR, emptyOk := bitAt v 1 }

theorem Dev.bpOverride_on (s : Dev) (v : Word) : (s.bpOverride v).on Fld.PLCPHY_BP_LOAD_OVERRIDE = bitAt v 1 := Dev.on_setB_same _ _ _ rfl

theorem Dev.bpOverride_rd (s : Dev) (v : Word) {a : Nat} (h : a ≠ Reg.PLCPHY_BP_LOAD) : (s.bpOverride v).rd a = s.rd a := Dev.rd_setB_ne h

theorem Dev.bpOverride_clk (s : Dev) (v : Word) : (s.bpOverride v).clk = s.clk := Dev.setB_clk _ _ _

theorem Dev.bpOverride_busy (s : Dev) (v : Word) (a : Nat) : (s.bpOverride v).tblBusy a = s.tblBusy a := by
  simp only [Dev.tblBusy, Dev.bpOverride_clk]

theorem Dev.bpLoad_locked {s : Dev} {m : Nat} {v : Word} (h : (bitAt v 1 && !s.session m) = true) : s.bpLoad m v = s.lockErr Pg.PLCPHY := if_pos h

theorem Dev.bpLoad_go {s : Dev} {m : Nat} {v : Word} (hgo : bitAt v 0 = true) (h : (bitAt v 1 && !s.session m) = false) :
    s.bpLoad m v = (s.bpOverride v).tblGo (s.bpTaken v) := by
  have hsrc : (s.bpOverride v).get Fld.PLCPHY_BP_SRC_ADDR = s.get Fld.PLCPHY_BP_SRC_ADDR := Dev.get_setB_apart _ _ _ _ rfl rfl (by decide)
  rw [Dev.bpLoad, h, if_neg Bool.false_ne_true]
  dsimp only
  rw [hgo, if_pos rfl, Dev.bandGo, ← Dev.bpOverride, Dev.bpOverride_on, hsrc, Dev.bpTaken]

/-! #### LOADING and the end of a check (R87) -/

theorem bitAt_putBits_toNat (w : Word) {n : Nat} (hn : n < 32) (b : Bool) : bitAt (putBits w n n b.toNat) n = b := by
  rw [bitAt, bitsOf_putBits_same w n n _ (Nat.le_refl n) hn, Nat.add_sub_cancel_left]
  cases b <;> rfl

theorem Dev.shownWord_loading (s : Dev) (m : Nat) {a : Nat} (h : tblStats.contains a = true) : bitAt (s.shownWord m a) 2 = s.tblBusy a := by
  rw [Dev.shownWord, if_pos h, bitAt_putBits_toNat _ (by decide)]

theorem Dev.loadsOver_loading (s : Dev) (mem : List Host.Cell) : (s.loadsOver mem).clk.loading = s.clk.loading.filter fun l => decide (s.mt < l.endMt) := by
  have hclk : (s.loadsOver mem).clk = s.tickParts.loadsLeft := congrArg TickParts.clk (s.loadsOver_parts mem)
  rw [hclk]
  refine List.filter_congr fun l _ => ?_
  rw [← decide_not]
  exact decide_eq_decide.2 Nat.not_le

end Sys2Proof.Machine

namespace Sys2Proof.Certificates

open Sys2Proof Sys2Proof.Machine Sys2Proof.Safety

section
variable {s : State} {m : Nat} {v : Word}

theorem exec_temperatureTableLoad (hl : lands s Reg.UCH_TT_LOAD) : exec (.temperatureTableLoad m v) s = .next { s with toDev := s.toDev.tempGo m v } :=
  wrAct_eq m _ v s _ hl

theorem exec_tariffTableLoad (hl : lands s Reg.TARIFF_LOAD) : exec (.tariffTableLoad m v) s = .next { s with toDev := s.toDev.tarGo m v } :=
  wrAct_eq m _ v s _ hl

theorem exec_sequenceTableLoad (hl : lands s Reg.DISC_LOAD) : exec (.sequenceTableLoad m v) s = .next { s with toDev := s.toDev.seqGo v } :=
  wrAct_eq m _ v s _ hl

theorem exec_displayTableLoad (hl : lands s Reg.DISP_LOAD) : exec (.displayTableLoad m v) s = .next { s with toDev := s.toDev.dispGo v } :=
  wrAct_eq m _ v s _ hl

theorem exec_bandPlanLoad (hl : lands s Reg.PLCPHY_BP_LOAD) : exec (.bandPlanLoad m v) s = .next { s with toDev := s.toDev.bpLoad m v } :=
  wrAct_eq m _ v s _ hl

theorem bandPlanLoad_begins (hl : lands s Reg.PLCPHY_BP_LOAD) (hgo : bitAt v 0 = true) (ho : (bitAt v 1 && !s.session m) = false)
    (hfree : s.tblBusy Reg.PLCPHY_TBL_STAT = false) :
    completes (.bandPlanLoad m v) s fun t =>
      keepsQueue s t ∧ t.on Fld.PLCPHY_BP_LOAD_OVERRIDE = bitAt v 1 ∧
      t.clk.loading = s.clk.loading ++ [⟨Reg.PLCPHY_TBL_STAT, s.get Fld.PLCPHY_BP_SRC_ADDR, s.mt + 1 + Config.checkTicks s.free, false, bitAt v 1⟩] ∧
      t.plc = s.plc ∧ ∀ a, a ≠ Reg.PLCPHY_BP_LOAD → t.rd a = s.rd a := by
  have hexec : exec (.bandPlanLoad m v) s = .next { s with toDev := (s.toDev.bpOverride v).tblBegun (s.bpTaken v) } := by
    rw [exec_bandPlanLoad hl, Dev.bpLoad_go hgo ho, Dev.tblGo_free ((s.bpOverride_busy v _).trans hfree)]
  exact ⟨_, hexec, ⟨rfl, rfl⟩, s.bpOverride_on v, rfl, rfl, fun a ha => s.bpOverride_rd v ha⟩

theorem bandPlanLoad_busy (hl : lands s Reg.PLCPHY_BP_LOAD) (hgo : bitAt v 0 = true) (ho : (bitAt v 1 && !s.session m) = false)
    (hbusy : s.tblBusy Reg.PLCPHY_TBL_STAT = true) :
    completes (.bandPlanLoad m v) s fun t => keepsQueue s t ∧ t.plc = s.plc ∧ t.clk = s.clk ∧ t.on (Hdr.CFGERR Pg.PLCPHY) = true := by
  have hexec : exec (.bandPlanLoad m v) s = .next { s with toDev := (s.toDev.bpOverride v).cfgErr Pg.PLCPHY } := by
    rw [exec_bandPlanLoad hl, Dev.bpLoad_go hgo ho, Dev.tblGo_busy ((s.bpOverride_busy v _).trans hbusy), Dev.bpTaken, pageOf_PLCPHY_TBL_STAT]
  exact ⟨_, hexec, ⟨rfl, rfl⟩, rfl, rfl, Dev.on_cfgErr _ _⟩

end

end Sys2Proof.Certificates

/-! ### The end of a table's check (R85, R87, R205, R285, R303, R310, R374) -/

namespace Sys2Proof.Machine

open Sys2Proof.Safety

/-! #### TBL_STAT (R87) -/

theorem Dev.tblShow_count (s : Dev) (a : Nat) (i : TblImage) : (s.tblShow a i).get ⟨a, 31, 16⟩ = i.count % 2 ^ 16 := by
  rw [Dev.tblShow, Dev.get_set_apart _ _ _ _ rfl rfl (by simp [Field.apart])]
  exact Dev.get_set_same _ _ _ rfl

theorem Dev.tblShow_version (s : Dev) (a : Nat) (i : TblImage) : (s.tblShow a i).get ⟨a, 15, 8⟩ = i.version % 2 ^ 8 := Dev.get_set_same _ _ _ rfl

theorem Dev.tblShow_rd (s : Dev) {a b : Nat} (i : TblImage) (h : b ≠ a) : (s.tblShow a i).rd b = s.rd b := (Dev.rd_set_ne h).trans (Dev.rd_set_ne h)

theorem Dev.tblReject_reason (s : Dev) (a : Nat) {reason : Nat} (h : reason ≤ 9) : (s.tblReject a reason).get ⟨a, 7, 4⟩ = reason := by
  rw [Dev.tblReject, Dev.get_set_apart _ _ _ _ rfl rfl (by simp [Field.apart])]
  exact Dev.get_set_lt _ _ _ rfl (Nat.lt_of_le_of_lt h (show 9 < 2 ^ 4 by decide))

theorem Dev.tblReject_err (s : Dev) (a reason : Nat) : (s.tblReject a reason).on ⟨a, 3, 3⟩ = true := Dev.on_set_one _ _ rfl

/-- TBL_STAT at `a` shows the image in force. -/
def Dev.tblShows (s : Dev) (a : Nat) (i : TblImage) : Prop := s.get ⟨a, 31, 16⟩ = i.count % 2 ^ 16 ∧ s.get ⟨a, 15, 8⟩ = i.version % 2 ^ 8

/-- TBL_STAT at `a` shows a rejection. -/
def Dev.tblRejected (s : Dev) (a reason : Nat) : Prop := s.get ⟨a, 7, 4⟩ = reason ∧ s.on ⟨a, 3, 3⟩ = true

theorem Dev.tblShow_shows (s : Dev) (a : Nat) (i : TblImage) : (s.tblShow a i).tblShows a i := ⟨s.tblShow_count a i, s.tblShow_version a i⟩

theorem Dev.tblReject_rejected (s : Dev) (a : Nat) {reason : Nat} (h : reason ≤ 9) : (s.tblReject a reason).tblRejected a reason :=
  ⟨s.tblReject_reason a h, s.tblReject_err a reason⟩

theorem Dev.tblShows_of_rd {s t : Dev} {a : Nat} {i : TblImage} (hrd : t.rd a = s.rd a) (h : s.tblShows a i) : t.tblShows a i :=
  ⟨(Dev.get_congr hrd).trans h.1, (Dev.get_congr hrd).trans h.2⟩

theorem Dev.tblRejected_of_rd {s t : Dev} {a reason : Nat} (hrd : t.rd a = s.rd a) (h : s.tblRejected a reason) : t.tblRejected a reason :=
  ⟨(Dev.get_congr hrd).trans h.1, (Dev.on_congr hrd).trans h.2⟩

theorem Dev.tblShow_plc (s : Dev) (a : Nat) (i : TblImage) : (s.tblShow a i).plc = s.plc := by simp only [Dev.tblShow, Dev.set_plc]
theorem Dev.tblShow_mt (s : Dev) (a : Nat) (i : TblImage) : (s.tblShow a i).mt = s.mt := by simp only [Dev.tblShow, Dev.set_mt]
theorem Dev.tblReject_temps (s : Dev) (a reason : Nat) : (s.tblReject a reason).temps = s.temps := by simp only [Dev.tblReject, Dev.set_temps]
theorem Dev.tblReject_bill (s : Dev) (a reason : Nat) : (s.tblReject a reason).bill = s.bill := by simp only [Dev.tblReject, Dev.set_bill]
theorem Dev.tblReject_disc (s : Dev) (a reason : Nat) : (s.tblReject a reason).disc = s.disc := by simp only [Dev.tblReject, Dev.set_disc]
theorem Dev.tblReject_disp (s : Dev) (a reason : Nat) : (s.tblReject a reason).disp = s.disp := by simp only [Dev.tblReject, Dev.set_disp]
theorem Dev.tblReject_plc (s : Dev) (a reason : Nat) : (s.tblReject a reason).plc = s.plc := by simp only [Dev.tblReject, Dev.set_plc]

/-! #### What a table in force and an event leave alone -/

theorem Dev.rd_tempsPut (s : Dev) (l : List TempEntry) (a : Nat) : Dev.rd { s with temps := l } a = s.rd a := rfl
theorem Dev.rd_dispPut (s : Dev) (d : Disp) (a : Nat) : Dev.rd { s with disp := d } a = s.rd a := rfl
theorem Dev.rd_discUpd (s : Dev) (f : Disc → Disc) (a : Nat) : (s.discUpd f).rd a = s.rd a := rfl

theorem eventsOnly_tariff {s t : Dev} (h : eventsOnly s t) : t.bill.tariff = s.bill.tariff ∧ t.bill.tariffNext = s.bill.tariffNext := by
  obtain ⟨-, _, _, _, _, _, _, rfl⟩ := h
  exact ⟨rfl, rfl⟩

/-! #### The four tables whose image is taken as it is (R202, R285, R303, R310) -/

section
variable (s : Dev) (r : Nat × TblImage)

/-- The temperature table after a check with outcome `r`. -/
def Dev.tempTaken : Dev := if r.1 = 0 then { s.tblShow Reg.UCH_TBL_STAT r.2 with temps := r.2.entries.map tempEntry } else s.tblReject Reg.UCH_TBL_STAT r.1

/-- The tariff after a check with outcome `r`. -/
def Dev.tarTaken : Dev :=
  if r.1 = 0 then { s with bill := { s.bill with tariffNext := some r.2.entries } }.raise Pg.TARIFF 1 else (s.tblReject Reg.TARIFF_TBL_STAT r.1).raise Pg.TARIFF 2

/-- The sequence table after a check with outcome `r`. -/
def Dev.seqTaken : Dev :=
  if r.1 = 0 then (s.tblShow Reg.DISC_TBL_STAT r.2).discUpd fun d => { d with table := r.2.entries.map seqEntry } else s.tblReject Reg.DISC_TBL_STAT r.1

/-- The display table after a check with outcome `r`. -/
def Dev.dispTaken : Dev :=
  if r.1 = 0 then { s.tblShow Reg.DISP_TBL_STAT r.2 with disp := { s.disp with table := r.2.entries, page := 0 } }.raise Pg.DISP 3
  else (s.tblReject Reg.DISP_TBL_STAT r.1).raise Pg.DISP 4

end

section
variable {s : Dev} {r : Nat × TblImage} (h : r.1 = 0)
include h

theorem Dev.tempTaken_accepted :
    (s.tempTaken r).temps = r.2.entries.map tempEntry ∧ (s.tempTaken r).tblShows Reg.UCH_TBL_STAT r.2 ∧ ∀ a, a ≠ Reg.UCH_TBL_STAT → (s.tempTaken r).rd a = s.rd a := by
  rw [Dev.tempTaken, if_pos h]
  exact ⟨rfl, Dev.tblShows_of_rd (Dev.rd_tempsPut _ _ _) (s.tblShow_shows _ _), fun a ha => (Dev.rd_tempsPut _ _ a).trans (s.tblShow_rd _ ha)⟩

theorem Dev.tarTaken_accepted :
    (s.tarTaken r).bill.tariff = s.bill.tariff ∧ (s.tarTaken r).bill.tariffNext = some r.2.entries ∧
    (s.mainOn = true → natBit ((s.tarTaken r).get (Hdr.RAW Pg.TARIFF)) 1 = true) ∧ ∀ a, eventReg a = false → (s.tarTaken r).rd a = s.rd a := by
  rw [Dev.tarTaken, if_pos h]
  have hevents := Dev.raise_eventsOnly { s with bill := { s.bill with tariffNext := some r.2.entries } } Pg.TARIFF 1
  obtain ⟨htariff, hnext⟩ := eventsOnly_tariff hevents
  exact ⟨htariff, hnext, fun hon => Dev.raise_shows _ Pg.TARIFF ((Dev.mainOn_congr rfl).trans hon) (by decide), hevents.1⟩

theorem Dev.seqTaken_accepted :
    (s.seqTaken r).disc.table = r.2.entries.map seqEntry ∧ (s.seqTaken r).tblShows Reg.DISC_TBL_STAT r.2 ∧ ∀ a, a ≠ Reg.DISC_TBL_STAT → (s.seqTaken r).rd a = s.rd a := by
  rw [Dev.seqTaken, if_pos h]
  exact ⟨rfl, Dev.tblShows_of_rd (Dev.rd_discUpd _ _ _) (s.tblShow_shows _ _), fun a ha => (Dev.rd_discUpd _ _ a).trans (s.tblShow_rd _ ha)⟩

theorem Dev.dispTaken_accepted :
    (s.dispTaken r).disp = { s.disp with table := r.2.entries, page := 0 } ∧ (s.dispTaken r).tblShows Reg.DISP_TBL_STAT r.2 ∧
    ∀ a, a ≠ Reg.DISP_TBL_STAT → eventReg a = false → (s.dispTaken r).rd a = s.rd a := by
  rw [Dev.dispTaken, if_pos h]
  have hevents := Dev.raise_eventsOnly { s.tblShow Reg.DISP_TBL_STAT r.2 with disp := { s.disp with table := r.2.entries, page := 0 } } Pg.DISP 3
  have hrd {a : Nat} (he : eventReg a = false) := (hevents.1 a he).trans (Dev.rd_dispPut _ _ a)
  exact ⟨hevents.disp, Dev.tblShows_of_rd (hrd (by decide)) (s.tblShow_shows _ _), fun a ha he => (hrd he).trans (s.tblShow_rd _ ha)⟩

end

section
variable {s : Dev} {r : Nat × TblImage} (h : r.1 ≠ 0) (hle : r.1 ≤ 9)
include h hle

theorem Dev.tempTaken_rejected : (s.tempTaken r).temps = s.temps ∧ (s.tempTaken r).tblRejected Reg.UCH_TBL_STAT r.1 := by
  rw [Dev.tempTaken, if_neg h]
  exact ⟨Dev.tblReject_temps _ _ _, s.tblReject_rejected _ hle⟩

theorem Dev.tarTaken_rejected :
    (s.tarTaken r).bill.tariff = s.bill.tariff ∧ (s.tarTaken r).bill.tariffNext = s.bill.tariffNext ∧ (s.tarTaken r).tblRejected Reg.TARIFF_TBL_STAT r.1 := by
  rw [Dev.tarTaken, if_neg h]
  have hevents := (s.tblReject Reg.TARIFF_TBL_STAT r.1).raise_eventsOnly Pg.TARIFF 2
  obtain ⟨htariff, hnext⟩ := eventsOnly_tariff hevents
  rw [Dev.tblReject_bill] at htariff hnext
  exact ⟨htariff, hnext, Dev.tblRejected_of_rd (hevents.1 _ (by decide)) (s.tblReject_rejected _ hle)⟩

theorem Dev.seqTaken_rejected : (s.seqTaken r).disc.table = s.disc.table ∧ (s.seqTaken r).tblRejected Reg.DISC_TBL_STAT r.1 := by
  rw [Dev.seqTaken, if_neg h]
  exact ⟨congrArg Disc.table (Dev.tblReject_disc _ _ _), s.tblReject_rejected _ hle⟩

theorem Dev.dispTaken_rejected : (s.dispTaken r).disp = s.disp ∧ (s.dispTaken r).tblRejected Reg.DISP_TBL_STAT r.1 := by
  rw [Dev.dispTaken, if_neg h]
  have hevents := (s.tblReject Reg.DISP_TBL_STAT r.1).raise_eventsOnly Pg.DISP 4
  exact ⟨hevents.disp.trans (Dev.tblReject_disp _ _ _), Dev.tblRejected_of_rd (hevents.1 _ (by decide)) (s.tblReject_rejected _ hle)⟩

end

/-! #### The band plan (R374) -/

/-- The registers that a band plan coming into force may change: the plan's own, and those of PLCMAC and above. -/
def planReg (a : Nat) : Bool := decide (0x40037000 ≤ a) || a == Reg.PLCPHY_BP_INFO || a == Reg.PLCPHY_STAT

theorem planReg_above {a : Nat} (h : 0x40037000 ≤ a) : planReg a = true := by simp [planReg, h]

/-- Of the registers only those of `planReg` and what events change may differ. -/
def Dev.planned (s t : Dev) : Prop := Dev.framed (fun _ => ()) planReg s t

theorem Dev.planned_blind : Dev.blind fun _ : Dev => () := ⟨fun _ _ => rfl, fun _ _ _ => rfl⟩

theorem Dev.planned_set (s : Dev) (f : Field) (v : Nat) (h : planReg f.addr = true) : s.planned (s.set f v) := Dev.framed_set Dev.planned_blind s f v h

theorem Dev.planned_of_regs {s t : Dev} (h : t.regs = s.regs) : s.planned t := Dev.framed_of_regs rfl h

theorem Dev.nbRate_planned (s : Dev) (i : Nat) : s.planned (s.nbRate i) := by
  have htm : planReg (Reg.PLCMAC_NB_TM i) = true := planReg_above (by unfold Reg.PLCMAC_NB_TM; omega)
  have hrate : planReg (Reg.PLCMAC_NB_RATE i) = true := planReg_above (by unfold Reg.PLCMAC_NB_RATE; omega)
  have hlink : planReg (Reg.PLCMAC_NB_LINK i) = true := planReg_above (by unfold Reg.PLCMAC_NB_LINK; omega)
  have hmaps (t : Dev) (x y z : Nat) : t.planned (((t.set (Fld.PLCMAC_NB_TM_TXTMI i) x).set (Fld.PLCMAC_NB_TM_NBITS i) y).set (Fld.PLCMAC_NB_TM_RXTMI i) z) :=
    ((t.planned_set _ _ htm).trans (Dev.planned_set _ _ _ htm)).trans (Dev.planned_set _ _ _ htm)
  exact ((hmaps s _ _ _).trans (Dev.planned_set _ _ _ hrate)).trans (Dev.planned_set _ _ _ hlink)

theorem Dev.refreshStart_planned (s : Dev) (i : Nat) : s.planned (s.refreshStart i) :=
  Dev.framed_ite _ (fun _ => Dev.framed_refl s) fun _ => (Dev.planned_of_regs rfl).trans (Dev.framed_raise Dev.planned_blind _ _ _)

theorem Dev.mapsDrop_planned (s : Dev) : s.planned s.mapsDrop := by
  have hdrop (t : Dev) (i : Nat) : t.planned ((t.nbUpd i fun n => { n with tx := none, rx := none, rxOld := none, refSnr := none, negEnd := none, txMt := none }).nbRate i) :=
    Dev.framed.trans (t := t.nbUpd i _) (Dev.planned_of_regs rfl) (Dev.nbRate_planned _ i)
  have hstart (t : Dev) (i : Nat) : t.planned (if t.on (Fld.PLCMAC_NB_INFO_VALID i) then t.refreshStart i else t) :=
    Dev.framed_ite _ (fun _ => t.refreshStart_planned i) fun _ => Dev.framed_refl t
  have hlose : s.planned (s.rxLose fun f => f.tmi != 0) := Dev.planned_of_regs rfl
  exact (hlose.trans (Dev.framed_foldl _ _ (fun t i _ => hdrop t i) _)).trans (Dev.framed_foldl _ _ (fun t i _ => hstart t i) _)

theorem Dev.planApply_planned (s : Dev) (plan : List (Nat × Nat)) (id : Nat) : s.planned (s.planApply plan id) := by
  have hshow (t : Dev) (n : Nat) : t.planned (((t.set Fld.PLCPHY_BP_INFO_PLAN_ID id).set Fld.PLCPHY_BP_INFO_NDATA n).set Fld.PLCPHY_STAT_NOPLAN 0) :=
    ((t.planned_set _ _ (by decide)).trans (Dev.planned_set _ _ _ (by decide))).trans (Dev.planned_set _ _ _ (by decide))
  have hput : s.planned (s.planPut plan) := Dev.planned_of_regs rfl
  unfold Dev.planApply
  dsimp only
  generalize (dataCarriers plan).length = n
  exact (hput.trans (hshow _ n)).trans (Dev.mapsDrop_planned _)

theorem Dev.planDue_planned (s : Dev) : s.planned s.planDue := by
  unfold Dev.planDue
  split
  · exact Dev.framed_ite _ (fun _ => Dev.framed_refl s) fun _ => s.planApply_planned _ _
  · exact Dev.framed_refl s

/-- A plan that waits. -/
def Dev.planWaiting (s : Dev) (plan : List (Nat × Nat)) (id : Nat) : Dev := { s with plc := { s.plc with planNext := some (plan, id) } }

theorem Dev.planWaiting_plan (s : Dev) (plan : List (Nat × Nat)) (id : Nat) : (s.planWaiting plan id).plc.plan = s.plc.plan := rfl
theorem Dev.planWaiting_planNext (s : Dev) (plan : List (Nat × Nat)) (id : Nat) : (s.planWaiting plan id).plc.planNext = some (plan, id) := rfl

theorem Dev.bandTake_planned (s : Dev) (plan : List (Nat × Nat)) (id : Nat) : s.planned (s.bandTake plan id) :=
  Dev.framed.trans (t := s.planWaiting plan id) (Dev.planned_of_regs rfl) (Dev.planDue_planned _)

theorem Dev.bandTake_idle {s : Dev} (plan : List (Nat × Nat)) (id : Nat) (h : s.plc.txTo ≤ s.mt) :
    (s.bandTake plan id).plc.plan = some plan ∧ (s.bandTake plan id).plc.planNext = none :=
  (Dev.planDue_applies (s := s.planWaiting plan id) rfl h).symm

theorem Dev.bandTake_sending {s : Dev} (plan : List (Nat × Nat)) (id : Nat) (h : s.mt < s.plc.txTo) : s.bandTake plan id = s.planWaiting plan id :=
  Dev.planDue_waits (.inr h)

/-- The band plan after a check with outcome `r`; `id` is the plan's number. -/
def Dev.bandTaken (s : Dev) (r : Nat × TblImage) (id : Nat) : Dev :=
  if r.1 = 0 then ((s.tblShow Reg.PLCPHY_TBL_STAT r.2).bandTake (r.2.entries.map bandEntry) id).raise Pg.PLCPHY 5
  else (s.tblReject Reg.PLCPHY_TBL_STAT r.1).raise Pg.PLCPHY 6

theorem Dev.bandTaken_plc {s : Dev} {r : Nat × TblImage} (id : Nat) (h : r.1 = 0) :
    (s.bandTaken r id).plc = ((s.tblShow Reg.PLCPHY_TBL_STAT r.2).bandTake (r.2.entries.map bandEntry) id).plc := by
  rw [Dev.bandTaken, if_pos h]
  exact (Dev.raise_eventsOnly _ _ _).plc

theorem Dev.bandTaken_idle {s : Dev} {r : Nat × TblImage} (id : Nat) (h : r.1 = 0) (ht : s.plc.txTo ≤ s.mt) :
    (s.bandTaken r id).plc.plan = some (r.2.entries.map bandEntry) ∧ (s.bandTaken r id).plc.planNext = none := by
  rw [Dev.bandTaken_plc id h]
  exact Dev.bandTake_idle _ _ (by rwa [Dev.tblShow_plc, Dev.tblShow_mt])

theorem Dev.bandTaken_sending {s : Dev} {r : Nat × TblImage} (id : Nat) (h : r.1 = 0) (ht : s.mt < s.plc.txTo) :
    (s.bandTaken r id).plc.plan = s.plc.plan ∧ (s.bandTaken r id).plc.planNext = some (r.2.entries.map bandEntry, id) := by
  rw [Dev.bandTaken_plc id h, Dev.bandTake_sending _ _ (by rwa [Dev.tblShow_plc, Dev.tblShow_mt])]
  exact ⟨(Dev.planWaiting_plan _ _ _).trans (congrArg Plc.plan (Dev.tblShow_plc _ _ _)), Dev.planWaiting_planNext _ _ _⟩

theorem Dev.bandTaken_shows {s : Dev} {r : Nat × TblImage} (id : Nat) (h : r.1 = 0) : (s.bandTaken r id).tblShows Reg.PLCPHY_TBL_STAT r.2 := by
  rw [Dev.bandTaken, if_pos h]
  have hframe := (Dev.bandTake_planned (s.tblShow Reg.PLCPHY_TBL_STAT r.2) (r.2.entries.map bandEntry) id).trans (Dev.framed_raise Dev.planned_blind _ Pg.PLCPHY 5)
  exact Dev.tblShows_of_rd (hframe.2 _ (by decide) (by decide)) (s.tblShow_shows _ _)

theorem Dev.bandTaken_rejected {s : Dev} {r : Nat × TblImage} (id : Nat) (h : r.1 ≠ 0) (hle : r.1 ≤ 9) :
    (s.bandTaken r id).plc = s.plc ∧ (s.bandTaken r id).tblRejected Reg.PLCPHY_TBL_STAT r.1 := by
  rw [Dev.bandTaken, if_neg h]
  have hevents := (s.tblReject Reg.PLCPHY_TBL_STAT r.1).raise_eventsOnly Pg.PLCPHY 6
  exact ⟨hevents.plc.trans (Dev.tblReject_plc _ _ _), Dev.tblRejected_of_rd (hevents.1 _ (by decide)) (s.tblReject_rejected _ hle)⟩

end Sys2Proof.Machine

/-! ### The five table loads (R85–R87, R205, R303, R310, R374) -/

namespace Sys2Proof.Machine

open Sys2Proof.Safety

section
variable {mem : List Host.Cell} {s : Dev} {l : TblLoad}

theorem Dev.loadEnd_temp (h : l.stat = Reg.UCH_TBL_STAT) :
    Dev.loadEnd mem s l = s.tempTaken (tblCheck mem l.src { type := 3, esize := 16, area := 4096, locked := l.locked, content := tempContent }) := by
  rw [Dev.loadEnd, if_pos h]
  rfl

theorem Dev.loadEnd_tariff (h : l.stat = Reg.TARIFF_TBL_STAT) :
    Dev.loadEnd mem s l = s.tarTaken (tblCheck mem l.src { type := 1, esize := 32, area := 16384, locked := l.locked, content := tarContent }) := by
  rw [Dev.loadEnd, h, if_neg (by decide), if_pos rfl]
  rfl

theorem Dev.loadEnd_sequence (h : l.stat = Reg.DISC_TBL_STAT) :
    Dev.loadEnd mem s l = s.seqTaken (tblCheck mem l.src { type := 4, esize := 8, area := 1024, content := seqContent }) := by
  rw [Dev.loadEnd, h, if_neg (by decide), if_neg (by decide), if_pos rfl]
  rfl

theorem Dev.loadEnd_display (h : l.stat = Reg.DISP_TBL_STAT) :
    Dev.loadEnd mem s l = s.dispTaken (tblCheck mem l.src { type := 2, esize := 20, area := 8192, content := dispContent }) := by
  rw [Dev.loadEnd, h, if_neg (by decide), if_neg (by decide), if_neg (by decide), if_pos rfl]
  rfl

theorem Dev.loadEnd_band (h : l.stat = Reg.PLCPHY_TBL_STAT) :
    Dev.loadEnd mem s l = s.bandTaken (tblCheck mem l.src { type := 5, esize := 8, area := 4096, emptyOk := l.emptyOk, content := bandContent })
      (leAt (Memory.readAll mem l.src 16) 12 4 % 65536) := by
  rw [Dev.loadEnd, h, if_neg (by decide), if_neg (by decide), if_neg (by decide), if_neg (by decide)]
  rfl

end

end Sys2Proof.Machine

namespace Sys2Proof.Certificates

open Sys2Proof Sys2Proof.Machine Sys2Proof.Safety

/-- Settles O8: a GO is `Dev.tblGo`, which begins the check or refuses; a check's end is taken by its table, by the outcome of `tblCheck`. -/
theorem tableLoadCommandsComplete : Obligations.TableLoadCommandsComplete := by
  unfold Obligations.TableLoadCommandsComplete
  refine ⟨fun s m v hl hgo hfree => ?_, fun s m v hl hgo hfree => ?_, fun s m v hl hgo hfree => ?_, fun s m v hl hgo hfree => ?_,
    fun s m v hl hgo ho hfree => bandPlanLoad_begins hl hgo ho hfree, fun s m v hgo => ⟨fun hl => ?_, fun hl => ?_, fun hl => ?_, fun hl => ?_⟩,
    fun s m v hgo => ⟨fun hl hbusy => ?_, fun hl hbusy => ?_, fun hl hbusy => ?_, fun hl hbusy => ?_, fun hl ho hbusy => bandPlanLoad_busy hl hgo ho hbusy⟩,
    fun s m v hl hlock => by rw [exec_bandPlanLoad hl, Dev.bpLoad_locked hlock],
    fun s m a ha => s.shownWord_loading m ha, fun s mem => s.loadsOver_loading mem,
    fun s mem l hstat => ?temp, fun s mem l hstat => ?tariff, fun s mem l hstat => ?sequence, fun s mem l hstat => ?display, fun s mem l hstat => ?band⟩
  · rw [exec_temperatureTableLoad hl, Dev.tempGo_go hgo, Dev.tblGo_free hfree, Dev.tblBegun]
  · rw [exec_tariffTableLoad hl, Dev.tarGo_go hgo, Dev.tblGo_free hfree, Dev.tblBegun]
  · rw [exec_sequenceTableLoad hl, Dev.seqGo_go hgo, Dev.tblGo_free hfree, Dev.tblBegun]
  · rw [exec_displayTableLoad hl, Dev.dispGo_go hgo, Dev.tblGo_free hfree, Dev.tblBegun]
  · rw [exec_temperatureTableLoad hl, Dev.tempGo_idle hgo]
  · rw [exec_tariffTableLoad hl, Dev.tarGo_idle hgo]
  · rw [exec_sequenceTableLoad hl, Dev.seqGo_idle hgo]
  · rw [exec_displayTableLoad hl, Dev.dispGo_idle hgo]
  · rw [exec_temperatureTableLoad hl, Dev.tempGo_go hgo, Dev.tblGo_busy hbusy, pageOf_UCH_TBL_STAT]
  · rw [exec_tariffTableLoad hl, Dev.tarGo_go hgo, Dev.tblGo_busy hbusy, pageOf_TARIFF_TBL_STAT]
  · rw [exec_sequenceTableLoad hl, Dev.seqGo_go hgo, Dev.tblGo_busy hbusy, pageOf_DISC_TBL_STAT]
  · rw [exec_displayTableLoad hl, Dev.dispGo_go hgo, Dev.tblGo_busy hbusy, pageOf_DISP_TBL_STAT]
  case temp =>
    rw [Dev.loadEnd_temp hstat]
    refine ⟨fun h => ?_, fun h => Dev.tempTaken_rejected h (tblCheck_reason_le _ _ _)⟩
    obtain ⟨htable, ⟨hcount, hversion⟩, hrd⟩ := Dev.tempTaken_accepted (s := s) h
    exact ⟨htable, hcount, hversion, hrd⟩
  case tariff =>
    rw [Dev.loadEnd_tariff hstat]
    refine ⟨fun h => ?_, fun h => Dev.tarTaken_rejected h (tblCheck_reason_le _ _ _)⟩
    obtain ⟨htable, hnext, hraw, hrd⟩ := Dev.tarTaken_accepted (s := s) h
    exact ⟨htable, hnext, hraw, fun a _ => hrd a⟩
  case sequence =>
    rw [Dev.loadEnd_sequence hstat]
    refine ⟨fun h => ?_, fun h => Dev.seqTaken_rejected h (tblCheck_reason_le _ _ _)⟩
    obtain ⟨htable, ⟨hcount, hversion⟩, hrd⟩ := Dev.seqTaken_accepted (s := s) h
    exact ⟨htable, hcount, hversion, hrd⟩
  case display =>
    rw [Dev.loadEnd_display hstat]
    refine ⟨fun h => ?_, fun h => Dev.dispTaken_rejected h (tblCheck_reason_le _ _ _)⟩
    obtain ⟨hdisp, ⟨hcount, hversion⟩, hrd⟩ := Dev.dispTaken_accepted (s := s) h
    exact ⟨by rw [hdisp], by rw [hdisp], hcount, hversion, hrd⟩
  case band =>
    rw [Dev.loadEnd_band hstat]
    refine ⟨fun h => ?_, fun h => Dev.bandTaken_rejected _ h (tblCheck_reason_le _ _ _)⟩
    obtain ⟨hcount, hversion⟩ := Dev.bandTaken_shows (s := s) _ h
    refine ⟨fun ht => Dev.bandTaken_idle _ h ht, fun ht => ?_, hcount, hversion⟩
    obtain ⟨hplan, hnext⟩ := Dev.bandTaken_sending (s := s) _ h ht
    exact ⟨hplan, by rw [hnext, Option.map_some]⟩

end Sys2Proof.Certificates

/-! ### What a front-end block's registers are (R92, R98–R105) -/

namespace Sys2Proof.Machine

open Sys2Proof.Safety

/-! #### The status register of a block -/

/-- The status register of block `b`. -/
def blkStat (b : Nat) : Nat := if b < 12 then Reg.HEAT_STAT b else Reg.UGRP_STAT

theorem Fld.BLK_BUSY_eq (b : Nat) : Fld.BLK_BUSY b = ⟨blkStat b, 8, 8⟩ := by unfold Fld.BLK_BUSY blkStat; split <;> rfl
theorem Fld.BLK_ISOACT_eq (b : Nat) : Fld.BLK_ISOACT b = ⟨blkStat b, 4, 4⟩ := by unfold Fld.BLK_ISOACT blkStat; split <;> rfl
theorem Fld.BLK_STVALID_eq (b : Nat) : Fld.BLK_STVALID b = ⟨blkStat b, 3, 3⟩ := by unfold Fld.BLK_STVALID blkStat; split <;> rfl
theorem Fld.BLK_REFERR_eq (b : Nat) : Fld.BLK_REFERR b = ⟨blkStat b, 2, 2⟩ := by unfold Fld.BLK_REFERR blkStat; split <;> rfl
theorem Fld.BLK_REFOK_eq (b : Nat) : Fld.BLK_REFOK b = ⟨blkStat b, 1, 1⟩ := by unfold Fld.BLK_REFOK blkStat; split <;> rfl
theorem Fld.BLK_REFON_eq (b : Nat) : Fld.BLK_REFON b = ⟨blkStat b, 0, 0⟩ := by unfold Fld.BLK_REFON blkStat; split <;> rfl

theorem blkStat_injective {b k : Nat} (hb : b < 13) (hk : k < 13) (h : blkStat b = blkStat k) : b = k := by
  unfold blkStat Reg.HEAT_STAT Reg.UGRP_STAT at h
  split at h <;> split at h <;> omega

theorem eventReg_blkStat {b : Nat} (h : b < 13) : eventReg (blkStat b) = false := by
  revert b
  decide

/-! #### The sensor's and the reference's registers of a block -/

/-- The temperature register of block `b`. -/
def blkTemp (b : Nat) : Nat := if b < 12 then Reg.HEAT_TEMP b else Reg.UGRP_TEMP

theorem Fld.BLK_T_eq (b : Nat) : Fld.BLK_T b = ⟨blkTemp b, 15, 0⟩ := by unfold Fld.BLK_T blkTemp; split <;> rfl
theorem Fld.BLK_TVALID_eq (b : Nat) : Fld.BLK_TVALID b = ⟨blkTemp b, 16, 16⟩ := by unfold Fld.BLK_TVALID blkTemp; split <;> rfl

theorem eventReg_blkTemp {b : Nat} (h : b < 13) : eventReg (blkTemp b) = false := by
  revert b
  decide

/-- The register of block `b` that shows its reference's distance from the median. -/
def blkRefDev (b : Nat) : Nat := if b < 12 then Reg.HEAT_REF_DEV b else Reg.UGRP_REF_DEV

theorem Fld.BLK_REFDEV_eq (b : Nat) : Fld.BLK_REFDEV b = ⟨blkRefDev b, 15, 0⟩ := by unfold Fld.BLK_REFDEV blkRefDev; split <;> rfl

theorem blkRefDev_injective {b k : Nat} (hb : b < 13) (hk : k < 13) (h : blkRefDev b = blkRefDev k) : b = k := by
  unfold blkRefDev Reg.HEAT_REF_DEV Reg.UGRP_REF_DEV at h
  split at h <;> split at h <;> omega

/-! #### The fields that a heat's page names -/

section
variable {b : Nat} (h : b < 12)
include h

theorem blkPage_heat : blkPage b = Pg.HEAT b := if_pos h
theorem isoReg_heat : isoReg b = Reg.HEAT_ISO b := if_pos h
theorem blkStat_heat : blkStat b = Reg.HEAT_STAT b := if_pos h
theorem Fld.BLK_BUSY_heat : Fld.BLK_BUSY b = Fld.HEAT_STAT_APPLY_BUSY b := if_pos h
theorem Fld.BLK_EN_heat : Fld.BLK_EN b = Fld.HEAT_LANE_EN_EN b := if_pos h

end

/-! #### A block's and a reference's state -/

theorem Dev.blk_congr {s t : Dev} {b : Nat} (h : t.fe.blocks = s.fe.blocks) : t.blk b = s.blk b := by
  rw [Dev.blk, h, ← Dev.blk]

theorem Dev.blk_blkUpd {s : Dev} {b : Nat} (f : Block → Block) (h : b < s.fe.blocks.length) : (s.blkUpd b f).blk b = f (s.blk b) := nth_updAt_same _ _ _ _ h

theorem Dev.vref_congr {s t : Dev} {r : Nat} (h : t.fe = s.fe) : t.vref r = s.vref r := by
  rw [Dev.vref, h, ← Dev.vref]

theorem Dev.vref_vrefUpd {s : Dev} {r : Nat} (f : VRef → VRef) (h : r < s.fe.refs.length) : (s.vrefUpd r f).vref r = f (s.vref r) := nth_updAt_same _ _ _ _ h

theorem Dev.vref_present {s : Dev} {r : Nat} (h : (s.vref r).suspect = true) : r < s.fe.refs.length := by
  by_contra hr
  have hnone : s.vref r = {} := List.getD_eq_default _ _ (Nat.le_of_not_lt hr)
  rw [hnone] at h
  cases h

@[simp] theorem Dev.chanUpd_regs (s : Dev) (c : Nat) (f : Chan → Chan) : (s.chanUpd c f).regs = s.regs := (s.chanUpd_parts c f).2.2

@[simp] theorem Dev.chanUpd_blocks (s : Dev) (c : Nat) (f : Chan → Chan) : (s.chanUpd c f).fe.blocks = s.fe.blocks := by
  unfold Dev.chanUpd
  split <;> rfl

/-! #### A field set in a fold, and signed fields -/

/-- What one step of a fold reaches and every other step keeps holds at its end. -/
theorem foldl_reaches {α σ : Type} {p : σ → Prop} {f : σ → α → σ} {l : List α} {x : α} (hx : x ∈ l) (hput : ∀ s, p (f s x))
    (hkeep : ∀ s, ∀ y ∈ l, y ≠ x → p s → p (f s y)) (s : σ) : p (l.foldl f s) := by
  obtain ⟨before, after, rfl⟩ := List.append_of_mem hx
  rw [List.foldl_append, List.foldl_cons]
  refine List.foldlRecOn after f (hput _) fun t ht y hy => ?_
  by_cases hyx : y = x
  · exact hyx ▸ hput t
  · exact hkeep t y (List.mem_append_right _ (List.mem_cons_of_mem _ hy)) hyx ht

theorem Dev.on_eq_one {s : Dev} {f : Field} (h : s.on f = true) : s.get f = 1 := beq_iff_eq.1 h

theorem Dev.get_set_one (s : Dev) (f : Field) (h : f.ok = true) : (s.set f 1).get f = 1 := Dev.on_eq_one (s.on_set_one f h)

theorem signedOf_unsignedOf_half {v : Int} (hlo : -32768 ≤ v) (hhi : v ≤ 32767) : signedOf (unsignedOf v 16) 16 = v := by
  unfold signedOf unsignedOf
  split <;> omega

theorem Dev.getI_congr {s t : Dev} {f : Field} (h : s.rd f.addr = t.rd f.addr) : s.getI f = t.getI f := by simp only [Dev.getI, Dev.get_congr h]

/-- A signed value that fits a 16-bit field is read back. -/
theorem Dev.getI_setI_half (s : Dev) (a : Nat) {v : Int} (hlo : -32768 ≤ v) (hhi : v ≤ 32767) : (s.setI ⟨a, 15, 0⟩ v).getI ⟨a, 15, 0⟩ = v := by
  have hfits : unsignedOf v 16 < 2 ^ 16 := (Int.toNat_lt (Int.emod_nonneg _ (by decide))).2 (Int.emod_lt_of_pos _ (by decide))
  rw [Dev.getI, Dev.setI, Dev.get_set_lt _ _ _ rfl hfits]
  exact signedOf_unsignedOf_half hlo hhi

theorem clampI_half (v : Int) : -32768 ≤ clampI (-32768) 32767 v ∧ clampI (-32768) 32767 v ≤ 32767 := by
  unfold clampI
  split_ifs <;> omega

end Sys2Proof.Machine

/-! ### Settings of a front-end block (R92, R102, R104, R105) -/

namespace Sys2Proof.Machine

open Sys2Proof.Safety

theorem Dev.rwlGate_open {s : Dev} {p : Nat} (a : Nat) (v : Word) (f : Dev → Dev) (h : s.frozenRwl p = false) : s.rwlGate p a v f = f s := by
  rw [Dev.rwlGate, h, if_neg Bool.false_ne_true]

/-! #### RSEL (R92) -/

/-- The word of RSEL that holds two thresholds. -/
def rselWord (up dn : Nat) : Word := putBits (putBits 0 24 16 dn) 8 0 up

theorem rselWord_up (up dn : Nat) : bitsOf (rselWord up dn) 8 0 = up % 2 ^ 9 := bitsOf_putBits_same _ _ _ _ (by decide) (by decide)

theorem rselWord_dn (up dn : Nat) : bitsOf (rselWord up dn) 24 16 = dn % 2 ^ 9 := by
  rw [rselWord, bitsOf_putBits_apart _ _ _ _ _ _ (by decide) (by decide) (by decide) (by decide)]
  exact bitsOf_putBits_same _ _ _ _ (by decide) (by decide)

/-- Two thresholds that RSEL takes: 160 to 480, the upper one at least 16 above the lower. -/
def rselOk (v : Word) : Prop := 160 ≤ bitsOf v 24 16 ∧ bitsOf v 24 16 + 16 ≤ bitsOf v 8 0 ∧ bitsOf v 8 0 ≤ 480

section
variable {s : Dev} {h : Nat} {v : Word} (hf : s.frozenRwl (Pg.HEAT h) = false)
include hf

theorem Dev.rselWrite_stores (hok : rselOk v) : s.rselWrite h v = s.wr (Reg.HEAT_RSEL h) (rselWord (bitsOf v 8 0) (bitsOf v 24 16)) := by
  rw [Dev.rselWrite, Dev.rwlGate_open _ _ _ hf]
  exact if_pos hok

theorem Dev.rselWrite_refused (hbad : ¬ rselOk v) : s.rselWrite h v = s.cfgErr (Pg.HEAT h) := by
  rw [Dev.rselWrite, Dev.rwlGate_open _ _ _ hf]
  exact if_neg hbad

end

/-! #### ISO (R102) -/

/-- The word of ISO that holds a mode and an amplitude. -/
def isoWord (mode amp : Nat) : Word := putBits (putBits 0 11 8 amp) 1 0 mode

theorem isoWord_mode {mode : Nat} (amp : Nat) (h : mode < 3) : bitsOf (isoWord mode amp) 1 0 = mode := by
  rw [isoWord, bitsOf_putBits_same _ _ _ _ (by decide) (by decide)]
  exact Nat.mod_eq_of_lt (Nat.lt_succ_of_lt h)

theorem Dev.isoSet_word (s : Dev) {b : Nat} (mode amp : Nat) (hb : b < 13) : (s.isoSet b mode amp).rd (isoReg b) = isoWord mode amp := by
  rcases s.isoSet_cases b mode amp (w := isoWord mode amp) rfl with ⟨hold, hsame⟩ | hevents
  · rw [hsame]
    exact hold.symm
  · exact (hevents.1 _ (isoReg_kept hb).2.1).trans (s.isoWritten_rd mode _ hb)

theorem Dev.isoSet_keeps (s : Dev) {a b : Nat} (mode amp : Nat) (hiso : a ≠ isoReg b) (hstat : a ≠ blkStat b) (he : eventReg a = false) :
    (s.isoSet b mode amp).rd a = s.rd a := by
  rcases s.isoSet_cases b mode amp rfl with ⟨-, hsame⟩ | hevents
  · rw [hsame]
  · have hact : a ≠ (Fld.BLK_ISOACT b).addr := by rwa [Fld.BLK_ISOACT_eq]
    rw [hevents.1 a he, Dev.isoWritten, Dev.rd, (Dev.blkRestart_parts _ b).2.2]
    exact (Dev.rd_set_ne hact).trans (Regs.rd_wr_ne hiso)

section
variable {s : Dev} {b : Nat} {v : Word} (hf : s.frozenRwl (blkPage b) = false)
include hf

theorem Dev.isoWrite_sets (hmode : bitsOf v 1 0 < 3) : s.isoWrite b v = s.isoSet b (bitsOf v 1 0) (bitsOf v 11 8) := by
  rw [Dev.isoWrite, Dev.rwlGate_open _ _ _ hf]
  exact if_neg (Nat.ne_of_lt hmode)

theorem Dev.isoWrite_refused (hmode : bitsOf v 1 0 = 3) : s.isoWrite b v = s.cfgErr (blkPage b) := by
  rw [Dev.isoWrite, Dev.rwlGate_open _ _ _ hf]
  exact if_pos hmode

end

/-! #### APPLY (R105) -/

/-- Both busy bits of a block, in its status register and in its page's header. -/
def Dev.applyShow (s : Dev) (b n : Nat) : Dev := (s.set (Fld.BLK_BUSY b) n).set (Hdr.BUSY (blkPage b)) n

/-- The channels of `n` wait for a sample, each with its record's values. -/
def Dev.applyQueue (s : Dev) (b n : Nat) : Dev :=
  s.blkUpd b fun k => { k with applying := k.applying ||| n, applyCal := ((blkChans b).filter fun c => natBit n (chBit c)).foldl (fun l c => assign l c (s.calOf c)) k.applyCal }

/-- The values that wait take effect, and none wait. -/
def Dev.applyTake (s : Dev) (b : Nat) : Dev :=
  ((s.blk b).applyCal.foldl (fun (t : Dev) (e : Nat × Cal) => t.applyChan e.1 e.2) s).blkUpd b fun k => { k with applying := 0, applyCal := [] }

theorem Dev.applyWrite_queues {s : Dev} {b : Nat} {v : Word} (hn : bitsOf v 15 0 ≠ 0) (hf : s.frozenRwl (blkPage b) = false) :
    s.applyWrite b v = (s.applyQueue b (bitsOf v 15 0)).applyShow b 1 := by
  rw [Dev.applyWrite, if_neg hn, hf, if_neg Bool.false_ne_true]
  rfl

theorem Dev.applyDone_takes {s : Dev} {b : Nat} (h : (s.blk b).applying ≠ 0) : s.applyDone b = ((s.applyTake b).applyShow b 0).raise (blkPage b) 4 := by
  rw [Dev.applyDone, if_neg h]
  rfl

/-- The status register lies beyond the page's header. -/
theorem blkStat_ne_hdr {b : Nat} (h : b < 13) : blkStat b ≠ (Hdr.BUSY (blkPage b)).addr := by
  revert b
  decide

theorem eventReg_busy {b : Nat} (h : b < 13) : eventReg (Hdr.BUSY (blkPage b)).addr = false := by
  revert b
  decide

theorem Dev.applyShow_shows (s : Dev) {b n : Nat} (hb : b < 13) (hn : n < 2) :
    (s.applyShow b n).get (Fld.BLK_BUSY b) = n ∧ (s.applyShow b n).get (Hdr.BUSY (blkPage b)) = n := by
  refine ⟨?_, Dev.get_set_lt _ _ _ rfl hn⟩
  rw [Fld.BLK_BUSY_eq, Dev.applyShow, Fld.BLK_BUSY_eq, Dev.get_congr (Dev.rd_set_ne (blkStat_ne_hdr hb))]
  exact Dev.get_set_lt _ _ _ rfl hn

theorem Dev.applyQueue_applying {s : Dev} {b n : Nat} (h : b < s.fe.blocks.length) : ((s.applyQueue b n).blk b).applying = (s.blk b).applying ||| n := by
  rw [Dev.applyQueue, Dev.blk_blkUpd _ h]

@[simp] theorem Dev.matchClamp_fe (s : Dev) (c : Nat) : (s.matchClamp c).fe = s.fe := by
  unfold Dev.matchClamp
  split
  · exact Dev.set_fe _ _ _
  · rfl

theorem Dev.applyChan_blocks (s : Dev) (c : Nat) (k : Cal) : (s.applyChan c k).fe.blocks = s.fe.blocks := by
  rw [Dev.applyChan, Dev.matchClamp_fe, Dev.chanUpd_blocks]

theorem Dev.applyTake_applying {s : Dev} {b : Nat} (h : b < s.fe.blocks.length) : ((s.applyTake b).blk b).applying = 0 := by
  have hblocks : ((s.blk b).applyCal.foldl (fun (t : Dev) (e : Nat × Cal) => t.applyChan e.1 e.2) s).fe.blocks = s.fe.blocks :=
    foldl_keep (fun t : Dev => t.fe.blocks) _ (fun t (e : Nat × Cal) => t.applyChan_blocks e.1 e.2) _ s
  rw [Dev.applyTake, Dev.blk_blkUpd _ (hblocks ▸ h)]

/-! #### LANE_EN (R104) -/

/-- A lane of heat `b` is bound that is on and that `n` would switch off. -/
def Dev.dropsBound (s : Dev) (b n : Nat) : Prop :=
  ∃ j, j < 16 ∧ natBit (s.get (Fld.HEAT_LANE_EN_EN b)) j = true ∧ natBit n j = false ∧ s.laneBound (16 * b + j) = true

/-- A lane that is switched restarts its settle (R93). -/
def Dev.laneSwitch (old n : Nat) (s : Dev) (c : Nat) : Dev := if natBit old (chBit c) != natBit n (chBit c) then s.chanUpd c fun k => k.restart false else s

@[simp] theorem Dev.laneSwitch_regs (old n : Nat) (s : Dev) (c : Nat) : (s.laneSwitch old n c).regs = s.regs := by
  unfold Dev.laneSwitch
  split
  · exact s.chanUpd_regs _ _
  · rfl

section
variable {s : Dev} {b : Nat} {v : Word} (hb : b < 12)
include hb

/-- The test of `Dev.laneEnable`, in a heat. -/
theorem Dev.dropsBound_iff {n : Nat} :
    ((blkChans b).any fun c => natBit (s.get (Fld.BLK_EN b)) (chBit c) && !natBit n (chBit c) && if c < 192 then s.laneBound c else s.grpBound ((c - 192) / 4)) = true ↔
      s.dropsBound b n := by
  have hlane {j : Nat} (hj : j < 16) : chBit (16 * b + j) = j ∧ 16 * b + j < 192 := by unfold chBit; omega
  simp only [blkChans, List.any_map, List.any_eq_true, List.mem_range, Function.comp, Dev.dropsBound, Bool.and_eq_true, Bool.not_eq_true', Fld.BLK_EN_heat hb]
  refine exists_congr fun j => and_congr_right fun hj => ?_
  rw [(hlane hj).1, if_pos (hlane hj).2, and_assoc]

theorem Dev.laneEnable_refused (h : s.dropsBound b (bitsOf v 15 0)) : s.laneEnable b v = s.cfgErr (Pg.HEAT b) := by
  rw [Dev.laneEnable, ← blkPage_heat hb]
  exact if_pos ((Dev.dropsBound_iff hb).2 h)

theorem Dev.laneEnable_stores (h : ¬ s.dropsBound b (bitsOf v 15 0)) : (s.laneEnable b v).regs = (s.set (Fld.HEAT_LANE_EN_EN b) (bitsOf v 15 0)).regs := by
  have hswitched : s.laneEnable b v = (blkChans b).foldl (Dev.laneSwitch (s.get (Fld.BLK_EN b)) (bitsOf v 15 0)) (s.set (Fld.BLK_EN b) (bitsOf v 15 0)) := by
    rw [Dev.laneEnable]
    refine (if_neg fun hdrop => h ((Dev.dropsBound_iff hb).1 hdrop)).trans ?_
    exact if_neg (Nat.ne_of_lt hb)
  rw [hswitched, foldl_keep Dev.regs _ (Dev.laneSwitch_regs _ _), Fld.BLK_EN_heat hb]

end

end Sys2Proof.Machine

namespace Sys2Proof.Certificates

open Sys2Proof Sys2Proof.Machine Sys2Proof.Safety

/-! #### The commands -/

section
variable {s : State} {m b : Nat} {v : Word}

theorem exec_rselWrite (hb : b < 12) (hl : lands s (Reg.HEAT_RSEL b)) : exec (.rselWrite m b v) s = .next { s with toDev := s.toDev.rselWrite b v } := by
  refine (wrAct_eq m _ v s _ hl).trans ?_
  rw [if_pos hb]

theorem exec_isoWrite (hb : b < 13) (hl : lands s (isoReg b)) : exec (.isoWrite m b v) s = .next { s with toDev := s.toDev.isoWrite b v } := by
  refine (wrAct_eq m _ v s _ hl).trans ?_
  rw [if_pos hb]

theorem exec_applyPush (hb : b < 12) (hl : lands s (Reg.HEAT_APPLY b)) : exec (.applyPush m b v) s = .next { s with toDev := s.toDev.applyWrite b v } := by
  refine (wrAct_eq m _ v s _ ((if_pos hb).symm ▸ hl)).trans ?_
  rw [if_pos (Nat.lt_succ_of_lt hb)]

theorem exec_applyDone (hb : b < 13) (hon : s.mainOn = true) : exec (.applyDone b) s = .next { s with toDev := s.toDev.applyDone b } := by
  have hact : exec (.applyDone b) s = execApplyDone b s := rfl
  rw [hact, execApplyDone, mainAct_eq _ _ hon, if_pos hb]

theorem exec_laneEnableWrite (hb : b < 12) (hl : lands s (Reg.HEAT_LANE_EN b)) : exec (.laneEnableWrite m b v) s = .next { s with toDev := s.toDev.laneEnable b v } := by
  refine (wrAct_eq m _ v s _ ((if_pos hb).symm ▸ hl)).trans ?_
  rw [if_pos (Nat.lt_succ_of_lt hb)]

theorem isoWrite_completes (hb : b < 13) (hl : lands s (isoReg b)) (hf : s.frozenRwl (blkPage b) = false) (hmode : bitsOf v 1 0 < 3) :
    completes (.isoWrite m b v) s fun t =>
      keepsQueue s t ∧ bitsOf (t.rd (isoReg b)) 1 0 = bitsOf v 1 0 ∧ ∀ a, a ≠ isoReg b → a ≠ blkStat b → eventReg a = false → t.rd a = s.rd a := by
  have hexec : exec (.isoWrite m b v) s = .next { s with toDev := s.toDev.isoSet b (bitsOf v 1 0) (bitsOf v 11 8) } := by
    rw [exec_isoWrite hb hl, Dev.isoWrite_sets hf hmode]
  refine ⟨_, hexec, ⟨rfl, rfl⟩, ?_, fun a hiso hstat he => s.isoSet_keeps _ _ hiso hstat he⟩
  rw [Dev.isoSet_word _ _ _ hb]
  exact isoWord_mode _ hmode

end

/-- Settles O9: each write is stored or refused by its own rule; APPLY's wait is a block's `applying`, shown by both busy bits. -/
theorem frontEndWritesComplete : Obligations.FrontEndWritesComplete := by
  unfold Obligations.FrontEndWritesComplete
  refine ⟨fun s m h v hh hl hf hdn hgap hup => ?rsel, fun s m h v hh hl hf hbad => ?rselRefused, fun s m b v hb hl hf hmode => ?iso, fun s m v hl hf hmode => ?isoU,
    fun s m b v hb hl hf hmode => ?isoRefused, fun s m b v hb hl hn hf hlen => ?apply, fun s b hb hon hn hlen => ?applied,
    fun s m b v hb hl hdrop => ?laneRefused, fun s m b v hb hl hkeep => ?lane⟩
  case rsel =>
    have hexec := exec_rselWrite (m := m) (v := v) hh hl
    rw [Dev.rselWrite_stores hf ⟨hdn, hgap, hup⟩] at hexec
    refine ⟨_, hexec, ⟨rfl, rfl⟩, ?_, ?_, fun a ha => Dev.rd_wr_ne ha⟩
    · exact (Dev.get_wr_same _ (Fld.HEAT_RSEL_UP h) _).trans ((rselWord_up _ _).trans (Nat.mod_eq_of_lt (bitsOf_lt v 8 0)))
    · exact (Dev.get_wr_same _ (Fld.HEAT_RSEL_DN h) _).trans ((rselWord_dn _ _).trans (Nat.mod_eq_of_lt (bitsOf_lt v 24 16)))
  case rselRefused => rw [exec_rselWrite hh hl, Dev.rselWrite_refused hf (by unfold rselOk; omega)]
  case iso =>
    have hdone := isoWrite_completes (m := m) (Nat.lt_succ_of_lt hb) ((isoReg_heat hb).symm ▸ hl) ((blkPage_heat hb).symm ▸ hf) hmode
    rwa [isoReg_heat hb, blkStat_heat hb] at hdone
  case isoU => exact isoWrite_completes (b := 12) (by decide) hl hf hmode
  case isoRefused =>
    rw [exec_isoWrite (Nat.lt_succ_of_lt hb) ((isoReg_heat hb).symm ▸ hl), Dev.isoWrite_refused ((blkPage_heat hb).symm ▸ hf) hmode, blkPage_heat hb]
  case apply =>
    have hexec := exec_applyPush (m := m) (v := v) hb hl
    rw [Dev.applyWrite_queues hn ((blkPage_heat hb).symm ▸ hf)] at hexec
    have hshown := (s.toDev.applyQueue b (bitsOf v 15 0)).applyShow_shows (Nat.lt_succ_of_lt hb) (n := 1) (by decide)
    rw [Fld.BLK_BUSY_heat hb, blkPage_heat hb] at hshown
    exact ⟨_, hexec, ⟨rfl, rfl⟩, hshown.1, hshown.2, Dev.applyQueue_applying hlen⟩
  case applied =>
    have hb13 : b < 13 := Nat.lt_succ_of_lt hb
    have hexec := exec_applyDone hb13 hon
    rw [Dev.applyDone_takes hn] at hexec
    have hevents := ((s.toDev.applyTake b).applyShow b 0).raise_eventsOnly (blkPage b) 4
    obtain ⟨hbusy, hpage⟩ := (s.toDev.applyTake b).applyShow_shows hb13 (n := 0) (by decide)
    refine ⟨_, hexec, ⟨rfl, rfl⟩, ?_, ?_, ?_⟩
    · rw [← Fld.BLK_BUSY_heat hb]
      exact (hevents.get (by rw [Fld.BLK_BUSY_eq]; exact eventReg_blkStat hb13)).trans hbusy
    · rw [← blkPage_heat hb]
      exact (hevents.get (eventReg_busy hb13)).trans hpage
    · exact (congrArg Block.applying (Dev.blk_congr (congrArg Fe.blocks hevents.fe))).trans (Dev.applyTake_applying hlen)
  case laneRefused => rw [exec_laneEnableWrite hb hl, Dev.laneEnable_refused hb hdrop]
  case lane =>
    have hstays : ¬ s.toDev.dropsBound b (bitsOf v 15 0) := by
      rintro ⟨j, hj, hold, hnew, hbound⟩
      rcases hkeep j hj hold with h | h
      · exact absurd (hnew.symm.trans h) Bool.false_ne_true
      · exact absurd (h.symm.trans hbound) Bool.false_ne_true
    have hregs := Dev.laneEnable_stores hb hstays
    refine ⟨_, exec_laneEnableWrite hb hl, ⟨rfl, rfl⟩, ?_, fun a ha => ?_⟩
    · exact (congrArg (Regs.get · _) hregs).trans (Dev.get_set_lt _ _ _ rfl (bitsOf_lt v 15 0))
    · exact (congrArg (Regs.rd · a) hregs).trans (Dev.rd_set_ne ha)

end Sys2Proof.Certificates

/-! ### References (R98, R99) -/

namespace Sys2Proof.Machine

open Sys2Proof.Safety

theorem mem_refBlocks_lt {r b : Nat} (hr : r < 4) (hb : b ∈ refBlocks r) : b < 13 := by
  unfold refBlocks at hb
  split at hb
  · simp only [List.mem_singleton] at hb
    omega
  · simp only [List.mem_map, List.mem_range] at hb
    omega

/-- The window check by the measured deviation: no injection is armed on a page that the reference serves. -/
theorem Dev.refBad_measured {s : Dev} {r : Nat} (dev : Int) (h : ∀ b ∈ refBlocks r, s.injArmed (blkPage b) 16 = false) :
    s.refBad r dev = (decide (dev < -10000 ∨ 10000 < dev), none) := by
  have hnone : ((refBlocks r).find? fun b => s.injArmed (blkPage b) 16) = none := List.find?_eq_none.2 fun b hb => Bool.not_eq_true _ ▸ h b hb
  rw [Dev.refBad, hnone, Bool.decide_or]

theorem Dev.raiseRef_eventsOnly (s : Dev) (r no : Nat) (inj live : Bool) : eventsOnly s (s.raiseRef r no inj live) :=
  eventsOnly_foldl _ (fun t _ => t.raiseInj_eventsOnly _ _ _ _) _ s

/-! #### What a reference shows -/

theorem Dev.refShow_fe (s : Dev) (r : Nat) : (s.refShow r).fe = s.fe :=
  foldl_keep Dev.fe _ (fun _ _ => (Dev.setB_fe _ _ _).trans (Dev.setB_fe _ _ _)) _ s

theorem Dev.refShow_ok (s : Dev) {r b : Nat} (hr : r < 4) (hb : b ∈ refBlocks r) : (s.refShow r).get (Fld.BLK_REFOK b) = (s.vref r).ok.toNat := by
  refine foldl_reaches (p := fun t : Dev => t.get (Fld.BLK_REFOK b) = (s.vref r).ok.toNat) hb (fun t => ?_) (fun t k hk hne ht => ?_) s
  · rw [Fld.BLK_REFOK_eq]
    exact Dev.get_setB_same _ _ _ rfl
  · have haddr : blkStat b ≠ blkStat k := fun e => hne (blkStat_injective (mem_refBlocks_lt hr hb) (mem_refBlocks_lt hr hk) e).symm
    rw [Fld.BLK_REFOK_eq] at ht ⊢
    rw [Fld.BLK_REFOK_eq, Fld.BLK_REFON_eq, Dev.get_congr ((Dev.rd_setB_ne haddr).trans (Dev.rd_setB_ne haddr)), ht]

theorem Dev.refShow_err (s : Dev) (r b : Nat) : (s.refShow r).get (Fld.BLK_REFERR b) = s.get (Fld.BLK_REFERR b) := by
  refine foldl_keep (fun t : Dev => t.get (Fld.BLK_REFERR b)) _ (fun t k => ?_) _ s
  simp only [Fld.BLK_REFERR_eq, Fld.BLK_REFOK_eq, Fld.BLK_REFON_eq]
  rw [Dev.get_setB_apart _ _ _ _ rfl rfl (by simp [Field.apart]), Dev.get_setB_apart _ _ _ _ rfl rfl (by simp [Field.apart])]

/-- REFERR on every page that a reference serves. -/
def Dev.refErrShow (s : Dev) (r : Nat) : Dev := (refBlocks r).foldl (fun (t : Dev) k => t.set (Fld.BLK_REFERR k) 1) s

theorem Dev.refErrShow_fe (s : Dev) (r : Nat) : (s.refErrShow r).fe = s.fe := foldl_keep Dev.fe _ (fun _ _ => Dev.set_fe _ _ _) _ s

theorem Dev.refErrShow_err (s : Dev) {r b : Nat} (hr : r < 4) (hb : b ∈ refBlocks r) : (s.refErrShow r).get (Fld.BLK_REFERR b) = 1 := by
  refine foldl_reaches (p := fun t : Dev => t.get (Fld.BLK_REFERR b) = 1) hb (fun t => ?_) (fun t k hk hne ht => ?_) s
  · rw [Fld.BLK_REFERR_eq]
    exact Dev.get_set_one _ _ rfl
  · have haddr : blkStat b ≠ blkStat k := fun e => hne (blkStat_injective (mem_refBlocks_lt hr hb) (mem_refBlocks_lt hr hk) e).symm
    rw [Fld.BLK_REFERR_eq] at ht ⊢
    rw [Fld.BLK_REFERR_eq, Dev.get_congr (Dev.rd_set_ne haddr), ht]

/-! #### The check, the re-check and the end of settling -/

/-- A measured reference outside its window, until the re-check. -/
def VRef.suspected (v : VRef) : VRef := { v with suspect := true, injected := none }

/-- A reference with a lasting fault. -/
def VRef.failed (v : VRef) : VRef := { v with suspect := false, injected := none, ok := false, lasting := true, tail := 0 }

/-- A reference whose re-check found it inside its window. -/
def VRef.cleared (v : VRef) : VRef := { v with suspect := false }

/-- A settled reference, after a lasting fault or not. -/
def VRef.settled (was : Bool) (v : VRef) : VRef := { v with ok := true, lasting := false, injected := none, tail := if was then 48 else 0 }

theorem VRef.uns_suspected (v : VRef) : v.suspected.uns = true := by simp [VRef.uns, VRef.suspected]

section
variable {s : Dev} {r : Nat} {dev : Int} (hinj : ∀ b ∈ refBlocks r, s.injArmed (blkPage b) 16 = false)
include hinj

theorem Dev.refCheck_outside (hon : (s.vref r).on = true) (hok : (s.vref r).ok = true) (hsus : (s.vref r).suspect = false) (hout : dev < -10000 ∨ 10000 < dev) :
    s.refCheck r dev = s.vrefUpd r VRef.suspected := by
  rw [Dev.refCheck, hon, hok, hsus, Dev.refBad_measured dev hinj, decide_eq_true hout]
  rfl

theorem Dev.refCheck_inside (hin : ¬ (dev < -10000 ∨ 10000 < dev)) : s.refCheck r dev = s := by
  rw [Dev.refCheck, Dev.refBad_measured dev hinj, decide_eq_false hin]
  exact ite_self _

theorem Dev.refRecheck_transient (hsus : (s.vref r).suspect = true) (hnone : (s.vref r).injected = none) (hin : ¬ (dev < -10000 ∨ 10000 < dev)) :
    s.refRecheck r dev = (s.vrefUpd r VRef.cleared).raiseRef r 2 false true := by
  rw [Dev.refRecheck, if_pos hsus, Dev.refBad_measured dev hinj, decide_eq_false hin, hnone]
  rfl

theorem Dev.refRecheck_lasting (hsus : (s.vref r).suspect = true) (hnone : (s.vref r).injected = none) (hout : dev < -10000 ∨ 10000 < dev) :
    s.refRecheck r dev = (((s.vrefUpd r VRef.failed).refErrShow r).refShow r).raiseRef r 1 false true := by
  rw [Dev.refRecheck, if_pos hsus, Dev.refBad_measured dev hinj, decide_eq_true hout, hnone]
  rfl

end

theorem Dev.refSettled_settles {s : Dev} {r : Nat} (hon : (s.vref r).on = true) (hok : (s.vref r).ok = false) :
    eventsOnly ((s.vrefUpd r (VRef.settled (s.vref r).lasting)).refShow r) (s.refSettled r) := by
  cases hwas : (s.vref r).lasting with
  | true =>
    have heq : s.refSettled r = ((s.vrefUpd r (VRef.settled true)).refShow r).raiseRef r 3 false true := by
      rw [Dev.refSettled, hon, hok, hwas]
      rfl
    exact heq ▸ Dev.raiseRef_eventsOnly _ _ _ _ _
  | false =>
    have heq : s.refSettled r = (s.vrefUpd r (VRef.settled false)).refShow r := by
      rw [Dev.refSettled, hon, hok, hwas]
      rfl
    exact heq ▸ eventsOnly_refl _

/-! #### The comparison with the median (R98) -/

theorem Dev.refCompare_shows (s : Dev) (a b c d : Int) {h : Nat} (hh : h < 13) :
    (s.refCompare [a, b, c, d]).getI (Fld.BLK_REFDEV h) = clampI (-32768) 32767 (roundDivI ([a, b, c, d].getD (refOf h) 0 - median4 [a, b, c, d]) 10) := by
  have hall : (List.range 4).map (fun r => [a, b, c, d].getD r 0) = [a, b, c, d] := rfl
  rw [Dev.refCompare, hall]
  generalize median4 [a, b, c, d] = med
  refine foldl_reaches (p := fun t : Dev => t.getI (Fld.BLK_REFDEV h) = clampI (-32768) 32767 (roundDivI ([a, b, c, d].getD (refOf h) 0 - med) 10))
    (List.mem_range.2 hh) (fun t => ?_) (fun t k hk hne ht => ?_) s
  · rw [Fld.BLK_REFDEV_eq]
    exact t.getI_setI_half _ (clampI_half _).1 (clampI_half _).2
  · have haddr : blkRefDev h ≠ blkRefDev k := fun e => hne (blkRefDev_injective hh (List.mem_range.1 hk) e).symm
    rw [Fld.BLK_REFDEV_eq] at ht ⊢
    rw [Fld.BLK_REFDEV_eq, Dev.getI_congr (Dev.rd_setI_ne haddr), ht]

/-! #### A sensor's reading (R101) -/

/-- A reading as a block's page shows it. -/
def Dev.tempShow (s : Dev) (b : Nat) (t : Int) : Dev := ((s.setI (Fld.BLK_T b) t).set (Fld.BLK_TVALID b) 1).set (Fld.BLK_STVALID b) 1

theorem blkTemp_ne_blkStat (b : Nat) : blkTemp b ≠ blkStat b := by
  unfold blkTemp blkStat Reg.HEAT_TEMP Reg.UGRP_TEMP Reg.HEAT_STAT Reg.UGRP_STAT
  split <;> omega

theorem Dev.tempShow_shows (s : Dev) (b : Nat) {t : Int} (hlo : -32768 ≤ t) (hhi : t ≤ 32767) :
    (s.tempShow b t).getI (Fld.BLK_T b) = t ∧ (s.tempShow b t).get (Fld.BLK_TVALID b) = 1 ∧ (s.tempShow b t).get (Fld.BLK_STVALID b) = 1 := by
  simp only [Dev.tempShow, Fld.BLK_T_eq, Fld.BLK_TVALID_eq, Fld.BLK_STVALID_eq]
  refine ⟨?_, ?_, Dev.get_set_one _ _ rfl⟩
  · rw [Dev.getI_congr (Dev.rd_set_ne (blkTemp_ne_blkStat b)), Dev.getI, Dev.get_set_apart _ _ _ _ rfl rfl (by simp [Field.apart])]
    exact s.getI_setI_half _ hlo hhi
  · rw [Dev.get_congr (Dev.rd_set_ne (blkTemp_ne_blkStat b))]
    exact Dev.get_set_one _ _ rfl

/-- A clamp shows in TC_CLAMP, on page UCH, above every register of the blocks. -/
theorem Dev.matchClamp_rd (s : Dev) (c : Nat) {a : Nat} (h : a < pageBase Pg.UCH) : (s.matchClamp c).rd a = s.rd a := by
  have hclamp : pageBase Pg.UCH ≤ Reg.UCH_TC_CLAMP (c / 32) := by
    unfold pageBase Pg.UCH Reg.UCH_TC_CLAMP
    omega
  have hne : a ≠ (Fld.UCH_TC_CLAMP_CH (c / 32)).addr := Nat.ne_of_lt (Nat.lt_of_lt_of_le h hclamp)
  unfold Dev.matchClamp
  split
  · exact Dev.rd_set_ne hne
  · rfl

theorem Dev.matchClamp_bist (s : Dev) (c : Nat) : (s.matchClamp c).bist = s.bist := by
  unfold Dev.matchClamp
  split
  · exact Dev.set_bist _ _ _
  · rfl

theorem blkTemp_lt {b : Nat} (h : b < 13) : blkTemp b < pageBase Pg.UCH := by
  revert b
  decide

theorem blkStat_lt {b : Nat} (h : b < 13) : blkStat b < pageBase Pg.UCH := by
  revert b
  decide

section
variable {s : Dev} {b : Nat} (t : Int) (hon : s.blkOn b = true)
include hon

theorem Dev.tempReading_rd {a : Nat} (h : a < pageBase Pg.UCH) : (s.tempReading b t).rd a = (s.tempShow b t).rd a := by
  rw [Dev.tempReading, if_pos hon]
  exact foldl_keep (fun u : Dev => u.rd a) _ (fun u c => u.matchClamp_rd c h) _ _

theorem Dev.tempReading_bist : (s.tempReading b t).bist = s.bist := by
  rw [Dev.tempReading, if_pos hon]
  exact foldl_keep Dev.bist _ Dev.matchClamp_bist _ _

end

/-- With no cooling time running, a reading only adds to a slice's highest (R474). -/
theorem Dev.cooled_rd {s : Dev} (h : s.bist.cooling = false) (a : Nat) : s.cooled.rd a = s.rd a := by
  unfold Dev.cooled
  split
  · rfl
  · rw [h]
    rfl

theorem Dev.tempIn_rd {s : Dev} {b a : Nat} (t : Int) (hon : s.blkOn b = true) (hcool : s.bist.cooling = false) (ha : a < pageBase Pg.UCH) (he : eventReg a = false) :
    (s.tempIn b t).rd a = (s.tempShow b t).rd a := by
  have hhot (c : Prop) [Decidable c] : eventsOnly (s.tempReading b t) (if c then (s.tempReading b t).raiseItem Pg.PWR 7 b else s.tempReading b t) := by
    split
    · exact Dev.raiseEv_eventsOnly _ _ _
    · exact eventsOnly_refl _
  have hread := hhot ((decide (2000 ≤ t) && decide ((s.blk b).temp < 2000)) = true)
  have hrest := congrArg Bist.cooling (hread.bist.trans (Dev.tempReading_bist t hon))
  rw [Dev.tempIn]
  exact (Dev.cooled_rd (hrest.trans hcool) a).trans ((hread.1 a he).trans (Dev.tempReading_rd t hon ha))

end Sys2Proof.Machine

namespace Sys2Proof.Certificates

open Sys2Proof Sys2Proof.Machine Sys2Proof.Safety

/-! #### The commands -/

section
variable {s : State} (hon : s.mainOn = true)
include hon

theorem exec_referenceCheck {r : Nat} (dev : Int) (hr : r < 4) : exec (.referenceCheck r dev) s = .next { s with toDev := s.toDev.refCheck r dev } := by
  refine (mainAct_eq s _ hon).trans ?_
  rw [if_pos hr]

theorem exec_referenceRecheck {r : Nat} (dev : Int) (hr : r < 4) : exec (.referenceRecheck r dev) s = .next { s with toDev := s.toDev.refRecheck r dev } := by
  refine (mainAct_eq s _ hon).trans ?_
  rw [if_pos hr]

theorem exec_referenceSettled {r : Nat} (hr : r < 4) : exec (.referenceSettled r) s = .next { s with toDev := s.toDev.refSettled r } := by
  refine (mainAct_eq s _ hon).trans ?_
  rw [if_pos hr]

theorem exec_referenceCompare (p : List Int) : exec (.referenceCompare p) s = .next { s with toDev := s.toDev.refCompare p } := by
  have hact : exec (.referenceCompare p) s = execReferenceCompare p s := rfl
  rw [hact, execReferenceCompare, mainAct_eq _ _ hon]

theorem exec_iretCheck_error {h : Nat} {mv : Int} (hh : h < 12) (hblk : s.blkOn h = true) (hout : mv < -150 ∨ 150 < mv) :
    exec (.iretCheck h mv) s = .next { s with toDev := (s.toDev.set (Fld.HEAT_STAT_IRETERR h) 1).raise (Pg.HEAT h) 6 } := by
  have hact : exec (.iretCheck h mv) s = execIretCheck h mv s := rfl
  rw [hact, execIretCheck, mainAct_eq _ _ hon, if_pos (by simp [hh, hblk, hout])]

theorem exec_iretCheck_inside (h : Nat) {mv : Int} (hlo : -150 ≤ mv) (hhi : mv ≤ 150) : exec (.iretCheck h mv) s = .next s := by
  have hact : exec (.iretCheck h mv) s = execIretCheck h mv s := rfl
  rw [hact, execIretCheck, mainAct_eq _ _ hon, if_neg (by simp [hlo, hhi])]

theorem exec_tempReading {b : Nat} (t : Int) (hb : b < 13) : exec (.tempReading b t) s = .next { s with toDev := s.toDev.tempIn b t } := by
  refine (mainAct_eq s _ hon).trans ?_
  rw [if_pos hb]

end

/-- Settles O10: a check by its window, a reference by its `VRef`, and what its pages show by the fold over the blocks it serves. -/
theorem referenceCommandsComplete : Obligations.ReferenceCommandsComplete := by
  unfold Obligations.ReferenceCommandsComplete
  refine ⟨fun s r dev hon hr hvon hok hsus hinj hout hlen => ?check, fun s r dev hon hr hinj hlo hhi => ?inside, fun s r dev hon hr hsus hnone hinj hlo hhi => ?transient,
    fun s r b dev hon hr hsus hnone hinj hout hb => ?lasting, fun s r b hon hr hvon hok hb hlen => ?settled, fun s a b c d h hon hh => ?compare,
    fun s h mv hon hh hblk hout => ?iret, fun s h mv hon hlo hhi => exec_iretCheck_inside hon h hlo hhi, fun s b t hon hb hblk hlo hhi hcool => ?temp⟩
  case check =>
    have hexec := exec_referenceCheck hon dev hr
    rw [Dev.refCheck_outside hinj hvon hok hsus hout] at hexec
    have hvref := Dev.vref_vrefUpd VRef.suspected hlen
    exact ⟨_, hexec, ⟨rfl, rfl⟩, congrArg VRef.suspect hvref, (congrArg VRef.uns hvref).trans (VRef.uns_suspected _), rfl⟩
  case inside => rw [exec_referenceCheck hon dev hr, Dev.refCheck_inside hinj (by omega)]
  case transient =>
    have hexec := exec_referenceRecheck hon dev hr
    rw [Dev.refRecheck_transient hinj hsus hnone (by omega)] at hexec
    have hevents := (s.toDev.vrefUpd r VRef.cleared).raiseRef_eventsOnly r 2 false true
    have hvref := (Dev.vref_congr (r := r) hevents.fe).trans (Dev.vref_vrefUpd _ (Dev.vref_present hsus))
    exact ⟨_, hexec, ⟨rfl, rfl⟩, congrArg VRef.suspect hvref, (congrArg VRef.ok hvref :), hevents.1⟩
  case lasting =>
    have hexec := exec_referenceRecheck hon dev hr
    rw [Dev.refRecheck_lasting hinj hsus hnone hout] at hexec
    have hstat := eventReg_blkStat (mem_refBlocks_lt hr hb)
    have hshown : ((s.toDev.vrefUpd r VRef.failed).refErrShow r).vref r = (s.vref r).failed :=
      (Dev.vref_congr (Dev.refErrShow_fe _ _)).trans (Dev.vref_vrefUpd _ (Dev.vref_present hsus))
    have hevents := (((s.toDev.vrefUpd r VRef.failed).refErrShow r).refShow r).raiseRef_eventsOnly r 1 false true
    have hvref := (Dev.vref_congr (r := r) (hevents.fe.trans (Dev.refShow_fe _ _))).trans hshown
    refine ⟨_, hexec, ⟨rfl, rfl⟩, congrArg VRef.suspect hvref, congrArg VRef.ok hvref, ?_, ?_⟩
    · rw [hevents.get (by rwa [Fld.BLK_REFERR_eq]), Dev.refShow_err]
      exact Dev.refErrShow_err _ hr hb
    · rw [hevents.get (by rwa [Fld.BLK_REFOK_eq]), Dev.refShow_ok _ hr hb, hshown]
      rfl
  case settled =>
    have hevents := Dev.refSettled_settles hvon hok
    have hshown : (s.toDev.vrefUpd r (VRef.settled (s.vref r).lasting)).vref r = (s.vref r).settled (s.vref r).lasting := Dev.vref_vrefUpd _ hlen
    have hvref := (Dev.vref_congr (r := r) (hevents.fe.trans (Dev.refShow_fe _ _))).trans hshown
    refine ⟨_, exec_referenceSettled hon hr, ⟨rfl, rfl⟩, congrArg VRef.ok hvref, congrArg VRef.tail hvref, ?_⟩
    rw [hevents.get (by rw [Fld.BLK_REFOK_eq]; exact eventReg_blkStat (mem_refBlocks_lt hr hb)), Dev.refShow_ok _ hr hb, hshown]
    rfl
  case compare => exact ⟨_, exec_referenceCompare hon _, ⟨rfl, rfl⟩, Dev.refCompare_shows _ a b c d hh⟩
  case iret =>
    have hevents := (s.toDev.set (Fld.HEAT_STAT_IRETERR h) 1).raise_eventsOnly (Pg.HEAT h) 6
    have hstat : eventReg (Reg.HEAT_STAT h) = false := blkStat_heat hh ▸ eventReg_blkStat (Nat.lt_succ_of_lt hh)
    exact ⟨_, exec_iretCheck_error hon hh hblk hout, ⟨rfl, rfl⟩, (hevents.get hstat).trans (Dev.get_set_one _ _ rfl),
      fun a ha he => (hevents.1 a he).trans (Dev.rd_set_ne ha)⟩
  case temp =>
    have htemp := Dev.tempIn_rd t hblk hcool (blkTemp_lt hb) (eventReg_blkTemp hb)
    have hstat := Dev.tempIn_rd t hblk hcool (blkStat_lt hb) (eventReg_blkStat hb)
    obtain ⟨ht, hvalid, hshown⟩ := s.toDev.tempShow_shows b hlo hhi
    rw [Fld.BLK_T_eq] at ht ⊢
    rw [Fld.BLK_TVALID_eq] at hvalid ⊢
    rw [Fld.BLK_STVALID_eq] at hshown ⊢
    exact ⟨_, exec_tempReading hon t hb, ⟨rfl, rfl⟩, (Dev.getI_congr htemp).trans ht, (Dev.get_congr htemp).trans hvalid, (Dev.get_congr hstat).trans hshown⟩

end Sys2Proof.Certificates

/-! ### What the records of a cycle leave of the front end (R142–R196) -/

namespace Sys2Proof.Machine

open Sys2Proof.Safety

@[simp] theorem Dev.ite_fe (c : Prop) [Decidable c] (s t : Dev) : (if c then s else t).fe = if c then s.fe else t.fe :=
  apply_ite Dev.fe c s t

theorem Dev.foldl_fe {α : Type} (f : Dev → α → Dev) (h : ∀ s x, (f s x).fe = s.fe) (l : List α) (s : Dev) :
    (l.foldl f s).fe = s.fe := foldl_keep Dev.fe f h l s

theorem Dev.forN_fe (f : Dev → Nat → Dev) (h : ∀ s x, (f s x).fe = s.fe) (n : Nat) (s : Dev) :
    (forN n s f).fe = s.fe := forN_keep Dev.fe f h n s

/-! #### The state's operations -/

section
variable (s : Dev)

@[simp] theorem Dev.podUpd_fe (l : Nat) (f : Pod → Pod) : (s.podUpd l f).fe = s.fe := rfl
@[simp] theorem Dev.setPodx_fe (l v : Nat) : (s.setPodx l v).fe = s.fe := rfl
@[simp] theorem Dev.raiseItem_fe (p no item : Nat) : (s.raiseItem p no item).fe = s.fe := Dev.raiseEv_fe ..

/-! #### Speculative events (R164–R166) -/

theorem Dev.capReconfirm_eventsOnly {s t : Dev} {e : Event} (h : s.capReconfirm e = some t) : eventsOnly s t := by
  unfold Dev.capReconfirm at h
  dsimp only at h
  split at h
  · cases h
    exact eventsOnly_trans (eventsOnly_cap s _) (Dev.raise_eventsOnly _ _ _)
  · cases h

/-- An event of a group's words is noted as speculative, and raised. -/
theorem Dev.raiseSpec_events (g : Nat) (e : Event) (live : Bool) :
    ∃ l, eventsOnly { s with meter := { s.meter with specEvents := l } } (s.raiseSpec g e live) := by
  unfold Dev.raiseSpec
  dsimp only
  generalize hnoted : (if e.spec then { s with meter := _ } else s) = s1
  have hspec : ∃ l, s1 = { s with meter := { s.meter with specEvents := l } } := by
    rw [← hnoted]
    split
    · exact ⟨_, rfl⟩
    · exact ⟨_, rfl⟩
  obtain ⟨l, rfl⟩ := hspec
  refine ⟨l, ?_⟩
  split
  · exact eventsOnly_refl _
  · split
    · next t ht =>
      split at ht
      · exact eventsOnly_trans (Dev.capReconfirm_eventsOnly ht) (Dev.raise0_eventsOnly _ _ _)
      · cases ht
    · exact Dev.raiseEv_eventsOnly _ _ _

@[simp] theorem Dev.raiseSpec_fe (g : Nat) (e : Event) (live : Bool) : (s.raiseSpec g e live).fe = s.fe := by
  obtain ⟨_, h⟩ := s.raiseSpec_events g e live
  exact h.fe

/-! #### Power quality (R229–R233) -/

@[simp] theorem Dev.pqStep_fe (g : Nat) (spec : Bool) (i : PqInst) : (s.pqStep g spec i).fe = s.fe := by
  have hraise (l : List Nat) (e : Nat → Event) (live : Bool) (t : Dev) : (l.foldl (fun (t : Dev) no => t.raiseSpec g (e no) live) t).fe = t.fe :=
    Dev.foldl_fe _ (fun _ _ => Dev.raiseSpec_fe ..) _ _
  simp only [Dev.pqStep, hraise, Dev.ite_fe, Dev.injUse_fe, ite_self]

@[simp] theorem Dev.pqEval_fe (g : Nat) (start : Int) (recs : List (Nat × Rec)) (spec replayed : Bool) :
    (s.pqEval g start recs spec replayed).fe = s.fe := by
  unfold Dev.pqEval
  split
  · exact Dev.foldl_fe _ (fun t i => t.pqStep_fe g spec i) _ _
  · rfl

@[simp] theorem Dev.pqDrop_fe (g : Nat) : (s.pqDrop g).fe = s.fe := rfl

@[simp] theorem Dev.pqWrite_fe (r : PqRec) : (s.pqWrite r).fe = s.fe := by
  unfold Dev.pqWrite
  dsimp only
  split <;> simp [Dev.coverAll]

@[simp] theorem Dev.pqShow_fe (g : Nat) (old new : PqGrp) : (s.pqShow g old new).fe = s.fe := by
  have hcount (f : Field) (n : Nat) (t : Dev) : (forN n t fun u _ => u.bump f).fe = t.fe := Dev.forN_fe _ (fun u _ => u.bump_fe f) n t
  simp only [Dev.pqShow, hcount, Dev.set_fe, Dev.setB_fe]

@[simp] theorem Dev.pqCommit_fe (g : Nat) : (s.pqCommit g).fe = s.fe := by
  unfold Dev.pqCommit
  dsimp only
  rw [Dev.foldl_fe _ fun t r => t.pqWrite_fe r]
  exact s.pqShow_fe g _ _

/-! #### Harmonic windows and their intervals (R217–R226) -/

@[simp] theorem Dev.harmShow_fe (g : Nat) : (s.harmShow g).fe = s.fe := rfl

@[simp] theorem Dev.harmMiss_fe (g : Nat) : (s.harmMiss g).fe = s.fe := by
  unfold Dev.harmMiss
  split <;> rfl

@[simp] theorem Dev.shortClose_fe (g flags : Nat) : (s.shortClose g flags).fe = s.fe := by
  simp [Dev.shortClose, Dev.aggCover, Dev.coverAll]

@[simp] theorem Dev.tenClose_fe (g flags next slot : Nat) : (s.tenClose g flags next slot).fe = s.fe := by
  unfold Dev.tenClose
  split
  · simp [Dev.aggCover, Dev.coverAll]
  · rfl

@[simp] theorem Dev.tenFlush_fe (g : Nat) : (s.tenFlush g).fe = s.fe := by
  unfold Dev.tenFlush
  split
  · exact Dev.tenClose_fe ..
  · rfl

@[simp] theorem Dev.harmMissed_fe (g : Nat) (inj live : Bool) (ev flags : Nat) : (s.harmMissed g inj live ev flags).fe = s.fe := by
  simp only [Dev.harmMissed, Dev.ite_fe, Dev.tenFlush_fe, Dev.shortClose_fe, Dev.raiseInj_fe, Dev.harmMiss_fe,
    Dev.bump_fe, ite_self]

@[simp] theorem Dev.harmDrop_fe (g : Nat) (cyc : Option Nat) (flags : Nat) : (s.harmDrop g cyc flags).fe = s.fe := by
  unfold Dev.harmDrop
  simp only [Dev.ite_fe, Dev.harmShow_fe, Dev.harmMissed_fe, Dev.hgUpd_fe, ite_self]

@[simp] theorem Dev.harmClose_fe (g first : Nat) (cover : List Nat) : (s.harmClose g first cover).fe = s.fe := by
  unfold Dev.harmClose
  simp only [Dev.ite_fe, Dev.harmShow_fe, Dev.harmMissed_fe, Dev.hgUpd_fe, Dev.injUse_fe, ite_self]

@[simp] theorem Dev.harmGather_fe (g c : Nat) (r : Rec) (b : ChanBlock) : (s.harmGather g c r b).fe = s.fe := by
  unfold Dev.harmGather
  simp only [Dev.ite_fe, Dev.harmShow_fe, Dev.harmDrop_fe, Dev.harmClose_fe, Dev.hgUpd_fe, ite_self]

/-! #### Pods and their life records (R249, R253, R254) -/

@[simp] theorem Dev.eyeSend_fe (wire : Nat) (sent back : List Byte) : (s.eyeSend wire sent back).fe = s.fe := rfl

@[simp] theorem Dev.eyeWrite_fe (wire id : Nat) (ws : List (Nat × List Byte)) (fault : Nat) : (s.eyeWrite wire id ws fault).1.fe = s.fe := by
  have hsent (back : List Byte) (l : List (Nat × List Byte)) : (l.foldl (fun (t : Dev) w => t.eyeSend wire (eyeWriteTx id w.1 w.2) back) s).fe = s.fe :=
    Dev.foldl_fe _ (fun _ _ => Dev.eyeSend_fe ..) _ _
  unfold Dev.eyeWrite
  cases ws.getLast? with
  | none => simp only [apply_ite Prod.fst, Dev.ite_fe, Dev.raise_fe, Dev.bump_fe, hsent, ite_self]
  | some w => simp only [apply_ite Prod.fst, Dev.ite_fe, Dev.raise_fe, Dev.bump_fe, Dev.eyeSend_fe, hsent, ite_self]

@[simp] theorem Dev.lifeWriteNow_fe (l : Nat) : (s.lifeWriteNow l).fe = s.fe := by
  have hat (t : Dev) (wire fault : Nat) : (t.lifeWriteAt wire l fault).fe = t.fe := by
    unfold Dev.lifeWriteAt
    split
    · rfl
    · simp only [Dev.ite_fe, Dev.setPodx_fe, Dev.podUpd_fe, Dev.eyeWrite_fe, ite_self]
  exact hat _ _ _

@[simp] theorem Dev.unverify_fe (l no : Nat) : (s.unverify l no).fe = s.fe := by
  unfold Dev.unverify
  split
  · rfl
  · split
    · rfl
    · exact Dev.raiseItem_fe ..

@[simp] theorem Dev.podCount_fe (l : Nat) (r : Rec) : (s.podCount l r).fe = s.fe := by
  unfold Dev.podCount
  split
  · rfl
  · simp only [Dev.ite_fe, Dev.unverify_fe, Dev.lifeWriteNow_fe, Dev.setPodx_fe, ite_self]

/-! #### Pulses and the currents of the disconnect positions (R210, R307) -/

@[simp] theorem Dev.pulseLane_fe (c : Nat) (r : Rec) : (s.pulseLane c r).fe = s.fe := by
  have hadd (t : Dev) (n e span : Nat) : (t.pulseAdd n e span).fe = t.fe := by
    unfold Dev.pulseAdd
    split <;> rfl
  unfold Dev.pulseLane
  split
  · rfl
  · exact Dev.forN_fe _ (fun t n => by simp only [Dev.ite_fe, hadd, ite_self]) _ _

@[simp] theorem Dev.dpCurrent_fe (lane : Nat) (r : Rec) : (s.dpCurrent lane r).fe = s.fe :=
  Dev.forN_fe _ (fun t n => by simp only [Dev.ite_fe, Dev.dpUpd_fe, ite_self]) _ _

/-! #### Records that commit (R157, R191, R195, R196) -/

theorem Dev.onPacer_fe (w : Nat) {f : Dev → Dev} (h : (f s).fe = s.fe) : (s.onPacer w f).fe = s.fe := by
  rw [Dev.onPacer, Dev.ite_fe, h, ite_self]

@[simp] theorem Dev.joinAt_fe (g w : Nat) (pos : Int) (volts : Bool) : (s.joinAt g w pos volts).fe = s.fe := by
  unfold Dev.joinAt
  dsimp only
  rw [Dev.pacerUpd_fe]
  exact foldl_keep Dev.fe _ (by intros; rfl) _ _

@[simp] theorem Dev.tcClamp_fe (c : Nat) : (s.tcClamp c).fe = s.fe := s.set_fe _ _

@[simp] theorem Dev.noteClamps_fe (w : Nat) (sc : List Scale) : (s.noteClamps w sc).fe = s.fe :=
  Dev.foldl_fe _ (fun t c => by simp only [Dev.ite_fe, Dev.tcClamp_fe, ite_self]) _ _

@[simp] theorem Dev.lastShow_fe (g w : Nat) (step : Int) (last : Option Int) : (s.lastShow g w step last).fe = s.fe :=
  s.onPacer_fe w (by cases last <;> rfl)

@[simp] theorem Dev.putLive_fe (c : Nat) (r : Rec) : (s.putLive c r).fe = s.fe := rfl
@[simp] theorem Dev.putCommitted_fe (c : Nat) (r : Rec) : (s.putCommitted c r).fe = s.fe := rfl
@[simp] theorem Dev.putHoldup_fe (c : Nat) (r : Rec) : (s.putHoldup c r).fe = s.fe := rfl

@[simp] theorem Dev.postRec_fe (bd : List Binding) (g c : Nat) (r : Rec) : (s.postRec bd g c r).fe = s.fe := by
  unfold Dev.postRec
  dsimp only
  generalize hcounted : (if c < 192 then s.podCount c r else { s with bill := _ }) = s1
  have hkept : s1.fe = s.fe := by
    rw [← hcounted]
    split
    · exact s.podCount_fe c r
    · rfl
  split
  · split <;> exact hkept
  · exact hkept

@[simp] theorem Dev.commitRec_fe (bd : List Binding) (g c : Nat) (r : Rec) (b : ChanBlock) : (s.commitRec bd g c r b).fe = s.fe := by
  unfold Dev.commitRec
  simp only [Dev.ite_fe, Dev.putHoldup_fe, Dev.harmGather_fe, Dev.pulseLane_fe, Dev.dpCurrent_fe, Dev.postRec_fe,
    Dev.putLive_fe, Dev.putCommitted_fe]
  exact ite_self _

@[simp] theorem Dev.holdupRest_fe : s.holdupRest.fe = s.fe := by
  have hstep (t : Dev) : t.holdupStep.fe = t.fe :=
    Dev.foldl_fe _ (fun u e => by rw [Dev.pulseLane_fe, Dev.postRec_fe]) _ _
  exact Dev.forN_fe _ (fun t _ => by rw [Dev.ite_fe, hstep, ite_self]) _ _

@[simp] theorem Dev.startCounted_fe (pos : Int) : (s.startCounted pos).fe = s.fe := by
  unfold Dev.startCounted
  split
  · rw [Dev.ite_fe, Dev.journal_fe]
    exact ite_self _
  · rfl

@[simp] theorem Dev.commitWork_fe (g w : Nat) (bd : List Binding) (cyc : Nat) (work : Work) (pos : Int) (f : Rec → Rec) :
    (s.commitWork g w bd cyc work pos f).fe = s.fe := by
  have hrecs (t : Dev) : (work.recs.foldl (fun (t : Dev) e => t.commitRec bd g e.1 { f e.2.1 with spec := false } e.2.2) t).fe = t.fe :=
    Dev.foldl_fe _ (fun _ _ => Dev.commitRec_fe ..) _ _
  simp only [Dev.commitWork, Dev.ite_fe, Dev.raise_fe, Dev.set_fe, Dev.trkUpd_fe, Dev.pqCommit_fe, Dev.set64_fe,
    Dev.pacerUpd_fe, hrecs, Dev.startCounted_fe, Dev.holdupRest_fe, ite_self]

/-! #### Partial records and fixed-rate blocks (R57, R125, R145) -/

@[simp] theorem Dev.partialOne_fe (g : Nat) (k : ClosePlan) (pos : Int) (gun : Bool) (w : Nat) :
    (s.partialOne g k pos gun w).fe = s.fe := by
  simp only [Dev.partialOne, Dev.ite_fe, Dev.commitWork_fe, Dev.pqEval_fe, Dev.pqDrop_fe, Dev.lastShow_fe,
    Dev.noteClamps_fe, Dev.pacerUpd_fe, ite_self]

@[simp] theorem Dev.blockBegin_fe (g : Nat) (pos : Int) (fresh : Bool) : (s.blockBegin g pos fresh).fe = s.fe := by
  unfold Dev.blockBegin
  dsimp only
  rw [Dev.foldl_fe _ fun t w => Dev.lastShow_fe .., Dev.trkUpd_fe, Dev.ite_fe,
    Dev.foldl_fe _ fun t w => Dev.joinAt_fe .., ite_self]

@[simp] theorem Dev.blockClose_fe (g : Nat) (start pos : Int) (short : Bool) (f : Rec → Rec) :
    (s.blockClose g start pos short f).fe = s.fe := by
  unfold Dev.blockClose
  dsimp only
  rw [Dev.blockBegin_fe, Dev.ite_fe, Dev.foldl_fe, ite_self, Dev.ite_fe, Dev.trkUpd_fe, ite_self, Dev.foldl_fe]
  · exact fun t w => by rw [Dev.ite_fe, Dev.joinAt_fe, ite_self]
  · exact fun t w => by
      simp only [Dev.ite_fe, Dev.commitWork_fe, Dev.pqEval_fe, Dev.lastShow_fe, Dev.noteClamps_fe, ite_self]

/-- The partial records of a warning. -/
@[simp] theorem Dev.pfForm_fe : s.pfForm.fe = s.fe := by
  refine Dev.forN_fe _ (fun t g => ?_) 4 s
  split
  · rfl
  · dsimp only
    split
    · split
      · rw [Dev.blockClose_fe, Dev.trkUpd_fe]
      · exact Dev.trkUpd_fe _ _ _
    · rw [Dev.foldl_fe _ fun u w => Dev.partialOne_fe .., Dev.trkUpd_fe]

@[simp] theorem Dev.pfDue_fe : s.pfDue.fe = s.fe := by
  rw [Dev.pfDue, Dev.ite_fe, Dev.pfForm_fe, ite_self]

end

end Sys2Proof.Machine

/-! ### The raw ring and what follows a frame (R119, R133–R135) -/

namespace Sys2Proof.Machine

open Sys2Proof.Safety

/-! #### Captures that wait for the end of a command (R235, R239) -/

theorem Dev.capFlush_eventsOnly (s : Dev) : eventsOnly s s.capFlush :=
  eventsOnly_trans (eventsOnly_cap s _)
    (eventsOnly_foldl _ (fun _ _ => eventsOnly_foldl _ (fun _ _ => eventsOnly_foldl _ (fun u e => u.capTrigger_eventsOnly e _) _ _) _ _) _ _)

/-- The device while a command of the metering engines runs: the captures that its events trigger wait. -/
def Dev.gathering (s : Dev) : Dev := { s with cap := { s.cap with gather := true } }

/-- A command of the metering engines does what it does, and the captures that waited start. -/
theorem Dev.gathered_events (s : Dev) (f : Dev → Dev) : eventsOnly (f s.gathering) (s.gathered f) := Dev.capFlush_eventsOnly _

@[simp] theorem Dev.capAdvance_fe (s : Dev) : s.capAdvance.fe = s.fe := by
  unfold Dev.capAdvance
  split
  · rfl
  · refine Dev.foldl_fe _ (fun t k => ?_) _ _
    split
    · rw [Dev.ite_fe]
      exact ite_self _
    · rfl

@[simp] theorem Dev.missing_fe (s : Dev) (f : Frame) : (s.missing f).fe = s.fe := Dev.forN_fe _ (fun t g => t.trkUpd_fe g _) 4 s

@[simp] theorem Dev.runCheck_fe (s : Dev) : s.runCheck.fe = s.fe := by
  rw [Dev.runCheck, Dev.ite_fe, Dev.setPower_fe, ite_self]

/-! #### What the work on a frame's words leaves of the ring -/

/-- The ring, the next frame's number and its slot. -/
def Dev.stream (s : Dev) : List Frame × Nat × Nat := (s.fe.ring, s.fe.nextSeq, s.fe.slot)

theorem Dev.stream_of_fe {s t : Dev} (h : t.fe = s.fe) : t.stream = s.stream := by rw [Dev.stream, h, ← Dev.stream]

@[simp] theorem Dev.ite_stream (c : Prop) [Decidable c] (s t : Dev) : (if c then s else t).stream = if c then s.stream else t.stream :=
  apply_ite Dev.stream c s t

theorem Dev.foldl_stream {α : Type} (f : Dev → α → Dev) (h : ∀ s x, (f s x).stream = s.stream) (l : List α) (s : Dev) : (l.foldl f s).stream = s.stream :=
  foldl_keep Dev.stream f h l s

section
variable (s : Dev)

@[simp] theorem Dev.chanUpd_stream (c : Nat) (f : Chan → Chan) : (s.chanUpd c f).stream = s.stream := by
  unfold Dev.chanUpd
  split <;> rfl

@[simp] theorem Dev.blkUpd_stream (b : Nat) (f : Block → Block) : (s.blkUpd b f).stream = s.stream := rfl
@[simp] theorem Dev.set_stream (f : Field) (v : Nat) : (s.set f v).stream = s.stream := rfl
@[simp] theorem Dev.injUse_stream (p : Nat) : (s.injUse p).stream = s.stream := Dev.stream_of_fe (s.injUse_fe p)
@[simp] theorem Dev.raiseEv_stream (e : Event) (live : Bool) : (s.raiseEv e live).stream = s.stream := Dev.stream_of_fe (s.raiseEv_fe e live)
@[simp] theorem Dev.raiseSpec_stream (g : Nat) (e : Event) (live : Bool) : (s.raiseSpec g e live).stream = s.stream := Dev.stream_of_fe (s.raiseSpec_fe g e live)

@[simp] theorem Dev.cmpFire_stream (seq c kind : Nat) (inj live : Bool) : (s.cmpFire seq c kind inj live).stream = s.stream := by
  simp only [Dev.cmpFire, Dev.cmpHit, Dev.ite_stream, Dev.raiseSpec_stream, Dev.blkUpd_stream, Dev.set_stream, ite_self]

@[simp] theorem Dev.clipWord_stream (seq c : Nat) (inj live : Bool) : (s.clipWord seq c inj live).stream = s.stream := by
  simp only [Dev.clipWord, Dev.ite_stream, Dev.raiseEv_stream, Dev.blkUpd_stream, Dev.set_stream, ite_self]

@[simp] theorem Dev.chanFrame_stream (seq c : Nat) (i : LaneIn) : (s.chanFrame seq c i).1.stream = s.stream := by
  have hfires (l : List Nat) (t : Dev) : (l.foldl (fun (t : Dev) kind => t.cmpFire seq c kind false true) t).stream = t.stream :=
    Dev.foldl_stream _ (fun _ _ => Dev.cmpFire_stream ..) l t
  simp only [Dev.chanFrame, apply_ite Prod.fst, Dev.ite_stream, Dev.chanUpd_stream, Dev.cmpFire_stream, Dev.clipWord_stream, Dev.injUse_stream, hfires, ite_self]

@[simp] theorem Dev.calmTake_stream (seq : Nat) (lanes : List LaneIn) (us : List UIn) : (s.calmTake seq lanes us).stream = s.stream := by
  unfold Dev.calmTake
  split
  · rfl
  · split_ifs <;> rfl

/-- One step of `Dev.frameWords`: the next channel's word. -/
def Dev.addWord (seq : Nat) (lanes : List LaneIn) (us : List UIn) (a : Dev × List Word) (c : Nat) : Dev × List Word :=
  ((a.1.chanFrame seq c (chanIn lanes us c)).1, a.2 ++ [(a.1.chanFrame seq c (chanIn lanes us c)).2])

theorem Dev.addWord_foldl (seq : Nat) (lanes : List LaneIn) (us : List UIn) (l : List Nat) (a : Dev × List Word) :
    (l.foldl (Dev.addWord seq lanes us) a).1.stream = a.1.stream ∧ (l.foldl (Dev.addWord seq lanes us) a).2.length = a.2.length + l.length := by
  induction l generalizing a with
  | nil => exact ⟨rfl, rfl⟩
  | cons c r ih =>
    obtain ⟨hstream, hlen⟩ := ih (Dev.addWord seq lanes us a c)
    refine ⟨hstream.trans (Dev.chanFrame_stream ..), hlen.trans ?_⟩
    simp only [Dev.addWord, List.length_append, List.length_cons, List.length_nil]
    omega

/-- A frame's words: one of every channel, and the ring as before. -/
theorem Dev.frameWords_spec (seq : Nat) (lanes : List LaneIn) (us : List UIn) :
    (s.frameWords seq lanes us).1.stream = s.stream ∧ (s.frameWords seq lanes us).2.length = 208 := by
  have hfold : s.frameWords seq lanes us = (List.range 208).foldl (Dev.addWord seq lanes us) (s, []) := rfl
  obtain ⟨hstream, hlen⟩ := Dev.addWord_foldl seq lanes us (List.range 208) (s, [])
  rw [hfold]
  exact ⟨hstream, hlen.trans (by rw [List.length_range, List.length_nil])⟩

@[simp] theorem Dev.refTails_stream : s.refTails.stream = s.stream := rfl

@[simp] theorem Dev.settleEvents_stream (before : Dev) : (s.settleEvents before).stream = s.stream :=
  Dev.foldl_stream _ (fun t b => by rw [Dev.ite_stream, Dev.stream_of_fe (t.raise_fe _ _), ite_self]) _ _

@[simp] theorem Dev.snapPaths_stream : s.snapPaths.stream = s.stream := by
  unfold Dev.snapPaths
  split <;> rfl

end

/-! #### A sample is released (R119, R133) -/

/-- The frame that a released sample adds: its number and time, the GUN's mark, a word of every lane and voltage channel. -/
def Dev.newFrame (s : Dev) (lanes : List LaneIn) (us : List UIn) : Frame := s.mkFrame ((s.calmTake s.fe.nextSeq lanes us).frameWords s.fe.nextSeq lanes us).2

theorem Dev.newFrame_length (s : Dev) (lanes : List LaneIn) (us : List UIn) : (s.newFrame lanes us).lanes.length = 192 ∧ (s.newFrame lanes us).us.length = 16 := by
  obtain ⟨-, hlen⟩ := (s.calmTake s.fe.nextSeq lanes us).frameWords_spec s.fe.nextSeq lanes us
  simp only [Dev.newFrame, Dev.mkFrame, List.length_take, List.length_drop, hlen]
  decide

theorem Dev.sampleRelease_stream {s : Dev} (lanes : List LaneIn) (us : List UIn) (hst : s.power.st ≠ .shutdownTest) :
    (s.sampleRelease lanes us).stream = ((s.newFrame lanes us :: s.fe.ring).take 49461, (s.fe.nextSeq + 1) % 2 ^ 32, (s.fe.slot + 1) % 49461) := by
  obtain ⟨hwords, -⟩ := (s.calmTake s.fe.nextSeq lanes us).frameWords_spec s.fe.nextSeq lanes us
  have hring := congrArg Prod.fst (hwords.trans (s.calmTake_stream _ _ _))
  dsimp only [Dev.stream] at hring
  rw [Dev.sampleRelease, if_neg fun h => hst h.1]
  dsimp only
  rw [Dev.snapPaths_stream, Dev.settleEvents_stream, Dev.refTails_stream, Dev.ite_stream, Dev.set_stream, ite_self, Dev.stream, hring]
  rfl

/-- With no GUN at hand the meter's work on a new frame leaves the front end as the release did. -/
theorem Dev.frameIn_fe {s : Dev} (lanes : List LaneIn) (us : List UIn) (h : ∀ f ∈ (s.sampleRelease lanes us).fe.ring.head?, f.gun = false) :
    (s.frameIn lanes us).fe = (s.sampleRelease lanes us).fe := by
  unfold Dev.frameIn
  dsimp only
  split
  · next f r hring =>
    have hgun : f.gun = false := h f (by rw [hring]; rfl)
    split
    · rw [hgun, if_neg Bool.false_ne_true, Dev.capAdvance_fe, (Dev.capFlush_eventsOnly _).fe, Dev.pfDue_fe, Dev.missing_fe]
    · rfl
  · rfl

end Sys2Proof.Machine

namespace Sys2Proof.Certificates

open Sys2Proof Sys2Proof.Machine Sys2Proof.Safety

theorem exec_sampleRelease {s : State} (lanes : List LaneIn) (us : List UIn) (hon : s.mainOn = true) (hrc : s.clk.onRc = false) :
    exec (.sampleRelease lanes us) s = .next { s with toDev := s.toDev.gathered fun d => (d.frameIn lanes us).runCheck } :=
  engAct_eq s _ hon hrc

/-- One frame joins the ring and takes the next number (R119, R133). -/
theorem sampleRelease_completes {s : State} (lanes : List LaneIn) (us : List UIn) (hon : s.mainOn = true) (hrc : s.clk.onRc = false)
    (hst : s.power.st ≠ .shutdownTest) (hgun : s.fe.gunNext = false) :
    completes (.sampleRelease lanes us) s fun t =>
      keepsQueue s t ∧ t.fe.nextSeq = (s.fe.nextSeq + 1) % 2 ^ 32 ∧ t.fe.slot = (s.fe.slot + 1) % 49461 ∧
        ∃ f, t.fe.ring = (f :: s.fe.ring).take 49461 ∧ f.seq = s.fe.nextSeq ∧ f.mt = s.mt ∧ f.gun = false ∧ f.lanes.length = 192 ∧ f.us.length = 16 := by
  have hrelease := Dev.sampleRelease_stream (s := s.toDev.gathering) lanes us hst
  obtain ⟨hlanes, hus⟩ := s.toDev.gathering.newFrame_length lanes us
  have hframe : (s.toDev.gathering.frameIn lanes us).fe = (s.toDev.gathering.sampleRelease lanes us).fe := by
    refine Dev.frameIn_fe lanes us fun f hf => ?_
    have hring := congrArg Prod.fst hrelease
    dsimp only [Dev.stream] at hring
    rw [hring] at hf
    cases hf
    exact hgun
  have hdone := Dev.stream_of_fe (((s.toDev.gathered_events fun d => (d.frameIn lanes us).runCheck).fe.trans (Dev.runCheck_fe _)).trans hframe)
  have hstream := hdone.trans hrelease
  simp only [Dev.stream, Prod.mk.injEq] at hstream
  obtain ⟨hring, hseq, hslot⟩ := hstream
  exact ⟨_, exec_sampleRelease lanes us hon hrc, ⟨rfl, rfl⟩, hseq, hslot, _, hring, rfl, rfl, hgun, hlanes, hus⟩

end Sys2Proof.Certificates

/-! ### GUN (R123–R126) -/

namespace Sys2Proof.Machine

open Sys2Proof.Safety

@[simp] theorem Dev.chanUpd_pins (s : Dev) (c : Nat) (f : Chan → Chan) : (s.chanUpd c f).pins = s.pins := by
  unfold Dev.chanUpd
  split <;> rfl

@[simp] theorem Dev.blkRestart_pins (s : Dev) (b : Nat) : (s.blkRestart b).pins = s.pins := foldl_keep Dev.pins _ (fun t c => t.chanUpd_pins c _) _ s

/-- A register of another page than SYS. -/
def beyondSys (a : Nat) : Bool := pageOf a != Pg.SYS

theorem beyondSys_guns {b : Nat} (h : b < 13) : beyondSys (Fld.BLK_GUNS b).addr = true := by
  revert b
  decide

theorem Dev.pins_blind : Dev.blind Dev.pins := ⟨fun _ _ => rfl, fun _ _ h => h.pins⟩

/-- MT of a GUN and the count of them, as page SYS shows them. -/
def Dev.gunStamp (s : Dev) : Dev := (s.set64 Reg.SYS_GUN_MT_LO Reg.SYS_GUN_MT_HI ((s.mt + 3) % 2 ^ 64)).bump Fld.SYS_GUN_CNT_COUNT

/-- What a GUN does in block `b`: its channels restart, it counts, event 12 (R123). -/
def Dev.gunBlock (s : Dev) (b : Nat) : Dev := if s.blkOn b then ((s.blkRestart b).bump (Fld.BLK_GUNS b)).raise (blkPage b) 12 else s

theorem Dev.gunBlock_framed (s : Dev) {b : Nat} (h : b < 13) : Dev.framed Dev.pins beyondSys s (s.gunBlock b) := by
  have hrestart : Dev.framed Dev.pins beyondSys s (s.blkRestart b) := Dev.framed_of_regs (s.blkRestart_pins b) (s.blkRestart_parts b).2.2
  exact Dev.framed_ite _ (fun _ => (hrestart.trans (Dev.framed_bump Dev.pins_blind _ _ (beyondSys_guns h))).trans (Dev.framed_raise Dev.pins_blind _ _ _))
    fun _ => Dev.framed_refl s

/-- Page SYS and the pins after a GUN are as its stamp left them. -/
theorem Dev.gun_framed (s : Dev) : Dev.framed Dev.pins beyondSys s.gunStamp s.gun :=
  (Dev.framed_foldl Dev.gunBlock (List.range 13) (fun t _ hb => t.gunBlock_framed (List.mem_range.1 hb)) s.gunStamp).trans (Dev.framed_of_regs rfl rfl)

/-- The next frame is marked. -/
theorem Dev.gun_marks (s : Dev) : s.gun.fe.gunNext = true := rfl

theorem Dev.gun_pins (s : Dev) : s.gun.pins = s.pins := s.gun_framed.1.trans (Dev.bump_pins _ _)

theorem Dev.gun_mt (s : Dev) : s.gun.get64 Reg.SYS_GUN_MT_LO Reg.SYS_GUN_MT_HI = (s.mt + 3) % 2 ^ 64 := by
  have hlo : s.gun.rd Reg.SYS_GUN_MT_LO = _ := s.gun_framed.2 _ (by decide) (by decide)
  have hhi : s.gun.rd Reg.SYS_GUN_MT_HI = _ := s.gun_framed.2 _ (by decide) (by decide)
  rw [Dev.get64, hlo, hhi, Dev.gunStamp, Dev.rd_bump_ne (by decide), Dev.rd_bump_ne (by decide), ← Dev.get64, Dev.get64_set64 _ _ _ _ (by decide), Nat.mod_mod]

theorem Dev.gun_rd (s : Dev) : s.gun.rd Reg.SYS_GUN = s.rd Reg.SYS_GUN := by
  have hkept : s.gun.rd Reg.SYS_GUN = _ := s.gun_framed.2 _ (by decide) (by decide)
  rw [hkept, Dev.gunStamp, Dev.rd_bump_ne (by decide), Dev.rd_set64_ne (by decide) (by decide)]

/-- SYS.GUN with the two settings of a written word. -/
def Dev.gunSettings (s : Dev) (v : Word) : Dev := (s.setB Fld.SYS_GUN_REPEAT (bitAt v 9)).setB Fld.SYS_GUN_IN_EN (bitAt v 8)

theorem Dev.gunSettings_on (s : Dev) (v : Word) : (s.gunSettings v).on Fld.SYS_GUN_REPEAT = bitAt v 9 ∧ (s.gunSettings v).on Fld.SYS_GUN_IN_EN = bitAt v 8 :=
  ⟨(Dev.on_setB_apart _ _ _ _ rfl rfl rfl).trans (Dev.on_setB_same _ _ _ rfl), Dev.on_setB_same _ _ _ rfl⟩

section
variable {s : Dev} {v : Word} (hk : keyOf v = 0x47) (hfire : bitAt v 0 = true)
include hk hfire

theorem Dev.gunWrite_fires (hbar : s.gunBarred = false) : s.gunWrite v = (s.gunSettings v).gunOut.gun := by
  rw [Dev.gunWrite, keyed_eq _ _ _ _ _ hk, hfire, hbar]
  rfl

theorem Dev.gunWrite_barred (hbar : s.gunBarred = true) : s.gunWrite v = s.cfgErr Pg.SYS := by
  rw [Dev.gunWrite, keyed_eq _ _ _ _ _ hk, hfire, hbar]
  rfl

end

end Sys2Proof.Machine

namespace Sys2Proof.Certificates

open Sys2Proof Sys2Proof.Machine Sys2Proof.Safety

/-! #### The commands -/

/-- A pulse on GUN_OUT, where REPEAT asks for it. -/
def repeated (d : Dev) : Dev := if d.on Fld.SYS_GUN_REPEAT then d.gunOut else d

theorem exec_gunInput {s : State} (hon : s.mainOn = true) :
    exec .gunInput s = .next { s with toDev := if s.on Fld.SYS_GUN_IN_EN && !s.gunBarred then (repeated s.toDev).gun else repeated s.toDev } := by
  have hact : exec .gunInput s = execGunInput s := rfl
  rw [hact, execGunInput, mainAct_eq _ _ hon]
  rfl

/-- A GUN on its pin (R123, R126). -/
theorem gunInput_completes {s : State} (hon : s.mainOn = true) (hen : s.on Fld.SYS_GUN_IN_EN = true) (hbar : s.gunBarred = false) :
    completes .gunInput s fun t => keepsQueue s t ∧ t.fe.gunNext = true ∧ t.get64 Reg.SYS_GUN_MT_LO Reg.SYS_GUN_MT_HI = (s.mt + 3) % 2 ^ 64 ∧
      t.pins.gunOut = if s.on Fld.SYS_GUN_REPEAT then s.pins.gunOut + 1 else s.pins.gunOut := by
  have hexec := exec_gunInput hon
  rw [hen, hbar, Bool.not_false, Bool.and_self, if_pos rfl] at hexec
  have hmt : (repeated s.toDev).mt = s.mt := by
    unfold repeated
    split <;> rfl
  have hpulse : (repeated s.toDev).pins.gunOut = if s.on Fld.SYS_GUN_REPEAT then s.pins.gunOut + 1 else s.pins.gunOut := by
    unfold repeated
    split <;> rfl
  exact ⟨_, hexec, ⟨rfl, rfl⟩, Dev.gun_marks _, hmt ▸ Dev.gun_mt _, (congrArg Pins.gunOut (Dev.gun_pins _)).trans hpulse⟩

/-- An edge that is no GUN, and is not repeated. -/
theorem gunInput_ignored {s : State} (hon : s.mainOn = true) (hno : s.on Fld.SYS_GUN_IN_EN = false ∨ s.gunBarred = true) (hrep : s.on Fld.SYS_GUN_REPEAT = false) :
    exec .gunInput s = .next s := by
  have hnone : (s.on Fld.SYS_GUN_IN_EN && !s.gunBarred) = false := by
    rcases hno with h | h
    · rw [h, Bool.false_and]
    · rw [h, Bool.not_true, Bool.and_false]
  rw [exec_gunInput hon, hnone, repeated, hrep]
  rfl

theorem exec_gunFire {s : State} {m : Nat} {v : Word} (hl : lands s Reg.SYS_GUN) : exec (.gunFire m v) s = .next { s with toDev := s.toDev.gunWrite v } :=
  wrAct_eq m _ v s _ hl

/-- A GUN by a keyed write (R124). -/
theorem gunFire_completes {s : State} {m : Nat} {v : Word} (hl : lands s Reg.SYS_GUN) (hk : keyOf v = 0x47) (hfire : bitAt v 0 = true) (hbar : s.gunBarred = false) :
    completes (.gunFire m v) s fun t => keepsQueue s t ∧ t.fe.gunNext = true ∧ t.pins.gunOut = s.pins.gunOut + 1 ∧ t.on Fld.SYS_GUN_REPEAT = bitAt v 9 ∧
      t.on Fld.SYS_GUN_IN_EN = bitAt v 8 ∧ t.get64 Reg.SYS_GUN_MT_LO Reg.SYS_GUN_MT_HI = (s.mt + 3) % 2 ^ 64 := by
  have hexec := exec_gunFire (m := m) (v := v) hl
  rw [Dev.gunWrite_fires hk hfire hbar] at hexec
  have hrd := (s.toDev.gunSettings v).gunOut.gun_rd
  obtain ⟨hrep, hen⟩ := s.toDev.gunSettings_on v
  exact ⟨_, hexec, ⟨rfl, rfl⟩, Dev.gun_marks _, congrArg Pins.gunOut (Dev.gun_pins _), (Dev.on_congr hrd).trans hrep, (Dev.on_congr hrd).trans hen, Dev.gun_mt _⟩

end Sys2Proof.Certificates

/-! ### The calibration measurement unit (R198, R199) -/

namespace Sys2Proof.Machine

open Sys2Proof.Safety

/-! #### CALM_CTRL -/

/-- A word of CALM_CTRL that the unit refuses: no cycle, a channel or mode that is not there, or a GO while it measures or, in MATCH, for a voltage channel. -/
def Dev.calmBars (s : Dev) (v : Word) : Prop :=
  bitsOf v 23 16 = 0 ∨ 207 < bitsOf v 15 8 ∨ 1 < bitsOf v 5 4 ∨ (bitAt v 0 = true ∧ (s.on Fld.UCH_CALM_STAT_BUSY = true ∨ (bitsOf v 5 4 = 1 ∧ 192 ≤ bitsOf v 15 8)))

/-- CALM_CTRL with a written word's fields. -/
def Dev.calmSettings (s : Dev) (v : Word) : Dev :=
  ((s.set Fld.UCH_CALM_CTRL_CYC (bitsOf v 23 16)).set Fld.UCH_CALM_CTRL_SEL (bitsOf v 15 8)).set Fld.UCH_CALM_CTRL_MODE (bitsOf v 5 4)

/-- The front end of a measurement that begins. -/
def Fe.calmBegun (k : Fe) (v : Word) : Fe :=
  { k with calm := some (bitsOf v 5 4, bitsOf v 15 8, bitsOf v 23 16), calmN := 0, calmLg := [], calmHg := [], calmVoid := false, calmWords := [], calmBounds := [] }

/-- A measurement that begins shows in CALM_STAT. -/
def Dev.calmBusy (s : Dev) : Dev := ((s.set Fld.UCH_CALM_STAT_BUSY 1).set Fld.UCH_CALM_STAT_NOLOCK 0).set Fld.UCH_CALM_STAT_VOID 0

theorem Dev.calmBusy_stat (s : Dev) :
    s.calmBusy.on Fld.UCH_CALM_STAT_BUSY = true ∧ s.calmBusy.on Fld.UCH_CALM_STAT_NOLOCK = false ∧ s.calmBusy.on Fld.UCH_CALM_STAT_VOID = false := by
  refine ⟨?_, ?_, Dev.on_set_zero _ _ rfl⟩
  · rw [Dev.calmBusy, Dev.on_set_apart _ _ _ _ rfl rfl rfl, Dev.on_set_apart _ _ _ _ rfl rfl rfl, Dev.on_set_one _ _ rfl]
  · rw [Dev.calmBusy, Dev.on_set_apart _ _ _ _ rfl rfl rfl, Dev.on_set_zero _ _ rfl]

/-- The group of a MATCH is not in LOCK. -/
def Dev.calmUnlocked (s : Dev) (v : Word) : Prop := bitsOf v 5 4 = 1 ∧ s.get (Fld.FRAME_VG_STAT_STATE (s.chGrp (bitsOf v 15 8))) ≠ 2

theorem Dev.calmWrite_refused {s : Dev} {v : Word} (h : s.calmBars v) : s.calmWrite v = s.cfgErr Pg.UCH := if_pos h

section
variable {s : Dev} {v : Word} (hok : ¬ s.calmBars v) (hgo : bitAt v 0 = true)
include hok hgo

theorem Dev.calmWrite_noLock (h : s.calmUnlocked v) : s.calmWrite v = ((s.calmSettings v).set Fld.UCH_CALM_STAT_NOLOCK 1).set Fld.UCH_CALM_STAT_DONE 1 := by
  refine (if_neg hok).trans ?_
  dsimp only
  rw [hgo, if_neg (by decide)]
  exact if_pos h

theorem Dev.calmWrite_begins (h : ¬ s.calmUnlocked v) : (s.calmWrite v).fe = s.fe.calmBegun v ∧ (s.calmWrite v).regs = (s.calmSettings v).calmBusy.regs := by
  have heq : s.calmWrite v = { (s.calmSettings v).calmBusy with fe := s.fe.calmBegun v } := by
    refine (if_neg hok).trans ?_
    dsimp only
    rw [hgo, if_neg (by decide)]
    refine (if_neg h).trans ?_
    simp only [Dev.calmSettings, Dev.calmBusy, Fe.calmBegun, Dev.set_fe]
  rw [heq]
  exact ⟨rfl, rfl⟩

end

/-! #### The end of a measurement -/

/-- A measurement that is over. -/
def Dev.calmOver (s : Dev) : Dev := (({ s with fe := { s.fe with calm := none } }).set Fld.UCH_CALM_STAT_BUSY 0).set Fld.UCH_CALM_STAT_DONE 1

theorem Dev.calmOver_stat (s : Dev) : s.calmOver.on Fld.UCH_CALM_STAT_BUSY = false ∧ s.calmOver.on Fld.UCH_CALM_STAT_DONE = true :=
  ⟨(Dev.on_set_apart _ _ _ _ rfl rfl rfl).trans (Dev.on_set_zero _ _ rfl), Dev.on_set_one _ _ rfl⟩

/-- What every result shows beside its means or quotients: VOID and the number of samples. -/
def Dev.calmCount (s : Dev) (void : Bool) (n : Nat) : Dev := (s.setB Fld.UCH_CALM_STAT_VOID void).set Fld.UCH_CALM_N_N n

theorem Dev.calmCount_on (s : Dev) (void : Bool) (n : Nat) {f : Field} (hf : f.ok = true) (hv : f.apart Fld.UCH_CALM_STAT_VOID = true)
    (hn : f.apart Fld.UCH_CALM_N_N = true) : (s.calmCount void n).on f = s.on f := by
  rw [Dev.calmCount, Dev.on_set_apart _ _ _ _ rfl hf hn, Dev.on_setB_apart _ _ _ _ rfl hf hv]

/-- The means change only their own registers. -/
theorem Dev.calmMean_framed (s : Dev) (sel : Nat) :
    (s.calmMean sel).fe = s.fe ∧ ∀ a, a < Reg.UCH_CALM_MEAN_LG 0 → (s.calmMean sel).rd a = (s.calmCount s.fe.calmVoid s.fe.calmN).rd a := by
  unfold Dev.calmMean
  dsimp only
  refine ⟨?_, fun a ha => foldl_keep (fun t : Dev => t.rd a) _ (fun t j => ?_) _ _⟩
  · rw [Dev.foldl_fe _ fun t j => by rw [Dev.setI_fe, Dev.setI_fe], Dev.set_fe, Dev.setB_fe]
  · have hlg : a ≠ (Fld.UCH_CALM_MEAN_LG_MEAN j).addr := by simp only [Fld.UCH_CALM_MEAN_LG_MEAN, Reg.UCH_CALM_MEAN_LG] at ha ⊢; omega
    have hhg : a ≠ (Fld.UCH_CALM_MEAN_HG_MEAN j).addr := by simp only [Fld.UCH_CALM_MEAN_HG_MEAN, Reg.UCH_CALM_MEAN_HG, Reg.UCH_CALM_MEAN_LG] at ha ⊢; omega
    rw [Dev.rd_setI_ne hhg, Dev.rd_setI_ne hlg]

theorem Dev.calmMatch_fe (s : Dev) (cyc : Nat) (b : List Int) : (s.calmMatch cyc b).fe = s.fe := by
  simp only [Dev.calmMatch, Dev.tick_fe, Dev.set_fe, Dev.setI_fe, Dev.setB_fe]

/-- What a MATCH found leaves BUSY and DONE. -/
theorem Dev.calmMatch_on (s : Dev) (cyc : Nat) (b : List Int) {f : Field} (hf : f.ok = true) (ha : f.addr = Reg.UCH_CALM_STAT)
    (hv : f.apart Fld.UCH_CALM_STAT_VOID = true) (hn : f.apart Fld.UCH_CALM_N_N = true) : (s.calmMatch cyc b).on f = s.on f := by
  rw [← s.calmCount_on _ _ hf hv hn]
  refine Dev.on_congr ?_
  rw [ha, Dev.calmMatch, Dev.tick_rd, Dev.rd_set_ne (by decide), Dev.rd_set_ne (by decide), Dev.rd_setI_ne (by decide), Dev.rd_set_ne (by decide)]
  rfl

section
variable {s : Dev} {sel cyc : Nat}

theorem Dev.calmDone_mean (h : s.fe.calm = some (0, sel, cyc)) (hn : 640 * cyc ≤ s.fe.calmN) : s.calmDone = s.calmOver.calmMean sel := by
  unfold Dev.calmDone
  rw [h]
  exact if_pos hn

theorem Dev.calmDone_short (h : s.fe.calm = some (0, sel, cyc)) (hn : s.fe.calmN < 640 * cyc) : s.calmDone = s := by
  unfold Dev.calmDone
  rw [h]
  exact if_neg (Nat.not_le.2 hn)

theorem Dev.calmDone_match {b : List Int} (h : s.fe.calm = some (1, sel, cyc)) (hb : s.calmSpan cyc = some b) : s.calmDone = s.calmOver.calmMatch cyc b := by
  simp only [Dev.calmDone, h, hb]
  rfl

theorem Dev.calmDone_noLock (h : s.fe.calm = some (1, sel, cyc)) (hb : s.calmSpan cyc = none) (hst : s.get (Fld.FRAME_VG_STAT_STATE (s.chGrp sel)) ≠ 2) :
    s.calmDone = s.calmOver.set Fld.UCH_CALM_STAT_NOLOCK 1 := by
  simp only [Dev.calmDone, h, hb]
  exact if_pos hst

end

end Sys2Proof.Machine

namespace Sys2Proof.Certificates

open Sys2Proof Sys2Proof.Machine Sys2Proof.Safety

/-- After a main clock failure a command of the metering engines does nothing (R43). -/
theorem engAct_stopped {s : State} (f : Dev → Dev) (hon : s.mainOn = true) (hrc : s.clk.onRc = true) : engAct s f = .next s := by
  rw [engAct, mainAct_eq _ _ hon, hrc]
  rfl

theorem exec_calMeasureStart {s : State} {m : Nat} {v : Word} (hl : lands s Reg.UCH_CALM_CTRL) :
    exec (.calMeasureStart m v) s = .next { s with toDev := s.toDev.calmWrite v } := wrAct_eq m _ v s _ hl

theorem exec_calMeasureDone {s : State} (hon : s.mainOn = true) : exec .calMeasureDone s = .next { s with toDev := s.toDev.calmDone } := mainAct_eq s _ hon

section
variable {s : State} {m : Nat} {v : Word} (hl : lands s Reg.UCH_CALM_CTRL) (hgo : bitAt v 0 = true) (hcyc : bitsOf v 23 16 ≠ 0) (hbusy : s.on Fld.UCH_CALM_STAT_BUSY = false)
include hl hgo hcyc hbusy

theorem calMeasureStart_begins (hsel : bitsOf v 15 8 ≤ 207)
    (hmode : bitsOf v 5 4 = 0 ∨ (bitsOf v 5 4 = 1 ∧ bitsOf v 15 8 < 192 ∧ s.get (Fld.FRAME_VG_STAT_STATE (s.chGrp (bitsOf v 15 8))) = 2)) :
    completes (.calMeasureStart m v) s fun t => keepsQueue s t ∧ t.fe.calm = some (bitsOf v 5 4, bitsOf v 15 8, bitsOf v 23 16) ∧ t.fe.calmN = 0 ∧
      t.on Fld.UCH_CALM_STAT_BUSY = true ∧ t.on Fld.UCH_CALM_STAT_NOLOCK = false ∧ t.on Fld.UCH_CALM_STAT_VOID = false := by
  have hok : ¬ s.calmBars v := by
    simp only [Dev.calmBars, hbusy, Bool.false_eq_true, false_or]
    omega
  have hlock : ¬ s.calmUnlocked v := fun ⟨hone, hst⟩ => by
    rcases hmode with h | ⟨-, -, h⟩
    · omega
    · exact hst h
  obtain ⟨hfe, hregs⟩ := Dev.calmWrite_begins hok hgo hlock
  have hon {f : Field} {b : Bool} (h : (s.calmSettings v).calmBusy.on f = b) : (s.calmWrite v).on f = b := (Dev.on_congr (congrArg (Regs.rd · _) hregs)).trans h
  obtain ⟨hbsy, hlck, hvoid⟩ := (s.calmSettings v).calmBusy_stat
  exact ⟨_, exec_calMeasureStart hl, ⟨rfl, rfl⟩, congrArg Fe.calm hfe, congrArg Fe.calmN hfe, hon hbsy, hon hlck, hon hvoid⟩

theorem calMeasureStart_noLock (hmode : bitsOf v 5 4 = 1) (hsel : bitsOf v 15 8 < 192) (hst : s.get (Fld.FRAME_VG_STAT_STATE (s.chGrp (bitsOf v 15 8))) ≠ 2) :
    completes (.calMeasureStart m v) s fun t => keepsQueue s t ∧ t.fe = s.fe ∧ t.on Fld.UCH_CALM_STAT_NOLOCK = true ∧ t.on Fld.UCH_CALM_STAT_DONE = true := by
  have hok : ¬ s.calmBars v := by
    simp only [Dev.calmBars, hbusy, Bool.false_eq_true, false_or]
    omega
  have hexec := exec_calMeasureStart (m := m) (v := v) hl
  rw [Dev.calmWrite_noLock hok hgo ⟨hmode, hst⟩] at hexec
  have hfe : (((s.calmSettings v).set Fld.UCH_CALM_STAT_NOLOCK 1).set Fld.UCH_CALM_STAT_DONE 1).fe = s.fe := by simp only [Dev.calmSettings, Dev.set_fe]
  exact ⟨_, hexec, ⟨rfl, rfl⟩, hfe, (Dev.on_set_apart _ _ _ _ rfl rfl rfl).trans (Dev.on_set_one _ _ rfl), Dev.on_set_one _ _ rfl⟩

end

section
variable {s : State} {sel cyc : Nat} (hon : s.mainOn = true)
include hon

theorem calMeasureDone_mean (hcalm : s.fe.calm = some (0, sel, cyc)) (hn : 640 * cyc ≤ s.fe.calmN) (hfits : s.fe.calmN < 2 ^ 24) :
    completes .calMeasureDone s fun t => keepsQueue s t ∧ t.fe.calm = none ∧ t.on Fld.UCH_CALM_STAT_BUSY = false ∧ t.on Fld.UCH_CALM_STAT_DONE = true ∧
      t.on Fld.UCH_CALM_STAT_VOID = s.fe.calmVoid ∧ t.get Fld.UCH_CALM_N_N = s.fe.calmN := by
  have hexec := exec_calMeasureDone hon
  rw [Dev.calmDone_mean hcalm hn] at hexec
  obtain ⟨hfe, hrd⟩ := s.calmOver.calmMean_framed sel
  obtain ⟨hbusy, hdone⟩ := s.calmOver_stat
  have hstat := hrd Reg.UCH_CALM_STAT (by decide)
  refine ⟨_, hexec, ⟨rfl, rfl⟩, (congrArg Fe.calm hfe :), (Dev.on_congr hstat).trans ?_, (Dev.on_congr hstat).trans ?_, (Dev.on_congr hstat).trans ?_,
    (Dev.get_congr (hrd Reg.UCH_CALM_N (by decide))).trans ?_⟩
  · rw [Dev.calmCount_on _ _ _ rfl rfl rfl, hbusy]
  · rw [Dev.calmCount_on _ _ _ rfl rfl rfl, hdone]
  · exact (Dev.on_set_apart _ _ _ _ rfl rfl rfl).trans (Dev.on_setB_same _ _ _ rfl)
  · exact Dev.get_set_lt _ _ _ rfl (Nat.lt_trans hfits (by decide))

theorem calMeasureDone_match {b : List Int} (hcalm : s.fe.calm = some (1, sel, cyc)) (hb : s.calmSpan cyc = some b) :
    completes .calMeasureDone s fun t => keepsQueue s t ∧ t.fe.calm = none ∧ t.on Fld.UCH_CALM_STAT_BUSY = false ∧ t.on Fld.UCH_CALM_STAT_DONE = true := by
  have hexec := exec_calMeasureDone hon
  rw [Dev.calmDone_match hcalm hb] at hexec
  obtain ⟨hbusy, hdone⟩ := s.calmOver_stat
  exact ⟨_, hexec, ⟨rfl, rfl⟩, congrArg Fe.calm (Dev.calmMatch_fe _ _ _), (Dev.calmMatch_on _ _ _ rfl rfl rfl rfl).trans hbusy,
    (Dev.calmMatch_on _ _ _ rfl rfl rfl rfl).trans hdone⟩

theorem calMeasureDone_noLock (hcalm : s.fe.calm = some (1, sel, cyc)) (hb : s.calmSpan cyc = none) (hst : s.get (Fld.FRAME_VG_STAT_STATE (s.chGrp sel)) ≠ 2) :
    completes .calMeasureDone s fun t => keepsQueue s t ∧ t.fe.calm = none ∧ t.on Fld.UCH_CALM_STAT_BUSY = false ∧ t.on Fld.UCH_CALM_STAT_DONE = true ∧
      t.on Fld.UCH_CALM_STAT_NOLOCK = true := by
  have hexec := exec_calMeasureDone hon
  rw [Dev.calmDone_noLock hcalm hb hst] at hexec
  obtain ⟨hbusy, hdone⟩ := s.calmOver_stat
  exact ⟨_, hexec, ⟨rfl, rfl⟩, rfl, (Dev.on_set_apart _ _ _ _ rfl rfl rfl).trans hbusy, (Dev.on_set_apart _ _ _ _ rfl rfl rfl).trans hdone, Dev.on_set_one _ _ rfl⟩

end

/-- Settles O11: a released sample by what the work on a frame leaves of the ring; a GUN by its stamp, which nothing after it on page SYS changes; the measurement unit by the cases of its two commands. -/
theorem sampleAndGunCommandsComplete : Obligations.SampleAndGunCommandsComplete := by
  unfold Obligations.SampleAndGunCommandsComplete
  refine ⟨fun s lanes us hon hrc hst hgun => sampleRelease_completes lanes us hon hrc hst hgun, fun s lanes us hon hrc => engAct_stopped _ hon hrc,
    fun s hon hen hbar => gunInput_completes hon hen hbar, fun s hon hno hrep => gunInput_ignored hon hno hrep,
    fun s m v hl hk hfire hbar => gunFire_completes hl hk hfire hbar, fun s m v hl hk hfire hbar => by rw [exec_gunFire hl, Dev.gunWrite_barred hk hfire hbar],
    fun s m v hl hgo hcyc hsel hbusy hmode => calMeasureStart_begins hl hgo hcyc hbusy hsel hmode,
    fun s m v hl hgo hcyc hmode hsel hbusy hst => calMeasureStart_noLock hl hgo hcyc hbusy hmode hsel hst, fun s m v hl hbad => ?refused,
    fun s sel cyc hon hcalm hn hfits => calMeasureDone_mean hon hcalm hn hfits,
    fun s sel cyc hon hcalm hn => by rw [exec_calMeasureDone hon, Dev.calmDone_short hcalm hn],
    fun s sel cyc b hon hcalm hb => calMeasureDone_match hon hcalm hb, fun s sel cyc hon hcalm hb hst => calMeasureDone_noLock hon hcalm hb hst⟩
  have hbars : s.calmBars v := by
    unfold Dev.calmBars
    tauto
  rw [exec_calMeasureStart hl, Dev.calmWrite_refused hbars]

end Sys2Proof.Certificates

/-! ### Trackers and their registers (R136–R141, R152) -/

namespace Sys2Proof.Machine

open Sys2Proof.Safety

/-! #### A group's tracker and registers -/

theorem Dev.trk_congr {s t : Dev} {g : Nat} (h : t.meter.trk = s.meter.trk) : t.trk g = s.trk g := by rw [Dev.trk, h, ← Dev.trk]

theorem Dev.trk_trkUpd {s : Dev} {g : Nat} (f : Tracker → Tracker) (h : g < s.meter.trk.length) : (s.trkUpd g f).trk g = f (s.trk g) := nth_updAt_same _ _ _ _ h

/-- How many trackers there are. -/
def Dev.trkCount (s : Dev) : Nat := s.meter.trk.length

theorem Dev.trkCount_blind : Dev.blind Dev.trkCount := ⟨fun _ _ => rfl, fun s t h => by rw [Dev.trkCount, h.meter, ← Dev.trkCount]⟩

theorem Dev.trkUpd_trkCount (s : Dev) (g : Nat) (f : Tracker → Tracker) : (s.trkUpd g f).trkCount = s.trkCount := length_updAt _ _ _

theorem Dev.framed_trkUpd (may : Nat → Bool) (s : Dev) (g : Nat) (f : Tracker → Tracker) : Dev.framed Dev.trkCount may s (s.trkUpd g f) :=
  Dev.framed_of_regs (s.trkUpd_trkCount g f) rfl

/-- The registers of a group's tracker lie on FRAME's page, and no event touches them. -/
theorem vgRegs_kept {g : Nat} (h : g < 4) :
    ∀ a ∈ [Reg.FRAME_VG_CFG g, Reg.FRAME_VG_STAT g, Reg.FRAME_VG_FREQ g, Reg.FRAME_VG_FREQ10 g, Reg.FRAME_VG_AMP g], eventReg a = false ∧ pageOf a = Pg.FRAME := by
  revert g
  decide

section
variable {g : Nat} (h : g < 4)
include h

theorem eventReg_vgCfg : eventReg (Fld.FRAME_VG_CFG_MODE g).addr = false := (vgRegs_kept h _ (by simp [Fld.FRAME_VG_CFG_MODE])).1
theorem eventReg_vgState : eventReg (Fld.FRAME_VG_STAT_STATE g).addr = false := (vgRegs_kept h _ (by simp [Fld.FRAME_VG_STAT_STATE])).1
theorem eventReg_vgLow : eventReg (Fld.FRAME_VG_STAT_LOWAMP g).addr = false := (vgRegs_kept h _ (by simp [Fld.FRAME_VG_STAT_LOWAMP])).1
theorem eventReg_vgFreq : eventReg (Fld.FRAME_VG_FREQ_UHZ g).addr = false := (vgRegs_kept h _ (by simp [Fld.FRAME_VG_FREQ_UHZ])).1
theorem eventReg_vgFreq10 : eventReg (Fld.FRAME_VG_FREQ10_UHZ g).addr = false := (vgRegs_kept h _ (by simp [Fld.FRAME_VG_FREQ10_UHZ])).1
theorem eventReg_vgAmp : eventReg (Fld.FRAME_VG_AMP_AMP g).addr = false := (vgRegs_kept h _ (by simp [Fld.FRAME_VG_AMP_AMP])).1

end

theorem vgStat_ne_vgFreq (g : Nat) : Reg.FRAME_VG_STAT g ≠ Reg.FRAME_VG_FREQ g := by unfold Reg.FRAME_VG_STAT Reg.FRAME_VG_FREQ; omega
theorem vgFreq10_ne_vgFreq (g : Nat) : Reg.FRAME_VG_FREQ10 g ≠ Reg.FRAME_VG_FREQ g := by unfold Reg.FRAME_VG_FREQ10 Reg.FRAME_VG_FREQ; omega
theorem vgCfg_ne_vgStat (g : Nat) : Reg.FRAME_VG_CFG g ≠ Reg.FRAME_VG_STAT g := by unfold Reg.FRAME_VG_CFG Reg.FRAME_VG_STAT; omega
theorem vgCfg_ne_vgAmp (g : Nat) : Reg.FRAME_VG_CFG g ≠ Reg.FRAME_VG_AMP g := by unfold Reg.FRAME_VG_CFG Reg.FRAME_VG_AMP; omega
theorem vgAmp_ne_vgStat (g : Nat) : Reg.FRAME_VG_AMP g ≠ Reg.FRAME_VG_STAT g := by unfold Reg.FRAME_VG_AMP Reg.FRAME_VG_STAT; omega
theorem vgAmp_ne_vgFreq (g : Nat) : Reg.FRAME_VG_AMP g ≠ Reg.FRAME_VG_FREQ g := by unfold Reg.FRAME_VG_AMP Reg.FRAME_VG_FREQ; omega

theorem satN_lt {hi v n : Nat} (h : hi < n) : satN hi v < n := by
  unfold satN
  split <;> omega

/-! #### The 10 s frequency (R138) -/

/-- The frequency of an interval, in µHz: of its whole cycles, or 0 where it has none or was not wholly in LOCK. -/
def Tracker.f10Value (k : Tracker) (ok : Bool) : Nat :=
  if ok && decide (0 < k.f10Frames) then satN 0xFFFFFFFF ((roundDivI (framesPerSec * 1000000 * k.f10Cycles) k.f10Frames.toNat).toNat) else 0

/-- A tracker whose 10 s interval ended at `stop` and is shown. -/
def Tracker.f10Begun (k : Tracker) (stop : Int) : Tracker := { k with f10Cycles := 0, f10Frames := 0, f10From := stop, f10Due := none }

theorem Tracker.f10Value_lt (k : Tracker) (ok : Bool) : k.f10Value ok < 2 ^ 32 := by
  unfold Tracker.f10Value
  split
  · exact satN_lt (by decide)
  · decide

theorem Dev.set_trk (s : Dev) (f : Field) (v g : Nat) : (s.set f v).trk g = s.trk g := Dev.trk_congr (congrArg Meter.trk (s.set_meter f v))

/-- An interval's frequency is shown and the next interval begins. -/
def Dev.freq10Put (s : Dev) (g : Nat) (stop : Int) (ok : Bool) : Dev :=
  (s.set (Fld.FRAME_VG_FREQ10_UHZ g) ((s.trk g).f10Value ok)).trkUpd g fun k => k.f10Begun stop

theorem Dev.freq10Show_events (s : Dev) (g : Nat) (stop : Int) (ok : Bool) : eventsOnly (s.freq10Put g stop ok) (s.freq10Show g stop ok) := by
  unfold Dev.freq10Show Dev.freq10Put Tracker.f10Value Tracker.f10Begun
  dsimp only
  generalize (if (ok && decide (0 < (s.trk g).f10Frames)) = true then satN 0xFFFFFFFF ((roundDivI (framesPerSec * 1000000 * (s.trk g).f10Cycles) (s.trk g).f10Frames.toNat).toNat) else 0) = f
  split
  · exact Dev.raiseAt_eventsOnly _ _ _ _ _ _ _
  · exact eventsOnly_refl _

section
variable {s : Dev} {g : Nat} (stop : Int) (ok : Bool)

theorem Dev.freq10Show_trk (h : g < s.meter.trk.length) : (s.freq10Show g stop ok).trk g = (s.trk g).f10Begun stop := by
  rw [Dev.trk_congr (congrArg Meter.trk (s.freq10Show_events g stop ok).meter), Dev.freq10Put, Dev.trk_trkUpd _ (by rwa [Dev.set_meter]), Dev.set_trk]

theorem Dev.freq10Show_value (hg : g < 4) : (s.freq10Show g stop ok).get (Fld.FRAME_VG_FREQ10_UHZ g) = (s.trk g).f10Value ok := by
  rw [(s.freq10Show_events g stop ok).get (eventReg_vgFreq10 hg), Dev.freq10Put, Dev.trkUpd_get]
  exact Dev.get_set_lt _ _ _ rfl (Tracker.f10Value_lt _ _)

/-- A register that the end of an interval may change. -/
def f10Reg (g a : Nat) : Bool := a == Reg.FRAME_VG_FREQ10 g

theorem Dev.freq10Show_framed : Dev.framed Dev.trkCount (f10Reg g) s (s.freq10Show g stop ok) :=
  ((Dev.framed_set Dev.trkCount_blind s _ _ (by simp [f10Reg, Fld.FRAME_VG_FREQ10_UHZ])).trans (Dev.framed_trkUpd _ _ g _)).trans
    (Dev.framed_of_events Dev.trkCount_blind (s.freq10Show_events g stop ok))

end

theorem Dev.freq10Over_framed (s : Dev) (g : Nat) : Dev.framed Dev.trkCount (f10Reg g) s (s.freq10Over g) := by
  unfold Dev.freq10Over
  split
  · exact Dev.freq10Show_framed _ _
  · exact Dev.framed_refl s

theorem Dev.freq10Over_none {s : Dev} {g : Nat} (h : (s.trk g).f10Due = none) : s.freq10Over g = s := by
  unfold Dev.freq10Over
  rw [h]

/-! #### The cycles of an interval (R138) -/

/-- A tracker that has measured a whole cycle of `tm` from the crossing at `l`. -/
def Tracker.f10Cycle (k : Tracker) (l tm : Int) : Tracker :=
  if 0 ≤ posDiff l k.f10From then { k with f10Cycles := k.f10Cycles + 1, f10Frames := k.f10Frames + tm } else k

/-- An interval whose last cycles were awaited, at the first cycle that ends past its end. -/
def Dev.freqDue (s : Dev) (g : Nat) (b : Int) : Dev := match (s.trk g).f10Due with | some e => if 0 < posDiff b e then s.freq10Over g else s | none => s

theorem Dev.freqCycle_eq (s : Dev) (g : Nat) (l b : Int) :
    s.freqCycle g l b = ((s.freqDue g b).trkUpd g fun k => k.f10Cycle l (posDiff b l)).set (Fld.FRAME_VG_FREQ_UHZ g) (satN 0xFFFFFFFF (freqOf (posDiff b l))) := rfl

theorem Dev.freqDue_past {s : Dev} {g : Nat} {b e : Int} (h : (s.trk g).f10Due = some e) (hpast : 0 < posDiff b e) : s.freqDue g b = s.freq10Show g e true := by
  unfold Dev.freqDue Dev.freq10Over
  rw [h]
  exact if_pos hpast

theorem Dev.freqDue_waits {s : Dev} {g : Nat} {b : Int} (h : ∀ e, (s.trk g).f10Due = some e → posDiff b e ≤ 0) : s.freqDue g b = s := by
  unfold Dev.freqDue
  split
  · next e hdue => exact if_neg (Int.not_lt.2 (h e hdue))
  · rfl

section
variable {s : Dev} {g : Nat} (l : Int) {b : Int}

theorem Dev.freqCycle_trk (h : g < (s.freqDue g b).meter.trk.length) : (s.freqCycle g l b).trk g = ((s.freqDue g b).trk g).f10Cycle l (posDiff b l) := by
  rw [Dev.freqCycle_eq, Dev.set_trk, Dev.trk_trkUpd _ h]

theorem Dev.freqCycle_freq10 : (s.freqCycle g l b).get (Fld.FRAME_VG_FREQ10_UHZ g) = (s.freqDue g b).get (Fld.FRAME_VG_FREQ10_UHZ g) := by
  rw [Dev.freqCycle_eq, Dev.get_congr (Dev.rd_set_ne (vgFreq10_ne_vgFreq g)), Dev.trkUpd_get]

/-- The first cycle that ends past an awaited end shows the interval, and is the next one's first where it began past that end (R138). -/
theorem Dev.freqCycle_past {e : Int} (hg : g < 4) (hlen : g < s.meter.trk.length) (hdue : (s.trk g).f10Due = some e) (hpast : 0 < posDiff b e) :
    ((s.freqCycle g l b).trk g).f10Due = none ∧ (s.freqCycle g l b).get (Fld.FRAME_VG_FREQ10_UHZ g) = (s.trk g).f10Value true ∧
      ((s.freqCycle g l b).trk g).f10Cycles = if 0 ≤ posDiff l e then 1 else 0 := by
  have hcount := (Dev.freq10Show_framed (s := s) (g := g) e true).1
  have htrk := Dev.freqCycle_trk (s := s) (g := g) (b := b) l (by rw [Dev.freqDue_past hdue hpast]; exact lt_of_lt_of_eq hlen hcount.symm)
  rw [Dev.freqDue_past hdue hpast, Dev.freq10Show_trk _ _ hlen] at htrk
  rw [htrk, Dev.freqCycle_freq10, Dev.freqDue_past hdue hpast, Dev.freq10Show_value _ _ hg]
  refine ⟨?_, rfl, ?_⟩
  · unfold Tracker.f10Cycle
    split <;> rfl
  · exact apply_ite Tracker.f10Cycles _ _ _

/-- While no awaited end is passed a cycle counts where it began in the interval (R138). -/
theorem Dev.freqCycle_counts (hlen : g < s.meter.trk.length) (h : ∀ e, (s.trk g).f10Due = some e → posDiff b e ≤ 0) :
    ((s.freqCycle g l b).trk g).f10Cycles = if 0 ≤ posDiff l (s.trk g).f10From then (s.trk g).f10Cycles + 1 else (s.trk g).f10Cycles := by
  rw [Dev.freqCycle_trk l (by rwa [Dev.freqDue_waits h]), Dev.freqDue_waits h]
  exact apply_ite Tracker.f10Cycles _ _ _

end

/-! #### The end of a 10 s interval (R138) -/

section
variable {s : Dev} {g : Nat} (hlen : g < s.meter.trk.length)
include hlen

/-- An interval that was not wholly in LOCK shows 0. -/
theorem Dev.freq10_unlocked (hg : g < 4) (h : (s.trk g).f10Ok = false ∨ s.trkState g ≠ 2) :
    (s.freq10 g).trk g = { ((s.freq10Over g).trk g).f10Begun s.closePos with f10Ok := s.trkState g == 2 } ∧ (s.freq10 g).get (Fld.FRAME_VG_FREQ10_UHZ g) = 0 := by
  have hno : ((s.trk g).f10Ok && s.trkState g == 2) = false := by
    rcases h with h | h
    · rw [h, Bool.false_and]
    · rw [beq_eq_false_iff_ne.2 h, Bool.and_false]
  have heq : s.freq10 g = ((s.freq10Over g).freq10Show g s.closePos false).trkUpd g fun k => { k with f10Ok := s.trkState g == 2 } := by
    unfold Dev.freq10
    dsimp only
    rw [hno, if_neg Bool.false_ne_true]
  have hover : g < (s.freq10Over g).meter.trk.length := lt_of_lt_of_eq hlen (s.freq10Over_framed g).1.symm
  have hshown : g < ((s.freq10Over g).freq10Show g s.closePos false).meter.trk.length := lt_of_lt_of_eq hover (Dev.freq10Show_framed _ _).1.symm
  rw [heq, Dev.trk_trkUpd _ hshown, Dev.freq10Show_trk _ _ hover, Dev.trkUpd_get, Dev.freq10Show_value _ _ hg]
  exact ⟨rfl, rfl⟩

/-- An interval in LOCK waits for its last cycles. -/
theorem Dev.freq10_waits (hok : (s.trk g).f10Ok = true) (hst : s.trkState g = 2) (hdue : (s.trk g).f10Due = none) :
    (s.freq10 g).trk g = { s.trk g with f10Due := some s.closePos, f10Ok := true } ∧ (s.freq10 g).regs = s.regs := by
  have heq : s.freq10 g = (s.trkUpd g fun k => { k with f10Due := some s.closePos }).trkUpd g fun k => { k with f10Ok := true } := by
    unfold Dev.freq10
    dsimp only
    rw [hok, hst, Dev.freq10Over_none hdue]
    rfl
  rw [heq, Dev.trk_trkUpd _ (lt_of_lt_of_eq hlen (s.trkUpd_trkCount g _).symm), Dev.trk_trkUpd _ hlen]
  exact ⟨rfl, rfl⟩

end

end Sys2Proof.Machine

/-! ### Strides and their publication (R149, R152) -/

namespace Sys2Proof.Machine

open Sys2Proof.Safety

/-! #### What keeps every tracker and every worker -/

/-- The trackers and the workers. -/
def Dev.pacing (s : Dev) : List Tracker × List Pacer := (s.meter.trk, s.meter.pacers)

theorem Dev.pacing_of_meter {s t : Dev} (h : t.meter = s.meter) : t.pacing = s.pacing := by rw [Dev.pacing, h, ← Dev.pacing]

theorem Dev.pacing_trk {s t : Dev} (h : t.pacing = s.pacing) : t.meter.trk = s.meter.trk := congrArg Prod.fst h

theorem Dev.pacing_pacers {s t : Dev} (h : t.pacing = s.pacing) : t.meter.pacers = s.meter.pacers := congrArg Prod.snd h

theorem Dev.ite_pacing (c : Prop) [Decidable c] (s t : Dev) : (if c then s else t).pacing = if c then s.pacing else t.pacing := apply_ite Dev.pacing c s t

theorem Dev.foldl_pacing {α : Type} (f : Dev → α → Dev) (h : ∀ s x, (f s x).pacing = s.pacing) (l : List α) (s : Dev) : (l.foldl f s).pacing = s.pacing :=
  foldl_keep Dev.pacing f h l s

section
variable (s : Dev)

@[simp] theorem Dev.set_pacing (f : Field) (v : Nat) : (s.set f v).pacing = s.pacing := Dev.pacing_of_meter (s.set_meter f v)
@[simp] theorem Dev.set64_pacing (lo hi v : Nat) : (s.set64 lo hi v).pacing = s.pacing := Dev.pacing_of_meter (s.set64_meter lo hi v)
@[simp] theorem Dev.injUse_pacing (p : Nat) : (s.injUse p).pacing = s.pacing := Dev.pacing_of_meter (s.injUse_meter p)
@[simp] theorem Dev.putLive_pacing (c : Nat) (r : Rec) : (s.putLive c r).pacing = s.pacing := rfl

@[simp] theorem Dev.raiseSpec_pacing (g : Nat) (e : Event) (live : Bool) : (s.raiseSpec g e live).pacing = s.pacing := by
  obtain ⟨_, h⟩ := s.raiseSpec_events g e live
  rw [Dev.pacing_of_meter h.meter]
  rfl

theorem Dev.onPacer_pacing (w : Nat) {f : Dev → Dev} (h : (f s).pacing = s.pacing) : (s.onPacer w f).pacing = s.pacing := by
  rw [Dev.onPacer, Dev.ite_pacing, h, ite_self]

@[simp] theorem Dev.lastShow_pacing (g w : Nat) (step : Int) (last : Option Int) : (s.lastShow g w step last).pacing = s.pacing := by
  refine s.onPacer_pacing w ?_
  cases last with
  | none => simp only [Dev.set64_pacing, Dev.set_pacing]
  | some p => simp only [Dev.set64_pacing, Dev.set_pacing]

@[simp] theorem Dev.noteClamps_pacing (w : Nat) (sc : List Scale) : (s.noteClamps w sc).pacing = s.pacing :=
  Dev.foldl_pacing _ (fun t c => by rw [Dev.ite_pacing, Dev.tcClamp, Dev.set_pacing, ite_self]) _ _

@[simp] theorem Dev.pqStep_pacing (g : Nat) (spec : Bool) (i : PqInst) : (s.pqStep g spec i).pacing = s.pacing := by
  have hraise (l : List Nat) (e : Nat → Event) (live : Bool) (t : Dev) : (l.foldl (fun (t : Dev) no => t.raiseSpec g (e no) live) t).pacing = t.pacing :=
    Dev.foldl_pacing _ (fun t _ => t.raiseSpec_pacing g _ _) _ _
  have hharm (t : Dev) (h : Harm) : ({ t with harm := h } : Dev).pacing = t.pacing := rfl
  simp only [Dev.pqStep, hraise, hharm, Dev.ite_pacing, Dev.injUse_pacing, ite_self]

@[simp] theorem Dev.pqEval_pacing (g : Nat) (start : Int) (recs : List (Nat × Rec)) (spec replayed : Bool) :
    (s.pqEval g start recs spec replayed).pacing = s.pacing := by
  unfold Dev.pqEval
  split
  · exact Dev.foldl_pacing _ (fun t i => t.pqStep_pacing g spec i) _ _
  · rfl

end

/-! #### A publication (R149) -/

/-- A worker that has published its records of the cycle. -/
def Pacer.publishing (p : Pacer) (work : Work) : Pacer := { p with spec := some work }

/-- A worker on the live stream publishes; one that replays or is behind does not. -/
def Dev.publishLive (g : Nat) (st : Stride) (s : Dev) (w : Nat) : Dev :=
  if (s.pacer w).behind || (s.pacer w).replay.isSome then s else s.publishOne g st w

theorem Dev.publishOne_pacing (s : Dev) (g : Nat) (st : Stride) (w : Nat) :
    (s.publishOne g st w).pacing = (s.meter.trk, updAt s.meter.pacers w fun p => p.publishing (s.strideWork g w st)) := by
  have hput (l : List (Nat × Rec × ChanBlock)) (t : Dev) : (l.foldl (fun (t : Dev) e => t.putLive e.1 e.2.1) t).pacing = t.pacing :=
    Dev.foldl_pacing _ (fun t e => t.putLive_pacing _ _) _ _
  have hstat (t : Dev) : (t.onPacer w fun t => if st.hold then t.set (Fld.PACER_REC_STAT_PENDING w) 1 else (t.set (Fld.PACER_REC_STAT_PENDING w) 1).set (Fld.PACER_SPEC_CYCLE w) st.cyc).pacing = t.pacing :=
    t.onPacer_pacing w (by simp only [Dev.ite_pacing, Dev.set_pacing, ite_self])
  have hspec (t : Dev) (work : Work) : (t.pacerUpd w fun p => { p with spec := some work }).pacing = (t.meter.trk, updAt t.meter.pacers w fun p => p.publishing work) := rfl
  have hnoted := s.noteClamps_pacing w st.sc
  simp only [Dev.publishOne, Dev.ite_pacing, Dev.pqEval_pacing, hstat, Dev.lastShow_pacing, hput, ite_self, hspec, Dev.pacing_trk hnoted, Dev.pacing_pacers hnoted]

theorem Dev.publishOne_pacers (s : Dev) (g : Nat) (st : Stride) (w : Nat) :
    (s.publishOne g st w).meter.pacers = updAt s.meter.pacers w fun p => p.publishing (s.strideWork g w st) := congrArg Prod.snd (s.publishOne_pacing g st w)

theorem Dev.publishLive_trk (s : Dev) (g : Nat) (st : Stride) (w : Nat) : (Dev.publishLive g st s w).meter.trk = s.meter.trk := by
  unfold Dev.publishLive
  split
  · rfl
  · exact congrArg Prod.fst (s.publishOne_pacing g st w)

/-- A publication leaves the other workers as they were. -/
theorem Dev.publishLive_pacer_ne {s : Dev} {g : Nat} {st : Stride} {w v : Nat} (h : v ≠ w) : (Dev.publishLive g st s w).pacer v = s.pacer v := by
  unfold Dev.publishLive
  split
  · rfl
  · rw [Dev.pacer, Dev.publishOne_pacers, nth_updAt_ne _ _ _ _ _ h, ← Dev.pacer]

theorem Dev.publishLive_length (s : Dev) (g : Nat) (st : Stride) (w : Nat) : (Dev.publishLive g st s w).meter.pacers.length = s.meter.pacers.length := by
  unfold Dev.publishLive
  split
  · rfl
  · rw [Dev.publishOne_pacers, length_updAt]

/-- There is a worker of this number, on the live stream. -/
def Dev.onStream (s : Dev) (w : Nat) : Prop := w < s.meter.pacers.length ∧ (s.pacer w).behind = false ∧ (s.pacer w).replay = none

theorem Dev.publishLive_same {s : Dev} {g : Nat} {st : Stride} {w : Nat} (h : s.onStream w) :
    (Dev.publishLive g st s w).pacer w = (s.pacer w).publishing (s.strideWork g w st) := by
  obtain ⟨hlen, hbehind, hreplay⟩ := h
  have hlive : ¬(((s.pacer w).behind || (s.pacer w).replay.isSome) = true) := by rw [hbehind, hreplay]; decide
  rw [Dev.publishLive, if_neg hlive, Dev.pacer, Dev.publishOne_pacers, nth_updAt_same _ _ _ _ hlen, ← Dev.pacer]

theorem Dev.publishLive_onStream {s : Dev} {g : Nat} {st : Stride} {w v : Nat} (h : s.onStream v) : (Dev.publishLive g st s w).onStream v := by
  refine ⟨lt_of_lt_of_eq h.1 (s.publishLive_length g st w).symm, ?_⟩
  rcases eq_or_ne v w with rfl | hne
  · rw [Dev.publishLive_same h]
    exact h.2
  · rw [Dev.publishLive_pacer_ne hne]
    exact h.2

theorem Dev.publishLive_spec {s : Dev} {g : Nat} {st : Stride} {w : Nat} (h : (Dev.publishLive g st s w).onStream w) :
    ((Dev.publishLive g st s w).pacer w).spec.isSome = true := by
  by_cases hlate : ((s.pacer w).behind || (s.pacer w).replay.isSome) = true
  · rw [Dev.publishLive, if_pos hlate] at h
    obtain ⟨-, hbehind, hreplay⟩ := h
    rw [hbehind, hreplay] at hlate
    cases hlate
  · have hlen := lt_of_lt_of_eq h.1 (s.publishLive_length g st w)
    rw [Bool.or_eq_true, not_or, Bool.not_eq_true, Option.not_isSome_iff_eq_none] at hlate
    rw [Dev.publishLive_same ⟨hlen, hlate⟩]
    rfl

/-- A worker on the live stream that was given the stride has its speculative record after the publication. -/
theorem Dev.publishAll_spec {s : Dev} {g : Nat} {st : Stride} {w : Nat} (hw : w ∈ st.who) (h : s.onStream w) :
    ((st.who.foldl (Dev.publishLive g st) s).pacer w).spec.isSome = true := by
  refine foldl_reaches (p := fun t : Dev => t.onStream w → (t.pacer w).spec.isSome = true) hw (fun t => Dev.publishLive_spec) (fun t v _ hv ht hlive => ?_) s
    (foldl_inv (fun t : Dev => t.onStream w) _ (fun t v ht => Dev.publishLive_onStream ht) _ s h)
  rw [Dev.onStream, Dev.publishLive_length, Dev.publishLive_pacer_ne hv.symm] at hlive
  rw [Dev.publishLive_pacer_ne hv.symm]
  exact ht hlive

/-- The oldest stride is marked. -/
def Dev.strideMarked (s : Dev) (g : Nat) (st : Stride) (r : List Stride) : Dev := s.trkUpd g fun t => { t with strides := { st with published := true } :: r }

theorem Dev.publish_eq {s : Dev} {g : Nat} {st : Stride} {r : List Stride} (h : (s.trk g).strides = st :: r) (hnew : st.published = false) :
    s.publish g = st.who.foldl (Dev.publishLive g st) (s.strideMarked g st r) := by
  unfold Dev.publish
  rw [h]
  dsimp only
  rw [if_neg (Bool.eq_false_iff.1 hnew)]
  rfl

theorem Dev.trk_lt {s : Dev} {g : Nat} (h : (s.trk g).strides ≠ []) : g < s.meter.trk.length := by
  refine Nat.lt_of_not_le fun hle => h ?_
  rw [Dev.trk, nth, List.getD_eq_default _ _ hle]

/-- A publication marks the oldest stride, and every worker on the live stream has its speculative record. -/
theorem Dev.publish_done {s : Dev} {g : Nat} {st : Stride} {r : List Stride} (h : (s.trk g).strides = st :: r) (hnew : st.published = false) :
    ((s.publish g).trk g).strides = { st with published := true } :: r ∧ ∀ w ∈ st.who, s.onStream w → ((s.publish g).pacer w).spec.isSome = true := by
  rw [Dev.publish_eq h hnew]
  constructor
  · have hlen := Dev.trk_lt (s := s) (g := g) (by rw [h]; exact List.cons_ne_nil _ _)
    rw [Dev.trk_congr (foldl_keep (fun t : Dev => t.meter.trk) _ (fun t w => t.publishLive_trk g st w) _ _), Dev.strideMarked, Dev.trk_trkUpd _ hlen]
  · exact fun w hw hlive => Dev.publishAll_spec hw hlive

/-! #### A stride is issued (R152) -/

theorem Dev.joinAt_trk (s : Dev) (g w : Nat) (pos : Int) (volts : Bool) : (s.joinAt g w pos volts).meter.trk = s.meter.trk := by
  unfold Dev.joinAt
  dsimp only
  rw [Dev.pacerUpd_meter]
  exact foldl_keep (fun t : Dev => t.meter.trk) _ (by intros; rfl) _ _

theorem Dev.taskAdd_trk (s : Dev) (w : Nat) (k : PacerTask) : (s.taskAdd w k).meter.trk = s.meter.trk := by
  rw [Dev.taskAdd, Dev.pacerUpd_meter]

theorem Dev.strideJoin_trk (s : Dev) (g : Nat) (st : Stride) (all : Bool) : (s.strideJoin g st all).meter.trk = s.meter.trk := by
  refine foldl_keep (fun t : Dev => t.meter.trk) _ (fun t w => ?_) _ s
  split
  · split
    · exact t.taskAdd_trk w _
    · exact t.joinAt_trk g w _ _
  · rfl

theorem Dev.strideShow_trk (s : Dev) (g : Nat) (st : Stride) : (s.strideShow g st).meter.trk = s.meter.trk :=
  Dev.pacing_trk ((Dev.foldl_pacing _ (fun t w => t.lastShow_pacing g w _ _) _ _).trans (s.set_pacing _ _))

/-- A tracker that has issued a stride. -/
def Tracker.issued (k : Tracker) (st : Stride) : Tracker := { k with strides := k.strides ++ [st], next := (k.next + 1) % 2 ^ 32, fresh := false, restartAt := none }

section
variable {s : Dev} {g : Nat}

theorem Dev.strideIssue_trk (hlen : g < s.meter.trk.length) (hframing : s.framing g = true) (hfew : (s.trk g).strides.length < 2) (hstart : (s.trk g).restartAt = none)
    (hjob : (s.trk g).job = none) : (s.strideIssue g).trk g = (s.trk g).issued (s.strideNow g) := by
  have heq : s.strideIssue g = ((s.strideJoin g (s.strideNow g) ((s.trk g).fresh || false)).trkUpd g fun k => k.issued (s.strideNow g)).strideShow g (s.strideNow g) := by
    unfold Dev.strideIssue
    dsimp only
    rw [hframing, decide_eq_false (Nat.not_le.2 hfew), hstart, hjob]
    rfl
  have hjoin := s.strideJoin_trk g (s.strideNow g) ((s.trk g).fresh || false)
  rw [heq, Dev.trk_congr (Dev.strideShow_trk _ g _), Dev.trk_trkUpd _ (by rwa [hjoin]), Dev.trk_congr hjoin]

theorem Dev.strideIssue_none (h : s.framing g = false ∨ 2 ≤ (s.trk g).strides.length) : s.strideIssue g = s := by
  unfold Dev.strideIssue
  dsimp only
  refine if_pos ?_
  rcases h with h | h
  · rw [h]
    rfl
  · rw [decide_eq_true h, Bool.or_true]
    rfl

/-- Without a restart the stride is of the next cycle, with the group's N and workers. -/
theorem Dev.strideNow_parts (hstart : (s.trk g).restartAt = none) :
    (s.strideNow g).cyc = (s.trk g).next ∧ (s.strideNow g).n = s.nOf g ∧ (s.strideNow g).who = s.workers g := by
  unfold Dev.strideNow
  dsimp only
  rw [hstart]
  exact ⟨rfl, rfl, rfl⟩

end

end Sys2Proof.Machine

/-! ### Tracker states (R137, R139, R141) -/

namespace Sys2Proof.Machine

open Sys2Proof.Safety

theorem trkCount_lt {s t : Dev} {g : Nat} (h : t.trkCount = s.trkCount) (hlen : g < s.meter.trk.length) : g < t.meter.trk.length := lt_of_lt_of_eq hlen h.symm

/-! #### What a cycle's end measures (R139, R141) -/

theorem Dev.raiseIf_events (s : Dev) (b : Bool) (p no seq item : Nat) : eventsOnly s (if b = true then s.raiseAt p no seq item false false else s) := by
  split
  · exact Dev.raiseAt_eventsOnly _ _ _ _ _ _ _
  · exact eventsOnly_refl s

/-- LOWAMP and RANGE are written after the amplitude, with events between them. -/
theorem Dev.cycleMeas_parts (s : Dev) (g amp : Nat) (low out : Bool) :
    ∃ t, eventsOnly (s.set (Fld.FRAME_VG_AMP_AMP g) (satN 0x7FFF amp)) t ∧ s.cycleMeas g amp low out = (t.setB (Fld.FRAME_VG_STAT_LOWAMP g) low).setB (Fld.FRAME_VG_STAT_RANGE g) out :=
  ⟨_, eventsOnly_trans (Dev.raiseIf_events _ _ _ _ _ _) (Dev.raiseIf_events _ _ _ _ _ _), rfl⟩

section
variable (s : Dev) (g amp : Nat) (low out : Bool)

theorem Dev.cycleMeas_meter : (s.cycleMeas g amp low out).meter = s.meter := by
  obtain ⟨t, hevents, heq⟩ := s.cycleMeas_parts g amp low out
  rw [heq, Dev.setB_meter, Dev.setB_meter, hevents.meter, Dev.set_meter]

theorem Dev.cycleMeas_amp (hg : g < 4) : (s.cycleMeas g amp low out).get (Fld.FRAME_VG_AMP_AMP g) = satN 0x7FFF amp := by
  obtain ⟨t, hevents, heq⟩ := s.cycleMeas_parts g amp low out
  rw [heq, Dev.get_congr (Dev.rd_setB_ne (vgAmp_ne_vgStat g)), Dev.get_congr (Dev.rd_setB_ne (vgAmp_ne_vgStat g)), hevents.get (eventReg_vgAmp hg)]
  exact Dev.get_set_lt _ _ _ rfl (satN_lt (show 0x7FFF < 2 ^ 15 by decide))

theorem Dev.cycleMeas_low : (s.cycleMeas g amp low out).on (Fld.FRAME_VG_STAT_LOWAMP g) = low := by
  obtain ⟨t, -, heq⟩ := s.cycleMeas_parts g amp low out
  rw [heq, Dev.on_setB_apart _ _ _ _ rfl rfl (by simp [Field.apart, Fld.FRAME_VG_STAT_LOWAMP, Fld.FRAME_VG_STAT_RANGE]), Dev.on_setB_same _ _ _ rfl]

theorem Dev.cycleMeas_fixedOn (hg : g < 4) : (s.cycleMeas g amp low out).fixedOn g = s.fixedOn g := by
  obtain ⟨t, hevents, heq⟩ := s.cycleMeas_parts g amp low out
  rw [Dev.fixedOn, Dev.fixedOn, heq, Dev.get_congr (Dev.rd_setB_ne (vgCfg_ne_vgStat g)), Dev.get_congr (Dev.rd_setB_ne (vgCfg_ne_vgStat g)), hevents.get (eventReg_vgCfg hg),
    Dev.get_congr (Dev.rd_set_ne (vgCfg_ne_vgAmp g))]

end

/-- A cycle's end: what it measured, and the loss of words is taken up. -/
def Dev.cycleMeasured (s : Dev) (g amp : Nat) (low out : Bool) : Dev := (s.cycleMeas g amp low out).trkUpd g fun t => { t with lost := false }

theorem Dev.cycleMeasured_trkCount (s : Dev) (g amp : Nat) (low out : Bool) : (s.cycleMeasured g amp low out).trkCount = s.trkCount := by
  rw [Dev.cycleMeasured, Dev.trkUpd_trkCount, Dev.trkCount, Dev.cycleMeas_meter, ← Dev.trkCount]

theorem Dev.cycleMeasured_fixedOn {g : Nat} (s : Dev) (amp : Nat) (low out : Bool) (hg : g < 4) : (s.cycleMeasured g amp low out).fixedOn g = s.fixedOn g := by
  rw [Dev.cycleMeasured, Dev.fixedOn, Dev.trkUpd_get, ← Dev.fixedOn, Dev.cycleMeas_fixedOn _ _ _ _ _ hg]

/-! #### The tracker leaves LOCK (R137, R356) -/

/-- A register that leaving LOCK may change: the 10 s frequency and a rate measurement's result. -/
def leaveReg (g a : Nat) : Bool := f10Reg g a || a == Reg.RTC_RATE_RES

theorem Dev.rateVoid_framed (s : Dev) (g : Nat) : Dev.framed Dev.trkCount (leaveReg g) s s.rateVoid := by
  have hres : leaveReg g Reg.RTC_RATE_RES = true := by rw [leaveReg, beq_self_eq_true, Bool.or_true]
  unfold Dev.rateVoid
  split
  · exact Dev.framed_refl s
  · have hrate : Dev.framed Dev.trkCount (leaveReg g) s (s.rtcUpd fun r => { r with rate := none }) := Dev.framed_of_regs rfl rfl
    have hbusy := hrate.trans (Dev.framed_set Dev.trkCount_blind _ Fld.RTC_RATE_RES_BUSY 0 hres)
    exact (hbusy.trans (Dev.framed_set Dev.trkCount_blind _ Fld.RTC_RATE_RES_VOID 1 hres)).trans (Dev.framed_raise Dev.trkCount_blind _ _ _)

theorem Dev.lockLeft_framed (s : Dev) (g : Nat) : Dev.framed Dev.trkCount (leaveReg g) s (s.lockLeft g) :=
  Dev.framed_ite _ (fun _ => Dev.framed_ite _ (fun _ => s.rateVoid_framed g) fun _ => Dev.framed_refl s) fun _ => Dev.framed_refl s

theorem leaveReg_vg (g : Nat) : leaveReg g (Reg.FRAME_VG_AMP g) = false ∧ leaveReg g (Reg.FRAME_VG_STAT g) = false := by
  simp only [leaveReg, f10Reg, Reg.FRAME_VG_AMP, Reg.FRAME_VG_STAT, Reg.FRAME_VG_FREQ10, Reg.RTC_RATE_RES, Bool.or_eq_false_iff, beq_eq_false_iff_ne]
  omega

/-- A tracker that has gone to COAST. -/
def Tracker.coasting (k : Tracker) : Tracker := { k with coastCnt := 0, lockCnt := 0, locked := k.ts, f10Ok := false, relock := false, lastMeas := none }

/-- LOCK is left: the 10 s interval and a rate measurement against the group end. -/
def Dev.lockEnds (s : Dev) (g : Nat) : Dev := ((s.freq10Over g).lockLeft g).trkUpd g Tracker.coasting

theorem Dev.lockEnds_framed (s : Dev) (g : Nat) : Dev.framed Dev.trkCount (leaveReg g) s (s.lockEnds g) :=
  Dev.framed.trans (Dev.framed.trans (Dev.framed.mono id (fun _ => rfl) (fun a ha => by rw [leaveReg, ha, Bool.true_or]) (s.freq10Over_framed g)) (Dev.lockLeft_framed _ g))
    (Dev.framed_trkUpd _ _ g _)

theorem Dev.lockEnds_f10Ok {s : Dev} {g : Nat} (h : g < s.meter.trk.length) : ((s.lockEnds g).trk g).f10Ok = false := by
  have hleft := ((s.freq10Over g).lockLeft_framed g).1.trans (s.freq10Over_framed g).1
  rw [Dev.lockEnds, Dev.trk_trkUpd _ (trkCount_lt hleft h)]
  rfl

/-- A tracker's state and frequency as its state changes, with the change's event. -/
def Dev.stateShown (s : Dev) (g state uhz no seq : Nat) : Dev :=
  ((s.set (Fld.FRAME_VG_STAT_STATE g) state).set (Fld.FRAME_VG_FREQ_UHZ g) uhz).raiseAt Pg.FRAME no seq g false false

section
variable (s : Dev) (g : Nat) {state uhz : Nat} (no seq : Nat)

theorem Dev.stateShown_events : eventsOnly ((s.set (Fld.FRAME_VG_STAT_STATE g) state).set (Fld.FRAME_VG_FREQ_UHZ g) uhz) (s.stateShown g state uhz no seq) :=
  Dev.raiseAt_eventsOnly _ _ _ _ _ _ _

theorem Dev.stateShown_state (hg : g < 4) (h : state < 8) : (s.stateShown g state uhz no seq).trkState g = state := by
  rw [Dev.trkState, (s.stateShown_events g no seq).get (eventReg_vgState hg), Dev.get_congr (Dev.rd_set_ne (vgStat_ne_vgFreq g))]
  exact Dev.get_set_lt _ _ _ rfl h

theorem Dev.stateShown_freq (hg : g < 4) (h : uhz < 2 ^ 32) : (s.stateShown g state uhz no seq).get (Fld.FRAME_VG_FREQ_UHZ g) = uhz := by
  rw [(s.stateShown_events g no seq).get (eventReg_vgFreq hg)]
  exact Dev.get_set_lt _ _ _ rfl h

theorem Dev.stateShown_amp (hg : g < 4) : (s.stateShown g state uhz no seq).get (Fld.FRAME_VG_AMP_AMP g) = s.get (Fld.FRAME_VG_AMP_AMP g) := by
  rw [(s.stateShown_events g no seq).get (eventReg_vgAmp hg), Dev.get_congr (Dev.rd_set_ne (vgAmp_ne_vgFreq g)), Dev.get_congr (Dev.rd_set_ne (vgAmp_ne_vgStat g))]

theorem Dev.stateShown_low (hg : g < 4) : (s.stateShown g state uhz no seq).on (Fld.FRAME_VG_STAT_LOWAMP g) = s.on (Fld.FRAME_VG_STAT_LOWAMP g) := by
  rw [Dev.on_congr ((s.stateShown_events g no seq).1 _ (eventReg_vgLow hg)), Dev.on_congr (Dev.rd_set_ne (vgStat_ne_vgFreq g)),
    Dev.on_set_apart _ _ _ _ rfl rfl (by simp [Field.apart, Fld.FRAME_VG_STAT_LOWAMP, Fld.FRAME_VG_STAT_STATE])]

theorem Dev.stateShown_trk : (s.stateShown g state uhz no seq).trk g = s.trk g := by
  rw [Dev.trk_congr (congrArg Meter.trk (s.stateShown_events g no seq).meter), Dev.set_trk, Dev.set_trk]

end

/-! #### The end of a cycle (R137) -/

/-- The amplitude of a cycle is low, or more than 48 of its words were missing. -/
def Dev.cycleLow (s : Dev) (g amp : Nat) : Bool := decide (amp < s.get (Fld.FRAME_VG_AMIN_AMIN g)) || (s.trk g).lost

/-- A frequency out of the range that a tracker follows. -/
def cycleOut (uhz : Nat) : Bool := decide (uhz < 42500000) || decide (69000000 < uhz)

section
variable {s : Dev} {g : Nat} (ok : Bool) (amp uhz : Nat) (pos : Int)

theorem Dev.cycleEnd_off (h : s.trkState g = 0) : s.cycleEnd g ok amp uhz pos = s := if_pos h

/-- A low amplitude takes the tracker from LOCK to COAST. -/
theorem Dev.cycleEnd_lost (hst : s.trkState g = 2) (hlow : s.cycleLow g amp = true) :
    s.cycleEnd g ok amp uhz pos = ((s.cycleMeasured g amp true (cycleOut uhz)).lockEnds g).stateShown g 3 0 1 s.newestSeq := by
  unfold Dev.cycleEnd
  dsimp only
  rw [if_neg (by omega), if_pos hst, ← Dev.cycleLow, hlow, Bool.true_or, if_pos rfl]
  rfl

/-- A tracker that has entered LOCK from ACQUIRE: framing starts at the crossing. -/
def Tracker.locking (k : Tracker) (p pos : Int) : Tracker :=
  { k with ts := p, r := 0, lockCnt := 0, coastCnt := 0, relock := false, lastMeas := some pos, boundary := pos, fresh := true, strides := [] }

theorem Dev.lockNow_first (hfixed : s.fixedOn g = false) :
    s.lockNow g uhz pos false = (s.trkUpd g fun k => k.locking (s.periodOf g uhz) pos).stateShown g 2 uhz 0 s.newestSeq := by
  unfold Dev.lockNow
  dsimp only
  rw [hfixed]
  rfl

/-- The eighth good cycle in a row takes the tracker from ACQUIRE to LOCK. -/
theorem Dev.cycleEnd_locks (hst : s.trkState g = 1) (hlow : s.cycleLow g amp = false) (hout : cycleOut uhz = false) (hcnt : 7 ≤ (s.trk g).lockCnt) :
    s.cycleEnd g true amp uhz pos = ((s.cycleMeasured g amp false false).lockNow g uhz (posWrap pos) false).harmShow g := by
  have hgood : (true && !false && !false) = true := rfl
  unfold Dev.cycleEnd
  dsimp only
  rw [if_neg (by omega), if_neg (by omega), ← Dev.cycleLow, hlow, ← cycleOut, hout, if_pos hgood, if_pos (Nat.succ_le_succ hcnt), hst]
  rfl

/-- The limit of COAST takes the tracker to FREE. -/
theorem Dev.cycleEnd_frees (hst : s.trkState g = 3) (hlimit : s.get (Fld.FRAME_VG_CFG_COAST g) ≤ (s.trk g).coastCnt + 1) :
    s.cycleEnd g false amp uhz pos =
      (((s.cycleMeasured g amp (s.cycleLow g amp) (cycleOut uhz)).trkUpd g fun t => { t with lockCnt := 0, coastCnt := (s.trk g).coastCnt + 1 }).set (Fld.FRAME_VG_STAT_STATE g) 4).raiseAt
        Pg.FRAME 2 s.newestSeq g false false := by
  unfold Dev.cycleEnd
  dsimp only
  rw [if_neg (by omega), if_neg (by omega), Bool.false_and, Bool.false_and, if_neg Bool.false_ne_true, if_neg (by decide), if_pos hst, if_pos ⟨hst, hlimit⟩]
  rfl

end

end Sys2Proof.Machine

namespace Sys2Proof.Certificates

open Sys2Proof Sys2Proof.Machine Sys2Proof.Safety

section
variable {s : State} {g : Nat} (hon : s.mainOn = true) (hrc : s.clk.onRc = false) (hg : g < 4)
include hon hrc hg

/-- A command on a group that a tracker serves. -/
theorem engAct_group (f : Dev → Dev) : engAct s (fun d => if g < 4 then f d else d) = .next { s with toDev := s.toDev.gathered f } := by
  rw [engAct_eq s _ hon hrc]
  simp only [if_pos hg]

/-- A command that does nothing while events are gathered. -/
theorem engAct_idle {f : Dev → Dev} (h : f s.toDev.gathering = s.toDev.gathering) :
    engAct s (fun d => if g < 4 then f d else d) = .next { s with toDev := s.toDev.gathered id } := by
  rw [engAct_group hon hrc hg, Dev.gathered, ← Dev.gathering, h]
  rfl

end

/-! #### Trackers (R137–R141, R149, R152) -/

theorem gathered_trk (s : Dev) (f : Dev → Dev) (g : Nat) : (s.gathered f).trk g = (f s.gathering).trk g :=
  Dev.trk_congr (congrArg Meter.trk (s.gathered_events f).meter)

section
variable {s : State} {g : Nat} (hon : s.mainOn = true) (hrc : s.clk.onRc = false) (hg : g < 4)
include hon hrc hg

theorem strideIssue_completes (hlen : g < s.meter.trk.length) (hframing : s.framing g = true) (hfew : (s.trk g).strides.length < 2) (hstart : (s.trk g).restartAt = none)
    (hjob : (s.trk g).job = none) :
    completes (.strideIssue g) s fun t => keepsQueue s t ∧
      (∃ k, (t.trk g).strides = (s.trk g).strides ++ [k] ∧ k.cyc = (s.trk g).next ∧ k.n = s.nOf g ∧ k.who = s.workers g) ∧ (t.trk g).next = ((s.trk g).next + 1) % 2 ^ 32 := by
  have htrk := Dev.strideIssue_trk (s := s.toDev.gathering) (g := g) hlen hframing hfew hstart hjob
  refine ⟨_, engAct_group hon hrc hg _, ⟨rfl, rfl⟩, ?_⟩
  dsimp only
  rw [gathered_trk, htrk]
  exact ⟨⟨_, rfl, Dev.strideNow_parts hstart⟩, rfl⟩

theorem speculativePublish_completes {st : Stride} {r : List Stride} (h : (s.trk g).strides = st :: r) (hnew : st.published = false) :
    completes (.speculativePublish g) s fun t => keepsQueue s t ∧ (t.trk g).strides = { st with published := true } :: r ∧
      ∀ w ∈ st.who, w < s.meter.pacers.length → (s.pacer w).behind = false → (s.pacer w).replay = none → (t.pacer w).spec.isSome = true := by
  obtain ⟨hmarked, hspec⟩ := Dev.publish_done (s := s.toDev.gathering) h hnew
  refine ⟨_, engAct_group hon hrc hg _, ⟨rfl, rfl⟩, ?_⟩
  dsimp only
  rw [gathered_trk]
  refine ⟨hmarked, fun w hw hlen hbehind hreplay => ?_⟩
  rw [Dev.pacer, (s.toDev.gathered_events _).meter, ← Dev.pacer]
  exact hspec w hw ⟨hlen, hbehind, hreplay⟩

/-- A tracker in LOCK whose cycle is low, or lost words, goes to COAST (R137, R141). -/
theorem trackerCycleEnd_coasts (ok : Bool) {amp : Nat} (uhz : Nat) (pos : Int) (hlen : g < s.meter.trk.length) (hst : s.trkState g = 2)
    (hlow : amp < s.get (Fld.FRAME_VG_AMIN_AMIN g) ∨ (s.trk g).lost = true) :
    completes (.trackerCycleEnd g ok amp uhz pos) s fun t => keepsQueue s t ∧ t.trkState g = 3 ∧ t.get (Fld.FRAME_VG_FREQ_UHZ g) = 0 ∧
      t.get (Fld.FRAME_VG_AMP_AMP g) = satN 0x7FFF amp ∧ t.on (Fld.FRAME_VG_STAT_LOWAMP g) = true ∧ (t.trk g).f10Ok = false := by
  have hcycle : s.toDev.gathering.cycleLow g amp = true := by
    rw [Dev.cycleLow, Bool.or_eq_true, decide_eq_true_eq]
    exact hlow
  have hevents := s.toDev.gathered_events fun d => d.cycleEnd g ok amp uhz pos
  rw [Dev.cycleEnd_lost (s := s.toDev.gathering) ok amp uhz pos hst hcycle] at hevents
  have hends := (s.toDev.gathering.cycleMeasured g amp true (cycleOut uhz)).lockEnds_framed g
  obtain ⟨hamp, hstat⟩ := leaveReg_vg g
  refine ⟨_, engAct_group hon hrc hg _, ⟨rfl, rfl⟩, ?_, ?_, ?_, ?_, ?_⟩
  · exact (hevents.get (eventReg_vgState hg)).trans (Dev.stateShown_state _ _ _ _ hg (by decide))
  · exact (hevents.get (eventReg_vgFreq hg)).trans (Dev.stateShown_freq _ _ _ _ hg (by decide))
  · rw [hevents.get (eventReg_vgAmp hg), Dev.stateShown_amp _ _ _ _ hg, hends.get _ hamp (eventReg_vgAmp hg), Dev.cycleMeasured, Dev.trkUpd_get, Dev.cycleMeas_amp _ _ _ _ _ hg]
  · rw [Dev.on_congr (hevents.1 _ (eventReg_vgLow hg)), Dev.stateShown_low _ _ _ _ hg, Dev.on_congr (hends.2 _ hstat (eventReg_vgLow hg)), Dev.cycleMeasured, Dev.trkUpd_on,
      Dev.cycleMeas_low]
  · rw [Dev.trk_congr (congrArg Meter.trk hevents.meter), Dev.stateShown_trk]
    exact Dev.lockEnds_f10Ok (trkCount_lt (Dev.cycleMeasured_trkCount ..) hlen)

/-- A tracker in ACQUIRE enters LOCK with the eighth good cycle in a row, and framing starts at its crossing (R137). -/
theorem trackerCycleEnd_locks {amp uhz : Nat} (pos : Int) (hlen : g < s.meter.trk.length) (hst : s.trkState g = 1) (hamp : s.get (Fld.FRAME_VG_AMIN_AMIN g) ≤ amp)
    (hlost : (s.trk g).lost = false) (hfixed : s.fixedOn g = false) (hlo : 42500000 ≤ uhz) (hhi : uhz ≤ 69000000) (hcnt : 7 ≤ (s.trk g).lockCnt) :
    completes (.trackerCycleEnd g true amp uhz pos) s fun t => keepsQueue s t ∧ t.trkState g = 2 ∧ t.get (Fld.FRAME_VG_FREQ_UHZ g) = uhz ∧
      (t.trk g).boundary = posWrap pos ∧ (t.trk g).fresh = true ∧ (t.trk g).strides = [] := by
  have hlow : s.toDev.gathering.cycleLow g amp = false := by
    rw [Dev.cycleLow, Bool.or_eq_false_iff, decide_eq_false_iff_not, Nat.not_lt]
    exact ⟨hamp, hlost⟩
  have hout : cycleOut uhz = false := by
    rw [cycleOut, decide_eq_false (Nat.not_lt.2 hlo), decide_eq_false (Nat.not_lt.2 hhi)]
    rfl
  have hevents := s.toDev.gathered_events fun d => d.cycleEnd g true amp uhz pos
  rw [Dev.cycleEnd_locks (s := s.toDev.gathering) amp uhz pos hst hlow hout hcnt, Dev.lockNow_first _ _ ((Dev.cycleMeasured_fixedOn s.toDev.gathering _ _ _ hg).trans hfixed)] at hevents
  have hcount : g < (s.toDev.gathering.cycleMeasured g amp false false).meter.trk.length := trkCount_lt (Dev.cycleMeasured_trkCount ..) hlen
  have hactive : Reg.FRAME_VG_STAT g ≠ Reg.HARM_GRP_STAT g ∧ Reg.FRAME_VG_FREQ g ≠ Reg.HARM_GRP_STAT g := by
    unfold Reg.FRAME_VG_STAT Reg.FRAME_VG_FREQ Reg.HARM_GRP_STAT
    omega
  refine ⟨_, engAct_group hon hrc hg _, ⟨rfl, rfl⟩, ?_, ?_, ?_⟩
  · rw [Dev.trkState, hevents.get (eventReg_vgState hg), Dev.harmShow, Dev.get_congr (Dev.rd_setB_ne hactive.1)]
    exact Dev.stateShown_state _ _ _ _ hg (by decide)
  · rw [hevents.get (eventReg_vgFreq hg), Dev.harmShow, Dev.get_congr (Dev.rd_setB_ne hactive.2)]
    exact Dev.stateShown_freq _ _ _ _ hg (lt_of_le_of_lt hhi (by decide))
  · dsimp only
    rw [Dev.trk_congr (congrArg Meter.trk hevents.meter), Dev.harmShow, Dev.trk_congr (congrArg Meter.trk (Dev.setB_meter _ _ _)), Dev.stateShown_trk, Dev.trk_trkUpd _ hcount]
    exact ⟨rfl, rfl, rfl⟩

/-- A tracker in COAST goes to FREE at its limit (R137). -/
theorem trackerCycleEnd_frees (amp uhz : Nat) (pos : Int) (hlen : g < s.meter.trk.length) (hst : s.trkState g = 3)
    (hlimit : s.get (Fld.FRAME_VG_CFG_COAST g) ≤ (s.trk g).coastCnt + 1) :
    completes (.trackerCycleEnd g false amp uhz pos) s fun t => keepsQueue s t ∧ t.trkState g = 4 ∧ (t.trk g).coastCnt = (s.trk g).coastCnt + 1 := by
  have hevents := s.toDev.gathered_events fun d => d.cycleEnd g false amp uhz pos
  rw [Dev.cycleEnd_frees (s := s.toDev.gathering) amp uhz pos hst hlimit] at hevents
  have hfreed := eventsOnly_trans (Dev.raiseAt_eventsOnly _ _ _ _ _ _ _) hevents
  have hcount : g < (s.toDev.gathering.cycleMeasured g amp (s.toDev.gathering.cycleLow g amp) (cycleOut uhz)).meter.trk.length :=
    trkCount_lt (Dev.cycleMeasured_trkCount ..) hlen
  refine ⟨_, engAct_group hon hrc hg _, ⟨rfl, rfl⟩, ?_, ?_⟩
  · rw [Dev.trkState, hfreed.get (eventReg_vgState hg)]
    exact Dev.get_set_lt _ _ _ rfl (show 4 < 2 ^ 3 by decide)
  · dsimp only
    rw [Dev.trk_congr (congrArg Meter.trk hfreed.meter), Dev.set_trk, Dev.trk_trkUpd _ hcount]
    rfl

/-- An interval that was not wholly in LOCK ends with the frequency 0 (R138). -/
theorem freq10Interval_unlocked (hlen : g < s.meter.trk.length) (h : (s.trk g).f10Ok = false ∨ s.trkState g ≠ 2) :
    completes (.freq10Interval g) s fun t => keepsQueue s t ∧ (t.trk g).f10Cycles = 0 ∧ (t.trk g).f10Frames = 0 ∧ (t.trk g).f10Due = none ∧
      (t.trk g).f10Ok = decide (s.trkState g = 2) ∧ t.get (Fld.FRAME_VG_FREQ10_UHZ g) = 0 := by
  obtain ⟨htrk, hzero⟩ := Dev.freq10_unlocked (s := s.toDev.gathering) hlen hg h
  have hevents := s.toDev.gathered_events fun d => d.freq10 g
  refine ⟨_, engAct_group hon hrc hg _, ⟨rfl, rfl⟩, ?_⟩
  dsimp only
  rw [gathered_trk, htrk, hevents.get (eventReg_vgFreq10 hg), hzero]
  exact ⟨rfl, rfl, rfl, rfl, rfl⟩

/-- An interval in LOCK waits for its last cycles (R138). -/
theorem freq10Interval_waits (hlen : g < s.meter.trk.length) (hok : (s.trk g).f10Ok = true) (hst : s.trkState g = 2) (hdue : (s.trk g).f10Due = none) :
    completes (.freq10Interval g) s fun t => keepsQueue s t ∧ (t.trk g).f10Due = some s.closePos ∧ (t.trk g).f10Cycles = (s.trk g).f10Cycles ∧
      (t.trk g).f10Frames = (s.trk g).f10Frames ∧ (t.trk g).f10Ok = true ∧ t.get (Fld.FRAME_VG_FREQ10_UHZ g) = s.get (Fld.FRAME_VG_FREQ10_UHZ g) := by
  obtain ⟨htrk, hregs⟩ := Dev.freq10_waits (s := s.toDev.gathering) hlen hok hst hdue
  have hevents := s.toDev.gathered_events fun d => d.freq10 g
  refine ⟨_, engAct_group hon hrc hg _, ⟨rfl, rfl⟩, ?_⟩
  dsimp only
  rw [gathered_trk, htrk, hevents.get (eventReg_vgFreq10 hg), Dev.get_congr (congrArg (Regs.rd · _) hregs)]
  exact ⟨rfl, rfl, rfl, rfl, rfl⟩

end

/-- Settles O12: each command's clause from what the tracker's own step does to its tracker, its workers and its registers. -/
theorem trackerCommandsComplete : Obligations.TrackerCommandsComplete := by
  unfold Obligations.TrackerCommandsComplete
  refine ⟨fun s g hon hrc hg hlen hframing hfew hstart hjob => strideIssue_completes hon hrc hg hlen hframing hfew hstart hjob,
    fun s g hon hrc hg hidle => engAct_idle hon hrc hg (Dev.strideIssue_none hidle),
    fun s g st r hon hrc hg h hnew => speculativePublish_completes hon hrc hg h hnew,
    fun s g ok amp uhz pos hon hrc hg hlen hst hlow => trackerCycleEnd_coasts hon hrc hg ok uhz pos hlen hst hlow,
    fun s g amp uhz pos hon hrc hg hlen hst hamp hlost hfixed hlo hhi hcnt => trackerCycleEnd_locks hon hrc hg pos hlen hst hamp hlost hfixed hlo hhi hcnt,
    fun s g amp uhz pos hon hrc hg hlen hst hlimit => trackerCycleEnd_frees hon hrc hg amp uhz pos hlen hst hlimit,
    fun s g ok amp uhz pos hon hrc hg hst => engAct_idle hon hrc hg (Dev.cycleEnd_off ok amp uhz pos hst),
    fun s g hon hrc hg hlen h => freq10Interval_unlocked hon hrc hg hlen h,
    fun s g hon hrc hg hlen hok hst hdue => freq10Interval_waits hon hrc hg hlen hok hst hdue,
    fun s g l b e hg hlen hdue hpast => ?_, fun s g l b _ hlen hdue => Dev.freqCycle_counts l hlen hdue⟩
  obtain ⟨hnone, hvalue, hcycles⟩ := Dev.freqCycle_past l hg hlen hdue hpast
  refine ⟨hnone, hvalue.trans ?_, hcycles⟩
  simp only [Tracker.f10Value, Bool.true_and, decide_eq_true_eq]

end Sys2Proof.Certificates
